-- ==== Sys2Proof/Word.lean ====
section
/-! DEFINITION. The words the Yargon's manual treats as bits, and the two plain containers of the model:
a table indexed by number and a byte memory. -/

namespace Sys2Proof

abbrev Byte := BitVec 8
abbrev W16 := BitVec 16
abbrev W32 := BitVec 32
abbrev W64 := BitVec 64
/-- One 32-byte scratchpad word, stratum word or tick-program descriptor (R65, R85, R143). -/
abbrev W256 := BitVec 256
/-- One flit: 256 data bits and 32 check bits of SC-256 (R279, R362). -/
abbrev Flit := BitVec 288

/-- A sparse table: entries by index, ascending; an index that is not listed holds the reader's default. -/
abbrev Tbl (α : Type) := List (Nat × α)

/-- Byte memory in canonical form: addresses strictly rising, no zero byte listed. -/
abbrev Mem := List Host.Cell

end Sys2Proof
end

