-- ==== Sys2Proof/Syntax.lean ====
section
/-! DEFINITION. The commands of the Yargon block: one constructor per row of spec/opcode_table.json. The table gives a row no
operand bits; the operands below are those the governing rules name (parameters of R403-R412, fields of R247-R259, the
physical reading an event carries). -/

namespace Sys2Proof

/-- The master an order comes from (R397). -/
inductive Src where
  | ceiling | bmc | host | peer
deriving DecidableEq, Repr

/-- What every command packet carries beside its parameters (R389); `data` is what a read of BUFFER returns. -/
structure CmdHdr where
  src : Src
  seq : Nat
  expert : Bool
  buffer : Nat
  bufferLen : Nat
  data : List Byte
deriving DecidableEq, Repr

/-- A raw command packet (R389): opcode, the slot's SEQ field, the 14 reserved bytes at offsets 2-3 and 20-31 as one little-endian value,
buffer, the 224 parameter bytes, and what a read of BUFFER returns. -/
structure CmdPacket where
  opcode : Nat
  seq : Nat
  reserved : Nat
  buffer : Nat
  bufferLen : Nat
  params : List Byte
  data : List Byte
deriving DecidableEq, Repr

/-- The sender of a stream message: airspace addressed, source address and port, ingress Ethernet port, SEQ and HANDLE
(R244), and the airspace's addressed IP family (true: IPv6). -/
structure Client where
  airspace : Nat
  addr : Nat
  port : Nat
  eth : Nat
  seq : Nat
  handle : Nat
  v6 : Bool
deriving DecidableEq, Repr

/-- The sampling values of R225. -/
structure Sampling where
  temperature : W32
  topP : W32
  minP : W32
  topK : Nat
  seed : W64
  stopIds : List Nat
  biases : List (Nat × W32)
deriving DecidableEq, Repr

/-- One part of an OPEN or CONTINUE (R247, R249). The request fields stand in part 0 only. -/
structure OpenPart where
  part : Nat
  parts : Nat
  tokenFirst : Nat
  tokens : List Nat
  promptLen : Nat
  maxTokens : Nat
  dest : Nat
  cls : Nat
  register : Bool
  sampling : Option Sampling
  prefixHandle : Nat
  registerLen : Nat
  adapterId : Nat
  /-- the or of every reserved bit and byte of the part -/
  reserved : Nat
deriving DecidableEq, Repr

/-- An IMAGE_CHUNK message (R259). -/
structure ChunkMsg where
  airspace : Nat
  source : Nat
  transfer : Nat
  chunk : Nat
  offset : Nat
  data : List Byte
deriving DecidableEq, Repr

/-- A received Ethernet frame, as R242-R245 judge it. -/
structure Frame where
  port : Nat
  length : Nat
  fcsOk : Bool
  fragment : Bool
  extensionOrOptions : Bool
  pause : Bool
  dstMac : Nat
  /-- VLAN ID of its IEEE 802.1Q tag, if it has one -/
  vlan : Option Nat
  /-- none: not UDP; some b: UDP with a checksum that is b -/
  udpChecksumOk : Option Bool
  /-- an IPv6 Neighbor Discovery, ARP or ICMP echo request that is answered: the protocol's code -/
  echo : Option Nat
  dstAddr : Nat
  dstPort : Nat
  srcAddr : Nat
  srcPort : Nat
  payload : List Byte
deriving DecidableEq, Repr

/-- A fabric packet: its sideband route word and CRC-8 (R280, R281) and its flits. -/
structure Packet where
  route : W64
  crc : Byte
  flits : List Flit
deriving DecidableEq, Repr

/-- A remote access or its reply at a core: the cycle of the tick in which its words are served, and the cycles it has waited for that (R68, R73). -/
structure Received where
  cycle : Nat
  waited : Nat
  pkt : Packet
deriving DecidableEq, Repr

/-- What a dawn calibration found of the fields (R45, R449): those it fails, those whose self-test fails, and the beacon offsets in ps of both branches. -/
structure DawnFields where
  failed : List Nat
  tests : List Nat
  offsets : List (Nat × Nat × Nat)
deriving DecidableEq, Repr

/-- What a dawn calibration found elsewhere (R51): stacks that fail, and crossings (router, port) that fail. -/
structure DawnParts where
  lost : List Nat
  crossings : List (Nat × Nat)
deriving DecidableEq, Repr

/-- An Obtik frame: its 160-bit header and its 36-byte words (R305). -/
structure ObtikFrame where
  header : BitVec 160
  words : List Flit
deriving DecidableEq, Repr

/-- A beacon received on one branch: edge error in cycles from the calibrated offset, and its word (R46, R47). -/
structure BeaconRx where
  edgeError : Int
  word : W32
deriving DecidableEq, Repr

/-- A read of a tray sensor: no answer, or its raw value and VALID bit (R345). -/
structure TrayRead where
  answered : Bool
  valid : Bool
  raw : Int
deriving DecidableEq, Repr

/-- One hot spot's pair of junction readings in 0.1 degree C; `none`: unreadable (R347). -/
structure HotSpotRead where
  field : Nat
  spot : Nat
  a : Option Int
  b : Option Int
deriving DecidableEq, Repr

/-- What the 100 ms thermal loop reads (R345-R348): tray sensors (temperatures 1/128 C, flow 0.01 L/min), junction pairs,
die powers per field in W, module power in W over the last 100 ms. -/
structure ThermalReads where
  inlet : TrayRead
  outlet : TrayRead
  flow : TrayRead
  spots : List HotSpotRead
  fieldPower : List (Nat × Nat)
  modulePower : Nat
deriving DecidableEq, Repr

/-- One table entry written into a router's inactive copy (R288). -/
inductive TableWrite where
  | site (index port : Nat) (reach : Bool)
  | aliasEntry (index fromField toField : Nat) (valid : Bool) (placement : Nat)
  | group (index portMask coreMask : Nat)
  | filter (placement airspaces : Nat) (on : Bool)
deriving DecidableEq, Repr

/-- A neighbour group of the link plan (R310). -/
structure LinkGroup where
  ports : Nat
  neighbour : Nat
  equiv : Bool
deriving DecidableEq, Repr

/-- The link plan of R310. -/
structure LinkPlan where
  modules : Nat
  master : Nat
  mode : Nat
  groups : List LinkGroup
deriving DecidableEq, Repr

/-- The one data word of a SOUND frame (R306). -/
structure SoundMsg where
  moduleId : Nat
  port : Nat
  group : Nat
  starMode : Bool
  holdover : Bool
  planHash : Nat
  adjacency : List (Nat × Nat)
deriving DecidableEq, Repr

/-- Why the host link stops (R379). -/
inductive LinkDownCause where
  | hotReset | linkDown | d3hot | busMasterOff
deriving DecidableEq, Repr

/-- Margins read in one maintenance slot: a vane reading in ps per vane (R52). -/
abbrev VaneReads := List Nat

inductive Instr where
  -- ticks and control slots
  | tickBoundary
  | controlSlot
  | idleControlSlot
  | waitLimitTimeout (airspace request : Nat)
  | wakeAbandoned (field : Nat)
  | seqStaleTimeout
  | commandHeaderReturn (produced repliesConsumed eventsConsumed : W32)
  | commandSlotReturn (pkt : CmdPacket)
  | replyRingRoom (consumed : W32)
  | eventRingRoom (consumed : W32)
  | hostWindowWrite (addr : Nat) (value : W32)
  | registerWrite (addr : Nat) (value : W32)
  | unsupportedAccess (addr size : Nat)
  | hostLinkDown (cause : LinkDownCause)
  | busMasterEnable
  -- host commands: device, power and thermal
  | deviceInfo (h : CmdHdr) (page : Nat)
  | moduleReset (h : CmdHdr) (hold : Nat)
  | zenithRestart (h : CmdHdr) (image : Nat)
  | powerState (h : CmdHdr) (state applyTick : Nat)
  | fieldReset (h : CmdHdr) (field : Nat)
  | setStretch (h : CmdHdr) (committed vaneWarning vaneRelease : Nat)
  | setGranted (h : CmdHdr) (placement share applyTick : Nat)
  | setCore (h : CmdHdr) (scrub remoteWait mergeWindow linkDown : Nat)
  | setCap (h : CmdHdr) (cap storedDefault : Nat)
  | setBreaker (h : CmdHdr) (field domain threshold clear : Nat)
  | setLead (h : CmdHdr) (lead : Nat)
  | setThermal (h : CmdHdr) (limit guard switchOff : Nat)
  -- weights
  | install (h : CmdHdr) (placement airspace source timeLimit older : Nat)
  | installCancel (h : CmdHdr) (placement : Nat)
  | flip (h : CmdHdr) (placement drain : Nat)
  | planLoad (h : CmdHdr) (placement period sized replay : Nat)
  | rebuild (h : CmdHdr) (placement airspace source timeLimit fields : Nat)
  | repair (h : CmdHdr) (placement airspace source field slot : Nat)
  | removePlacement (h : CmdHdr) (placement : Nat)
  | setWeights (h : CmdHdr) (rollback twinProtection : Nat)
  -- sessions
  | sessionQuery (h : CmdHdr) (handle : Nat)
  | sessionCancel (h : CmdHdr) (handles : List Nat)
  | sessionPause (h : CmdHdr) (handle ttl : Nat)
  | sessionList (h : CmdHdr) (airspace mask first : Nat)
  | prefixUnregister (h : CmdHdr) (airspace prefixHandle : Nat)
  | setRound (h : CmdHdr) (placement round : Nat)
  | setSessionLimits (h : CmdHdr) (airspace waitList waitLimit contHold contrailHold : Nat)
  | setSampling (h : CmdHdr) (airspace temperature topP topK minP : Nat)
  | setKv (h : CmdHdr) (airspace ttl slots16k slots32k slots128k pool window : Nat)
  -- adapters and tuning
  | adapterLoad (h : CmdHdr) (placement airspace adapter source timeLimit : Nat)
  | adapterRemove (h : CmdHdr) (placement airspace adapter : Nat)
  | tuneStart (h : CmdHdr) (placement airspace adapter source timeLimit : Nat)
  | tuneStop (h : CmdHdr) (placement : Nat)
  | tuneCommit (h : CmdHdr) (placement : Nat)
  | tuneDiscard (h : CmdHdr) (placement : Nat)
  -- airspaces
  | airspaceBind (h : CmdHdr) (airspace placement : Nat)
  | airspaceUnbind (h : CmdHdr) (airspace : Nat)
  | airspaceReset (h : CmdHdr) (airspace : Nat)
  | setShares (h : CmdHdr) (airspace slot kv cloud power : Nat)
  | setAddress (h : CmdHdr) (airspace index address prefixLen udpPort vlan dhcp ipv4 : Nat)
  | setFilter (h : CmdHdr) (airspace count : Nat)
  | setDestination (h : CmdHdr) (airspace entry port udpPort address : Nat)
  | setEgress (h : CmdHdr) (airspace cap : Nat)
  | setEthPort (h : CmdHdr) (port mtu cap : Nat)
  -- links
  | setLinkPlan (h : CmdHdr) (plan : LinkPlan)
  | setStarChart (h : CmdHdr) (entries : List (Nat × Nat))
  | portReset (h : CmdHdr) (port : Nat)
  | routeTable (h : CmdHdr) (applyTick : Nat) (entries : List Nat)
  | setLinkLimits (h : CmdHdr) (sounding portErrors : Nat)
  -- diagnostics, events, security
  | selfTest (h : CmdHdr) (field : Nat)
  | calibrate (h : CmdHdr) (field : Nat)
  | snapshot (h : CmdHdr) (offset length : Nat)
  | snapshotCopyComplete
  | clearCounters (h : CmdHdr) (block field : Nat)
  | eventMask (h : CmdHdr) (mask : W32)
  | keyEnrol (h : CmdHdr) (airspace slot : Nat)
  | keyRevoke (h : CmdHdr) (airspace slot : Nat)
  | firmwareUpdate (h : CmdHdr) (image : Nat)
  | firmwareWriteComplete (readBackOk : Bool)
  | bmcCommand (pkt : CmdPacket)
  -- programs in the tick
  | decodeStart (core : Nat)
  | prefillStart (core : Nat)
  | prefillIssueStop (core : Nat)
  | decodeAbandon (core : Nat)
  | replayStart (core : Nat)
  | exchangeFence (core : Nat)
  | exchQueueTransfer (core : Nat)
  | maintenanceSlot (field : Nat) (vanes : VaneReads) (selfCheckFailed : List Nat)
  | closingGuard (core : Nat)
  | tuningCell (core : Nat) (backward : Bool)
  | optimiserStep (core : Nat)
  | descriptorIssue (core : Nat)
  -- the operation set
  | endProgram (core : Nat) (d : W256)
  | waitCycle (core : Nat) (d : W256)
  | waitCycleExpiry (core : Nat)
  | branchOnTrouble (core : Nat) (d : W256)
  | matvec (core : Nat) (d : W256)
  | matvecT (core : Nat) (d : W256)
  | halo (core : Nat) (d : W256)
  | send (core : Nat) (d : W256)
  | recv (core : Nat) (d : W256)
  | recvDeadline (core : Nat)
  | reduce (core : Nat) (d : W256)
  | gather (core : Nat) (d : W256)
  | scatter (core : Nat) (d : W256)
  | norm (core : Nat) (d : W256)
  | act (core : Nat) (d : W256)
  | glu (core : Nat) (d : W256)
  | rope (core : Nat) (d : W256)
  | quant (core : Nat) (d : W256)
  | check (core : Nat) (d : W256)
  | vec (core : Nat) (d : W256)
  | copy (core : Nat) (d : W256)
  | score (core : Nat) (d : W256)
  | softmaxOnline (core : Nat) (d : W256)
  | value (core : Nat) (d : W256)
  | kvAppend (core : Nat) (d : W256)
  | gate (core : Nat) (d : W256)
  | dispatch (core : Nat) (d : W256)
  | combine (core : Nat) (d : W256)
  | embed (core : Nat) (d : W256)
  | logits (core : Nat) (d : W256)
  | sample (core : Nat) (d : W256)
  | stateScan (core : Nat) (d : W256)
  | cloudMove (core : Nat) (d : W256)
  | cloudMoveComplete (core : Nat) (ok : Bool)
  -- banks, vanes, stewards
  | bankInitComplete (core bank : Nat)
  | vaneLimit (field : Nat)
  | vaneTrimLower (field : Nat)
  | vaneDemandWithdraw
  | coreLost (field core condition : Nat)
  | railSettled (field : Nat)
  | vlogRaiseOrder (field : Nat)
  | stewardStopOrder (field : Nat) (powerOff : Bool)
  | stewardWakeOrder (field : Nat)
  | routeTableWrite (router : Nat) (w : TableWrite)
  | gustResend (message : Nat)
  -- beacon and fabric
  | beaconEmit
  | beaconArrival (field : Nat) (primary redundant : Option BeaconRx)
  | beaconLossLimit (field : Nat)
  | periodHoldRelease
  | jetstreamArrival (core cycle : Nat) (pkt : Packet)
  | routerPacketEntry (router port cycle : Nat) (pkt : Packet)
  | fabricWrite (core : Nat) (pkt : Received)
  | fabricRead (core : Nat) (pkt : Received)
  | fabricDataReply (core : Nat) (pkt : Received)
  | fabricStatusReply (core : Nat) (pkt : Packet)
  | remoteWaitTimeout (core address : Nat)
  | linkDown (router port : Nat)
  | detourComputed
  -- power
  | forecastWord (field : Nat) (word : W32)
  | forecastMiss (field window : Nat)
  | powerLimitExceeded (power vin : Nat)
  | forcedStretchRelease
  | ceilingPowerLull
  | powerLullRelease
  | ladderEvaluation (p1 p10 vin iin : Nat)
  | breakerTrip (field domain : Nat)
  | segmentTrip (segment : Nat)
  | uvWarn (vin : Nat)
  | inputUv (vin : Nat)
  | inputUvCleared
  | inputLockout (vin : Nat)
  | mainInputRestored
  | mainInputReady
  | auxInputApplied (straps : Nat)
  | auxInputLost
  | refclkMainLoss
  | perstNAssert (micros straps : Nat)
  | perstNRelease
  | dawnCalibrationComplete (region : Option Nat) (failedFields : DawnFields) (failedStacks : DawnParts)
  | placementBuilt (placement : Nat)
  | journalWriteComplete (unwritten : List Nat)
  | overcastExitComplete
  | watchdogLull
  | restartTimeout
  | zenithStagingComplete (ok : Bool)
  | zenithResumed
  -- thermal
  | thermalSample (r : ThermalReads)
  | ceilingThermalSample (couplingA couplingB : Option Int) (junctionMax : Int)
  | tripRelease
  | flowLost (flow : Nat)
  | fieldOffHeat (field : Nat)
  | outlookFormation
  | outlookFit
  | lifeIndexStore
  -- transfers and weights in progress
  | imageChunk (m : ChunkMsg)
  | chunkAssemblyTimeout (transfer chunk : Nat)
  | chunkWritten (transfer chunk : Nat)
  | fieldReadbackComplete (placement field : Nat) (badChunks : List Nat)
  | installTimeout (placement : Nat)
  | flipDrainComplete (placement : Nat)
  | flipDrainTimeout (placement : Nat)
  | rollbackHoldExpiry (placement : Nat)
  | mirrorCopyComplete (field : Nat) (verified : Bool)
  | twinCopyComplete (field : Nat) (verified : Bool)
  | stratumScrub (field : Nat) (bank page finding : Nat)
  | tilePatchComplete (field tile : Nat)
  -- Cloudbank, pause, prefixes
  | stackLost (stack cause : Nat)
  | pauseCopyComplete (session : Nat)
  | copyBackComplete (session : Nat) (ok : Bool)
  | pauseTtlExpiry (session : Nat)
  | continuationHoldExpiry (session : Nat)
  | contrailHoldExpiry (session : Nat)
  | prefixPageCopyComplete (airspace entry : Nat)
  | prefixCowComplete (session : Nat)
  -- the Tvedone stream protocol
  | openMsg (c : Client) (p : OpenPart)
  | openAssemblyTimeout (airspace addr port seq : Nat)
  | continueMsg (c : Client) (p : OpenPart)
  | cancel (c : Client) (targetSeq : Nat)
  | pause (c : Client) (ttl : Nat)
  | resume (c : Client)
  | retransmit (c : Client) (dest mode fromSeq toSeq : Nat)
  | ethernetFrame (f : Frame)
  | ethLinkDown (port : Nat)
  | dhcpv6LeaseEnd (airspace : Nat)
  -- Obtik links
  | portTrained (port delayNs lanes : Nat)
  | portTrainingTimeout (port : Nat)
  | portDown (port : Nat)
  | soundTimer
  | sound (port : Nat) (m : SoundMsg)
  | floodQuiet
  | soundingTimeLimit
  | obtikDataFrame (port : Nat) (f : ObtikFrame)
  | obtikAckFrame (port : Nat) (f : ObtikFrame)
  | linkReplayTimeout (port channel : Nat)
  | obtikBeaconFrame (port : Nat) (f : ObtikFrame)
  | masterBeaconTimeout
  | tickMaster (srcModule master : Nat)
  | tickDemand (srcModule level usable : Nat) (forced : Bool)
  | peerRouteTable (srcModule applyTick : Nat) (entries : List Nat)
  | orderReply (port code status : Nat)
  -- PMBus
  | page (write : Option Nat)
  | clearFaults
  | capability
  | voutMode
  | statusWord
  | statusVout
  | statusIout
  | statusInput
  | statusTemperature
  | statusCml
  | readVin
  | readIin
  | readVout
  | readIout
  | readTemperature1
  | readPout
  | readPin
  | pmbusRevision
  | mfrId
  | mfrModel
  | mfrPowerCap (write : Option Nat)
  | mfrCapEffective
  | mfrLadder
  | pmbusUnsupported (command : Nat)
  | smbusAlertResponse
  -- MCTP, PLDM, SPDM
  | setEndpointId (binding eid : Nat)
  | getEndpointId (binding : Nat)
  | getEndpointUuid (binding : Nat)
  | getMctpVersionSupport (binding messageType : Nat)
  | getMessageTypeSupport (binding : Nat)
  | pldmBaseDiscovery (command : Nat)
  | pldmMonitoringRequest (command sensor : Nat)
  | setEventReceiver (eid : Nat)
  | platformEventRetry
  | getVersion (binding : Nat)
  | getCapabilities (binding : Nat)
  | negotiateAlgorithms (binding : Nat) (rsapss4096 sha512 : Bool)
  | getDigests (binding : Nat)
  | getCertificate (binding slot offset length : Nat)
  | challenge (binding slot : Nat) (nonce : List Byte)
  | getMeasurements (binding index : Nat) (signed : Bool) (nonce : List Byte)
  | spdmUnsupportedRequest (binding code : Nat)
  -- JTAG
  | bypass (tdi : List Bool)
  | idcode
  | samplePreload (pins : List Bool)
  | extest
  | flashProg (image offset : Nat) (data : List Byte)
  | debug
  | debugToken (serial : W64) (slot : Nat) (token signature : List Byte)
  -- self-test and late rows
  | selfTestInterval
  | selfTestComplete (failingStep : Nat)
  | zenithNotServicing
  | ethLinkUp (port : Nat)
  | refclkMainRestored
  | flashWpNChange (released : Bool)
  | ordersRefused (srcModule port code : Nat)
  | platformEventAck
deriving DecidableEq, Repr

end Sys2Proof
end

