-- ==== Sys2Proof/Decode.lean ====
section
/-! DEFINITION. Command words. spec/opcode_table.json gives no row any operand or opcode bits (every `fields` list is empty):
a command of this block is an event or a packet, not a word, so no word spells one. -/

namespace Sys2Proof

/-- The command that a word spells by the table's bits: the table gives no row bits, so none. -/
def decodeTableWord (_nbits _w : Nat) : Option Instr := none

end Sys2Proof
end

