-- ==== Sys2Proof/Config.lean ====
section
/-! DEFINITION. What one module fixes at manufacture, and the free values: results the manual does not state. Every `opaque`
constant here has no body, so no proof can depend on its value. -/

namespace Sys2Proof.Config

/-- Number of field sites (R16). -/
abbrev fieldCount : Nat := 88
/-- Cores of a compute field (R18). -/
abbrev coresPerField : Nat := 32
/-- The four service fields (R16, R19). -/
abbrev serviceFields : List Nat := [2, 43, 44, 85]
/-- The eight factory clearings (R20). -/
abbrev factoryClearings : List Nat := [16, 21, 28, 40, 47, 59, 66, 71]
/-- Tick period while no placement is live (R33). -/
abbrev idlePeriod : Nat := 4800

/-- Free value: the k-th output of the Yargon's generator that replaces SEED = 0 (R225). -/
opaque freeSeed : Nat → W64
/-- Free value: a result the manual leaves open, by use number. -/
opaque freeNat : Nat → Nat
/-- Free value: a 32-bit result the manual leaves open, by use number. -/
opaque freeWord : Nat → W32
/-- Free value: which of its operands the FMA of VEC adds (R102 names the operation only): 0 DST, 1 SRCB with P1 as the factor,
any other value P1. -/
opaque vecFmaForm : Nat
/-- Free value: the recurrence of STATE_SCAN (R102 gives the operation's operands and no formula): kind, state, x and gates of
one element to its new state. -/
opaque stateScan : Nat → W32 → W32 → W32 → W32
/-- Fused: the module serial number (R382, R416). -/
opaque serial : W64
/-- Fused: interconnect-wafer revision, module revision (R382). -/
opaque silicon : Byte
opaque moduleRev : Byte
/-- Fused: base of the 32 MAC addresses (R243). -/
opaque macBase : Nat
/-- Fused: SHA-512 key hash of boot key slot s (R416). -/
opaque bootKeyHash : Nat → List Byte
/-- The device certificate chain of the certificate area, leaf first (R413, R420). -/
opaque certificateChain : List Byte
/-- Length of the leaf (device) certificate at the head of the chain (R420). -/
opaque deviceCertLen : Nat
/-- Signing with the identity key, which never leaves the ROM-protected memory (R420). -/
opaque identitySign : List Byte → List Byte
/-- The boot image programmed into device i at the factory (R413): BUILD, SVN, KEY_SLOT, REVOKE and component hashes by KIND. The
manual gives no values; what the model states is that the image passes step 2 and step 5 of R415. -/
opaque factoryBuild : Nat → Nat
opaque factorySvn : Nat → Nat
opaque factoryKeySlot : Nat → Nat
opaque factoryRevoke : Nat → Nat
opaque factoryHash : Nat → Nat → List Byte
/-- Whether a debug token's signature verifies under the key of a boot slot (R431): slot, token, signature. The manual gives the token
no format. -/
opaque debugSigned : Nat → List Byte → List Byte → Bool
/-- SHA-512 digest of the boot ROM (R422). -/
opaque romDigest : List Byte
/-- The MCTP endpoint UUID (R426): the manual states none. -/
opaque endpointUuid : Nat
/-- The Jetstream reservation that a plan declares for a link direction and a window (R285): slots per cycle by the image's header hash, router,
output port and window of R37. The image format of R147-R157 gives it no place. -/
opaque planReserve : List Byte → Nat → Nat → Nat → Nat
/-- The multicast groups that a plan declares (R291): group, root field and member cores, by the image's header hash. The documented image
has no place for them. -/
opaque planGroups : List Byte → List (Nat × Nat × List Nat)
/-- The remote target entries that a plan loads into the port engines (R308): port, entry index, DEST_MODULE, DEST, ADDR, channel, Jetstream
port, sending core and reserved bytes per tick, by the image's header hash. The documented image has no place for them. -/
opaque planTargets : List Byte → List (Nat × Nat × Nat × Nat × Nat × Nat × Nat × Nat × Nat)
/-- The inbound entries of a plan: SRC_MODULE, TAG, first and last DEST (R308). -/
opaque planInbound : List Byte → List (Nat × Nat × Nat × Nat)
/-- Free value: the stored form of the stratum configuration that measurement 7 digests (R422 names its content and not its layout), of the
numbers that the configuration holds. -/
opaque storedForm : List Nat → List Byte
/-- Free value: whether the next frame of an Ethernet port exceeds its rate cap (R31 gives the cap and no time over which it is measured): port,
cap in Gb/s, wall time, frames sent, frames dropped. -/
opaque portExcess : Nat → Nat → Nat → Nat → Nat → Bool
end Sys2Proof.Config
end

