-- ==== Sys2Proof/Machine/State.lean ====
section
/-! DEFINITION. The state of the Yargon as plain data: every register block (one address-indexed register file), every field,
core, router, stack, placement, airspace, session, port, queue and journal the manual gives the module, the queue of waiting
commands, and the two reasons types. -/

namespace Sys2Proof.Machine

/-- The power states of R435 and R382. -/
inductive PowerSt where
  | active | lull | overcast | standby | off
deriving DecidableEq, Repr

/-- Field roles (R19). -/
inductive Role where
  | unassigned | active | clearing | service | lost | rebuild
deriving DecidableEq, Repr

/-- States of a stratum bank and of a placement's image (R161). -/
inductive BankState where
  | empty | installing | staged | previous | twinBuilding | twin | incomplete | closed
deriving DecidableEq, Repr

/-- Where a field clock stands in the stop and restart sequences of R57 and R58. -/
inductive ClockSt where
  | running
  | stopping (powerOff : Bool)
  | gated (powerOff : Bool)
  | stopped
  | waking
  | ramping
  | calibrating
deriving DecidableEq, Repr

/-- Core states of R83. -/
inductive CoreState where
  | off | idle | serving | absorbing | failed | test
deriving DecidableEq, Repr

/-- Session states of R210. -/
inductive SessState where
  | free | queued | prefill | decode | paused | draining | ended
deriving DecidableEq, Repr

/-- Stack states of R206. -/
inductive StackState where
  | off | training | active | powerDown | selfRefresh | lost
deriving DecidableEq, Repr

/-- Obtik port states of R304. -/
inductive PortState where
  | off | down | training | verifying | active | held
deriving DecidableEq, Repr

/-- Prefix entry states of R191. -/
inductive PrefixState where
  | free | filling | ready | retiring
deriving DecidableEq, Repr

/-- Tuning job states of R276. -/
inductive TuneState where
  | none | loading | running | done | stopped | failed
deriving DecidableEq, Repr

/-- Base and length of a tick program (R63, R110). -/
structure Prog where
  base : Nat := 0
  len : Nat := 0
deriving DecidableEq, Repr

/-- A closed range of linear scratchpad words (R88). -/
structure Range where
  lo : Nat
  len : Nat
deriving DecidableEq, Repr

/-- A row-table entry (R90). -/
structure Row where
  valid : Bool := false
  drop : Bool := false
  airspace : Nat := 0
  session : Nat := 0
  token : Nat := 0
  pos : Nat := 0
  kvBase : Nat := 0
  kvSize : Nat := 0
  kvFill : Nat := 0
  adapterBase : Nat := 0
  adapterValid : Bool := false
  blockMap : Nat := 0
  sampleBlk : Nat := 0
deriving DecidableEq, Repr

/-- An operation that has been issued: its unit, when the unit is free and the result readable, and its ranges (R93, R94). -/
structure Flight where
  unit : Nat
  start : Nat
  free : Nat
  ready : Nat
  reads : List Range
  writes : List Range
deriving DecidableEq, Repr

/-- A RECV, REDUCE or GATHER that waits for words: its descriptor, its deadline cycle, and the cycle it was issued in (R102, R105, R109). -/
structure RecvWait where
  d : W256
  deadline : Nat
  start : Nat := 0
deriving DecidableEq, Repr

/-- A core's sequencer in the running tick (R93-R100, R110). `prog` is coded as PROG of R110. -/
structure SeqSt where
  prog : Nat := 0
  pc : Nat := 0
  cycle : Nat := 0
  /-- the armed replay entry: offset, declared length, STAGE, and whether a program of the prefill rows armed it (R99, R100) -/
  armed : Option (Nat × Nat × Bool × Bool) := none
  replayed : Bool := false
  /-- the replay of this tick repeats operations on the prefill rows (R90, R101, R136) -/
  preReplay : Bool := false
  /-- the entry that was armed in this tick (R99, R110) -/
  lastEntry : Option Nat := none
  flights : List Flight := []
  macEnd : Nat := 0
  /-- queued EXCH sends: the program they belong to and their descriptor (R98) -/
  exch : List (Nat × W256) := []
  exchOverflow : Bool := false
  waitUntil : Option Nat := none
  /-- operations that wait for words, oldest first (R93, R102) -/
  waits : List RecvWait := []
  /-- END has been issued and operations of the program still wait (R96) -/
  ending : Bool := false
  /-- the last program that completed in this tick and the cycle it completed in (R96, R97) -/
  ended : Nat × Nat := (0, 0)
  /-- a prefill or tuning program that waits until decode and absorption have completed (R96) -/
  prefillDue : Bool := false
  decodeDone : Bool := false
  /-- requester order and cycle of the writes of the operation in hand (R68) -/
  wrRank : Nat := 5
  wrCycle : Nat := 0
  /-- words of the running program's rows that arrived with the row-drop bit -/
  dropWords : List Nat := []
  /-- words that the fabric has delivered and no operation has consumed, with the cycle of their arrival -/
  arrived : List (Nat × Nat) := []
deriving DecidableEq, Repr

/-- A Cloudbank transfer handed to the Cloud-channel queue (R108). -/
structure CloudXfer where
  airspace : Nat
  toCloud : Bool
  localWord : Nat
  cloudWord : Nat
  words : Nat
deriving DecidableEq, Repr

/-- A Cloud read a core waits for (R282, R296). -/
structure RemoteReq where
  dest : Nat
  addr : Nat
  words : Nat
  reply : Nat
deriving DecidableEq, Repr

/-- The tiles that one survivor has streamed for a failed core, summed over one output block of one row: the survivor's rank, the failed core,
the descriptor, the row, the block, the tiles taken in, and the sum (R78). -/
structure Partial where
  rank : Nat
  dead : Nat
  at_ : Nat
  row : Nat
  block : Nat
  tiles : Nat
  sum : List W32
deriving DecidableEq, Repr

/-- A load entry of the plan (R157). -/
structure LoadEntry where
  dest : Nat
  words : Nat
  src : Nat
deriving DecidableEq, Repr

/-- One core of a compute field (R61-R84, R90, R110). -/
structure CoreSt where
  state : CoreState := .off
  stage : Nat := 0x3FF
  deputyOf : Option Nat := none
  failOrder : Nat := 0
  extension : Nat := 0
  reserveSeg : Nat := 0
  adapterSeg : Nat := 0
  bankMask : W16 := 0
  bankOn : W16 := 0
  bankInit : W16 := 0
  overrunTicks : List Nat := []
  bankErrors : List (Nat × Nat) := []
  tileErrors : List (Nat × Nat) := []
  mem : Mem := []
  /-- program memory, 4,096 descriptors; the steward alone writes it (R63, R64) -/
  code : Tbl W256 := []
  /-- verdict of the check symbols of a stored word: 1 correctable, 2 uncorrectable; an unlisted word is clean (R363, R364) -/
  scErr : Tbl Nat := []
  codeErr : Tbl Nat := []
  /-- descriptors found uncorrectable or corrected, waiting for the steward's rewrite (R64) -/
  repairs : List Nat := []
  /-- words found uncorrectable that hold load-entry content or a block map, waiting for the steward's rewrite (R366) -/
  reloads : List Nat := []
  /-- segment tags in force; an unlisted segment is FREE (R72) -/
  tags : Tbl Nat := []
  nextTags : List (Nat × Nat) := []
  decRows : Tbl Row := []
  preRows : Tbl Row := []
  decode : Prog := {}
  prefill : Prog := {}
  replay : Prog := {}
  maint : Prog := {}
  tuneFwd : Prog := {}
  tuneBwd : Prog := {}
  areaA : Prog := ⟨3840, 0⟩
  areaB : Prog := ⟨3968, 0⟩
  actStore : Mem := []
  loads : List LoadEntry := []
  absList : List Nat := []
  /-- tile reads this survivor streams in its absorption segment: failed core, and place in that core's absorption list (R78) -/
  absShare : List (Nat × Nat) := []
  deputyProg : List W256 := []
  seq : SeqSt := {}
  remote : List RemoteReq := []
  cloud : List CloudXfer := []
  scrubWord : Nat := 0
  /-- writes of this tick: word, cycle, and the writer's order (R68) -/
  written : List (Nat × Nat × Nat) := []
  /-- partial sums a deputy has received from the survivors in this tick (R78) -/
  partials : List Partial := []
  /-- contribution dropped this tick (R41, R47, R81) -/
  dropped : Bool := false
  /-- Adam state of a tuning job: b1t, b2t (R274) -/
  b1t : W32 := 0x3F800000
  b2t : W32 := 0x3F800000
deriving DecidableEq, Repr

/-- One stratum bank of a field (R142-R144, R161): its content, program count, and the leaves recorded for it. -/
structure Bank where
  st : BankState := .empty
  cycles : Nat := 0
  mem : Mem := []
  /-- verdict of the check symbols by tile slot: 1 correctable, 2 uncorrectable (R168, R363) -/
  err : Tbl Nat := []
  /-- leaf-table entries of what the image region holds, in the bank's system area (R142, R159, R165) -/
  leaves : List (List Byte) := []
deriving DecidableEq, Repr

/-- A tile patch (R76). -/
structure Patch where
  tile : Nat
  slot : List Byte
deriving DecidableEq, Repr

/-- One copy of a router's tables (R288). An unlisted site entry is port 6 with REACH 1. -/
structure RouteTables where
  sites : Tbl (Nat × Bool) := []
  aliases : Tbl (Nat × Nat × Bool × Nat) := []
  groups : Tbl (Nat × Nat) := []
  filterPlacement : Nat := 0
  filterMask : Nat := 0
  filterOn : Bool := false
deriving DecidableEq, Repr

/-- A merge entry (R292): the READ, and the requesters with their reply addresses. -/
structure MergeEntry where
  dest : Nat
  addr : Nat
  words : Nat
  tag : Nat
  opened : Nat
  closed : Bool
  requesters : List (Nat × Nat)
deriving DecidableEq, Repr

/-- One router (R279-R300). -/
structure RouterSt where
  act : RouteTables := {}
  shadow : RouteTables := {}
  table : Nat := 0
  swapPending : Bool := false
  linksDown : List Nat := []
  merges : List MergeEntry := []
  /-- packets that came in a guard cycle, with their port: they wait for the first cycle after the guard (R38) -/
  held : List (Nat × Packet) := []
  /-- uncorrectable flits that came in within the last millisecond: port, time, number (R298) -/
  badFlits : List (Nat × Nat × Nat) := []
deriving DecidableEq, Repr

/-- The state of one junction sensor pair (R347); runs are counted in 100 ms samples. -/
structure Spot where
  a : Option Int := none
  b : Option Int := none
  diffs : List Int := []
  suspect : Bool := false
  okRun : Nat := 0
  lost : Bool := false
deriving DecidableEq, Repr

/-- A failed core's absorption in progress (R81): the tick it was declared in, and whether the Zenith has ordered it. -/
structure Absorb where
  core : Nat
  tick : Nat
  ordered : Option Nat
deriving DecidableEq, Repr

/-- One field site: roles, clock, power, vanes, beacon, cores' failures, stratum, router, forecast, thermal, life. -/
structure FieldSt where
  role : Role := .unassigned
  lostCause : Option Nat := none
  /-- lost in this tick; the Zenith directs the recovery in its next control slot (R370) -/
  lossPending : Bool := false
  /-- tick in which the field was lost (R370) -/
  lossAt : Nat := 0
  placement : Option Nat := none
  clock : ClockSt := .stopped
  /-- role a pending plan load or calibration is for; what a wake waits for (R58, R333) -/
  wakeDeferred : Nat := 0
  wakeForRebuild : Bool := false
  on : Nat := 0
  tripped : Nat := 0
  /-- the site's power record in its stratum system area (R327) -/
  powerRecord : Nat := 0
  hostTh : Tbl Nat := []
  bmcTh : Tbl Nat := []
  trim : Nat := 0
  lowRun : Nat := 0
  limitRun : Nat := 0
  goodRun : Nat := 0
  trimHold : Nat := 0
  trimRaise : Bool := false
  vaneReport : Bool := false
  margin : Nat := 0
  vlogMv : Nat := 0
  /-- voltage band whose floor the set point of VLOG holds (R54) -/
  railBand : Nat := 0
  settled : Bool := true
  beaconOk : Bool := true
  beaconMiss : Nat := 0
  /-- beacon offset measured on each branch, in ps with 10 ps resolution; none before the first calibration (R45) -/
  offsetPrimary : Option Nat := none
  offsetRedundant : Option Nat := none
  /-- equalisation delay of each branch in cycles at the level in force (R45) -/
  delayPrimary : Nat := 0
  delayRedundant : Nat := 0
  /-- beacon words whose TICK disagreed with the steward's count (R47) -/
  tickMismatch : Nat := 0
  /-- a clearing chosen for a move while a self-test fragment ran on it: REBUILD at the next boundary (R23) -/
  chosen : Bool := false
  /-- failed cores in the order of their failure (R78, R83) -/
  failed : List Nat := []
  absorb : List Absorb := []
  /-- absorption map: failed core, segment, new core, new segment (R80) -/
  absMap : List (Nat × Nat × Nat × Nat) := []
  patches : List Patch := []
  /-- patches that serve from the next boundary (R169) -/
  nextPatches : List Patch := []
  unpatched : List Nat := []
  /-- NaN row halves of tiles (tile · 128 + half) counted in a tick, and that tick (R116) -/
  nanRead : Nat × List Nat := (0, [])
  bank0 : Bank := {}
  bank1 : Bank := {}
  twinOf : Option Nat := none
  twinHolder : Option Nat := none
  /-- chunks waiting for the field's write path (R159) -/
  writeQueue : List Nat := []
  scrubPage : Nat := 0
  router : RouterSt := {}
  forecastLearn : Nat := 0
  iZero : List Nat := [0, 0, 0]
  iRow : List Nat := [0, 0, 0]
  forecast : W32 := 0
  forecastBad : Bool := false
  spots : Tbl Spot := []
  control : Option Int := none
  atLimit : Bool := false
  limit : Int := 950
  rth : List Rat := []
  power : Nat := 0
  heldRun : Nat := 0
  /-- life index, and the open reversals, in 0.1 C (R358) -/
  lifeIndex : Rat := 0
  residue : List Int := []
  storedLife : Rat := 0
  storedResidue : List Int := []
  /-- half cycles counted (R360) -/
  cycles : Nat := 0
  /-- ordered on the field: 0 nothing, 1 a field reset, 2 a self-test; both may wait for a move first (R449, R451) -/
  task : Nat := 0
  taskCmd : Option (Nat × Src × Nat) := none
  /-- boundary at which the steward loads its plan after a wake (R58) -/
  loadAt : Option Nat := none
deriving DecidableEq, Repr

/-- A stage record of the image (R152). -/
structure StageRec where
  layer : Nat
  kind : Nat
  windowed : Bool
  window : Nat
  kvWords : Nat
  cores : Nat
deriving DecidableEq, Repr

/-- A field record of the image (R153). -/
structure FieldRec where
  field : Nat
  role : Nat
  twin : Nat
  firstChunk : Nat
  chunks : Nat
  regionBytes : Nat
deriving DecidableEq, Repr

/-- What the Zenith keeps of an image: its header identity and its manifest (R148, R150-R154). -/
structure Image where
  imageId : Nat
  version : Nat
  headerHash : List Byte
  keyHash : List Byte
  layers : Nat
  hidden : Nat
  qHeads : Nat
  kvHeads : Nat
  headDim : Nat
  vocab : Nat
  maxContext : Nat
  classMask : Nat
  maxDepth : Nat
  prefillPct : Nat
  rrPct : Nat
  decodeLen : Nat
  exchange : Nat
  absorb : Nat
  period : Nat
  adapterRank : Nat
  stages : List StageRec
  fields : List FieldRec
  leaves : List (List Byte)
deriving DecidableEq, Repr

/-- The plan in force on a placement: the figures of R33-R37 and what plan load derived (R217, R265). -/
structure Plan where
  d : Nat := 0
  c : Nat := 0
  x : Nat := 0
  a : Nat := 0
  sized : Nat := 0
  rr : Nat := 6
  required : Nat := 1200
  ns : Nat := 0
  maxDepth : Nat := 1
  /-- Q_p(g) for g = 0 .. sized (R217) -/
  qp : List Nat := []
  /-- Q_t of the shared and of the idle window (R265) -/
  qtShared : Nat := 0
  qtIdle : Nat := 0
  tuning : Bool := false
deriving DecidableEq, Repr

/-- An installation, rebuild, repair, adapter load or tuning kit transfer (R159, R259). -/
structure Transfer where
  number : Nat
  kind : Nat            -- 0 install, 1 rebuild, 2 repair, 3 adapter, 4 tuning kit
  placement : Nat
  airspace : Nat
  source : Nat
  cmdSeq : Nat
  cmdSrc : Src
  cmdOp : Nat
  timeLimit : Nat
  older : Bool
  fields : List Nat
  adapter : Nat
  slot : Option Nat
  leading : Option (List Byte)
  image : Option Image
  total : Nat
  done : List Nat
  readFails : List (Nat × Nat)
  readBack : List Nat
  /-- chunks whose hash did not match their leaf (R159) -/
  mismatched : Nat := 0
  /-- a repair's tiles: field, slot, chunk -/
  repairs : List (Nat × Nat × Nat) := []
deriving DecidableEq, Repr

/-- A chunk under assembly (R259): its fragments by byte offset. -/
structure Assembly where
  transfer : Nat
  chunk : Nat
  fragments : List (Nat × List Byte)
deriving DecidableEq, Repr

/-- A flip or plan-load drain (R162, R36). -/
structure Drain where
  isFlip : Bool
  cmdSeq : Nat
  cmdSrc : Src
  cmdOp : Nat
  from_ : Nat
  limit : Nat
  newPlan : Option Plan
  periodRequest : Nat
  /-- a higher P that this change brings, held until no other placement holds a promise (R36) -/
  heldPeriod : Option Nat := none
deriving DecidableEq, Repr

/-- One version slot of an adapter (R170-R172). -/
structure AdapterSlot where
  version : Nat
  current : Bool
  pinned : Nat
  keyHash : List Byte
  backing : List Nat
  atBoundary : Option Nat
  /-- per named core: core, first segment of the slot, segments, words held -/
  cores : List (Nat × Nat × Nat × Nat) := []
deriving DecidableEq, Repr

/-- An adapter ID of a placement (R170). -/
structure AdapterSt where
  owner : Nat
  slotA : Option AdapterSlot
  slotB : Option AdapterSlot
  retiring : Bool
  lastVersion : Nat
  layers : Nat
  hidden : Nat
  qHeads : Nat
  kvHeads : Nat
  headDim : Nat
deriving DecidableEq, Repr

/-- A tuning job (R264-R278). Floating fields are binary32 patterns. -/
structure TuneJob where
  st : TuneState := .none
  airspace : Nat := 0
  adapter : Nat := 0
  cmdSeq : Nat := 0
  cmdSrc : Src := .host
  cmdOp : Nat := 0
  steps : Nat := 0
  batch : Nat := 0
  seqMax : Nat := 0
  seqCount : Nat := 0
  lr : W32 := 0
  beta1 : W32 := 0
  beta2 : W32 := 0
  eps : W32 := 0
  decay : W32 := 0
  seed : W64 := 0
  dataPage : Nat := 0
  savePage : Nat := 0
  step : Nat := 0
  targets : Nat := 0
  repeats : Nat := 0
  totalRepeats : Nat := 0
  cut : Nat := 0
  loss : W32 := 0
  stopping : Bool := false
  held : Bool := false
  keyHash : List Byte := []
  /-- cells of the running tick: (stage, backward) -/
  assigned : List (Nat × Bool) := []
  /-- tokens of the running step, and how many of them each stage has run forward and backward; rows of each assigned cell -/
  total : Nat := 0
  fwd : List Nat := []
  bwd : List Nat := []
  cellRows : List (Nat × Nat) := []
  /-- cells assigned for the coming tick: stage, backward, rows -/
  nextCells : List (Nat × Bool × Nat) := []
  optimising : Bool := false
  /-- per named core: (core, slot start, work-area start, parameters); the work area holds gradient, master, m and v in this order -/
  areas : List (Nat × Nat × Nat × Nat) := []
  /-- cores whose optimiser step of this step has run -/
  optimised : List Nat := []
  /-- the work areas are given back (R276); what the tick's losses do to the job: 1 the step repeats, 2 it fails (R275) -/
  workFreed : Bool := false
  hit : Nat := 0
deriving DecidableEq, Repr

/-- A lane held or booked: its session, and the round boundary from which it is held (R212-R216). -/
structure Lane where
  session : Nat
  from_ : Nat
  /-- the airspace that holds it (R216), and the number of the holder's sampling block (R225) -/
  airspace : Nat := 0
  block : Nat := 0
deriving DecidableEq, Repr

/-- Round bookkeeping of one phase (R214, R215). -/
structure Phase where
  start : Nat
  r : Nat
  depth : Nat
deriving DecidableEq, Repr

/-- Rows booked in the prefill ledger (R218); `spoilt` is the first of them that was dropped. -/
structure Booking where
  tick : Nat
  session : Nat
  rows : Nat
  spoilt : Option Nat := none
  /-- its session's KV was lost: the rows are not valid, the room stays taken until it is booked again (R237) -/
  void : Bool := false
deriving DecidableEq, Repr

/-- A field move in progress (R166, R167, R370). -/
structure Move where
  field : Nat
  clearing : Nat
  holder : Option Nat
  fromImage : Bool
  heat : Bool
  stallFrom : Nat
  activeAt : Option Nat
deriving DecidableEq, Repr

/-- One placement (R25, R162, R174, R212-R219). -/
structure PlacementSt where
  live : Bool := false
  liveBank : Nat := 0
  image : Option Image := none
  imageState : BankState := .empty
  staged : Option Image := none
  stagedBank : Nat := 0
  plan : Plan := {}
  drain : Option Drain := none
  twinNone : Bool := false
  holdLeft : Nat := 0
  hostGrant : Nat := 0
  grant : Nat := 0
  grantOrder : Option (Nat × Nat) := none
  bL : Nat := 0
  round : Nat := 16
  phases : Tbl Phase := []
  lanes : Tbl Lane := []
  ledger : List Booking := []
  adapters : Tbl AdapterSt := []
  tune : TuneJob := {}
  suspended : Option Nat := none
  /-- reason of a suspension that takes effect at the next boundary (R371) -/
  suspendDue : Option Nat := none
  moves : List Move := []
  /-- alias entries with their placement, as stored in stratum configuration (R289) -/
  moved : List (Nat × Nat) := []
  /-- fields of the image in the standby banks whose part stands in another field, which took the work of the lost one (R167) -/
  stagedAt : List (Nat × Nat) := []
  repairsAsked : List (Nat × Nat × Nat) := []
  rebuildAsked : List Nat := []
  untwinned : Nat := 0
  servingAt : Option Nat := none
deriving DecidableEq, Repr

/-- A prefix table entry (R191). -/
structure PrefixEntry where
  generation : Nat := 1
  st : PrefixState := .free
  tokens : Nat := 0
  adapter : Option (Nat × Nat) := none
  /-- page identities of the entry, ascending -/
  pages : List Nat := []
  registrant : Option Nat := none
  /-- boundary from which position T - 1 is written in every stage; whether the partial page has been copied (R192) -/
  due : Option Nat := none
  copied : Bool := false
deriving DecidableEq, Repr

/-- A request that waits, is queued or is under assembly (R220, R221, R248). `kind` 0 OPEN, 1 CONTINUE, 2 RESUME,
3 CANCEL, 4 PAUSE. -/
structure Request where
  id : Nat
  kind : Nat
  receipt : Nat
  client : Client
  part0 : Option OpenPart
  tokens : List Nat
  ttl : Nat := 0
  targetSeq : Nat := 0
  pendingSent : Bool := false
  carried : Bool := false
deriving DecidableEq, Repr

/-- An OPEN or CONTINUE under assembly (R248). -/
structure OpenAssembly where
  client : Client
  isContinue : Bool
  parts : List OpenPart
deriving DecidableEq, Repr

/-- The status codes of R392. -/
inductive Status where
  | ok | pending | badOpcode | badParameter | notPermitted | busy | inService | noResource | signatureInvalid
  | superseded | limited | timeout
deriving DecidableEq, Repr

/-- An acknowledgement's fields (R252). -/
structure AckMsg where
  client : Client
  status : Status
  handle : Nat := 0
  cls : Nat := 0
  prefixRefused : Bool := false
  slotMode : Bool := false
  rebuild : Bool := false
  adapterVersion : Nat := 0
  clearBoundary : Nat := 0
  firstBound : Nat := 0
  doneBound : Nat := 0
  firstNs : Nat := 0
  doneNs : Nat := 0
  seed : W64 := 0
  prefixHandle : Nat := 0
  maxTokens : Nat := 0
deriving DecidableEq, Repr

/-- A remembered answer (R251); `answer` is none until the first answer is released. -/
structure Remembered where
  addr : Nat
  port : Nat
  seq : Nat
  answer : Option AckMsg
  at_ : Nat
deriving DecidableEq, Repr

/-- A destination entry (R253). -/
structure Dest where
  addr : Nat
  udpPort : Nat
  eth : Nat
  ingress : Nat
  batchSeq : Nat
deriving DecidableEq, Repr

/-- A stream record (R255). -/
structure Rec where
  handle : Nat
  index : Nat
  kind : Nat
  marks : Nat
  aux : Nat
  value : Nat
deriving DecidableEq, Repr

/-- A step batch kept for retransmission (R254, R257). -/
structure Batch where
  dest : Nat
  seq : Nat
  tick : Nat
  records : List Rec
  part : Nat := 0
  parts : Nat := 1
deriving DecidableEq, Repr

/-- A pause record (R202). -/
structure PauseRec where
  pages : List Nat
  kvFill : Nat
  prefixHandle : Nat
  links : List Nat
  copying : Bool
  /-- indices, among the session's full pages, of those copied (R202, R203) -/
  copied : List Nat := []
  /-- bytes copied, by core: the region's from KV_BASE on, then copied page j's from 2^32 (j + 1) on -/
  bytes : Tbl Mem
deriving DecidableEq, Repr

/-- One KV-holding core's slots for an airspace after carving (R187): slots are (class, base word, session). -/
structure Carving where
  core : Nat
  pageSlots : List (Nat × Option Nat)
  slots : List (Nat × Nat × Option Nat)
deriving DecidableEq, Repr

/-- One airspace (R25, R186-R195, R241, R243, R253, R263, R423). -/
structure AirspaceSt where
  placement : Option Nat := none
  slotShare : Nat := 0
  kvShare : Nat := 0
  cloudShare : Nat := 0
  powerShare : Nat := 0
  waitMax : Nat := 256
  waitLimit : Nat := 2
  contHold : Nat := 0
  contrailHold : Nat := 3600
  temperature : W32 := 0x3F800000
  topP : W32 := 0x3F800000
  topK : Nat := 0
  minP : W32 := 0
  pauseTtl : Nat := 600
  slots16k : Nat := 0
  slots32k : Nat := 0
  slots128k : Nat := 0
  pool : Nat := 0
  window : Nat := 0
  /-- static IPv6 addresses by index with their prefix length; IPv4; DHCPv6 enabled and its leased address -/
  addresses : Tbl (Nat × Nat) := []
  ipv4 : Option Nat := none
  dhcp : Bool := false
  lease : Option Nat := none
  udpPort : Nat := 30410
  vlan : Nat := 0
  filters : List (Nat × Nat) := []
  egressCap : Nat := 1600
  bucket : Nat := 65536
  dests : Tbl Dest := []
  batches : List Batch := []
  prefixes : Tbl PrefixEntry := []
  /-- page identity to reference count, and the partial-page and copy holds on it (R191, R193) -/
  pageRefs : Tbl Nat := []
  nextPage : Nat := 1
  /-- holds taken (true) and given up since the last boundary, and the pages whose count reached 0 at it (R193) -/
  pageDue : List (Nat × Bool) := []
  pageZero : List Nat := []
  waiting : List Request := []
  received : List Request := []
  assemblies : List OpenAssembly := []
  answers : List Remembered := []
  stripes : List Nat := []
  cloudPages : List Nat := []
  carvings : List Carving := []
  keys : Tbl (List Byte) := []
  resetPending : Option (Nat × Src × Nat) := none
deriving DecidableEq, Repr

/-- A session descriptor (R209, R210, R239) with its history and bookkeeping. -/
structure Desc where
  generation : Nat := 1
  st : SessState := .free
  airspace : Nat := 0
  placement : Nat := 0
  cls : Nat := 0
  cancelLatched : Bool := false
  pauseLatched : Bool := false
  kvHeld : Bool := false
  rebuilt : Bool := false
  faultDelayed : Bool := false
  stretchExceeded : Bool := false
  cancelLate : Bool := false
  prefixRefused : Bool := false
  slotMode : Bool := false
  endReason : Nat := 0
  committed : Nat := 16
  phase : Option Nat := none
  lane : Option Nat := none
  r0 : Nat := 0
  adapterId : Option Nat := none
  adapterVersion : Nat := 0
  prefixHandle : Nat := 0
  promptLen : Nat := 0
  limitAsked : Nat := 0
  maxTokens : Nat := 0
  delivered : Nat := 0
  kvFill : Nat := 0
  pendingTok : Nat := 0
  clearBoundary : Nat := 0
  firstBound : Nat := 0
  doneBound : Nat := 0
  firstNs : Nat := 0
  doneNs : Nat := 0
  delayTicks : Nat := 0
  pauseTtl : Nat := 0
  dest : Nat := 0
  sampling : Option Sampling := none
  /-- token history: prompt then produced tokens (R235) -/
  history : List Nat := []
  /-- next position to compute, and the first boundary at which its traversals may enter stage 0 -/
  pos : Nat := 0
  enterAt : Nat := 0
  cowLeft : Nat := 0
  cowPage : Option Nat := none
  pages : List Nat := []
  registering : Option Nat := none
  /-- private region: (core, slot base, class, pref entries) per KV-holding core (R190) -/
  regions : List (Nat × Nat × Nat × Nat) := []
  pauseRec : Option PauseRec := none
  copyBack : Bool := false
  /-- its pause copy failed: slots and holds go at the next boundary (R202); its KV was lost since the last boundary (R211) -/
  failedPause : Bool := false
  kvLost : Bool := false
  /-- its state until the boundary of its clearance (R211) -/
  before : SessState := .free
  /-- the traversal under way was dropped; the sampled token of a completed one (R213, R226) -/
  travDropped : Bool := false
  sampled : Option Nat := none
  stalled : Bool := false
  /-- the traversal under way would have released a token, and is lost with the KV (R237, R256) -/
  gapDue : Bool := false
  gapSent : Bool := false
  rebuilding : Bool := false
  rebuiltMark : Bool := false
  carried : Bool := false
  /-- wall time (ns x 480) at boundary b, and P at clearance (R223, R224) -/
  clearWall : Nat := 0
  clearPeriod : Nat := 4800
  /-- latched by a client or host in this tick: 1 cancel, 2 pause -/
  latch : Nat := 0
  drainPause : Bool := false
  /-- the state change to ENDED is done; a boundary has begun since, so the next one frees the descriptor (R229) -/
  endPending : Bool := false
  endSeen : Bool := false
  /-- contrail copies: stack and page of each, none when lost or not yet written (R199, R201) -/
  copyA : Option (Nat × Nat) := none
  copyB : Option (Nat × Nat) := none
deriving DecidableEq, Repr

/-- One HBM3E stack (R197-R201, R206). -/
structure StackSt where
  st : StackState := .off
  /-- spare contrail slots in use: slot number and the descriptor held (R199, R201) -/
  spares : List (Nat × Nat) := []
  /-- wall times (ns x 480) of the lines that read uncorrectable within the last second (R201) -/
  badLines : List Nat := []
  mem : Mem := []
deriving DecidableEq, Repr

/-- One Ethernet port (R242, R262, R263). -/
structure EthPort where
  mtu : Nat := 9000
  cap : Nat := 400
  linkUp : Bool := false
  fecLock : Bool := false
deriving DecidableEq, Repr

/-- The Gust or the Cloud channel of an Obtik port (R307): the last SEQ sent and received in order, the peer's credit, the frames not
acknowledged with how often the oldest was resent, and the frames that wait for a credit. -/
structure LinkChan where
  txSeq : Nat := 0
  rxSeq : Nat := 0
  credit : Nat := 0
  replay : List ObtikFrame := []
  resends : Nat := 0
  waiting : List ObtikFrame := []
deriving DecidableEq, Repr

/-- One Obtik port (R302-R321). -/
structure ObtikPort where
  st : PortState := .off
  trainFails : Nat := 0
  lanes : Nat := 0
  delayNs : Nat := 0
  heldCause : Nat := 0
  peerModule : Nat := 0
  peerPort : Nat := 0
  /-- hops of the peer from the master; 15: no valid beacon from it -/
  peerHops : Nat := 15
  /-- a SOUND has come since the port trained -/
  seen : Bool := false
  gust : LinkChan := {}
  cloud : LinkChan := {}
deriving DecidableEq, Repr

/-- An entry of an Obtik engine's remote target table (R308), with the sending core and the reserved bytes per tick of a Jetstream entry
(R309). -/
structure TargetEntry where
  module_ : Nat
  dest : Nat
  addr : Nat
  channel : Nat
  port : Nat
  source : Nat := 0
  bytes : Nat := 0
  placement : Nat := 0
deriving DecidableEq, Repr

/-- An entry of the inbound table (R308). -/
structure InboundEntry where
  srcModule : Nat
  tag : Nat
  placement : Nat
  destLo : Nat
  destHi : Nat
deriving DecidableEq, Repr

/-- A READ that a port engine has put into the fabric for another module: where its reply goes (R308). -/
structure LinkRead where
  engine : Nat
  dest : Nat
  addr : Nat
  reply : Nat
  module_ : Nat
  src : Nat
deriving DecidableEq, Repr

/-- An order of a peer that waits for the control slot (R315, R397). -/
inductive PeerOrder where
  | tickMaster (module_ master : Nat)
  | tickDemand (module_ level usable : Nat) (forced : Bool)
  | routeTable (module_ applyTick : Nat) (entries : List Nat)
deriving DecidableEq, Repr

/-- The link layer of the module (R310-R322). -/
structure LinksSt where
  ports : Tbl ObtikPort := []
  plan : LinkPlan := ⟨1, 0x3F, 0, []⟩
  storedPlan : LinkPlan := ⟨1, 0x3F, 0, []⟩
  chart : List (Nat × Nat) := []
  storedChart : List (Nat × Nat) := []
  storedMaster : Option Nat := none
  soundLimit : Nat := 10
  errThreshold : Nat := 16
  /-- remote targets: entry a of the engine of port n at index 4,096 n + a -/
  targets : Tbl TargetEntry := []
  inbound : List InboundEntry := []
  reads : List LinkRead := []
  graph : List (Nat × Nat) := []
  /-- where the next SOUND's adjacency entries begin -/
  floodAt : Nat := 0
  newEntry : Bool := false
  soundingDone : Bool := false
  routes : Tbl (Nat × Bool) := []
  /-- tables to come: boundary, whether ordered, entries -/
  nextRoutes : List (Nat × Bool × Tbl (Nat × Bool)) := []
  routesFromOrder : Bool := false
  /-- ports that the port choice of R314 counts, as of the last boundary -/
  choice : List Nat := []
  master : Nat := 0
  follower : Bool := false
  hops : Nat := 0
  beaconPort : Option Nat := none
  holdover : Bool := false
  /-- relayed level and LULL, and the tick count they are for (R317, R318) -/
  relayWord : Option (Nat × Bool) := none
  relayTick : Nat := 0
  /-- since when the Ceiling unit must force stretch on this follower, and the relayed level then (R319) -/
  forceAt : Option (Nat × Nat) := none
  /-- peers' demands: module, level, usable limit, forced (R318) -/
  demands : List (Nat × Nat × Nat × Bool) := []
  /-- peers' orders that the next control slot applies, and whether a host route order came in this one (R315) -/
  orders : List PeerOrder := []
  hostRoute : Bool := false
  /-- source cores whose cross-module sends fail R309 -/
  timingFails : List Nat := []
deriving DecidableEq, Repr

/-- The tick, its period and the stretch (R33-R60). -/
structure TickSt where
  count : Nat := 0
  period : Nat := 4800
  running : Bool := false
  /-- boundaries of the running tick have begun; LULL set in the word to come (R48) -/
  lullAsked : Bool := false
  lullLate : Bool := false
  wordEmitted : Bool := false
  lullEndAsked : Bool := false
  /-- a tick has run since the last reset: the first one has count 0 (R49) -/
  started : Bool := false
  level : Nat := 0
  /-- the level that the Zenith has ordered; it holds from the next boundary on (R54, R56) -/
  zenith : Nat := 0
  vaneDemand : Nat := 0
  capDemand : Nat := 0
  thermalDemand : Nat := 0
  forced : Nat := 0
  committed : Nat := 16
  vaneWarn : Nat := 20
  vaneRelease : Nat := 45
  /-- a decrease that waits for VLOG rails to settle (R54) -/
  raiseOrdered : Bool := false
  /-- wall time since start-up in 1/480 ns -/
  wall480 : Nat := 0
  slotDone : Bool := false
deriving DecidableEq, Repr

/-- Module power: caps, ladder, segments (R323-R343). -/
structure PowerMgr where
  storedCap : Nat := 15000
  hostCap : Nat := 15000
  hostSet : Bool := false
  bmcCap : Option Nat := none
  capEff : Nat := 15000
  ladder : Nat := 0
  shareBound : Tbl Nat := []
  depthLimit : Nat := 16
  releaseMs : Nat := 0
  p1 : Nat := 0
  p10 : Nat := 0
  p100 : Nat := 0
  vin : Nat := 0
  iin : Nat := 0
  auxV : Nat := 0
  /-- the main input voltage at the last ten marks of 1 ms (R335) -/
  vins : List Nat := []
  lullUntil : Bool := false
  /-- ticks of the 1 ms clock at which the last power Lulls began -/
  powerLulls : List Nat := []
  powerLullHeld : Bool := false
  msClock : Nat := 0
  lead : Nat := 2
  segOn : List Nat := []
  segTripped : List Nat := []
  mainOk : Bool := false
  auxOk : Bool := false
  refclkOk : Bool := true
  uv : Bool := false
  inputFault : Nat := 0      -- 0 none, 1 undervoltage Overcast, 2 lockout
  inputLost : Bool := false
  alert : Bool := false
  /-- forecast levels sent: tick, field, highest level (R326) -/
  forecastLog : List (Nat × Nat × Nat) := []
  /-- changes of the ladder's depth limit: tick, limit (R330) -/
  depthLog : List (Nat × Nat) := []
deriving DecidableEq, Repr

/-- Module thermal control (R344-R361). -/
structure ThermalSt where
  tLim : Nat := 95
  guard : Nat := 3
  switchOff : Bool := true
  bmcLimit : Option Nat := none
  bmcGuard : Option Nat := none
  inletFails : Nat := 0
  outletFails : Nat := 0
  flowFails : Nat := 0
  inletGood : Nat := 10
  outletGood : Nat := 10
  flowGood : Nat := 10
  trayInlet : Option Int := none
  trayOutlet : Option Int := none
  trayFlow : Option Nat := none
  couplingA : Option Int := none
  couplingB : Option Int := none
  tIn : Int := 300
  flow : Nat := 3200
  flowOkMs : Nat := 0
  rthMod : List Rat := []
  cth : Nat := 21000
  coolRun : Nat := 0
  /-- consecutive samples of 52 C or more of coupling thermistors A and B (R353) -/
  tripHits : Nat × Nat := (0, 0)
  /-- the trip condition stood at the last sample -/
  hot : Bool := false
  /-- time for which the release condition of R353 has held -/
  coolMs : Nat := 0
  trip : Bool := false
  tripCount : Nat := 0
  flowLost : Bool := false
  inletSlope : List Int := []
  ps : Rat := 4500
  wl : Rat := 60
  wr : Rat := 60
  /-- allowed powers A_1 to A_20 of the last formation -/
  outlook : List Rat := []
  /-- power samples of the fit: (power, scaled lanes, rows) -/
  samples : List (Nat × Rat × Nat) := []
deriving DecidableEq, Repr

/-- An event record of R374. -/
structure Event where
  code : Nat
  isEnd : Bool := false
  more : Bool := false
  seq : Nat := 0
  tick : Nat := 0
  placement : Nat := 0xFF
  airspace : Nat := 0xFF
  field : Nat := 0xFF
  core : Nat := 0xFF
  stages : List Nat := []
  /-- DETAIL bytes by offset, 0 where not listed -/
  detail : List (Nat × Nat) := []
deriving DecidableEq, Repr

/-- A reply of R391. -/
structure Reply where
  num : Nat := 0
  seq : Nat
  opcode : Nat
  status : Status
  final : Bool
  inBuffer : Bool := false
  tick : Nat := 0
  detail : Nat := 0
  /-- RESULT as (offset, length, value) fields -/
  result : List (Nat × Nat × Nat) := []
deriving DecidableEq, Repr

/-- An order that waits for a boundary, an apply_tick or a later slot: the command, the tick it is for, and whether its final reply is
still owed (R388, R393). -/
structure Deferred where
  order : Instr
  applyTick : Nat
  owed : Bool := false
deriving DecidableEq, Repr

/-- A SNAPSHOT under way: its command, range, the tick whose control slot applied it, and the copy once taken (R410). -/
structure Snapshot where
  header : CmdHdr
  offset : Nat
  length : Nat
  tick : Nat
  copy : Option (List Byte)
deriving DecidableEq, Repr

/-- What the BMC has ordered and no control slot has applied: a command packet of R428, or a MFR_POWER_CAP word (R340). -/
inductive BmcOrder where
  | packet (p : CmdPacket)
  | capWord (w : Nat)
deriving DecidableEq, Repr

/-- Capabilities of the host function (R377). -/
inductive PciCap where
  | powerManagement | pciExpress | msiX | advancedErrorReporting
deriving DecidableEq, Repr

/-- The configuration space of the host function: the header of R378, the properties of R377, and what configuration writes and training set. A
hot reset or a link-down resets it (R379). -/
structure CfgSpace where
  vendorId : BitVec 16 := 0x1D7A
  deviceId : BitVec 16 := 0x2688
  revisionId : Byte := 0x01
  classCode : BitVec 24 := 0x120000
  subsystemVendorId : BitVec 16 := 0x1D7A
  subsystemId : BitVec 16 := 0x0001
  /-- BAR0: 64-bit, non-prefetchable, 8 MiB; BAR2 to BAR5 and the expansion ROM are absent -/
  bar0Bytes : Nat := 0x800000
  bar0Wide : Bool := true
  bar0Prefetchable : Bool := false
  otherBars : Nat := 0
  interruptPin : Byte := 0x00
  capabilities : List PciCap := [.powerManagement, .pciExpress, .msiX, .advancedErrorReporting]
  functionLevelReset : Bool := false
  maxPayload : Nat := 512
  maxReadRequest : Nat := 512
  /-- Bus Master Enable, and power state D3hot -/
  busMaster : Bool := false
  d3hot : Bool := false
  /-- Link Status: negotiated rate in 0.1 GT/s and width, of a link that has trained -/
  link : Option (Nat × Nat) := none
deriving DecidableEq, Repr

/-- The host interface (R377-R396). -/
structure HostSt where
  linkUp : Bool := false
  cfg : CfgSpace := {}
  fetching : Bool := false
  fetched : Nat := 0
  produced : Nat := 0
  repliesConsumed : Nat := 0
  eventsConsumed : Nat := 0
  /-- slots being read, and the fetched packets that wait for the control slot, each with the tick in which its data arrived -/
  reading : Nat := 0
  fetchedPkts : List (Nat × CmdPacket) := []
  staleRun : Nat := 0
  /-- opcode of the slot that was found stale (R388) -/
  staleOp : Nat := 0
  replyNum : Nat := 0
  held : List Reply := []
  eventSeq : Nat := 0
  eventQueue : List Event := []
  mask : W32 := 0
  sigReply : Bool := false
  sigEvent : Bool := false
  sigUrgent : Bool := false
  written : List Nat := []
  deferred : List Deferred := []
  bmcQueue : List BmcOrder := []
  snapshots : List Snapshot := []
  /-- events found while the Zenith does not serve control slots (R374) -/
  late : List Event := []
deriving DecidableEq, Repr

/-- PMBus and MCTP targets (R339, R340, R425-R428). -/
structure MgmtSt where
  page : Nat := 0
  /-- STATUS bytes by page: input, iout, temperature, vout, cml (R340) -/
  statusInput : Tbl Nat := []
  statusIout : Tbl Nat := []
  statusCml : Tbl Nat := []
  statusTemp : Tbl Nat := []
  statusVout : Tbl Nat := []
  eid : Tbl Nat := []
  receiver : Option Nat := none
  /-- platform events not acknowledged: sensor, value, event data, times sent -/
  events : List (Nat × Nat × Nat × Nat) := []
  /-- SPDM connection state per binding: 0 none, 1 version, 2 capabilities, 3 algorithms -/
  spdm : Tbl Nat := []
  /-- JTAG bypass register and boundary scan preload -/
  tdo : Bool := false
  scan : List Bool := []
  extest : Bool := false
deriving DecidableEq, Repr

/-- One code area of the boot flash (R413): the image written at the factory while `factory` is set, else the bytes written since. -/
structure BootArea where
  factory : Bool := true
  bytes : Mem := []
deriving DecidableEq, Repr

/-- A FIRMWARE_UPDATE under way (R419): the area, the image, and the command. -/
structure FwUpdate where
  image : Nat
  data : List Byte
  cmdSeq : Nat
  cmdOp : Nat
deriving DecidableEq, Repr

/-- Boot flash, fuses and boot (R413-R432). -/
structure BootSt where
  area0 : BootArea := {}
  area1 : BootArea := {}
  preference : Option Nat := none
  fuseRequest : Option (Nat × Nat) := none
  counter : Nat := 0
  revoked : Nat := 0
  keySlot : Nat := 0
  bootImage : Nat := 0
  img0Ok : Bool := false
  img1Ok : Bool := false
  debugOpen : Bool := false
  romDone : Bool := false
  recovery : Bool := false
  wpOpen : Bool := false
  flashBlocked : Nat := 0
  update : Option FwUpdate := none
  /-- the image being staged for a Zenith restart (R415) -/
  staging : Option Nat := none
  restartWindow : Bool := false
  zenithUp : Bool := false
  missedSlots : Nat := 0
  fw : Nat := 0
deriving DecidableEq, Repr

/-- A journal entry restored or written (R444, R445). -/
structure JournalEntry where
  index : Nat
  desc : Desc
  carried : Bool
  valid : Bool
  /-- field, byte of its journal area and length of an entry that has a place (R445) -/
  field : Nat
  offset : Nat := 0
  length : Nat := 0
  dest : Option Dest
deriving DecidableEq, Repr

/-- The contrail journal (R444-R446). -/
structure Journal where
  generation : Nat := 0
  tick : Nat := 0
  cause : Nat := 0
  complete : Bool := false
  consumed : Bool := true
  entries : List JournalEntry := []
  /-- fields whose bank g mod 2 holds a copy of the directory (R444) -/
  fields : List Nat := []
  running : Bool := false
deriving DecidableEq, Repr

/-- Start-up, power state and self-test bookkeeping (R433-R453). -/
structure StartSt where
  power : PowerSt := .off
  /-- the state a transition in progress is going to (R436) -/
  target : Option PowerSt := none
  phase : Nat := 0
  resetCause : Nat := 0
  moduleId : Nat := 0
  straps : Nat := 0
  perstHeld : Bool := false
  holdInLull : Bool := false
  carry : Bool := true
  testInterval : Nat := 3600
  testField : Option Nat := none
  lastTested : Nat := 87
  testCmd : Option (Nat × Src × Nat) := none
  journal : Journal := {}
  powerCmd : Option (Nat × Src × Nat) := none
  /-- a Lull was ordered and no POWER_STATE 0 has followed (R436) -/
  lullOrdered : Bool := false
  /-- a module reset waits for its journal: its RESET_CAUSE and whether start-up ends in Lull (R403, R439) -/
  resetPending : Option (Nat × Bool) := none
  /-- CAUSE of the journal of the entry to Overcast under way (R444) -/
  entryCause : Nat := 0
  entryStandby : Bool := false
  /-- serving has begun since the last reset (step 7 of R433) -/
  serving : Bool := false
  /-- placements built since the last reset (step 6 of R433) -/
  built : List Nat := []
  restartCmd : Option (Nat × Src × Nat) := none
  calibrating : Bool := false
deriving DecidableEq, Repr

/-- Health as last evaluated (R373). -/
structure HealthSt where
  st : Nat := 0
  cause : W32 := 0
deriving DecidableEq, Repr

/-- What leaves the module: datagrams, posted writes to host memory, interrupts, answers on the management buses, frames,
pins. The outside observes these; nothing in the module reads them back. -/
inductive Out where
  | ack (m : AckMsg) (tick : Nat)
  | stepBatch (airspace : Nat) (b : Batch) (retransmitted : Bool)
  | history (c : Client) (handle first : Nat) (tokens : List Nat)
  | chunkAck (source transfer result chunk done : Nat)
  | echoReply (port code : Nat)
  | reply (r : Reply)
  | buffer (addr : Nat) (data : List Byte)
  | event (e : Event)
  | msix (vector : Nat)
  | bmcReply (r : Reply)
  | unsupportedRequest (addr : Nat)
  | pmbus (command : Nat) (data : List Byte)
  | pmbusNack (command : Nat)
  | alertAddress (addr : Nat)
  | mctp (binding command : Nat) (data : List Byte)
  | pldm (command : Nat) (data : List Byte)
  | platformEvent (receiver sensor value data : Nat)
  | spdm (binding code : Nat) (data : List Byte)
  | jtag (bits : List Bool)
  | pin (name : String) (asserted : Bool)
  | beacon (word : W32)
  | packet (router port : Nat) (p : Packet)
  | localPacket (core : Nat) (p : Packet)
  | obtik (port : Nat) (f : ObtikFrame)
  | obtikSound (port : Nat) (m : SoundMsg)
  | gust (message : Nat) (field : Nat)
  | forecast (field : Nat) (word : W32)
  | gustStatus (router : Nat) (status : Status)
  /-- a steward's Gust report to the Zenith: a CLOUD_MOVE of a core has completed or failed (R108) -/
  | moveReport (core : Nat) (completed : Bool)
  | readHeader
  | readSlots (first count : Nat)
deriving DecidableEq, Repr

/-- Why the block stops. None is raised by this model: the manual stops on nothing ("The Yargon does not stop for an error",
chapter 15). Safe: a fault would only lose behaviour. -/
inductive Fault where
  /-- raised by no meaning; kept so that the type is not empty. Safe. -/
  | none_
deriving DecidableEq, Repr

/-- Why a command has no meaning. -/
inductive Refusal where
  /-- the command's meaning is not written yet; raised by Dispatch only. Safe: no state is reached. -/
  | notModelled (mnemonic : String)
  /-- DEBUG with an accepted token acts on the debug unit, whose behaviour the manual does not give (R430). Safe. -/
  | debugUnit
deriving DecidableEq, Repr

/-- The whole module. -/
structure State where
  /-- the register file of BAR0 by address: counters, RW1C bits, host windows, telemetry (R381) -/
  regs : Tbl W32 := []
  /-- the Zenith's copies of the field windows, refreshed in each maintenance slot (R383) -/
  windows : Tbl W32 := []
  tick : TickSt := {}
  start : StartSt := {}
  power : PowerMgr := {}
  thermal : ThermalSt := {}
  fields : Tbl FieldSt := []
  cores : Tbl CoreSt := []
  placements : Tbl PlacementSt := []
  airspaces : Tbl AirspaceSt := []
  sessions : Tbl Desc := []
  hbm : Tbl StackSt := []
  eth : Tbl EthPort := []
  links : LinksSt := {}
  transfers : List Transfer := []
  assemblies : List Assembly := []
  nextTransfer : Nat := 1
  chunkStore : List (Nat × Nat × List Byte) := []
  host : HostSt := {}
  mgmt : MgmtSt := {}
  boot : BootSt := {}
  health : HealthSt := {}
  /-- core settings of R84 and fabric settings of R301 -/
  scrubWords : Nat := 1
  remoteWait : Nat := 4096
  mergeWindow : Nat := 4
  linkDownTh : Nat := 64
  /-- stratum configuration settings of R175 -/
  rollbackHold : Nat := 0
  twinProtection : Bool := true
  /-- Gust messages not acknowledged: number, target (R297) -/
  gust : List (Nat × Nat) := []
  /-- request numbers given so far; uses of a free value so far (the model's own counters) -/
  nextRequest : Nat := 1
  freeUses : Nat := 0
  /-- records of the tick under way, by airspace and destination (R254) -/
  records : List (Nat × Nat × Rec) := []
  /-- END records of state changes that the next boundary makes: they go into the batch after it (R229) -/
  lateRecords : List (Nat × Nat × Rec) := []
  acks : List AckMsg := []
  out : List Out := []
  /-- the commands that wait, first in first out (the model's own queue) -/
  pending : List Instr := []
deriving DecidableEq, Repr

/-- Reset values of the fields: service fields have role SERVICE and the factory clearings role CLEARING (R19, R20). -/
def FieldSt.atReset (f : Nat) : FieldSt :=
  if Config.serviceFields.contains f then { role := .service }
  else if Config.factoryClearings.contains f then { role := .clearing }
  else {}

/-- Airspace settings as the factory leaves them: airspace 0 has every share and DHCPv6 (R241, R263). -/
def AirspaceSt.atReset (a : Nat) : AirspaceSt :=
  if a = 0 then { slotShare := 100, kvShare := 100, cloudShare := 16, powerShare := 100, dhcp := true } else {}

/-- A factory YGN-2688-A before its auxiliary input is applied: nothing is installed or bound (R1), the module is Off (R435), no tick has
run; every table lists only what differs from its default. AUX_INPUT_APPLIED is the cold reset that start-up begins with (R433). -/
def State.reset : State := {}

end Sys2Proof.Machine
end

