-- ==== Sys2Proof/Machine/Registers.lean ====
section
/-! DEFINITION. The register fields of BAR0, each with its address, bits, access code and reset value, from the register tables of
the chapters (R59, R83, R110, R140, R173, R174, R206, R207, R240, R262, R278, R300, R321, R341, R342, R359, R360, R376,
R382-R385, R396, R432, R452), and the MSI-X table and pending bits of R395, laid out as PCI Express lays down (log entry 93). -/

namespace Sys2Proof.Machine

/-- A register field: the address of its register and its bits (R4). -/
structure Fld where
  addr : Nat
  hi : Nat
  lo : Nat
deriving DecidableEq, Repr

/-- Register access codes (R7). -/
inductive Access where
  | ro | rw | rw1c | wo | rwl
deriving DecidableEq, Repr

/-- A row of the register tables: base address, index strides with their counts, bits, access, reset value, and whether the value is Stored. -/
structure RegRow where
  base : Nat
  dims : List (Nat × Nat)
  hi : Nat
  lo : Nat
  access : Access
  reset : Nat
  stored : Bool
deriving DecidableEq, Repr

def Reg.Tick.TCK_COUNT_LO : Fld := ⟨0x10000, 31, 0⟩
def Reg.Tick.TCK_COUNT_HI : Fld := ⟨0x10004, 31, 0⟩
def Reg.Tick.PERIOD : Fld := ⟨0x10008, 15, 0⟩
def Reg.Tick.FORCED : Fld := ⟨0x1000C, 31, 31⟩
def Reg.Tick.VANE_HELD : Fld := ⟨0x1000C, 30, 30⟩
def Reg.Tick.USABLE : Fld := ⟨0x1000C, 22, 16⟩
def Reg.Tick.COMMITTED : Fld := ⟨0x1000C, 14, 8⟩
def Reg.Tick.LEVEL : Fld := ⟨0x1000C, 6, 0⟩
def Reg.Tick.BAND : Fld := ⟨0x10010, 17, 16⟩
def Reg.Tick.FREQ_MHZ : Fld := ⟨0x10010, 15, 0⟩
def Reg.Tick.REPLAY_SKIPPED : Fld := ⟨0x10014, 13, 13⟩
def Reg.Tick.STRETCH_FORCED : Fld := ⟨0x10014, 12, 12⟩
def Reg.Tick.BEACON_LOST : Fld := ⟨0x10014, 11, 11⟩
def Reg.Tick.BEACON_ALT : Fld := ⟨0x10014, 10, 10⟩
def Reg.Tick.LATE_JET : Fld := ⟨0x10014, 9, 9⟩
def Reg.Tick.OVERRUN : Fld := ⟨0x10014, 8, 8⟩
def Reg.Tick.PERIOD_HOLD : Fld := ⟨0x10014, 2, 2⟩
def Reg.Tick.LULL : Fld := ⟨0x10014, 1, 1⟩
def Reg.Tick.RUNNING : Fld := ⟨0x10014, 0, 0⟩
def Reg.Tick.DECODE (p : Nat) : Fld := ⟨0x10040 + 0x10 * p, 31, 16⟩
def Reg.Tick.PREFILL (p : Nat) : Fld := ⟨0x10040 + 0x10 * p, 15, 0⟩
def Reg.Tick.RESERVE (p : Nat) : Fld := ⟨0x10044 + 0x10 * p, 31, 16⟩
def Reg.Tick.EXCHANGE (p : Nat) : Fld := ⟨0x10044 + 0x10 * p, 15, 0⟩
def Reg.Tick.GRANT (p : Nat) : Fld := ⟨0x10048 + 0x10 * p, 23, 16⟩
def Reg.Tick.SIZED (p : Nat) : Fld := ⟨0x10048 + 0x10 * p, 15, 8⟩
def Reg.Tick.RR (p : Nat) : Fld := ⟨0x10048 + 0x10 * p, 7, 0⟩
def Reg.Core.STAGE (f n : Nat) : Fld := ⟨0x104000 + 0x10000 * f + 0x80 * n, 25, 16⟩
def Reg.Core.DEPUTY (f n : Nat) : Fld := ⟨0x104000 + 0x10000 * f + 0x80 * n, 13, 13⟩
def Reg.Core.DEPUTY_OF (f n : Nat) : Fld := ⟨0x104000 + 0x10000 * f + 0x80 * n, 12, 8⟩
def Reg.Core.FAIL_ORDER (f n : Nat) : Fld := ⟨0x104000 + 0x10000 * f + 0x80 * n, 7, 6⟩
def Reg.Core.STATE (f n : Nat) : Fld := ⟨0x104000 + 0x10000 * f + 0x80 * n, 3, 0⟩
def Reg.Core.BANK_INIT (f n : Nat) : Fld := ⟨0x104004 + 0x10000 * f + 0x80 * n, 31, 16⟩
def Reg.Core.BANK_ON (f n : Nat) : Fld := ⟨0x104004 + 0x10000 * f + 0x80 * n, 15, 0⟩
def Reg.Core.EXTENSION (f n : Nat) : Fld := ⟨0x104008 + 0x10000 * f + 0x80 * n, 15, 0⟩
def Reg.Core.RESERVE_SEG (f n : Nat) : Fld := ⟨0x10400C + 0x10000 * f + 0x80 * n, 8, 0⟩
def Reg.Core.SC_CORR (f n : Nat) : Fld := ⟨0x104010 + 0x10000 * f + 0x80 * n, 31, 0⟩
def Reg.Core.SC_UNCORR (f n : Nat) : Fld := ⟨0x104014 + 0x10000 * f + 0x80 * n, 31, 0⟩
def Reg.Core.BANK_OFF (f n : Nat) : Fld := ⟨0x104018 + 0x10000 * f + 0x80 * n, 31, 0⟩
def Reg.Core.FILTER (f n : Nat) : Fld := ⟨0x10401C + 0x10000 * f + 0x80 * n, 31, 0⟩
def Reg.Core.REMOTE_BUSY (f n : Nat) : Fld := ⟨0x104020 + 0x10000 * f + 0x80 * n, 31, 0⟩
def Reg.Core.OVERRUN (f n : Nat) : Fld := ⟨0x104024 + 0x10000 * f + 0x80 * n, 31, 0⟩
def Reg.Core.PROG_REPAIR (f n : Nat) : Fld := ⟨0x104028 + 0x10000 * f + 0x80 * n, 31, 0⟩
def Reg.Core.STRATUM_UNCORR (f n : Nat) : Fld := ⟨0x10402C + 0x10000 * f + 0x80 * n, 31, 0⟩
def Reg.Core.WRITE_COLLIDE (f n : Nat) : Fld := ⟨0x104030 + 0x10000 * f + 0x80 * n, 31, 0⟩
def Reg.Seq.DEC_LEN (f n : Nat) : Fld := ⟨0x105000 + 0x10000 * f + 0x40 * n, 27, 16⟩
def Reg.Seq.DEC_BASE (f n : Nat) : Fld := ⟨0x105000 + 0x10000 * f + 0x40 * n, 11, 0⟩
def Reg.Seq.PRE_PROG (f n : Nat) : Fld := ⟨0x105004 + 0x10000 * f + 0x40 * n, 31, 0⟩
def Reg.Seq.REP_PROG (f n : Nat) : Fld := ⟨0x105008 + 0x10000 * f + 0x40 * n, 31, 0⟩
def Reg.Seq.MNT_PROG (f n : Nat) : Fld := ⟨0x10500C + 0x10000 * f + 0x40 * n, 31, 0⟩
def Reg.Seq.ENTRY (f n : Nat) : Fld := ⟨0x105010 + 0x10000 * f + 0x40 * n, 31, 20⟩
def Reg.Seq.ARMED (f n : Nat) : Fld := ⟨0x105010 + 0x10000 * f + 0x40 * n, 19, 19⟩
def Reg.Seq.REPLAYED (f n : Nat) : Fld := ⟨0x105010 + 0x10000 * f + 0x40 * n, 18, 18⟩
def Reg.Seq.PC (f n : Nat) : Fld := ⟨0x105010 + 0x10000 * f + 0x40 * n, 15, 4⟩
def Reg.Seq.PROG (f n : Nat) : Fld := ⟨0x105010 + 0x10000 * f + 0x40 * n, 3, 0⟩
def Reg.Seq.TROUBLE (f n : Nat) : Fld := ⟨0x105014 + 0x10000 * f + 0x40 * n, 31, 0⟩
def Reg.Seq.REPLAY_RUN (f n : Nat) : Fld := ⟨0x105018 + 0x10000 * f + 0x40 * n, 31, 0⟩
def Reg.Seq.REPLAY_SKIPPED (f n : Nat) : Fld := ⟨0x10501C + 0x10000 * f + 0x40 * n, 31, 0⟩
def Reg.Seq.TROUBLE_ACCEPTED (f n : Nat) : Fld := ⟨0x105020 + 0x10000 * f + 0x40 * n, 31, 0⟩
def Reg.Seq.PREFILL_CUT (f n : Nat) : Fld := ⟨0x105024 + 0x10000 * f + 0x40 * n, 31, 0⟩
def Reg.Seq.ADDR_FAULT (f n : Nat) : Fld := ⟨0x105028 + 0x10000 * f + 0x40 * n, 31, 0⟩
def Reg.Seq.RECV_MISS (f n : Nat) : Fld := ⟨0x10502C + 0x10000 * f + 0x40 * n, 31, 0⟩
def Reg.Seq.ABANDON_PROG (f n : Nat) : Fld := ⟨0x105030 + 0x10000 * f + 0x40 * n, 15, 12⟩
def Reg.Seq.ABANDON_PC (f n : Nat) : Fld := ⟨0x105030 + 0x10000 * f + 0x40 * n, 11, 0⟩
def Reg.Arith.SAT_TOTAL (f : Nat) : Fld := ⟨0x106000 + 0x10000 * f, 31, 0⟩
def Reg.Arith.UNDERFLOW_TOTAL (f : Nat) : Fld := ⟨0x106004 + 0x10000 * f, 31, 0⟩
def Reg.Arith.TROUBLED_GROUPS (f : Nat) : Fld := ⟨0x106008 + 0x10000 * f, 31, 0⟩
def Reg.Arith.NAN_IN (f : Nat) : Fld := ⟨0x10600C + 0x10000 * f, 31, 0⟩
def Reg.Arith.SCALE_CLAMP (f : Nat) : Fld := ⟨0x106010 + 0x10000 * f, 31, 0⟩
def Reg.Arith.WSCALE_NAN (f : Nat) : Fld := ⟨0x106014 + 0x10000 * f, 31, 0⟩
def Reg.Arith.RESCALE_BUMP (f : Nat) : Fld := ⟨0x106018 + 0x10000 * f, 31, 0⟩
def Reg.Stratum.TWIN_OF (f : Nat) : Fld := ⟨0x107000 + 0x10000 * f, 31, 24⟩
def Reg.Stratum.TWIN_HOLDER (f : Nat) : Fld := ⟨0x107000 + 0x10000 * f, 23, 16⟩
def Reg.Stratum.STANDBY (f : Nat) : Fld := ⟨0x107000 + 0x10000 * f, 11, 8⟩
def Reg.Stratum.LIVE_BANK (f : Nat) : Fld := ⟨0x107000 + 0x10000 * f, 4, 4⟩
def Reg.Stratum.BANK0_CYCLES (f : Nat) : Fld := ⟨0x107004 + 0x10000 * f, 31, 0⟩
def Reg.Stratum.BANK1_CYCLES (f : Nat) : Fld := ⟨0x107008 + 0x10000 * f, 31, 0⟩
def Reg.Stratum.SCRUB_PAGE (f : Nat) : Fld := ⟨0x10700C + 0x10000 * f, 31, 0⟩
def Reg.Stratum.STRATUM_REPAIR (f : Nat) : Fld := ⟨0x107010 + 0x10000 * f, 31, 0⟩
def Reg.Plc.IMAGE_STATE (p : Nat) : Fld := ⟨0x400 + 0x40 * p, 27, 24⟩
def Reg.Plc.FIELDS (p : Nat) : Fld := ⟨0x400 + 0x40 * p, 23, 16⟩
def Reg.Plc.LIVE_BANK (p : Nat) : Fld := ⟨0x400 + 0x40 * p, 8, 8⟩
def Reg.Plc.TWIN_SUSPENDED (p : Nat) : Fld := ⟨0x400 + 0x40 * p, 3, 3⟩
def Reg.Plc.TWIN_NONE (p : Nat) : Fld := ⟨0x400 + 0x40 * p, 2, 2⟩
def Reg.Plc.FLIP_DRAIN (p : Nat) : Fld := ⟨0x400 + 0x40 * p, 1, 1⟩
def Reg.Plc.LIVE (p : Nat) : Fld := ⟨0x400 + 0x40 * p, 0, 0⟩
def Reg.Plc.LIVE_ID_LO (p : Nat) : Fld := ⟨0x404 + 0x40 * p, 31, 0⟩
def Reg.Plc.LIVE_ID_HI (p : Nat) : Fld := ⟨0x408 + 0x40 * p, 31, 0⟩
def Reg.Plc.STAGED_ID_LO (p : Nat) : Fld := ⟨0x40C + 0x40 * p, 31, 0⟩
def Reg.Plc.STAGED_ID_HI (p : Nat) : Fld := ⟨0x410 + 0x40 * p, 31, 0⟩
def Reg.Plc.CHUNKS_DONE (p : Nat) : Fld := ⟨0x414 + 0x40 * p, 31, 0⟩
def Reg.Plc.CHUNKS_TOTAL (p : Nat) : Fld := ⟨0x418 + 0x40 * p, 31, 0⟩
def Reg.Plc.DRAIN_LEFT (p : Nat) : Fld := ⟨0x41C + 0x40 * p, 31, 0⟩
def Reg.Cloud.SELF_REFRESH : Fld := ⟨0x740000, 6, 6⟩
def Reg.Cloud.STACKS_OK : Fld := ⟨0x740000, 5, 0⟩
def Reg.Cloud.LOST_LO : Fld := ⟨0x740004, 31, 0⟩
def Reg.Cloud.LOST_HI : Fld := ⟨0x740008, 15, 0⟩
def Reg.Cloud.STACK_LOST : Fld := ⟨0x74000C, 3, 3⟩
def Reg.Cloud.PAUSE_NOKV : Fld := ⟨0x74000C, 2, 2⟩
def Reg.Cloud.KV_EXPIRED : Fld := ⟨0x74000C, 1, 1⟩
def Reg.Cloud.UNCORR : Fld := ⟨0x74000C, 0, 0⟩
def Reg.Cloud.STRIPES (a : Nat) : Fld := ⟨0x740020 + 0x10 * a, 31, 16⟩
def Reg.Cloud.PAUSED_HELD (a : Nat) : Fld := ⟨0x740020 + 0x10 * a, 12, 0⟩
def Reg.Cloud.PAGES_TOTAL (a : Nat) : Fld := ⟨0x740024 + 0x10 * a, 31, 0⟩
def Reg.Cloud.PAGES_FREE (a : Nat) : Fld := ⟨0x740028 + 0x10 * a, 31, 0⟩
def Reg.Cloud.WINDOW_PAGES (a : Nat) : Fld := ⟨0x74002C + 0x10 * a, 31, 0⟩
def Reg.Cloud.TEMP (n : Nat) : Fld := ⟨0x740100 + 0x10 * n, 23, 16⟩
def Reg.Cloud.STATE (n : Nat) : Fld := ⟨0x740100 + 0x10 * n, 3, 0⟩
def Reg.Cloud.CORR (n : Nat) : Fld := ⟨0x740104 + 0x10 * n, 31, 0⟩
def Reg.Cloud.UNCORR_LINES (n : Nat) : Fld := ⟨0x740108 + 0x10 * n, 31, 0⟩
def Reg.Cloud.LANES_REPAIRED (n : Nat) : Fld := ⟨0x74010C + 0x10 * n, 7, 0⟩
def Reg.Cloud.PAUSE_COPIES : Fld := ⟨0x740400, 31, 0⟩
def Reg.Cloud.PAUSE_NOKV_COUNT : Fld := ⟨0x740404, 31, 0⟩
def Reg.Cloud.RESUME_COPIES : Fld := ⟨0x740408, 31, 0⟩
def Reg.Cloud.EXPIRED_COUNT : Fld := ⟨0x74040C, 31, 0⟩
def Reg.Cloud.COPIES_DROPPED : Fld := ⟨0x740410, 31, 0⟩
def Reg.Kv.SLOTS_4K (f a : Nat) : Fld := ⟨0x108000 + 0x10000 * f + 0x10 * a, 31, 16⟩
def Reg.Kv.FREE_4K (f a : Nat) : Fld := ⟨0x108000 + 0x10000 * f + 0x10 * a, 15, 0⟩
def Reg.Kv.SLOTS_16K (f a : Nat) : Fld := ⟨0x108004 + 0x10000 * f + 0x10 * a, 31, 16⟩
def Reg.Kv.FREE_16K (f a : Nat) : Fld := ⟨0x108004 + 0x10000 * f + 0x10 * a, 15, 0⟩
def Reg.Kv.SLOTS_32K (f a : Nat) : Fld := ⟨0x108008 + 0x10000 * f + 0x10 * a, 31, 16⟩
def Reg.Kv.FREE_32K (f a : Nat) : Fld := ⟨0x108008 + 0x10000 * f + 0x10 * a, 15, 0⟩
def Reg.Kv.SLOTS_128K (f a : Nat) : Fld := ⟨0x10800C + 0x10000 * f + 0x10 * a, 31, 16⟩
def Reg.Kv.FREE_128K (f a : Nat) : Fld := ⟨0x10800C + 0x10000 * f + 0x10 * a, 15, 0⟩
def Reg.Kv.PAGES (f a : Nat) : Fld := ⟨0x108080 + 0x10000 * f + 0x4 * a, 31, 16⟩
def Reg.Kv.PAGES_FREE (f a : Nat) : Fld := ⟨0x108080 + 0x10000 * f + 0x4 * a, 15, 0⟩
def Reg.Kv.KV_COW (f : Nat) : Fld := ⟨0x1080A0 + 0x10000 * f, 31, 0⟩
def Reg.Kv.KV_SAT (f : Nat) : Fld := ⟨0x1080A4 + 0x10000 * f, 31, 0⟩
def Reg.Kv.PREFIX_LOST (f : Nat) : Fld := ⟨0x1080A8 + 0x10000 * f, 31, 0⟩
def Reg.Ses.DECODE (a : Nat) : Fld := ⟨0x600 + 0x20 * a, 28, 16⟩
def Reg.Ses.PREFILL (a : Nat) : Fld := ⟨0x600 + 0x20 * a, 12, 0⟩
def Reg.Ses.PAUSED (a : Nat) : Fld := ⟨0x604 + 0x20 * a, 28, 16⟩
def Reg.Ses.QUEUED (a : Nat) : Fld := ⟨0x604 + 0x20 * a, 12, 0⟩
def Reg.Ses.WAITING (a : Nat) : Fld := ⟨0x608 + 0x20 * a, 10, 0⟩
def Reg.Ses.CLEARED (a : Nat) : Fld := ⟨0x60C + 0x20 * a, 31, 0⟩
def Reg.Ses.REFUSED (a : Nat) : Fld := ⟨0x610 + 0x20 * a, 31, 0⟩
def Reg.Ses.FAULT_DELAYED (a : Nat) : Fld := ⟨0x614 + 0x20 * a, 31, 0⟩
def Reg.Ses.STRETCH_EXCEEDED (a : Nat) : Fld := ⟨0x618 + 0x20 * a, 31, 0⟩
def Reg.Ses.REBUILDS (a : Nat) : Fld := ⟨0x61C + 0x20 * a, 31, 0⟩
def Reg.Ses.LANES (p : Nat) : Fld := ⟨0x700 + 0x20 * p, 26, 16⟩
def Reg.Ses.ROUND (p : Nat) : Fld := ⟨0x700 + 0x20 * p, 8, 0⟩
def Reg.Ses.STAGES (p : Nat) : Fld := ⟨0x704 + 0x20 * p, 31, 16⟩
def Reg.Ses.SLOT_MODE (p : Nat) : Fld := ⟨0x704 + 0x20 * p, 8, 8⟩
def Reg.Ses.QP (p : Nat) : Fld := ⟨0x704 + 0x20 * p, 7, 0⟩
def Reg.Ses.BOOKED (p : Nat) : Fld := ⟨0x708 + 0x20 * p, 31, 0⟩
def Reg.Ses.ROUND_TICKS (p : Nat) : Fld := ⟨0x70C + 0x20 * p, 31, 0⟩
def Reg.Eth.MTU (n : Nat) : Fld := ⟨0x780000 + 0x40 * n, 31, 16⟩
def Reg.Eth.FEC_LOCK (n : Nat) : Fld := ⟨0x780000 + 0x40 * n, 1, 1⟩
def Reg.Eth.LINK_UP (n : Nat) : Fld := ⟨0x780000 + 0x40 * n, 0, 0⟩
def Reg.Eth.RX_FRAMES (n : Nat) : Fld := ⟨0x780004 + 0x40 * n, 31, 0⟩
def Reg.Eth.TX_FRAMES (n : Nat) : Fld := ⟨0x780008 + 0x40 * n, 31, 0⟩
def Reg.Eth.BAD_FRAME (n : Nat) : Fld := ⟨0x78000C + 0x40 * n, 31, 0⟩
def Reg.Eth.BAD_MESSAGE (n : Nat) : Fld := ⟨0x780010 + 0x40 * n, 31, 0⟩
def Reg.Eth.TX_CAP_DROP (n : Nat) : Fld := ⟨0x780014 + 0x40 * n, 31, 0⟩
def Reg.Eth.FEC_UNCORR (n : Nat) : Fld := ⟨0x780018 + 0x40 * n, 31, 0⟩
def Reg.Eth.UDP_PORT (a : Nat) : Fld := ⟨0x780400 + 0x20 * a, 31, 16⟩
def Reg.Eth.VLAN (a : Nat) : Fld := ⟨0x780400 + 0x20 * a, 11, 0⟩
def Reg.Eth.DESTS (a : Nat) : Fld := ⟨0x780404 + 0x20 * a, 12, 0⟩
def Reg.Eth.BATCHES (a : Nat) : Fld := ⟨0x780408 + 0x20 * a, 31, 0⟩
def Reg.Eth.RETRANSMITS (a : Nat) : Fld := ⟨0x78040C + 0x20 * a, 31, 0⟩
def Reg.Eth.CAP_DROP (a : Nat) : Fld := ⟨0x780410 + 0x20 * a, 31, 0⟩
def Reg.Eth.FILTERED (a : Nat) : Fld := ⟨0x780414 + 0x20 * a, 31, 0⟩
def Reg.Eth.DUPLICATES (a : Nat) : Fld := ⟨0x780418 + 0x20 * a, 31, 0⟩
def Reg.Eth.QUEUE_DROP (a : Nat) : Fld := ⟨0x78041C + 0x20 * a, 31, 0⟩
def Reg.Tune.STATE (p : Nat) : Fld := ⟨0x800 + 0x20 * p, 27, 24⟩
def Reg.Tune.AIRSPACE (p : Nat) : Fld := ⟨0x800 + 0x20 * p, 18, 16⟩
def Reg.Tune.ADAPTER_ID (p : Nat) : Fld := ⟨0x800 + 0x20 * p, 5, 0⟩
def Reg.Tune.STEP (p : Nat) : Fld := ⟨0x804 + 0x20 * p, 31, 0⟩
def Reg.Tune.STEPS_TOTAL (p : Nat) : Fld := ⟨0x808 + 0x20 * p, 31, 0⟩
def Reg.Tune.LOSS (p : Nat) : Fld := ⟨0x80C + 0x20 * p, 31, 0⟩
def Reg.Tune.STEP_REPEATED (p : Nat) : Fld := ⟨0x810 + 0x20 * p, 31, 0⟩
def Reg.Tune.TUNE_CUT (p : Nat) : Fld := ⟨0x814 + 0x20 * p, 31, 0⟩
def Reg.Tune.CELLS (p : Nat) : Fld := ⟨0x818 + 0x20 * p, 31, 0⟩
def Reg.Router.LINK_UP (f : Nat) : Fld := ⟨0x109000 + 0x10000 * f, 21, 16⟩
def Reg.Router.AIRSPACES (f : Nat) : Fld := ⟨0x109000 + 0x10000 * f, 15, 8⟩
def Reg.Router.FILTER_ON (f : Nat) : Fld := ⟨0x109000 + 0x10000 * f, 7, 7⟩
def Reg.Router.REACH (f : Nat) : Fld := ⟨0x109000 + 0x10000 * f, 6, 6⟩
def Reg.Router.PLACEMENT (f : Nat) : Fld := ⟨0x109000 + 0x10000 * f, 5, 4⟩
def Reg.Router.TABLE (f : Nat) : Fld := ⟨0x109000 + 0x10000 * f, 0, 0⟩
def Reg.Router.FLIT_CORR (f : Nat) : Fld := ⟨0x109004 + 0x10000 * f, 31, 0⟩
def Reg.Router.FLIT_UNCORR (f : Nat) : Fld := ⟨0x109008 + 0x10000 * f, 31, 0⟩
def Reg.Router.ROUTE_CORRUPT (f : Nat) : Fld := ⟨0x10900C + 0x10000 * f, 31, 0⟩
def Reg.Router.ROUTE_FILTER (f : Nat) : Fld := ⟨0x109010 + 0x10000 * f, 31, 0⟩
def Reg.Router.UNREACHABLE (f : Nat) : Fld := ⟨0x109014 + 0x10000 * f, 31, 0⟩
def Reg.Router.MERGED (f : Nat) : Fld := ⟨0x109018 + 0x10000 * f, 31, 0⟩
def Reg.Router.MERGE_FULL (f : Nat) : Fld := ⟨0x10901C + 0x10000 * f, 31, 0⟩
def Reg.Router.ALIASES (f : Nat) : Fld := ⟨0x109020 + 0x10000 * f, 31, 0⟩
def Reg.Link.MASTER : Fld := ⟨0x700000, 23, 18⟩
def Reg.Link.MODULE_ID : Fld := ⟨0x700000, 17, 12⟩
def Reg.Link.HOPS : Fld := ⟨0x700000, 11, 8⟩
def Reg.Link.MODE : Fld := ⟨0x700000, 3, 2⟩
def Reg.Link.HOLDOVER : Fld := ⟨0x700000, 1, 1⟩
def Reg.Link.RELAYED : Fld := ⟨0x700000, 0, 0⟩
def Reg.Link.LAG_NS : Fld := ⟨0x700004, 31, 0⟩
def Reg.Link.SWAP_ACCEPTED : Fld := ⟨0x700008, 7, 7⟩
def Reg.Link.PORT_ABSENT : Fld := ⟨0x700008, 6, 6⟩
def Reg.Link.MASTER_LOST : Fld := ⟨0x700008, 5, 5⟩
def Reg.Link.ROUTE_TIMING : Fld := ⟨0x700008, 4, 4⟩
def Reg.Link.PLAN_MISMATCH : Fld := ⟨0x700008, 3, 3⟩
def Reg.Link.SWAPPED : Fld := ⟨0x700008, 2, 2⟩
def Reg.Link.CABLE_MISMATCH : Fld := ⟨0x700008, 1, 1⟩
def Reg.Link.DUPLICATE_ID : Fld := ⟨0x700008, 0, 0⟩
def Reg.Link.ORDERS_REFUSED : Fld := ⟨0x70000C, 31, 0⟩
def Reg.Link.STATE (n : Nat) : Fld := ⟨0x700100 + 0x40 * n, 27, 24⟩
def Reg.Link.PEER_MODULE (n : Nat) : Fld := ⟨0x700100 + 0x40 * n, 23, 18⟩
def Reg.Link.PEER_PORT (n : Nat) : Fld := ⟨0x700100 + 0x40 * n, 17, 14⟩
def Reg.Link.GROUP (n : Nat) : Fld := ⟨0x700100 + 0x40 * n, 13, 11⟩
def Reg.Link.BEACON_PORT (n : Nat) : Fld := ⟨0x700100 + 0x40 * n, 10, 10⟩
def Reg.Link.LANES_LOCKED (n : Nat) : Fld := ⟨0x700100 + 0x40 * n, 7, 0⟩
def Reg.Link.HELD_CAUSE (n : Nat) : Fld := ⟨0x700104 + 0x40 * n, 19, 16⟩
def Reg.Link.DELAY_NS (n : Nat) : Fld := ⟨0x700104 + 0x40 * n, 15, 0⟩
def Reg.Link.FEC_CORR (n : Nat) : Fld := ⟨0x700108 + 0x40 * n, 31, 0⟩
def Reg.Link.FEC_UNCORR (n : Nat) : Fld := ⟨0x70010C + 0x40 * n, 31, 0⟩
def Reg.Link.CRC_ERR (n : Nat) : Fld := ⟨0x700110 + 0x40 * n, 31, 0⟩
def Reg.Link.REPLAYS (n : Nat) : Fld := ⟨0x700114 + 0x40 * n, 31, 0⟩
def Reg.Link.JET_LOST (n : Nat) : Fld := ⟨0x700118 + 0x40 * n, 31, 0⟩
def Reg.Link.LINK_FILTER (n : Nat) : Fld := ⟨0x70011C + 0x40 * n, 31, 0⟩
def Reg.Link.VALID (m : Nat) : Fld := ⟨0x700800 + 0x4 * m, 3, 3⟩
def Reg.Link.GROUP_2 (m : Nat) : Fld := ⟨0x700800 + 0x4 * m, 2, 0⟩
def Reg.Pow.LADDER : Fld := ⟨0x20000, 26, 24⟩
def Reg.Pow.CAP_LEVEL : Fld := ⟨0x20000, 22, 16⟩
def Reg.Pow.DEPTH_LIMIT : Fld := ⟨0x20000, 12, 8⟩
def Reg.Pow.CEILING_LULL : Fld := ⟨0x20000, 2, 2⟩
def Reg.Pow.UV : Fld := ⟨0x20000, 1, 1⟩
def Reg.Pow.ALERT : Fld := ⟨0x20000, 0, 0⟩
def Reg.Pow.CAP_EFF : Fld := ⟨0x20004, 31, 0⟩
def Reg.Pow.CAP_SRC : Fld := ⟨0x20008, 2, 0⟩
def Reg.Pow.PIN_1MS : Fld := ⟨0x2000C, 31, 0⟩
def Reg.Pow.PIN_10MS : Fld := ⟨0x20010, 31, 0⟩
def Reg.Pow.IIN : Fld := ⟨0x20014, 31, 16⟩
def Reg.Pow.VIN : Fld := ⟨0x20014, 15, 0⟩
def Reg.Pow.CAP_HELD : Fld := ⟨0x20018, 8, 8⟩
def Reg.Pow.POWER_LULL : Fld := ⟨0x20018, 7, 7⟩
def Reg.Pow.INPUT_UV : Fld := ⟨0x20018, 6, 6⟩
def Reg.Pow.UV_WARN : Fld := ⟨0x20018, 5, 5⟩
def Reg.Pow.SEGMENT_TRIP : Fld := ⟨0x20018, 4, 4⟩
def Reg.Pow.BREAKER_TRIP : Fld := ⟨0x20018, 3, 3⟩
def Reg.Pow.WAKE_ABANDONED : Fld := ⟨0x20018, 2, 2⟩
def Reg.Pow.FORECAST_MISS : Fld := ⟨0x20018, 1, 1⟩
def Reg.Pow.FORECAST_BAD : Fld := ⟨0x20018, 0, 0⟩
def Reg.Pow.AUX_V : Fld := ⟨0x2001C, 31, 16⟩
def Reg.Pow.AUX_P : Fld := ⟨0x2001C, 15, 0⟩
def Reg.Pow.IOUT (n : Nat) : Fld := ⟨0x20100 + 0x10 * n, 31, 16⟩
def Reg.Pow.VOUT (n : Nat) : Fld := ⟨0x20100 + 0x10 * n, 15, 0⟩
def Reg.Pow.TEMP (n : Nat) : Fld := ⟨0x20104 + 0x10 * n, 23, 16⟩
def Reg.Pow.TRIPPED (n : Nat) : Fld := ⟨0x20104 + 0x10 * n, 1, 1⟩
def Reg.Pow.ON (n : Nat) : Fld := ⟨0x20104 + 0x10 * n, 0, 0⟩
def Reg.Pow.WAKE_DEFERRED (n : Nat) : Fld := ⟨0x20108 + 0x10 * n, 31, 0⟩
def Reg.FPow.VLOG_MV (f : Nat) : Fld := ⟨0x10A000 + 0x10000 * f, 31, 16⟩
def Reg.FPow.VLOG_I (f : Nat) : Fld := ⟨0x10A000 + 0x10000 * f, 15, 0⟩
def Reg.FPow.VMEM_I (f : Nat) : Fld := ⟨0x10A004 + 0x10000 * f, 31, 16⟩
def Reg.FPow.VLNK_I (f : Nat) : Fld := ⟨0x10A004 + 0x10000 * f, 15, 0⟩
def Reg.FPow.FC_LOW (f : Nat) : Fld := ⟨0x10A008 + 0x10000 * f, 31, 24⟩
def Reg.FPow.FC_MID (f : Nat) : Fld := ⟨0x10A008 + 0x10000 * f, 23, 16⟩
def Reg.FPow.FC_DEC (f : Nat) : Fld := ⟨0x10A008 + 0x10000 * f, 15, 8⟩
def Reg.FPow.TRIM_MV (f : Nat) : Fld := ⟨0x10A008 + 0x10000 * f, 7, 0⟩
def Reg.FPow.TRIPPED (f : Nat) : Fld := ⟨0x10A00C + 0x10000 * f, 7, 4⟩
def Reg.FPow.ON (f : Nat) : Fld := ⟨0x10A00C + 0x10000 * f, 3, 0⟩
def Reg.FPow.VPHY_TH (f : Nat) : Fld := ⟨0x10A010 + 0x10000 * f, 31, 24⟩
def Reg.FPow.VLNK_TH (f : Nat) : Fld := ⟨0x10A010 + 0x10000 * f, 23, 16⟩
def Reg.FPow.VMEM_TH (f : Nat) : Fld := ⟨0x10A010 + 0x10000 * f, 15, 8⟩
def Reg.FPow.VLOG_TH (f : Nat) : Fld := ⟨0x10A010 + 0x10000 * f, 7, 0⟩
def Reg.FPow.FORECAST_MISS (f : Nat) : Fld := ⟨0x10A014 + 0x10000 * f, 31, 0⟩
def Reg.FPow.FORECAST_BAD (f : Nat) : Fld := ⟨0x10A018 + 0x10000 * f, 31, 0⟩
def Reg.Therm.OUTLET : Fld := ⟨0x30000, 31, 16⟩
def Reg.Therm.INLET : Fld := ⟨0x30000, 15, 0⟩
def Reg.Therm.COUPLING_B : Fld := ⟨0x30004, 31, 16⟩
def Reg.Therm.COUPLING_A : Fld := ⟨0x30004, 15, 0⟩
def Reg.Therm.FLOW : Fld := ⟨0x30008, 31, 16⟩
def Reg.Therm.TJ_MAX : Fld := ⟨0x30008, 15, 0⟩
def Reg.Therm.THERMAL_CAP : Fld := ⟨0x3000C, 31, 0⟩
def Reg.Therm.LIFE : Fld := ⟨0x30010, 31, 16⟩
def Reg.Therm.RTH_MOD : Fld := ⟨0x30010, 15, 0⟩
def Reg.Therm.THERMAL_LEVEL : Fld := ⟨0x30014, 6, 0⟩
def Reg.Therm.TRAY_SENSOR_LOST : Fld := ⟨0x30018, 10, 10⟩
def Reg.Therm.FIELD_OFF_HEAT : Fld := ⟨0x30018, 9, 9⟩
def Reg.Therm.LIFE_LIMIT : Fld := ⟨0x30018, 8, 8⟩
def Reg.Therm.LIFE_WARN : Fld := ⟨0x30018, 7, 7⟩
def Reg.Therm.THERMAL_HELD : Fld := ⟨0x30018, 6, 6⟩
def Reg.Therm.FLOW_LOST : Fld := ⟨0x30018, 5, 5⟩
def Reg.Therm.FLOW_LOW : Fld := ⟨0x30018, 4, 4⟩
def Reg.Therm.INLET_HOT : Fld := ⟨0x30018, 3, 3⟩
def Reg.Therm.SENSOR_LOST : Fld := ⟨0x30018, 2, 2⟩
def Reg.Therm.SENSOR_SUSPECT : Fld := ⟨0x30018, 1, 1⟩
def Reg.Therm.THERM_TRIP : Fld := ⟨0x30018, 0, 0⟩
def Reg.Therm.THERMTRIP : Fld := ⟨0x3001C, 0, 0⟩
def Reg.FTherm.SENSOR_B (f h : Nat) : Fld := ⟨0x10B000 + 0x10000 * f + 0x4 * h, 31, 16⟩
def Reg.FTherm.SENSOR_A (f h : Nat) : Fld := ⟨0x10B000 + 0x10000 * f + 0x4 * h, 15, 0⟩
def Reg.FTherm.CONTROL (f : Nat) : Fld := ⟨0x10B020 + 0x10000 * f, 31, 16⟩
def Reg.FTherm.SUSPECT (f : Nat) : Fld := ⟨0x10B020 + 0x10000 * f, 15, 8⟩
def Reg.FTherm.LOST (f : Nat) : Fld := ⟨0x10B020 + 0x10000 * f, 7, 0⟩
def Reg.FTherm.LIMIT (f : Nat) : Fld := ⟨0x10B024 + 0x10000 * f, 31, 16⟩
def Reg.FTherm.RTH (f : Nat) : Fld := ⟨0x10B024 + 0x10000 * f, 15, 0⟩
def Reg.FTherm.POWER (f : Nat) : Fld := ⟨0x10B028 + 0x10000 * f, 15, 0⟩
def Reg.FTherm.LIFE (f : Nat) : Fld := ⟨0x10B02C + 0x10000 * f, 15, 0⟩
def Reg.FTherm.CYCLES (f : Nat) : Fld := ⟨0x10B030 + 0x10000 * f, 31, 0⟩
def Reg.Health.STATE : Fld := ⟨0x100, 1, 0⟩
def Reg.Health.HEALTH_CAUSE : Fld := ⟨0x104, 31, 0⟩
def Reg.Health.CLEARINGS : Fld := ⟨0x108, 23, 16⟩
def Reg.Health.FIELDS_LOST : Fld := ⟨0x108, 15, 8⟩
def Reg.Health.CORES_FAILED : Fld := ⟨0x108, 7, 0⟩
def Reg.Health.UNTWINNED_LOSSES : Fld := ⟨0x10C, 7, 0⟩
def Reg.Health.TILES_UNPATCHED : Fld := ⟨0x110, 31, 0⟩
def Reg.Health.HEALTH_CHANGES : Fld := ⟨0x114, 31, 0⟩
def Reg.Glob.VENDOR : Fld := ⟨0x0, 31, 16⟩
def Reg.Glob.DEVICE : Fld := ⟨0x0, 15, 0⟩
def Reg.Glob.SILICON : Fld := ⟨0x4, 23, 16⟩
def Reg.Glob.MODULE_REV : Fld := ⟨0x4, 15, 8⟩
def Reg.Glob.FW_MAJOR : Fld := ⟨0x8, 31, 24⟩
def Reg.Glob.FW_MINOR : Fld := ⟨0x8, 23, 16⟩
def Reg.Glob.FW_BUILD : Fld := ⟨0x8, 15, 0⟩
def Reg.Glob.SERIAL_LO : Fld := ⟨0xC, 31, 0⟩
def Reg.Glob.SERIAL_HI : Fld := ⟨0x10, 31, 0⟩
def Reg.Glob.MODULE_ID : Fld := ⟨0x14, 13, 8⟩
def Reg.Glob.BOOT_IMAGE : Fld := ⟨0x14, 5, 5⟩
def Reg.Glob.ZENITH_RESTARTING : Fld := ⟨0x14, 4, 4⟩
def Reg.Glob.POWER_STATE : Fld := ⟨0x14, 2, 0⟩
def Reg.Glob.RESET_CAUSE : Fld := ⟨0x18, 3, 0⟩
def Reg.Glob.UPTIME_S : Fld := ⟨0x1C, 31, 0⟩
def Reg.FGen.LOST_CAUSE (f : Nat) : Fld := ⟨0x100000 + 0x10000 * f, 27, 24⟩
def Reg.FGen.PLACEMENT (f : Nat) : Fld := ⟨0x100000 + 0x10000 * f, 23, 16⟩
def Reg.FGen.INDEX (f : Nat) : Fld := ⟨0x100000 + 0x10000 * f, 15, 8⟩
def Reg.FGen.ROLE (f : Nat) : Fld := ⟨0x100000 + 0x10000 * f, 3, 0⟩
def Reg.FGen.ROW (f : Nat) : Fld := ⟨0x100004 + 0x10000 * f, 7, 4⟩
def Reg.FGen.COLUMN (f : Nat) : Fld := ⟨0x100004 + 0x10000 * f, 3, 0⟩
def Reg.FGen.STRATUM_CORR (f : Nat) : Fld := ⟨0x100008 + 0x10000 * f, 31, 0⟩
def Reg.FGen.PATCH_USED (f : Nat) : Fld := ⟨0x10000C + 0x10000 * f, 15, 8⟩
def Reg.FGen.PATCH_VALID (f : Nat) : Fld := ⟨0x10000C + 0x10000 * f, 7, 0⟩
def Reg.FGen.CORES_FAILED (f : Nat) : Fld := ⟨0x100010 + 0x10000 * f, 31, 0⟩
def Reg.Ceil.OBTIK_HELD : Fld := ⟨0x40000, 15, 4⟩
def Reg.Ceil.WP_OPEN : Fld := ⟨0x40000, 3, 3⟩
def Reg.Ceil.RESTART_WINDOW : Fld := ⟨0x40000, 2, 2⟩
def Reg.Ceil.WATCHDOG_LULL : Fld := ⟨0x40000, 1, 1⟩
def Reg.Ceil.TRIP : Fld := ⟨0x40000, 0, 0⟩
def Reg.Ceil.PLIM : Fld := ⟨0x40004, 31, 0⟩
def Reg.Ceil.FORCED_LEVEL : Fld := ⟨0x40008, 6, 0⟩
def Reg.Ceil.DMA_BLOCKED : Fld := ⟨0x4000C, 31, 0⟩
def Reg.Ceil.FORCED_TICKS : Fld := ⟨0x40010, 31, 0⟩
def Reg.Hwin.CMD_BASE_LO : Fld := ⟨0x50000, 31, 12⟩
def Reg.Hwin.CMD_BASE_HI : Fld := ⟨0x50004, 31, 0⟩
def Reg.Hwin.RPL_BASE_LO : Fld := ⟨0x50008, 31, 12⟩
def Reg.Hwin.RPL_SIZE : Fld := ⟨0x50008, 3, 0⟩
def Reg.Hwin.RPL_BASE_HI : Fld := ⟨0x5000C, 31, 0⟩
def Reg.Hwin.EVT_BASE_LO : Fld := ⟨0x50010, 31, 12⟩
def Reg.Hwin.EVT_SIZE : Fld := ⟨0x50010, 3, 0⟩
def Reg.Hwin.EVT_BASE_HI : Fld := ⟨0x50014, 31, 0⟩
def Reg.Hwin.DMA_BASE_LO (w : Nat) : Fld := ⟨0x50020 + 0x10 * w, 31, 12⟩
def Reg.Hwin.DMA_BASE_HI (w : Nat) : Fld := ⟨0x50024 + 0x10 * w, 31, 0⟩
def Reg.Hwin.DMA_LIMIT_LO (w : Nat) : Fld := ⟨0x50028 + 0x10 * w, 31, 12⟩
def Reg.Hwin.DMA_LIMIT_HI (w : Nat) : Fld := ⟨0x5002C + 0x10 * w, 31, 0⟩
def Reg.Hwin.WINDOW_FAULT : Fld := ⟨0x50060, 7, 7⟩
def Reg.Hwin.EVT_OVERFLOW : Fld := ⟨0x50060, 6, 6⟩
def Reg.Hwin.RPL_FULL : Fld := ⟨0x50060, 5, 5⟩
def Reg.Hwin.FETCHING : Fld := ⟨0x50060, 4, 4⟩
def Reg.Hwin.FETCHED : Fld := ⟨0x50064, 31, 0⟩
def Reg.Hwin.REPLY_SEQ : Fld := ⟨0x50068, 31, 0⟩
def Reg.Hwin.EVENT_SEQ : Fld := ⟨0x5006C, 31, 0⟩
def Reg.Hwin.EVT_DROPPED : Fld := ⟨0x50070, 31, 0⟩
def Reg.Evc.OVERRUNS : Fld := ⟨0x50200, 31, 0⟩
def Reg.Evc.LATE_JET : Fld := ⟨0x50204, 31, 0⟩
def Reg.Evc.BEACON_ALT : Fld := ⟨0x50208, 31, 0⟩
def Reg.Evc.BEACON_LOST : Fld := ⟨0x5020C, 31, 0⟩
def Reg.Evc.STRETCH_FORCED : Fld := ⟨0x50210, 31, 0⟩
def Reg.Evc.REPLAY_SKIPPED : Fld := ⟨0x50214, 31, 0⟩
def Reg.Evc.COMMANDS : Fld := ⟨0x50218, 31, 0⟩
def Reg.Evc.REFUSED : Fld := ⟨0x5021C, 31, 0⟩
def Reg.Evc.SUPERSEDED : Fld := ⟨0x50220, 31, 0⟩
def Reg.Evc.SEQ_STALE : Fld := ⟨0x50224, 31, 0⟩
def Reg.Evc.BAD_ACCESS : Fld := ⟨0x50228, 31, 0⟩
def Reg.Sec.COUNTER : Fld := ⟨0x7C0000, 22, 16⟩
def Reg.Sec.REVOKED : Fld := ⟨0x7C0000, 15, 12⟩
def Reg.Sec.KEY_SLOT : Fld := ⟨0x7C0000, 11, 10⟩
def Reg.Sec.DEBUG_OPEN : Fld := ⟨0x7C0000, 9, 9⟩
def Reg.Sec.WP_OPEN : Fld := ⟨0x7C0000, 8, 8⟩
def Reg.Sec.IMG1_OK : Fld := ⟨0x7C0000, 5, 5⟩
def Reg.Sec.IMG0_OK : Fld := ⟨0x7C0000, 4, 4⟩
def Reg.Sec.UPDATING : Fld := ⟨0x7C0000, 1, 1⟩
def Reg.Sec.BOOT_IMAGE : Fld := ⟨0x7C0000, 0, 0⟩
def Reg.Sec.IMG0_BUILD : Fld := ⟨0x7C0004, 31, 0⟩
def Reg.Sec.IMG1_BUILD : Fld := ⟨0x7C0008, 31, 0⟩
def Reg.Sec.IMG1_SVN : Fld := ⟨0x7C000C, 15, 8⟩
def Reg.Sec.IMG0_SVN : Fld := ⟨0x7C000C, 7, 0⟩
def Reg.Sec.UPDATE_BYTES : Fld := ⟨0x7C0010, 31, 0⟩
def Reg.Sec.FLASH_BLOCKED : Fld := ⟨0x7C0014, 3, 3⟩
def Reg.Sec.UPDATE_FAILED : Fld := ⟨0x7C0014, 2, 2⟩
def Reg.Sec.FUSE_REQ_REFUSED : Fld := ⟨0x7C0014, 1, 1⟩
def Reg.Sec.BOOT_FALLBACK : Fld := ⟨0x7C0014, 0, 0⟩
def Reg.Sec.BOOT_KEY (s : Nat) : Fld := ⟨0x7C0040 + 0x4 * s, 31, 0⟩
def Reg.Sec.IN_USE (a : Nat) : Fld := ⟨0x7C0100 + 0x20 * a, 7, 4⟩
def Reg.Sec.ENROLLED (a : Nat) : Fld := ⟨0x7C0100 + 0x20 * a, 3, 0⟩
def Reg.Sec.KEY_PREFIX (a s : Nat) : Fld := ⟨0x7C0104 + 0x20 * a + 0x4 * s, 31, 0⟩
def Reg.Start.TEST_FIELD : Fld := ⟨0x900, 15, 8⟩
def Reg.Start.CARRY_PENDING : Fld := ⟨0x900, 7, 7⟩
def Reg.Start.JOURNAL_CUT : Fld := ⟨0x900, 6, 6⟩
def Reg.Start.PHASE : Fld := ⟨0x900, 2, 0⟩
def Reg.Start.JOURNAL_GEN_LO : Fld := ⟨0x904, 31, 0⟩
def Reg.Start.JOURNAL_GEN_HI : Fld := ⟨0x908, 31, 0⟩
def Reg.Start.RESTORED : Fld := ⟨0x90C, 31, 0⟩
def Reg.Start.RESTORE_FAULT : Fld := ⟨0x910, 31, 0⟩
def Reg.Start.TESTS_RUN : Fld := ⟨0x914, 31, 0⟩
def Reg.Start.LAST_STEP : Fld := ⟨0x918, 31, 16⟩
def Reg.Start.LAST_FIELD : Fld := ⟨0x918, 7, 0⟩
def Reg.Start.TESTS_ABANDONED : Fld := ⟨0x91C, 31, 0⟩
def Reg.Msix.ADDR_LO (v : Nat) : Fld := ⟨0x51000 + 0x10 * v, 31, 2⟩
def Reg.Msix.ADDR_HI (v : Nat) : Fld := ⟨0x51004 + 0x10 * v, 31, 0⟩
def Reg.Msix.DATA (v : Nat) : Fld := ⟨0x51008 + 0x10 * v, 31, 0⟩
def Reg.Msix.MASKED (v : Nat) : Fld := ⟨0x5100C + 0x10 * v, 0, 0⟩
def Reg.Msix.PENDING (v : Nat) : Fld := ⟨0x51800, v, v⟩

/-- Rows of the Tick registers. -/
def regRowsTick : List RegRow := [
  ⟨0x10000, [], 31, 0, .ro, 0, false⟩,
  ⟨0x10004, [], 31, 0, .ro, 0, false⟩,
  ⟨0x10008, [], 15, 0, .ro, 4800, false⟩,
  ⟨0x1000C, [], 31, 31, .ro, 0, false⟩,
  ⟨0x1000C, [], 30, 30, .ro, 0, false⟩,
  ⟨0x1000C, [], 22, 16, .ro, 16, false⟩,
  ⟨0x1000C, [], 14, 8, .ro, 16, false⟩,
  ⟨0x1000C, [], 6, 0, .ro, 0, false⟩,
  ⟨0x10010, [], 17, 16, .ro, 0, false⟩,
  ⟨0x10010, [], 15, 0, .ro, 2400, false⟩,
  ⟨0x10014, [], 13, 13, .rw1c, 0, false⟩,
  ⟨0x10014, [], 12, 12, .rw1c, 0, false⟩,
  ⟨0x10014, [], 11, 11, .rw1c, 0, false⟩,
  ⟨0x10014, [], 10, 10, .rw1c, 0, false⟩,
  ⟨0x10014, [], 9, 9, .rw1c, 0, false⟩,
  ⟨0x10014, [], 8, 8, .rw1c, 0, false⟩,
  ⟨0x10014, [], 2, 2, .ro, 0, false⟩,
  ⟨0x10014, [], 1, 1, .ro, 0, false⟩,
  ⟨0x10014, [], 0, 0, .ro, 0, false⟩,
  ⟨0x10040, [(0x10, 4)], 31, 16, .ro, 0, false⟩,
  ⟨0x10040, [(0x10, 4)], 15, 0, .ro, 0, false⟩,
  ⟨0x10044, [(0x10, 4)], 31, 16, .ro, 0, false⟩,
  ⟨0x10044, [(0x10, 4)], 15, 0, .ro, 0, false⟩,
  ⟨0x10048, [(0x10, 4)], 23, 16, .ro, 0, false⟩,
  ⟨0x10048, [(0x10, 4)], 15, 8, .ro, 0, false⟩,
  ⟨0x10048, [(0x10, 4)], 7, 0, .ro, 6, false⟩]

/-- Rows of the Core registers. -/
def regRowsCore : List RegRow := [
  ⟨0x104000, [(0x10000, 88), (0x80, 32)], 25, 16, .ro, 1023, false⟩,
  ⟨0x104000, [(0x10000, 88), (0x80, 32)], 13, 13, .ro, 0, false⟩,
  ⟨0x104000, [(0x10000, 88), (0x80, 32)], 12, 8, .ro, 0, false⟩,
  ⟨0x104000, [(0x10000, 88), (0x80, 32)], 7, 6, .ro, 0, false⟩,
  ⟨0x104000, [(0x10000, 88), (0x80, 32)], 3, 0, .ro, 0, false⟩,
  ⟨0x104004, [(0x10000, 88), (0x80, 32)], 31, 16, .ro, 0, false⟩,
  ⟨0x104004, [(0x10000, 88), (0x80, 32)], 15, 0, .ro, 0, false⟩,
  ⟨0x104008, [(0x10000, 88), (0x80, 32)], 15, 0, .ro, 0, false⟩,
  ⟨0x10400C, [(0x10000, 88), (0x80, 32)], 8, 0, .ro, 0, false⟩,
  ⟨0x104010, [(0x10000, 88), (0x80, 32)], 31, 0, .ro, 0, false⟩,
  ⟨0x104014, [(0x10000, 88), (0x80, 32)], 31, 0, .ro, 0, false⟩,
  ⟨0x104018, [(0x10000, 88), (0x80, 32)], 31, 0, .ro, 0, false⟩,
  ⟨0x10401C, [(0x10000, 88), (0x80, 32)], 31, 0, .ro, 0, false⟩,
  ⟨0x104020, [(0x10000, 88), (0x80, 32)], 31, 0, .ro, 0, false⟩,
  ⟨0x104024, [(0x10000, 88), (0x80, 32)], 31, 0, .ro, 0, false⟩,
  ⟨0x104028, [(0x10000, 88), (0x80, 32)], 31, 0, .ro, 0, false⟩,
  ⟨0x10402C, [(0x10000, 88), (0x80, 32)], 31, 0, .ro, 0, false⟩,
  ⟨0x104030, [(0x10000, 88), (0x80, 32)], 31, 0, .ro, 0, false⟩]

/-- Rows of the Seq registers. -/
def regRowsSeq : List RegRow := [
  ⟨0x105000, [(0x10000, 88), (0x40, 32)], 27, 16, .ro, 0, false⟩,
  ⟨0x105000, [(0x10000, 88), (0x40, 32)], 11, 0, .ro, 0, false⟩,
  ⟨0x105004, [(0x10000, 88), (0x40, 32)], 31, 0, .ro, 0, false⟩,
  ⟨0x105008, [(0x10000, 88), (0x40, 32)], 31, 0, .ro, 0, false⟩,
  ⟨0x10500C, [(0x10000, 88), (0x40, 32)], 31, 0, .ro, 0, false⟩,
  ⟨0x105010, [(0x10000, 88), (0x40, 32)], 31, 20, .ro, 0, false⟩,
  ⟨0x105010, [(0x10000, 88), (0x40, 32)], 19, 19, .ro, 0, false⟩,
  ⟨0x105010, [(0x10000, 88), (0x40, 32)], 18, 18, .ro, 0, false⟩,
  ⟨0x105010, [(0x10000, 88), (0x40, 32)], 15, 4, .ro, 0, false⟩,
  ⟨0x105010, [(0x10000, 88), (0x40, 32)], 3, 0, .ro, 0, false⟩,
  ⟨0x105014, [(0x10000, 88), (0x40, 32)], 31, 0, .ro, 0, false⟩,
  ⟨0x105018, [(0x10000, 88), (0x40, 32)], 31, 0, .ro, 0, false⟩,
  ⟨0x10501C, [(0x10000, 88), (0x40, 32)], 31, 0, .ro, 0, false⟩,
  ⟨0x105020, [(0x10000, 88), (0x40, 32)], 31, 0, .ro, 0, false⟩,
  ⟨0x105024, [(0x10000, 88), (0x40, 32)], 31, 0, .ro, 0, false⟩,
  ⟨0x105028, [(0x10000, 88), (0x40, 32)], 31, 0, .ro, 0, false⟩,
  ⟨0x10502C, [(0x10000, 88), (0x40, 32)], 31, 0, .ro, 0, false⟩,
  ⟨0x105030, [(0x10000, 88), (0x40, 32)], 15, 12, .ro, 0, false⟩,
  ⟨0x105030, [(0x10000, 88), (0x40, 32)], 11, 0, .ro, 0, false⟩]

/-- Rows of the Arith registers. -/
def regRowsArith : List RegRow := [
  ⟨0x106000, [(0x10000, 88)], 31, 0, .ro, 0, false⟩,
  ⟨0x106004, [(0x10000, 88)], 31, 0, .ro, 0, false⟩,
  ⟨0x106008, [(0x10000, 88)], 31, 0, .ro, 0, false⟩,
  ⟨0x10600C, [(0x10000, 88)], 31, 0, .ro, 0, false⟩,
  ⟨0x106010, [(0x10000, 88)], 31, 0, .ro, 0, false⟩,
  ⟨0x106014, [(0x10000, 88)], 31, 0, .ro, 0, false⟩,
  ⟨0x106018, [(0x10000, 88)], 31, 0, .ro, 0, false⟩]

/-- Rows of the Stratum registers. -/
def regRowsStratum : List RegRow := [
  ⟨0x107000, [(0x10000, 88)], 31, 24, .ro, 0, true⟩,
  ⟨0x107000, [(0x10000, 88)], 23, 16, .ro, 0, true⟩,
  ⟨0x107000, [(0x10000, 88)], 11, 8, .ro, 0, true⟩,
  ⟨0x107000, [(0x10000, 88)], 4, 4, .ro, 0, true⟩,
  ⟨0x107004, [(0x10000, 88)], 31, 0, .ro, 0, true⟩,
  ⟨0x107008, [(0x10000, 88)], 31, 0, .ro, 0, true⟩,
  ⟨0x10700C, [(0x10000, 88)], 31, 0, .ro, 0, false⟩,
  ⟨0x107010, [(0x10000, 88)], 31, 0, .ro, 0, false⟩]

/-- Rows of the Plc registers. -/
def regRowsPlc : List RegRow := [
  ⟨0x400, [(0x40, 4)], 27, 24, .ro, 0, true⟩,
  ⟨0x400, [(0x40, 4)], 23, 16, .ro, 0, true⟩,
  ⟨0x400, [(0x40, 4)], 8, 8, .ro, 0, true⟩,
  ⟨0x400, [(0x40, 4)], 3, 3, .ro, 0, true⟩,
  ⟨0x400, [(0x40, 4)], 2, 2, .ro, 0, true⟩,
  ⟨0x400, [(0x40, 4)], 1, 1, .ro, 0, false⟩,
  ⟨0x400, [(0x40, 4)], 0, 0, .ro, 0, true⟩,
  ⟨0x404, [(0x40, 4)], 31, 0, .ro, 0, true⟩,
  ⟨0x408, [(0x40, 4)], 31, 0, .ro, 0, true⟩,
  ⟨0x40C, [(0x40, 4)], 31, 0, .ro, 0, true⟩,
  ⟨0x410, [(0x40, 4)], 31, 0, .ro, 0, true⟩,
  ⟨0x414, [(0x40, 4)], 31, 0, .ro, 0, false⟩,
  ⟨0x418, [(0x40, 4)], 31, 0, .ro, 0, false⟩,
  ⟨0x41C, [(0x40, 4)], 31, 0, .ro, 0, false⟩]

/-- Rows of the Cloud registers. -/
def regRowsCloud : List RegRow := [
  ⟨0x740000, [], 6, 6, .ro, 0, false⟩,
  ⟨0x740000, [], 5, 0, .ro, 0, false⟩,
  ⟨0x740004, [], 31, 0, .ro, 0, false⟩,
  ⟨0x740008, [], 15, 0, .ro, 0, false⟩,
  ⟨0x74000C, [], 3, 3, .rw1c, 0, false⟩,
  ⟨0x74000C, [], 2, 2, .rw1c, 0, false⟩,
  ⟨0x74000C, [], 1, 1, .rw1c, 0, false⟩,
  ⟨0x74000C, [], 0, 0, .rw1c, 0, false⟩,
  ⟨0x740020, [(0x10, 8)], 31, 16, .ro, 0, false⟩,
  ⟨0x740020, [(0x10, 8)], 12, 0, .ro, 0, false⟩,
  ⟨0x740024, [(0x10, 8)], 31, 0, .ro, 0, false⟩,
  ⟨0x740028, [(0x10, 8)], 31, 0, .ro, 0, false⟩,
  ⟨0x74002C, [(0x10, 8)], 31, 0, .ro, 0, false⟩,
  ⟨0x740100, [(0x10, 48)], 23, 16, .ro, 0, false⟩,
  ⟨0x740100, [(0x10, 48)], 3, 0, .ro, 0, false⟩,
  ⟨0x740104, [(0x10, 48)], 31, 0, .ro, 0, false⟩,
  ⟨0x740108, [(0x10, 48)], 31, 0, .ro, 0, false⟩,
  ⟨0x74010C, [(0x10, 48)], 7, 0, .ro, 0, false⟩,
  ⟨0x740400, [], 31, 0, .ro, 0, false⟩,
  ⟨0x740404, [], 31, 0, .ro, 0, false⟩,
  ⟨0x740408, [], 31, 0, .ro, 0, false⟩,
  ⟨0x74040C, [], 31, 0, .ro, 0, false⟩,
  ⟨0x740410, [], 31, 0, .ro, 0, false⟩]

/-- Rows of the Kv registers. -/
def regRowsKv : List RegRow := [
  ⟨0x108000, [(0x10000, 88), (0x10, 8)], 31, 16, .ro, 0, false⟩,
  ⟨0x108000, [(0x10000, 88), (0x10, 8)], 15, 0, .ro, 0, false⟩,
  ⟨0x108004, [(0x10000, 88), (0x10, 8)], 31, 16, .ro, 0, false⟩,
  ⟨0x108004, [(0x10000, 88), (0x10, 8)], 15, 0, .ro, 0, false⟩,
  ⟨0x108008, [(0x10000, 88), (0x10, 8)], 31, 16, .ro, 0, false⟩,
  ⟨0x108008, [(0x10000, 88), (0x10, 8)], 15, 0, .ro, 0, false⟩,
  ⟨0x10800C, [(0x10000, 88), (0x10, 8)], 31, 16, .ro, 0, false⟩,
  ⟨0x10800C, [(0x10000, 88), (0x10, 8)], 15, 0, .ro, 0, false⟩,
  ⟨0x108080, [(0x10000, 88), (0x4, 8)], 31, 16, .ro, 0, false⟩,
  ⟨0x108080, [(0x10000, 88), (0x4, 8)], 15, 0, .ro, 0, false⟩,
  ⟨0x1080A0, [(0x10000, 88)], 31, 0, .ro, 0, false⟩,
  ⟨0x1080A4, [(0x10000, 88)], 31, 0, .ro, 0, false⟩,
  ⟨0x1080A8, [(0x10000, 88)], 31, 0, .ro, 0, false⟩]

/-- Rows of the Ses registers. -/
def regRowsSes : List RegRow := [
  ⟨0x600, [(0x20, 8)], 28, 16, .ro, 0, false⟩,
  ⟨0x600, [(0x20, 8)], 12, 0, .ro, 0, false⟩,
  ⟨0x604, [(0x20, 8)], 28, 16, .ro, 0, false⟩,
  ⟨0x604, [(0x20, 8)], 12, 0, .ro, 0, false⟩,
  ⟨0x608, [(0x20, 8)], 10, 0, .ro, 0, false⟩,
  ⟨0x60C, [(0x20, 8)], 31, 0, .ro, 0, false⟩,
  ⟨0x610, [(0x20, 8)], 31, 0, .ro, 0, false⟩,
  ⟨0x614, [(0x20, 8)], 31, 0, .ro, 0, false⟩,
  ⟨0x618, [(0x20, 8)], 31, 0, .ro, 0, false⟩,
  ⟨0x61C, [(0x20, 8)], 31, 0, .ro, 0, false⟩,
  ⟨0x700, [(0x20, 4)], 26, 16, .ro, 0, false⟩,
  ⟨0x700, [(0x20, 4)], 8, 0, .ro, 16, false⟩,
  ⟨0x704, [(0x20, 4)], 31, 16, .ro, 0, false⟩,
  ⟨0x704, [(0x20, 4)], 8, 8, .ro, 0, false⟩,
  ⟨0x704, [(0x20, 4)], 7, 0, .ro, 0, false⟩,
  ⟨0x708, [(0x20, 4)], 31, 0, .ro, 0, false⟩,
  ⟨0x70C, [(0x20, 4)], 31, 0, .ro, 0, false⟩]

/-- Rows of the Eth registers. -/
def regRowsEth : List RegRow := [
  ⟨0x780000, [(0x40, 4)], 31, 16, .ro, 0, true⟩,
  ⟨0x780000, [(0x40, 4)], 1, 1, .ro, 0, false⟩,
  ⟨0x780000, [(0x40, 4)], 0, 0, .ro, 0, false⟩,
  ⟨0x780004, [(0x40, 4)], 31, 0, .ro, 0, false⟩,
  ⟨0x780008, [(0x40, 4)], 31, 0, .ro, 0, false⟩,
  ⟨0x78000C, [(0x40, 4)], 31, 0, .ro, 0, false⟩,
  ⟨0x780010, [(0x40, 4)], 31, 0, .ro, 0, false⟩,
  ⟨0x780014, [(0x40, 4)], 31, 0, .ro, 0, false⟩,
  ⟨0x780018, [(0x40, 4)], 31, 0, .ro, 0, false⟩,
  ⟨0x780400, [(0x20, 8)], 31, 16, .ro, 0, true⟩,
  ⟨0x780400, [(0x20, 8)], 11, 0, .ro, 0, true⟩,
  ⟨0x780404, [(0x20, 8)], 12, 0, .ro, 0, false⟩,
  ⟨0x780408, [(0x20, 8)], 31, 0, .ro, 0, false⟩,
  ⟨0x78040C, [(0x20, 8)], 31, 0, .ro, 0, false⟩,
  ⟨0x780410, [(0x20, 8)], 31, 0, .ro, 0, false⟩,
  ⟨0x780414, [(0x20, 8)], 31, 0, .ro, 0, false⟩,
  ⟨0x780418, [(0x20, 8)], 31, 0, .ro, 0, false⟩,
  ⟨0x78041C, [(0x20, 8)], 31, 0, .ro, 0, false⟩]

/-- Rows of the Tune registers. -/
def regRowsTune : List RegRow := [
  ⟨0x800, [(0x20, 4)], 27, 24, .ro, 0, false⟩,
  ⟨0x800, [(0x20, 4)], 18, 16, .ro, 0, false⟩,
  ⟨0x800, [(0x20, 4)], 5, 0, .ro, 0, false⟩,
  ⟨0x804, [(0x20, 4)], 31, 0, .ro, 0, false⟩,
  ⟨0x808, [(0x20, 4)], 31, 0, .ro, 0, false⟩,
  ⟨0x80C, [(0x20, 4)], 31, 0, .ro, 0, false⟩,
  ⟨0x810, [(0x20, 4)], 31, 0, .ro, 0, false⟩,
  ⟨0x814, [(0x20, 4)], 31, 0, .ro, 0, false⟩,
  ⟨0x818, [(0x20, 4)], 31, 0, .ro, 0, false⟩]

/-- Rows of the Router registers. -/
def regRowsRouter : List RegRow := [
  ⟨0x109000, [(0x10000, 88)], 21, 16, .ro, 0, false⟩,
  ⟨0x109000, [(0x10000, 88)], 15, 8, .ro, 0, false⟩,
  ⟨0x109000, [(0x10000, 88)], 7, 7, .ro, 0, false⟩,
  ⟨0x109000, [(0x10000, 88)], 6, 6, .ro, 1, false⟩,
  ⟨0x109000, [(0x10000, 88)], 5, 4, .ro, 0, false⟩,
  ⟨0x109000, [(0x10000, 88)], 0, 0, .ro, 0, false⟩,
  ⟨0x109004, [(0x10000, 88)], 31, 0, .ro, 0, false⟩,
  ⟨0x109008, [(0x10000, 88)], 31, 0, .ro, 0, false⟩,
  ⟨0x10900C, [(0x10000, 88)], 31, 0, .ro, 0, false⟩,
  ⟨0x109010, [(0x10000, 88)], 31, 0, .ro, 0, false⟩,
  ⟨0x109014, [(0x10000, 88)], 31, 0, .ro, 0, false⟩,
  ⟨0x109018, [(0x10000, 88)], 31, 0, .ro, 0, false⟩,
  ⟨0x10901C, [(0x10000, 88)], 31, 0, .ro, 0, false⟩,
  ⟨0x109020, [(0x10000, 88)], 31, 0, .ro, 0, false⟩]

/-- Rows of the Link registers. -/
def regRowsLink : List RegRow := [
  ⟨0x700000, [], 23, 18, .ro, 0, false⟩,
  ⟨0x700000, [], 17, 12, .ro, 0, false⟩,
  ⟨0x700000, [], 11, 8, .ro, 0, false⟩,
  ⟨0x700000, [], 3, 2, .ro, 0, false⟩,
  ⟨0x700000, [], 1, 1, .ro, 0, false⟩,
  ⟨0x700000, [], 0, 0, .ro, 0, false⟩,
  ⟨0x700004, [], 31, 0, .ro, 0, false⟩,
  ⟨0x700008, [], 7, 7, .rw1c, 0, false⟩,
  ⟨0x700008, [], 6, 6, .rw1c, 0, false⟩,
  ⟨0x700008, [], 5, 5, .rw1c, 0, false⟩,
  ⟨0x700008, [], 4, 4, .rw1c, 0, false⟩,
  ⟨0x700008, [], 3, 3, .rw1c, 0, false⟩,
  ⟨0x700008, [], 2, 2, .rw1c, 0, false⟩,
  ⟨0x700008, [], 1, 1, .rw1c, 0, false⟩,
  ⟨0x700008, [], 0, 0, .rw1c, 0, false⟩,
  ⟨0x70000C, [], 31, 0, .ro, 0, false⟩,
  ⟨0x700100, [(0x40, 12)], 27, 24, .ro, 0, false⟩,
  ⟨0x700100, [(0x40, 12)], 23, 18, .ro, 0, false⟩,
  ⟨0x700100, [(0x40, 12)], 17, 14, .ro, 0, false⟩,
  ⟨0x700100, [(0x40, 12)], 13, 11, .ro, 7, false⟩,
  ⟨0x700100, [(0x40, 12)], 10, 10, .ro, 0, false⟩,
  ⟨0x700100, [(0x40, 12)], 7, 0, .ro, 0, false⟩,
  ⟨0x700104, [(0x40, 12)], 19, 16, .ro, 0, false⟩,
  ⟨0x700104, [(0x40, 12)], 15, 0, .ro, 0, false⟩,
  ⟨0x700108, [(0x40, 12)], 31, 0, .ro, 0, false⟩,
  ⟨0x70010C, [(0x40, 12)], 31, 0, .ro, 0, false⟩,
  ⟨0x700110, [(0x40, 12)], 31, 0, .ro, 0, false⟩,
  ⟨0x700114, [(0x40, 12)], 31, 0, .ro, 0, false⟩,
  ⟨0x700118, [(0x40, 12)], 31, 0, .ro, 0, false⟩,
  ⟨0x70011C, [(0x40, 12)], 31, 0, .ro, 0, false⟩,
  ⟨0x700800, [(0x4, 64)], 3, 3, .ro, 0, false⟩,
  ⟨0x700800, [(0x4, 64)], 2, 0, .ro, 7, false⟩]

/-- Rows of the Pow registers. -/
def regRowsPow : List RegRow := [
  ⟨0x20000, [], 26, 24, .ro, 0, false⟩,
  ⟨0x20000, [], 22, 16, .ro, 0, false⟩,
  ⟨0x20000, [], 12, 8, .ro, 16, false⟩,
  ⟨0x20000, [], 2, 2, .ro, 0, false⟩,
  ⟨0x20000, [], 1, 1, .ro, 0, false⟩,
  ⟨0x20000, [], 0, 0, .ro, 0, false⟩,
  ⟨0x20004, [], 31, 0, .ro, 15000, false⟩,
  ⟨0x20008, [], 2, 0, .ro, 4, false⟩,
  ⟨0x2000C, [], 31, 0, .ro, 0, false⟩,
  ⟨0x20010, [], 31, 0, .ro, 0, false⟩,
  ⟨0x20014, [], 31, 16, .ro, 0, false⟩,
  ⟨0x20014, [], 15, 0, .ro, 0, false⟩,
  ⟨0x20018, [], 8, 8, .rw1c, 0, false⟩,
  ⟨0x20018, [], 7, 7, .rw1c, 0, false⟩,
  ⟨0x20018, [], 6, 6, .rw1c, 0, false⟩,
  ⟨0x20018, [], 5, 5, .rw1c, 0, false⟩,
  ⟨0x20018, [], 4, 4, .rw1c, 0, false⟩,
  ⟨0x20018, [], 3, 3, .rw1c, 0, false⟩,
  ⟨0x20018, [], 2, 2, .rw1c, 0, false⟩,
  ⟨0x20018, [], 1, 1, .rw1c, 0, false⟩,
  ⟨0x20018, [], 0, 0, .rw1c, 0, false⟩,
  ⟨0x2001C, [], 31, 16, .ro, 0, false⟩,
  ⟨0x2001C, [], 15, 0, .ro, 0, false⟩,
  ⟨0x20100, [(0x10, 22)], 31, 16, .ro, 0, false⟩,
  ⟨0x20100, [(0x10, 22)], 15, 0, .ro, 0, false⟩,
  ⟨0x20104, [(0x10, 22)], 23, 16, .ro, 0, false⟩,
  ⟨0x20104, [(0x10, 22)], 1, 1, .ro, 0, false⟩,
  ⟨0x20104, [(0x10, 22)], 0, 0, .ro, 0, false⟩,
  ⟨0x20108, [(0x10, 22)], 31, 0, .ro, 0, false⟩]

/-- Rows of the FPow registers. -/
def regRowsFPow : List RegRow := [
  ⟨0x10A000, [(0x10000, 88)], 31, 16, .ro, 0, false⟩,
  ⟨0x10A000, [(0x10000, 88)], 15, 0, .ro, 0, false⟩,
  ⟨0x10A004, [(0x10000, 88)], 31, 16, .ro, 0, false⟩,
  ⟨0x10A004, [(0x10000, 88)], 15, 0, .ro, 0, false⟩,
  ⟨0x10A008, [(0x10000, 88)], 31, 24, .ro, 0, false⟩,
  ⟨0x10A008, [(0x10000, 88)], 23, 16, .ro, 0, false⟩,
  ⟨0x10A008, [(0x10000, 88)], 15, 8, .ro, 0, false⟩,
  ⟨0x10A008, [(0x10000, 88)], 7, 0, .ro, 0, false⟩,
  ⟨0x10A00C, [(0x10000, 88)], 7, 4, .ro, 0, false⟩,
  ⟨0x10A00C, [(0x10000, 88)], 3, 0, .ro, 0, false⟩,
  ⟨0x10A010, [(0x10000, 88)], 31, 24, .ro, 0, false⟩,
  ⟨0x10A010, [(0x10000, 88)], 23, 16, .ro, 0, false⟩,
  ⟨0x10A010, [(0x10000, 88)], 15, 8, .ro, 0, false⟩,
  ⟨0x10A010, [(0x10000, 88)], 7, 0, .ro, 0, false⟩,
  ⟨0x10A014, [(0x10000, 88)], 31, 0, .ro, 0, false⟩,
  ⟨0x10A018, [(0x10000, 88)], 31, 0, .ro, 0, false⟩]

/-- Rows of the Therm registers. -/
def regRowsTherm : List RegRow := [
  ⟨0x30000, [], 31, 16, .ro, 32768, false⟩,
  ⟨0x30000, [], 15, 0, .ro, 32768, false⟩,
  ⟨0x30004, [], 31, 16, .ro, 32768, false⟩,
  ⟨0x30004, [], 15, 0, .ro, 32768, false⟩,
  ⟨0x30008, [], 31, 16, .ro, 0, false⟩,
  ⟨0x30008, [], 15, 0, .ro, 32768, false⟩,
  ⟨0x3000C, [], 31, 0, .ro, 21000, false⟩,
  ⟨0x30010, [], 31, 16, .ro, 0, true⟩,
  ⟨0x30010, [], 15, 0, .ro, 400, false⟩,
  ⟨0x30014, [], 6, 0, .ro, 0, false⟩,
  ⟨0x30018, [], 10, 10, .rw1c, 0, false⟩,
  ⟨0x30018, [], 9, 9, .rw1c, 0, false⟩,
  ⟨0x30018, [], 8, 8, .rw1c, 0, false⟩,
  ⟨0x30018, [], 7, 7, .rw1c, 0, false⟩,
  ⟨0x30018, [], 6, 6, .rw1c, 0, false⟩,
  ⟨0x30018, [], 5, 5, .rw1c, 0, false⟩,
  ⟨0x30018, [], 4, 4, .rw1c, 0, false⟩,
  ⟨0x30018, [], 3, 3, .rw1c, 0, false⟩,
  ⟨0x30018, [], 2, 2, .rw1c, 0, false⟩,
  ⟨0x30018, [], 1, 1, .rw1c, 0, false⟩,
  ⟨0x30018, [], 0, 0, .rw1c, 0, false⟩,
  ⟨0x3001C, [], 0, 0, .ro, 0, false⟩]

/-- Rows of the FTherm registers. -/
def regRowsFTherm : List RegRow := [
  ⟨0x10B000, [(0x10000, 88), (0x4, 8)], 31, 16, .ro, 32768, false⟩,
  ⟨0x10B000, [(0x10000, 88), (0x4, 8)], 15, 0, .ro, 32768, false⟩,
  ⟨0x10B020, [(0x10000, 88)], 31, 16, .ro, 32768, false⟩,
  ⟨0x10B020, [(0x10000, 88)], 15, 8, .ro, 0, false⟩,
  ⟨0x10B020, [(0x10000, 88)], 7, 0, .ro, 0, false⟩,
  ⟨0x10B024, [(0x10000, 88)], 31, 16, .ro, 950, false⟩,
  ⟨0x10B024, [(0x10000, 88)], 15, 0, .ro, 400, false⟩,
  ⟨0x10B028, [(0x10000, 88)], 15, 0, .ro, 0, false⟩,
  ⟨0x10B02C, [(0x10000, 88)], 15, 0, .ro, 0, true⟩,
  ⟨0x10B030, [(0x10000, 88)], 31, 0, .ro, 0, true⟩]

/-- Rows of the Health registers. -/
def regRowsHealth : List RegRow := [
  ⟨0x100, [], 1, 0, .ro, 0, false⟩,
  ⟨0x104, [], 31, 0, .ro, 0, false⟩,
  ⟨0x108, [], 23, 16, .ro, 0, false⟩,
  ⟨0x108, [], 15, 8, .ro, 0, false⟩,
  ⟨0x108, [], 7, 0, .ro, 0, false⟩,
  ⟨0x10C, [], 7, 0, .ro, 0, false⟩,
  ⟨0x110, [], 31, 0, .ro, 0, false⟩,
  ⟨0x114, [], 31, 0, .ro, 0, false⟩]

/-- Rows of the Glob registers. -/
def regRowsGlob : List RegRow := [
  ⟨0x0, [], 31, 16, .ro, 7546, false⟩,
  ⟨0x0, [], 15, 0, .ro, 9864, false⟩,
  ⟨0x4, [], 23, 16, .ro, 0, false⟩,
  ⟨0x4, [], 15, 8, .ro, 0, false⟩,
  ⟨0x8, [], 31, 24, .ro, 0, false⟩,
  ⟨0x8, [], 23, 16, .ro, 0, false⟩,
  ⟨0x8, [], 15, 0, .ro, 0, false⟩,
  ⟨0xC, [], 31, 0, .ro, 0, false⟩,
  ⟨0x10, [], 31, 0, .ro, 0, false⟩,
  ⟨0x14, [], 13, 8, .ro, 0, false⟩,
  ⟨0x14, [], 5, 5, .ro, 0, false⟩,
  ⟨0x14, [], 4, 4, .ro, 0, false⟩,
  ⟨0x14, [], 2, 0, .ro, 0, false⟩,
  ⟨0x18, [], 3, 0, .ro, 0, false⟩,
  ⟨0x1C, [], 31, 0, .ro, 0, false⟩]

/-- Rows of the FGen registers. -/
def regRowsFGen : List RegRow := [
  ⟨0x100000, [(0x10000, 88)], 27, 24, .ro, 15, false⟩,
  ⟨0x100000, [(0x10000, 88)], 23, 16, .ro, 255, false⟩,
  ⟨0x100000, [(0x10000, 88)], 15, 8, .ro, 0, false⟩,
  ⟨0x100000, [(0x10000, 88)], 3, 0, .ro, 0, true⟩,
  ⟨0x100004, [(0x10000, 88)], 7, 4, .ro, 0, false⟩,
  ⟨0x100004, [(0x10000, 88)], 3, 0, .ro, 0, false⟩,
  ⟨0x100008, [(0x10000, 88)], 31, 0, .ro, 0, false⟩,
  ⟨0x10000C, [(0x10000, 88)], 15, 8, .ro, 0, false⟩,
  ⟨0x10000C, [(0x10000, 88)], 7, 0, .ro, 0, false⟩,
  ⟨0x100010, [(0x10000, 88)], 31, 0, .ro, 0, false⟩]

/-- Rows of the Ceil registers. -/
def regRowsCeil : List RegRow := [
  ⟨0x40000, [], 15, 4, .ro, 4095, false⟩,
  ⟨0x40000, [], 3, 3, .ro, 0, false⟩,
  ⟨0x40000, [], 2, 2, .ro, 0, false⟩,
  ⟨0x40000, [], 1, 1, .ro, 0, false⟩,
  ⟨0x40000, [], 0, 0, .ro, 0, false⟩,
  ⟨0x40004, [], 31, 0, .ro, 22000, false⟩,
  ⟨0x40008, [], 6, 0, .ro, 0, false⟩,
  ⟨0x4000C, [], 31, 0, .ro, 0, false⟩,
  ⟨0x40010, [], 31, 0, .ro, 0, false⟩]

/-- Rows of the Hwin registers. -/
def regRowsHwin : List RegRow := [
  ⟨0x50000, [], 31, 12, .rwl, 0, false⟩,
  ⟨0x50004, [], 31, 0, .rwl, 0, false⟩,
  ⟨0x50008, [], 31, 12, .rwl, 0, false⟩,
  ⟨0x50008, [], 3, 0, .rwl, 0, false⟩,
  ⟨0x5000C, [], 31, 0, .rwl, 0, false⟩,
  ⟨0x50010, [], 31, 12, .rwl, 0, false⟩,
  ⟨0x50010, [], 3, 0, .rwl, 0, false⟩,
  ⟨0x50014, [], 31, 0, .rwl, 0, false⟩,
  ⟨0x50020, [(0x10, 4)], 31, 12, .rwl, 0, false⟩,
  ⟨0x50024, [(0x10, 4)], 31, 0, .rwl, 0, false⟩,
  ⟨0x50028, [(0x10, 4)], 31, 12, .rwl, 0, false⟩,
  ⟨0x5002C, [(0x10, 4)], 31, 0, .rwl, 0, false⟩,
  ⟨0x50060, [], 7, 7, .ro, 0, false⟩,
  ⟨0x50060, [], 6, 6, .rw1c, 0, false⟩,
  ⟨0x50060, [], 5, 5, .ro, 0, false⟩,
  ⟨0x50060, [], 4, 4, .ro, 0, false⟩,
  ⟨0x50064, [], 31, 0, .ro, 0, false⟩,
  ⟨0x50068, [], 31, 0, .ro, 0, false⟩,
  ⟨0x5006C, [], 31, 0, .ro, 0, false⟩,
  ⟨0x50070, [], 31, 0, .ro, 0, false⟩]

/-- Rows of the Evc registers. -/
def regRowsEvc : List RegRow := [
  ⟨0x50200, [], 31, 0, .ro, 0, false⟩,
  ⟨0x50204, [], 31, 0, .ro, 0, false⟩,
  ⟨0x50208, [], 31, 0, .ro, 0, false⟩,
  ⟨0x5020C, [], 31, 0, .ro, 0, false⟩,
  ⟨0x50210, [], 31, 0, .ro, 0, false⟩,
  ⟨0x50214, [], 31, 0, .ro, 0, false⟩,
  ⟨0x50218, [], 31, 0, .ro, 0, false⟩,
  ⟨0x5021C, [], 31, 0, .ro, 0, false⟩,
  ⟨0x50220, [], 31, 0, .ro, 0, false⟩,
  ⟨0x50224, [], 31, 0, .ro, 0, false⟩,
  ⟨0x50228, [], 31, 0, .ro, 0, false⟩]

/-- Rows of the Sec registers. -/
def regRowsSec : List RegRow := [
  ⟨0x7C0000, [], 22, 16, .ro, 0, false⟩,
  ⟨0x7C0000, [], 15, 12, .ro, 0, false⟩,
  ⟨0x7C0000, [], 11, 10, .ro, 0, false⟩,
  ⟨0x7C0000, [], 9, 9, .ro, 0, false⟩,
  ⟨0x7C0000, [], 8, 8, .ro, 0, false⟩,
  ⟨0x7C0000, [], 5, 5, .ro, 0, false⟩,
  ⟨0x7C0000, [], 4, 4, .ro, 0, false⟩,
  ⟨0x7C0000, [], 1, 1, .ro, 0, false⟩,
  ⟨0x7C0000, [], 0, 0, .ro, 0, false⟩,
  ⟨0x7C0004, [], 31, 0, .ro, 0, false⟩,
  ⟨0x7C0008, [], 31, 0, .ro, 0, false⟩,
  ⟨0x7C000C, [], 15, 8, .ro, 0, false⟩,
  ⟨0x7C000C, [], 7, 0, .ro, 0, false⟩,
  ⟨0x7C0010, [], 31, 0, .ro, 0, false⟩,
  ⟨0x7C0014, [], 3, 3, .rw1c, 0, false⟩,
  ⟨0x7C0014, [], 2, 2, .rw1c, 0, false⟩,
  ⟨0x7C0014, [], 1, 1, .rw1c, 0, false⟩,
  ⟨0x7C0014, [], 0, 0, .rw1c, 0, false⟩,
  ⟨0x7C0040, [(0x4, 4)], 31, 0, .ro, 0, false⟩,
  ⟨0x7C0100, [(0x20, 8)], 7, 4, .ro, 0, true⟩,
  ⟨0x7C0100, [(0x20, 8)], 3, 0, .ro, 0, true⟩,
  ⟨0x7C0104, [(0x20, 8), (0x4, 4)], 31, 0, .ro, 0, true⟩]

/-- Rows of the Start registers. -/
def regRowsStart : List RegRow := [
  ⟨0x900, [], 15, 8, .ro, 255, false⟩,
  ⟨0x900, [], 7, 7, .ro, 0, false⟩,
  ⟨0x900, [], 6, 6, .ro, 0, false⟩,
  ⟨0x900, [], 2, 0, .ro, 0, false⟩,
  ⟨0x904, [], 31, 0, .ro, 0, true⟩,
  ⟨0x908, [], 31, 0, .ro, 0, true⟩,
  ⟨0x90C, [], 31, 0, .ro, 0, false⟩,
  ⟨0x910, [], 31, 0, .ro, 0, false⟩,
  ⟨0x914, [], 31, 0, .ro, 0, false⟩,
  ⟨0x918, [], 31, 16, .ro, 0, false⟩,
  ⟨0x918, [], 7, 0, .ro, 255, false⟩,
  ⟨0x91C, [], 31, 0, .ro, 0, false⟩]

/-- Rows of the Msix registers. -/
def regRowsMsix : List RegRow := [
  ⟨0x51000, [(0x10, 8)], 31, 2, .rw, 0, false⟩,
  ⟨0x51004, [(0x10, 8)], 31, 0, .rw, 0, false⟩,
  ⟨0x51008, [(0x10, 8)], 31, 0, .rw, 0, false⟩,
  ⟨0x5100C, [(0x10, 8)], 0, 0, .rw, 1, false⟩,
  ⟨0x51800, [], 7, 0, .ro, 0, false⟩]

/-- Every register field of BAR0 that is not reserved. -/
def regRows : List RegRow :=
  regRowsTick ++ regRowsCore ++ regRowsSeq ++ regRowsArith ++ regRowsStratum ++ regRowsPlc ++ regRowsCloud ++ regRowsKv ++ regRowsSes ++ regRowsEth ++ regRowsTune ++ regRowsRouter ++ regRowsLink ++ regRowsPow ++ regRowsFPow ++ regRowsTherm ++ regRowsFTherm ++ regRowsHealth ++ regRowsGlob ++ regRowsFGen ++ regRowsCeil ++ regRowsHwin ++ regRowsEvc ++ regRowsSec ++ regRowsStart ++ regRowsMsix

end Sys2Proof.Machine
end

