-- ==== Sys2Proof/Machine/Ops.lean ====
section
/-! DEFINITION. The named operations over the module's tables, byte memories and registers, the counters of R396, event
records (R374, R394), replies (R390-R393) and the host windows (R385, R386). -/

namespace Sys2Proof

/-! ### Tables -/

/-- Entry k of a table, or the default. -/
def Tbl.getD {α : Type} : Tbl α → Nat → α → α
  | [], _, d => d
  | (j, v) :: t, k, d => if j = k then v else Tbl.getD t k d

/-- Whether index k is listed. -/
def Tbl.has {α : Type} (t : Tbl α) (k : Nat) : Bool := t.any (fun e => e.1 == k)

/-- Entry k if listed. -/
def Tbl.find {α : Type} : Tbl α → Nat → Option α
  | [], _ => none
  | (j, v) :: t, k => if j = k then some v else Tbl.find t k

/-- Write entry k, keeping ascending order. -/
def Tbl.set {α : Type} : Tbl α → Nat → α → Tbl α
  | [], k, v => [(k, v)]
  | (j, w) :: t, k, v =>
    if j = k then (k, v) :: t
    else if k < j then (k, v) :: (j, w) :: t
    else (j, w) :: Tbl.set t k v

/-- Take entry k out. -/
def Tbl.del {α : Type} (t : Tbl α) (k : Nat) : Tbl α := t.filter (fun e => e.1 != k)

/-! ### Byte memory -/

/-- The byte at an address; an unlisted address reads 0 (initialised banks, R69; log entry 4). -/
def Mem.read : Mem → Nat → Byte
  | [], _ => 0
  | (a, b) :: m, k => if a = k then b else Mem.read m k

/-- Put a byte at its place in the order of addresses. -/
def Mem.place : Mem → Nat → Byte → Mem
  | [], k, v => [(k, v)]
  | (a, b) :: m, k, v =>
    if a = k then (k, v) :: m
    else if k < a then (k, v) :: (a, b) :: m
    else (a, b) :: Mem.place m k v

/-- Write one byte; writing 0 takes the entry out, so equal memories are equal lists. -/
def Mem.write (m : Mem) (k : Nat) (v : Byte) : Mem := if v = 0 then m.filter (fun e => e.1 != k) else m.place k v

/-- The canonical form: addresses strictly rising above `lo`, no zero byte. -/
def Mem.wfFrom : Nat → Mem → Bool
  | _, [] => true
  | lo, (a, b) :: m => decide (lo ≤ a) && (b != 0) && Mem.wfFrom (a + 1) m

/-- The canonical form of a byte memory. -/
def Mem.wf (m : Mem) : Bool := Mem.wfFrom 0 m

/-- n bytes from an address. -/
def Mem.bytes (m : Mem) (a n : Nat) : List Byte := (List.range n).map (fun i => m.read (a + i))

/-- Write a run of bytes. -/
def Mem.writeBytes : Mem → Nat → List Byte → Mem
  | m, _, [] => m
  | m, a, b :: bs => Mem.writeBytes (m.write a b) (a + 1) bs

/-- Little-endian value of a run of bytes (R9). -/
def leNat : List Byte → Nat
  | [] => 0
  | b :: bs => b.toNat + 256 * leNat bs

/-- The n little-endian bytes of a value (R9). -/
def leBytes : Nat → Nat → List Byte
  | 0, _ => []
  | n + 1, v => BitVec.ofNat 8 v :: leBytes n (v / 256)

/-- Big-endian value of a run of bytes. -/
def beNat (bs : List Byte) : Nat := bs.foldl (fun v b => 256 * v + b.toNat) 0

/-- The n big-endian bytes of a value. -/
def beBytes (n v : Nat) : List Byte := (leBytes n v).reverse

/-- n-byte little-endian value at an address. -/
def Mem.le (m : Mem) (a n : Nat) : Nat := leNat (m.bytes a n)

/-- Store an n-byte little-endian value. -/
def Mem.setLe (m : Mem) (a n v : Nat) : Mem := m.writeBytes a (leBytes n v)

/-- Bits hi down to lo of a number (R4). -/
def bits (v hi lo : Nat) : Nat := v / 2 ^ lo % 2 ^ (hi - lo + 1)

/-- Division rounded up (R34). -/
def ceilDiv (n m : Nat) : Nat := (n + m - 1) / m

/-- Insert in ascending order. -/
def insertNat (x : Nat) : List Nat → List Nat
  | [] => [x]
  | y :: ys => if x ≤ y then x :: y :: ys else y :: insertNat x ys

/-- Ascending order. -/
def sortNat (l : List Nat) : List Nat := l.foldr insertNat []

/-- A list without every occurrence of x. -/
def without (l : List Nat) (x : Nat) : List Nat := l.filter (fun y => y != x)

end Sys2Proof

namespace Sys2Proof.Machine

/-! ### Registers -/

/-- The index offsets of a row cover an address offset. -/
def dimsMatch : List (Nat × Nat) → Nat → Bool
  | [], off => off == 0
  | (stride, count) :: ds, off =>
    -- the outer index is the largest stride; inner indices take what is left
    decide (off / stride < count) && dimsMatch ds (off % stride)

/-- Whether a register row describes the register at an address. -/
def RegRow.at (r : RegRow) (addr : Nat) : Bool := decide (r.base ≤ addr) && dimsMatch r.dims (addr - r.base)

/-- The rows of the register at an address. -/
def rowsAt (addr : Nat) : List RegRow := regRows.filter (fun r => r.at addr)

/-- First present column of row r (R16). -/
def rowFirst (r : Nat) : Nat := [2, 1, 0, 0, 0, 0, 0, 0, 1, 2].getD r 0
/-- Field index of the first present site of row r. -/
def rowBase (r : Nat) : Nat := [0, 6, 14, 24, 34, 44, 54, 64, 74, 82].getD r 0

/-- Row and column of a field. -/
def rowOf (f : Nat) : Nat := ((List.range 10).filter fun r => decide (rowBase r ≤ f)).length - 1
def colOf (f : Nat) : Nat := f - rowBase (rowOf f) + rowFirst (rowOf f)

/-- Field index of site (c, r); none: absent (R15, R16). -/
def fieldIndex (c r : Nat) : Option Nat :=
  if r > 9 || c < rowFirst r || c > 9 - rowFirst r then none else some (rowBase r + c - rowFirst r)

/-- Home sites of stacks S0-S47 (R24). -/
def homeSites : List (Nat × Nat) :=
  [(0, 2), (1, 1), (2, 0), (3, 0), (3, 0), (4, 0), (5, 0), (6, 0), (6, 0), (7, 0), (8, 1), (9, 2)]
  ++ [(7, 0), (8, 1), (9, 2), (9, 3), (9, 3), (9, 4), (9, 5), (9, 6), (9, 6), (9, 7), (8, 8), (7, 9)]
  ++ [(9, 7), (8, 8), (7, 9), (6, 9), (6, 9), (5, 9), (4, 9), (3, 9), (3, 9), (2, 9), (1, 8), (0, 7)]
  ++ [(2, 9), (1, 8), (0, 7), (0, 6), (0, 6), (0, 5), (0, 4), (0, 3), (0, 3), (0, 2), (1, 1), (2, 0)]

/-- A site has a memory interface domain: the home sites of R24 (R325). -/
def isHomeSite (f : Nat) : Bool := homeSites.any fun e => fieldIndex e.1 e.2 == some f

/-- Default threshold of a domain's breaker in 0.1 A (R325). -/
def defaultTh (f d : Nat) : Nat :=
  let svc := Config.serviceFields.contains f
  match d with
  | 0 => if svc then 90 else 180
  | 1 => 50
  | 2 => if svc then 150 else 25
  | _ => 70

/-- What a field window holds of the field itself at reset: INDEX and the factory's ROLE, ROW and COLUMN (R19, R20, R383), and the default
thresholds of the domains that the site has (R325, R342). -/
def windowReset (addr : Nat) : Nat :=
  if addr < 0x100000 || 0x680000 ≤ addr then 0
  else
    let f := (addr - 0x100000) / 0x10000
    match addr % 0x10000 with
    | 0 => 256 * f + (if Config.serviceFields.contains f then 3 else if Config.factoryClearings.contains f then 2 else 0)
    | 4 => 16 * rowOf f + colOf f
    | 0xA010 => defaultTh f 0 + 2 ^ 8 * defaultTh f 1 + 2 ^ 16 * defaultTh f 2 + (if isHomeSite f then 2 ^ 24 * defaultTh f 3 else 0)
    | _ => 0

/-- Blocks of a service field's window in which every register reads 0, and its hot spots 4-7, which do not exist (R83, R110, R140, R173, R207,
R360). -/
def blankBlock (addr : Nat) : Bool :=
  decide (0x100000 ≤ addr) && decide (addr < 0x680000) && Config.serviceFields.contains ((addr - 0x100000) / 0x10000)
    && ((decide (0x4000 ≤ addr % 0x10000) && decide (addr % 0x10000 < 0x9000)) || (decide (0xB010 ≤ addr % 0x10000) && decide (addr % 0x10000 < 0xB020)))

/-- Reset value of the register at an address (0 where no row stands, R8, R380). -/
def resetAt (addr : Nat) : W32 :=
  if blankBlock addr then 0 else
  (rowsAt addr).foldl (fun v r => v ||| BitVec.ofNat 32 (r.reset * 2 ^ r.lo)) (BitVec.ofNat 32 (windowReset addr))

/-- The stored register at an address. -/
def State.reg (s : State) (addr : Nat) : W32 := s.regs.getD addr (resetAt addr)

/-- Whether an address lies in the part of a field window that the Zenith serves from its copy of the steward's registers (R383). INDEX, ROLE,
PLACEMENT and the site's coordinates are the Zenith's own and are served as they stand (log entry 134). -/
def inWindow (addr : Nat) : Bool := decide (0x100000 ≤ addr) && decide (addr < 0x680000) && decide (8 ≤ addr % 0x10000)

/-- The register as the host is shown it: in a field window the Zenith's copy (R383). -/
def State.shown (s : State) (addr : Nat) : W32 := if inWindow addr then s.windows.getD addr (resetAt addr) else s.reg addr

/-- The Zenith refreshes its copy of one field's window (R57, R383). -/
def State.copyWindow (s : State) (f : Nat) : State :=
  let mine (e : Nat × W32) : Bool := decide (0x100000 + 0x10000 * f ≤ e.1) && decide (e.1 < 0x110000 + 0x10000 * f)
  { s with windows := (s.regs.filter mine).foldl (fun t e => t.set e.1 e.2) (s.windows.filter fun e => !mine e) }

/-- Replace the stored register at an address. -/
def State.setReg (s : State) (addr : Nat) (v : W32) : State := { s with regs := s.regs.set addr v }

/-- A field's mask in its register. -/
def Fld.mask (f : Fld) : W32 := BitVec.ofNat 32 ((2 ^ (f.hi - f.lo + 1) - 1) * 2 ^ f.lo)

/-- Read a register field. -/
def State.get (s : State) (f : Fld) : Nat := bits (s.reg f.addr).toNat f.hi f.lo

/-- Write a register field, leaving the register's other bits. -/
def State.put (s : State) (f : Fld) (v : Nat) : State :=
  s.setReg f.addr ((s.reg f.addr &&& ~~~ f.mask) ||| (BitVec.ofNat 32 (v * 2 ^ f.lo) &&& f.mask))

/-- Count n events in a counter that saturates at its largest value. -/
def State.count (s : State) (f : Fld) (n : Nat) : State :=
  s.put f (min (s.get f + n) (2 ^ (f.hi - f.lo + 1) - 1))

/-- Count one event. -/
def State.bump (s : State) (f : Fld) : State := s.count f 1

/-- Set a status bit. -/
def State.mark (s : State) (f : Fld) : State := s.put f 1

/-! ### Tables of the module -/

def State.field (s : State) (f : Nat) : FieldSt := s.fields.getD f (FieldSt.atReset f)
def State.setField (s : State) (f : Nat) (v : FieldSt) : State := { s with fields := s.fields.set f v }
def State.updField (s : State) (f : Nat) (g : FieldSt → FieldSt) : State := s.setField f (g (s.field f))
def State.core (s : State) (n : Nat) : CoreSt := s.cores.getD n {}
def State.setCoreSt (s : State) (n : Nat) (v : CoreSt) : State := { s with cores := s.cores.set n v }
def State.updCore (s : State) (n : Nat) (g : CoreSt → CoreSt) : State := s.setCoreSt n (g (s.core n))
def State.plc (s : State) (p : Nat) : PlacementSt := s.placements.getD p {}
def State.setPlc (s : State) (p : Nat) (v : PlacementSt) : State := { s with placements := s.placements.set p v }
def State.updPlc (s : State) (p : Nat) (g : PlacementSt → PlacementSt) : State := s.setPlc p (g (s.plc p))
def State.asp (s : State) (a : Nat) : AirspaceSt := s.airspaces.getD a (AirspaceSt.atReset a)
def State.setAsp (s : State) (a : Nat) (v : AirspaceSt) : State := { s with airspaces := s.airspaces.set a v }
def State.updAsp (s : State) (a : Nat) (g : AirspaceSt → AirspaceSt) : State := s.setAsp a (g (s.asp a))
def State.sess (s : State) (n : Nat) : Desc := s.sessions.getD n {}
def State.setSess (s : State) (n : Nat) (v : Desc) : State := { s with sessions := s.sessions.set n v }
def State.updSess (s : State) (n : Nat) (g : Desc → Desc) : State := s.setSess n (g (s.sess n))
def State.stack (s : State) (n : Nat) : StackSt := s.hbm.getD n {}
def State.updStack (s : State) (n : Nat) (g : StackSt → StackSt) : State :=
  { s with hbm := s.hbm.set n (g (s.stack n)) }
def State.ethPort (s : State) (n : Nat) : EthPort := s.eth.getD n {}
def State.updEth (s : State) (n : Nat) (g : EthPort → EthPort) : State := { s with eth := s.eth.set n (g (s.ethPort n)) }
def State.port (s : State) (n : Nat) : ObtikPort := s.links.ports.getD n {}
def State.updPort (s : State) (n : Nat) (g : ObtikPort → ObtikPort) : State :=
  { s with links := { s.links with ports := s.links.ports.set n (g (s.port n)) } }

def State.updTick (s : State) (g : TickSt → TickSt) : State := { s with tick := g s.tick }
def State.updStart (s : State) (g : StartSt → StartSt) : State := { s with start := g s.start }
def State.updPower (s : State) (g : PowerMgr → PowerMgr) : State := { s with power := g s.power }
def State.updThermal (s : State) (g : ThermalSt → ThermalSt) : State := { s with thermal := g s.thermal }
def State.updHost (s : State) (g : HostSt → HostSt) : State := { s with host := g s.host }
def State.updBoot (s : State) (g : BootSt → BootSt) : State := { s with boot := g s.boot }
def State.updMgmt (s : State) (g : MgmtSt → MgmtSt) : State := { s with mgmt := g s.mgmt }
def State.updLinks (s : State) (g : LinksSt → LinksSt) : State := { s with links := g s.links }

/-- Something leaves the module. -/
def State.emit (s : State) (o : Out) : State := { s with out := s.out ++ [o] }

/-- Fold an update over a list of indices. -/
def State.forAll (s : State) (l : List Nat) (g : State → Nat → State) : State := l.foldl g s

/-- The next free value; it advances the model's own counter, so each use is a fresh one. -/
def State.fresh (s : State) : Nat × State := (Config.freeNat s.freeUses, { s with freeUses := s.freeUses + 1 })

/-- All field indices. -/
def allFields : List Nat := List.range Config.fieldCount
/-- The compute fields (R18). -/
def computeFields : List Nat := allFields.filter (fun f => !Config.serviceFields.contains f)
/-- The core IDs of a field (R18). -/
def coresOf (f : Nat) : List Nat := (List.range 32).map (fun n => 32 * f + n)
/-- Field of a core ID. -/
def fieldOfCore (c : Nat) : Nat := c / 32
/-- Whether a core ID names a core of a compute field (R18, R65). -/
def isCore (c : Nat) : Bool := decide (c < 2816) && !Config.serviceFields.contains (c / 32)

/-- The tick length in ns, times 480: P cycles at 2,400 x 200/(200+n) MHz (R44). -/
def tickNs480 (period level : Nat) : Nat := period * (200 + level)

/-! ### Lead and depth limit (R330, R331) -/

/-- The lead in use: the smallest at or above the setting that lasts at least 1.0 µs (R331). -/
def State.leadNow (s : State) : Nat :=
  max s.power.lead (ceilDiv 480000 (max 1 (tickNs480 s.tick.period s.tick.level)))

/-- The depth limit that was in force at a tick. -/
def PowerMgr.depthAt (p : PowerMgr) (t : Nat) : Nat := ((p.depthLog.filter fun e => e.1 ≤ t).getLast?.map Prod.snd).getD 16

/-! ### Host windows (R385, R386) -/

/-- The 20 window and DMA-grant registers, by address. -/
def windowRegs : List Nat :=
  [0x50000, 0x50004, 0x50008, 0x5000C, 0x50010, 0x50014]
def dmaRegs (w : Nat) : List Nat := [0x50020 + 16 * w, 0x50024 + 16 * w, 0x50028 + 16 * w, 0x5002C + 16 * w]

/-- The pages DMA window w grants: base to the end of the limit page, once all four registers are written. -/
def State.dmaWindow (s : State) (w : Nat) : Option (Nat × Nat) :=
  if (dmaRegs w).all s.host.written.contains then
    let lo := (s.reg (0x50020 + 16 * w)).toNat / 4096 * 4096 + 2 ^ 32 * (s.reg (0x50024 + 16 * w)).toNat
    let hi := (s.reg (0x50028 + 16 * w)).toNat / 4096 * 4096 + 2 ^ 32 * (s.reg (0x5002C + 16 * w)).toNat
    if hi < lo then none else some (lo, hi + 4095)
  else none

/-- Whether a device access falls wholly inside one DMA window. -/
def State.dmaOk (s : State) (addr len : Nat) : Bool :=
  [0, 1, 2, 3].any fun w =>
    match s.dmaWindow w with
    | some (lo, hi) => decide (lo ≤ addr) && decide (addr + len ≤ hi + 1)
    | none => false

def State.cmdBase (s : State) : Nat := (s.reg 0x50000).toNat / 4096 * 4096 + 2 ^ 32 * (s.reg 0x50004).toNat
def State.rplBase (s : State) : Nat := (s.reg 0x50008).toNat / 4096 * 4096 + 2 ^ 32 * (s.reg 0x5000C).toNat
def State.evtBase (s : State) : Nat := (s.reg 0x50010).toNat / 4096 * 4096 + 2 ^ 32 * (s.reg 0x50014).toNat
/-- Entries of the reply ring (R390) and of the event ring (R394). -/
def State.replyRing (s : State) : Nat := 256 * 2 ^ s.get Reg.Hwin.RPL_SIZE
def State.eventRing (s : State) : Nat := 1024 * 2 ^ s.get Reg.Hwin.EVT_SIZE

/-- The three windows lie inside DMA windows (R386). -/
def State.windowsOk (s : State) : Bool :=
  windowRegs.all s.host.written.contains
    && s.dmaOk s.cmdBase (4096 + 65536) && s.dmaOk s.rplBase (256 * s.replyRing) && s.dmaOk s.evtBase (64 * s.eventRing)

/-- The Zenith services control slots (R27, R28). -/
def State.zenithServing (s : State) : Bool := s.boot.zenithUp && !s.boot.restartWindow

/-- Host memory writes and fetches run (R379, R386). -/
def State.hostOpen (s : State) : Bool := s.host.linkUp && s.host.fetching

/-! ### Sequence numbers that wrap from 0xFFFF_FFFF to 1 (R387, R390, R394) -/

def seqNext (n : Nat) : Nat := if n ≥ 0xFFFFFFFF then 1 else n + 1
/-- How many numbers lie after `base` up to `n` in the wrapping order 1 .. 0xFFFF_FFFF. -/
def seqAfter (base n : Nat) : Nat := if base ≤ n then n - base else n + 0xFFFFFFFF - base

/-! ### Event records (R374, R394) -/

/-- Whether EVENT_MASK masks a code: bit n masks family 0x0n; HEALTH_CHANGE and THERM_TRIP are never masked (R411). -/
def eventMasked (mask : W32) (code : Nat) : Bool :=
  code != 0x0101 && code != 0x0210 && decide (mask.toNat / 2 ^ (code / 256) % 2 = 1)

/-- The codes that signal vector 2 (R395). -/
def urgentCodes : List Nat := [0x0101, 0x0210, 0x0203, 0x0206, 0x0102]

/-- Whether record `seq` may be written now (R394). -/
def State.eventRoom (s : State) (seq : Nat) : Bool :=
  s.hostOpen && decide (seqAfter s.host.eventsConsumed seq ≤ s.eventRing)

/-- Post one event record to the ring, and note the vectors to signal (R394, R395). -/
def State.writeEvent (s : State) (e : Event) : State :=
  let s := s.emit (.event e)
  let s := s.put Reg.Hwin.EVENT_SEQ e.seq
  s.updHost fun h => { h with sigEvent := true, sigUrgent := h.sigUrgent || urgentCodes.contains e.code }

/-- Write, queue or drop one record; its SEQ is consumed in every case (R394). -/
def State.recordEvent (s : State) (e : Event) : State :=
  if eventMasked s.host.mask e.code then s else
  let n := seqNext s.host.eventSeq
  let e := { e with seq := n }
  let s := s.updHost fun h => { h with eventSeq := n }
  if s.host.eventQueue.isEmpty && s.eventRoom n then s.writeEvent e
  else if s.host.eventQueue.length < 1024 then s.updHost fun h => { h with eventQueue := h.eventQueue ++ [e] }
  else (s.bump Reg.Hwin.EVT_DROPPED).mark Reg.Hwin.EVT_OVERFLOW

/-- Cut a stage list into records of eight; every record but the last has MORE set (R374). -/
def stageRuns : Nat → List Nat → List (List Nat × Bool)
  | 0, l => [(l, false)]
  | n + 1, l => if l.length ≤ 8 then [(l, false)] else (l.take 8, true) :: stageRuns n (l.drop 8)

/-- Raise an event: its records are written now, or once the Zenith serves again, with the detection tick (R374). -/
def State.event (s : State) (e : Event) : State :=
  let e := { e with tick := s.tick.count }
  if s.zenithServing then
    (stageRuns 128 e.stages).foldl (fun s (run : List Nat × Bool) => s.recordEvent { e with stages := run.1, more := run.2 }) s
  else s.updHost fun h => { h with late := h.late ++ [e] }

/-- The image region of the live bank of a field's placement; nothing where it is in none. -/
def State.livePlanOf (s : State) (f : Nat) : Mem :=
  match (s.field f).placement with
  | none => []
  | some p => if (s.plc p).liveBank = 0 then (s.field f).bank0.mem else (s.field f).bank1.mem

/-- The stages whose cores lie in a field, ascending (R29): those its cores have loaded or, while its cores hold no plan (after a reset, in
Overcast), those that the core entries of its live bank name (R156). -/
def State.stagesOf (s : State) (f : Nat) : List Nat :=
  let pick (l : List Nat) : List Nat := sortNat (l.foldl (fun l st => if st = 0x3FF || l.contains st then l else l ++ [st]) [])
  let loaded := pick ((coresOf f).map fun c => (s.core c).stage)
  let plan := s.livePlanOf f
  if !loaded.isEmpty then loaded
  else if plan.isEmpty then []
  else pick ((List.range 32).map fun n => plan.le (64 + 64 * n) 2)

/-! ### Gust messages (R26, R297) -/

/-- Core ID of a field's steward; endpoint of a router (R283). -/
def stewardId (f : Nat) : Nat := 2944 + f
def routerId (u : Nat) : Nat := 2816 + u

/-- The Zenith sends a Gust message to a field's steward or router; it is unacknowledged until it is received (R297). -/
def State.sendGust (s : State) (target : Nat) : State :=
  let n := s.nextRequest
  ({ s with nextRequest := n + 1, gust := s.gust ++ [(n, target)] }).emit (.gust n target)

/-- The oldest message to a target is received and so acknowledged. -/
def State.ackGust (s : State) (target : Nat) : State :=
  match s.gust.find? fun e => e.2 = target with
  | none => s
  | some e => { s with gust := s.gust.filter fun y => y.1 ≠ e.1 }

def placementByte (p : Option Nat) : Nat := p.getD 0xFF

/-! ### Replies (R390-R393) -/

def Status.code : Status → Nat
  | .ok => 0 | .pending => 1 | .badOpcode => 0x101 | .badParameter => 0x102 | .notPermitted => 0x103 | .busy => 0x104
  | .inService => 0x105 | .noResource => 0x106 | .signatureInvalid => 0x107 | .superseded => 0x108 | .limited => 0x109
  | .timeout => 0x10A

/-- Statuses counted in REFUSED (R396). -/
def Status.isRefusal : Status → Bool
  | .badOpcode | .badParameter | .notPermitted | .busy | .inService | .noResource | .signatureInvalid | .timeout => true
  | _ => false

/-- Reply n may be written while n does not exceed REPLIES_CONSUMED + N (R390). -/
def State.replyRoom (s : State) (n : Nat) : Bool :=
  s.hostOpen && decide (seqAfter s.host.repliesConsumed n ≤ s.replyRing)

/-- Write the held replies that now have room, in the order the outcomes arose (R390). -/
def State.drainReplies : Nat → State → State
  | 0, s => s
  | k + 1, s =>
    match s.host.held with
    | [] => s.put Reg.Hwin.RPL_FULL 0
    | r :: rest =>
      let n := seqNext s.host.replyNum
      if s.replyRoom n then
        let s := s.emit (.reply { r with num := n })
        let s := s.put Reg.Hwin.REPLY_SEQ n
        State.drainReplies k (s.updHost fun h => { h with replyNum := n, held := rest, sigReply := true })
      else s.put Reg.Hwin.RPL_FULL (if s.hostOpen then 1 else s.get Reg.Hwin.RPL_FULL)

/-- A reply arises: for the host it joins the ring or waits; for the BMC it goes back on its channel (R390, R428). -/
def State.replyAt (s : State) (src : Src) (r : Reply) (tick : Nat) : State :=
  let r := { r with tick := tick }
  match src with
  | .host =>
    let s := if r.final && r.status.isRefusal then s.bump Reg.Evc.REFUSED else s
    let s := if r.final && r.status == .superseded then s.bump Reg.Evc.SUPERSEDED else s
    let s := s.updHost fun h => { h with held := h.held ++ [r] }
    State.drainReplies 1 s
  | .bmc => s.emit (.bmcReply r)
  | _ => s

/-- A reply that carries the running tick. -/
def State.reply (s : State) (src : Src) (r : Reply) : State := s.replyAt src r s.tick.count

/-- The opcode as received: the expert form has 0x0080 set (R401). -/
def opOf (h : CmdHdr) (basic : Nat) : Nat := if h.expert then basic + 0x80 else basic

/-- Answer a command with a final status. -/
def State.answer (s : State) (h : CmdHdr) (op : Nat) (st : Status) : State :=
  s.reply h.src { seq := h.seq, opcode := opOf h op, status := st, final := true }

/-- Refuse with BAD_PARAMETER, naming the byte offset of the first faulty field (R391). -/
def State.badParam (s : State) (h : CmdHdr) (op offset : Nat) : State :=
  s.reply h.src { seq := h.seq, opcode := opOf h op, status := .badParameter, final := true, detail := offset }

/-- Answer OK with a RESULT. -/
def State.answerWith (s : State) (h : CmdHdr) (op : Nat) (st : Status) (detail : Nat) (result : List (Nat × Nat × Nat)) : State :=
  s.reply h.src { seq := h.seq, opcode := opOf h op, status := st, final := true, detail := detail, result := result }

/-- Answer PENDING (R393). -/
def State.pend (s : State) (h : CmdHdr) (op : Nat) (result : List (Nat × Nat × Nat)) : State :=
  s.reply h.src { seq := h.seq, opcode := opOf h op, status := .pending, final := false, result := result }

/-- Write a result buffer; a buffer outside every DMA window is blocked, counted, and answered NOT_PERMITTED (R386). -/
def State.toBuffer (s : State) (h : CmdHdr) (op : Nat) (data : List Byte) (result : List (Nat × Nat × Nat)) : State :=
  if s.dmaOk h.buffer data.length then
    (s.emit (.buffer h.buffer data)).reply h.src
      { seq := h.seq, opcode := opOf h op, status := .ok, final := true, inBuffer := true, result := result }
  else (s.bump Reg.Ceil.DMA_BLOCKED).answer h op .notPermitted

/-- A parameter of all one-bits leaves a setting unchanged (R402). -/
def unchanged (width v : Nat) : Bool := v == 2 ^ width - 1
/-- A setting parameter: unchanged, or inside its range. -/
def inRange (width v lo hi : Nat) : Bool := unchanged width v || (decide (lo ≤ v) && decide (v ≤ hi))
/-- The setting after the command. -/
def setting (width v old : Nat) : Nat := if unchanged width v then old else v

/-! ### Egress (R31, R253, R261) -/

/-- An IPv4 address in its mapped form. -/
def isV4 (addr : Nat) : Bool := addr / 2 ^ 32 == 0xFFFF

/-- UDP, IP and Ethernet bytes of a datagram counted as R261 counts them. -/
def frameBytes (payload : Nat) (v4 tagged : Bool) : Nat := max 64 (payload + 8 + (if v4 then 20 else 40) + 18 + (if tagged then 4 else 0))

/-- The port that carries traffic whose entry names a port: itself, or the lowest-numbered port whose link is up (R253). -/
def State.egressPort (s : State) (port : Nat) : Option Nat :=
  if (s.ethPort port).linkUp then some port else [0, 1, 2, 3].find? fun n => (s.ethPort n).linkUp

/-- The Ceiling unit finds the frames of port n above its rate cap (R31). The manual gives the cap and not the time over which the rate is
measured: below the rate of the link, which bounds it anyhow, whether a frame is in excess is a free value (log entry 124). -/
def State.overCap (s : State) (n : Nat) : Bool :=
  decide ((s.ethPort n).cap < 400)
    && Config.portExcess n (s.ethPort n).cap s.tick.wall480 (s.get (Reg.Eth.TX_FRAMES n)) (s.get (Reg.Eth.TX_CAP_DROP n))

/-- A frame of `cost` bytes leaves from an airspace: charged to its bucket, dropped and counted where that is short, and then where the
port's cap is exceeded (R31, R261). -/
def State.sendFrame (s : State) (a port cost : Nat) (o : Out) : State :=
  match s.egressPort port with
  | none => s
  | some n =>
    let x := s.asp a
    if x.bucket < cost then s.bump (Reg.Eth.CAP_DROP a)
    else
      let s := s.setAsp a { x with bucket := x.bucket - cost }
      if s.overCap n then s.bump (Reg.Eth.TX_CAP_DROP n) else (s.bump (Reg.Eth.TX_FRAMES n)).emit o

/-- A datagram of `payload` bytes leaves from an airspace (R261). -/
def State.sendDatagram (s : State) (a port payload : Nat) (v4 : Bool) (o : Out) : State :=
  s.sendFrame a port (frameBytes payload v4 ((s.asp a).vlan ≠ 0)) o

end Sys2Proof.Machine
end

