-- ==== Sys2Proof/Machine/Crypto.lean ====
section
/-! DEFINITION. SHA-512 (named by R148, R154, R416), the RSASSA-PSS verification of R149 (RFC 8017) and the one DER form of the
publisher keys of R423. Constants are those of the standards the manual names. -/

namespace Sys2Proof.Machine

/-! ### SHA-512 -/

/-- Round constants: fractional parts of the cube roots of the first 80 primes. -/
def shaK0 : List W64 :=
  [0x428A2F98D728AE22, 0x7137449123EF65CD, 0xB5C0FBCFEC4D3B2F, 0xE9B5DBA58189DBBC,
   0x3956C25BF348B538, 0x59F111F1B605D019, 0x923F82A4AF194F9B, 0xAB1C5ED5DA6D8118,
   0xD807AA98A3030242, 0x12835B0145706FBE, 0x243185BE4EE4B28C, 0x550C7DC3D5FFB4E2,
   0x72BE5D74F27B896F, 0x80DEB1FE3B1696B1, 0x9BDC06A725C71235, 0xC19BF174CF692694]

def shaK1 : List W64 :=
  [0xE49B69C19EF14AD2, 0xEFBE4786384F25E3, 0x0FC19DC68B8CD5B5, 0x240CA1CC77AC9C65,
   0x2DE92C6F592B0275, 0x4A7484AA6EA6E483, 0x5CB0A9DCBD41FBD4, 0x76F988DA831153B5,
   0x983E5152EE66DFAB, 0xA831C66D2DB43210, 0xB00327C898FB213F, 0xBF597FC7BEEF0EE4,
   0xC6E00BF33DA88FC2, 0xD5A79147930AA725, 0x06CA6351E003826F, 0x142929670A0E6E70]

def shaK2 : List W64 :=
  [0x27B70A8546D22FFC, 0x2E1B21385C26C926, 0x4D2C6DFC5AC42AED, 0x53380D139D95B3DF,
   0x650A73548BAF63DE, 0x766A0ABB3C77B2A8, 0x81C2C92E47EDAEE6, 0x92722C851482353B,
   0xA2BFE8A14CF10364, 0xA81A664BBC423001, 0xC24B8B70D0F89791, 0xC76C51A30654BE30,
   0xD192E819D6EF5218, 0xD69906245565A910, 0xF40E35855771202A, 0x106AA07032BBD1B8]

def shaK3 : List W64 :=
  [0x19A4C116B8D2D0C8, 0x1E376C085141AB53, 0x2748774CDF8EEB99, 0x34B0BCB5E19B48A8,
   0x391C0CB3C5C95A63, 0x4ED8AA4AE3418ACB, 0x5B9CCA4F7763E373, 0x682E6FF3D6B2B8A3,
   0x748F82EE5DEFB2FC, 0x78A5636F43172F60, 0x84C87814A1F0AB72, 0x8CC702081A6439EC,
   0x90BEFFFA23631E28, 0xA4506CEBDE82BDE9, 0xBEF9A3F7B2C67915, 0xC67178F2E372532B]

def shaK4 : List W64 :=
  [0xCA273ECEEA26619C, 0xD186B8C721C0C207, 0xEADA7DD6CDE0EB1E, 0xF57D4F7FEE6ED178,
   0x06F067AA72176FBA, 0x0A637DC5A2C898A6, 0x113F9804BEF90DAE, 0x1B710B35131C471B,
   0x28DB77F523047D84, 0x32CAAB7B40C72493, 0x3C9EBE0A15C9BEBC, 0x431D67C49C100D4C,
   0x4CC5D4BECB3E42B6, 0x597F299CFC657E2A, 0x5FCB6FAB3AD6FAEC, 0x6C44198C4A475817]

def shaK : List W64 := shaK0 ++ shaK1 ++ shaK2 ++ shaK3 ++ shaK4

/-- Initial value: fractional parts of the square roots of the first eight primes. -/
def shaInit : List W64 := [0x6A09E667F3BCC908, 0xBB67AE8584CAA73B, 0x3C6EF372FE94F82B, 0xA54FF53A5F1D36F1, 0x510E527FADE682D1, 0x9B05688C2B3E6C1F, 0x1F83D9ABFB41BD6B, 0x5BE0CD19137E2179]

def rotr (x : W64) (n : Nat) : W64 := (x >>> n) ||| (x <<< (64 - n))

/-- One step of the message schedule, on the last 16 words, newest first. -/
def shaWord (w : List W64) : W64 :=
  let a := w.getD 1 0
  let b := w.getD 14 0
  let s1 := rotr a 19 ^^^ rotr a 61 ^^^ (a >>> 6)
  let s0 := rotr b 1 ^^^ rotr b 8 ^^^ (b >>> 7)
  w.getD 15 0 + s0 + w.getD 6 0 + s1

/-- The 80 schedule words, newest first. -/
def shaSchedule : Nat → List W64 → List W64
  | 0, w => w
  | n + 1, w => shaSchedule n (shaWord w :: w)

/-- The eight working variables. -/
structure ShaSt where
  a : W64
  b : W64
  c : W64
  d : W64
  e : W64
  f : W64
  g : W64
  h : W64
deriving DecidableEq, Repr

def shaRound (v : ShaSt) (kw : W64 × W64) : ShaSt :=
  let s1 := rotr v.e 14 ^^^ rotr v.e 18 ^^^ rotr v.e 41
  let ch := (v.e &&& v.f) ^^^ (~~~v.e &&& v.g)
  let t1 := v.h + s1 + ch + kw.1 + kw.2
  let s0 := rotr v.a 28 ^^^ rotr v.a 34 ^^^ rotr v.a 39
  let maj := (v.a &&& v.b) ^^^ (v.a &&& v.c) ^^^ (v.b &&& v.c)
  ⟨t1 + s0 + maj, v.a, v.b, v.c, v.d + t1, v.e, v.f, v.g⟩

def shaSt (l : List W64) : ShaSt :=
  ⟨l.getD 0 0, l.getD 1 0, l.getD 2 0, l.getD 3 0, l.getD 4 0, l.getD 5 0, l.getD 6 0, l.getD 7 0⟩
def ShaSt.words (v : ShaSt) : List W64 := [v.a, v.b, v.c, v.d, v.e, v.f, v.g, v.h]

/-- Big-endian 64-bit words of a run of bytes. -/
def words64 : Nat → List Byte → List W64
  | 0, _ => []
  | n + 1, bs => BitVec.ofNat 64 (beNat (bs.take 8)) :: words64 n (bs.drop 8)

/-- Compress one 128-byte block. -/
def shaBlock (h : List W64) (block : List Byte) : List W64 :=
  let w := (shaSchedule 64 (words64 16 block).reverse).reverse
  let v := (shaK.zip w).foldl shaRound (shaSt h)
  (h.zip v.words).map fun e => e.1 + e.2

/-- Blocks of 128 bytes in order. -/
def shaBlocks : Nat → List Byte → List W64 → List W64
  | 0, _, h => h
  | n + 1, bs, h => shaBlocks n (bs.drop 128) (shaBlock h (bs.take 128))

/-- SHA-512 of a byte string: 64 bytes. -/
def sha512 (m : List Byte) : List Byte :=
  let zeros := (239 - m.length % 128) % 128
  let padded := m ++ [0x80] ++ List.replicate zeros 0 ++ beBytes 16 (8 * m.length)
  (shaBlocks (padded.length / 128) padded shaInit).flatMap fun w => beBytes 8 w.toNat

/-! ### RSA (R149) -/

/-- v^65537 mod n by sixteen squarings. -/
def rsaPublic (n v : Nat) : Nat :=
  let sq := (List.range 16).foldl (fun x _ => x * x % n) (v % n)
  sq * v % n

/-- MGF1 with SHA-512. -/
def mgf1 (seed : List Byte) (len : Nat) : List Byte :=
  ((List.range (ceilDiv len 64)).flatMap fun i => sha512 (seed ++ beBytes 4 i)).take len

def xorBytes (a b : List Byte) : List Byte := (a.zip b).map fun e => e.1 ^^^ e.2

/-- RSASSA-PSS-VERIFY with a 4,096-bit modulus, SHA-512 and a 64-byte salt. -/
def pssVerify (n : Nat) (m sig : List Byte) : Bool :=
  let v := beNat sig
  if sig.length ≠ 512 || n ≤ v || n = 0 then false
  else
    let em := beBytes 512 (rsaPublic n v)
    let masked := em.take 447
    let h := (em.drop 447).take 64
    let db := xorBytes masked (mgf1 h 447)
    let db := match db with
      | [] => []
      | b :: bs => (b &&& 0x7F) :: bs
    let salt := db.drop 383
    em.getD 511 0 == 0xBC && (masked.headD 0xFF).toNat < 128
      && (db.take 382).all (· == 0) && db.getD 382 0 == 1
      && h == sha512 (List.replicate 8 0 ++ sha512 m ++ salt)

/-- The fixed head and tail of a DER SubjectPublicKeyInfo of an RSA key with a 4,096-bit modulus and exponent 65,537 (R423). -/
def derHead : List Byte :=
  [0x30, 0x82, 0x02, 0x22, 0x30, 0x0D, 0x06, 0x09, 0x2A, 0x86, 0x48, 0x86, 0xF7, 0x0D, 0x01, 0x01, 0x01,
   0x05, 0x00, 0x03, 0x82, 0x02, 0x0F, 0x00, 0x30, 0x82, 0x02, 0x0A, 0x02, 0x82, 0x02, 0x01, 0x00]
def derTail : List Byte := [0x02, 0x03, 0x01, 0x00, 0x01]

/-- The modulus of such a key, if the bytes are one. -/
def derModulus (k : List Byte) : Option Nat :=
  if k.length = 550 && k.take 33 == derHead && k.drop 545 == derTail && 128 ≤ (k.getD 33 0).toNat
  then some (beNat ((k.drop 33).take 512)) else none

/-- Verify a signature with a key in DER form. -/
def verifyWith (key m sig : List Byte) : Bool := (derModulus key).any fun n => pssVerify n m sig

end Sys2Proof.Machine
end

