-- ==== Sys2Proof/Machine/Codes.lean ====
section
/-! DEFINITION. The check codes: SC-256 (R362, R363), the CRC-8 of a route word (R280), the CRC-7 of a beacon word (R46), the
CRC-4 of a forecast word (R329) and the CRC-32 of an Obtik header (R305). -/

namespace Sys2Proof

/-- x·α in GF(2⁸) with polynomial 0x11D (R362). -/
def gfDouble (x : Byte) : Byte := if x.getLsbD 7 then (x <<< 1) ^^^ 0x1D else x <<< 1

/-- Product in GF(2⁸), over the bits of y from the top. -/
def gfMulFrom (x y : Byte) : Nat → Byte → Byte
  | 0, acc => acc
  | k + 1, acc => gfMulFrom x y k (gfDouble acc ^^^ (if y.getLsbD k then x else 0))
def gfMul (x y : Byte) : Byte := gfMulFrom x y 8 0

/-- αⁿ. -/
def gfPow : Nat → Byte
  | 0 => 1
  | n + 1 => gfDouble (gfPow n)

/-- The coefficients of g(x) = (x + 1)(x + α)(x + α²)(x + α³), from x³ down to x⁰ (R362). -/
def scGen : List Byte :=
  let r := gfPow
  -- elementary symmetric sums of 1, α, α², α³
  let e1 := r 0 ^^^ r 1 ^^^ r 2 ^^^ r 3
  let e2 := gfMul (r 0) (r 1) ^^^ gfMul (r 0) (r 2) ^^^ gfMul (r 0) (r 3) ^^^ gfMul (r 1) (r 2) ^^^ gfMul (r 1) (r 3)
    ^^^ gfMul (r 2) (r 3)
  let e3 := gfMul (r 0) (gfMul (r 1) (r 2)) ^^^ gfMul (r 0) (gfMul (r 1) (r 3)) ^^^ gfMul (r 0) (gfMul (r 2) (r 3))
    ^^^ gfMul (r 1) (gfMul (r 2) (r 3))
  let e4 := gfMul (gfMul (r 0) (r 1)) (gfMul (r 2) (r 3))
  [e1, e2, e3, e4]

/-- One symbol into the division by g(x): the remainder's four coefficients, x³ first. -/
def scStep (rem : List Byte) (d : Byte) : List Byte :=
  let f := d ^^^ rem.headD 0
  List.zipWith (fun a g => a ^^^ gfMul f g) (rem.drop 1 ++ [0]) scGen

/-- The check bytes C0-C3 of 32 data bytes (R362). -/
def scCheck (data : List Byte) : List Byte := data.foldl scStep [0, 0, 0, 0]

/-- Syndrome i of the 36 received symbols, Horner from x³⁵ down (R363). -/
def scSyndrome (word : List Byte) (i : Nat) : Byte := word.foldl (fun acc c => gfMul acc (gfPow i) ^^^ c) 0

/-- How a reader classifies a received word (R363). -/
inductive ScResult where
  | clean
  | corrected (data : List Byte)
  | uncorrectable
deriving DecidableEq, Repr

/-- Find j with S1 = S0·αʲ, S2 = S1·αʲ and S3 = S2·αʲ, among 0 .. 35. -/
def scLocate (s0 s1 s2 s3 : Byte) : Nat → Option Nat
  | 0 => none
  | k + 1 =>
    let a := gfPow k
    if gfMul s0 a = s1 && gfMul s1 a = s2 && gfMul s2 a = s3 then some k else scLocate s0 s1 s2 s3 k

/-- Classify the 36 symbols D0-D31, C0-C3; corrected data has the 36 symbols too. -/
def scClassify (word : List Byte) : ScResult :=
  let s0 := scSyndrome word 0
  let s1 := scSyndrome word 1
  let s2 := scSyndrome word 2
  let s3 := scSyndrome word 3
  if s0 = 0 && s1 = 0 && s2 = 0 && s3 = 0 then .clean
  else if s0 = 0 || s1 = 0 || s2 = 0 || s3 = 0 then .uncorrectable
  else match scLocate s0 s1 s2 s3 36 with
    | none => .uncorrectable
    | some j => .corrected (word.modify (35 - j) (fun b => b ^^^ s0))

/-- The 36 bytes of a flit: data bits [255:0] then check bits with C0 in [263:256] (R364). -/
def flitBytes (f : Flit) : List Byte := leBytes 36 f.toNat
/-- A flit of 32 data bytes with its check bytes. -/
def flitOf (data : List Byte) : Flit := BitVec.ofNat 288 (leNat (data ++ scCheck data))
/-- A flit's data, corrected, and its classification: 0 clean, 1 corrected, 2 uncorrectable. -/
def flitRead (f : Flit) : List Byte × Nat :=
  match scClassify (flitBytes f) with
  | .clean => ((flitBytes f).take 32, 0)
  | .corrected w => (w.take 32, 1)
  | .uncorrectable => ((flitBytes f).take 32, 2)
/-- A flit corrected in flight (R280). -/
def flitFix (f : Flit) : Flit :=
  match scClassify (flitBytes f) with
  | .corrected w => BitVec.ofNat 288 (leNat w)
  | _ => f

/-- A CRC register of n bits with polynomial p (without its leading term), bits of v from k − 1 down to 0. -/
def crcBits (n p v : Nat) : Nat → Nat → Nat
  | 0, r => r
  | k + 1, r =>
    let top := (r / 2 ^ (n - 1) + v / 2 ^ k) % 2
    let r := r * 2 % 2 ^ n
    crcBits n p v k (if top = 1 then r ^^^ p else r)

/-- CRC-8 of a route word, bits 63 down to 0 (R280). -/
def routeCrc (route : W64) : Byte := BitVec.ofNat 8 (crcBits 8 0x07 route.toNat 64 0)
/-- CRC-7 over beacon bits [24:0] (R46). -/
def beaconCrc (low25 : Nat) : Nat := crcBits 7 0x09 low25 25 0
/-- CRC-4 over forecast bits [27:0] (R329). -/
def forecastCrc (low28 : Nat) : Nat := crcBits 4 0x3 low28 28 0

/-- Reflected CRC-32 over bits, least significant first. -/
def crc32Bits : Nat → Nat → Nat → Nat
  | 0, _, r => r
  | k + 1, v, r =>
    let top := (r + v) % 2
    let r := r / 2
    crc32Bits k (v / 2) (if top = 1 then r ^^^ 0xEDB88320 else r)
/-- The IEEE 802.3 frame check sequence over header bits [127:0], byte 0 first, each least significant bit first (R305). -/
def obtikCrc (low128 : Nat) : Nat := crc32Bits 128 low128 0xFFFFFFFF ^^^ 0xFFFFFFFF

end Sys2Proof
end

