-- ==== Sys2Proof/Machine/Float.lean ====
section
/-! DEFINITION. IEEE 754 binary32 with rounding to nearest even, as R111 and R125 use it: every result, also of exp, division,
square root, reciprocal square root, sine, cosine and power, is the correctly rounded one. Values are computed exactly, or as a
truncated value with a sticky bit, and narrowed once. -/

namespace Sys2Proof.F32

/-- A binary32 pattern read as a number. A finite value is (−1)^neg · m · 2^e. -/
inductive Val where
  | nan
  | inf (neg : Bool)
  | fin (neg : Bool) (m : Nat) (e : Int)
deriving DecidableEq, Repr

abbrev qnan : W32 := 0x7FC00000
abbrev maxFinite : W32 := 0x7F7FFFFF
abbrev posInf : W32 := 0x7F800000
abbrev negInf : W32 := 0xFF800000
abbrev zero : W32 := 0
abbrev one : W32 := 0x3F800000

def signBit (w : W32) : Bool := w.getLsbD 31

/-- The value of a pattern. -/
def val (w : W32) : Val :=
  let e : Nat := w.toNat / 2 ^ 23 % 256
  let m : Nat := w.toNat % 2 ^ 23
  if e = 255 then (if m = 0 then .inf (signBit w) else .nan)
  else if e = 0 then .fin (signBit w) m (-149)
  else .fin (signBit w) (m + 2 ^ 23) ((e : Int) - 150)

def isNan (w : W32) : Bool := decide (w.toNat % 2 ^ 31 > 0x7F800000)
def isInf (w : W32) : Bool := decide (w.toNat % 2 ^ 31 = 0x7F800000)
def isFinite (w : W32) : Bool := decide (w.toNat % 2 ^ 31 < 0x7F800000)
def neg (w : W32) : W32 := w ^^^ 0x80000000
def abs (w : W32) : W32 := w &&& 0x7FFFFFFF

/-- Set the sign of a magnitude pattern. -/
def withSign (n : Bool) (mag : Nat) : W32 := BitVec.ofNat 32 (mag + if n then 2 ^ 31 else 0)

/-- n divided by 2^k, rounded to nearest even; `sticky`: a further non-zero amount below n's last bit. -/
def shiftRne (n k : Nat) (sticky : Bool) : Nat :=
  let q := n / 2 ^ k
  let r := n % 2 ^ k
  let half := 2 ^ k / 2
  if k = 0 then q
  else if r > half || (r == half && (sticky || q % 2 == 1)) then q + 1 else q

/-- Round m · 2^e (m plus a non-zero amount below its last bit where `sticky`) to binary32, to nearest even; overflow gives
infinity. A sticky operand carries at least 26 significant bits. -/
def roundMag (n : Bool) (m : Nat) (e : Int) (sticky : Bool := false) : W32 :=
  if m = 0 then withSign n 0 else
  -- the exponent of the leading bit, and that of the last kept bit
  let top : Int := (Nat.log2 m : Int) + e
  let last : Int := max (top - 23) (-149)
  let q := if e ≥ last then m * 2 ^ (e - last).toNat else shiftRne m (last - e).toNat sticky
  -- a carry out of the mantissa moves into the exponent by itself
  let biased : Nat := (last + 149).toNat
  let mag := if q < 2 ^ 23 then q else biased * 2 ^ 23 + q
  if mag ≥ 0x7F800000 then withSign n 0x7F800000 else withSign n mag

/-- An integer times 2^e, exactly, narrowed once; an exact zero is +0. -/
def ofInt (i e : Int) : W32 := roundMag (decide (i < 0)) i.natAbs e

/-- A natural number narrowed to binary32. -/
def ofNat (n : Nat) : W32 := ofInt n 0

def signedInt (n : Bool) (m : Nat) : Int := if n then -(m : Int) else m

/-- Exact sum of two finite values as an integer and an exponent. -/
def sumExact (n1 : Bool) (m1 : Nat) (e1 : Int) (n2 : Bool) (m2 : Nat) (e2 : Int) : Int × Int :=
  let e := min e1 e2
  (signedInt n1 m1 * 2 ^ (e1 - e).toNat + signedInt n2 m2 * 2 ^ (e2 - e).toNat, e)

def addVal : Val → Val → W32
  | .nan, _ | _, .nan => qnan
  | .inf a, .inf b => if a = b then withSign a 0x7F800000 else qnan
  | .inf a, _ => withSign a 0x7F800000
  | _, .inf b => withSign b 0x7F800000
  | .fin a m e, .fin b n f =>
    let (i, g) := sumExact a m e b n f
    if i = 0 then (if m = 0 && n = 0 then withSign (a && b) 0 else 0) else ofInt i g

def add (a b : W32) : W32 := addVal (val a) (val b)
def sub (a b : W32) : W32 := if isNan b then qnan else add a (neg b)

def mulVal : Val → Val → W32
  | .nan, _ | _, .nan => qnan
  | .inf a, .inf b => withSign (a != b) 0x7F800000
  | .inf a, .fin b n _ => if n = 0 then qnan else withSign (a != b) 0x7F800000
  | .fin a m _, .inf b => if m = 0 then qnan else withSign (a != b) 0x7F800000
  | .fin a m e, .fin b n f => roundMag (a != b) (m * n) (e + f)

def mul (a b : W32) : W32 := mulVal (val a) (val b)

/-- The exact product of two values. -/
def mulExact : Val → Val → Val
  | .nan, _ | _, .nan => .nan
  | .inf a, .inf b => .inf (a != b)
  | .inf a, .fin b n _ => if n = 0 then .nan else .inf (a != b)
  | .fin a m _, .inf b => if m = 0 then .nan else .inf (a != b)
  | .fin a m e, .fin b n f => .fin (a != b) (m * n) (e + f)

/-- a × b + c, rounded once (R125). -/
def fma (a b c : W32) : W32 := addVal (mulExact (val a) (val b)) (val c)

/-- A quotient of naturals times 2^e, narrowed once. -/
def ratio (n : Bool) (p q : Nat) (e : Int) : W32 :=
  let s := 64 + Nat.log2 q - Nat.log2 p
  let t := p * 2 ^ s
  roundMag n (t / q) (e - s) (decide (t % q ≠ 0))

def divVal : Val → Val → W32
  | .nan, _ | _, .nan => qnan
  | .inf _, .inf _ => qnan
  | .inf a, .fin b _ _ => withSign (a != b) 0x7F800000
  | .fin a _ _, .inf b => withSign (a != b) 0
  | .fin a m e, .fin b n f =>
    if n = 0 then (if m = 0 then qnan else withSign (a != b) 0x7F800000)
    else if m = 0 then withSign (a != b) 0
    else ratio (a != b) m n (e - f)

def div (a b : W32) : W32 := divVal (val a) (val b)
def recip (a : W32) : W32 := div one a

/-- Newton's descent to the integer square root, from above. -/
def isqrtIter : Nat → Nat → Nat → Nat
  | 0, _, x => x
  | k + 1, n, x =>
    let y := (x + n / x) / 2
    if y < x then isqrtIter k n y else x

/-- ⌊√n⌋. -/
def isqrt (n : Nat) : Nat := if n = 0 then 0 else isqrtIter (Nat.log2 n + 2) n (2 ^ (Nat.log2 n / 2 + 1))

/-- √x, correctly rounded. -/
def sqrt (w : W32) : W32 :=
  match val w with
  | .nan => qnan
  | .inf n => if n then qnan else posInf
  | .fin n m e =>
    if m = 0 then w else if n then qnan else
    let odd : Nat := if e % 2 = 0 then 0 else 1
    let t := m * 2 ^ (odd + 128)
    let r := isqrt t
    roundMag false r ((e - odd) / 2 - 64) (decide (r * r ≠ t))

/-- 1/√x, correctly rounded: ⌊2^128/√t⌋ with a sticky bit, x = t · 2^(2k). -/
def rsqrt (w : W32) : W32 :=
  match val w with
  | .nan => qnan
  | .inf n => if n then qnan else 0
  | .fin n m e =>
    if m = 0 then withSign n 0x7F800000 else if n then qnan else
    let odd : Nat := if e % 2 = 0 then 0 else 1
    let t := m * 2 ^ odd
    let r := isqrt (2 ^ 256 / t)
    roundMag false r (-((e - odd) / 2) - 128) (decide (r * r * t ≠ 2 ^ 256))

/-! ### Transcendental functions: fixed-point evaluation with 512 fraction bits -/

/-- Fraction bits of the fixed-point evaluations below. -/
abbrev prec : Nat := 512

/-- Σ xⁿ/n! for 0 ≤ x < 1 in fixed point, truncated. -/
def expSeries (x : Nat) : Nat → Nat → Nat → Nat → Nat
  | 0, _, _, acc => acc
  | k + 1, n, term, acc => expSeries x k (n + 1) (term * x / 2 ^ prec / n) (acc + term)

/-- ln 2 in fixed point: Σ 1/(k·2^k), truncated. -/
def ln2Fix : Nat := (List.range 560).foldl (fun a k => a + 2 ^ (prec + 64) / ((k + 1) * 2 ^ (k + 1))) 0 / 2 ^ 64

/-- e^x, correctly rounded. A finite non-zero x has a transcendental exponential, so the result is never a tie and the sticky
bit of the 512-bit evaluation decides it; below 2^-40 in magnitude the neighbourhood of 1 is decided by the sign alone. -/
def exp (w : W32) : W32 :=
  match val w with
  | .nan => qnan
  | .inf n => if n then 0 else posInf
  | .fin n m e =>
    if m = 0 then one
    else if (Nat.log2 m : Int) + e ≥ 8 then (if n then 0 else posInf)
    else if (Nat.log2 m : Int) + e < -40 then one
    else
      -- |x| in fixed point, exact: e ≥ −149 > −512
      let x : Nat := m * 2 ^ (e + prec).toNat
      let k := x / ln2Fix
      let r := x - k * ln2Fix
      -- e^x = 2^k · e^r, and e^−x = 2^(−k−1) · e^(ln 2 − r)
      if n then roundMag false (expSeries (ln2Fix - r) 110 1 (2 ^ prec) 0) (-(k : Int) - 1 - prec) true
      else roundMag false (expSeries r 110 1 (2 ^ prec) 0) ((k : Int) - prec) true

/-- arctan(1/q) in fixed point with p fraction bits. -/
def atanInv (p q : Nat) : Nat :=
  ((List.range (p / 4)).foldl (fun (a : Int) k =>
    let t : Int := (2 ^ p / ((2 * k + 1) * q ^ (2 * k + 1)) : Nat)
    if k % 2 = 0 then a + t else a - t) 0).toNat

/-- π with 700 fraction bits (Machin: 16·arctan(1/5) − 4·arctan(1/239)). -/
def piFix : Nat := (16 * atanInv 764 5 - 4 * atanInv 764 239) / 2 ^ 64

/-- Alternating series of cosine (n = 1, term = 1) and sine (n = 2, term = x) for 0 ≤ x ≤ 1 in fixed point. -/
def trigSeries (xx : Nat) : Nat → Nat → Nat → Bool → Int → Int
  | 0, _, _, _, acc => acc
  | k + 1, n, term, negative, acc =>
    trigSeries xx k (n + 2) (term * xx / 2 ^ prec / (n * (n + 1))) (!negative) (if negative then acc - term else acc + term)

def cosFix (x : Nat) : Nat := (trigSeries (x * x / 2 ^ prec) 60 1 (2 ^ prec) false 0).toNat
def sinFix (x : Nat) : Nat := (trigSeries (x * x / 2 ^ prec) 60 2 x false 0).toNat

/-- |x| reduced: the octant index of |x| by π/4, and the remainder in fixed point (up to 2^128 · π's error, below 2^-560). -/
def reduceQuarter (m : Nat) (e : Int) : Nat × Nat :=
  -- all with 700 fraction bits; e ≥ −149
  let x := m * 2 ^ (e + 700).toNat
  let q := x * 4 / piFix
  (q, (x * 4 - q * piFix) / 4 / 2 ^ (700 - prec))

/-- Fixed-point sine and cosine magnitudes with their signs, of |x|: (sin negative, sin, cos negative, cos). -/
def sincosFix (m : Nat) (e : Int) : Bool × Nat × Bool × Nat :=
  let (q, r) := reduceQuarter m e
  let quarter := piFix / 4 / 2 ^ (700 - prec)
  match q % 8 with
  | 0 => (false, sinFix r, false, cosFix r)
  | 1 => (false, cosFix (quarter - r), false, sinFix (quarter - r))
  | 2 => (false, cosFix r, true, sinFix r)
  | 3 => (false, sinFix (quarter - r), true, cosFix (quarter - r))
  | 4 => (true, sinFix r, true, cosFix r)
  | 5 => (true, cosFix (quarter - r), true, sinFix (quarter - r))
  | 6 => (true, cosFix r, false, sinFix r)
  | _ => (true, sinFix (quarter - r), false, cosFix (quarter - r))

/-- sin x, correctly rounded; below 2^-20 it lies just under x. -/
def sin (w : W32) : W32 :=
  match val w with
  | .nan | .inf _ => qnan
  | .fin n m e =>
    if m = 0 then w
    else if (Nat.log2 m : Int) + e < -20 then roundMag n (m * 2 ^ 64 - 1) (e - 64) true
    else
      let (sn, v, _, _) := sincosFix m e
      roundMag (n != sn) v (-(prec : Int)) true

/-- cos x, correctly rounded; below 2^-20 it lies just under 1. -/
def cos (w : W32) : W32 :=
  match val w with
  | .nan | .inf _ => qnan
  | .fin _ m e =>
    if m = 0 || (Nat.log2 m : Int) + e < -20 then one
    else
      let (_, _, cn, v) := sincosFix m e
      roundMag cn v (-(prec : Int)) true

/-- Bitwise descent: the largest v with v^q · num ≤ den · 2^(s·q), from bit k down. -/
def rootDescent (num den q s : Nat) : Nat → Nat → Nat
  | 0, v => v
  | k + 1, v =>
    let t := v + 2 ^ k
    rootDescent num den q s k (if t ^ q * num ≤ den * 2 ^ (s * q) then t else v)

/-- x^(−p/q) for finite positive x and 0 < p < q, correctly rounded: v = ⌊2^s · x^(−p/q)⌋ by exact integer comparison. -/
def powNegRat (m : Nat) (e : Int) (p q : Nat) : W32 :=
  -- x^p = m^p · 2^(e·p); scale s so that v has more than 30 bits
  let (num, den) : Nat × Nat := if e ≥ 0 then (m ^ p * 2 ^ (e.toNat * p), 1) else (m ^ p, 2 ^ ((-e).toNat * p))
  let l : Int := ((Nat.log2 m : Int) + e + 1)
  let s : Nat := (40 + max l 0).toNat
  let v := rootDescent num den q s (s + (max (-l + 2) 2).toNat) 0
  roundMag false v (-(s : Int)) (decide (v ^ q * num ≠ den * 2 ^ (s * q)))

/-- θ^(−2i/R) of ROPE (R129), θ any pattern: IEEE 754's pow for the corners. -/
def powNeg (w : W32) (twoI r : Nat) : W32 :=
  if twoI = 0 then one else
  match val w with
  | .nan => qnan
  | .inf _ => 0
  | .fin n m e => if m = 0 then posInf else if n then qnan else
    let g := Nat.gcd twoI r
    powNegRat m e (twoI / g) (r / g)

/-! ### Comparison -/

/-- a < b on values; false where either is NaN. -/
def lt (a b : W32) : Bool :=
  match val a, val b with
  | .nan, _ | _, .nan => false
  | .inf x, .inf y => x && !y
  | .inf x, .fin _ _ _ => x
  | .fin _ _ _, .inf y => !y
  | .fin x m e, .fin y n f => decide ((sumExact x m e (!y) n f).1 < 0)

def le (a b : W32) : Bool := !isNan a && !isNan b && !lt b a
def eq (a b : W32) : Bool := le a b && le b a

/-- The larger of two; where one is NaN the result is NaN; +0 is above −0. -/
def maxW (a b : W32) : W32 :=
  if isNan a || isNan b then qnan
  else if lt a b then b else if lt b a then a else if signBit a then b else a

/-- The smaller of two; where one is NaN the result is NaN. -/
def minW (a b : W32) : W32 :=
  if isNan a || isNan b then qnan
  else if lt a b then a else if lt b a then b else if signBit a then a else b

/-- ⌊log₂⌋ of a finite non-zero magnitude. -/
def log2Floor (w : W32) : Int :=
  match val w with
  | .fin _ m e => if m = 0 then 0 else (Nat.log2 m : Int) + e
  | _ => 0

/-- ⌊x⌋ of a finite value as an integer. -/
def floorInt (w : W32) : Int :=
  match val w with
  | .fin n m e =>
    let i := signedInt n m
    if e ≥ 0 then i * 2 ^ e.toNat else i / 2 ^ (-e).toNat
  | _ => 0

/-- BF16 widens exactly. -/
def ofBf16 (h : Nat) : W32 := BitVec.ofNat 32 (h * 2 ^ 16)

/-- Binary32 narrowed to BF16, rounded to nearest even (R124): a NaN is the upper half of the one quiet NaN, an overflow is infinite. -/
def toBf16 (w : W32) : Nat :=
  if isNan w then 0x7FC0
  else
    let n := w.toNat
    let low := n % 2 ^ 16
    let up := decide (low > 2 ^ 15) || (decide (low = 2 ^ 15) && n / 2 ^ 16 % 2 = 1)
    n / 2 ^ 16 + if up then 1 else 0

/-- A sum of which an overflow returns the largest finite value, with the count of clamps; an infinite operand is no overflow (R120). -/
def addSat (a b : W32) : W32 × Nat :=
  let r := add a b
  if isInf r && !isInf a && !isInf b then (withSign (signBit r) 0x7F7FFFFF, 1) else (r, 0)

/-- A sum that overflows stands at the largest finite value (R120); the count of clamps. -/
def clamp (w : W32) : W32 × Nat := if isInf w then (withSign (signBit w) 0x7F7FFFFF, 1) else (w, 0)

end Sys2Proof.F32
end

