-- ==== Sys2Proof/Machine/Narrow.lean ====
section
/-! DEFINITION. Four-bit and narrower arithmetic: element formats and groups (R111-R113), input conversion (R118), partial sums
and their accumulation (R119-R121), sums over lanes (R126), requantisation (R131-R133), and the random values of R134, R135. -/

namespace Sys2Proof

/-- Counts an arithmetic step adds to its field's counters (R140, R207). -/
structure Cnt where
  nanIn : Nat := 0
  clamp : Nat := 0
  wscale : Nat := 0
  bump : Nat := 0
  sat : Nat := 0
  under : Nat := 0
  troubled : Nat := 0
  kvSat : Nat := 0
deriving DecidableEq, Repr

def Cnt.add (a b : Cnt) : Cnt :=
  ⟨a.nanIn + b.nanIn, a.clamp + b.clamp, a.wscale + b.wscale, a.bump + b.bump, a.sat + b.sat, a.under + b.under,
   a.troubled + b.troubled, a.kvSat + b.kvSat⟩

def Cnt.clamps (n : Nat) : Cnt := { clamp := n }
def Cnt.nans (n : Nat) : Cnt := { nanIn := n }
def Cnt.sum (l : List Cnt) : Cnt := l.foldl Cnt.add {}

/-- Byte i of a list, 0 beyond it. -/
def nthByte (bs : List Byte) (i : Nat) : Nat := (bs.getD i 0).toNat
/-- FP32 value at byte 4i. -/
def nthWord (bs : List Byte) (i : Nat) : W32 := BitVec.ofNat 32 (leNat ((bs.drop (4 * i)).take 4))
def wordAt (ws : List W32) (i : Nat) : W32 := ws.getD i 0

/-- Element formats. -/
inductive Fmt where
  | fp32 | bf16 | mxfp8 | mxfp4
deriving DecidableEq, Repr

/-- Words of a group of 64 elements (R86). -/
def Fmt.words : Fmt → Nat
  | .fp32 => 8 | .bf16 => 4 | .mxfp8 => 3 | .mxfp4 => 2

/-- Source and destination of a format pair (R86); reserved codes are refused at plan load. -/
def fmtPair : Nat → Fmt × Fmt
  | 0x1 => (.mxfp8, .fp32) | 0x2 => (.mxfp4, .fp32) | 0x3 => (.fp32, .mxfp8) | 0x4 => (.fp32, .mxfp4)
  | 0x5 => (.bf16, .bf16) | 0x6 => (.fp32, .bf16) | 0x7 => (.bf16, .fp32) | _ => (.fp32, .fp32)

/-- An MX element as sign, q and t: ± q · 2^t; `none` is NaN (R111, R118). -/
def e4m3Parts (b : Nat) : Option (Bool × Nat × Int) :=
  let e := b / 8 % 16
  let m := b % 8
  if e = 15 && m = 7 then none
  else if e = 0 then some (decide (b ≥ 128), m, -9)
  else some (decide (b ≥ 128), 8 + m, (e : Int) - 10)

/-- E2M1: q is twice the magnitude, t = −1. -/
def e2m1Parts (c : Nat) : Option (Bool × Nat × Int) :=
  some (decide (c ≥ 8), [0, 1, 2, 3, 4, 6, 8, 12].getD (c % 8) 0, -1)

/-- Element e of a narrow group and its block's scale byte (R112). -/
def mxElem (f : Fmt) (g : List Byte) (e : Nat) : Option (Bool × Nat × Int) × Nat :=
  match f with
  | .mxfp4 =>
    let b := nthByte g (e / 2)
    (e2m1Parts (if e % 2 = 0 then b % 16 else b / 16), nthByte g (32 + e / 32))
  | _ => (e4m3Parts (nthByte g e), nthByte g (64 + e / 32))

/-- NaN elements and NaN scales a group shows a reader, a NaN scale standing for `each` (R114, R140). -/
def mxNans (each : Nat) (f : Fmt) (g : List Byte) : Nat :=
  [0, 1].foldl (fun n b =>
    if (mxElem f g (32 * b)).2 = 255 then n + each
    else n + ((List.range 32).filter fun i => (mxElem f g (32 * b + i)).1.isNone).length) 0

/-- Input conversion counts a NaN element, and every element of a block whose scale is NaN (R118). -/
def inputNans (f : Fmt) (g : List Byte) : Nat := mxNans 32 f g

/-- Input conversion: 64 INT8 values and the vector exponent k (R118). -/
def inputConvert (f : Fmt) (g : List Byte) : List Int × Int × Cnt :=
  let elems : List (Bool × Nat × Int) := (List.range 64).map fun e =>
    match mxElem f g e with
    | (none, _) => (false, 0, 0)
    | (some (n, q, t), x) => if x = 255 then (false, 0, 0) else (n, q, t + (x : Int) - 127)
  let tops := (elems.filter fun e => e.2.1 > 0).map fun e => e.2.2
  match tops with
  | [] => (List.replicate 64 0, 0, Cnt.nans (inputNans f g))
  | a :: as =>
    let k := as.foldl max a - 3
    (elems.map fun e =>
        let d := e.2.2 - k
        let m : Nat := if d ≥ 0 then e.2.1 * 2 ^ d.toNat else F32.shiftRne e.2.1 (-d).toNat false
        F32.signedInt e.1 m,
      k, Cnt.nans (inputNans f g))

/-- A decoded narrow element widened to FP32, clamped beyond its range (R114, R125). -/
def mxWiden (f : Fmt) (g : List Byte) (e : Nat) : W32 × Nat :=
  match mxElem f g e with
  | (none, _) => (0, 0)
  | (some (n, q, t), x) => if x = 255 then (0, 0) else F32.clamp (F32.roundMag n q (t + (x : Int) - 127))

/-- A group of 64 elements as FP32 values. A NaN scale that decoding meets counts once (DEDUCED, log entry 12). -/
def groupRead (f : Fmt) (g : List Byte) : List W32 × Cnt :=
  match f with
  | .fp32 => ((List.range 64).map (nthWord g), {})
  | .bf16 => ((List.range 64).map fun e => F32.ofBf16 (leNat ((g.drop (2 * e)).take 2)), {})
  | _ =>
    let l := (List.range 64).map (mxWiden f g)
    (l.map Prod.fst, { nanIn := mxNans 1 f g, clamp := (l.map Prod.snd).foldl (· + ·) 0 })

/-- FP32 values as bytes. -/
def wordsBytes (ws : List W32) : List Byte := ws.flatMap fun w => leBytes 4 w.toNat

/-! ### Narrowing (R131, R132) -/

/-- Magnitude narrowing: mantissa bits, exponent of the smallest ulp, largest finite code; y = m · 2^e. `u` selects stochastic
rounding. The code is the format's own (exponent and mantissa fields). -/
def narrowMag (mb : Nat) (minE : Int) (maxCode : Nat) (m : Nat) (e : Int) (u : Option Nat) : Nat :=
  if m = 0 then 0 else
  let last : Int := max ((Nat.log2 m : Int) + e - mb) minE
  let sh : Int := last - e
  let n := if sh ≤ 0 then m * 2 ^ (-sh).toNat else m / 2 ^ sh.toNat
  -- f as a fraction r / 2^sh
  let r := if sh ≤ 0 then 0 else m % 2 ^ sh.toNat
  let one := if sh ≤ 0 then 1 else 2 ^ sh.toNat
  let up := match u with
    | some u => decide (r * 65536 / one + u ≥ 65536)
    | none => decide (2 * r > one) || (decide (2 * r = one) && n % 2 = 1)
  let n := if up then n + 1 else n
  min ((last - minE).toNat * 2 ^ mb + n) maxCode

/-- Whether the scaled magnitude |x| · 2^sh saturates in a destination (R132). -/
def saturates (d : Fmt) (x : W32) (sh : Int) : Bool :=
  match F32.val x with
  | .nan => false
  | .inf _ => true
  | .fin _ m e =>
    let above (n : Nat) (strict : Bool) : Bool :=
      -- m · 2^(e+sh) against n
      let f := e + sh
      let (a, b) := if f ≥ 0 then (m * 2 ^ f.toNat, n) else (m, n * 2 ^ (-f).toNat)
      if strict then decide (a > b) else decide (a ≥ b)
    match d with
    | .mxfp8 => above 464 true
    | .mxfp4 => above 7 false
    | _ => decide ((F32.abs x).toNat ≥ 0x7F7F8000)

/-- One element's narrow code with its sign, under the scale shift `sh` = 127 − X (R132). -/
def narrowElem (d : Fmt) (x : W32) (sh : Int) (u : Option Nat) : Nat :=
  let (mb, minE, maxCode, signPos) : Nat × Int × Nat × Nat := match d with
    | .mxfp8 => (3, -9, 0x7E, 7)
    | .mxfp4 => (1, -1, 7, 3)
    | _ => (7, -133, 0x7F7F, 15)
  let sh := if d = .bf16 then 0 else sh
  let code := match F32.val x with
    | .nan => 0
    | .inf _ => maxCode
    | .fin _ m e => if saturates d x sh then maxCode else narrowMag mb minE maxCode m (e + sh) u
  if F32.isNan x then 0
  else if F32.signBit x && (d = .bf16 || code ≠ 0) then code + 2 ^ signPos else code

/-- The largest finite magnitude of a block as an FP32 pattern; 0 where there is none. -/
def blockAmax (xs : List W32) : W32 :=
  xs.foldl (fun a x => if F32.isFinite x && (F32.abs x).toNat > a.toNat then F32.abs x else a) 0

/-- The scale of a block (R131, R181), and whether it was clamped. -/
def blockScale (emax : Int) (amax : W32) : Nat × Nat :=
  if amax = 0 then (127, 0) else
  let x := F32.log2Floor amax - emax + 127
  if x < 0 then (0, 1) else if x > 254 then (254, 1) else (x.toNat, 0)

def emaxOf (d : Fmt) : Int := if d = .mxfp4 then 2 else 8

/-- Codes of 64 elements packed for a format (R112). -/
def packCodes (d : Fmt) (codes : List Nat) : List Byte :=
  match d with
  | .mxfp4 => (List.range 32).map fun i => BitVec.ofNat 8 (codes.getD (2 * i) 0 + 16 * codes.getD (2 * i + 1) 0)
  | .mxfp8 => codes.map fun c => BitVec.ofNat 8 c
  | _ => codes.flatMap fun c => leBytes 2 c

/-- A narrow group from 64 FP32 values with block scales x0, x1 (R112, R113). -/
def packGroup (d : Fmt) (xs : List W32) (x0 x1 flags : Nat) (a0 a1 : W32) (us : Option (List Nat)) : List Byte :=
  let code (e : Nat) : Nat :=
    narrowElem d (wordAt xs e) (127 - ((if e < 32 then x0 else x1 : Nat) : Int)) (us.map fun l => l.getD e 0)
  let codes := packCodes d ((List.range 64).map code)
  match d with
  | .bf16 => codes
  | _ => codes ++ leBytes 1 x0 ++ leBytes 1 x1 ++ leBytes 1 flags ++ [0] ++ leBytes 4 a0.toNat ++ leBytes 4 a1.toNat
      ++ List.replicate 20 0

/-- QUANT of one group with RESCALE = 0 (R131, R132). -/
def quantGroup (d : Fmt) (xs : List W32) (us : Option (List Nat)) : List Byte × Cnt :=
  let nans := (xs.filter F32.isNan).length
  if d = .bf16 then (packGroup d xs 127 127 0 0 0 us, Cnt.nans nans) else
  let a0 := blockAmax (xs.take 32)
  let a1 := blockAmax (xs.drop 32)
  let (x0, c0) := blockScale (emaxOf d) a0
  let (x1, c1) := blockScale (emaxOf d) a1
  (packGroup d xs x0 x1 (if us.isSome then 4 else 0) a0 a1 us, { nanIn := nans, clamp := c0 + c1 })

/-- The scale of one block under RESCALE = 1 (R133): widened by one where the retained maximum saturates. The byte 255 has no successor: it
stays (DEDUCED, log entry 138). -/
def rescaled (d : Fmt) (x : Nat) (amax : W32) : Nat × Nat :=
  if F32.isNan amax then (x, 0)
  else if saturates d amax (127 - (x : Int)) then (min (x + 1) 255, 1) else (x, 0)

/-- QUANT of one group with RESCALE = 1, from the group that stands at DST (R133). -/
def requantGroup (d : Fmt) (xs : List W32) (old : List Byte) (us : Option (List Nat)) : List Byte × Cnt :=
  let nans := (xs.filter F32.isNan).length
  if d = .bf16 then (packGroup d xs 127 127 0 0 0 us, Cnt.nans nans) else
  let base := 32 * (d.words - 1)
  let a0 := nthWord (old.drop base) 1
  let a1 := nthWord (old.drop base) 2
  let (x0, b0) := rescaled d (nthByte old base) a0
  let (x1, b1) := rescaled d (nthByte old (base + 1)) a1
  let nanScales := ([nthByte old base, nthByte old (base + 1)].filter (· = 255)).length
  (packGroup d xs x0 x1 (b0 + 2 * b1 + if us.isSome then 4 else 0)
      (blockAmax (xs.take 32)) (blockAmax (xs.drop 32)) us,
    { nanIn := nans + nanScales, bump := b0 + b1 })

/-! ### The generator (R134, R135) -/

/-- One round of Philox-4x32 on counters c0-c3 under keys k0, k1. -/
def philoxRounds : Nat → W32 × W32 × W32 × W32 → W32 → W32 → W32 × W32 × W32 × W32
  | 0, c, _, _ => c
  | n + 1, (c0, c1, c2, c3), k0, k1 =>
    let p0 := 0xD2511F53 * c0.toNat
    let p1 := 0xCD9E8D57 * c2.toNat
    let hi (p : Nat) : W32 := BitVec.ofNat 32 (p / 2 ^ 32)
    let lo (p : Nat) : W32 := BitVec.ofNat 32 p
    philoxRounds n (hi p1 ^^^ c1 ^^^ k0, lo p1, hi p0 ^^^ c3 ^^^ k1, lo p0) (k0 + 0x9E3779B9) (k1 + 0xBB67AE85)

/-- Philox-4x32-10 (R134). -/
def philox (c0 c1 c2 c3 k0 k1 : Nat) : List W32 :=
  let w (n : Nat) : W32 := BitVec.ofNat 32 n
  let (a, b, c, d) := philoxRounds 10 (w c0, w c1, w c2, w c3) (w k0) (w k1)
  [a, b, c, d]

/-- The random values u(e) of one group (R135). -/
def groupRandom (key0 key1 c0 c1 c2 : Nat) : List Nat :=
  (List.range 8).flatMap fun call =>
    (philox c0 c1 c2 call key0 key1).flatMap fun w => [w.toNat % 65536, w.toNat / 65536]

/-! ### Sums -/

/-- The six levels of R126 over lanes: lane 2i is added to lane 2i + 1. -/
def laneTree : Nat → List W32 → W32
  | 0, l => wordAt l 0
  | n + 1, l => laneTree n ((List.range (l.length / 2)).map fun i => F32.add (wordAt l (2 * i)) (wordAt l (2 * i + 1)))

/-- A row sum: each lane over its groups with `step`, then the tree (R126). -/
def laneSum (step : W32 → W32 → W32) (groups : List (List W32)) : W32 :=
  laneTree 6 ((List.range 64).map fun i => groups.foldl (fun acc g => step acc (wordAt g i)) 0)

/-- Σ of R126. -/
def rowSum (groups : List (List W32)) : W32 := laneSum F32.add groups

/-! ### Tiles (R115, R145, R146) -/

/-- A tile as read: its slot bytes, which half of a pair slot, its code width, and whether its contribution counts (R76). -/
structure Tile where
  slot : List Byte
  half : Nat
  width : Nat
  counts : Bool
deriving DecidableEq, Repr

/-- Code c[i][j] (R146). -/
def Tile.code (t : Tile) (i j : Nat) : Nat :=
  match t.width with
  | 4 => let b := nthByte t.slot (32 * i + j / 2); if j % 2 = 0 then b % 16 else b / 16
  | 3 => leNat ((t.slot.drop (24 * i)).take 24) / 2 ^ (3 * j) % 8
  | _ => nthByte t.slot (32 * i + 16 * t.half + j / 4) / 2 ^ (2 * (j % 4)) % 4

/-- Codebook entry of a code, two's complement (R111, R115). -/
def Tile.entry (t : Tile) (c : Nat) : Int := (t.slot.getD (2048 + 144 * t.half + c) 0).toInt

/-- Scale X[i][b]. -/
def Tile.scale (t : Tile) (i b : Nat) : Nat := nthByte t.slot (2064 + 144 * t.half + 2 * i + b)

/-- The partial sum P[i][h] as an exact integer (R119); 0 for a NaN scale (R116) or a tile whose contribution is dropped. -/
def Tile.partialInt (t : Tile) (xs : List Int) (i h : Nat) : Int :=
  if !t.counts || t.scale i h = 255 then 0
  else (List.range 32).foldl (fun a j => a + t.entry (t.code i (32 * h + j)) * xs.getD (32 * h + j) 0) 0

/-- An exact integer scaled by 2^e into FP32, clamped (R119). -/
def scaled (p : Int) (e : Int) : W32 × Nat := F32.clamp (F32.ofInt p e)

/-- fl(p(·,0) + p(·,1)) of one row, half 0 first (R120), with its clamps. -/
def Tile.pairSum (t : Tile) (xs : List Int) (k : Int) (i : Nat) : W32 × Nat :=
  let (p0, c0) := scaled (t.partialInt xs i 0) ((t.scale i 0 : Int) - 131 + k)
  let (p1, c1) := scaled (t.partialInt xs i 1) ((t.scale i 1 : Int) - 131 + k)
  let (s, c2) := F32.clamp (F32.add p0 p1)
  (s, c0 + c1 + c2)

/-- Row halves of a tile whose scale is NaN, row i's half b at 2i + b (R116). -/
def Tile.nanHalves (t : Tile) : List Nat :=
  if t.counts then (List.range 128).filter fun n => nthByte t.slot (2064 + 144 * t.half + n) = 255 else []

/-- acc = fl(acc + t) over the 64 rows of an output block (R120). -/
def accumTile (acc : List W32 × Cnt) (t : Tile) (xs : List Int) (k : Int) : List W32 × Cnt :=
  let l := (List.range 64).map fun i =>
    let (s, c) := t.pairSum xs k i
    let (a, c') := F32.clamp (F32.add (wordAt acc.1 i) s)
    (a, c + c')
  (l.map Prod.fst, acc.2.add { clamp := (l.map Prod.snd).foldl (· + ·) 0 })

/-- One transposed tile into the 64 outputs of block ib: rows are the reduction dimension (R121). DEDUCED (log entry 137): R120 names MATVEC
and LOGITS for the clamp of an overflowing addition; the additions of MATVEC_T, which run in the same edge, are clamped and counted alike. -/
def accumTileT (acc : List W32 × Cnt) (t : Tile) (xs : List Int) (k : Int) : List W32 × Cnt :=
  let l := (List.range 64).map fun j =>
    let b := j / 32
    let half (h : Nat) : W32 × Nat := (List.range 32).foldl (fun (a : W32 × Nat) n =>
      let i := 32 * h + n
      let p : Int := if !t.counts || t.scale i b = 255 then 0 else t.entry (t.code i j) * xs.getD i 0
      let (v, c) := scaled p ((t.scale i b : Int) - 131 + k)
      let (r, c') := F32.clamp (F32.add a.1 v)
      (r, a.2 + c + c')) (0, 0)
    let (s0, c0) := half 0
    let (s1, c1) := half 1
    let (s, c2) := F32.clamp (F32.add s0 s1)
    let (a, c3) := F32.clamp (F32.add (wordAt acc.1 j) s)
    (a, c0 + c1 + c2 + c3)
  (l.map Prod.fst, acc.2.add { clamp := (l.map Prod.snd).foldl (· + ·) 0 })

/-- w[i][j] in FP32, clamped (R115, R122). -/
def Tile.weight (t : Tile) (i j : Nat) : W32 × Nat :=
  if !t.counts || t.scale i (j / 32) = 255 then (0, 0)
  else scaled (t.entry (t.code i j)) ((t.scale i (j / 32) : Int) - 131)

end Sys2Proof
end

