-- ==== Sys2Proof/Machine/Operands.lean ====
section
/-! DEFINITION. Descriptors and operands (R85-R89), row tables (R90, R91), dropped rows (R92), and the words a core's program reads
and writes in scratchpad (R65-R69, R74, R366). -/

namespace Sys2Proof.Machine

/-- What a meaning answers. -/
abbrev Result := Host.Outcome State Fault Refusal

/-! ### Descriptor fields (R85) -/

def dOp (d : W256) : Nat := bits d.toNat 7 0
def dSync (d : W256) : Bool := d.getLsbD 8
def dAcc (d : W256) : Bool := d.getLsbD 9
def dExch (d : W256) : Bool := d.getLsbD 10
def dSr (d : W256) : Bool := d.getLsbD 11
/-- Rows V. -/
def dRows (d : W256) : Nat := bits d.toNat 18 12 + 1
def dCount (d : W256) : Nat := bits d.toNat 31 20
def dFmt (d : W256) : Nat := bits d.toNat 35 32
def dSrcFmt (d : W256) : Fmt := (fmtPair (dFmt d)).1
def dDstFmt (d : W256) : Fmt := (fmtPair (dFmt d)).2
def dDst (d : W256) : Nat := bits d.toNat 95 64
def dSrcA (d : W256) : Nat := bits d.toNat 127 96
def dSrcB (d : W256) : Nat := bits d.toNat 159 128
def dP0 (d : W256) : Nat := bits d.toNat 191 160
def dP1 (d : W256) : Nat := bits d.toNat 223 192
def dP2 (d : W256) : Nat := bits d.toNat 255 224

/-! ### Addresses (R65, R66, R88) -/

/-- Linear address of bank b, word w. -/
def linOf (b w : Nat) : Nat := b * 57344 + w
/-- Linear address of a local scratchpad address. -/
def linLocal (a : Nat) : Nat := linOf (bits a 19 16) (bits a 15 0)
/-- Local address of a linear one. -/
def localOf (lin : Nat) : Nat := lin / 57344 * 65536 + lin % 57344
/-- Words of one core's scratchpad. -/
abbrev scratchWords : Nat := 917504
/-- A local address is valid when its WORD is below 57,344 (R65). -/
def validLocal (a : Nat) : Bool := decide (bits a 15 0 < 57344)
/-- Segment of a linear address (R66). -/
def segOf (lin : Nat) : Nat := lin / 2048

/-- An operand's start for row v, or none where it is not used (R88). -/
def resolve (o : Nat) (r : Row) (v : Nat) : Option Nat :=
  let addr := bits o 19 0
  let stride := bits o 29 20
  match bits o 31 30 with
  | 0 => some (linLocal addr + v * stride)
  | 1 => some (r.kvBase + addr + r.kvFill * stride)
  | 2 => some (r.adapterBase + addr)
  | _ => none

/-- A resolved range is faulty (R89). -/
def faulty (o : Nat) (r : Row) (start len : Nat) : Bool :=
  decide (start + len > scratchWords)
    || (bits o 31 30 == 1 && !(decide (r.kvBase ≤ start) && decide (start + len ≤ r.kvBase + r.kvSize)))
    || (bits o 31 30 == 2 && !r.adapterValid)

/-! ### Rows (R90-R92) -/

/-- Programs 4, 7 and 8 work on the prefill row table, decode and absorption on the decode row table (R90, R265). DESIGN CHOICE (log entry
128): R90 names decode and prefill programs only; a replay works on the table of the program that armed its entry, so that a replayed
operation repeats its key and counter (R101, R136); a maintenance program works on the decode table. -/
def SeqSt.prefillRows (q : SeqSt) : Bool := q.prog == 4 || q.prog == 7 || q.prog == 8 || (q.prog == 5 && q.preReplay)

def State.row (s : State) (c v : Nat) : Row :=
  if (s.core c).seq.prefillRows then (s.core c).preRows.getD v {} else (s.core c).decRows.getD v {}

def State.setRow (s : State) (c v : Nat) (r : Row) : State :=
  s.updCore c fun k =>
    if k.seq.prefillRows then { k with preRows := k.preRows.set v r } else { k with decRows := k.decRows.set v r }

/-- Mark row v dropped (R92). -/
def State.dropRow (s : State) (c v : Nat) : State := s.setRow c v { s.row c v with drop := true }

/-- The rows a descriptor processes: 0 to V − 1 with VALID = 1 (R91). -/
def State.activeRows (s : State) (c : Nat) (d : W256) : List Nat := (List.range (dRows d)).filter fun v => (s.row c v).valid

def State.dropAll (s : State) (c : Nat) (vs : List Nat) : State := vs.foldl (fun s v => s.dropRow c v) s

/-! ### Counters of a core and its field -/

def coreField (c : Nat) : Nat := c / 32
def coreNum (c : Nat) : Nat := c % 32

/-- Add an arithmetic step's counts to the field's counters (R140, R207). -/
def State.addCnt (s : State) (c : Nat) (n : Cnt) : State :=
  let f := coreField c
  let s := if n.nanIn = 0 then s else s.count (Reg.Arith.NAN_IN f) n.nanIn
  let s := if n.clamp = 0 then s else s.count (Reg.Arith.SCALE_CLAMP f) n.clamp
  let s := if n.wscale = 0 then s else s.count (Reg.Arith.WSCALE_NAN f) n.wscale
  let s := if n.bump = 0 then s else s.count (Reg.Arith.RESCALE_BUMP f) n.bump
  let s := if n.sat = 0 then s else s.count (Reg.Arith.SAT_TOTAL f) n.sat
  let s := if n.under = 0 then s else s.count (Reg.Arith.UNDERFLOW_TOTAL f) n.under
  let s := if n.troubled = 0 then s else s.count (Reg.Arith.TROUBLED_GROUPS f) n.troubled
  if n.kvSat = 0 then s else s.count (Reg.Kv.KV_SAT f) n.kvSat

/-! ### Scratchpad words -/

/-- A bank is powered and initialised (R69, R74). -/
def CoreSt.bankUp (k : CoreSt) (b : Nat) : Bool := k.bankOn.getLsbD b && !k.bankInit.getLsbD b

/-- Where a program's local word lies: in an absorption area a deputy's addresses name the failed core, and the field's absorption
map redirects them (R79, R80). -/
def State.place (s : State) (c lin : Nat) : Nat × Nat :=
  let k := s.core c
  match (if k.seq.prog = 2 || k.seq.prog = 3 then k.deputyOf else none) with
  | none => (c, lin)
  | some dead =>
    match (s.field (coreField c)).absMap.find? fun e => e.1 == dead && e.2.1 == segOf lin with
    | some (_, _, c', seg) => (32 * coreField c + c', seg * 2048 + lin % 2048)
    | none => (c, lin)

/-- The scratchpad that a core ID names: where the core has failed, its relocated segments (R80). -/
def State.memOf (s : State) (c : Nat) : Mem :=
  let f := coreField c
  ((s.field f).absMap.filter fun e => e.1 = coreNum c).foldl (fun m e =>
    let away : Mem := m.filter fun b => b.1 / 65536 ≠ e.2.1
    ((s.core (32 * f + e.2.2.1)).mem.filter fun b => b.1 / 65536 = e.2.2.2).foldl
      (fun m b => m.write (65536 * e.2.1 + b.1 % 65536) b.2) away) (s.core c).mem

/-- Bytes written into the scratchpad that a core ID names, at a byte address, with valid check symbols (R80). -/
def State.poke (s : State) (c addr : Nat) (bs : List Byte) : State :=
  let f := coreField c
  let put (k : CoreSt) (a : Nat) (bs : List Byte) : CoreSt := { k with
    mem := k.mem.writeBytes a bs
    scErr := k.scErr.filter fun e => e.1 < a / 32 || (a + bs.length + 31) / 32 ≤ e.1 }
  if (s.field f).absMap.any fun e => e.1 = coreNum c then
    (List.range bs.length).foldl (fun s i =>
      let a := addr + i
      let b := [bs.getD i 0]
      match (s.field f).absMap.find? fun e => e.1 == coreNum c && e.2.1 == a / 65536 with
      | some (_, _, n, g) => s.updCore (32 * f + n) fun k => put k (65536 * g + a % 65536) b
      | none => s.updCore c fun k => put k a b) s
  else s.updCore c fun k => put k addr bs

/-- Words copied inside the scratchpad that a core ID names. -/
def State.copyWords (s : State) (c src dst words : Nat) : State := s.poke c (32 * dst) ((s.memOf c).bytes (32 * src) (32 * words))

/-- The 32 bytes of a word as held, without checks. -/
def CoreSt.word (k : CoreSt) (lin : Nat) : List Byte := k.mem.bytes (32 * lin) 32

/-- An uncorrectable word was read: it is counted, the reading row is dropped, and the steward learns what has to be rewritten
(R366). -/
def State.badWord (s : State) (c v lin : Nat) : State :=
  let s := s.bump (Reg.Core.SC_UNCORR (coreField c) (coreNum c))
  let s := s.updCore c fun k =>
    { k with bankErrors := (lin / 57344, s.tick.count) :: k.bankErrors
             reloads := if k.reloads.contains lin then k.reloads else lin :: k.reloads }
  s.dropRow c v

/-- A local read of one word for row v: all-ones and BANK_OFF from a bank that is down (R74); a correctable word corrected in
flight and counted; an uncorrectable one dropping the row (R366). -/
def State.readWord (s : State) (c v lin : Nat) : List Byte × State :=
  let (c', lin') := s.place c lin
  let k := s.core c'
  if !k.bankUp (lin' / 57344) then
    (List.replicate 32 0xFF, s.bump (Reg.Core.BANK_OFF (coreField c) (coreNum c)))
  else
    let s := match k.scErr.getD lin' 0 with
      | 0 => s
      | 1 => s.bump (Reg.Core.SC_CORR (coreField c) (coreNum c))
      | _ => s.badWord c v lin'
    (k.word lin', s)

/-- Store 32 bytes at a word of core c: discarded and counted where the bank is down (R74); the write leaves valid check
symbols. -/
def State.storeWord (s : State) (c lin : Nat) (data : List Byte) : State :=
  if (s.core c).bankUp (lin / 57344) then
    s.updCore c fun k => { k with mem := k.mem.writeBytes (32 * lin) data, scErr := k.scErr.del lin }
  else s.bump (Reg.Core.BANK_OFF (coreField c) (coreNum c))

/-- A write by the requester of order `rank` in a cycle of the tick: where another requester writes the same word in that cycle, the
higher-ranked data stays, and the lower-ranked write is discarded and counted WRITE_COLLIDE (R68). -/
def State.storeAt (s : State) (c lin rank cycle : Nat) (data : List Byte) : State :=
  let note (s : State) : State := s.updCore c fun k => { k with written := (lin, cycle, rank) :: k.written.filter fun e => !(e.1 = lin && e.2.1 = cycle) }
  match (s.core c).written.find? fun e => e.1 = lin && e.2.1 = cycle with
  | none => note (s.storeWord c lin data)
  | some e =>
    if e.2.2 < rank then s.bump (Reg.Core.WRITE_COLLIDE (coreField c) (coreNum c))
    else if rank < e.2.2 then note ((s.bump (Reg.Core.WRITE_COLLIDE (coreField c) (coreNum c))).storeWord c lin data)
    else s.storeWord c lin data

/-- A program's write of one word, by the unit and in the cycle of the operation in hand. -/
def State.writeWord (s : State) (c lin : Nat) (data : List Byte) : State :=
  let (c', lin') := s.place c lin
  s.storeAt c' lin' (s.core c).seq.wrRank (s.core c).seq.wrCycle data

/-- n words as a program's addresses name them, without a read through the switch: what the length of an operation depends on. -/
def State.peek (s : State) (c lin n : Nat) : List Byte :=
  (List.range n).flatMap fun i => let p := s.place c (lin + i); (s.core p.1).word p.2

/-- n words read for row v. -/
def State.readWords (s : State) (c v : Nat) : Nat → Nat → List Byte × State
  | _, 0 => ([], s)
  | lin, n + 1 =>
    let (b, s) := s.readWord c v lin
    let (bs, s) := s.readWords c v (lin + 1) n
    (b ++ bs, s)

/-- Words of a byte list written from a linear address. -/
def State.writeWords (s : State) (c : Nat) : Nat → Nat → List Byte → State
  | _, 0, _ => s
  | lin, n + 1, bs => (s.writeWord c lin (bs.take 32)).writeWords c (lin + 1) n (bs.drop 32)

/-- n free bytes: what a range that is not read delivers (R89 states no value). -/
def State.freeBytes (s : State) (n : Nat) : List Byte × State :=
  ((List.range n).map fun i => BitVec.ofNat 8 (Config.freeNat (s.freeUses + i)), { s with freeUses := s.freeUses + n })

/-- Check one operand's range for row v: a faulty range marks the row dropped and counts ADDR_FAULT (R89). The answer is the
start of a range that may be used. -/
def State.operand (s : State) (c v o len : Nat) : Option Nat × State :=
  match resolve o (s.row c v) v with
  | none => (none, s)
  | some start =>
    if faulty o (s.row c v) start len then
      (none, (s.bump (Reg.Seq.ADDR_FAULT (coreField c) (coreNum c))).dropRow c v)
    else (some start, s)

/-- Words of a source operand for row v; a range that may not be read delivers free bytes. -/
def State.source (s : State) (c v o len : Nat) : List Byte × State :=
  match s.operand c v o len with
  | (some a, s) => s.readWords c v a len
  | (none, s) => s.freeBytes (32 * len)

/-- Write the bytes to a destination operand of row v; a faulty range is not written. -/
def State.dest (s : State) (c v o : Nat) (bs : List Byte) : State :=
  let len := (bs.length + 31) / 32
  match s.operand c v o len with
  | (some a, s) => s.writeWords c a len bs
  | (none, s) => s

/-- Groups of 64 elements from a run of bytes. -/
def groupsOf (f : Fmt) (n : Nat) (bs : List Byte) : List (List W32) × Cnt :=
  let l := (List.range n).map fun g => groupRead f ((bs.drop (32 * f.words * g)).take (32 * f.words))
  (l.map Prod.fst, Cnt.sum (l.map Prod.snd))

/-- n groups of a source operand of row v, as FP32. -/
def State.groups (s : State) (c v o : Nat) (f : Fmt) (n : Nat) : List (List W32) × State :=
  let (bs, s) := s.source c v o (n * f.words)
  let (gs, cnt) := groupsOf f n bs
  (gs, s.addCnt c cnt)

/-- FP32 groups written to a destination operand. -/
def State.putGroups (s : State) (c v o : Nat) (gs : List (List W32)) : State := s.dest c v o (gs.flatMap wordsBytes)

/-- FP32 values narrowed to BF16, rounded to nearest even (R124). -/
def bf16Bytes (xs : List W32) : List Byte := packCodes .bf16 (xs.map F32.toBf16)

/-- Run an operation on each active row in ascending order. -/
def State.eachRow (s : State) (c : Nat) (d : W256) (g : State → Nat → State) : State := (s.activeRows c d).foldl g s

/-! ### Flits and packets (R281) -/

/-- The fields of a route word. -/
structure Route where
  dest : Nat
  addr : Nat
  vc : Nat
  tag : Nat
  placement : Nat
  mcast : Bool
  drop : Bool
  ackreq : Bool
  kind : Nat
  len : Nat
  src : Nat
deriving DecidableEq, Repr

def bit (b : Bool) (n : Nat) : Nat := if b then 2 ^ n else 0

def Route.encode (r : Route) : W64 :=
  BitVec.ofNat 64 (r.dest * 2 ^ 52 + r.addr * 2 ^ 32 + r.vc * 2 ^ 30 + r.tag * 2 ^ 26 + r.placement * 2 ^ 24 + bit r.mcast 23
    + bit r.drop 22 + bit r.ackreq 21 + r.kind * 2 ^ 18 + r.len * 2 ^ 12 + r.src)

def Route.decode (w : W64) : Route :=
  let n := w.toNat
  { dest := bits n 63 52, addr := bits n 51 32, vc := bits n 31 30, tag := bits n 29 26, placement := bits n 25 24,
    mcast := w.getLsbD 23, drop := w.getLsbD 22, ackreq := w.getLsbD 21, kind := bits n 20 18, len := bits n 17 12,
    src := bits n 11 0 }

/-- A packet of a route and its data words of 32 bytes, with fresh check symbols. -/
def packetOf (r : Route) (data : List Byte) : Packet :=
  let n := (data.length + 31) / 32
  let w := ({ r with len := n - 1 } : Route).encode
  { route := w, crc := routeCrc w, flits := (List.range n).map fun i => flitOf ((data.drop (32 * i)).take 32) }

end Sys2Proof.Machine
end

