-- ==== Sys2Proof/Machine/Wafer.lean ====
section
/-! DEFINITION. The site grid, field indices, distances, the edge ring and the choice of a clearing (R15-R18, R23, R24). -/

namespace Sys2Proof.Machine

def natDist (a b : Nat) : Nat := if a ≤ b then b - a else a - b
/-- Distance in sites between two fields (R17). -/
def dist (f g : Nat) : Nat := natDist (colOf f) (colOf g) + natDist (rowOf f) (rowOf g)

/-- The field adjacent through a router port: 1 north, 2 east, 3 south, 4 west (R279). -/
def neighbour (f port : Nat) : Option Nat :=
  let c := colOf f
  let r := rowOf f
  match port with
  | 1 => if r = 0 then none else fieldIndex c (r - 1)
  | 2 => fieldIndex (c + 1) r
  | 3 => fieldIndex c (r + 1)
  | 4 => if c = 0 then none else fieldIndex (c - 1) r
  | _ => none

/-- Field index of a stack's home site. -/
def stackHome (n : Nat) : Nat := let s := homeSites.getD n (0, 2); (fieldIndex s.1 s.2).getD 0

/-- The clearing nearest to a lost field, lower index on a tie (R23). -/
def State.nearestClearing (s : State) (f : Nat) : Option Nat :=
  ((computeFields.filter fun g => (s.field g).role == .clearing && !(s.field g).chosen).foldl
    (fun (best : Option Nat) g => match best with
      | none => some g
      | some b => if dist f g < dist f b then some g else some b) none)

/-- Service-field endpoints (R18): cores of fields 2, 43, 44 and 85. -/
def isServiceEndpoint (e : Nat) : Bool := decide (e < 2816) && Config.serviceFields.contains (e / 32)
/-- Edge-ring stops, stewards and routers among endpoint IDs (R283). -/
def isStop (e : Nat) : Bool := decide (3072 ≤ e) && decide (e < 3120)
def isSteward (e : Nat) : Bool := decide (2944 ≤ e) && decide (e < 3032)
def isRouterId (e : Nat) : Bool := decide (2816 ≤ e) && decide (e < 2904)

/-- The site that an endpoint stands at; none: invalid (R283). -/
def endpointSite (e : Nat) : Option Nat :=
  if e < 2816 then some (e / 32)
  else if e < 2904 then some (e - 2816)
  else if e < 2944 then none
  else if e < 3032 then some (e - 2944)
  else if e < 3072 then none
  else if e < 3120 then some (stackHome (e - 3072))
  else none

/-- The field at the site of one of an image's fields: its alias target, or itself (R289). -/
def PlacementSt.siteOf (x : PlacementSt) (f : Nat) : Nat := ((x.moved.find? fun e => e.1 == f).map Prod.snd).getD f

/-- The field that holds an image field's part in the standby banks: itself, or the one that took its work when it was lost (R159, R167). -/
def PlacementSt.partSite (x : PlacementSt) (f : Nat) : Nat := ((x.stagedAt.find? fun e => e.1 == f).map Prod.snd).getD f

/-- The core that a plan's core ID names for a placement, behind its aliases, and the ID by which plans name a core (R289). -/
def State.realCore (s : State) (p : Option Nat) (e : Nat) : Nat :=
  match p with
  | none => e
  | some p => 32 * (s.plc p).siteOf (e / 32) + e % 32
def State.nominalCore (s : State) (p : Option Nat) (c : Nat) : Nat :=
  match p with
  | none => c
  | some p => 32 * (((s.plc p).moved.find? fun e => e.2 == c / 32).map Prod.fst).getD (c / 32) + c % 32

/-! ### Routers -/

def State.router (s : State) (f : Nat) : RouterSt := (s.field f).router
def State.updRouter (s : State) (f : Nat) (g : RouterSt → RouterSt) : State :=
  s.updField f fun fs => { fs with router := g fs.router }

/-! ### Routing (R287, R288) -/

/-- The dimension-ordered output port from router u to site d: along the row, then along the column; where the row's next site is
absent, along the column first. -/
def dorPort (u d : Nat) : Nat :=
  if u = d then 0 else
  let vertical := if rowOf d > rowOf u then 3 else if rowOf d < rowOf u then 1 else 0
  let horizontal := if colOf d > colOf u then 2 else if colOf d < colOf u then 4 else 0
  if horizontal ≠ 0 && ((neighbour u horizontal).isSome || vertical = 0) then horizontal else vertical

/-- Site entry of a table copy: default 6 with REACH 1 (R288). -/
def RouteTables.site (t : RouteTables) (d : Nat) : Nat × Bool := t.sites.getD d (6, true)

/-- Output port of a table copy for site d at router u; 7 discards. -/
def RouteTables.port (t : RouteTables) (u d : Nat) : Nat :=
  let p := (t.site d).1
  if p = 6 then dorPort u d else p

/-- The dimension-ordered way from router u to site d: each router on it with its output port (R287). -/
def dorPath : Nat → Nat → Nat → List (Nat × Nat)
  | 0, _, _ => []
  | n + 1, u, d =>
    if u = d then []
    else match neighbour u (dorPort u d) with
      | none => []
      | some v => (u, dorPort u d) :: dorPath n v d

/-- A multicast group's entry at router u: the ports of the tree from the root to the members' sites, and the members at u (R291). -/
def groupEntry (root : Nat) (members : List Nat) (u : Nat) : Nat × Nat :=
  let ways := members.flatMap fun m => dorPath 88 root (m / 32)
  (([1, 2, 3, 4].filter fun q => ways.contains (u, q)).foldl (fun m q => m + 2 ^ q) 0,
    ((List.range 32).filter fun n => members.contains (32 * u + n)).foldl (fun m n => m + 2 ^ n) 0)

/-- Hops of the route that the routers' tables give from router u to site d (R296). -/
def State.hopsFrom (s : State) (d : Nat) : Nat → Nat → Nat
  | 0, _ => 0
  | n + 1, u =>
    if u = d then 0
    else match neighbour u ((s.router u).act.port u d) with
      | none => 0
      | some v => 1 + s.hopsFrom d n v

/-- The site that stands for an endpoint of a placement at router u: the alias table's, or its own (R289). -/
def State.siteFor (s : State) (u p e : Nat) : Option Nat :=
  if e < 2816 then
    some ((((s.router u).act.aliases.find? fun x => x.2.2.2.1 && x.2.1 == e / 32 && x.2.2.2.2 == p).map fun x => x.2.2.1).getD (e / 32))
  else endpointSite e

/-- L_fab from a core to an endpoint with the core's own field aliased to each clearing, and with the endpoint's: the largest, which the plan-load
check takes (R167, R296). -/
def State.aliasLatency (s : State) (c e : Nat) : Nat :=
  let u := coreField c
  let p := (s.field u).placement.getD 0
  match s.siteFor u p e with
  | none => 28
  | some d => ((computeFields.filter fun k => (s.field k).role == .clearing).flatMap fun k =>
      [28 + 4 * s.hopsFrom d 88 k, 28 + 4 * s.hopsFrom k 88 u]).foldl max (28 + 4 * s.hopsFrom d 88 u)

/-- L_fab from a core to an endpoint: 28 + 4h cycles (R296). -/
def State.fabLatency (s : State) (c e : Nat) : Nat :=
  let u := coreField c
  match s.siteFor u ((s.field u).placement.getD 0) e with
  | none => 28
  | some d => 28 + 4 * s.hopsFrom d 88 u

end Sys2Proof.Machine
end

