-- ==== Sys2Proof/Machine/Obtik.lean ====
section
/-! DEFINITION. The Obtik link layer: frame headers (R305, R306), ports and groups of the link plan (R304, R310), the channels with their
credits and replay buffers (R307), the port choice and module routes (R314), and the port engines between the fabric and the
links (R308). -/

namespace Sys2Proof.Machine

/-! ### Frames (R305) -/

/-- The fields of a frame header. -/
structure LinkHdr where
  type : Nat
  vc : Nat := 0
  drop : Bool := false
  ackreq : Bool := false
  len : Nat := 0
  seq : Nat := 0
  destModule : Nat := 0
  srcModule : Nat := 0
  hops : Nat := 8
  dest : Nat := 0
  src : Nat := 0
  addr : Nat := 0
  tag : Nat := 0
  placement : Nat := 0
  kind : Nat := 0
deriving DecidableEq, Repr

/-- Bits [127:0] of a header. -/
def LinkHdr.low (h : LinkHdr) : Nat :=
  h.type + h.vc * 2 ^ 4 + bit h.drop 6 + bit h.ackreq 7 + h.len * 2 ^ 8 + h.seq * 2 ^ 16 + h.destModule * 2 ^ 32
    + h.srcModule * 2 ^ 38 + h.hops * 2 ^ 44 + h.dest * 2 ^ 48 + h.src * 2 ^ 60 + h.addr * 2 ^ 72 + h.tag * 2 ^ 92
    + h.placement * 2 ^ 96 + h.kind * 2 ^ 98

def LinkHdr.encode (h : LinkHdr) : BitVec 160 := BitVec.ofNat 160 (h.low + obtikCrc h.low * 2 ^ 128)

def LinkHdr.decode (w : BitVec 160) : LinkHdr :=
  let n := w.toNat
  { type := bits n 3 0, vc := bits n 5 4, drop := w.getLsbD 6, ackreq := w.getLsbD 7, len := bits n 13 8, seq := bits n 31 16
    destModule := bits n 37 32, srcModule := bits n 43 38, hops := bits n 47 44, dest := bits n 59 48, src := bits n 71 60
    addr := bits n 91 72, tag := bits n 95 92, placement := bits n 97 96, kind := bits n 100 98 }

/-- A frame whose CRC is wrong or that holds a reserved value (R305). -/
def frameBad (f : ObtikFrame) : Bool :=
  let n := f.header.toNat
  let h := LinkHdr.decode f.header
  obtikCrc (n % 2 ^ 128) != n / 2 ^ 128 || decide (5 < h.type) || h.vc == 3 || bits n 15 14 != 0 || bits n 127 101 != 0
    || decide (8 < h.hops) || decide (4 < h.kind)

def frameOf (h : LinkHdr) (words : List Flit) : ObtikFrame := ⟨h.encode, words⟩

/-- A frame of data bytes, 32 a word, with fresh check symbols. -/
def linkFrame (h : LinkHdr) (data : List Byte) : ObtikFrame :=
  let n := max 1 ((data.length + 31) / 32)
  let data := data ++ List.replicate (32 * n - data.length) 0
  frameOf { h with len := n - 1 } ((List.range n).map fun i => flitOf ((data.drop (32 * i)).take 32))

/-- The data bytes of a frame, corrected. -/
def frameData (f : ObtikFrame) : List Byte := f.words.flatMap fun w => (flitRead w).1

/-! ### Ports and groups (R302, R304, R310) -/

/-- The engine endpoint of port n (R308), and the port of an endpoint. -/
def engineOf (n : Nat) : Nat := if n < 6 then 2720 + n else 1408 + (n - 6)
def portOfEngine (e : Nat) : Option Nat :=
  if 2720 ≤ e ∧ e < 2726 then some (e - 2720) else if 1408 ≤ e ∧ e < 1414 then some (e - 1408 + 6) else none

def groupHas (g : LinkGroup) (n : Nat) : Bool := g.ports.testBit n

/-- The group of a port in the plan in force. -/
def State.groupOf (s : State) (n : Nat) : Option Nat :=
  (List.range s.links.plan.groups.length).find? fun g => groupHas (s.links.plan.groups.getD g ⟨0, 0, false⟩) n
def State.planned (s : State) (n : Nat) : Bool := decide (n < 12) && (s.groupOf n).isSome
def State.plannedPorts (s : State) : List Nat := (List.range 12).filter s.planned
def State.groupPorts (s : State) (g : Nat) : List Nat := (List.range 12).filter fun n => s.groupOf n == some g
def State.isActive (s : State) (n : Nat) : Bool := (s.port n).st == .active
def State.activePorts (s : State) : List Nat := (List.range 12).filter s.isActive

/-- The neighbour of a group: the plan's, or the one its first ACTIVE port has learnt (R310, R312). -/
def State.groupNeighbour (s : State) (g : Nat) : Option Nat :=
  let named := (s.links.plan.groups.getD g ⟨0, 0x3F, false⟩).neighbour
  match (s.groupPorts g).find? s.isActive with
  | none => none
  | some n => some (if named = 0x3F then (s.port n).peerModule else named)

def PortState.code : PortState → Nat
  | .off => 0 | .down => 1 | .training => 2 | .verifying => 3 | .active => 4 | .held => 5

/-- The registers that follow the link state (R321, R384). -/
def State.gaugeLinks (s : State) : State :=
  let l := s.links
  let s := (s.put Reg.Link.MASTER l.master).put Reg.Link.MODULE_ID s.start.moduleId
  let s := (s.put Reg.Link.HOPS l.hops).put Reg.Link.MODE (if l.plan.groups.isEmpty then 0 else l.plan.mode + 1)
  let s := (s.put Reg.Link.HOLDOVER (bit l.holdover 0)).put Reg.Link.RELAYED (bit (l.follower && !l.holdover && l.relayWord.isSome) 0)
  let s := s.put Reg.Link.LAG_NS (640 * l.hops)
  let held := ((List.range 12).filter fun n => !s.isActive n).foldl (fun m n => m + 2 ^ n) 0
  let s := s.put Reg.Ceil.OBTIK_HELD held
  let s := s.forAll (List.range 12) fun s n =>
    let p := s.port n
    let s := ((s.put (Reg.Link.STATE n) p.st.code).put (Reg.Link.PEER_MODULE n) p.peerModule).put (Reg.Link.PEER_PORT n) p.peerPort
    let s := (s.put (Reg.Link.GROUP n) ((s.groupOf n).getD 7)).put (Reg.Link.BEACON_PORT n) (bit (l.beaconPort == some n) 0)
    let s := (s.put (Reg.Link.LANES_LOCKED n) p.lanes).put (Reg.Link.HELD_CAUSE n) p.heldCause
    s.put (Reg.Link.DELAY_NS n) p.delayNs
  s.forAll (List.range 64) fun s m =>
    let e := l.routes.getD m (7, false)
    (s.put (Reg.Link.GROUP_2 m) e.1).put (Reg.Link.VALID m) (bit e.2 0)

/-! ### Channels (R307) -/

def ObtikPort.chan (p : ObtikPort) (vc : Nat) : LinkChan := if vc = 0 then p.gust else p.cloud
def ObtikPort.setChan (p : ObtikPort) (vc : Nat) (c : LinkChan) : ObtikPort := if vc = 0 then { p with gust := c } else { p with cloud := c }

/-- A frame with its SEQ put in, and the CRC over it. -/
def withSeq (f : ObtikFrame) (seq : Nat) : ObtikFrame := frameOf { LinkHdr.decode f.header with seq := seq } f.words

/-- Send what waits while the credit and the replay buffer allow. -/
def State.pump : Nat → State → Nat → Nat → State
  | 0, s, _, _ => s
  | k + 1, s, n, vc =>
    let c := (s.port n).chan vc
    match c.waiting with
    | [] => s
    | f :: rest =>
      if s.isActive n && decide (c.replay.length < min 256 c.credit) then
        let seq := (c.txSeq + 1) % 65536
        let f := withSeq f seq
        let c := { c with txSeq := seq, waiting := rest, replay := c.replay ++ [f] }
        State.pump k ((s.updPort n fun p => p.setChan vc c).emit (.obtik n f)) n vc
      else s

/-- A Gust or Cloud frame joins its channel of a port. -/
def State.enqueue (s : State) (n vc : Nat) (f : ObtikFrame) : State :=
  let c := (s.port n).chan vc
  (s.updPort n fun p => p.setChan vc { c with waiting := c.waiting ++ [f] }).pump 1 n vc

/-! ### Routes and port choice (R314) -/

/-- The ports of a group that the choice counts. -/
def State.choicePorts (s : State) (g : Nat) : List Nat :=
  (s.groupPorts g).filter fun n => if s.tick.running then s.links.choice.contains n else s.isActive n

/-- Port for a frame to another module: (SRC xor DEST xor DEST_MODULE) mod the port count. -/
def State.choosePort (s : State) (h : LinkHdr) : Option Nat :=
  let e := s.links.routes.getD h.destModule (7, false)
  if !e.2 || 5 < e.1 then none else
  let ports := s.choicePorts e.1
  if ports.isEmpty then none else ports[(h.src ^^^ h.dest ^^^ h.destModule) % ports.length]?

/-- Send a frame of a channel toward its module; the answer says whether a port was found. -/
def State.sendLink (s : State) (h : LinkHdr) (words : List Flit) : State × Bool :=
  match s.choosePort h with
  | none => (s, false)
  | some n => (s.enqueue n h.vc (frameOf h words), true)

/-- An order of R306 to a module, on the Gust channel. -/
def State.sendOrder (s : State) (m code applyTick : Nat) (body : List Byte) : State :=
  let h : LinkHdr := { type := 3, vc := 0, destModule := m, srcModule := s.start.moduleId }
  let f := linkFrame h (leBytes 4 code ++ leBytes 8 applyTick ++ body)
  (s.sendLink (LinkHdr.decode f.header) f.words).1

/-- An ORDER_REPLY to a module: the order's code and a status (R306). -/
def State.sendOrderReply (s : State) (m code : Nat) (st : Status) : State :=
  let h : LinkHdr := { type := 5, vc := 0, destModule := m, srcModule := s.start.moduleId }
  match s.choosePort h with
  | none => s
  | some n => s.emit (.obtik n (linkFrame h (leBytes 2 code ++ leBytes 2 st.code)))

/-! ### The port engines (R308) -/

/-- A STATUS reply to the sender of a frame: 1 REFUSED, 3 ERROR (R282, R305). -/
def State.linkStatus (s : State) (h : LinkHdr) (status : Nat) : State :=
  let r : LinkHdr :=
    { type := 0, vc := 2, destModule := h.srcModule, srcModule := s.start.moduleId, dest := h.src, src := h.dest, tag := h.tag
      placement := h.placement, kind := 3 }
  let f := linkFrame r (leBytes 2 status ++ leBytes 2 (h.len + 1) ++ leBytes 4 h.addr ++ List.replicate 24 0)
  (s.sendLink (LinkHdr.decode f.header) f.words).1

/-- A packet for the engine of port n leaves by the remote target entry that ADDR[11:0] names. A Jetstream packet takes the entry's port;
without one that is ACTIVE, in holdover, or after a failed check of R309 it is discarded. -/
def State.engineSend (s : State) (n : Nat) (p : Packet) : State :=
  let r := Route.decode p.route
  match s.links.targets.find (4096 * n + r.addr % 4096) with
  | none => s.bump (Reg.Link.LINK_FILTER n)
  | some t =>
    let h : LinkHdr :=
      { type := 0, vc := t.channel, drop := r.drop, ackreq := r.ackreq, len := p.flits.length - 1, destModule := t.module_
        srcModule := s.start.moduleId, dest := t.dest, src := r.src, addr := t.addr, tag := r.tag, placement := r.placement, kind := r.kind }
    if t.channel = 1 then
      if s.links.timingFails.contains r.src || (s.links.holdover) then s
      else if s.isActive t.port then s.emit (.obtik t.port (frameOf h p.flits))
      else s.bump (Reg.Link.JET_LOST t.port)
    else
      let (s, ok) := s.sendLink h p.flits
      if ok then s else s.bump (Reg.Link.LINK_FILTER n)

/-- A reply that reaches the engine of port n for a READ it had put into the fabric goes back to the module that asked. -/
def State.engineReply (s : State) (n : Nat) (p : Packet) : State :=
  let r := Route.decode p.route
  let data := p.flits.flatMap fun f => (flitRead f).1
  let addr := if r.kind = 3 then leNat ((data.drop 4).take 4) else r.addr
  match s.links.reads.find? fun q => q.engine == n && q.dest == r.src && (if r.kind = 3 then q.addr == addr else q.reply == addr) with
  | none => s.bump (Reg.Link.LINK_FILTER n)
  | some q =>
    let s := s.updLinks fun l => { l with reads := l.reads.filter (· != q) }
    let h : LinkHdr :=
      { type := 0, vc := 2, destModule := q.module_, srcModule := s.start.moduleId, dest := q.src, src := q.dest
        addr := if r.kind = 3 then 0 else q.reply, tag := r.tag, placement := r.placement, kind := r.kind, len := p.flits.length - 1 }
    (s.sendLink h p.flits).1

/-- A target table with the entries that a placement's plan loads, in place of those it had (R308). -/
def planTargetTable (t : Tbl TargetEntry) (p : Nat) (hash : List Byte) : Tbl TargetEntry :=
  (Config.planTargets hash).foldl (fun t (n, i, m, d, a, ch, port, src, b) => t.set (4096 * n + i) ⟨m, d, a, ch, port, src, b, p⟩)
    (t.filter fun e => e.2.placement != p)

/-- The remote target and inbound entries of a placement, from its plan (R308). -/
def State.loadLinkTables (s : State) (p : Nat) (hash : List Byte) : State :=
  s.updLinks fun l =>
    { l with
      targets := planTargetTable l.targets p hash
      inbound := (l.inbound.filter fun e => e.placement != p)
        ++ (Config.planInbound hash).map fun (m, tag, lo, hi) => ⟨m, tag, p, lo, hi⟩ }

/-! ### The tick over the links (R316-R319) -/

/-- The module follows a relayed tick. -/
def State.following (s : State) : Bool := s.links.follower && !s.links.holdover

/-- BEACON frames of the coming boundary on every ACTIVE port (R317). -/
def State.sendBeacons (s : State) (word : W32) (tick : Nat) : State :=
  let h : LinkHdr := { type := 2, srcModule := s.start.moduleId }
  let f := linkFrame h (leBytes 4 word.toNat ++ leBytes 8 tick ++ leBytes 1 s.links.master ++ leBytes 1 s.links.hops)
  s.forAll s.activePorts fun s n => s.emit (.obtik n f)

/-- Level of the coming boundary: a follower's is the relayed one (R54, R56, R318). -/
def State.nextLevel (s : State) : Nat :=
  if s.following then ((s.links.relayWord.map Prod.fst).getD s.tick.level)
  else
    let t := s.tick
    let want := max t.zenith t.forced
    if t.level < want then t.level + 1 else if want < t.level then t.level - 1 else t.level

/-- Tick count of the coming boundary: a follower's is the relayed one (R49). The count has 64 bits (R10). -/
def State.nextCount (s : State) : Nat :=
  if s.following && decide (s.tick.count < s.links.relayTick) then s.links.relayTick % 2 ^ 64
  else if s.tick.started then (s.tick.count + 1) % 2 ^ 64 else 0

/-- The follower runs free from now on (R319). -/
def State.enterHoldover (s : State) : State :=
  if !s.following then s else
  let last := s.links.master
  let s := s.updLinks fun l => { l with holdover := true, relayWord := none, beaconPort := none, forceAt := none }
  let s := s.updTick fun t => { t with zenith := t.level }
  (s.mark Reg.Link.MASTER_LOST).event { code := 0x070A, detail := [(40, last)] }

/-- The port a follower takes its beacon from: ACTIVE, delay at most 560 ns, hops at most 7, the fewest; a tie to the lower port
(R317). -/
def State.bestBeacon (s : State) : Option Nat :=
  ((List.range 12).filter fun n => s.isActive n && decide ((s.port n).delayNs ≤ 560) && decide ((s.port n).peerHops ≤ 7)).foldl
    (fun (b : Option Nat) n => match b with
      | none => some n
      | some m => if (s.port n).peerHops < (s.port m).peerHops then some n else some m) none

/-- A follower's Ceiling unit forces stretch and the relayed level has not risen within 8 ticks: holdover (R319). -/
def State.watchForce (s : State) : State :=
  if !s.following then s
  else
    let lvl := (s.links.relayWord.map Prod.fst).getD s.tick.level
    if s.tick.forced ≤ lvl then s.updLinks fun l => { l with forceAt := none }
    else match s.links.forceAt with
      | none => s.updLinks fun l => { l with forceAt := some (s.tick.count, lvl) }
      | some (at_, was) =>
        if was < lvl then s.updLinks fun l => { l with forceAt := some (s.tick.count, lvl) }
        else if at_ + 8 ≤ s.tick.count then s.enterHoldover
        else s

end Sys2Proof.Machine
end

