-- ==== Sys2Proof/Machine/Vector.lean ====
section
/-! DEFINITION. The vector-unit operations: NORM, ACT, GLU, ROPE, QUANT, CHECK, VEC, GATE, COMBINE and STATE_SCAN (R102, R106,
R125-R139). -/

namespace Sys2Proof.Machine

/-! ### NORM (R127) -/

/-- Elementwise over groups with a second list of groups. -/
def zipGroups (g : W32 → W32 → W32) (a b : List (List W32)) : List (List W32) :=
  (List.range a.length).map fun i => (List.range 64).map fun e => g (wordAt (a.getD i []) e) (wordAt (b.getD i []) e)

/-- RMS normalisation of a row. -/
def normRms (x gain : List (List W32)) (eps : W32) : List (List W32) :=
  let n := F32.ofNat (64 * x.length)
  let s := laneSum (fun acc v => F32.fma v v acc) x
  let r := F32.rsqrt (F32.add (F32.div s n) eps)
  zipGroups (fun v g => F32.mul (F32.mul v r) g) x gain

/-- LAYER normalisation of a row. -/
def normLayer (x gain bias : List (List W32)) (eps : W32) : List (List W32) :=
  let n := F32.ofNat (64 * x.length)
  let mu := F32.div (rowSum x) n
  let dev := x.map fun g => g.map fun v => F32.sub v mu
  let s := laneSum (fun acc v => F32.fma v v acc) dev
  let r := F32.rsqrt (F32.add (F32.div s n) eps)
  (List.range x.length).map fun i => (List.range 64).map fun e =>
    F32.fma (F32.mul (wordAt (dev.getD i []) e) r) (wordAt (gain.getD i []) e) (wordAt (bias.getD i []) e)

def normRow (c : Nat) (d : W256) (s : State) (v : Nat) : State :=
  let n := dCount d
  let layer := (dP0 d) % 2 = 1
  let eps : W32 := BitVec.ofNat 32 (dP1 d)
  let (x, s) := s.groups c v (dSrcA d) (dSrcFmt d) n
  let (gb, s) := s.groups c v (dSrcB d) .fp32 (if layer then 2 * n else n)
  s.putGroups c v (dDst d) (if layer then normLayer x (gb.take n) (gb.drop n) eps else normRms x gb eps)

def execNorm (core : Nat) (d : W256) (s : State) : Result := .next (s.eachRow core d (normRow core d))

/-! ### ACT and GLU (R128) -/

/-- The activation table's segment of x, and the line on it. -/
def actTable (store : Mem) (t : Nat) (x : W32) : W32 :=
  let base := 512 * t
  let word (o : Nat) : W32 := BitVec.ofNat 32 (store.le (base + o) 4)
  if F32.isNan x then F32.qnan else
  let segs := store.le (base + 8) 2
  let p := F32.mul (F32.sub x (word 0)) (word 4)
  let i : Int := if F32.isInf p then (if F32.signBit p then 0 else (segs : Int)) else F32.floorInt p
  let seg := (min (max i 0) ((segs : Int) - 1)).toNat
  F32.fma (word (32 + 8 * seg)) x (word (36 + 8 * seg))

def actRow (c : Nat) (d : W256) (s : State) (v : Nat) : State :=
  let store := (s.core c).actStore
  let (x, s) := s.groups c v (dSrcA d) (dSrcFmt d) (dCount d)
  s.putGroups c v (dDst d) (x.map fun g => g.map (actTable store (dP0 d % 32)))

def execAct (core : Nat) (d : W256) (s : State) : Result := .next (s.eachRow core d (actRow core d))

/-- GLU writes fl(act(A) × B). DESIGN CHOICE (log entry 136): FMT names the format of the first source alone (R86); the second source of GLU,
and of the operations of VEC and STATE_SCAN, is FP32. -/
def gluRow (c : Nat) (d : W256) (s : State) (v : Nat) : State :=
  let store := (s.core c).actStore
  let (a, s) := s.groups c v (dSrcA d) (dSrcFmt d) (dCount d)
  let (b, s) := s.groups c v (dSrcB d) .fp32 (dCount d)
  s.putGroups c v (dDst d) (zipGroups (fun x y => F32.mul (actTable store (dP0 d % 32) x) y) a b)

def execGlu (core : Nat) (d : W256) (s : State) : Result := .next (s.eachRow core d (gluRow core d))

/-! ### ROPE (R129) -/

/-- Element e of a head of dimension h rotated over its first r dimensions at position pos. -/
def ropeElem (head : List W32) (r : Nat) (theta : W32) (pos e : Nat) : W32 :=
  let half := r / 2
  if e ≥ r then wordAt head e else
  let i := if e < half then e else e - half
  let phi := F32.mul (F32.ofNat pos) (F32.powNeg theta (2 * i) r)
  let x := wordAt head i
  let y := wordAt head (i + half)
  if e < half then F32.sub (F32.mul x (F32.cos phi)) (F32.mul y (F32.sin phi))
  else F32.add (F32.mul x (F32.sin phi)) (F32.mul y (F32.cos phi))

/-- Cut a flat row into groups of 64. -/
def regroup (n : Nat) (flat : List W32) : List (List W32) := (List.range n).map fun g => (flat.drop (64 * g)).take 64

def ropeRow (c : Nat) (d : W256) (s : State) (v : Nat) : State :=
  let n := dCount d
  let h := bits (dP0 d) 9 0
  let r := bits (dP2 d) 9 0
  let pos := (s.row c v).pos
  let (x, s) := s.groups c v (dSrcA d) (dSrcFmt d) n
  let flat := x.flatten
  s.putGroups c v (dDst d) (regroup n ((List.range (64 * n)).map fun e =>
    ropeElem ((flat.drop (e / h * h)).take h) r (BitVec.ofNat 32 (dP1 d)) pos (e % h)))

def execRope (core : Nat) (d : W256) (s : State) : Result := .next (s.eachRow core d (ropeRow core d))

/-! ### QUANT (R131-R135) -/

/-- key[1] of the generator: the core's stage and its field's placement (R135). -/
def State.randomKey1 (s : State) (c : Nat) : Nat :=
  (s.core c).stage % 1024 + 1024 * ((s.field (coreField c)).placement.getD 0 % 4)

/-- The random values of group g of row v, for the stream word P1 of QUANT or KV_APPEND (R135). -/
def State.random (s : State) (c v g p1 : Nat) : List Nat :=
  let position := bits p1 31 31 = 1
  let c0 := if position then (s.row c v).pos else s.tick.count % 2 ^ 32
  let c1 := if position then 0xFFFFFFFF else s.tick.count / 2 ^ 32
  let pre := if (s.core c).seq.prefillRows then 256 else 0
  groupRandom (bits p1 19 0) (s.randomKey1 c) c0 c1 (v % 256 + pre + g * 65536)

/-- One group of QUANT at group index g. -/
def quantOne (c : Nat) (d : W256) (x : List (List W32)) (v : Nat) (acc : State × List Byte) (g : Nat) : State × List Byte :=
  let s := acc.1
  let f := dDstFmt d
  let us := if dSr d then some (s.random c v g (dP1 d)) else none
  let xs := x.getD g []
  if dP0 d % 2 = 1 then
    -- RESCALE reads the scale word that stands at DST
    let (old, s) := match resolve (dDst d) (s.row c v) v with
      | some a => s.readWords c v (a + g * f.words) f.words
      | none => ([], s)
    let (b, n) := requantGroup f xs old us
    (s.addCnt c n, acc.2 ++ b)
  else
    let (b, n) := quantGroup f xs us
    (s.addCnt c n, acc.2 ++ b)

def quantRow (c : Nat) (d : W256) (s : State) (v : Nat) : State :=
  let n := dCount d
  let (x, s) := s.groups c v (dSrcA d) .fp32 n
  let f := dDstFmt d
  -- the destination is checked before RESCALE reads it
  match resolve (dDst d) (s.row c v) v with
  | none => s
  | some a =>
    if faulty (dDst d) (s.row c v) a (n * f.words) then
      (s.bump (Reg.Seq.ADDR_FAULT (coreField c) (coreNum c))).dropRow c v
    else
      let (s, bs) := (List.range n).foldl (quantOne c d x v) (s, [])
      s.writeWords c a (n * f.words) bs

def execQuant (core : Nat) (d : W256) (s : State) : Result := .next (s.eachRow core d (quantRow core d))

/-! ### CHECK (R137, R138) -/

/-- Saturations and underflows of one group against its narrow form. -/
def checkGroup (f : Fmt) (xs : List W32) (narrow : List Byte) : Nat × Nat :=
  (List.range 64).foldl (fun (n : Nat × Nat) e =>
    let x := wordAt xs e
    let scale := if f = .bf16 then 127 else (mxElem f narrow e).2
    let code := match f with
      | .mxfp4 => (nthByte narrow (e / 2) / (if e % 2 = 0 then 1 else 16)) % 8
      | .mxfp8 => nthByte narrow e % 128
      | _ => leNat ((narrow.drop (2 * e)).take 2) % 32768
    let sat := F32.isNan x || F32.isInf x || saturates f x (127 - (scale : Int))
    let under := F32.isFinite x && decide ((F32.abs x).toNat ≠ 0) && code = 0
    (n.1 + (if sat then 1 else 0), n.2 + (if under then 1 else 0))) (0, 0)

/-- A group is troubled when its counts reach a threshold (R137). -/
def troubledGroup (p0 : Nat) (n : Nat × Nat) : Bool :=
  decide (n.1 ≥ bits p0 7 0) || (bits p0 15 8 != 0xFF && decide (n.2 ≥ bits p0 15 8))

/-- The trouble word of a row (R138). -/
def troubleWord (p0 : Nat) (counts : List (Nat × Nat)) : List Byte :=
  let idx := (List.range counts.length).filter fun i => troubledGroup p0 (counts.getD i (0, 0))
  let total (g : Nat × Nat → Nat) := min ((counts.map g).foldl (· + ·) 0) 0xFFFF
  leBytes 2 (min idx.length 0xFFFF) ++ leBytes 2 (total Prod.fst) ++ leBytes 2 (total Prod.snd)
    ++ leBytes 2 (idx.headD 0xFFFF) ++ List.replicate 24 0

def checkRow (c : Nat) (d : W256) (s : State) (v : Nat) : State :=
  let n := dCount d
  let f := dDstFmt d
  let (x, s) := s.groups c v (dSrcA d) .fp32 n
  let (nb, s) := s.source c v (dSrcB d) (n * f.words)
  let counts := (List.range n).map fun g => checkGroup f (x.getD g []) ((nb.drop (32 * f.words * g)).take (32 * f.words))
  let troubled := (counts.filter (troubledGroup (dP0 d))).length
  let s := s.addCnt c { sat := (counts.map Prod.fst).foldl (· + ·) 0, under := (counts.map Prod.snd).foldl (· + ·) 0,
                        troubled := troubled }
  -- a CHECK in the replay program that finds trouble accepts the clamped result (R99)
  let s := if (s.core c).seq.prog = 5 && troubled > 0 then
      s.bump (Reg.Seq.TROUBLE_ACCEPTED (coreField c) (coreNum c)) else s
  s.dest c v (dDst d) (troubleWord (dP0 d) counts)

def execCheck (core : Nat) (d : W256) (s : State) : Result := .next (s.eachRow core d (checkRow core d))

/-! ### VEC (R102) -/

def vecElem (op : Nat) (p1 a b dst : W32) : W32 :=
  match op with
  | 0 => F32.add a b
  | 1 => F32.sub a b
  | 2 => F32.mul a b
  | 3 => match Config.vecFmaForm with
    | 0 => F32.fma a b dst
    | 1 => F32.fma a p1 b
    | _ => F32.fma a b p1
  | 4 => F32.mul a p1
  | 5 => F32.maxW a b
  | _ => F32.minW a b

/-- l of head g in a row's statistics: m at byte 8g, l at byte 8g + 4 (R183). -/
def statL (stats : List Byte) (g : Nat) : W32 := nthWord stats (2 * g + 1)

def vecRow (c : Nat) (d : W256) (s : State) (v : Nat) : State :=
  let n := dCount d
  let op := bits (dP0 d) 3 0
  let (a, s) := s.groups c v (dSrcA d) (dSrcFmt d) n
  if op = 7 then
    let per := bits (dP2 d) 9 0 / 64
    let heads := (n + per - 1) / per
    let (st, s) := s.source c v (dSrcB d) ((8 * heads + 31) / 32)
    s.putGroups c v (dDst d) ((List.range n).map fun g => (a.getD g []).map fun x => F32.div x (statL st (g / per)))
  else
    let (b, s) := if op = 4 then ([], s) else s.groups c v (dSrcB d) .fp32 n
    let (old, s) := if op = 3 then s.groups c v (dDst d) .fp32 n else ([], s)
    s.putGroups c v (dDst d) ((List.range n).map fun g => (List.range 64).map fun e =>
      vecElem op (BitVec.ofNat 32 (dP1 d)) (wordAt (a.getD g []) e) (wordAt (b.getD g []) e) (wordAt (old.getD g []) e))

def execVec (core : Nat) (d : W256) (s : State) : Result := .next (s.eachRow core d (vecRow core d))

/-! ### GATE and COMBINE (R106, R130) -/

/-- Insert a candidate (value, id) in descending value, ties to the lower id. -/
def insertTop (x : W32 × Nat) : List (W32 × Nat) → List (W32 × Nat)
  | [] => [x]
  | y :: ys => if F32.lt y.1 x.1 || (F32.eq y.1 x.1 && decide (x.2 < y.2)) then x :: y :: ys else y :: insertTop x ys

/-- The k largest, in descending order, ties to the lower id. -/
def topK (k : Nat) (l : List (W32 × Nat)) : List (W32 × Nat) := (l.foldl (fun acc x => (insertTop x acc).take k) []).take k

/-- Softmax weights over a set of logits given as groups (R130): m the largest, e = exp(fl(x − m)), weight fl(e / Σe). -/
def softmaxGroups (gs : List (List W32)) : List (List W32) :=
  let m := gs.flatten.foldl F32.maxW F32.negInf
  let es := gs.map fun g => g.map fun x => F32.exp (F32.sub x m)
  let total := rowSum es
  es.map fun g => g.map fun e => F32.div e total

/-- The expert choices of one row: (weight, expert ID) in rank order. -/
def gateChoices (order k : Nat) (gs : List (List W32)) : List (W32 × Nat) :=
  let ids (l : List (List W32)) : List (W32 × Nat) := (List.range l.flatten.length).map fun i => (wordAt l.flatten i, i)
  if order = 0 then topK k (ids (softmaxGroups gs))
  else
    let top := topK k (ids gs)
    -- the set is the top k logits: they stand in the lanes of one group, the other lanes hold no member
    let m := (top.map Prod.fst).foldl F32.maxW F32.negInf
    let es := top.map fun x => F32.exp (F32.sub x.1 m)
    let total := rowSum [(List.range 64).map fun i => es.getD i 0]
    (List.range top.length).map fun i => (F32.div (wordAt es i) total, (top.getD i (0, 0)).2)

/-- A row's entry of the expert choice table: 16 pairs of ID and weight, unused ones 0xFFFF and 0 (R106). -/
def choiceEntry (l : List (W32 × Nat)) : List Byte :=
  (List.range 16).flatMap fun i =>
    let x := l.getD i (0, 0xFFFF)
    leBytes 2 x.2 ++ leBytes 4 x.1.toNat

def choiceId (entry : List Byte) (j : Nat) : Nat := leNat ((entry.drop (6 * j)).take 2)
def choiceWeight (entry : List Byte) (j : Nat) : W32 := BitVec.ofNat 32 (leNat ((entry.drop (6 * j + 2)).take 4))

def gateRow (c : Nat) (d : W256) (s : State) (v : Nat) : State :=
  let (x, s) := s.groups c v (dSrcA d) (dSrcFmt d) (dCount d)
  s.dest c v (dDst d) (choiceEntry (gateChoices (bits (dP0 d) 8 8) (bits (dP0 d) 4 0 + 1) x))

def execGate (core : Nat) (d : W256) (s : State) : Result := .next (s.eachRow core d (gateRow core d))

/-- COMBINE: the K outputs stand one after the other at SRCA, as MATVEC INDIRECT writes them (R104); choices are summed in rank
order from +0.0, each product and each sum rounded. -/
def combineRow (c : Nat) (d : W256) (s : State) (v : Nat) : State :=
  let n := dCount d
  let k := bits (dP0 d) 3 0 + 1
  let (x, s) := s.groups c v (dSrcA d) .fp32 (k * n)
  let (e, s) := s.source c v (dSrcB d) 3
  let (old, s) := if dAcc d then s.groups c v (dDst d) .fp32 n else ([], s)
  s.putGroups c v (dDst d) ((List.range n).map fun g => (List.range 64).map fun i =>
    let acc := (List.range k).foldl (fun acc j =>
      F32.add acc (F32.mul (choiceWeight e j) (wordAt (x.getD (j * n + g) []) i))) 0
    if dAcc d then F32.add (wordAt (old.getD g []) i) acc else acc)

def execCombine (core : Nat) (d : W256) (s : State) : Result := .next (s.eachRow core d (combineRow core d))

/-! ### STATE_SCAN (R102): the recurrence is a free function of kind, state, x and gates -/

def stateScanRow (c : Nat) (d : W256) (s : State) (v : Nat) : State :=
  let n := dCount d
  let (st, s) := s.groups c v (dDst d) .fp32 n
  let (x, s) := s.groups c v (dSrcA d) .fp32 n
  let (g, s) := s.groups c v (dSrcB d) .fp32 n
  s.putGroups c v (dDst d) ((List.range n).map fun i => (List.range 64).map fun e =>
    Config.stateScan (bits (dP0 d) 1 0) (wordAt (st.getD i []) e) (wordAt (x.getD i []) e) (wordAt (g.getD i []) e))

def execStateScan (core : Nat) (d : W256) (s : State) : Result := .next (s.eachRow core d (stateScanRow core d))

end Sys2Proof.Machine
end

