-- ==== Sys2Proof/Machine/Mac.lean ====
section
/-! DEFINITION. The stratum crossbar (R75, R76, R145, R146, R369) and the operations of the MAC array and the halo unit over
tiles and factors: MATVEC, MATVEC_T, EMBED, LOGITS and HALO (R102, R104, R119-R124). -/

namespace Sys2Proof.Machine

/-! ### Tiles through the crossbar -/

/-- The live bank of a field, as its placement's pointer selects it (R75, R143). -/
def State.liveBankOf (s : State) (f : Nat) : Bank :=
  let fs := s.field f
  match fs.placement with
  | none => fs.bank0
  | some p => if (s.plc p).liveBank = 0 then fs.bank0 else fs.bank1

/-- Fields of a field bank header (R155). -/
def bankTileOff (m : Mem) : Nat := m.le 20 4
def bankSlots (m : Mem) : Nat := m.le 24 4
def bankPairBase (m : Mem) : Nat := m.le 28 4
def bankWidthOff (m : Mem) : Nat := m.le 32 4

/-- Slot, half and code width of a tile index; none: invalid (R145). -/
def tilePlace (m : Mem) (t : Nat) : Option (Nat × Nat × Nat) :=
  let base := bankPairBase m
  if t < base then
    some (t, 0, if (m.read (bankWidthOff m + t / 8)).getLsbD (t % 8) then 3 else 4)
  else if t < base + 2 * (bankSlots m - base) then some (base + (t - base) / 2, (t - base) % 2, 2)
  else none

/-- The bytes of a tile slot as stored. -/
def slotBytes (m : Mem) (slot : Nat) : List Byte := m.bytes (bankTileOff m + 2336 * slot) 2336

/-- A core's crossbar read of a tile: a patch entry first (R76); else the live bank, a correctable slot counted STRATUM_CORR, an
uncorrectable one counted and its contribution dropped (R76, R169, R369). -/
def State.readTile (s : State) (c t : Nat) : Tile × State :=
  let f := coreField c
  let fs := s.field f
  let b := s.liveBankOf f
  match tilePlace b.mem t with
  | none => (⟨[], 0, 4, false⟩, s)
  | some (slot, half, width) =>
    match fs.patches.find? fun p => p.tile == t with
    | some p => (⟨p.slot, half, width, true⟩, s)
    | none =>
      match b.err.getD slot 0 with
      | 0 => (⟨slotBytes b.mem slot, half, width, true⟩, s)
      | 1 => (⟨slotBytes b.mem slot, half, width, true⟩, s.bump (Reg.FGen.STRATUM_CORR f))
      | _ =>
        let s := s.bump (Reg.Core.STRATUM_UNCORR f (coreNum c))
        let s := s.updCore c fun k => { k with tileErrors := (t, s.tick.count) :: k.tileErrors }
        let s := s.updField f fun fs => if fs.unpatched.contains t then fs else { fs with unpatched := fs.unpatched ++ [t] }
        (⟨slotBytes b.mem slot, half, width, false⟩, s)

/-- A weight scale of NaN counts WSCALE_NAN once in each tick in which a program of the field reads it (R116). -/
def State.countNan (s : State) (c t : Nat) (halves : List Nat) : State :=
  if halves.isEmpty then s else
  let f := coreField c
  let seen := if (s.field f).nanRead.1 = s.tick.count then (s.field f).nanRead.2 else []
  let new := (halves.map fun n => 128 * t + n).filter fun n => !seen.contains n
  (s.updField f fun fs => { fs with nanRead := (s.tick.count, seen ++ new) }).addCnt c { wscale := new.length }

/-! ### MATVEC and LOGITS (R104, R119, R120) -/

/-- Narrow input groups of a row, converted (R118). -/
def State.inputs (s : State) (c v o : Nat) (f : Fmt) (n : Nat) : List (List Int × Int) × State :=
  let (bs, s) := s.source c v o (n * f.words)
  let l := (List.range n).map fun g => inputConvert f ((bs.drop (32 * f.words * g)).take (32 * f.words))
  (l.map fun x => (x.1, x.2.1), s.addCnt c (Cnt.sum (l.map fun x => x.2.2)))

/-- One output block: tiles `base` .. `base + IB − 1` against the row's inputs, in ascending order. -/
def State.outBlock (s : State) (c base : Nat) (xs : List (List Int × Int)) : List W32 × State :=
  let (acc, s) := (List.range xs.length).foldl (fun (a : (List W32 × Cnt) × State) ib =>
    let (t, s) := a.2.readTile c (base + ib)
    let x := xs.getD ib ([], 0)
    (accumTile a.1 t x.1 x.2, s.countNan c (base + ib) t.nanHalves)) ((List.replicate 64 0, {}), s)
  (acc.1, s.addCnt c acc.2)

/-- The output blocks of one run of tiles from `base` (R104). -/
def State.runBlocks (s : State) (c base nOut ib : Nat) (xs : List (List Int × Int)) : List (List W32) × State :=
  (List.range nOut).foldl (fun (a : List (List W32) × State) ob =>
    let (g, s) := a.2.outBlock c (base + ob * ib) xs
    (a.1 ++ [g], s)) ([], s)

/-- ACC: the finished result is added into DST (R120). -/
def State.accumulate (s : State) (c v : Nat) (d : W256) (out : List (List W32)) : List (List W32) × State :=
  if dAcc d then
    let (old, s) := s.groups c v (dDst d) .fp32 out.length
    let sums := (List.range out.length).map fun g => (List.range 64).map fun e =>
      F32.addSat (wordAt (old.getD g []) e) (wordAt (out.getD g []) e)
    (sums.map fun g => g.map Prod.fst,
      s.addCnt c (Cnt.clamps ((sums.map fun g => (g.map Prod.snd).foldl (· + ·) 0).foldl (· + ·) 0)))
  else (out, s)

/-- The tile base of each choice of a row: P0, or P0 + e·P2 for the expert IDs of ranks 0 .. K − 1 (R104, R106). -/
def choiceBases (d : W256) (entry : List Byte) : List Nat :=
  if bits (dP1 d) 20 20 = 1 then
    (List.range (bits (dP1 d) 19 16 + 1)).map fun j => bits (dP0 d) 21 0 + choiceId entry j * bits (dP2 d) 21 0
  else [bits (dP0 d) 21 0]

/-- The outputs of one row of a MATVEC or LOGITS. -/
def matvecOut (c : Nat) (d : W256) (indirect : Bool) (s : State) (v : Nat) : List (List W32) × State :=
  let ib := bits (dP1 d) 11 0
  let (xs, s) := s.inputs c v (dSrcA d) (dSrcFmt d) ib
  let (entry, s) := if indirect then s.source c v (dSrcB d) 3 else ([], s)
  (choiceBases d entry).foldl (fun (a : List (List W32) × State) base =>
    let (gs, s) := a.2.runBlocks c base (dCount d / ib) ib xs
    (a.1 ++ gs, s)) ([], s)

def matvecRow (c : Nat) (d : W256) (s : State) (v : Nat) : State :=
  let (out, s) := matvecOut c d (bits (dP1 d) 20 20 = 1) s v
  let (out, s) := s.accumulate c v d out
  s.putGroups c v (dDst d) out

def execMatvec (core : Nat) (d : W256) (s : State) : Result := .next (s.eachRow core d (matvecRow core d))

/-- Vocabulary of the core's placement. -/
def State.vocabOf (s : State) (c : Nat) : Nat :=
  match (s.field (coreField c)).placement with
  | none => 0
  | some p => ((s.plc p).image.map Image.vocab).getD 0

/-- LOGITS sets groups beyond the vocabulary to −∞ (R102). -/
def beyondVocab (vocab first : Nat) (out : List (List W32)) : List (List W32) :=
  (List.range out.length).map fun g => if first + 64 * g ≥ vocab then List.replicate 64 F32.negInf else out.getD g []

def logitsRow (c : Nat) (d : W256) (s : State) (v : Nat) : State :=
  let (out, s) := matvecOut c d (bits (dP1 d) 20 20 = 1) s v
  let (out, s) := s.accumulate c v d out
  s.putGroups c v (dDst d) (beyondVocab (s.vocabOf c) (bits (dP2 d) 17 0) out)

def execLogits (core : Nat) (d : W256) (s : State) : Result := .next (s.eachRow core d (logitsRow core d))

/-! ### MATVEC_T (R121) -/

/-- Output block ib of the transposed product: over ob in ascending order. -/
def State.outBlockT (s : State) (c base ib nIb : Nat) (xs : List (List Int × Int)) : List W32 × State :=
  let (acc, s) := (List.range xs.length).foldl (fun (a : (List W32 × Cnt) × State) ob =>
    let (t, s) := a.2.readTile c (base + ob * nIb + ib)
    let x := xs.getD ob ([], 0)
    (accumTileT a.1 t x.1 x.2, s.countNan c (base + ob * nIb + ib) t.nanHalves)) ((List.replicate 64 0, {}), s)
  (acc.1, s.addCnt c acc.2)

def matvecTRow (c : Nat) (d : W256) (s : State) (v : Nat) : State :=
  let ib := bits (dP1 d) 11 0
  let nOb := dCount d / ib
  let (xs, s) := s.inputs c v (dSrcA d) (dSrcFmt d) nOb
  let (out, s) := (List.range ib).foldl (fun (a : List (List W32) × State) i =>
    let (g, s) := a.2.outBlockT c (bits (dP0 d) 21 0) i ib xs
    (a.1 ++ [g], s)) ([], s)
  let (out, s) := s.accumulate c v d out
  s.putGroups c v (dDst d) out

def execMatvecT (core : Nat) (d : W256) (s : State) : Result := .next (s.eachRow core d (matvecTRow core d))

/-! ### EMBED (R122) -/

def embedRow (c : Nat) (d : W256) (s : State) (v : Nat) : State :=
  let n := dCount d
  let tok := (s.row c v).token
  let first := bits (dP1 d) 17 0
  if tok < first || tok ≥ first + bits (dP2 d) 17 0 then
    s.putGroups c v (dDst d) (List.replicate n (List.replicate 64 0))
  else
    let i := (tok - first) % 64
    let (out, s) := (List.range n).foldl (fun (a : List (List W32) × State) g =>
      let tile := bits (dP0 d) 21 0 + (tok - first) / 64 * n + g
      let (t, s) := a.2.readTile c tile
      let ws := (List.range 64).map (t.weight i)
      let s := s.countNan c tile (t.nanHalves.filter fun h => h / 2 = i)
      (a.1 ++ [ws.map Prod.fst], s.addCnt c { clamp := (ws.map Prod.snd).foldl (· + ·) 0 })) ([], s)
    s.putGroups c v (dDst d) out

def execEmbed (core : Nat) (d : W256) (s : State) : Result := .next (s.eachRow core d (embedRow core d))

/-! ### HALO (R124) -/

/-- BF16 value m of element n in factors stored element-major with rank r. -/
def factor (bs : List Byte) (r n m : Nat) : W32 := F32.ofBf16 (leNat ((bs.drop (2 * (r * n + m))).take 2))

def bf16At (bs : List Byte) (i : Nat) : W32 := F32.ofBf16 (leNat ((bs.drop (2 * i)).take 2))

/-- z_m = Σ V[n][m] × x_n in ascending n (DIR 0). -/
def haloDown (x fac : List Byte) (n r m : Nat) : W32 :=
  (List.range n).foldl (fun acc i => F32.add acc (F32.mul (factor fac r i m) (bf16At x i))) 0

/-- y_n + Σ U[n][m] × z_m in ascending m (DIR 1). -/
def haloUp (z fac : List Byte) (r n : Nat) (y : W32) : W32 :=
  F32.add y ((List.range r).foldl (fun acc m => F32.add acc (F32.mul (factor fac r n m) (bf16At z m))) 0)

def haloRow (c : Nat) (d : W256) (s : State) (v : Nat) : State :=
  let n := dCount d
  let r := bits (dP0 d) 6 0
  let (fac, s) := s.source c v (dSrcB d) ((2 * r * 64 * n + 31) / 32)
  let half := dFmt d = 5
  if bits (dP0 d) 8 8 = 0 then
    let (x, s) := s.source c v (dSrcA d) (4 * n)
    let z := (List.range r).map (haloDown x fac (64 * n) r)
    s.dest c v (dDst d) (if half then bf16Bytes z else wordsBytes z)
  else
    let (z, s) := s.source c v (dSrcA d) ((2 * r + 31) / 32)
    let (y, s) := s.groups c v (dDst d) (if half then .bf16 else .fp32) n
    let out := (List.range (64 * n)).map fun i => haloUp z fac r i (wordAt y.flatten i)
    s.dest c v (dDst d) (if half then bf16Bytes out else wordsBytes out)

def execHalo (core : Nat) (d : W256) (s : State) : Result := .next (s.eachRow core d (haloRow core d))

end Sys2Proof.Machine
end

