-- ==== Sys2Proof/Machine/Attention.lean ====
section
/-! DEFINITION. Attention over the KV cache: the KV block (R177-R179), the block map (R188, R189), and SCORE, SOFTMAX_ONLINE,
VALUE and KV_APPEND (R180-R184, R107). -/

namespace Sys2Proof.Machine

/-- Head dimension divided by 64, and code words per group (R176). -/
def kvTb (p0 : Nat) : Nat := 2 ^ bits p0 9 8
def kvOmega (p0 : Nat) : Nat := bits p0 10 10 + 1
/-- Words U of a head sub-block (R177). -/
def headWords (tb w : Nat) : Nat := 128 * tb * w + 8 * tb

/-- The stage record of the stage a core runs (R152). -/
def State.stageRec (s : State) (c : Nat) : Option StageRec :=
  (s.field (coreField c)).placement.bind fun p => (s.plc p).image.bind fun i => i.stages[(s.core c).stage]?

/-- KV heads per core: KV_WORDS = 2·H_c·t_b·ω (R176); one where no image record stands. -/
def State.kvHeadsOf (s : State) (c tb w : Nat) : Nat :=
  match s.stageRec c with
  | some r => r.kvWords / (2 * tb * w)
  | none => 1

/-- Words B_w of a KV block (R179). -/
def blockWords (heads tb w : Nat) : Nat := heads * headWords tb w

/-! ### Block map (R188) -/

structure MapHead where
  split : Nat
  share : Nat
  entries : Nat
  prefixLen : Nat
deriving DecidableEq, Repr

def mapHead (w : List Byte) : MapHead :=
  ⟨leNat (w.take 2), leNat ((w.drop 2).take 2), leNat ((w.drop 4).take 4), leNat ((w.drop 8).take 4)⟩

/-- Header of row v's block map, read by the program. -/
def State.readMapHead (s : State) (c v : Nat) : MapHead × State :=
  let (w, s) := s.readWord c v (s.row c v).blockMap
  (mapHead w, s)

/-- Entry n of row v's block map: address, SHARED, VALID. -/
def State.readMapEntry (s : State) (c v n : Nat) : (Nat × Bool × Bool) × State :=
  let (w, s) := s.readWord c v ((s.row c v).blockMap + 1 + n / 8)
  let e := leNat ((w.drop (n % 8 * 4)).take 4)
  ((bits e 19 0, bits e 30 30 = 1, bits e 31 31 = 1), s)

/-- Tag of the segment of a linear address (R72). -/
def CoreSt.tag (k : CoreSt) (seg : Nat) : Nat := k.tags.getD seg 0xF

/-- A valid entry lies inside the row's private region, or inside a prefix page slot tagged with the row's airspace (R189). -/
def State.entryOk (s : State) (c v addr len : Nat) : Bool :=
  let r := s.row c v
  let k := s.core c
  (decide (r.kvBase ≤ addr) && decide (addr + len ≤ r.kvBase + r.kvSize))
    || ((s.asp r.airspace).carvings.any fun cv => cv.core == c && cv.pageSlots.any fun p =>
          decide (p.1 ≤ addr) && decide (addr + len ≤ p.1 + 4 * len))
        && ((List.range len).all fun i => k.tag (segOf (addr + i)) == r.airspace)

/-- The row's entry fails its check: dropped, and counted ADDR_FAULT (R189). -/
def State.entryFault (s : State) (c v : Nat) : State :=
  (s.bump (Reg.Seq.ADDR_FAULT (coreField c) (coreNum c))).dropRow c v

/-- The address of entry e if it is to be read: VALID, below ENTRIES, and in place (R182, R189). -/
def State.blockAddr (s : State) (c v e len : Nat) (h : MapHead) : Option Nat × State :=
  if e ≥ h.entries then (none, s) else
  let ((addr, _, valid), s) := s.readMapEntry c v e
  if !valid then (none, s)
  else if s.entryOk c v addr len then (some addr, s)
  else (none, s.entryFault c v)

/-- Position of entry e, slot i (R182). -/
def kvPosition (h : MapHead) (e i : Nat) : Nat := 256 * (h.split * (e / 4) + h.share) + 64 * (e % 4) + i

/-! ### KV elements (R177, R178) -/

/-- The MXFP4 codebook of R117. -/
def mxfp4Book : List Int := [0, 8, 16, 24, 32, 48, 64, 96, 0, -8, -16, -24, -32, -48, -64, -96]

/-- KV integer of element j of a code group of ω words. -/
def kvInt (w : Nat) (group : List Byte) (j : Nat) : Int :=
  if w = 1 then
    let b := nthByte group (j / 2)
    mxfp4Book.getD (if j % 2 = 0 then b % 16 else b / 16) 0
  else (group.getD j 0).toInt

/-- A head sub-block read whole for row v. -/
def State.readHead (s : State) (c v addr tb w : Nat) : List Byte × State := s.readWords c v addr (headWords tb w)

/-- Code group (position i, group m) of keys or values in a head sub-block. -/
def headCodes (sub : List Byte) (tb w : Nat) (isV : Bool) (i m : Nat) : List Byte :=
  (sub.drop (32 * ((if isV then 64 * tb * w else 0) + (i * tb + m) * w))).take (32 * w)

/-- Scale byte n of position i of keys or values. -/
def headScale (sub : List Byte) (tb w : Nat) (isV : Bool) (i n : Nat) : Nat :=
  nthByte sub (32 * 128 * tb * w + (if isV then 128 * tb else 0) + i * 2 * tb + n)

/-- Scale bytes of 0xFF among the keys or values of a sub-block (R178). -/
def headNans (sub : List Byte) (tb w : Nat) (isV : Bool) : Nat :=
  ((List.range (128 * tb)).filter fun n => headScale sub tb w isV 0 n = 255).length

/-! ### SCORE (R182) -/

/-- First entry of a windowed operation (R182). -/
def firstEntry (windowed : Bool) (window pos : Nat) : Nat := if windowed then (pos + 1 - window) / 64 else 0

/-- Whether a position is masked (R107). -/
def maskedPos (r : Row) (windowed : Bool) (window p : Nat) : Bool :=
  decide (p ≥ r.kvFill + 1) || (windowed && decide (p + window < r.pos + 1))

/-- The score of one head at one position. -/
def scoreOf (sub : List Byte) (tb w : Nat) (q : List (List Int × Int)) (scale : W32) (i : Nat) : W32 × Nat :=
  let (acc, n) := (List.range tb).foldl (fun (a : W32 × Nat) m =>
    let x := q.getD m ([], 0)
    let codes := headCodes sub tb w false i m
    let part (h : Nat) : W32 × Nat :=
      let sc := headScale sub tb w false i (2 * m + h)
      if sc = 255 then (0, 0) else
      scaled ((List.range 32).foldl (fun p j => p + kvInt w codes (32 * h + j) * x.1.getD (32 * h + j) 0) 0)
        ((sc : Int) - 131 + x.2)
    let (p0, c0) := part 0
    let (p1, c1) := part 1
    (F32.add a.1 (F32.add p0 p1), a.2 + c0 + c1)) (0, 0)
  (F32.mul acc scale, n)

/-- The scores of block b for every head, in head order: G groups of 64. -/
def scoreBlock (c : Nat) (d : W256) (v : Nat) (h : MapHead) (qs : List (List (List Int × Int))) (s : State) (b : Nat) :
    List (List W32) × State :=
  let p0 := dP0 d
  let tb := kvTb p0
  let w := kvOmega p0
  let r := s.row c v
  let windowed := bits p0 11 11 = 1
  let window := bits (dP1 d) 17 0
  let e := firstEntry windowed window r.pos + b
  let len := blockWords (s.kvHeadsOf c tb w) tb w
  match s.blockAddr c v e len h with
  | (none, s) => (List.replicate qs.length (List.replicate 64 F32.negInf), s)
  | (some a, s) =>
    let (sub, s) := s.readHead c v (a + bits (dSrcB d) 19 0) tb w
    let scale : W32 := BitVec.ofNat 32 (dP2 d)
    let all := qs.map fun q => (List.range 64).map fun i =>
      if maskedPos r windowed window (kvPosition h e i) then (F32.negInf, 0) else scoreOf sub tb w q scale i
    (all.map fun g => g.map Prod.fst,
      s.addCnt c { nanIn := headNans sub tb w false, clamp := ((all.flatten).map Prod.snd).foldl (· + ·) 0 })

def scoreRow (c : Nat) (d : W256) (s : State) (v : Nat) : State :=
  let p0 := dP0 d
  let tb := kvTb p0
  let g := bits p0 4 0 + 1
  let (q, s) := s.inputs c v (dSrcA d) (dSrcFmt d) (g * tb)
  let qs := (List.range g).map fun i => (q.drop (i * tb)).take tb
  let (h, s) := s.readMapHead c v
  let (out, s) := (List.range (dCount d)).foldl (fun (a : List (List W32) × State) b =>
    let (gs, s) := scoreBlock c d v h qs a.2 b
    (a.1 ++ gs, s)) ([], s)
  s.putGroups c v (dDst d) out

def execScore (core : Nat) (d : W256) (s : State) : Result := .next (s.eachRow core d (scoreRow core d))

/-! ### SOFTMAX_ONLINE (R183) -/

/-- Weights of one head over its score blocks: narrowed groups, m, l and counts. -/
def softmaxHead (f : Fmt) (blocks : List (List W32)) : List (List Byte) × W32 × W32 × Cnt :=
  let m := (blocks.flatten.filter fun x => x != F32.negInf).foldl (fun a x => if F32.lt a x || F32.isNan x then x else a)
    F32.negInf
  let narrow := blocks.map fun g => quantGroup f
    (g.map fun x => if m = F32.negInf || x = F32.negInf then 0 else F32.exp (F32.sub x m)) none
  let decoded := narrow.map fun n => groupRead f n.1
  let l := if m = F32.negInf then 0 else rowSum (decoded.map Prod.fst)
  (narrow.map Prod.fst, m, l, Cnt.sum (narrow.map Prod.snd))

def softmaxRow (c : Nat) (d : W256) (s : State) (v : Nat) : State :=
  let n := dCount d
  let g := bits (dP1 d) 4 0 + 1
  let f := dDstFmt d
  let (x, s) := s.groups c v (dSrcA d) .fp32 (n * g)
  let heads := (List.range g).map fun h => softmaxHead f ((List.range n).map fun b => x.getD (b * g + h) [])
  let s := s.addCnt c (Cnt.sum (heads.map fun h => h.2.2.2))
  let s := s.dest c v (dDst d) ((List.range n).flatMap fun b => heads.flatMap fun h => h.1.getD b [])
  s.dest c v (dP0 d) (heads.flatMap fun h => leBytes 4 h.2.1.toNat ++ leBytes 4 h.2.2.1.toNat)

def execSoftmaxOnline (core : Nat) (d : W256) (s : State) : Result := .next (s.eachRow core d (softmaxRow core d))

/-! ### VALUE (R184) -/

/-- One output element's sum over a block: half 0 first. -/
def valueTerm (sub : List Byte) (tb w m j : Nat) (xs : List Int) (k : Int) : W32 × Nat :=
  let half (q : Nat) : W32 × Nat := (List.range 32).foldl (fun (a : W32 × Nat) n =>
    let i := 32 * q + n
    let sc := headScale sub tb w true i (2 * m + j / 32)
    let (t, cl) := if sc = 255 then (0, 0) else
      scaled (kvInt w (headCodes sub tb w true i m) j * xs.getD i 0) ((sc : Int) - 131 + k)
    (F32.add a.1 t, a.2 + cl)) (0, 0)
  let (s0, c0) := half 0
  let (s1, c1) := half 1
  (F32.add s0 s1, c0 + c1)

/-- The sums of all heads' outputs after block b. -/
def valueBlock (c : Nat) (d : W256) (v g : Nat) (h : MapHead) (ws : List (List Int × Int)) (acc : List (List W32) × State)
    (b : Nat) : List (List W32) × State :=
  let p0 := dP0 d
  let tb := kvTb p0
  let w := kvOmega p0
  let s := acc.2
  let r := s.row c v
  let windowed := bits p0 11 11 = 1
  -- P1 is unused by VALUE: the window is that of the stage record
  let window := ((s.stageRec c).map StageRec.window).getD 0
  let e := firstEntry windowed window r.pos + b
  match s.blockAddr c v e (blockWords (s.kvHeadsOf c tb w) tb w) h with
  | (none, s) => (acc.1, s)
  | (some a, s) =>
    let (sub, s) := s.readHead c v (a + bits (dSrcB d) 19 0) tb w
    let out := (List.range (g * tb)).map fun n =>
      let x := ws.getD (b * g + n / tb) ([], 0)
      (List.range 64).map fun j =>
        let (t, cl) := valueTerm sub tb w (n % tb) j x.1 x.2
        (F32.add (wordAt (acc.1.getD n []) j) t, cl)
    (out.map fun l => l.map Prod.fst,
      s.addCnt c { nanIn := headNans sub tb w true, clamp := (out.flatten.map Prod.snd).foldl (· + ·) 0 })

def valueRow (c : Nat) (d : W256) (s : State) (v : Nat) : State :=
  let p0 := dP0 d
  let tb := kvTb p0
  let g := bits p0 4 0 + 1
  let n := dCount d
  let (ws, s) := s.inputs c v (dSrcA d) (dSrcFmt d) (n * g)
  let (h, s) := s.readMapHead c v
  let (out, s) := (List.range n).foldl (valueBlock c d v g h ws) (List.replicate (g * tb) (List.replicate 64 0), s)
  s.putGroups c v (dDst d) out

def execValue (core : Nat) (d : W256) (s : State) : Result := .next (s.eachRow core d (valueRow core d))

/-! ### KV_APPEND (R180, R181) -/

/-- One 8-bit KV code: ulp 1/16, saturating to ±127 (R181), as a byte. -/
def kvCode8 (x : W32) (sh : Int) (u : Option Nat) : Nat × Nat :=
  match F32.val x with
  | .nan => (0, 0)
  | .inf n => (if n then 129 else 127, 1)
  | .fin n m e =>
    let f := e + sh + 4
    -- y · 16 = m · 2^f against 127.5
    let (a, b) := if f ≥ 0 then (m * 2 ^ f.toNat, 1) else (m, 2 ^ (-f).toNat)
    let (mag, sat) := if 2 * a ≥ 255 * b then (127, 1) else
      let q := a / b
      let r := a % b
      let up := match u with
        | some u => decide (r * 65536 / b + u ≥ 65536)
        | none => decide (2 * r > b) || (decide (2 * r = b) && q % 2 = 1)
      (min (if up then q + 1 else q) 127, 0)
    (if n && mag ≠ 0 then 256 - mag else mag, sat)

/-- One group of 64 source elements as codes and two scale bytes (R181). -/
def kvGroup (w : Nat) (xs : List W32) (us : Option (List Nat)) : List Byte × List Nat × Cnt :=
  let nans := (xs.filter F32.isNan).length
  let (x0, c0) := blockScale 2 (blockAmax (xs.take 32))
  let (x1, c1) := blockScale 2 (blockAmax (xs.drop 32))
  let shOf (e : Nat) : Int := 127 - ((if e < 32 then x0 else x1 : Nat) : Int)
  let u (e : Nat) : Option Nat := us.map fun l => l.getD e 0
  if w = 1 then
    let codes := (List.range 64).map fun e => narrowElem .mxfp4 (wordAt xs e) (shOf e) (u e)
    let sat := ((List.range 64).filter fun e => saturates .mxfp4 (wordAt xs e) (shOf e)).length
    (packCodes .mxfp4 codes, [x0, x1], { nanIn := nans, clamp := c0 + c1, kvSat := sat })
  else
    let codes := (List.range 64).map fun e => kvCode8 (wordAt xs e) (shOf e) (u e)
    (codes.map fun k => BitVec.ofNat 8 k.1, [x0, x1],
      { nanIn := nans, clamp := c0 + c1, kvSat := (codes.map Prod.snd).foldl (· + ·) 0 })

/-- Store bytes inside one word of a core's own scratchpad, leaving its other bytes. -/
def State.patchWord (s : State) (c lin off : Nat) (bs : List Byte) : State :=
  let (c', lin') := s.place c lin
  if (s.core c').bankUp (lin' / 57344) then
    s.updCore c' fun k => { k with mem := k.mem.writeBytes (32 * lin' + off) bs, scErr := k.scErr.del lin' }
  else s.bump (Reg.Core.BANK_OFF (coreField c) (coreNum c))

/-- Write keys or values of head h, group m at position i of a head sub-block starting at `sub` (R177). -/
def State.putKv (s : State) (c sub tb w : Nat) (isV : Bool) (i m : Nat) (codes : List Byte) (scales : List Nat) : State :=
  let s := s.writeWords c (sub + (if isV then 64 * tb * w else 0) + (i * tb + m) * w) w codes
  [0, 1].foldl (fun s n =>
    let byte := (if isV then 128 * tb else 0) + i * 2 * tb + 2 * m + n
    s.patchWord c (sub + 128 * tb * w + byte / 32) (byte % 32) (leBytes 1 (scales.getD n 0))) s

/-- Keys and values of one head appended at position i (R180 step 4). -/
def appendHead (c : Nat) (d : W256) (v addr i : Nat) (ks vs : List (List W32)) (s : State) (h : Nat) : State :=
  let tb := kvTb (dP0 d)
  let w := kvOmega (dP0 d)
  let sub := addr + bits (dDst d) 19 0 + h * headWords tb w
  (List.range tb).foldl (fun s m =>
    let us (g : Nat) : Option (List Nat) := if dSr d then some (s.random c v g (dP1 d)) else none
    let (kc, ksc, n1) := kvGroup w (ks.getD (h * tb + m) []) (us (2 * tb * h + m))
    let (vc, vsc, n2) := kvGroup w (vs.getD (h * tb + m) []) (us (2 * tb * h + tb + m))
    let s := s.addCnt c (n1.add n2)
    let s := s.putKv c sub tb w false i m kc ksc
    s.putKv c sub tb w true i m vc vsc) s

def kvAppendRow (c : Nat) (d : W256) (s : State) (v : Nat) : State :=
  let tb := kvTb (dP0 d)
  let w := kvOmega (dP0 d)
  let p := (s.row c v).kvFill
  let (h, s) := s.readMapHead c v
  if p / 256 % h.split ≠ h.share then s else
  let e := 4 * (p / 256 / h.split) + p / 64 % 4
  let ((addr, shared, valid), s) := s.readMapEntry c v e
  if valid && !shared && s.entryOk c v addr (blockWords (s.kvHeadsOf c tb w) tb w) then
    let (ks, s) := s.groups c v (dSrcA d) .fp32 (dCount d * tb)
    let (vs, s) := s.groups c v (dSrcB d) .fp32 (dCount d * tb)
    (List.range (dCount d)).foldl (appendHead c d v addr (p % 64) ks vs) s
  else s.entryFault c v

def execKvAppend (core : Nat) (d : W256) (s : State) : Result := .next (s.eachRow core d (kvAppendRow core d))

end Sys2Proof.Machine
end

