-- ==== Sys2Proof/Machine/Moves.lean ====
section
/-! DEFINITION. The moves: SEND, RECV, REDUCE, GATHER, SCATTER, DISPATCH, COPY and CLOUD_MOVE (R98, R102, R103, R105, R108, R185),
and the packets they put on the core's fabric port (R281, R294). -/

namespace Sys2Proof.Machine

/-! ### Packets from a core (R294) -/

/-- The one tag of a local range, or none where its segments differ (R294). -/
def CoreSt.rangeTag (k : CoreSt) (lin len : Nat) : Option Nat :=
  let first := segOf lin
  let last := segOf (lin + (len - 1))
  let tags := (List.range (last - first + 1)).map fun i => k.tag (first + i)
  match tags with
  | [] => none
  | t :: ts => if ts.all (· == t) then some t else none

/-- Placement of a core's field, as its network interface stamps it. -/
def State.placementOf (s : State) (c : Nat) : Nat := (s.field (coreField c)).placement.getD 0

/-- A route for words a core sends: WRITE on Jetstream or Cloud (R284). -/
structure Target where
  dest : Nat
  addr : Nat
  vc : Nat
  mcast : Bool
deriving DecidableEq, Repr

/-- Put n words on core c's fabric port as WRITE packets of at most 64 flits each, stamped with a tag and the row-drop bit (R281, R294). -/
def State.sendBytes (s : State) (c : Nat) (t : Target) (tag n : Nat) (drop : Bool) (bs : List Byte) : State :=
  (List.range ((n + 63) / 64)).foldl (fun s i =>
    let r : Route :=
      { dest := t.dest, addr := t.addr + 64 * i, vc := t.vc, tag := tag, placement := s.placementOf c, mcast := t.mcast,
        drop := drop, ackreq := false, kind := 0, len := 0, src := c }
    s.emit (.localPacket c (packetOf r ((bs.drop (2048 * i)).take 2048)))) s

/-- A range whose segments have different tags is not sent: its row is dropped, and ROUTE_FILTER counted (R294). -/
def State.filterSource (s : State) (c v : Nat) : State := (s.dropRow c v).bump (Reg.Router.ROUTE_FILTER (coreField c))

/-- Send n words of core c's scratchpad from `lin`. A row found uncorrectable while it is read travels with its drop bit. -/
def State.sendWords (s : State) (c v : Nat) (t : Target) (lin n : Nat) : State :=
  match (s.core c).rangeTag lin n with
  | none => s.filterSource c v
  | some tag =>
    let (bs, s) := s.readWords c v lin n
    s.sendBytes c t tag n (s.row c v).drop bs

/-- READ packets for n words at a global address, replies to core c's local word `reply` (R282, R294). -/
def State.readRemote (s : State) (c v vc global reply n : Nat) : State :=
  match (s.core c).rangeTag reply n with
  | none => s.filterSource c v
  | some tag =>
    (List.range ((n + 63) / 64)).foldl (fun s i =>
      let words := min 64 (n - 64 * i)
      let r : Route :=
        { dest := bits global 31 20, addr := bits global 19 0 + 64 * i, vc := vc, tag := tag, placement := s.placementOf c,
          mcast := false, drop := false, ackreq := false, kind := 1, len := 0, src := c }
      let s := s.updCore c fun k =>
        { k with remote := k.remote ++ [⟨r.dest, r.addr, words, localOf (reply + 64 * i)⟩] }
      s.emit (.localPacket c (packetOf r (leBytes 4 (localOf (reply + 64 * i)) ++ leBytes 2 words ++ List.replicate 26 0)))) s

/-! ### SEND (R98, R102) -/

/-- The target of a SEND: the multicast entry 1,024p + g (R291), or the global address P0. -/
def State.sendTarget (s : State) (c : Nat) (d : W256) : Target :=
  let mc := bits (dP1 d) 17 17 = 1
  { dest := if mc then 1024 * s.placementOf c + bits (dP2 d) 11 0 else bits (dP0 d) 31 20
    addr := bits (dP0 d) 19 0, vc := if bits (dP1 d) 16 16 = 1 then 2 else 1, mcast := mc }

/-- One row of a SEND: row v's words stand v × COUNT words after the target address. -/
def sendRow (c : Nat) (d : W256) (s : State) (v : Nat) : State :=
  let n := dCount d
  let t := s.sendTarget c d
  match s.operand c v (dSrcA d) n with
  | (some a, s) => s.sendWords c v { t with addr := t.addr + v * n } a n
  | (none, s) => s

/-- A SEND that transfers now. -/
def sendNow (c : Nat) (d : W256) (s : State) : State := s.eachRow c d (sendRow c d)

/-- SEND: at once, or into the exchange queue of 32 entries; a full queue drops its rows and counts (R98). -/
def opSend (c : Nat) (d : W256) (s : State) : State :=
  if dExch d then
    if (s.core c).seq.exch.length < 32 then
      s.updCore c fun k => { k with seq := { k.seq with exch := k.seq.exch ++ [(k.seq.prog, d)] } }
    else
      let s := s.dropAll c (s.activeRows c d)
      let s := s.updCore c fun k => { k with seq := { k.seq with exchOverflow := true } }
      s.bump (Reg.Seq.RECV_MISS (coreField c) (coreNum c))
  else sendNow c d s

def execSend (core : Nat) (d : W256) (s : State) : Result := .next (opSend core d s)

/-! ### Words that arrive: RECV, GATHER and REDUCE -/

/-- The operand and the words per row that an operation waits for: RECV its buffer, GATHER its sources' pieces, REDUCE its child area. -/
def awaitedOperand (d : W256) : Nat × Nat :=
  match dOp d with
  | 0x22 => (dP1 d, 8 * dCount d * bits (dP0 d) 15 12)
  | 0x23 => (dDst d, dCount d * (bits (dP1 d) 5 0 + 1))
  | _ => (dDst d, dCount d)

/-- The words a waiting operation needs for row v; a faulty range awaits nothing (R89). -/
def awaited (d : W256) (r : Row) (v : Nat) : List Range :=
  let o := awaitedOperand d
  match resolve o.1 r v with
  | some a => if o.2 = 0 || faulty o.1 r a o.2 then [] else [⟨a, o.2⟩]
  | none => []

/-- The check of R89 on the range that row v waits for. -/
def State.checkAwaited (s : State) (c : Nat) (d : W256) (v : Nat) : State :=
  let o := awaitedOperand d
  if o.2 = 0 then s else (s.operand c v o.1 o.2).2

def rangeWords (l : List Range) : List Nat := l.flatMap fun r => (List.range r.len).map fun i => r.lo + i

/-- The core whose arrivals a program waits for: in an absorption area a deputy's words are those sent to the failed core (R79, R80). -/
def State.inbox (s : State) (c : Nat) : Nat :=
  let k := s.core c
  match (if k.seq.prog = 2 || k.seq.prog = 3 then k.deputyOf else none) with
  | none => c
  | some dead => 32 * coreField c + dead

/-- Words of row v of a waiting operation that have not arrived. -/
def State.missing (s : State) (c : Nat) (d : W256) (v : Nat) : List Nat :=
  (rangeWords (awaited d (s.row c v) v)).filter fun w => !((s.core (s.inbox c)).seq.arrived.any fun e => e.1 = w)

/-- A word that carried the row-drop bit drops the row it arrived for (R92). -/
def State.takeDrops (s : State) (c : Nat) (d : W256) (v : Nat) : State :=
  if (rangeWords (awaited d (s.row c v) v)).any (s.core (s.inbox c)).seq.dropWords.contains then s.dropRow c v else s

/-- A row's words are consumed. -/
def State.consumeRow (s : State) (c : Nat) (d : W256) (v : Nat) : State :=
  let ws := rangeWords (awaited d (s.row c v) v)
  s.updCore (s.inbox c) fun k => { k with seq := { k.seq with
    arrived := k.seq.arrived.filter fun e => !ws.contains e.1
    dropWords := k.seq.dropWords.filter fun w => !ws.contains w } }

/-- The cycle in which the last word of a descriptor's rows arrived. -/
def State.lastArrival (s : State) (c : Nat) (d : W256) : Nat :=
  (s.activeRows c d).foldl (fun t v =>
    let ws := rangeWords (awaited d (s.row c v) v)
    ((s.core (s.inbox c)).seq.arrived.filter fun e => ws.contains e.1).foldl (fun t e => max t e.2) t) 0

/-! ### REDUCE (R105, R185) -/

/-- The log-sum-exp merge of one head's records: t_b groups of o, then a group holding m and l (R185). -/
def lseMerge (a b : List (List W32)) : List (List W32) :=
  let n := a.length - 1
  let sa := a.getD n []
  let sb := b.getD n []
  let ma := wordAt sa 0
  let mb := wordAt sb 0
  let m := F32.maxW ma mb
  let zero : List (List W32) := List.replicate n (List.replicate 64 0)
  if m = F32.negInf then zero ++ [F32.negInf :: List.replicate 63 0]
  else
    let al := if ma = F32.negInf then 0 else F32.exp (F32.sub ma m)
    let be := if mb = F32.negInf then 0 else F32.exp (F32.sub mb m)
    let mix (x y : W32) : W32 := F32.add (F32.mul x al) (F32.mul y be)
    (List.range n).map (fun g => (List.range 64).map fun e => mix (wordAt (a.getD g []) e) (wordAt (b.getD g []) e))
      ++ [[m, mix (wordAt sa 1) (wordAt sb 1)] ++ List.replicate 62 0]

/-- acc ⊕ child over COUNT groups: SUM, MAX, or the merge of records of `per` groups per head. -/
def combineGroups (mode per : Nat) (a b : List (List W32)) : List (List W32) :=
  let each (g : W32 → W32 → W32) := (List.range a.length).map fun i => (List.range 64).map fun e =>
    g (wordAt (a.getD i []) e) (wordAt (b.getD i []) e)
  match mode with
  | 0 => each F32.add
  | 1 => each F32.maxW
  | _ => (List.range (a.length / per)).flatMap fun h => lseMerge ((a.drop (h * per)).take per) ((b.drop (h * per)).take per)

/-- t_b + 1 groups per head of an LSE record: of the core's own attention (R185), from its KV_APPEND or SCORE descriptors. -/
def State.lseGroups (s : State) (c : Nat) : Nat :=
  let k := s.core c
  let d := ((List.range k.decode.len).map fun i => k.code.getD (k.decode.base + i) 0).find? fun d => dOp d = 0x40 || dOp d = 0x42
  match d with
  | some d => kvTb (dP0 d) + 1
  | none => 2

/-- A missing child's partial: zero, −∞ under MAX (R105); a merge record with no maximum under LSE. -/
def missingChild (mode per n : Nat) : List (List W32) :=
  match mode with
  | 0 => List.replicate n (List.replicate 64 0)
  | 1 => List.replicate n (List.replicate 64 F32.negInf)
  | _ => (List.range n).map fun i => if i % per = per - 1 then F32.negInf :: List.replicate 63 0 else List.replicate 64 0

/-- The REDUCE descriptors of a core's decode and prefill programs. -/
def CoreSt.reduces (k : CoreSt) : List W256 :=
  ([k.decode, k.prefill].flatMap fun p => (List.range p.len).map fun i => k.code.getD (p.base + i) 0).filter
    fun d => dOp d = 0x22

/-- Where a child's partial of n groups goes in its parent: the parent's child area (its own REDUCE of the same COUNT), at the
child's place among the cores that name the parent, in ascending core ID (R105). -/
def State.childSlot (s : State) (parent c v n : Nat) : Nat :=
  let same (d : W256) : Bool := dCount d == n
  let p := (s.field (coreField c)).placement
  let kids := (s.cores.filter fun e => (s.field (coreField e.1)).placement == p && e.2.reduces.any fun d => same d && bits (dP0 d) 11 0 == parent).map
    fun e => s.nominalCore p e.1
  let area := ((s.core (s.realCore p parent)).reduces.find? fun d => same d && bits (dP0 d) 15 12 != 0).bind fun d =>
    resolve (dP1 d) (s.row parent v) v
  area.getD 0 + 8 * n * (kids.filter fun k => decide (k < s.nominalCore p c)).length

/-- The multicast group g of a core's placement, as its plan declares it (R291). -/
def State.mcastGroup (s : State) (c g : Nat) : Option (Nat × List Nat) :=
  match ((s.field (coreField c)).placement).bind fun p => (s.plc p).image with
  | none => none
  | some img => (Config.planGroups img.headerHash).findSome? fun e => if e.1 = g then some e.2 else none

/-- Where a member of a REDUCE's group receives the broadcast: the address of its own DST (R105). -/
def State.memberDst (s : State) (c v n m : Nat) : Option Nat :=
  ((s.core (s.realCore (s.field (coreField c)).placement m)).reduces.find? fun d => dCount d == n).bind fun d => resolve (dDst d) (s.row c v) v

/-- BCAST: the root multicasts its DST. Where every member names the same address one multicast carries it; otherwise each member is sent its
own copy (R105, R291; log entry 129). -/
def State.broadcast (s : State) (c v g a n : Nat) : State :=
  let members := match s.mcastGroup c g with
    | none => []
    | some e => e.2.filter fun m => decide (m ≠ s.nominalCore (s.field (coreField c)).placement c)
  if members.all fun m => (s.memberDst c v (n / 8) m).getD a = a then s.sendWords c v ⟨1024 * s.placementOf c + g, localOf a, 1, true⟩ a n
  else members.foldl (fun s m => s.sendWords c v ⟨m, localOf ((s.memberDst c v (n / 8) m).getD a), 1, false⟩ a n) s

/-- One row of a REDUCE whose children have arrived or are given up: acc is formed in child order; the root writes it to DST, another node
sends it to its parent (R105), with the tag of its own partial's range (R294). -/
def reduceRow (c : Nat) (d : W256) (s : State) (v : Nat) : State :=
  let n := dCount d
  let mode := bits (dP0 d) 17 16
  let children := bits (dP0 d) 15 12
  let parent := bits (dP0 d) 11 0
  let per := s.lseGroups c
  let here := awaited d (s.row c v) v
  let gone := s.missing c d v
  let (own, s) := s.groups c v (dSrcA d) .fp32 n
  let (acc, s) := (List.range children).foldl (fun (a : List (List W32) × State) i =>
    let lo := ((here.head?).map Range.lo).getD 0 + 8 * n * i
    let late := here.isEmpty || (List.range (8 * n)).any fun w => gone.contains (lo + w)
    let (child, s) := if late then (missingChild mode per n, a.2) else
      let (bs, s) := a.2.readWords c v lo (8 * n)
      let (gs, cnt) := groupsOf .fp32 n bs
      (gs, s.addCnt c cnt)
    (combineGroups mode per a.1 child, s)) (own, s)
  if parent ≠ 0xFFF then
    match (resolve (dSrcA d) (s.row c v) v).bind fun a => (s.core c).rangeTag a (8 * n) with
    | none => s.filterSource c v
    | some tag => s.sendBytes c ⟨parent, localOf (s.childSlot parent c v n), 1, false⟩ tag (8 * n) (s.row c v).drop (acc.flatMap wordsBytes)
  else
    let s := s.putGroups c v (dDst d) acc
    match resolve (dDst d) (s.row c v) v with
    | none => s
    | some a => if bits (dP0 d) 18 18 = 1 && !faulty (dDst d) (s.row c v) a (8 * n) then s.broadcast c v (bits (dP2 d) 11 0) a (8 * n) else s

/-! ### Completion of a wait -/

/-- Cycles from the last arrival to the result of a REDUCE: N for each child and 4 of the vector unit; a node that sends adds its 4·N cycles of
sending and the passage to its parent (R109). -/
def State.reduceTail (s : State) (c : Nat) (d : W256) : Nat :=
  let n := dCount d
  let children := bits (dP0 d) 15 12
  let parent := bits (dP0 d) 11 0
  (if children = 0 then 0 else n * children + 4) + (if parent ≠ 0xFFF then 4 * n + s.fabLatency c parent else 0)

/-- The operation's rows once its words are there, or given up at cycle `done`: rows that arrived with the drop bit are dropped, a REDUCE is
computed, the words are consumed; the operation has completed. -/
def State.completeWait (s : State) (c : Nat) (w : RecvWait) (done : Nat) : State :=
  let d := w.d
  let s := s.eachRow c d fun s v => s.takeDrops c d v
  let ready := if dOp d = 0x22 then done + s.reduceTail c d else done
  let s := s.updCore c fun k => { k with seq := { k.seq with wrRank := 4, wrCycle := ready - 1 } }
  let s := if dOp d = 0x22 then s.eachRow c d (reduceRow c d) else s
  let ws := (s.activeRows c d).flatMap fun v => awaited d (s.row c v) v
  let own := if dOp d = 0x22 then (s.activeRows c d).flatMap fun v => ((resolve (dDst d) (s.row c v) v).map fun a => (⟨a, 8 * dCount d⟩ : Range)).toList else ws
  let s := s.eachRow c d fun s v => s.consumeRow c d v
  s.updCore c fun k => { k with seq := { k.seq with
    waits := k.seq.waits.filter (· != w)
    flights := k.seq.flights ++ [⟨4, w.start, ready, ready, [], own⟩] } }

/-- Every word of every active row has arrived. -/
def State.allArrived (s : State) (c : Nat) (d : W256) : Bool := (s.activeRows c d).all fun v => (s.missing c d v).isEmpty

/-- Complete at once, or wait until the deadline (R102, R109). -/
def State.awaitWords (s : State) (c : Nat) (d : W256) (deadline : Nat) : State :=
  let s := s.eachRow c d fun s v => s.checkAwaited c d v
  let w : RecvWait := ⟨d, deadline, (s.core c).seq.cycle - 1⟩
  if s.allArrived c d then s.completeWait c w (max w.start (s.lastArrival c d))
  else s.updCore c fun k => { k with seq := { k.seq with waits := k.seq.waits ++ [w] } }

/-- RECV (R102). -/
def execRecv (core : Nat) (d : W256) (s : State) : Result := .next (s.awaitWords core d (bits (dP0 d) 15 0))

/-- REDUCE (R105); the descriptor gives its children's deadline no field. -/
def execReduce (core : Nat) (d : W256) (s : State) : Result := .next (s.awaitWords core d 0xFFFF)

/-! ### GATHER, SCATTER and DISPATCH -/

/-- Global addresses of a list operand: 4 bytes each. -/
def addressList (bs : List Byte) (n : Nat) : List Nat := (List.range n).map fun i => leNat ((bs.drop (4 * i)).take 4)

def gatherRow (c : Nat) (d : W256) (s : State) (v : Nat) : State :=
  let n := dCount d
  let k := bits (dP1 d) 5 0 + 1
  let (bs, s) := s.source c v (dP0 d) ((4 * k + 31) / 32)
  match s.operand c v (dDst d) (n * k) with
  | (none, s) => s
  | (some a, s) =>
    (List.range k).foldl (fun s i => s.readRemote c v 1 ((addressList bs k).getD i 0) (a + n * i) n) s

/-- GATHER reads COUNT words from each listed address into consecutive pieces of DST, and waits for the last. -/
def execGather (core : Nat) (d : W256) (s : State) : Result :=
  .next ((s.eachRow core d (gatherRow core d)).awaitWords core d 0xFFFF)

def scatterRow (c : Nat) (d : W256) (s : State) (v : Nat) : State :=
  let n := dCount d
  let k := bits (dP1 d) 5 0 + 1
  let (bs, s) := s.source c v (dP0 d) ((4 * k + 31) / 32)
  match s.operand c v (dSrcA d) (n * k) with
  | (none, s) => s
  | (some a, s) =>
    (List.range k).foldl (fun s i =>
      let g := (addressList bs k).getD i 0
      s.sendWords c v ⟨bits g 31 20, bits g 19 0, 1, false⟩ (a + n * i) n) s

/-- SCATTER sends piece i of COUNT words to the i-th listed address. -/
def execScatter (core : Nat) (d : W256) (s : State) : Result := .next (s.eachRow core d (scatterRow core d))

/-- Words of the expert location map: 4,096 entries of 4 bytes. DESIGN CHOICE (log entry 130): R102 gives the map no layout or length. -/
def mapLen : Nat := 512

/-- DISPATCH sends a row's words to the location of each expert it chose: entry e of the map is expert e's global address. -/
def dispatchRow (c : Nat) (d : W256) (s : State) (v : Nat) : State :=
  let n := dCount d
  let (e, s) := s.source c v (dSrcB d) 3
  match s.operand c v (dSrcA d) n with
  | (none, s) => s
  | (some a, s) =>
    match s.operand c v (dP0 d) mapLen with
    | (none, s) => s
    | (some m, s) =>
      (((List.range 16).map (choiceId e)).filter (· ≠ 0xFFFF)).foldl (fun s id =>
        let (w, s) := s.readWord c v (m + id / 8)
        let g := leNat ((w.drop (4 * (id % 8))).take 4)
        s.sendWords c v ⟨bits g 31 20, bits g 19 0 + v * n, 1, false⟩ a n) s

def execDispatch (core : Nat) (d : W256) (s : State) : Result := .next (s.eachRow core d (dispatchRow core d))

/-! ### COPY and CLOUD_MOVE -/

def copyRow (c : Nat) (d : W256) (s : State) (v : Nat) : State :=
  let (bs, s) := s.source c v (dSrcA d) (dCount d)
  s.dest c v (dDst d) bs

def execCopy (core : Nat) (d : W256) (s : State) : Result := .next (s.eachRow core d (copyRow core d))

/-- CLOUD_MOVE hands the transfer to the Cloud-channel queue (R108): the named airspace must equal the tag of every segment of the
local range, or the transfer is refused and counted under R73. -/
def cloudMoveRow (c : Nat) (d : W256) (s : State) (v : Nat) : State :=
  let words := 64 * dCount d
  let toCloud := bits (dP1 d) 0 0 = 0
  let a := bits (dP1 d) 3 1
  match s.operand c v (if toCloud && bits (dSrcA d) 31 30 ≠ 3 then dSrcA d else dDst d) words with
  | (none, s) => s
  | (some lin, s) =>
    if (s.core c).rangeTag lin words = some a then
      s.updCore c fun k => { k with cloud := k.cloud ++ [⟨a, toCloud, lin, dP0 d, words⟩] }
    else s.bump (Reg.Core.FILTER (coreField c) (coreNum c))

def execCloudMove (core : Nat) (d : W256) (s : State) : Result := .next (s.eachRow core d (cloudMoveRow core d))

/-! ### The Cloudbank window (R199, R200) -/

/-- Stack and byte address of partition page n of stripes `st`; none: absent. -/
def State.cloudPage (s : State) (st : List Nat) (n : Nat) : Option (Nat × Nat) :=
  if st.isEmpty then none else
  let stack := n % 48
  let q := n / 48
  let ch := st.getD (q % st.length) 0
  let page := q / st.length + if ch = 0 then 1024 else 0
  if page < 32768 && (s.stack stack).st ≠ .lost then some (stack, (ch * 32768 + page) * 65536) else none

/-- The first transfer of a core's Cloud queue completes (R108, R200): every page must be present and below the window, else it
is refused and counted; a completed one moves its words. The steward reports the completion or the failure to the Zenith. -/
def opCloudMoveComplete (c : Nat) (ok : Bool) (s : State) : State :=
  match (s.core c).cloud with
  | [] => s
  | x :: rest =>
    let s := s.updCore c fun k => { k with cloud := rest }
    let a := s.asp x.airspace
    let place (w : Nat) := s.cloudPage a.stripes (w / 2048)
    let inWindow := (List.range x.words).all fun i =>
      (x.cloudWord + i) / 2048 < a.window && (place (x.cloudWord + i)).isSome
    if !inWindow then (s.bump (Reg.Core.FILTER (coreField c) (coreNum c))).emit (.moveReport c false) else
    if !ok then s.emit (.moveReport c false) else
    ((List.range x.words).foldl (fun s i =>
      match place (x.cloudWord + i) with
      | none => s
      | some (stk, base) =>
        let off := base + (x.cloudWord + i) % 2048 * 32
        if x.toCloud then s.updStack stk fun m => { m with mem := m.mem.writeBytes off ((s.core c).word (x.localWord + i)) }
        else s.storeWord c (x.localWord + i) ((s.stack stk).mem.bytes off 32)) s).emit (.moveReport c true)

def execCloudMoveComplete (core : Nat) (ok : Bool) (s : State) : Result := .next (opCloudMoveComplete core ok s)

end Sys2Proof.Machine
end

