-- ==== Sys2Proof/Machine/Sampling.lean ====
section
/-! DEFINITION. SAMPLE (R102, R225, R226): the LOCAL phase over a core's slice, and the FINAL phase that draws the token. -/

namespace Sys2Proof.Machine

/-- A sampling block of 576 bytes (R225). -/
def samplingBlock (x : Sampling) : List Byte :=
  leBytes 4 x.temperature.toNat ++ leBytes 4 x.topP.toNat ++ leBytes 4 x.minP.toNat ++ leBytes 2 x.topK
    ++ leBytes 1 x.biases.length ++ leBytes 1 x.stopIds.length ++ leBytes 8 x.seed.toNat ++ List.replicate 8 0
    ++ ((List.range 8).flatMap fun i => leBytes 4 (x.stopIds.getD i 0))
    ++ ((List.range 64).flatMap fun j => let b := x.biases.getD j (0, 0); leBytes 4 b.1 ++ leBytes 4 b.2.toNat)

/-- The fields of a sampling block as stored. -/
def readSampling (b : List Byte) : Sampling :=
  let w (o : Nat) : W32 := BitVec.ofNat 32 (leNat ((b.drop o).take 4))
  { temperature := w 0, topP := w 4, minP := w 8, topK := leNat ((b.drop 12).take 2),
    seed := BitVec.ofNat 64 (leNat ((b.drop 16).take 8)),
    stopIds := (List.range (nthByte b 15)).map fun i => leNat ((b.drop (32 + 4 * i)).take 4) % 2 ^ 18,
    biases := (List.range (nthByte b 14)).map fun j =>
      (leNat ((b.drop (64 + 8 * j)).take 4) % 2 ^ 18, BitVec.ofNat 32 (leNat ((b.drop (68 + 8 * j)).take 4))) }

/-- The sampling block of row v. -/
def State.rowSampling (s : State) (c v : Nat) : Sampling × State :=
  let (b, s) := s.readWords c v (s.row c v).sampleBlk 18
  (readSampling b, s)

/-- K′: TOP_K, or 1,024 when TOP_K is 0. -/
def keepCount (x : Sampling) : Nat := if x.topK = 0 then 1024 else x.topK

/-- z of one token: its biases added in entry order (R226 step 1). -/
def biased (x : Sampling) (id : Nat) (logit : W32) : W32 :=
  x.biases.foldl (fun z b => if b.1 = id then F32.add z b.2 else z) logit

/-- y: z itself when greedy, else fl(z / TEMPERATURE). -/
def tempered (x : Sampling) (z : W32) : W32 := if F32.abs x.temperature = 0 then z else F32.div z x.temperature

/-- First token ID of the group that stands at a linear address, as the core's LOGITS descriptors write it for row v (R226 step 4);
none: the group is in no slice. -/
def State.sliceBase (s : State) (c v addr : Nat) : Option Nat :=
  let k := s.core c
  let p := if k.seq.prefillRows then k.prefill else k.decode
  ((List.range p.len).filterMap fun i =>
    let d := k.code.getD (p.base + i) 0
    if dOp d = 0x61 then
      match resolve (dDst d) (s.row c v) v with
      | some a =>
        let groups := dCount d / bits (dP1 d) 11 0
        if a ≤ addr && addr < a + 8 * groups && (addr - a) % 8 = 0 then some (bits (dP2 d) 17 0 + 64 * ((addr - a) / 8)) else none
      | none => none
    else none).head?

/-- A core's record: m_c, Σ_c, core ID, number of candidates, then (ID, y) pairs; the layout is the model's (log entry 25). -/
def candidateRecord (m sum : W32) (c slots : Nat) (top : List (W32 × Nat)) : List Byte :=
  leBytes 4 m.toNat ++ leBytes 4 sum.toNat ++ leBytes 4 c ++ leBytes 4 top.length ++ List.replicate 16 0
    ++ (List.range ((slots + 3) / 4 * 4)).flatMap fun i =>
        let x := top.getD i (0, 0); leBytes 4 x.2 ++ leBytes 4 x.1.toNat

def localRow (c : Nat) (d : W256) (s : State) (v : Nat) : State :=
  let n := dCount d
  let slots := bits (dP1 d) 10 0
  let (x, s) := s.rowSampling c v
  let start := (resolve (dSrcA d) (s.row c v) v).getD 0
  let (z, s) := s.groups c v (dSrcA d) .fp32 n
  -- (base, y values) of each group of the slice
  let slice := (List.range n).filterMap fun g =>
    (s.sliceBase c v (start + 8 * g)).map fun base =>
      (base, (List.range 64).map fun e => tempered x (biased x (base + e) (wordAt (z.getD g []) e)))
  let cands := slice.flatMap fun g => (List.range 64).map fun e => (wordAt g.2 e, g.1 + e)
  let m := (cands.map Prod.fst).foldl F32.maxW F32.negInf
  let sum := if m = F32.negInf then 0 else rowSum (slice.map fun g => g.2.map fun y => F32.exp (F32.sub y m))
  s.dest c v (dDst d) (candidateRecord m sum c slots (topK (min (keepCount x) slots) cands))

/-- A record as read back: (core, m, Σ, candidates). -/
def readRecord (b : List Byte) : Nat × W32 × W32 × List (W32 × Nat) :=
  (leNat ((b.drop 8).take 4), nthWord b 0, nthWord b 1,
    (List.range (leNat ((b.drop 12).take 4))).map fun i => (nthWord b (9 + 2 * i), leNat ((b.drop (32 + 8 * i)).take 4)))

/-- Records in ascending core ID. -/
def insertRecord (x : Nat × W32 × W32 × List (W32 × Nat)) : List (Nat × W32 × W32 × List (W32 × Nat)) →
    List (Nat × W32 × W32 × List (W32 × Nat))
  | [] => [x]
  | y :: ys => if x.1 ≤ y.1 then x :: y :: ys else y :: insertRecord x ys

/-- Candidates up to the first j at which the running sum reaches the bound (R226 step 6). -/
def topP (bound : W32) : W32 → List (W32 × Nat) → List (W32 × Nat)
  | _, [] => []
  | sum, x :: xs =>
    let sum := F32.add sum x.1
    if F32.le bound sum then [x] else x :: topP bound sum xs

/-- The first candidate whose running sum exceeds r, or the last one (R226 step 8). -/
def drawFrom (r : W32) : W32 → List (W32 × Nat) → Nat → Nat
  | _, [], last => last
  | sum, x :: xs, _ =>
    let sum := F32.add sum x.1
    if F32.lt r sum then x.2 else drawFrom r sum xs x.2

/-- The token of position q from the cores' records (R226 steps 2, 5-8). -/
def drawToken (x : Sampling) (q : Nat) (records : List (Nat × W32 × W32 × List (W32 × Nat))) : Nat :=
  let records := records.foldr insertRecord []
  let m := (records.map fun r => r.2.1).foldl F32.maxW F32.negInf
  let cands := topK (keepCount x) (records.flatMap fun r => r.2.2.2)
  let first := ((cands.map Prod.snd).headD 0)
  if F32.abs x.temperature = 0 || m = F32.negInf then first else
  let z := records.foldl (fun acc r =>
    F32.add acc (if r.2.1 = F32.negInf then 0 else F32.mul r.2.2.1 (F32.exp (F32.sub r.2.1 m)))) 0
  let weighted := cands.map fun c => (F32.exp (F32.sub c.1 m), c.2)
  let kept := (topP (F32.mul x.topP z) 0 weighted).filter fun c => !F32.lt c.1 x.minP
  let total := kept.foldl (fun acc c => F32.add acc c.1) 0
  let u := (philox q 0 0 0 (x.seed.toNat % 2 ^ 32) (x.seed.toNat / 2 ^ 32)).headD 0
  drawFrom (F32.mul (F32.ofInt u.toNat (-32)) total) 0 kept first

/-- FINAL: the token into DST, and to the session of a row that is not dropped (R92). The token follows the row's input position. -/
def finalRow (c : Nat) (d : W256) (s : State) (v : Nat) : State :=
  let slots := bits (dP1 d) 10 0
  let words := 1 + (slots + 3) / 4
  let (x, s) := s.rowSampling c v
  let (b, s) := s.source c v (dSrcA d) (dCount d * words)
  let recs := (List.range (dCount d)).map fun i => readRecord ((b.drop (32 * words * i)).take (32 * words))
  let r := s.row c v
  let tok := drawToken x (r.pos + 1) recs
  let s := s.dest c v (dDst d) (leBytes 4 tok ++ List.replicate 28 0)
  if (s.row c v).drop then s else s.updSess r.session fun e => if r.pos + 1 = e.history.length then { e with sampled := some tok } else e

def sampleRow (c : Nat) (d : W256) (s : State) (v : Nat) : State :=
  if dP0 d % 2 = 0 then localRow c d s v else finalRow c d s v

def execSample (core : Nat) (d : W256) (s : State) : Result := .next (s.eachRow core d (sampleRow core d))

end Sys2Proof.Machine
end

