-- ==== Sys2Proof/Machine/Sequencer.lean ====
section
/-! DEFINITION. The sequencer (R40, R41, R91-R103, R109, R265, R274): programs in the tick, issue and timing of descriptors, trouble
and replay, and the optimiser step. -/

namespace Sys2Proof.Machine

/-! ### Plan figures of a core -/

def State.planOf (s : State) (c : Nat) : Plan :=
  match (s.field (coreField c)).placement with
  | none => {}
  | some p => (s.plc p).plan

/-- Absorption extension in force for a core (R40). -/
def State.extOf (s : State) (c : Nat) : Nat := (s.core c).extension

/-- The largest extension among the cores of a core's stage (R100). -/
def State.stageExt (s : State) (c : Nat) : Nat :=
  (s.cores.filter fun e => e.2.stage == (s.core c).stage
      && (s.field (coreField e.1)).placement == (s.field (coreField c)).placement).foldl
    (fun m e => max m e.2.extension) (s.extOf c)

def State.updSeq (s : State) (c : Nat) (g : SeqSt → SeqSt) : State := s.updCore c fun k => { k with seq := g k.seq }

/-- A core executes in this tick: its field began the tick with a beacon, and it is not failed, off or under test (R30, R47, R77). -/
def State.coreRuns (s : State) (c : Nat) : Bool :=
  let k := s.core c
  s.tick.running && (s.field (coreField c)).beaconOk && (s.field (coreField c)).clock == .running
    && (k.state == .serving || k.state == .absorbing)

/-- The core's contribution to the tick is dropped: every row it works on is marked (R41). -/
def State.dropContribution (s : State) (c : Nat) : State :=
  s.updCore c fun k =>
    let mark (t : Tbl Row) : Tbl Row := t.map fun e => (e.1, { e.2 with drop := true })
    { k with dropped := true, decRows := mark k.decRows, preRows := mark k.preRows }

/-- Nothing of the program goes on: what waits is given up. -/
def SeqSt.halt (q : SeqSt) : SeqSt := { q with prog := 0, waits := [], ending := false, waitUntil := none }

/-- A program is abandoned where it stands, counted OVERRUN, and its place recorded (R41, R110). -/
def State.abandon (s : State) (c prog : Nat) : State :=
  let q := (s.core c).seq
  let s := s.bump (Reg.Core.OVERRUN (coreField c) (coreNum c))
  let s := (s.bump Reg.Evc.OVERRUNS).mark Reg.Tick.OVERRUN
  let s := s.put (Reg.Seq.ABANDON_PROG (coreField c) (coreNum c)) prog
  let s := s.put (Reg.Seq.ABANDON_PC (coreField c) (coreNum c)) q.pc
  s.updCore c fun k => { k with seq := if k.seq.prog = prog then k.seq.halt else k.seq }

/-- An overrun: the program is abandoned and the contribution to the tick dropped (R41, R64, R97). -/
def State.overrun (s : State) (c prog : Nat) : State := (s.dropContribution c).abandon c prog

/-! ### Footprints and hazards (R93, R103) -/

/-- Choices K of a MATVEC or LOGITS: 1 when not indirect (R102, R109). -/
def choices (d : W256) : Nat := if bits (dP1 d) 20 20 = 1 then bits (dP1 d) 19 16 + 1 else 1

/-- Words per row of DST, SRCA and SRCB. -/
def footprint (d : W256) : Nat × Nat × Nat :=
  let n := dCount d
  let a := n * (dSrcFmt d).words
  let o := n * (dDstFmt d).words
  let ib := bits (dP1 d) 11 0
  match dOp d with
  | 0x03 => (0, 1, 0)
  | 0x10 | 0x61 => (8 * (n / ib) * choices d, ib * (dSrcFmt d).words, if bits (dP1 d) 20 20 = 1 then 3 else 0)
  | 0x11 => (8 * ib, n / ib * (dSrcFmt d).words, 0)
  | 0x12 => (o, a, (2 * bits (dP0 d) 6 0 * 64 * n + 31) / 32)
  | 0x20 | 0x21 | 0x37 | 0x51 => (n, n, 3)
  | 0x22 => (8 * n, 8 * n, 0)
  | 0x23 | 0x24 => (n * (bits (dP1 d) 5 0 + 1), n * (bits (dP1 d) 5 0 + 1), 0)
  | 0x30 => (o, a, if dP0 d % 2 = 1 then 16 * n else 8 * n)
  | 0x35 => (1, 8 * n, o)
  | 0x40 => (8 * n * (bits (dP0 d) 4 0 + 1), (bits (dP0 d) 4 0 + 1) * kvTb (dP0 d) * (dSrcFmt d).words, 0)
  | 0x41 => (n * (bits (dP1 d) 4 0 + 1) * (dDstFmt d).words, 8 * n * (bits (dP1 d) 4 0 + 1), 0)
  | 0x42 => (8 * (bits (dP0 d) 4 0 + 1) * kvTb (dP0 d), n * (bits (dP0 d) 4 0 + 1) * (dSrcFmt d).words, 0)
  | 0x43 => (0, 8 * n * kvTb (dP0 d), 8 * n * kvTb (dP0 d))
  | 0x50 => (3, a, 0)
  | 0x52 => (8 * n, 8 * n * (bits (dP0 d) 3 0 + 1), 3)
  | 0x60 => (8 * n, 0, 0)
  | 0x62 => (1 + (bits (dP1 d) 10 0 + 3) / 4, if dP0 d % 2 = 0 then 8 * n else n * (1 + (bits (dP1 d) 10 0 + 3) / 4), 0)
  | 0x78 => (64 * n, 64 * n, 0)
  | _ => (o, a, 8 * n)

/-- Operand parameters: the operand, its words per row, and whether it is written (R102). -/
def paramOperands (d : W256) : List (Nat × Nat × Bool) :=
  match dOp d with
  | 0x22 => [(dP1 d, 8 * dCount d * bits (dP0 d) 15 12, false)]
  | 0x23 | 0x24 => [(dP0 d, (4 * (bits (dP1 d) 5 0 + 1) + 31) / 32, false)]
  | 0x41 => [(dP0 d, (8 * (bits (dP1 d) 4 0 + 1) + 31) / 32, true)]
  | 0x51 => [(dP0 d, mapLen, false)]
  | _ => []

/-- The range an operand covers for a row: a KV operand its whole region, an ADAPTER operand its whole version slot (R93). -/
def coverRange (k : CoreSt) (o len : Nat) (r : Row) (v : Nat) : List Range :=
  match bits o 31 30 with
  | 1 => [⟨r.kvBase, r.kvSize⟩]
  | 2 => [⟨r.adapterBase, max len (2048 * k.adapterSeg)⟩]
  | 3 => []
  | _ => match resolve o r v with
    | some a => if len = 0 then [] else [⟨a, len⟩]
    | none => []

/-- Ranges an operation reads and writes over the valid rows. -/
def State.opRanges (s : State) (c : Nat) (d : W256) : List Range × List Range :=
  let k := s.core c
  let (dl, al, bl) := footprint d
  let rows := s.activeRows c d
  let cover (o len : Nat) := rows.flatMap fun v => coverRange k o len (s.row c v) v
  let extra (w : Bool) := (paramOperands d).flatMap fun p => if p.2.2 = w then cover p.1 p.2.1 else []
  (cover (dSrcA d) al ++ cover (dSrcB d) bl ++ extra false, cover (dDst d) dl ++ extra true)

def overlap (a b : Range) : Bool := decide (a.lo < b.lo + b.len) && decide (b.lo < a.lo + a.len)
def overlaps (xs ys : List Range) : Bool := xs.any fun x => ys.any (overlap x)

/-- The cycle before which an issue holds because of an operation in flight (R93). -/
def holdUntil (reads writes : List Range) (f : Flight) : Nat :=
  if overlaps reads f.writes || overlaps writes (f.reads ++ f.writes) then f.ready else 0

/-! ### Units and timing (R94, R109) -/

/-- Unit of an operation: 0 sequencer, 1 MAC, 2 halo, 3 vector, 4 move. -/
def unitOf (op : Nat) : Nat :=
  match op with
  | 0x01 | 0x02 | 0x03 => 0
  | 0x10 | 0x11 | 0x40 | 0x42 | 0x60 | 0x61 => 1
  | 0x12 => 2
  | 0x20 | 0x21 | 0x22 | 0x23 | 0x24 | 0x37 | 0x51 | 0x78 => 4
  | _ => 3

/-- Read latency of a bank (R67). -/
def bankLatency (b : Nat) : Nat := if b < 4 then 3 else if b < 12 then 5 else 8

/-- Ls: the slowest bank any source touches; KV and ADAPTER sources count as 8 (R94). -/
def State.sourceLatency (s : State) (c : Nat) (d : W256) : Nat :=
  if [dSrcA d, dSrcB d].any fun o => bits o 31 30 == 1 || bits o 31 30 == 2 then 8 else
  ((s.opRanges c d).1.map fun r => max (bankLatency (r.lo / 57344)) (bankLatency ((r.lo + r.len - 1) / 57344))).foldl max 3

/-- A run of tiles that starts at a tile of 2-bit or ternary codes (R104, R145). -/
def State.narrowTile (s : State) (c t : Nat) : Bool :=
  match tilePlace (s.liveBankOf (coreField c)).mem t with
  | some (_, _, w) => w == 2
  | none => false

/-- The bytes an operand names for a row, without a read through the switch. -/
def State.peekOperand (s : State) (c v o n : Nat) : List Byte :=
  match resolve o (s.row c v) v with
  | some a => s.peek c a n
  | none => []

/-- The expert choices of a row that DISPATCH sends to. -/
def State.dispatchIds (s : State) (c : Nat) (d : W256) (v : Nat) : List Nat :=
  ((List.range 16).map (choiceId (s.peekOperand c v (dSrcB d) 3))).filter (· ≠ 0xFFFF)

/-- The endpoints that a descriptor of the move engine sends to or reads from (R102, R291). -/
def State.moveTargets (s : State) (c : Nat) (d : W256) : List Nat :=
  let rows := s.activeRows c d
  let k := bits (dP1 d) 5 0 + 1
  match dOp d with
  | 0x20 =>
    if bits (dP1 d) 17 17 = 1 then
      match s.mcastGroup c (bits (dP2 d) 11 0) with
      | some e => e.2
      | none => []
    else [bits (dP0 d) 31 20]
  | 0x23 | 0x24 => rows.flatMap fun v => (addressList (s.peekOperand c v (dP0 d) ((4 * k + 31) / 32)) k).map fun g => bits g 31 20
  | 0x51 => rows.flatMap fun v => (s.dispatchIds c d v).map fun id =>
      bits (leNat (((s.peekOperand c v (dP0 d) mapLen).drop (4 * id)).take 4)) 31 20
  | _ => []

/-- L_fab of the farthest target (R109, R296). -/
def State.farthest (s : State) (c : Nat) (d : W256) : Nat := ((s.moveTargets c d).map (s.fabLatency c)).foldl max 28

/-- Busy cycles, and the cycles from start (or first slot) to ready, of an operation over its valid rows (R109). -/
def State.opTiming (s : State) (c : Nat) (d : W256) : Nat × Nat :=
  let n := dCount d
  let rows := s.activeRows c d
  let va := rows.length
  let ls := s.sourceLatency c d
  let g := bits (dP0 d) 4 0 + 1
  let tb := kvTb (dP0 d)
  let half (x : Nat) := (x + 1) / 2
  let after (busy x : Nat) := (busy, ls + busy + x)
  match dOp d with
  | 0x10 | 0x61 =>
    -- each run goes at the rate of its first tile (R104)
    let runs := rows.flatMap fun v => choiceBases d (s.peekOperand c v (dSrcB d) 3)
    let b := (runs.map fun t => if s.narrowTile c t then half n else n).foldl (· + ·) 0
    (b, b + 10)
  | 0x11 => (2 * n * va, 2 * n * va + 10)
  | 0x60 => (n * va, n * va + 6)
  | 0x40 | 0x42 => let b := n * tb * (if kvOmega (dP0 d) = 2 then max 8 (2 * g) else max 4 g) * va; (b, b + 10)
  | 0x12 => after (half (n * bits (dP0 d) 6 0) * va) 5
  | 0x36 => after (n * va) (if bits (dP0 d) 3 0 = 7 then 20 else 4)
  | 0x31 => after (n * va) 12
  | 0x35 => after (n * va) 4
  | 0x32 | 0x33 => after (n * va) 16
  | 0x30 => after (2 * n * va + 26) 4
  | 0x34 | 0x70 => after (2 * n * va) 4
  | 0x41 => after (2 * n * (bits (dP1 d) 4 0 + 1) * va) 16
  | 0x43 => after (4 * n * tb * va) 12
  | 0x50 => after ((g + 2) * n * va) 16
  | 0x52 => after ((bits (dP0 d) 3 0 + 2) * n * va) 4
  | 0x62 => after (if dP0 d % 2 = 0 then 2 * n * va
      else (4 * ((n * bits (dP1 d) 10 0 + 63) / 64) + 48) * va) 20
  | 0x20 => if dExch d then (0, 0) else after (half n * va) (s.farthest c d)
  | 0x24 => after (half n * va * (bits (dP1 d) 5 0 + 1)) (s.farthest c d)
  | 0x51 => after (half n * (rows.map fun v => (s.dispatchIds c d v).length).foldl (· + ·) 0) (s.farthest c d)
  -- the answers to a GATHER: a remote read from the far bank group (R296)
  | 0x23 => after (half n * (bits (dP1 d) 5 0 + 1)) (2 * s.farthest c d + 8)
  | 0x22 =>
    let children := bits (dP0 d) 15 12
    let sends := if bits (dP0 d) 11 0 ≠ 0xFFF || bits (dP0 d) 18 18 = 1 then 1 else 0
    (4 * n * sends + n * children, ls + s.reduceTail c d)
  | 0x37 => after ((n + 15) / 16 * va) 1
  | 0x78 => (1, 1)
  | _ => (0, 0)

/-- Earliest issue cycle: program order, SYNC, the holds, and room in the unit's queue of 4 (R85, R93). -/
def issueCycle (q : SeqSt) (d : W256) (reads writes : List Range) : Nat :=
  let t := (q.flights.map (holdUntil reads writes)).foldl max q.cycle
  let t := if dSync d then (q.flights.map Flight.ready).foldl max t else t
  let u := unitOf (dOp d)
  -- operations of the unit that have not started leave a queue entry as they start
  let starts := sortNat ((q.flights.filter fun f => f.unit = u && f.start > t).map Flight.start)
  if u ≠ 0 && starts.length ≥ 4 then max t (starts.getD (starts.length - 4) 0) else t

/-- RECV, REDUCE and GATHER complete with the words they wait for (R109). -/
def waitsForWords (op : Nat) : Bool := op == 0x21 || op == 0x22 || op == 0x23

/-- The operation's flight once issued at cycle t (R94). -/
def State.flightOf (s : State) (c : Nat) (d : W256) (t : Nat) (reads writes : List Range) : Flight × Nat :=
  let q := (s.core c).seq
  let u := unitOf (dOp d)
  let (busy, ready) := s.opTiming c d
  let unitFree := ((q.flights.filter fun f => f.unit = u).map Flight.free).foldl max 0
  if u = 1 then
    let fill := if dOp d = 0x40 || dOp d = 0x42 then s.sourceLatency c d + 4 else 20
    let st := max t unitFree
    let a := max (st + fill) q.macEnd
    (⟨u, st, st + busy, a + ready, reads, writes⟩, a + busy)
  else
    let st := max t unitFree
    (⟨u, st, st + busy, st + ready, reads, writes⟩, q.macEnd)

/-! ### Sequencing operations -/

/-- The cycle at which everything issued has completed (R96). -/
def SeqSt.drained (q : SeqSt) : Nat := (q.flights.map Flight.ready).foldl max q.cycle

/-- Begin a program at its base: the first issue comes 2 cycles later (R93). -/
def SeqSt.begin_ (q : SeqSt) (prog base cycle : Nat) : SeqSt :=
  { q with prog := prog, pc := base, cycle := cycle + 2, waits := [], ending := false, waitUntil := none }

/-! ### Streaming for failed cores (R78) -/

/-- The matrix operations whose tile reads an absorption list gives, in its order: decode, then prefill. -/
def CoreSt.matrixOps (k : CoreSt) : List (Nat × Bool × W256) :=
  [(k.decode, false), (k.prefill, true)].flatMap fun e => (List.range e.1.len).filterMap fun i =>
    let d := k.code.getD (e.1.base + i) 0
    if dOp d = 0x10 || dOp d = 0x61 then some (e.1.base + i, e.2, d) else none

/-- Row v of a survivor for an operation of a failed core. -/
def CoreSt.absRow (k : CoreSt) (pre : Bool) (v : Nat) : Row := if pre then k.preRows.getD v {} else k.decRows.getD v {}

/-- Words of a failed core's operand, where they were relocated to. -/
def State.deadOperand (s : State) (dead o : Nat) (r : Row) (v n : Nat) : List Byte :=
  match resolve o r v with
  | some a => (s.memOf dead).bytes (32 * a) (32 * n)
  | none => []

/-- Where a tile belongs in an operation: row, output block and input block. -/
def State.tileHits (s : State) (me dead t : Nat) (pre : Bool) (d : W256) : List (Nat × Nat × Nat) :=
  let k := s.core me
  let n := dCount d
  let ib := bits (dP1 d) 11 0
  ((List.range (dRows d)).filter fun v => (k.absRow pre v).valid).flatMap fun v =>
    let bases := choiceBases d (s.deadOperand dead (dSrcB d) (k.absRow pre v) v 3)
    (List.range bases.length).filterMap fun j =>
      let b := bases.getD j 0
      if b ≤ t && t < b + n then some (v, j * (n / ib) + (t - b) / ib, (t - b) % ib) else none

/-- Add one tile's product to the survivor's partial sum at the deputy. -/
def addPartial (key : Partial) (f : List W32 × Cnt → List W32 × Cnt) (l : List Partial) : List Partial × Cnt :=
  let same (x : Partial) : Bool := x.rank == key.rank && x.dead == key.dead && x.at_ == key.at_ && x.row == key.row && x.block == key.block
  match l.find? same with
  | some x =>
    let y := f (x.sum, {})
    (l.map fun z => if same z then { z with sum := y.1, tiles := z.tiles + 1 } else z, y.2)
  | none =>
    let y := f (List.replicate 64 0, {})
    (l ++ [{ key with sum := y.1, tiles := 1 }], y.2)

/-- A block whose tiles have all been streamed: the deputy sums the survivors' partials in ascending rank and writes the failed core's DST
(R78, R120). -/
def State.settleBlock (s : State) (me deputy dead at_ : Nat) (pre : Bool) (d : W256) (v block : Nat) : State :=
  let mine (x : Partial) : Bool := x.dead == coreNum dead && x.at_ == at_ && x.row == v && x.block == block
  let l := (s.core deputy).partials.filter mine
  if (l.map Partial.tiles).foldl (· + ·) 0 < bits (dP1 d) 11 0 then s
  else
    let ranked := (List.range 32).flatMap fun r => (l.filter fun x => x.rank = r).map Partial.sum
    let add (a b : List W32) (n : Nat) : List W32 × Nat :=
      let x := (List.range 64).map fun e => F32.addSat (wordAt a e) (wordAt b e)
      (x.map Prod.fst, n + (x.map Prod.snd).foldl (· + ·) 0)
    let total : List W32 × Nat := match ranked with
      | [] => (List.replicate 64 0, 0)
      | x :: xs => xs.foldl (fun a b => add a.1 b a.2) (x, 0)
    let r := (s.core me).absRow pre v
    let s := s.updCore deputy fun k => { k with partials := k.partials.filter fun x => !mine x }
    match resolve (dDst d) r v with
    | none => s
    | some a =>
      let lin := a + 8 * block
      let old := (groupsOf .fp32 1 ((s.memOf dead).bytes (32 * lin) 256)).1.headD []
      let total := if dAcc d then add old total.1 total.2 else total
      let out := if dOp d = 0x61 then (beyondVocab (s.vocabOf dead) (bits (dP2 d) 17 0 + 64 * block) [total.1]).headD [] else total.1
      (s.addCnt me (Cnt.clamps total.2)).poke dead (32 * lin) (wordsBytes out)

/-- One entry of a survivor's share: the tile is read through its own port, multiplied with the failed core's input, and its product joins the
survivor's partial at the deputy. A tile that several operations read belongs, at its n-th place in the list, to the n-th of them. DESIGN CHOICE
(log entry 131): the manual gives a list entry its tile only. -/
def State.streamTile (s : State) (me rank : Nat) (e : Nat × Nat) : State :=
  let f := coreField me
  let dead := 32 * f + e.1
  let k := s.core dead
  let t := k.absList.getD e.2 0
  let nth := ((k.absList.take e.2).filter (· = t)).length
  match (k.matrixOps.filter fun o => !(s.tileHits me dead t o.2.1 o.2.2).isEmpty)[nth]?,
      (coresOf f).find? fun c => (s.core c).deputyOf == some e.1 && (s.core c).state != .failed with
  | some (at_, pre, d), some deputy =>
    (s.tileHits me dead t pre d).foldl (fun s h =>
      let v := h.1
      let words := (dSrcFmt d).words
      let src := s.deadOperand dead (dSrcA d) ((s.core me).absRow pre v) v (bits (dP1 d) 11 0 * words)
      let (tile, s) := s.readTile me t
      let x := inputConvert (dSrcFmt d) ((src.drop (32 * words * h.2.2)).take (32 * words))
      let (l, cnt) := addPartial ⟨rank, e.1, at_, v, h.2.1, 0, []⟩ (fun a => accumTile a tile x.1 x.2.1) (s.core deputy).partials
      let s := ((s.updCore deputy fun k => { k with partials := l }).addCnt me (Cnt.sum [x.2.2, cnt])).countNan me t tile.nanHalves
      s.settleBlock me deputy dead at_ pre d v h.2.1) s
  | _, _ => s

/-- A survivor streams its share of the concatenated list, right after its own decode program (R78). -/
def State.streamShare (s : State) (c : Nat) : State :=
  let f := coreField c
  let rank := ((List.range (coreNum c)).filter fun n => (s.core (32 * f + n)).state != .failed).length
  (s.core c).absShare.foldl (fun s e => s.streamTile c rank e) s

/-! ### END -/

/-- Begin a prefill or tuning program that waited for decode and absorption (R96). -/
def SeqSt.prefillStart (q : SeqSt) (k : CoreSt) (cell : Option Bool) (start : Nat) : SeqSt :=
  let q := { q with prefillDue := false }
  match cell with
  | some true => if k.tuneBwd.len = 0 then q else q.begin_ 8 k.tuneBwd.base (max start q.cycle)
  | some false => if k.tuneFwd.len = 0 then q else q.begin_ 7 k.tuneFwd.base (max start q.cycle)
  | none => if k.prefill.len > 0 then q.begin_ 4 k.prefill.base (max start q.cycle) else q

/-- A tuning cell of this core's stage in the tick, if one is assigned (R265, R266). -/
def State.cellOf (s : State) (c : Nat) : Option Bool :=
  match (s.field (coreField c)).placement with
  | none => none
  | some p => ((s.plc p).tune.assigned.find? fun e => e.1 == (s.core c).stage).map Prod.snd

/-- First cycle after decode and absorption: 48 + d + ext (R96). -/
def State.prefillCycle (s : State) (c : Nat) : Nat := 48 + (s.planOf c).d + s.extOf c

/-- The sequencer stands idle; what waited for it begins (R96). -/
def State.idle (s : State) (c : Nat) : State :=
  s.updCore c fun k => { k with seq := if k.seq.prefillDue then k.seq.prefillStart k (s.cellOf c) (s.prefillCycle c) else k.seq }

/-- The program's END completes at cycle t: a decode program leads to absorption area A, that to area B, where the field absorbs cores; a
survivor streams its share first (R78, R96). -/
def State.programEnds (s : State) (c t : Nat) : State :=
  let p := (s.core c).seq.prog
  let s := if p = 1 then s.streamShare c else s
  let k := s.core c
  let q := { k.seq with ended := (p, t), ending := false, decodeDone := k.seq.decodeDone || p ≤ 3 }
  let next := if p = 1 && k.areaA.len > 0 then some (2, k.areaA.base) else if (p = 1 || p = 2) && k.areaB.len > 0 then some (3, k.areaB.base) else none
  match next with
  | some (n, base) => s.updSeq c fun _ => q.begin_ n base t
  | none => (s.updSeq c fun _ => { q with prog := 0, cycle := t, waitUntil := none }).idle c

/-- END completes when every operation that the program issued has completed; while some still wait for words, it waits with them (R96). -/
def opEnd (c : Nat) (s : State) : State :=
  let q := (s.core c).seq
  if q.waits.isEmpty then s.programEnds c q.drained else s.updSeq c fun q => { q with ending := true }

def execEndProgram (core : Nat) (_d : W256) (s : State) : Result := .next (opEnd core s)

/-- A program whose END waited ends once nothing waits any more. -/
def State.tryEnd (s : State) (c : Nat) : State :=
  let q := (s.core c).seq
  if q.ending && q.waits.isEmpty then s.programEnds c q.drained else s

/-! ### Words arrive, or their deadline passes -/

/-- Words have arrived: every waiting operation that now has them all completes, oldest first. -/
def State.arrivalCheck (s : State) (c : Nat) : State :=
  ((s.core c).seq.waits.foldl (fun s w =>
    if s.allArrived c w.d then s.completeWait c w (max w.start (s.lastArrival c w.d)) else s) s).tryEnd c

/-- The waiting operation whose deadline comes first; the oldest of equals. -/
def SeqSt.firstDue (q : SeqSt) : Option RecvWait :=
  q.waits.foldl (fun (b : Option RecvWait) w => match b with
    | none => some w
    | some y => if w.deadline < y.deadline then some w else some y) none

/-- The deadline passes: rows with words missing are dropped and counted RECV_MISS (R92, R109); a REDUCE takes missing partials as absent and
marks every row dropped (R105). The rows are marked before anything of them is sent. A REDUCE or GATHER, to which the manual gives no deadline
field, completes in the sequencer's cycle (log entry 132). -/
def opRecvDeadline (c : Nat) (s : State) : State :=
  match (s.core c).seq.firstDue with
  | none => s
  | some w =>
    let rows := s.activeRows c w.d
    let late := rows.filter fun v => !(s.missing c w.d v).isEmpty
    let s := s.dropAll c (if dOp w.d = 0x22 && !late.isEmpty then rows else late)
    let s := s.count (Reg.Seq.RECV_MISS (coreField c) (coreNum c)) late.length
    let done := if dOp w.d = 0x21 then w.deadline else (s.core c).seq.cycle
    (s.completeWait c w (max w.start done)).tryEnd c

def execRecvDeadline (core : Nat) (s : State) : Result := .next (opRecvDeadline core s)

/-! ### Waits for a cycle -/

/-- WAIT_CYCLE holds issue until its cycle, and completes at once if that has passed (R102). -/
def opWaitCycle (c : Nat) (d : W256) (s : State) : State :=
  let q := (s.core c).seq
  let target := bits (dP0 d) 15 0 + if bits (dP0 d) 16 16 = 1 then q.cycle else 0
  if target ≤ q.cycle then s else s.updSeq c fun q => { q with waitUntil := some target }

def execWaitCycle (core : Nat) (d : W256) (s : State) : Result := .next (opWaitCycle core d s)

/-- The awaited cycle arrives and issue goes on. -/
def opWaitCycleExpiry (c : Nat) (s : State) : State :=
  match (s.core c).seq.waitUntil with
  | none => s
  | some t => s.updSeq c fun q => { q with waitUntil := none, cycle := max q.cycle t }

def execWaitCycleExpiry (core : Nat) (s : State) : Result := .next (opWaitCycleExpiry core s)

/-- BRANCH_ON_TROUBLE finds trouble when GROUPS is above 0 in a valid row that is not dropped (R138). -/
def branchRow (c : Nat) (d : W256) (acc : Bool × State) (v : Nat) : Bool × State :=
  let (w, s) := acc.2.source c v (dSrcA d) 1
  (acc.1 || (decide (leNat (w.take 2) > 0) && !(s.row c v).drop), s)

def opBranch (c : Nat) (d : W256) (s : State) : State :=
  let (found, s) := (s.activeRows c d).foldl (branchRow c d) (false, s)
  if !found then s else
  let q := (s.core c).seq
  if q.armed.isNone && !q.replayed then
    let s := s.updSeq c fun q => { q with armed := some (bits (dP0 d) 11 0, bits (dP0 d) 31 16, dP1 d % 2 = 1, q.prefillRows), lastEntry := some (bits (dP0 d) 11 0) }
    s.bump (Reg.Seq.TROUBLE (coreField c) (coreNum c))
  else s.bump (Reg.Seq.TROUBLE_ACCEPTED (coreField c) (coreNum c))

def execBranchOnTrouble (core : Nat) (d : W256) (s : State) : Result := .next (opBranch core d s)

/-! ### Programs in the tick (R96) -/

/-- Cycle 48: the decode program begins at its base. -/
def opDecodeStart (c : Nat) (s : State) : State :=
  let k := s.core c
  if s.coreRuns c && k.decode.len > 0 then s.updSeq c fun q => { q.begin_ 1 k.decode.base 48 with decodeDone := false } else s

def execDecodeStart (core : Nat) (s : State) : Result := .next (opDecodeStart core s)

/-- The program among `ps` that still runs at a cycle: issuing, waiting, or with an END that completes later. -/
def SeqSt.stillRuns (q : SeqSt) (ps : List Nat) (cycle : Nat) : Option Nat :=
  if ps.contains q.prog then some q.prog
  else if ps.contains q.ended.1 && cycle < q.ended.2 then some q.ended.1
  else none

/-- Cycle 48 + d + ext: a decode or absorption program still running is abandoned as an overrun (R97); what waited for it begins then. -/
def opDecodeAbandon (c : Nat) (s : State) : State :=
  let limit := s.prefillCycle c
  match (s.core c).seq.stillRuns [1, 2, 3] limit with
  | none => s
  | some p =>
    let s := (s.overrun c p).updSeq c fun q => { q with ended := (0, 0), cycle := if q.prog = 0 then limit else q.cycle }
    if (s.core c).seq.prog = 0 then s.idle c else s

def execDecodeAbandon (core : Nat) (s : State) : Result := .next (opDecodeAbandon core s)

/-- The tuning job of a core's placement. -/
def State.tuneOf (s : State) (c : Nat) : TuneJob :=
  match (s.field (coreField c)).placement with
  | none => {}
  | some p => (s.plc p).tune

/-- The tuning program of a direction begins. -/
def State.startTune (s : State) (c : Nat) (backward : Bool) (cycle : Nat) : State :=
  let k := s.core c
  let prog := if backward then k.tuneBwd else k.tuneFwd
  if prog.len = 0 then s else s.updSeq c fun q => q.begin_ (if backward then 8 else 7) prog.base cycle

/-- Cycle 48 + d + ext: the prefill program begins, or a tuning program in a shared cell; while decode or absorption runs it waits (R96). -/
def opPrefillStart (c : Nat) (s : State) : State :=
  let k := s.core c
  if !s.coreRuns c then s
  else if 1 ≤ k.seq.prog && k.seq.prog ≤ 3 then s.updSeq c fun q => { q with prefillDue := true }
  else if k.seq.prog ≠ 0 then s
  else s.updSeq c fun q => q.prefillStart k (s.cellOf c) (s.prefillCycle c)

def execPrefillStart (core : Nat) (s : State) : Result := .next (opPrefillStart core s)

/-- Rows of the prefill row table that carry work. -/
def CoreSt.preValid (k : CoreSt) : List Nat := (k.preRows.filter fun e => e.2.valid).map Prod.fst

/-- A tuning step is repeated from its first forward cell; the third repeat ends the job FAILED (R275). -/
def TuneJob.repeatStep (j : TuneJob) : TuneJob :=
  { j with repeats := j.repeats + 1, totalRepeats := j.totalRepeats + 1, optimising := false
           fwd := [], bwd := [], cellRows := [], assigned := [], nextCells := [], optimised := [], st := if j.repeats + 1 ≥ 3 then .failed else j.st }

/-- The running step of a placement's job is repeated, its gradient areas cleared (R275). -/
def State.repeatTune (s : State) (p : Nat) : State :=
  let s := (s.plc p).tune.areas.foldl (fun s q => s.updCore q.1 fun k =>
    { k with mem := k.mem.filter fun e => !(decide (32 * q.2.2.1 ≤ e.1) && decide (e.1 < 32 * q.2.2.1 + 2 * q.2.2.2)) }) s
  (s.bump (Reg.Tune.STEP_REPEATED p)).updPlc p fun x => { x with tune := x.tune.repeatStep }

/-- Tuning rows cut: dropped, counted TUNE_CUT, and the step repeated (R265, R275). -/
def State.cutTuning (s : State) (c : Nat) : State :=
  match (s.field (coreField c)).placement with
  | none => s
  | some p =>
    let n := (s.core c).preValid.length
    let s := s.count (Reg.Tune.TUNE_CUT p) n
    (s.repeatTune p).updPlc p fun x => { x with tune := { x.tune with cut := x.tune.cut + n } }

/-- Issue of a prefill or tuning program stops: every row is dropped; operations already started finish, so that the words which those that
wait have received are taken (R97). -/
def State.stopPrefill (s : State) (c : Nat) : State :=
  let s := (s.core c).preValid.foldl (fun s v => s.dropRow c v) s
  let s := (s.core c).seq.waits.foldl (fun s w => s.eachRow c w.d fun s v => s.consumeRow c w.d v) s
  s.updSeq c fun q => { q.halt with cycle := q.drained }

/-- Cycle 48 + d + ext + G: issue stops; a prefill still issuing has every row dropped and is counted PREFILL_CUT (R97). -/
def opPrefillIssueStop (c : Nat) (s : State) : State :=
  let p := (s.core c).seq.prog
  if (s.core c).seq.ending then s
  else if p = 4 then (s.stopPrefill c).bump (Reg.Seq.PREFILL_CUT (coreField c) (coreNum c))
  else if p = 7 || p = 8 then (s.stopPrefill c).cutTuning c
  else s

def execPrefillIssueStop (core : Nat) (s : State) : Result := .next (opPrefillIssueStop core s)

/-- Cycle 48 + C + ext: an armed entry runs when its declared length fits before the fence, else it is skipped (R100). -/
def opReplayStart (c : Nat) (s : State) : State :=
  let k := s.core c
  match k.seq.armed with
  | none => s
  | some (entry, len, stage, pre) =>
    let pl := s.planOf c
    let start := 48 + pl.c + (if stage then s.stageExt c else s.extOf c)
    if start + len ≤ s.tick.period - 64 - pl.x then
      let s := s.bump (Reg.Seq.REPLAY_RUN (coreField c) (coreNum c))
      s.updSeq c fun q => { q.begin_ 5 (k.replay.base + entry) start with replayed := true, preReplay := pre, armed := none }
    else
      let s := s.bump (Reg.Seq.REPLAY_SKIPPED (coreField c) (coreNum c))
      let s := (s.bump Reg.Evc.REPLAY_SKIPPED).mark Reg.Tick.REPLAY_SKIPPED
      s.updSeq c fun q => { q with armed := none }

def execReplayStart (core : Nat) (s : State) : Result := .next (opReplayStart core s)

/-- Declare a core failed (R77, R83): it executes nothing and answers nothing; the report reaches the Zenith as CORE_LOST. -/
def State.failCore (s : State) (c : Nat) : State :=
  let f := coreField c
  let n := coreNum c
  if (s.core c).state == .failed then s else
  let order := min ((s.field f).failed.length + 1) 3
  let s := s.updCore c fun k => { k with state := .failed, failOrder := order, seq := { k.seq.halt with exch := [], prefillDue := false, armed := none } }
  let s := s.dropContribution c
  -- an earlier absorption whose extension has not started is discarded and follows the table of this failure (R81)
  s.updField f fun fs => { fs with
    failed := fs.failed ++ [n]
    absorb := (fs.absorb.map fun a => { a with tick := s.tick.count, ordered := none }) ++ [⟨n, s.tick.count, none⟩] }

/-- Two overruns within 16 consecutive ticks (R41). -/
def twoOverruns (now : Nat) (ts : List Nat) : Bool := decide ((ts.filter fun t => now < t + 16).length ≥ 2)

/-- An overrun of the fence or of an uncorrectable descriptor counts toward the rule of R41: two within 16 ticks fail the core. -/
def State.countOverrun (s : State) (c : Nat) : State :=
  let s := s.updCore c fun k => { k with overrunTicks := (s.tick.count :: k.overrunTicks).take 16 }
  if twoOverruns s.tick.count (s.core c).overrunTicks then s.failCore c else s

/-- The fence at cycle P − 64 − x: a decode, prefill, replay or tuning program of which an operation still runs is abandoned as an overrun
(R41). -/
def opExchangeFence (c : Nat) (s : State) : State :=
  match (s.core c).seq.stillRuns [1, 2, 3, 4, 5, 7, 8] (s.tick.period - 64 - (s.planOf c).x) with
  | none => s
  | some p => ((s.overrun c p).updSeq c fun q => { q with ended := (0, 0) }).countOverrun c

def execExchangeFence (core : Nat) (s : State) : Result := .next (opExchangeFence core s)

/-- The queued send with the smallest OFFSET; of equals the one queued first (R98). -/
def SeqSt.nextExch (q : SeqSt) : Option (Nat × W256) :=
  q.exch.foldl (fun (b : Option (Nat × W256)) e => match b with
    | none => some e
    | some y => if bits (dP1 e.2) 15 0 < bits (dP1 y.2) 15 0 then some e else some y) none

/-- A queued send transfers at cycle P − 64 − x + OFFSET and reads its source then (R98). -/
def opExchTransfer (c : Nat) (s : State) : State :=
  match (s.core c).seq.nextExch with
  | none => s
  | some e =>
    -- the send works on the rows of the program that queued it
    (sendNow c e.2 (s.updSeq c fun q => { q with exch := q.exch.erase e, prog := e.1 })).updSeq c fun q => { q with prog := 0 }

def execExchQueueTransfer (core : Nat) (s : State) : Result := .next (opExchTransfer core s)

/-- The closing guard: a maintenance program still running is abandoned and counted; serving is not touched (R41). -/
def opClosingGuard (c : Nat) (s : State) : State :=
  match (s.core c).seq.stillRuns [6] (s.tick.period - 8) with
  | none => s
  | some p => (s.abandon c p).updSeq c fun q => { q with ended := (0, 0) }

def execClosingGuard (core : Nat) (s : State) : Result := .next (opClosingGuard core s)

/-! ### Tuning (R265, R274) -/

/-- An assigned tuning program starts once decode and absorption have completed: in a shared cell at the prefill start, in an idle
one at once. A cell runs one direction. -/
def opTuningCell (c : Nat) (backward : Bool) (s : State) : State :=
  let k := s.core c
  if !s.coreRuns c || k.seq.prog ≠ 0 || s.cellOf c ≠ some backward then s
  else
    let idle := !(k.decRows.any fun e => e.2.valid)
    s.startTune c backward (if idle then k.seq.drained else max (48 + (s.planOf c).d + s.extOf c) k.seq.drained)

def execTuningCell (core : Nat) (backward : Bool) (s : State) : Result := .next (opTuningCell core backward s)

/-- Adam figures that hold for one step: beta1, beta2, 1 − b1t, 1 − b2t, 1/n, and the job's constants (R274). -/
structure Adam where
  beta1 : W32
  beta2 : W32
  c1 : W32
  c2 : W32
  invN : W32
  lr : W32
  eps : W32
  decay : W32
deriving DecidableEq, Repr

/-- One parameter: gradient (BF16), m, v, w to the new m, v, w. -/
def adamStep (a : Adam) (grad m v w : W32) : W32 × W32 × W32 :=
  let g := F32.mul grad a.invN
  let m' := F32.add (F32.mul a.beta1 m) (F32.mul (F32.sub F32.one a.beta1) g)
  let v' := F32.add (F32.mul a.beta2 v) (F32.mul (F32.mul (F32.sub F32.one a.beta2) g) g)
  let den := F32.add (F32.sqrt (F32.div v' a.c2)) a.eps
  let d := F32.add (F32.div (F32.div m' a.c1) den) (F32.mul a.decay w)
  (m', v', F32.sub w (F32.mul a.lr d))

/-- Parameter i of a core's slot: read, stepped, and written back to the work area and the slot. -/
def adamParam (j : TuneJob) (a : Adam) (c slot work n : Nat) (mem : Mem) (i : Nat) : Mem :=
  let gA := 32 * work + 2 * i
  let wA := 32 * work + 2 * n + 4 * i
  let mA := wA + 4 * n
  let vA := mA + 4 * n
  let rd (x : Nat) : W32 := BitVec.ofNat 32 (mem.le x 4)
  let (m', v', w') := adamStep a (F32.ofBf16 (mem.le gA 2)) (rd mA) (rd vA) (rd wA)
  let u := (philox (j.step + 1) i 1 c (j.seed.toNat % 2 ^ 32) (j.seed.toNat / 2 ^ 32)).headD 0
  let mem := mem.setLe mA 4 m'.toNat
  let mem := mem.setLe vA 4 v'.toNat
  let mem := mem.setLe wA 4 w'.toNat
  let mem := mem.setLe (32 * slot + 2 * i) 2 (narrowElem .bf16 w' 0 (some (u.toNat % 65536)))
  mem.setLe gA 2 0

/-- The optimiser step of one core (R274): once per step of the job, in a free cell. -/
def opOptimiser (c : Nat) (s : State) : State :=
  match (s.field (coreField c)).placement with
  | none => s
  | some p =>
    let j := (s.plc p).tune
    match j.areas.find? fun e => e.1 == c with
    | none => s
    | some (_, slot, work, n) =>
      if !j.optimising || j.optimised.contains c || j.st ≠ .running then s else
      let k := s.core c
      let b1t := F32.mul k.b1t j.beta1
      let b2t := F32.mul k.b2t j.beta2
      let a : Adam :=
        { beta1 := j.beta1, beta2 := j.beta2, c1 := F32.sub F32.one b1t, c2 := F32.sub F32.one b2t,
          invN := F32.div F32.one (F32.ofNat j.targets), lr := j.lr, eps := j.eps, decay := j.decay }
      let mem := (List.range n).foldl (adamParam j a c slot work n) k.mem
      let s := s.updCore c fun k => { k with mem := mem, b1t := b1t, b2t := b2t, seq := { k.seq with prog := 9 } }
      let done := c :: j.optimised
      -- the step completes with the last named core; STEPS completed, or a stop ordered, ends the job
      let all := j.areas.all fun e => done.contains e.1
      let step := if all then j.step + 1 else j.step
      let st := if all && step ≥ j.steps then .done else if all && j.stopping then .stopped else j.st
      -- the mean loss of the step: no command carries the logits it is formed from, so it is a free value
      let (loss, s) := if all then s.fresh else (j.loss.toNat, s)
      let s := if all then (s.put (Reg.Tune.STEP p) step).put (Reg.Tune.LOSS p) loss else s
      s.updPlc p fun x => { x with tune := { j with
        loss := BitVec.ofNat 32 loss
        optimised := if all then [] else done
        optimising := !all, step := step, repeats := if all then 0 else j.repeats
        fwd := if all then [] else j.fwd, bwd := if all then [] else j.bwd, st := st } }

def execOptimiserStep (core : Nat) (s : State) : Result := .next (opOptimiser core s)

/-! ### DESCRIPTOR_ISSUE (R64, R93) -/

/-- The state a meaning answers. -/
def Result.state (r : Result) (s : State) : State :=
  match r with
  | .next s' => s'
  | _ => s

/-- The effect of a descriptor on its core. -/
def runOp (c : Nat) (d : W256) (s : State) : State :=
  match dOp d with
  | 0x01 => opEnd c s
  | 0x02 => opWaitCycle c d s
  | 0x03 => opBranch c d s
  | 0x10 => s.eachRow c d (matvecRow c d)
  | 0x11 => s.eachRow c d (matvecTRow c d)
  | 0x12 => s.eachRow c d (haloRow c d)
  | 0x20 => opSend c d s
  | 0x21 => s.awaitWords c d (bits (dP0 d) 15 0)
  | 0x22 => s.awaitWords c d 0xFFFF
  | 0x23 => (s.eachRow c d (gatherRow c d)).awaitWords c d 0xFFFF
  | 0x24 => s.eachRow c d (scatterRow c d)
  | 0x30 => s.eachRow c d (normRow c d)
  | 0x31 => s.eachRow c d (actRow c d)
  | 0x32 => s.eachRow c d (gluRow c d)
  | 0x33 => s.eachRow c d (ropeRow c d)
  | 0x34 => s.eachRow c d (quantRow c d)
  | 0x35 => s.eachRow c d (checkRow c d)
  | 0x36 => s.eachRow c d (vecRow c d)
  | 0x37 => s.eachRow c d (copyRow c d)
  | 0x40 => s.eachRow c d (scoreRow c d)
  | 0x41 => s.eachRow c d (softmaxRow c d)
  | 0x42 => s.eachRow c d (valueRow c d)
  | 0x43 => s.eachRow c d (kvAppendRow c d)
  | 0x50 => s.eachRow c d (gateRow c d)
  | 0x51 => s.eachRow c d (dispatchRow c d)
  | 0x52 => s.eachRow c d (combineRow c d)
  | 0x60 => s.eachRow c d (embedRow c d)
  | 0x61 => s.eachRow c d (logitsRow c d)
  | 0x62 => s.eachRow c d (sampleRow c d)
  | 0x70 => s.eachRow c d (stateScanRow c d)
  | 0x78 => s.eachRow c d (cloudMoveRow c d)
  | _ => s

/-- Order of a unit among the requesters of a bank (R68). -/
def rankOf (unit : Nat) : Nat := match unit with | 1 => 2 | 2 => 3 | 3 => 4 | _ => 5

/-- The next descriptor is held by an operation that waits for words, so that no cycle for it is known yet (R93). -/
def SeqSt.heldByWait (q : SeqSt) (busy : RecvWait → List Range × List Range) (d : W256) (reads writes : List Range) : Bool :=
  q.waits.any fun w => dSync d || overlaps reads (busy w).2 || overlaps writes ((busy w).1 ++ (busy w).2)

/-- Issue of the next descriptor: timing first, then its effect. Nothing issues while no program runs, while one waits for a cycle or for its
END, and while the descriptor is held by an operation that waits for words. DESIGN CHOICE (log entry 133): the words of an operation are
written in the cycle before its results are readable. -/
def opIssue (c : Nat) (s : State) : State :=
  let k := s.core c
  let q := k.seq
  if q.prog = 0 || q.ending || q.waitUntil.isSome then s else
  match k.codeErr.getD q.pc 0 with
  | 2 =>
    -- an uncorrectable descriptor stops the program as an overrun; the steward rewrites the word (R64)
    ((s.updCore c fun k => { k with repairs := q.pc :: k.repairs }).overrun c q.prog).countOverrun c
  | e =>
    let d := k.code.getD q.pc 0
    let (reads, writes) := s.opRanges c d
    if q.heldByWait (fun w => s.opRanges c w.d) d reads writes then s else
    let s := if e = 1 then
        (s.updCore c fun k => { k with repairs := q.pc :: k.repairs }).bump (Reg.Core.SC_CORR (coreField c) (coreNum c))
      else s
    let t := issueCycle q d reads writes
    let (fl, macEnd) := s.flightOf c d t reads writes
    let u := unitOf (dOp d)
    -- a sequencing operation completes in the cycle it issues; one that waits for words joins the flights as it completes
    let s := s.updSeq c fun q =>
      if u = 0 then { q with cycle := t, pc := q.pc + 1 }
      else { q with
        cycle := t + 1, pc := q.pc + 1, macEnd := macEnd, wrRank := rankOf u, wrCycle := fl.ready - 1
        flights := if waitsForWords (dOp d) then q.flights else q.flights ++ [fl] }
    runOp c d s

def execDescriptorIssue (core : Nat) (s : State) : Result := .next (opIssue core s)

end Sys2Proof.Machine
end

