-- ==== Sys2Proof/Machine/Fabric.lean ====
section
/-! DEFINITION. The on-wafer fabric (R279-R301): routers and their tables, packets entering a router, remote accesses at a core and
their replies, Jetstream arrivals, and lost links. -/

namespace Sys2Proof.Machine

/-- The link-up bits of a router: ports 1-4 toward present sites, 0, and 5 where stacks have their home, less those down. -/
def State.linkUpMask (s : State) (u : Nat) : Nat :=
  ([0, 1, 2, 3, 4, 5].filter fun p =>
      !(s.router u).linksDown.contains p
        && (p = 0 || (neighbour u p).isSome || (p = 5 && (List.range 48).any fun n => stackHome n == u))).foldl
    (fun m p => m + 2 ^ p) 0

/-- A link direction goes down: its packets are discarded from now on, and LINK_DOWN is reported (R298). A link that comes back is
not used until a module or cold reset. -/
def opLinkDown (u port : Nat) (s : State) : State :=
  if (s.router u).linksDown.contains port then s else
  let s := s.updRouter u fun t => { t with linksDown := port :: t.linksDown }
  let s := s.put (Reg.Router.LINK_UP u) (s.linkUpMask u)
  s.event { code := 0x0701, field := u, placement := placementByte (s.field u).placement, stages := s.stagesOf u,
            detail := [(40, port)] }

def execLinkDown (router port : Nat) (s : State) : Result := .next (opLinkDown router port s)

/-- The port of the opposite direction. -/
def backPort (q : Nat) : Nat := match q with | 1 => 3 | 2 => 4 | 3 => 1 | 4 => 2 | q => q

/-- Uncorrectable flits have come in by a port: more of them within 1 ms than the threshold allows take the link direction down, at the router that
feeds it (R298). -/
def State.watchLink (s : State) (u port bad : Nat) : State :=
  if bad = 0 || port = 0 then s
  else
    let now := s.tick.wall480
    let recent := ((s.router u).badFlits.filter fun e => now < e.2.1 + 480 * 10 ^ 6) ++ [(port, now, bad)]
    let s := s.updRouter u fun t => { t with badFlits := recent }
    let total := ((recent.filter fun e => e.1 = port).map fun e => e.2.2).foldl (· + ·) 0
    if total ≤ s.linkDownTh then s
    else match neighbour u port with
      | some v => opLinkDown v (backPort port) s
      | none => if port = 5 then opLinkDown u 5 s else s

/-- Whether every link of a site is down: its router is lost. -/
def State.routerLost (s : State) (u : Nat) : Bool :=
  [1, 2, 3, 4].all fun p => match neighbour u p with
    | none => true
    | some v => (s.router u).linksDown.contains p || (s.router v).linksDown.contains (backPort p)

/-- The site by which an endpoint is reached: a stop whose home-site router is lost by the home site of the nearest stop in ring order, clockwise on
a tie, that has another, healthy router (R283, R299). -/
def State.reachSite (s : State) (e : Nat) : Option Nat :=
  (endpointSite e).map fun d =>
    if isStop e && s.routerLost d then
      let n := e - 3072
      (((List.range 47).flatMap fun k => [(n + k + 1) % 48, (n + 47 - k) % 48]).find? fun m => stackHome m ≠ d && !s.routerLost (stackHome m)).elim d stackHome
    else d

/-- Output port for an endpoint at router u: local 0 or edge 5 at its own site. -/
def RouteTables.outPort (t : RouteTables) (u e d : Nat) : Nat :=
  if u = d then (if isStop e then 5 else 0) else t.port u d

/-- A packet leaves router u by a port. -/
def State.forward (s : State) (u port : Nat) (p : Packet) : State := s.emit (.packet u port p)

/-- A STATUS reply from router u to the sender of a route (R282, R290, R297): 1 REFUSED, 3 ERROR. -/
def State.statusReply (s : State) (u : Nat) (r : Route) (status : Nat) : State :=
  let words := r.len + 1
  let reply : Route :=
    { dest := r.src, addr := 0, vc := 2, tag := r.tag, placement := 0, mcast := false, drop := false, ackreq := false, kind := 3,
      len := 0, src := 2816 + u }
  let p := packetOf reply (leBytes 2 status ++ leBytes 2 words ++ leBytes 4 r.addr ++ List.replicate 24 0)
  match s.reachSite r.src with
  | none => s
  | some d => s.forward u ((s.router u).act.outPort u r.src d) p

/-! ### Aliases (R289) and filter (R295) -/

/-- The destination after the injecting router's alias table, of a unicast packet that comes by a port: those of the cores of the entry's placement,
and what the edge ring injects for the field whatever its PLACEMENT, which is 0 there (R281, R289). -/
def RouteTables.alias_ (t : RouteTables) (port : Nat) (r : Route) : Nat :=
  let injected := port = 5 || (port = 0 && decide (r.src < 2816) && !isServiceEndpoint r.src)
  match t.aliases.find? fun e => injected && e.2.2.2.1 && e.2.1 == r.dest / 32 && (port = 5 || e.2.2.2.2 == r.placement) with
  | some (_, _, to_, _, _) => 32 * to_ + r.dest % 32
  | none => r.dest

/-- The destination router discards the packet for its local field (R295). -/
def RouteTables.filtered (t : RouteTables) (r : Route) : Bool :=
  t.filterOn && !(isServiceEndpoint r.src || isStop r.src || isSteward r.src || isRouterId r.src)
    && (r.placement != t.filterPlacement || (decide (r.tag < 8) && !t.filterMask.testBit r.tag))

/-- A field whose endpoints do not answer: off or LOST (R290). -/
def FieldSt.endpointsDown (fs : FieldSt) : Bool := fs.role == .lost || (fs.clock == .stopped && fs.role != .service)

/-! ### Merged reads (R292) -/

/-- Word count of a READ's data flit, and its reply address (R282). -/
def readWordsOf (p : Packet) : Nat := leNat (((flitRead (p.flits.headD 0)).1.drop 4).take 2)
def readReplyOf (p : Packet) : Nat := leNat ((flitRead (p.flits.headD 0)).1.take 4) % 2 ^ 20

/-- A Cloud READ at a router: merged into an open entry, or recorded and forwarded, or forwarded with MERGE_FULL counted. The answer
says whether it goes on. -/
def State.mergeRead (s : State) (u now : Nat) (r : Route) (p : Packet) : Bool × State :=
  if s.mergeWindow = 0 then (true, s) else
  let m := (s.router u).merges
  let matches_ (e : MergeEntry) : Bool :=
    !e.closed && decide (now ≤ e.opened + s.mergeWindow) && e.dest == r.dest && e.addr == r.addr && e.words == readWordsOf p
      && e.tag == r.tag
  match m.find? matches_ with
  | some e =>
    if e.requesters.length < 16 then
      (false, (s.updRouter u fun t => { t with merges := t.merges.map fun x =>
        if x == e then { x with requesters := x.requesters ++ [(r.src, readReplyOf p)] } else x }).bump (Reg.Router.MERGED u))
    else (true, s.bump (Reg.Router.MERGE_FULL u))
  | none =>
    if m.length < 32 then
      (true, s.updRouter u fun t => { t with merges := t.merges ++
        [⟨r.dest, r.addr, readWordsOf p, r.tag, now, false, [(r.src, readReplyOf p)]⟩] })
    else (true, s.bump (Reg.Router.MERGE_FULL u))

/-- A WRITE to a core closes the entries that read it (R292). -/
def State.closeMerges (s : State) (u : Nat) (dest : Nat) : State :=
  s.updRouter u fun t => { t with merges := t.merges.map fun e => if e.dest = dest then { e with closed := true } else e }

/-- A reply to a READ that a router has recorded: one copy to each recorded requester that is still reachable (R292). A STATUS reply in place of the
data ends the entry in the same way: DESIGN CHOICE (log entry 149), the manual names the DATA reply only. -/
def State.splitReply (s : State) (u : Nat) (r : Route) (p : Packet) : State × Bool :=
  let mine (e : MergeEntry) : Bool :=
    if r.kind = 3 then e.dest == r.src && e.addr == leNat (((flitRead (p.flits.headD 0)).1.drop 4).take 4) && (e.requesters.head?.map Prod.fst) == some r.dest
    else e.dest == r.src && e.words == r.len + 1 && e.requesters.head? == some (r.dest, r.addr)
  match (s.router u).merges.find? mine with
  | none => (s, false)
  | some e =>
    let s := s.updRouter u fun t => { t with merges := t.merges.filter (· != e) }
    (e.requesters.foldl (fun s q =>
      match s.reachSite q.1 with
      | none => s
      | some d =>
        let out := (s.router u).act.outPort u q.1 d
        if ((s.router u).act.site d).2 && out ≠ 7 && !(s.router u).linksDown.contains out then
          let w := ({ r with dest := q.1, addr := if r.kind = 3 then r.addr else q.2 } : Route).encode
          s.forward u out { p with route := w, crc := routeCrc w }
        else s) s, true)

/-! ### Packet entry (R280, R281, R290, R297) -/

/-- The check of every flit as a packet enters: corrected flits, and how many were corrected and uncorrectable. -/
def checkFlits (fs : List Flit) : List Flit × Nat × Nat :=
  let k := fs.map fun f => (flitRead f).2
  (fs.map flitFix, (k.filter (· = 1)).length, (k.filter (· = 2)).length)

/-- A route word with a reserved value, or an endpoint that does not exist (R281, R283). -/
def Route.reserved (r : Route) : Bool :=
  r.vc == 3 || decide (r.kind ≥ 5) || (!r.mcast && (endpointSite r.dest).isNone)

/-- A packet to one endpoint. -/
def State.unicast (s : State) (u port now : Nat) (r : Route) (p : Packet) : State :=
  let t := (s.router u).act
  -- the injecting router follows a move of the destination field
  let dest := t.alias_ port r
  let r := { r with dest := dest }
  let p := { p with route := r.encode, crc := routeCrc r.encode }
  let answers := r.kind = 1 || (r.kind = 0 && r.ackreq)
  match s.reachSite dest with
  | none => s.bump (Reg.Router.ROUTE_CORRUPT u)
  | some d =>
    let core := !(isStop dest || isSteward dest || isRouterId dest)
    -- REACH of a site stands for its field's endpoints; a stack, a router or a steward there is cut off only where no path is left (R24, R298)
    let cut := !(t.site d).2 && (core || (u ≠ d && t.port u d = 7))
    if cut || (u = d && core && (s.field d).endpointsDown) then
      let s := s.bump (Reg.Router.UNREACHABLE u)
      if answers then s.statusReply u r 1 else s
    else if u = d && core && t.filtered r then
      let s := s.bump (Reg.Router.ROUTE_FILTER u)
      if r.kind = 1 then s.statusReply u r 1 else s
    else
      let out := t.outPort u dest d
      if out = 7 || (s.router u).linksDown.contains out then
        let s := s.bump (Reg.Router.UNREACHABLE u)
        if r.kind = 1 then s.statusReply u r 1 else s
      else
        let s := if r.kind = 0 then s.closeMerges u dest else s
        if r.kind = 1 && r.vc = 2 then
          let (go, s) := s.mergeRead u now r p
          if go then s.forward u out p else s
        else if r.kind = 2 || r.kind = 3 then
          let (s, split) := s.splitReply u r p
          if split then s else s.forward u out p
        else s.forward u out p

/-- A multicast packet: a copy to every port of the mask but the one it came by, and to every local core of the mask (R291); copies for a link that
is down, and for a field that is off or LOST, are discarded and counted (R290, R298). -/
def State.multicast (s : State) (u port : Nat) (r : Route) (p : Packet) : State :=
  let (ports, cores) := (s.router u).act.groups.getD r.dest (0, 0)
  let s := ((List.range 6).filter fun n => ports.testBit n && n != 0 && n != port).foldl
    (fun s n => if (s.router u).linksDown.contains n then s.bump (Reg.Router.UNREACHABLE u) else s.forward u n p) s
  if cores = 0 then s
  else if (s.field u).endpointsDown then s.bump (Reg.Router.UNREACHABLE u)
  else if (s.router u).act.filtered r then s.bump (Reg.Router.ROUTE_FILTER u)
  else ((List.range 32).filter cores.testBit).foldl (fun s n => s.emit (.localPacket (32 * u + n) p)) s

/-- A packet enters router u by a port at a cycle count of the router, outside the guards. -/
def State.enterRouter (s : State) (u port now : Nat) (p : Packet) : State :=
  if routeCrc p.route ≠ p.crc then s.bump (Reg.Router.ROUTE_CORRUPT u) else
  let r := Route.decode p.route
  if r.reserved then s.bump (Reg.Router.ROUTE_CORRUPT u) else
  let (flits, fixed, bad) := checkFlits p.flits
  let s := if fixed = 0 then s else s.count (Reg.Router.FLIT_CORR u) fixed
  let s := if bad = 0 then s else (s.count (Reg.Router.FLIT_UNCORR u) bad).watchLink u port bad
  let p := { p with flits := flits }
  let go (s : State) (r : Route) : State :=
    let p := { p with route := r.encode, crc := routeCrc r.encode }
    if r.mcast then s.multicast u port r p else s.unicast u port now r p
  if bad = 0 then go s r
  else if r.vc = 1 then go s { r with drop := true }
  else if r.vc = 0 then s
  else if r.kind = 2 || r.kind = 3 then
    -- a DATA reply is replaced by STATUS ERROR toward its destination; so is a STATUS reply (DESIGN CHOICE, log entry 149)
    let e : Route := { r with kind := 3, addr := 0, len := 0 }
    let q := packetOf e (leBytes 2 3 ++ leBytes 2 (r.len + 1) ++ leBytes 4 r.addr ++ List.replicate 24 0)
    s.unicast u port now e q
  else s.statusReply u r 3

/-- The opening and the closing guard of a tick that runs (R37, R38). -/
def State.inGuard (s : State) (cycle : Nat) : Bool := s.tick.running && (decide (cycle < 8) || decide (s.tick.period ≤ cycle + 8))

/-- ROUTER_PACKET_ENTRY at a cycle of the tick; in a guard the packet waits for the first cycle after it (R38). -/
def opRouterEntry (u port cycle : Nat) (p : Packet) (s : State) : State :=
  if s.inGuard cycle then s.updRouter u fun r => { r with held := r.held ++ [(port, p)] }
  else s.enterRouter u port (s.tick.count * s.tick.period + cycle) p

def execRouterPacketEntry (router port cycle : Nat) (pkt : Packet) (s : State) : Result := .next (opRouterEntry router port cycle pkt s)

/-! ### Tables (R288) -/

/-- A table copy with one entry written. -/
def applyWrite (w : TableWrite) (t : RouteTables) : RouteTables :=
  match w with
  | .site i p reach => { t with sites := t.sites.set i (p, reach) }
  | .aliasEntry i a b valid p => { t with aliases := t.aliases.set i (a, b, valid, p) }
  | .group i ports cores => { t with groups := t.groups.set i (ports, cores) }
  | .filter p mask on => { t with filterPlacement := p, filterMask := mask, filterOn := on }

/-- Whether a port that leads into a router is followed by a westward move there: the west-first rule forbids any turn to the west
after another move (R288). -/
def State.turnsWest (s : State) (u d port : Nat) : Bool :=
  match neighbour u port with
  | none => false
  | some v => port != 4 && v != d && (s.router v).shadow.port v d == 4

/-- A site entry that would break the west-first turn rule. -/
def State.breaksWestFirst (s : State) (u d port : Nat) : Bool :=
  s.turnsWest u d port
    || (port == 4 && [1, 2, 3].any fun q =>
        -- a neighbour that enters u by a move other than west for d
        match neighbour u (match q with | 1 => 3 | 2 => 4 | _ => 1) with
        | none => false
        | some v => (s.router v).shadow.port v d == q)

/-- A Gust write fills the router's inactive copy; a site entry that breaks the rule is refused with BAD_PARAMETER (R288). -/
def opRouteWrite (u : Nat) (w : TableWrite) (s : State) : State :=
  let bad := match w with
    | .site d p _ => decide (p > 7) || s.breaksWestFirst u d p
    | _ => false
  if bad then s.emit (.gustStatus u .badParameter)
  else s.updRouter u fun t => { t with shadow := applyWrite w t.shadow, swapPending := true }

def execRouteTableWrite (router : Nat) (w : TableWrite) (s : State) : Result := .next (opRouteWrite router w s)

/-- The Zenith's Gust write to a router, one for what a slot writes there; it fills the inactive copy, to swap at the next boundary (R26,
R288). The model lets it arrive in the slot that sends it; the swap acknowledges it (log entry 126). -/
def State.writeRouter (s : State) (u : Nat) (g : RouteTables → RouteTables) : State :=
  let s := if s.gust.any fun e => e.2 = routerId u then s else s.sendGust (routerId u)
  s.updRouter u fun t => { t with shadow := g t.shadow, swapPending := true }

/-- Write every router's inactive copy, to swap at the next boundary. -/
def State.writeAll (s : State) (w : TableWrite) : State := s.forAll allFields fun s u => s.writeRouter u (applyWrite w)

/-- Every alias entry in force, numbered through: from field, to field, placement (R289). -/
def State.allAliases (s : State) : Tbl (Nat × Nat × Bool × Nat) :=
  let l := (List.range 4).flatMap fun p => (s.plc p).moved.map fun e => (e.1, e.2, true, p)
  (List.range (min l.length 16)).map fun i => (i, l.getD i (0, 0, false, 0))

/-- The Zenith writes the alias entries into every router where they have changed, to swap at the next boundary (R289). -/
def State.writeAliases (s : State) : State :=
  let l := s.allAliases
  s.forAll allFields fun s u =>
    if (s.router u).shadow.aliases == l then s else s.writeRouter u fun t => { t with aliases := l }

/-- Group g of placement p stands at entry 1,024 p + g of every router on the dimension-ordered tree from its root to its members, each at its
site (R289, R291). The entries go out with the order of the plan load or the move that changes them. -/
def State.writeGroups (s : State) (p : Nat) : State :=
  match (s.plc p).image with
  | none => s
  | some img =>
    let x := s.plc p
    s.forAll allFields fun s u => s.updRouter u fun t =>
      let kept := t.shadow.groups.filter fun e => e.1 / 1024 ≠ p
      let groups := (Config.planGroups img.headerHash).foldl (fun (l : Tbl (Nat × Nat)) g =>
        let e := groupEntry (x.siteOf g.2.1) (g.2.2.map fun m => 32 * x.siteOf (m / 32) + m % 32) u
        if e = (0, 0) then l else l.set (1024 * p + g.1 % 1024) e) kept
      { t with shadow := { t.shadow with groups := groups }, swapPending := t.swapPending || groups != t.shadow.groups }

/-- Clear or set REACH of a site in every table. -/
def State.setReach (s : State) (d : Nat) (reach : Bool) : State :=
  s.forAll allFields fun s u => s.writeRouter u fun t => applyWrite (TableWrite.site d (t.site d).1 reach) t

/-- The router block's registers that follow the active tables (R300). -/
def State.gaugeRouter (s : State) (u : Nat) : State :=
  let r := s.router u
  let t := r.act
  let s := (s.put (Reg.Router.AIRSPACES u) t.filterMask).put (Reg.Router.FILTER_ON u) (bit t.filterOn 0)
  let s := ((s.put (Reg.Router.PLACEMENT u) t.filterPlacement).put (Reg.Router.TABLE u) r.table).put (Reg.Router.REACH u) (bit (t.site u).2 0)
  s.put (Reg.Router.ALIASES u) ((t.aliases.filter fun e => e.2.2.2.1).foldl (fun m e => m + 2 ^ e.1) 0)

/-- The two copies swap at a boundary: the written copy becomes active, and both then hold the same (R288). -/
def State.swapTables (s : State) (u : Nat) : State :=
  if (s.router u).swapPending then
    ((s.ackGust (routerId u)).updRouter u fun t => { t with act := t.shadow, table := 1 - t.table, swapPending := false }).gaugeRouter u
  else s

/-! ### Remote accesses at a core (R71-R73) -/

/-- The segment filter (R72): does a core of a field in placement `p` accept a request of this tag, placement and sender? -/
def tagAccepts (segTag : Nat) (p : Option Nat) (r : Route) : Bool :=
  let same := p == some r.placement
  if segTag < 8 then
    (same && (r.tag == segTag || r.tag == 8)) || (r.tag == segTag && (isServiceEndpoint r.src || isStop r.src))
  else if segTag = 8 then (same && r.tag == 8) || (decide (r.src / 32 = 2) && decide (r.src < 2816))
  else false

/-- Where a remote access that names core c lies: a failed core's segments through the absorption map (R80). -/
def State.remotePlace (s : State) (c lin : Nat) : Nat × Nat :=
  if (s.core c).state == .failed then
    match (s.field (coreField c)).absMap.find? fun e => e.1 == coreNum c && e.2.1 == segOf lin with
    | some (_, _, c', seg) => (32 * coreField c + c', seg * 2048 + lin % 2048)
    | none => (c, lin)
  else (c, lin)

/-- Whether the core of a place takes this request: powered bank, live core, valid address, and, for a remote access, an accepted tag; scheduled
transfers on Jetstream are not subject to the filter (R71, R73). -/
def State.remoteOk (s : State) (r : Route) (c lin : Nat) : Bool :=
  let (c', lin') := s.remotePlace c lin
  let k := s.core c'
  decide (lin < scratchWords) && isCore c && k.state != .failed && k.bankUp (lin' / 57344)
    && (r.vc != 2 || tagAccepts (k.tag (segOf lin')) (s.field (coreField c')).placement r)

def State.remoteRangeOk (s : State) (r : Route) (c n : Nat) : Bool :=
  validLocal r.addr && (List.range n).all fun i => s.remoteOk r c (linLocal r.addr + i)

/-- A status reply from a core to a requester (R282). -/
def State.coreStatus (s : State) (c : Nat) (r : Route) (status n : Nat) : State :=
  let reply : Route :=
    { dest := r.src, addr := 0, vc := 2, tag := r.tag, placement := s.placementOf c, mcast := false, drop := false,
      ackreq := false, kind := 3, len := 0, src := c }
  s.emit (.localPacket c (packetOf reply (leBytes 2 status ++ leBytes 2 n ++ leBytes 4 r.addr ++ List.replicate 24 0)))

def packetData (p : Packet) : List Byte := p.flits.flatMap fun f => (flitRead f).1

/-- The deputy of a failed core, or the core itself. -/
def State.worker (s : State) (c : Nat) : Nat :=
  if (s.core c).state == .failed then ((coresOf (coreField c)).find? fun n => (s.core n).deputyOf == some (coreNum c) && (s.core n).state != .failed).getD c
  else c

/-- Words that the fabric has written for a core: in place, by a requester of order `rank` in a cycle of the tick (R68), redirected where the
core has failed (R80); their arrival is noted, and with it the row-drop bit (R92). -/
def State.deliver (s : State) (c rank cycle lo n : Nat) (drop : Bool) (data : List Byte) : State :=
  let s := (List.range n).foldl (fun s i =>
    let (c', lin') := s.remotePlace c (lo + i)
    s.storeAt c' lin' rank cycle ((data.drop (32 * i)).take 32)) s
  let ws := (List.range n).map fun i => lo + i
  let s := s.updSeq c fun q => { q with
    arrived := q.arrived.filter (fun e => !ws.contains e.1) ++ ws.map fun w => (w, cycle)
    dropWords := q.dropWords.filter (fun w => !ws.contains w) ++ (if drop then ws else []) }
  s.arrivalCheck (s.worker c)

/-- A remote WRITE (R72, R73): the words in place, or no effect, counted FILTER; one that has waited longer than the limit in cycles is dropped
and counted REMOTE_BUSY. A write with ACKREQ is answered OK, REFUSED or BUSY. -/
def opFabricWrite (c cycle waited : Nat) (p : Packet) (s : State) : State :=
  let r := Route.decode p.route
  let n := r.len + 1
  let answer (s : State) (status : Nat) : State := if r.ackreq then s.coreStatus c r status n else s
  if !s.remoteRangeOk r c n then answer (s.bump (Reg.Core.FILTER (coreField c) (coreNum c))) 1
  else if s.remoteWait < waited then answer (s.bump (Reg.Core.REMOTE_BUSY (coreField c) (coreNum c))) 2
  else answer (s.deliver c 6 cycle (linLocal r.addr) n r.drop (packetData p)) 0

/-- A packet at a service-field endpoint: the port engine there takes it (R308). -/
def State.atEngine (s : State) (c : Nat) (p : Packet) (send : Bool) (k : State → State) : State :=
  match portOfEngine c with
  | some n => if send then s.engineSend n p else s.engineReply n p
  | none => k s

def execFabricWrite (core : Nat) (pkt : Received) (s : State) : Result :=
  .next (s.atEngine core pkt.pkt true (opFabricWrite core pkt.cycle pkt.waited pkt.pkt))

/-- A remote READ (R72, R73, R282): a DATA reply with the words, or a STATUS reply: REFUSED, counted FILTER; BUSY, counted REMOTE_BUSY, where it
has waited longer than the limit; ERROR where a word is uncorrectable. -/
def opFabricRead (c waited : Nat) (p : Packet) (s : State) : State :=
  let r := Route.decode p.route
  let n := readWordsOf p
  if !(decide (1 ≤ n) && decide (n ≤ 64) && s.remoteRangeOk r c n) then (s.bump (Reg.Core.FILTER (coreField c) (coreNum c))).coreStatus c r 1 n
  else if s.remoteWait < waited then (s.bump (Reg.Core.REMOTE_BUSY (coreField c) (coreNum c))).coreStatus c r 2 n
  else
    let places := (List.range n).map fun i => s.remotePlace c (linLocal r.addr + i)
    let f := coreField c
    -- an error is counted in the core that holds the word, and its bank takes part in the rule of R77
    let s := places.foldl (fun s x =>
      match (s.core x.1).scErr.getD x.2 0 with
      | 0 => s
      | 1 => s.bump (Reg.Core.SC_CORR f (coreNum x.1))
      | _ => (s.bump (Reg.Core.SC_UNCORR f (coreNum x.1))).updCore x.1 fun k => { k with bankErrors := (x.2 / 57344, s.tick.count) :: k.bankErrors }) s
    if places.any fun x => 2 ≤ (s.core x.1).scErr.getD x.2 0 then s.coreStatus c r 3 n else
    let reply : Route :=
      { dest := r.src, addr := readReplyOf p, vc := r.vc, tag := r.tag, placement := s.placementOf c, mcast := false, drop := false,
        ackreq := false, kind := 2, len := n - 1, src := c }
    s.emit (.localPacket c (packetOf reply (places.flatMap fun x => (s.core x.1).word x.2)))

def execFabricRead (core : Nat) (pkt : Received) (s : State) : Result :=
  .next (s.atEngine core pkt.pkt true (opFabricRead core pkt.waited pkt.pkt))

/-! ### Words arriving at a core -/

/-- A packet's words at its ADDR; an uncorrectable flit marks the words like the row-drop bit (R92). -/
def State.receive (s : State) (c rank cycle : Nat) (p : Packet) : State :=
  let r := Route.decode p.route
  let (flits, _, bad) := checkFlits p.flits
  s.deliver c rank cycle (linLocal r.addr) flits.length (r.drop || decide (bad > 0)) (flits.flatMap fun f => (flitRead f).1)

/-- A failed core whose work a deputy has taken over (R79). -/
def State.absorbed (s : State) (c : Nat) : Bool := s.worker c != c

/-- A Jetstream packet reaches its scratchpad; after cycle P − 67 it is discarded and counted LATE_JET (R39, R42). A failed core takes nothing
until its work is absorbed; then its words go where the absorption map says (R80). -/
def opJetArrival (c cycle : Nat) (p : Packet) (s : State) : State :=
  if (s.core c).state == .failed && !s.absorbed c then s
  else if cycle + 67 > s.tick.period then (s.bump Reg.Evc.LATE_JET).mark Reg.Tick.LATE_JET
  else s.receive c 1 cycle p

def execJetstreamArrival (core cycle : Nat) (pkt : Packet) (s : State) : Result :=
  .next (s.atEngine core pkt true (opJetArrival core cycle pkt))

/-- A request of core c to a global target is complete. -/
def State.endRemote (s : State) (c : Nat) (done : RemoteReq → Bool) : State :=
  s.updCore c fun k => { k with remote := k.remote.filter fun q => !done q }

/-- A DATA reply writes its words from the reply address onward (R282). -/
def opDataReply (c cycle : Nat) (p : Packet) (s : State) : State :=
  let r := Route.decode p.route
  (s.endRemote c fun q => q.dest == r.src && q.reply == r.addr).receive c 6 cycle p

def execFabricDataReply (core : Nat) (pkt : Received) (s : State) : Result :=
  .next (s.atEngine core pkt.pkt false (opDataReply core pkt.cycle pkt.pkt))

/-- A STATUS reply completes the request for the address it names (R282); one that a router has put in place of a DATA reply names the reply
address (R297). -/
def opStatusReply (c : Nat) (p : Packet) (s : State) : State :=
  let addr := leNat (((packetData p).drop 4).take 4)
  let src := (Route.decode p.route).src
  s.endRemote c fun q => q.addr == addr || (q.reply == addr && q.dest == src)

def execFabricStatusReply (core : Nat) (pkt : Packet) (s : State) : Result :=
  .next (s.atEngine core pkt false (opStatusReply core pkt))

/-- A Cloud READ left unanswered is completed as BUSY and counted REMOTE_BUSY (R296). -/
def opRemoteTimeout (c addr : Nat) (s : State) : State :=
  if (s.core c).remote.any fun q => q.addr == addr then
    (s.endRemote c fun q => q.addr == addr).bump (Reg.Core.REMOTE_BUSY (coreField c) (coreNum c))
  else s

def execRemoteWaitTimeout (core address : Nat) (s : State) : Result := .next (opRemoteTimeout core address s)

/-! ### Lost links (R298) -/

/-- The link from u by a port works in the u direction. -/
def State.linkUp (s : State) (u port : Nat) : Bool := (neighbour u port).isSome && !(s.router u).linksDown.contains port

/-- One relaxation of distances to d over north, east and south moves. -/
def State.relax (s : State) (d : Nat) (t : Tbl Nat) : Tbl Nat :=
  allFields.foldl (fun t u =>
    if u = d then t else
    let best := ([2, 1, 3].filterMap fun p =>
      if s.linkUp u p then (neighbour u p).bind fun v => (t.find v).map (· + 1) else none).foldl
        (fun (b : Option Nat) x => match b with | none => some x | some y => some (min x y)) none
    match best with
    | none => t
    | some x => t.set u x) t

def iterate {α : Type} (f : α → α) : Nat → α → α
  | 0, x => x
  | n + 1, x => iterate f n (f x)

/-- The detour port of router u toward d under the west-first rule: a north, east or south move where such a path exists, else a
westward one; 7 and unreachable where neither does (R288, R298). -/
def State.detourPort (s : State) (d : Nat) (t : Tbl Nat) (u : Nat) : Nat × Bool :=
  if u = d then (6, true) else
  let step := ([2, 1, 3].filter fun p => s.linkUp u p).filterMap fun p =>
    (neighbour u p).bind fun v => (t.find v).map fun x => (p, x)
  match step.foldl (fun (b : Option (Nat × Nat)) x => match b with
      | none => some x
      | some y => if x.2 < y.2 then some x else some y) none with
  | some (p, _) => (p, true)
  | none => if s.linkUp u 4 then (4, true) else (7, false)

/-- Detours for every destination into every router's inactive copy, REACH cleared for sites cut off; the tables swap at the next
boundary (R298). -/
def State.writeDetours (s : State) : State :=
  s.forAll allFields fun s d =>
    let t := iterate (s.relax d) 20 [(d, 0)]
    let lost := s.routerLost d
    s.forAll allFields fun s u =>
      let (p, ok) := s.detourPort d t u
      s.writeRouter u fun t => applyWrite (TableWrite.site d p (ok && !lost && (t.site d).2)) t

end Sys2Proof.Machine
end

