-- ==== Sys2Proof/Machine/Sessions.lean ====
section
/-! DEFINITION. Session bookkeeping shared by clearance, streams, recovery and resets: handles (R209), stream records (R255, R256),
KV carving, regions and page counts (R186-R195), lanes and the prefill ledger (R212-R219), how a session ends or loses its KV
(R228-R237), and the outlook (R354, R355). -/

namespace Sys2Proof.Machine

/-! ### Handles (R209) -/

def allSessions : List Nat := List.range 4096

/-- Indices of the descriptors that are listed; an unlisted descriptor is FREE. -/
def State.sessIds (s : State) : List Nat := s.sessions.map Prod.fst

def handleOf (n : Nat) (d : Desc) : Nat := d.generation * 4096 + n

/-- The descriptor a handle names, if its generation matches and it is in use. -/
def State.named (s : State) (h : Nat) : Option Nat :=
  let d := s.sess (h % 4096)
  if d.st ≠ .free && d.generation = h / 4096 then some (h % 4096) else none

/-- The descriptor a handle of an airspace names. -/
def State.namedBy (s : State) (a h : Nat) : Option Nat :=
  (s.named h).filter fun n => (s.sess n).airspace == a

/-- Lowest-numbered FREE descriptor. -/
def State.freeDesc (s : State) : Option Nat :=
  (List.range (s.sessions.length + 1)).find? fun n => n < 4096 && (s.sess n).st == .free

def SessState.promises : SessState → Bool
  | .queued | .prefill | .decode => true
  | _ => false

/-- Length of a session class (R239). -/
def classLen (c : Nat) : Nat := [4096, 16384, 32768, 131072].getD c 4096

/-- Counters and gauges of R240: set from the descriptors. -/
def State.gaugeSessions (s : State) : State :=
  s.forAll (List.range 8) fun s a =>
    let n (st : SessState) := (s.sessions.filter fun e => e.2.airspace = a && e.2.st == st).length
    let s := s.put (Reg.Ses.DECODE a) (n .decode)
    let s := s.put (Reg.Ses.PREFILL a) (n .prefill)
    let s := s.put (Reg.Ses.PAUSED a) (n .paused)
    let s := s.put (Reg.Ses.QUEUED a) (n .queued)
    let s := s.put (Reg.Ses.WAITING a) (s.asp a).waiting.length
    s.put (Reg.Cloud.PAUSED_HELD a) (s.sessions.filter fun e => e.2.airspace = a && e.2.st == .paused && e.2.kvHeld).length

/-! ### Stream records (R255, R256) -/

/-- Put a record into the batch of the tick under way. -/
def State.push (s : State) (n : Nat) (kind marks aux value index : Nat) : State :=
  let d := s.sess n
  { s with records := s.records ++ [(d.airspace, d.dest, ⟨handleOf n d, index, kind, marks, aux, value⟩)] }

/-- A session's marks (R256); CANCEL_LATE only in an END record. -/
def Desc.marks (d : Desc) : Nat := bit d.rebuilt 0 + bit d.faultDelayed 1 + bit d.stretchExceeded 2 + bit d.cancelLate 3

/-! ### KV-holding cores (R176) -/

/-- A core's KV_APPEND, if it holds KV. -/
def CoreSt.kvAppend (k : CoreSt) : Option W256 :=
  ((List.range k.decode.len).map fun i => k.code.getD (k.decode.base + i) 0).find? fun d => dOp d = 0x43

/-- Cores of a placement, ascending. -/
def State.coresOfPlacement (s : State) (p : Nat) : List Nat :=
  (s.cores.filter fun e => (s.field (coreField e.1)).placement == some p && (s.field (coreField e.1)).role == .active).map Prod.fst

def State.kvCores (s : State) (p : Nat) : List Nat := (s.coresOfPlacement p).filter fun c => (s.core c).kvAppend.isSome

/-- Rank of a KV-holding core in its stage, the stage's split S and the core's share (R176). -/
def State.kvShare (s : State) (c : Nat) : Nat × Nat :=
  match (s.field (coreField c)).placement with
  | none => (1, 0)
  | some p =>
    let peers := (s.kvCores p).filter fun x => (s.core x).stage = (s.core c).stage
    let hc := match (s.core c).kvAppend with | some d => dCount d | none => 1
    let heads := match (s.plc p).image with | some i => i.kvHeads | none => 1
    let split := max 1 (peers.length * hc / max 1 heads)
    (split, (peers.takeWhile (· != c)).length % split)

/-- Words B_w of a block of a KV-holding core (R179). -/
def State.kvBlock (s : State) (c : Nat) : Nat :=
  match (s.core c).kvAppend with
  | some d => blockWords (dCount d) (kvTb (dP0 d)) (kvOmega (dP0 d))
  | none => 0

/-- Entries of a class in a core's map, and words of the map (R188). -/
def mapEntries (cls split : Nat) : Nat := classLen cls / (64 * split)
def mapWords (cls split : Nat) : Nat := 1 + ceilDiv (mapEntries cls split) 8

/-! ### Carving (R186, R187) -/

/-- Segments of a core's powered banks, ascending (28 segments of 2,048 words to a bank, R71). -/
def CoreSt.bankSegs (k : CoreSt) : List Nat := (List.range 448).filter fun g => k.bankMask.getLsbD (g / 28)

/-- Segments that load entries write (R157, R186). -/
def CoreSt.planSegs (k : CoreSt) : List Nat :=
  (List.range 448).filter fun g => k.loads.any fun e =>
    decide (linLocal e.dest < 2048 * (g + 1)) && decide (2048 * g < linLocal e.dest + e.words)

/-- The absorption reserve takes the highest usable segments, the adapter pool those below it (log entry 45). -/
def CoreSt.openSegs (k : CoreSt) : List Nat := k.bankSegs.filter fun g => !k.planSegs.contains g
def CoreSt.reserveSegs (k : CoreSt) : List Nat := k.openSegs.drop (k.openSegs.length - k.reserveSeg)
def CoreSt.adapterSegs (k : CoreSt) : List Nat :=
  let below := k.openSegs.take (k.openSegs.length - k.reserveSeg)
  below.drop (below.length - k.adapterSeg)
/-- What the plan leaves below them. -/
def CoreSt.leftSegs (k : CoreSt) : List Nat :=
  let below := k.openSegs.take (k.openSegs.length - k.reserveSeg)
  below.take (below.length - k.adapterSeg)
/-- The core's decode program runs SAMPLE. -/
def CoreSt.samples (k : CoreSt) : Bool := (List.range k.decode.len).any fun i => dOp (k.code.getD (k.decode.base + i) 0) = 0x62
/-- Segments of a core's sampling blocks: 1,024 blocks, 113 to a segment (R225). DESIGN CHOICE (log entry 45): they are the ten highest segments
that the plan leaves, and in a core that holds KV, whose pool takes all of those (R186), the ten highest that load entries write: the image sets
room aside for them. -/
def CoreSt.sampleSegs (k : CoreSt) : List Nat :=
  if !k.samples then []
  else
    let home := if k.kvAppend.isSome then k.bankSegs.filter k.planSegs.contains else k.leftSegs
    home.drop (home.length - 10)
/-- The KV pool (R186). -/
def CoreSt.poolSegs (k : CoreSt) : List Nat := k.leftSegs

/-- Airspaces bound to a placement, ascending. -/
def State.boundTo (s : State) (p : Nat) : List Nat := (List.range 8).filter fun a => (s.asp a).placement == some p

/-- The pool segments an airspace receives in a core (R186). -/
def State.airSegs (s : State) (p a c : Nat) : List Nat :=
  let pool := (s.core c).poolSegs
  let share (x : Nat) := (s.asp x).kvShare * pool.length / 100
  let before := (((s.boundTo p).filter (· < a)).map share).foldl (· + ·) 0
  (pool.drop before).take (share a)

/-- Runs of consecutive linear words of a segment list: (first word, words). -/
def segRuns : List Nat → List (Nat × Nat)
  | [] => []
  | g :: gs =>
    match segRuns gs with
    | (b, n) :: rest => if b = 2048 * (g + 1) then (2048 * g, n + 2048) :: rest else (2048 * g, 2048) :: (b, n) :: rest
    | [] => [(2048 * g, 2048)]

/-- Take `want` words from the first run that holds them. -/
def takeRun (want : Nat) : List (Nat × Nat) → Option (Nat × List (Nat × Nat))
  | [] => none
  | (b, n) :: rest =>
    if want ≤ n then some (b, (b + want, n - want) :: rest)
    else (takeRun want rest).map fun r => (r.1, (b, n) :: r.2)

/-- Take up to k pieces of a size. -/
def takeRuns (want : Nat) : Nat → List (Nat × Nat) → List Nat × List (Nat × Nat)
  | 0, runs => ([], runs)
  | k + 1, runs =>
    match takeRun want runs with
    | none => ([], runs)
    | some (b, runs) => let (bs, runs) := takeRuns want k runs; (b :: bs, runs)

/-- Carve an airspace's segments of one core; none: a set number does not fit (R187). -/
def State.carveCore (s : State) (p a c : Nat) : Option Carving :=
  let asp := s.asp a
  let mask := match (s.plc p).image with | some i => i.classMask | none => 0
  let has (cls : Nat) : Bool := bits mask cls cls = 1
  let (split, _) := s.kvShare c
  let bw := s.kvBlock c
  let size (cls : Nat) := mapWords cls split + mapEntries cls split * bw
  let runs := segRuns (s.airSegs p a c)
  let pool := asp.pool / split
  let (pages, runs) := takeRuns (4 * bw) pool runs
  let want (cls n : Nat) := if has cls then n else 0
  let (k3, runs) := takeRuns (size 3) (want 3 asp.slots128k) runs
  let (k2, runs) := takeRuns (size 2) (want 2 asp.slots32k) runs
  let (k1, runs) := takeRuns (size 1) (want 1 asp.slots16k) runs
  let small := ([0, 1, 2, 3].find? has).getD 0
  -- until no further slot fits: the airspace's words bound their number
  let (rest, _) := takeRuns (size small) (runs.foldl (fun n r => n + r.2) 0) runs
  if pages.length < pool || k3.length < want 3 asp.slots128k || k2.length < want 2 asp.slots32k || k1.length < want 1 asp.slots16k
  then none
  else some {
    core := c
    pageSlots := pages.map fun b => (b, none)
    slots := k3.map (fun b => (3, b, none)) ++ k2.map (fun b => (2, b, none)) ++ k1.map (fun b => (1, b, none))
      ++ rest.map (fun b => (small, b, none)) }

/-- Tag an airspace's segments; the change applies at the boundary (R72, R186). -/
def State.tagSegs (s : State) (c tag : Nat) (segs : List Nat) : State :=
  s.updCore c fun k => { k with nextTags := k.nextTags ++ segs.map fun g => (g, tag) }

/-- Carve for one airspace in every KV-holding core; none where some core does not fit. -/
def State.carve (s : State) (p a : Nat) : Option State :=
  let cs := s.kvCores p
  let cv := cs.map (s.carveCore p a)
  if cv.any Option.isNone then none
  else
    let s := s.forAll cs fun s c =>
      let new := s.airSegs p a c
      let left := (s.core c).poolSegs.filter fun g => (s.core c).tags.getD g 0xF = a && !new.contains g
      (s.tagSegs c 0xF left).tagSegs c a new
    some (s.updAsp a fun x => { x with carvings := cv.filterMap id, pageRefs := [], pageDue := [], pageZero := [] })

/-- The routers of a placement's fields pass its own packets and the tags of the airspaces bound to it (R295); the filter is on from the
first bind. -/
def State.setFilters (s : State) (p : Nat) : State :=
  let mask := (s.boundTo p).foldl (fun m a => m + 2 ^ a) 0
  s.forAll computeFields fun s f =>
    let r := s.router f
    if (s.field f).placement != some p || (mask = 0 && !r.shadow.filterOn) then s
    else if r.shadow.filterOn && r.shadow.filterPlacement = p && r.shadow.filterMask = mask then s
    else s.updRouter f fun t => { t with shadow := applyWrite (.filter p mask true) t.shadow, swapPending := true }

/-- Slots of a class in every KV-holding core: the smallest number carved (R187). -/
def AirspaceSt.slotCount (x : AirspaceSt) (cls : Nat) (free : Bool) : Nat :=
  let n := x.carvings.map fun cv => (cv.slots.filter fun e => e.1 = cls && (!free || e.2.2.isNone)).length
  match n with
  | [] => 0
  | m :: ms => ms.foldl min m

/-- Slot gauges of R207. -/
def State.gaugeKv (s : State) : State :=
  s.forAll computeFields fun s f =>
    if !(s.fields.has f) then s else
    s.forAll (List.range 8) fun s a =>
      let cvs := (s.asp a).carvings.filter fun cv => coreField cv.core = f
      let small (l : List Nat) := match l with | [] => 0 | m :: ms => ms.foldl min m
      let tot (cls : Nat) := small (cvs.map fun cv => (cv.slots.filter fun e => e.1 = cls).length)
      let fre (cls : Nat) := small (cvs.map fun cv => (cv.slots.filter fun e => e.1 = cls && e.2.2.isNone).length)
      let s := (s.put (Reg.Kv.SLOTS_4K f a) (tot 0)).put (Reg.Kv.FREE_4K f a) (fre 0)
      let s := (s.put (Reg.Kv.SLOTS_16K f a) (tot 1)).put (Reg.Kv.FREE_16K f a) (fre 1)
      let s := (s.put (Reg.Kv.SLOTS_32K f a) (tot 2)).put (Reg.Kv.FREE_32K f a) (fre 2)
      let s := (s.put (Reg.Kv.SLOTS_128K f a) (tot 3)).put (Reg.Kv.FREE_128K f a) (fre 3)
      let s := s.put (Reg.Kv.PAGES f a) (small (cvs.map fun cv => cv.pageSlots.length))
      s.put (Reg.Kv.PAGES_FREE f a) (small (cvs.map fun cv => (cv.pageSlots.filter fun e => e.2.isNone).length))

/-! ### Prefix pages (R191-R195) -/

def prefixHandle (e : Nat) (x : PrefixEntry) : Nat := x.generation * 256 + e

/-- The prefix entry a handle names; none: its generation does not match. -/
def AirspaceSt.prefixNamed (x : AirspaceSt) (h : Nat) : Option Nat :=
  let e := h % 256
  if (x.prefixes.getD e {}).generation = h / 256 then some e else none

/-- Take or give up holds on pages: their counts change at the boundary (R193). -/
def AirspaceSt.hold (x : AirspaceSt) (pages : List Nat) : AirspaceSt := { x with pageDue := x.pageDue ++ pages.map fun p => (p, true) }
def AirspaceSt.unhold (x : AirspaceSt) (pages : List Nat) : AirspaceSt := { x with pageDue := x.pageDue ++ pages.map fun p => (p, false) }

/-- A reference count of 16 bits after one hold taken or given up (R191). -/
def countHold (t : Tbl Nat) (e : Nat × Bool) : Tbl Nat := t.set e.1 (if e.2 then min 65535 (t.getD e.1 0 + 1) else t.getD e.1 0 - 1)
/-- The counts as the holds taken and given up leave them. -/
def AirspaceSt.countHolds (x : AirspaceSt) : AirspaceSt := { x with pageRefs := x.pageDue.foldl countHold x.pageRefs, pageDue := [] }

/-- Pages taken by FILLING entries or by a copy under way stay although their count is 0. -/
def AirspaceSt.filling (x : AirspaceSt) : List Nat := (x.prefixes.filter fun e => e.2.st == .filling).flatMap fun e => e.2.pages

/-- As a boundary begins: what was held or given up in the tick is counted, and page slots whose count reached 0 at the boundary before, and is
0 still, are FREE (R193). -/
def AirspaceSt.purgePages (x : AirspaceSt) : AirspaceSt :=
  let x := x.countHolds
  let keep := x.filling
  let dead := x.pageZero.filter fun id => x.pageRefs.getD id 0 = 0 && !keep.contains id
  { x with
    pageRefs := x.pageRefs.filter fun e => !dead.contains e.1
    pageZero := []
    carvings := x.carvings.map fun cv => { cv with pageSlots := cv.pageSlots.map fun ps =>
      match ps.2 with
      | some id => if dead.contains id then (ps.1, none) else ps
      | none => ps } }

/-- As a boundary ends: what it held and gave up is counted; pages without a hold are noted, and a RETIRING entry without held pages is FREE. -/
def AirspaceSt.settlePages (x : AirspaceSt) : AirspaceSt :=
  let x := x.countHolds
  let keep := x.filling
  { x with
    pageZero := (x.pageRefs.filter fun e => e.2 = 0 && !keep.contains e.1).map Prod.fst
    prefixes := x.prefixes.map fun (e : Nat × PrefixEntry) =>
      if e.2.st == .retiring && e.2.pages.all (fun p => x.pageRefs.getD p 0 = 0)
      then (e.1, { generation := e.2.generation % 0xFFFFFF + 1 }) else e }

/-- Cores of an airspace that hold logical page u: those whose share is u mod S (R176). -/
def State.pageCores (s : State) (a u : Nat) : List Nat :=
  (s.asp a).carvings.filterMap fun cv =>
    let (split, share) := s.kvShare cv.core
    if u % split = share then some cv.core else none

/-- Take a page slot for logical page u in every core that holds it; none: some core has no free slot. -/
def State.takePage (s : State) (a u : Nat) : Option (Nat × State) :=
  let cs := s.pageCores a u
  let x := s.asp a
  let free (cv : Carving) : Bool := cv.pageSlots.any fun ps => ps.2.isNone
  if x.carvings.all fun cv => !cs.contains cv.core || free cv then
    let id := x.nextPage
    let put : List (Nat × Option Nat) → List (Nat × Option Nat) := fun l =>
      let before := l.takeWhile fun ps => ps.2.isSome
      match l.drop before.length with
      | [] => before
      | ps :: rest => before ++ (ps.1, some id) :: rest
    some (id, s.setAsp a { x with
      nextPage := id + 1
      pageRefs := x.pageRefs.set id 0
      carvings := x.carvings.map fun cv => if cs.contains cv.core then { cv with pageSlots := put cv.pageSlots } else cv })
  else none

/-- Take the pages of a list of logical page numbers, all or none. -/
def State.takePages (s : State) (a : Nat) : List Nat → Option (List Nat × State)
  | [] => some ([], s)
  | u :: us =>
    match s.takePage a u with
    | none => none
    | some (id, s) => (s.takePages a us).map fun r => (id :: r.1, r.2)

/-- Word address of a page in a core. -/
def Carving.pageBase (cv : Carving) (id : Nat) : Option Nat := (cv.pageSlots.find? fun ps => ps.2 == some id).map Prod.fst

/-! ### Regions and block maps (R188-R190) -/

/-- Leading entries of a core's map for full shared pages of the given numbers: PREF (R190). -/
def State.prefOf (s : State) (c : Nat) (shared : List Nat) : Nat :=
  let (split, share) := s.kvShare c
  4 * (shared.filter fun u => u % split = share).length

/-- Free region classes, smallest first, that every KV-holding core can give (R190). -/
def State.regionClass (s : State) (p a cls : Nat) (shared : List Nat) : Option Nat :=
  let mask := match (s.plc p).image with | some i => i.classMask | none => 0
  let cvs := (s.asp a).carvings
  [0, 1, 2, 3].find? fun c' => bits mask c' c' = 1 && (!cvs.isEmpty || (s.kvCores p).isEmpty) && cvs.all fun cv =>
    let (split, _) := s.kvShare cv.core
    decide (mapEntries cls split - s.prefOf cv.core shared ≤ mapEntries c' split)
      && cv.slots.any fun e => e.1 = c' && e.2.2.isNone

/-- The lowest-address free slot of a class in a core. -/
def Carving.freeSlot (cv : Carving) (cls : Nat) : Option Nat :=
  (cv.slots.filter fun e => e.1 = cls && e.2.2.isNone).foldl
    (fun m e => match m with | none => some e.2.1 | some b => some (min b e.2.1)) none

/-- One entry of a block map (R188). -/
def mapEntry (addr : Nat) (shared : Bool) : List Byte := leBytes 4 (addr % 2 ^ 20 + bit shared 30 + 2 ^ 31)

/-- The words of a core's block map: header, shared pages, pages under registration, private entries (R190, R192). -/
def mapBytes (split share entries bw kvBase : Nat) (shared own : List Nat) : List Byte :=
  let blocks (l : List Nat) (sh : Bool) := l.flatMap fun b => (List.range 4).flatMap fun i => mapEntry (b + i * bw) sh
  let lead := 4 * (shared.length + own.length)
  let body := leBytes 2 split ++ leBytes 2 share ++ leBytes 4 entries ++ leBytes 4 (4 * shared.length) ++ List.replicate 20 0
    ++ blocks shared true ++ blocks own false
    ++ (List.range (entries - lead)).flatMap fun j => mapEntry (kvBase + j * bw) false
  body ++ List.replicate ((32 - body.length % 32) % 32) 0

/-- The full pages that a registering session writes in their page slots, ascending (R192). -/
def State.ownPages (s : State) (n : Nat) : List Nat :=
  let d := s.sess n
  match d.registering with
  | some e =>
    let pe := (s.asp d.airspace).prefixes.getD e {}
    (pe.pages.take (pe.tokens / 256)).filter fun id => !d.pages.contains id
  | none => []

/-- Write a session's block map in every KV-holding core. DESIGN CHOICE (log entry 145): the region stands behind the map words of its own class
c'; where c' is smaller than the session's class, the longer map overlaps the region's first words, and the manual does not say which map words
KV_BASE skips. -/
def State.writeMaps (s : State) (n : Nat) : State :=
  let d := s.sess n
  let x := s.asp d.airspace
  let own := s.ownPages n
  s.forAll (d.regions.map Prod.fst) fun s c =>
    match d.regions.find? (fun r => r.1 = c), x.carvings.find? (fun cv => cv.core = c) with
    | some (_, base, c', _), some cv =>
      let (split, share) := s.kvShare c
      let sh := d.pages.filterMap cv.pageBase
      let ow := own.filterMap cv.pageBase
      s.poke c (32 * base)
        (mapBytes split share (mapEntries d.cls split) (s.kvBlock c) (base + mapWords c' split) sh ow)
    | _, _ => s

/-- Take region slots of a class for a session and write its maps (R190). -/
def State.takeRegions (s : State) (n c' : Nat) (shared : List Nat) : State :=
  let d := s.sess n
  let x := s.asp d.airspace
  let regs := x.carvings.filterMap fun cv => (cv.freeSlot c').map fun b => (cv.core, b, c', s.prefOf cv.core shared)
  let give (cv : Carving) : Carving :=
    match cv.freeSlot c' with
    | none => cv
    | some b => { cv with slots := cv.slots.map fun e => if e.2.1 = b then (e.1, e.2.1, some n) else e }
  let s := s.setAsp d.airspace { x with carvings := x.carvings.map give }
  (s.updSess n fun d => { d with regions := regs }).writeMaps n

/-- Free a session's region slots. -/
def State.freeRegions (s : State) (n : Nat) : State :=
  let d := s.sess n
  let s := s.updAsp d.airspace fun x => { x with carvings := x.carvings.map fun cv =>
    { cv with slots := cv.slots.map fun e => if e.2.2 == some n then (e.1, e.2.1, none) else e } }
  s.updSess n fun d => { d with regions := [] }

/-- A FILLING registration ends with its session: the entry returns to FREE and the pages it wrote are freed (R192). -/
def State.dropRegistration (s : State) (n : Nat) : State :=
  let d := s.sess n
  match d.registering with
  | none => s
  | some e =>
    let x := s.asp d.airspace
    let pe := x.prefixes.getD e {}
    let s := s.setAsp d.airspace { x with prefixes := x.prefixes.set e { generation := pe.generation % 0xFFFFFF + 1 } }
    s.updSess n fun d => { d with registering := none }

/-- Release a session's region slots and its prefix holds (R193, R229). -/
def State.releaseKv (s : State) (n : Nat) : State :=
  let s := s.dropRegistration n
  let d := s.sess n
  let s := s.updAsp d.airspace fun x => x.unhold (d.pages ++ d.cowPage.toList)
  (s.freeRegions n).updSess n fun d => { d with pages := [], cowPage := none, cowLeft := 0, failedPause := false, kvLost := false }

/-! ### Cloudbank pages of an airspace (R199, R200) -/

/-- Whether a partition page is present. -/
def State.pagePresent (s : State) (a n : Nat) : Bool :=
  match s.cloudPage (s.asp a).stripes n with
  | none => false
  | some (stack, _) => (s.stack stack).st != .lost

/-- Present pages of a partition of the given stripes. -/
def State.pagesTotal (s : State) (stripes : List Nat) : Nat :=
  let live := (List.range 48).filter fun n => (s.stack n).st != .lost
  stripes.foldl (fun t ch => t + live.length * (if ch = 0 then 31744 else 32768)) 0

/-- Lowest k present unallocated pages at or above the window; none: not enough. -/
def State.allocPages (s : State) (a k : Nat) : Option (List Nat × State) :=
  let x := s.asp a
  -- of any 48 consecutive pages each stack holds one, so lost stacks and allocated pages bound the search
  let bound := x.window + 48 * (k + x.cloudPages.length + 1)
  let free := ((List.range (bound - x.window)).map (· + x.window)).filter fun n => s.pagePresent a n && !x.cloudPages.contains n
  if free.length < k then none
  else some (free.take k, s.setAsp a { x with cloudPages := x.cloudPages ++ free.take k })

def State.freePages (s : State) (a : Nat) (pages : List Nat) : State :=
  s.updAsp a fun x => { x with cloudPages := x.cloudPages.filter fun n => !pages.contains n }

/-- Pages of a partition that exist below page w in `live` stacks (R200): channel 0 has 1,024 pages fewer for the partition. -/
def rowsBelow (stripes : List Nat) (q : Nat) : Nat :=
  q - (if stripes.contains 0 then ceilDiv q stripes.length - min (ceilDiv q stripes.length) 31744 else 0)
/-- Present pages below w. -/
def State.presentBelow (s : State) (stripes : List Nat) (w : Nat) : Nat :=
  let live (n : Nat) : Nat := ((List.range n).filter fun i => (s.stack i).st != .lost).length
  let row := rowsBelow stripes (w / 48 + 1) - rowsBelow stripes (w / 48)
  live 48 * rowsBelow stripes (w / 48) + live (w % 48) * row

/-- Gauges of R206. -/
def State.gaugeCloud (s : State) : State :=
  let s := s.forAll (List.range 8) fun s a =>
    let x := s.asp a
    let tot := s.pagesTotal x.stripes
    let s := s.put (Reg.Cloud.STRIPES a) (x.stripes.foldl (fun m n => m + 2 ^ n) 0)
    let s := s.put (Reg.Cloud.PAGES_TOTAL a) tot
    let s := s.put (Reg.Cloud.PAGES_FREE a) (tot - min tot (s.presentBelow x.stripes x.window + (x.cloudPages.filter fun n => x.window ≤ n && s.pagePresent a n).length))
    s.put (Reg.Cloud.WINDOW_PAGES a) x.window
  let up := (List.range 48).filter fun n => (s.stack n).st != .lost && (s.stack n).st != .off
  let s := s.put Reg.Cloud.SELF_REFRESH (bit (!up.isEmpty && up.all fun n => (s.stack n).st == .selfRefresh) 0)
  s.forAll (List.range 48) fun s n =>
    s.put (Reg.Cloud.STATE n) (match (s.stack n).st with
      | .off => 0 | .training => 1 | .active => 2 | .powerDown => 3 | .selfRefresh => 4 | .lost => 5)

/-- A pause record is released: pages freed, and its holds once it has taken them over, with KV_HELD (R193, R202, R204). -/
def State.dropPause (s : State) (n : Nat) : State :=
  let d := s.sess n
  match d.pauseRec with
  | none => s
  | some r =>
    let s := s.freePages d.airspace r.pages
    let s := if d.kvHeld then s.updAsp d.airspace fun x => x.unhold r.links else s
    s.updSess n fun d => { d with pauseRec := none, kvHeld := false, copyBack := false }

/-- A pause gives up its KV (R202). -/
def State.pauseNoKv (s : State) : State := (s.bump Reg.Cloud.PAUSE_NOKV_COUNT).mark Reg.Cloud.PAUSE_NOKV

/-! ### Lanes and the ledger (R212-R219) -/

/-- Index of slot (phase, lane). -/
def slotIx (phase lane : Nat) : Nat := 16 * phase + lane

def PlacementSt.ns (x : PlacementSt) : Nat := max 1 x.plan.ns

/-- Whether boundary k begins a traversal of a phase (R212). -/
def PlacementSt.enters (x : PlacementSt) (phase k : Nat) : Bool := decide (x.bL + phase ≤ k) && (k - x.bL - phase) % x.ns == 0

/-- Lanes of a placement held or booked, by airspace (R216). -/
def State.lanesOf (s : State) (p a : Nat) : Nat :=
  ((s.plc p).lanes.filter fun e => e.2.airspace = a).length
/-- The lowest sampling block of a placement that no lane's holder has, and the block of a slot (R225). -/
def PlacementSt.freeBlock (x : PlacementSt) : Nat :=
  ((List.range (x.lanes.length + 1)).find? fun b => !x.lanes.any fun e => e.2.block = b).getD 0
def PlacementSt.blockOf (x : PlacementSt) (slot : Nat) : Nat := ((x.lanes.find slot).map (·.block)).getD 0
def State.lanesAll (s : State) : Nat := ((List.range 4).map fun p => (s.plc p).lanes.length).foldl (· + ·) 0

/-- R216: one lane more is within the module's and the airspace's limits. -/
def State.laneAllowed (s : State) (p a : Nat) : Bool :=
  decide (s.lanesAll < 1024)
    && decide (s.lanesOf p a < (s.asp a).slotShare * (s.plc p).ns * (s.plc p).plan.maxDepth / 100)

/-- First round boundary of a phase at or after boundary t, with rounds of R traversals from the phase's current round (R214). -/
def PlacementSt.roundAt (x : PlacementSt) (phase t : Nat) : Nat :=
  let ph := x.phases.getD phase { start := x.bL + phase, r := x.round, depth := x.plan.maxDepth }
  let next := ph.start + ph.r * x.ns
  if t ≤ ph.start then ph.start
  else if t ≤ next then next
  else next + ceilDiv (t - next) (x.round * x.ns) * (x.round * x.ns)

/-- Lowest lane of a phase below the depth limit that nothing holds or books. -/
def PlacementSt.freeLane (x : PlacementSt) (phase depth : Nat) : Option Nat :=
  (List.range depth).find? fun d => !x.lanes.has (slotIx phase d)

/-- R222: the earliest boundary in [lo, hi) at which some phase begins a round with a free lane: boundary, phase, lane. -/
def PlacementSt.firstFreeLane (x : PlacementSt) (depthLimit lo hi : Nat) : Option (Nat × Nat × Nat) :=
  (List.range x.ns).foldl (fun best phase =>
    let r := x.roundAt phase lo
    let depth := min x.plan.maxDepth depthLimit
    if r < hi then
      match x.freeLane phase depth, best with
      | none, b => b
      | some d, none => some (r, phase, d)
      | some d, some b => if r < b.1 then some (r, phase, d) else some b
    else best) none

/-- Rows booked for a tick (R218). -/
def PlacementSt.booked (x : PlacementSt) (t : Nat) : Nat := (x.ledger.filter fun b => b.tick = t).foldl (fun n b => n + b.rows) 0

/-- Q_p at the granted share (R217). -/
def PlacementSt.qp (x : PlacementSt) : Nat := x.plan.qp.getD x.grant 0
/-- What a tick may be booked up to: while a lower share waits for booked rows, its Q_p (R219). -/
def PlacementSt.qpBook (x : PlacementSt) : Nat :=
  match x.grantOrder with
  | some (_, g) => min x.qp (x.plan.qp.getD g 0)
  | none => x.qp
/-- Slot mode: Q_p(sized share) = 0 (R217). -/
def PlacementSt.slotMode (x : PlacementSt) : Bool := x.plan.qp.getD x.plan.sized 0 == 0

/-- Book rows into the earliest ticks that have room (R218); `cap t` bounds what a tick may take. Answers the last tick used. -/
def bookRows (session : Nat) (cap : List Booking → Nat → Nat) : Nat → Nat → Nat → List Booking → Option (Nat × List Booking)
  | 0, _, _, _ => none
  | fuel + 1, t, rows, l =>
    let n := min rows (cap l t)
    let l' := if n = 0 then l else l ++ [{ tick := t, session := session, rows := n }]
    if n = rows then some (t, l') else bookRows session cap fuel (t + 1) (rows - n) l'

/-- Positions of a booking: the session's next position, plus its earlier bookings still in the ledger. -/
def PlacementSt.bookingStart (x : PlacementSt) (pos : Nat) (b : Booking) : Nat :=
  pos + (x.ledger.filter fun e => e.session = b.session && !e.void && e.tick < b.tick).foldl (fun n e => n + e.rows) 0

/-- Take a session's bookings out of the ledger (R230). -/
def State.unbook (s : State) (n : Nat) : State :=
  s.updPlc (s.sess n).placement fun x => { x with ledger := x.ledger.filter fun b => b.session ≠ n }

/-- Lanes booked but whose round has not begun are given back; a lane in a running round stays idle until its boundary (R214). -/
def State.dropLane (s : State) (n : Nat) : State :=
  let d := s.sess n
  let now := s.tick.count
  let s := s.updPlc d.placement fun x => { x with lanes := x.lanes.filter fun e => e.2.session ≠ n || e.2.from_ ≤ now }
  s.updSess n fun d => { d with lane := none, phase := none }

/-- Lane gauges of R240. -/
def State.gaugeLanes (s : State) : State :=
  s.forAll (List.range 4) fun s p =>
    let x := s.plc p
    let s := s.put (Reg.Ses.LANES p) x.lanes.length
    let s := s.put (Reg.Ses.ROUND p) x.round
    let s := s.put (Reg.Ses.STAGES p) (if x.live then x.plan.ns else 0)
    let s := s.put (Reg.Ses.SLOT_MODE p) (if x.live && x.slotMode then 1 else 0)
    let s := s.put (Reg.Ses.QP p) (if x.live then x.qp else 0)
    let s := s.put (Reg.Ses.BOOKED p) ((x.ledger.filter fun b => b.tick > s.tick.count).foldl (fun n b => n + b.rows) 0)
    s.put (Reg.Ses.ROUND_TICKS p) (if x.live then x.round * x.plan.ns else 0)

/-! ### Contrails (R199, R235, R236) -/

/-- A descriptor's two copies are placed as it is taken; a copy in a lost stack goes without. -/
def State.placeContrail (s : State) (n : Nat) : State :=
  let at_ (stack page : Nat) : Option (Nat × Nat) := if (s.stack stack).st == .lost then none else some (stack, page)
  s.updSess n fun d => { d with copyA := at_ (n % 48) (5 * (n / 48)), copyB := at_ ((n + 24) % 48) (512 + 5 * (n / 48)) }

/-- Some contrail copy is readable. -/
def Desc.contrailOk (d : Desc) : Bool := d.copyA.isSome || d.copyB.isSome

/-! ### Ends and losses -/

/-- A session ends: KV and holds released, bookings released, lane idle until its round boundary (R229). -/
def State.finishSession (s : State) (n reason : Nat) : State :=
  let s := ((s.releaseKv n).dropPause n).unbook n
  let s := s.dropLane n
  s.updSess n fun d => { d with
    st := .ended, endReason := reason, endPending := true, kvHeld := false, rebuilding := false, sampled := none, travDropped := false
    latch := 0, drainPause := false, cancelLatched := false, pauseLatched := false, kvLost := false }

/-- The END record of a session (R228, R255): in the batch of the tick for a natural end, one boundary later for the others (R229). -/
def State.pushEnd (s : State) (n reason : Nat) : State :=
  let d := s.sess n
  if 1 ≤ reason && reason ≤ 3 then s.push n 1 d.marks reason d.delayTicks d.delivered
  else { s with lateRecords := s.lateRecords ++ [(d.airspace, d.dest, ⟨handleOf n d, d.delivered, 1, d.marks, reason, d.delayTicks⟩)] }

/-- End a session with its END record (R228, R229); a session that drains after a cancel has sent its own. -/
def State.endSession (s : State) (n reason : Nat) : State :=
  let d := s.sess n
  if d.st == .free || d.st == .ended then s
  else if d.st == .draining && d.endReason ≠ 0 then s.finishSession n d.endReason
  else (s.pushEnd n reason).finishSession n reason

/-- Descriptor becomes FREE: its generation advances (R209), and a spare slot that held a copy of its contrail is free again (R201). -/
def State.freeSession (s : State) (n : Nat) : State :=
  let g := (s.sess n).generation
  let s := { s with hbm := s.hbm.map fun (e : Nat × StackSt) => (e.1, { e.2 with spares := e.2.spares.filter fun j => j.2 ≠ n }) }
  s.setSess n { generation := if g ≥ 1048575 then 1 else g + 1 }

/-- A session becomes PAUSED without KV (R202 last row, R371). -/
def State.pauseBare (s : State) (n : Nat) : State :=
  let s := ((s.releaseKv n).dropPause n).unbook n
  (s.dropLane n).updSess n fun d => { d with
    st := .paused, kvHeld := false, rebuilding := false, drainPause := false, pauseLatched := false, latch := 0, sampled := none
    kvFill := 0, failedPause := false, kvLost := false }

/-- The copy of a paused session fails: its pages are freed and the pause counted; slots and holds go at the next boundary (R202). -/
def State.failPause (s : State) (n : Nat) : State :=
  ((s.dropPause n).updSess n fun d => { d with kvFill := 0, failedPause := true }).pauseNoKv

/-- A copy-back gives up its region and page slots; the record stays (R203, R205). -/
def State.abandonBack (s : State) (n : Nat) : State := (s.releaseKv n).updSess n fun d => { d with copyBack := false }

/-- A session's KV is lost: at the boundary after the loss it is settled (R211, R237). A pause copy under way fails (R205); a copy-back under
way is begun again from the copy. -/
def State.loseKv (s : State) (n : Nat) : State :=
  let d := s.sess n
  match d.st with
  | .prefill | .decode | .draining | .queued => s.updSess n fun d => { d with kvLost := true }
  | .paused =>
    if d.pauseRec.any (·.copying) then s.failPause n
    else if d.copyBack then s.abandonBack n
    else if d.pauseRec.isNone && !d.failedPause && !d.regions.isEmpty then s.releaseKv n
    else s
  | _ => s

/-- The session of a row computes in its slot: DECODE, DRAINING, or PREFILL in slot mode (R213). -/
def Desc.inSlot (d : Desc) : Bool := d.st == .decode || d.st == .draining || (d.st == .prefill && d.slotMode)

/-- A traversal of a session is under way across boundary k. -/
def State.underWay (s : State) (k n : Nat) : Bool :=
  let d := s.sess n
  match d.phase with
  | some ph => d.inSlot && d.lane.isSome && decide (d.r0 < k) && decide (d.enterAt < k) && !(s.plc d.placement).enters ph k
  | none => false

/-- The map of a session that has lost its KV names private blocks only (R193, R195). DESIGN CHOICE (log entry 143): a region too small for all of them is
given up, and the rebuild waits until one that holds them is free; the manual does not say where the blocks of the lost pages go. -/
def State.privateMap (s : State) (n : Nat) : State :=
  let d := s.sess n
  if d.regions.all fun r => mapEntries d.cls (s.kvShare r.1).1 ≤ mapEntries r.2.2.1 (s.kvShare r.1).1 then s.writeMaps n
  else s.freeRegions n

/-- The bookings of a session hold their room, but their rows are not valid (R237). -/
def State.voidBookings (s : State) (n : Nat) : State :=
  s.updPlc (s.sess n).placement fun x => { x with ledger := x.ledger.map fun b => if b.session = n then { b with void := true } else b }

/-- The loss of a session's KV at boundary k: it is re-prefilled from its contrail (R211, R237), a draining one is not rebuilt (R232). A registration
under way, or a copy-on-write, is over. -/
def State.settleLoss (s : State) (k n : Nat) : State :=
  let d := s.sess n
  let s := s.updSess n fun d => { d with kvLost := false }
  let back (s : State) : State :=
    let gap := s.underWay k n && decide (d.pos + 1 = d.history.length)
    let s := ((s.dropRegistration n).voidBookings n).updAsp d.airspace fun x => x.unhold (d.pages ++ d.cowPage.toList)
    let s := s.updSess n fun d => { d with
      pages := []
      gapDue := gap, enterAt := k, rebuilding := true, rebuiltMark := true, pos := 0, kvFill := 0, sampled := none, travDropped := false
      cowPage := none, cowLeft := 0 }
    s.privateMap n
  match d.st with
  | .prefill | .decode =>
    if d.rebuilding && d.pos = 0 then back s
    else if !d.contrailOk then s.endSession n 5
    else (back (s.bump (Reg.Ses.REBUILDS d.airspace))).updSess n fun d => { d with st := .prefill }
  | .queued =>
    if d.pos = 0 then s
    else if !d.contrailOk then s.endSession n 5
    else (back (s.bump (Reg.Ses.REBUILDS d.airspace))).updSess n fun d => { d with enterAt := d.r0 }
  | .draining => if d.drainPause then s.updSess n fun d => { d with rebuilding := true } else s
  | _ => s

/-- The losses of the tick that ends, at boundary k: after the tokens of the tick, so that a natural end prevails (R232). -/
def State.settleLosses (s : State) (k : Nat) : State := s.forAll (s.sessIds.filter fun n => (s.sess n).kvLost) fun s n => s.settleLoss k n

/-- Sessions with KV in any of the cores (region slots there), in use. -/
def State.sessionsIn (s : State) (cores : List Nat) : List Nat :=
  s.sessIds.filter fun n => (s.sess n).regions.any fun r => cores.contains r.1

/-- A prefix is dropped (R195): its entry FREE, and where asked PREFIX_LOST reported, counted in every field that holds a page of it (R207); sessions
that name its pages lose that KV, and a pause record that links them is of no use. -/
def State.dropPrefix (s : State) (a e : Nat) (lost : Option Nat) : State :=
  let x := s.asp a
  let pe := x.prefixes.getD e {}
  if pe.st == .free then s else
  let mine := s.sessIds.filter fun n => (s.sess n).airspace = a && (s.sess n).st != .free
  let users := mine.filter fun n => (s.sess n).pages.any pe.pages.contains || (s.sess n).registering == some e
  let linked := mine.filter fun n => (s.sess n).pauseRec.any fun r => !r.copying && r.links.any pe.pages.contains
  let held := computeFields.filter fun f => x.carvings.any fun cv => coreField cv.core = f && pe.pages.any fun id => (cv.pageBase id).isSome
  let s := s.setAsp a { x with prefixes := x.prefixes.set e { generation := pe.generation % 0xFFFFFF + 1 } }
  let s := s.updAsp a fun x => if pe.st == .ready then x.unhold pe.pages else x
  let s := s.forAll linked fun s n => (if (s.sess n).copyBack then s.abandonBack n else s).dropPause n
  let s := match lost with
    | none => s
    | some f => (s.forAll held fun s f => s.bump (Reg.Kv.PREFIX_LOST f)).event
        { code := 0x0401, airspace := a, field := f, placement := placementByte x.placement
          detail := [(44, prefixHandle e pe % 256), (45, pe.generation % 256), (46, pe.generation / 256 % 256), (47, pe.generation / 65536 % 256)] }
  s.forAll users fun s n =>
    let d := s.sess n
    let s := s.updAsp a fun x => x.unhold d.pages
    let s := s.updSess n fun d => { d with pages := [], registering := if d.registering == some e then none else d.registering }
    s.loseKv n

/-- Every prefix of an airspace is dropped, and reported where R195 names the event, of no one field. -/
def State.dropPrefixes (s : State) (a : Nat) (report : Bool) : State :=
  s.forAll ((s.asp a).prefixes.map Prod.fst) fun s e => s.dropPrefix a e (if report then some 0xFF else none)

/-! ### The outlook (R354, R355) -/

/-- Tick that contains the moment t_i = 100 i ms from now. -/
def State.tickAt (s : State) (i : Nat) : Nat := s.tick.count + i * 100000000 * 480 / tickNs480 s.tick.period s.tick.level

/-- s_n = 200 / (200 + n). -/
def State.laneScale (s : State) : Rat := 200 / (200 + (s.tick.level : Int))

/-- Sessions whose lane counts in a tick: from r0 through DONE, below their phase's depth, optionally of one airspace. -/
def State.lanesAt (s : State) (t : Nat) (air : Option Nat) : Nat :=
  (s.sessions.filter fun e =>
    let d := e.2
    let x := s.plc d.placement
    d.lane.isSome && (d.st.promises || d.st == .draining) && decide (d.r0 ≤ t) && decide (t ≤ d.doneBound)
      && (match d.phase, d.lane with
          | some ph, some l => decide (l < (x.phases.getD ph { start := 0, r := 1, depth := 16 }).depth)
          | _, _ => false)
      && (match air with | none => true | some a => d.airspace == a)).length

/-- Rows booked in the ledgers for a tick, optionally of one airspace. -/
def State.rowsAt (s : State) (t : Nat) (air : Option Nat) : Nat :=
  ((List.range 4).map fun p => ((s.plc p).ledger.filter fun b => b.tick = t
    && (match air with | none => true | some a => (s.sess b.session).airspace == a)).foldl (fun n b => n + b.rows) 0).foldl (· + ·) 0

/-- Both conditions of R355 at step i with a lane and rows added. -/
def State.stepOk (s : State) (a i lane rows : Nat) : Bool :=
  let t := s.tickAt i
  let th := s.thermal
  let bound : Rat := (97 : Rat) / 100 * th.outlook.getD (i - 1) (s.power.capEff : Int)
  let lw := th.wl * s.laneScale
  let all : Rat := th.ps + lw * ((s.lanesAt t none + lane : Nat) : Int) + th.wr * ((s.rowsAt t none + rows : Nat) : Int)
  let own : Rat := lw * ((s.lanesAt t (some a) + lane : Nat) : Int) + th.wr * ((s.rowsAt t (some a) + rows : Nat) : Int)
  decide (all ≤ bound) && decide (own ≤ bound * ((s.asp a).powerShare : Int) / 100)

/-- A clearance passes check 9 of R220; INLET_HOT and step A of the ladder make every clearance wait (R337, R350). -/
def State.outlookAdmits (s : State) (a r0 done : Nat) (added : List Booking) : Bool :=
  s.power.ladder = 0 && decide (s.thermal.tIn ≤ 480)
    && (List.range 20).all fun i =>
      let t := s.tickAt (i + 1)
      s.stepOk a (i + 1) (if r0 ≤ t && t ≤ done then 1 else 0)
        ((added.filter fun b => b.tick = t).foldl (fun n b => n + b.rows) 0)

/-- The most rows that a tick may take for an airspace when it holds a step of the outlook. -/
def State.outlookCap (s : State) (a free t : Nat) : Nat :=
  match (List.range 20).find? fun i => s.tickAt (i + 1) = t with
  | none => free
  | some i => (((List.range (free + 1)).reverse).find? fun n => s.stepOk a (i + 1) 1 n).getD 0

/-! ### Promises in time (R223, R224) -/

/-- Time in ns from boundary b to a bound at the committed stretch. -/
def promiseNs (ticks period committed : Nat) : Nat := ceilDiv (ticks * period * (200 + committed)) 480

/-- Tick bound of new token n (R222). -/
def Desc.bound (d : Desc) (ns n : Nat) : Nat := if n ≤ 1 then d.firstBound else d.doneBound - (d.maxTokens - n) * ns

end Sys2Proof.Machine
end

