-- ==== Sys2Proof/Machine/DryRun.lean ====
section
/-! DEFINITION. The dry runs of a plan load: a core's programs under the issue rules (R95), and every Jetstream packet of a plan on the fabric
(R38, R39, R286). -/

namespace Sys2Proof.Machine

/-! ### Programs of a core -/

/-- Descriptors of a program. -/
def CoreSt.program (k : CoreSt) (p : Prog) : List W256 := (List.range p.len).map fun i => k.code.getD (p.base + i) 0

/-- A program ends with END within its declared length (R87). -/
def endsWell (l : List W256) : Bool := l.any fun d => dOp d = 0x01

/-- The descriptors of a program up to its END. -/
def upToEnd (l : List W256) : List W256 := l.take ((l.takeWhile fun d => dOp d ≠ 0x01).length + 1)

/-- The entry of the replay program that a BRANCH_ON_TROUBLE arms. -/
def CoreSt.entryOf (k : CoreSt) (d : W256) : List W256 :=
  let off := bits (dP0 d) 11 0
  upToEnd (k.program ⟨k.replay.base + off, k.replay.len - off⟩)

/-! ### The dry run (R95) -/

/-- Rows 0 to n−1 valid. Each row's KV region, and the adapter slot, stand apart from each other and from every LINEAR address, as the regions of
different sessions do. -/
def fullRows (n : Nat) : Tbl Row := (List.range n).map fun v =>
  (v, { valid := true, adapterValid := true, adapterBase := scratchWords, kvBase := scratchWords * (v + 2), kvSize := scratchWords })

/-- Issue without effect: timing only; RECV completes at its deadline, REDUCE and GATHER at their own time. -/
def dryStep (c : Nat) (s : State) (d : W256) : State :=
  let q := (s.core c).seq
  if q.prog = 0 then s
  else
    let (reads, writes) := s.opRanges c d
    let t := issueCycle q d reads writes
    let (fl, macEnd) := s.flightOf c d t reads writes
    match dOp d with
    | 0x01 => s.updSeq c fun q => { q with prog := 0, cycle := q.drained }
    | 0x02 => s.updSeq c fun q => { q with cycle := max t (bits (dP0 d) 15 0 + if bits (dP0 d) 16 16 = 1 then t else 0) }
    | 0x03 => s.updSeq c fun q => { q with cycle := t }
    | 0x21 =>
      let fl := { fl with ready := max t (bits (dP0 d) 15 0) }
      s.updSeq c fun q => { q with cycle := t + 1, flights := q.flights ++ [fl] }
    | _ => s.updSeq c fun q => { q with cycle := t + 1, flights := q.flights ++ [fl], macEnd := macEnd }

/-- A core about to begin a program at `start` with `rows` valid rows. -/
def State.dryState (s : State) (c prog start rows : Nat) (pre : Bool) : State := s.updCore c fun k => { k with
  decRows := fullRows rows, preRows := fullRows rows
  seq := { prog := prog, preReplay := pre, cycle := start + 2 } }

/-- Cycle at which a program begun at `start` with `rows` valid rows completes. -/
def State.dryRun (s : State) (c prog start rows : Nat) (l : List W256) (pre : Bool := false) : Nat :=
  ((l.foldl (dryStep c) (s.dryState c prog start rows pre)).core c).seq.cycle

/-- Largest n in 1..128 for which a test holds (tests hold for every smaller number of rows too, R91). -/
def largestRows (ok : Nat → Bool) : Nat := (((List.range 129).reverse).find? fun n => n = 0 || ok n).getD 0

/-- Rows of a tuning program that fit a window of a core. -/
def State.tuneRows (s : State) (c start len : Nat) : Nat :=
  let k := s.core c
  largestRows fun n => [(7, k.tuneFwd), (8, k.tuneBwd)].all fun e =>
    decide (s.dryRun c e.1 start n (k.program e.2) ≤ start + len)

/-! ### Sends to other modules (R309) -/

/-- The check of R309 in units of 1/12 ns: a send at OFFSET `offset` with source latency `ls` and busy time `busy`, `out` cycles of fabric to the engine
of port q and `inside` at the far module, reaches it by cycle P − 67 of the tick after, by the lags of the two modules. -/
def linkSendOk (period x offset ls busy out delayNs inside : Nat) (farLag ownLag : Int) : Bool :=
  let leave : Int := 5 * ((period : Int) - 64 - x + offset + ls + busy + out) + 480
  let arrive : Int := leave + 12 * delayNs + 480 + 5 * inside
  decide (arrive ≤ 5 * (2 * period - 67) + 12 * (farLag - ownLag))

/-- Bytes of Jetstream that entries reserve at a port in each tick. -/
def reservedAt (t : Tbl TargetEntry) (port : Nat) : Nat := (t.filter fun e => e.2.channel == 1 && e.2.port == port).foldl (fun m e => m + e.2.bytes) 0

/-- A reservation of at most 85 % of a port's bytes per tick: 200 B/ns over P / 2.4 ns (R309). -/
def reserveOk (period bytes : Nat) : Bool := decide (bytes * 24 ≤ 1700 * period)

/-- A queued send of core c to a port engine passes the check by an entry of the target table; it crosses to the neighbour at its port only. The far
side's hops are those of its dimension-ordered route from the engine of the peer's port (R287, R308, R309). -/
def State.linkOk (s : State) (t : Tbl TargetEntry) (period x c rows : Nat) (d : W256) : Bool :=
  let e := bits (dP0 d) 31 20
  match portOfEngine e with
  | none => true
  | some n =>
    if dOp d ≠ 0x20 || bits (dP1 d) 17 17 = 1 || !dExch d then true
    else match t.find (4096 * n + bits (dP0 d) 11 0) with
      | none => true
      | some y =>
        if y.channel ≠ 1 then true
        else
          let q := s.port y.port
          let next := (s.groupOf y.port).bind s.groupNeighbour
          let inside := match endpointSite y.dest with
            | some f => 28 + 4 * dist (engineOf q.peerPort / 32) f
            | none => 28
          next.all (· == y.module_)
            && linkSendOk period x (bits (dP1 d) 15 0) (s.sourceLatency c d) ((dCount d + 1) / 2 * min (dRows d) rows) (s.fabLatency c e) q.delayNs inside
              (640 * (q.peerHops : Int)) (640 * (s.links.hops : Int))

/-- Cores of a placement with a send that fails the check of R309 under a target table. -/
def State.linkFails (s : State) (t : Tbl TargetEntry) (p period x : Nat) : List Nat :=
  (s.coresOfPlacement p).filter fun c =>
    let k := s.core c
    let ok (prog rows : Nat) (pr : Prog) : Bool := (k.program pr).all ((s.dryState c prog 48 rows false).linkOk t period x c rows)
    !(ok 1 16 k.decode && ok 4 128 k.prefill && ok 5 16 k.replay)

/-- R309 at plan load: every cross-module send passes, and no port's reservation is too large. -/
def State.linksOk (s : State) (p : Nat) (hash : List Byte) (period x : Nat) : Bool :=
  let t := planTargetTable s.links.targets p hash
  (s.linkFails t p period x).isEmpty && (List.range 12).all fun n => reserveOk period (reservedAt t n)

/-! ### The fabric (R286) -/

/-- A descriptor's Jetstream transmission in the dry run: the sending core, the endpoints that receive a copy, the cycle its first flit leaves the core's
port, the words (two leave in each cycle), the scratchpad word it is written from, and whether it leaves the exchange queue. -/
structure Jet where
  src : Nat
  dests : List Nat
  leave : Nat
  words : Nat
  addr : Nat
  exch : Bool
deriving DecidableEq, Repr

/-- The cycle in which the last flit leaves. -/
def Jet.last (j : Jet) : Nat := j.leave + (j.words + 1) / 2 - 1

/-- Flits that pass a point `delay` cycles behind the port in a cycle. -/
def Jet.flitsAt (j : Jet) (delay cycle : Nat) : Nat :=
  if cycle < j.leave + delay then 0 else min 2 (j.words - 2 * (cycle - j.leave - delay))

/-- The transmissions of one descriptor whose operation starts at cycle `start`, every row valid. A send of the exchange queue starts at cycle
P − 64 − x + OFFSET (R98). The cores that a DISPATCH sends to are those that the words of its choice operand name at plan load. -/
def State.jetsOf (s : State) (c period x start : Nat) (d : W256) : List Jet :=
  let rows := s.activeRows c d
  let n := dCount d
  let half := (n + 1) / 2
  let ls := s.sourceLatency c d
  let out (start : Nat) (exch : Bool) (l : List (List Nat × Nat)) : List Jet :=
    (List.range l.length).map fun i =>
      let e := l.getD i ([], 0)
      ⟨c, e.1, start + ls + 1 + i * half, n, e.2, exch⟩
  match dOp d with
  | 0x20 =>
    if bits (dP1 d) 16 16 = 1 then []
    else
      let from_ := if dExch d then period - 64 - x + bits (dP1 d) 15 0 else start
      out from_ (dExch d) (rows.map fun v => (s.moveTargets c d, linLocal (bits (dP0 d) 19 0) + v * n))
  | 0x24 =>
    let k := bits (dP1 d) 5 0 + 1
    out start false (rows.flatMap fun v => (addressList (s.peekOperand c v (dP0 d) ((4 * k + 31) / 32)) k).map fun g =>
      ([bits g 31 20], linLocal (bits g 19 0)))
  | 0x51 =>
    out start false (rows.flatMap fun v => (s.dispatchIds c d v).map fun id =>
      let g := leNat (((s.peekOperand c v (dP0 d) mapLen).drop (4 * id)).take 4)
      ([bits g 31 20], linLocal (bits g 19 0) + v * n))
  | 0x23 =>
    -- the words leave the source when the request has arrived there and its bank has been read
    let k := bits (dP1 d) 5 0 + 1
    (List.range rows.length).flatMap fun i =>
      let v := rows.getD i 0
      let l := addressList (s.peekOperand c v (dP0 d) ((4 * k + 31) / 32)) k
      (List.range k).map fun m =>
        let g := l.getD m 0
        ⟨bits g 31 20, [c], start + ls + 1 + s.fabLatency c (bits g 31 20) + bankLatency (linLocal (bits g 19 0) / 57344) + (i * k + m) * half, n,
          ((resolve (dDst d) (s.row c v) v).getD 0) + n * m, false⟩
  | 0x22 =>
    -- the partial of a child or the broadcast of the root follows the combination of the children's partials
    let children := bits (dP0 d) 15 12
    let ready := start + ls + 1 + (if children = 0 then 0 else n * children + 4)
    let parent := bits (dP0 d) 11 0
    let dests := if parent ≠ 0xFFF then [parent]
      else if bits (dP0 d) 18 18 = 1 then ((s.mcastGroup c (bits (dP2 d) 11 0)).map Prod.snd).getD [] else []
    if dests.isEmpty then []
    else (List.range rows.length).map fun i => ⟨c, dests, ready + i * (4 * n), 8 * n, scratchWords, false⟩
  | _ => []

/-- A program's transmissions as the dry run issues it. -/
def State.dryJets (s : State) (c prog start rows period x : Nat) (l : List W256) (pre : Bool := false) : List Jet :=
  (l.foldl (fun (a : List Jet × State) d =>
    let s' := dryStep c a.2 d
    let from_ := match ((s'.core c).seq.flights.getLast?) with
      | some f => f.start
      | none => start
    (a.1 ++ (if (a.2.core c).seq.prog = 0 then [] else a.2.jetsOf c period x from_ d), s')) ([], s.dryState c prog start rows pre)).1

/-- The links that copies to a list of sites use, each with the hops before it; one copy crosses each link (R291). -/
def jetLinks (route : Nat → Nat → List (Nat × Nat)) (u : Nat) (sites : List Nat) : List (Nat × Nat × Nat) :=
  sites.foldl (fun l d =>
    let w := route u d
    (List.range w.length).foldl (fun l i =>
      let e := w.getD i (0, 0)
      if l.any fun x => x.1 == e.1 && x.2.1 == e.2 then l else l ++ [(e.1, e.2, i)]) l) []

/-- The way from router u to site d by a table of output ports; nothing where it does not arrive. -/
def wayBy (port : Nat → Nat → Nat) (d : Nat) : Nat → Nat → Option (List (Nat × Nat))
  | 0, _ => none
  | n + 1, u =>
    if u = d then some []
    else match neighbour u (port u d) with
      | none => none
      | some v => (wayBy port d n v).map fun l => (u, port u d) :: l

/-- A module of which every link of site r is down. -/
def State.withoutRouter (s : State) (r : Nat) : State :=
  s.forAll [1, 2, 3, 4] fun s q => match neighbour r q with
    | none => s
    | some v =>
      (s.updRouter r fun t => { t with linksDown := q :: t.linksDown }).updRouter v fun t => { t with linksDown := backPort q :: t.linksDown }

/-- The output ports by which the dry run routes: the tables in force, or the detours around one present site's router (R286, R298). -/
def State.dryPorts (s : State) (gone : Option Nat) : Nat → Nat → Nat :=
  match gone with
  | none => fun u d => (s.router u).act.port u d
  | some r =>
    let s := s.withoutRouter r
    let ports := allFields.map fun d =>
      let t := iterate (s.relax d) 20 [(d, 0)]
      allFields.map fun u => (s.detourPort d t u).1
    fun u d => (ports.getD d []).getD u 7

/-- The window of R37 that a cycle lies in: 0 control slot, 1 decode share, 2 prefill share, 3 replay reserve, 4 exchange, 5 maintenance. -/
def windowOf (d x c0 period cycle : Nat) : Nat :=
  if cycle < 48 then 0 else if cycle < 48 + d then 1 else if cycle < 48 + c0 then 2
  else if cycle < period - 64 - x then 3 else if cycle < period - 64 then 4 else 5

/-- The latest deadline of a destination core's RECVs whose buffer, over its rows, holds a word; none: no RECV waits for it (R102). -/
def State.recvDeadline (s : State) (c word : Nat) : Option Nat :=
  let k := s.core c
  (([k.decode, k.prefill, k.replay, k.tuneFwd, k.tuneBwd].flatMap k.program).filter fun d => dOp d = 0x21
      && ((fullRows (dRows d)).any fun e => match resolve (dDst d) e.2 e.1 with
        | some a => decide (a ≤ word) && decide (word < a + dCount d)
        | none => false)).foldl
    (fun (m : Option Nat) d => some (max (m.getD 0) (bits (dP0 d) 15 0))) none

/-- One transmission on its links: none of its packets misses its bound, and no send or arrival falls into a guard (R38, R39, R286). -/
def State.jetInTime (s : State) (period : Nat) (hops : Nat → Nat) (j : Jet) : Bool :=
  decide (8 ≤ j.leave) && j.dests.all fun e =>
    let arrival := j.last + 28 + 4 * hops e
    decide (arrival + 9 ≤ period)
      && (if j.exch then decide (arrival + 67 ≤ period)
        else isServiceEndpoint e || match s.recvDeadline e j.addr with
          | none => true
          | some t => decide (arrival ≤ t))

/-- The transmissions of one tick under one set of routes: each in time, and on each link in each cycle no more flits than the reservation of
that link and window, so that no flit waits (R285, R286). A flit reaches a router's output 14 cycles after the core's port and 4 more for each
hop (R296). DESIGN CHOICE (log entry 39): reservations are held against the links between routers; the documented image has no place for them. -/
def State.jetsFit (s : State) (hash : List Byte) (d x c0 period : Nat) (gone : Option Nat) (jets : List Jet) : Bool :=
  let ports := s.dryPorts gone
  let site (j : Jet) (e : Nat) : Option Nat := s.siteFor (coreField j.src) ((s.field (coreField j.src)).placement.getD 0) e
  let way (u t : Nat) : Option (List (Nat × Nat)) := if gone = some u || gone = some t then none else wayBy ports t 88 u
  let reach (j : Jet) : List Nat := (j.dests.filterMap (site j)).filter fun t => (way (coreField j.src) t).isSome
  let used : List (Jet × Nat × Nat × Nat) := jets.flatMap fun j =>
    (jetLinks (fun u t => (way u t).getD []) (coreField j.src) (reach j)).map fun l => (j, l)
  let alive (j : Jet) : Jet := { j with dests := j.dests.filter fun e => match site j e with
    | some t => (way (coreField j.src) t).isSome
    | none => false }
  let hops (j : Jet) (e : Nat) : Nat := match site j e with
    | some t => ((way (coreField j.src) t).getD []).length
    | none => 0
  jets.all (fun j => s.jetInTime period (hops j) (alive j))
    && used.all fun e => (List.range ((e.1.words + 1) / 2)).all fun i =>
      let (u, q, h) := e.2
      let cycle := e.1.leave + 14 + 4 * h + i
      let load := (used.map fun y => if y.2.1 = u && y.2.2.1 = q then y.1.flitsAt (14 + 4 * y.2.2.2) cycle else 0).foldl (· + ·) 0
      decide (load ≤ min 14 (Config.planReserve hash u q (windowOf d x c0 period cycle)))

/-- The dry run of R286: the decode programs of every core, with the prefill programs or the tuning programs of either direction in the prefill share
and the entries that stage-wide branches arm in the reserve, and with each core's deputy program; on the routes in force, and with each single
present site's router removed. -/
def State.fabricOk (s : State) (p : Nat) (img : Image) (d x c0 period : Nat) : Bool :=
  let cs := s.coresOfPlacement p
  let run (c prog start rows : Nat) (l : List W256) (pre : Bool) : List Jet := s.dryJets c prog start rows period x l pre
  let each (g : Nat → CoreSt → List Jet) : List Jet := cs.flatMap fun c => g c (s.core c)
  let decode := each fun c k => run c 1 48 16 (k.program k.decode) false
  let shared : List (List Jet) :=
    [each fun c k => run c 4 (48 + d) 128 (k.program k.prefill) false,
     each fun c k => run c 7 (48 + d) 128 (k.program k.tuneFwd) false,
     each fun c k => run c 8 (48 + d) 128 (k.program k.tuneBwd) false]
  let branches (k : CoreSt) : List (Bool × W256) :=
    ((k.program k.decode).map fun b => (false, b)) ++ (k.program k.prefill).map fun b => (true, b)
  let entries (k : CoreSt) : List (Bool × W256) := (branches k).filter fun e => dOp e.2 = 0x03
  let most := (cs.map fun c => (entries (s.core c)).length).foldl max 0
  let replays : List (List Jet) := [] :: (List.range most).map fun i => each fun c k => match (entries k)[i]? with
    | none => []
    | some e => run c 5 (48 + c0) (if e.1 then 128 else 16) (k.entryOf e.2) e.1
  let ticks := (shared.flatMap fun a => replays.map fun b => decode ++ a ++ b)
    ++ cs.map fun c => decode ++ run c 2 (48 + d) 16 (s.core c).deputyProg false
  (none :: allFields.map some).all fun gone => ticks.all (s.jetsFit img.headerHash d x c0 period gone)

end Sys2Proof.Machine
end

