-- ==== Sys2Proof/Machine/Plan.lean ====
section
/-! DEFINITION. Plans: the tick period (R33-R36), descriptor checks (R87), the dry run (R95, R217, R265), what a steward loads into its
cores (R63, R64, R74, R155-R157, R264), and the plan-load checks (R80, R145, R176). -/

namespace Sys2Proof.Machine

/-! ### The tick period (R34) -/

/-- The search of R34: the first multiple of 8 whose reserve is enough; none above 48,000 cycles. -/
def periodFrom (fixed a rr : Nat) : Nat → Nat → Option Nat
  | 0, _ => none
  | fuel + 1, p =>
    if 48000 < p then none
    else if p - fixed < ceilDiv (p * rr) 100 || p - fixed < a then periodFrom fixed a rr fuel (p + 8)
    else some p

/-- Compute window C (R34). -/
def computeWindow (d share : Nat) : Nat := ceilDiv (d * 100) (100 - share)

/-- The period the function of R34 returns; none above 48,000. -/
def requiredPeriod (d share x a rr : Nat) : Option Nat :=
  let fixed := 48 + computeWindow d share + x + 64
  periodFrom fixed a rr 6001 (ceilDiv fixed 8 * 8)

/-- The period a plan requires: at least 1,200 (R34). -/
def planPeriod (d share x a rr : Nat) : Option Nat := (requiredPeriod d share x a rr).map (max 1200)

/-! ### Descriptors (R85-R87, R102) -/

/-- What a row of the operation table allows: flags ACC, EXCH, SR; formats; COUNT 0; DST, SRCA, SRCB used; parameter bits used. -/
structure OpRow where
  acc : Bool := false
  exch : Bool := false
  sr : Bool := false
  fmts : List Nat := [0, 1, 2, 3, 4, 5, 6, 7]
  zero : Bool := false
  dst : Bool := true
  srcA : Bool := true
  srcB : Bool := false
  p0 : Nat := 0
  p1 : Nat := 0
  p2 : Nat := 0
deriving DecidableEq, Repr

/-- The operation table of R102; a format list the table does not give takes every defined format. -/
def opRow : Nat → Option OpRow
  | 0x01 => some { fmts := [0], zero := true, dst := false, srcA := false }
  | 0x02 => some { fmts := [0], zero := true, dst := false, srcA := false, p0 := 0x1FFFF }
  | 0x03 => some { zero := true, dst := false, p0 := 0xFFFF0FFF, p1 := 1 }
  | 0x10 => some { acc := true, fmts := [1, 2], srcB := true, p0 := 0x3FFFFF, p1 := 0x1F0FFF, p2 := 0x3FFFFF }
  | 0x11 => some { acc := true, fmts := [1, 2], p0 := 0x3FFFFF, p1 := 0x0F0FFF, p2 := 0x3FFFFF }
  | 0x12 => some { fmts := [5, 7], srcB := true, p0 := 0x17F }
  | 0x20 => some { exch := true, dst := false, p0 := 0xFFFFFFFF, p1 := 0x3FFFF, p2 := 0xFFF }
  | 0x21 => some { srcA := false, p0 := 0xFFFF }
  | 0x22 => some { p0 := 0x7FFFF, p1 := 0xFFFFFFFF, p2 := 0xFFF }
  | 0x23 => some { srcA := false, p0 := 0xFFFFFFFF, p1 := 0x3F }
  | 0x24 => some { dst := false, p0 := 0xFFFFFFFF, p1 := 0x3F }
  | 0x30 => some { fmts := [0, 1, 7], srcB := true, p0 := 1, p1 := 0xFFFFFFFF }
  | 0x31 => some { p0 := 0x1F }
  | 0x32 => some { srcB := true, p0 := 0x1F }
  | 0x33 => some { p0 := 0x3FF, p1 := 0xFFFFFFFF, p2 := 0x3FF }
  | 0x34 => some { sr := true, fmts := [3, 4, 6], p0 := 1, p1 := 0x800FFFFF }
  | 0x35 => some { fmts := [3, 4, 6], srcB := true, p0 := 0xFFFF }
  | 0x36 => some { srcB := true, p0 := 0xF, p1 := 0xFFFFFFFF, p2 := 0x3FF }
  | 0x37 => some {}
  | 0x40 => some { srcB := true, p0 := 0xF1F, p1 := 0x3FFFF, p2 := 0xFFFFFFFF }
  | 0x41 => some { p0 := 0xFFFFFFFF, p1 := 0x1F }
  | 0x42 => some { srcB := true, p0 := 0xF1F }
  | 0x43 => some { sr := true, fmts := [4], srcB := true, p0 := 0x700, p1 := 0x800FFFFF }
  | 0x50 => some { p0 := 0x11F }
  | 0x51 => some { dst := false, srcB := true, p0 := 0xFFFFFFFF }
  | 0x52 => some { acc := true, srcB := true, p0 := 0xF }
  | 0x60 => some { srcA := false, p0 := 0x3FFFFF, p1 := 0x3FFFF, p2 := 0x3FFFF }
  | 0x61 => some { acc := true, fmts := [1, 2], srcB := true, p0 := 0x3FFFFF, p1 := 0x1F0FFF, p2 := 0x3FFFF }
  | 0x62 => some { p0 := 1, p1 := 0x7FF }
  | 0x70 => some { srcB := true, p0 := 3 }
  | 0x78 => some { p0 := 0xFFFFFFFF, p1 := 0xF }
  | _ => none

/-- What the checks of a core's descriptors go by: its banks, the largest KV region and number of positions that the plan allows a row, the words
of its adapter segments, its field, and the plan's multicast groups (R87, R291). -/
structure LoadCtx where
  mask : W16
  kv : Option (Nat × Nat)
  adapter : Nat
  field : Nat
  groups : List (Nat × Nat × List Nat)
deriving DecidableEq, Repr

/-- An operand as loaded: used or NONE, its ranges inside the scratchpad and the plan's banks, the largest KV region, or the adapter segments
(R87, R88, R89). A core without KV_APPEND has no declared region to check a KV operand against. -/
def operandOk (x : LoadCtx) (rows len : Nat) (used : Bool) (o : Nat) : Bool :=
  match bits o 31 30 with
  | 3 => bits o 29 0 == 0
  | 0 =>
    let first := linLocal (bits o 19 0)
    let last := first + (rows - 1) * bits o 29 20 + (len - 1)
    used && validLocal o && decide (last < scratchWords)
      && (List.range 16).all fun b => x.mask.getLsbD b || decide (b < first / 57344) || decide (last / 57344 < b)
  | 1 => used && (match x.kv with
      | some (size, fill) => decide (bits o 19 0 + fill * bits o 29 20 + len ≤ size)
      | none => true)
  | _ => used && decide (bits o 19 0 + len ≤ x.adapter)

/-- A global scratchpad address that a plan may name: a core of a compute field and a valid word; as the destination of a SEND also an Obtik port
engine, with an entry of its remote target table in [11:0] (R65, R308). -/
def globalOk (send : Bool) (g : Nat) : Bool :=
  let e := bits g 31 20
  if isCore e then validLocal (bits g 19 0)
  else send && isServiceEndpoint e && (portOfEngine e).isSome && bits g 19 12 == 0

/-- A multicast group that a field's descriptors may name: below 1,024, with the field as its root (R291). -/
def groupOk (x : LoadCtx) (g : Nat) : Bool := decide (g < 1024) && x.groups.all fun e => e.1 != g || e.2.1 == x.field

/-- Fields of one operation in their stated ranges (R87, R102, R104, R137, R180). -/
def fieldsOk (x : LoadCtx) (d : W256) : Bool :=
  let n := dCount d
  let ib := bits (dP1 d) 11 0
  let divides := decide (0 < ib) && n % ib == 0
  let kvMode (o : Nat) : Bool := bits o 31 30 == 1
  match dOp d with
  | 0x01 => !dSync d && dRows d == 1
  | 0x10 | 0x11 | 0x61 => divides
  | 0x12 => decide (4 ≤ bits (dP0 d) 6 0) && decide (bits (dP0 d) 6 0 ≤ 64) && bits (dP0 d) 1 0 == 0
  | 0x20 =>
    if bits (dP1 d) 17 17 = 1 then groupOk x (bits (dP2 d) 11 0)
    else globalOk true (dP0 d) && (bits (dP0 d) 31 20 / 32 == x.field || isServiceEndpoint (bits (dP0 d) 31 20)
      || validLocal (bits (dP0 d) 19 0 + dRows d * n - 1))
  | 0x22 => decide (bits (dP0 d) 17 16 ≤ 2) && (bits (dP0 d) 11 0 == 0xFFF || isCore (bits (dP0 d) 11 0))
      && (bits (dP0 d) 18 18 == 0 || groupOk x (bits (dP2 d) 11 0))
  | 0x33 => decide (64 ≤ bits (dP0 d) 9 0) && decide (bits (dP0 d) 9 0 ≤ 512) && bits (dP0 d) 5 0 == 0 && bits (dP2 d) 0 0 == 0
  | 0x35 => decide (1 ≤ bits (dP0 d) 7 0) && decide (bits (dP0 d) 7 0 ≤ 64)
      && (bits (dP0 d) 15 8 == 0xFF || (decide (1 ≤ bits (dP0 d) 15 8) && decide (bits (dP0 d) 15 8 ≤ 64)))
  | 0x36 => decide (bits (dP0 d) 3 0 ≤ 7)
  | 0x40 | 0x42 => decide (bits (dP0 d) 9 8 ≤ 2) && kvMode (dSrcB d)
  | 0x43 => decide (bits (dP0 d) 9 8 ≤ 2) && kvMode (dDst d) && bits (dDst d) 29 20 == 0
  | 0x50 => decide (bits (dP0 d) 4 0 ≤ 15)
  | 0x62 => decide (1 ≤ bits (dP1 d) 10 0) && decide (bits (dP1 d) 10 0 ≤ 1024)
  | 0x70 => kvMode (dDst d)
  | _ => true

/-- A descriptor that plan load accepts: a listed operation, no reserved bit, its flags, formats, COUNT, operands and operand parameters (R87). -/
def descriptorOk (x : LoadCtx) (decode : Bool) (d : W256) : Bool :=
  match opRow (dOp d) with
  | none => false
  | some r =>
    let (dl, al, bl) := footprint d
    let within (v m : Nat) : Bool := v ||| m == m
    !d.getLsbD 19 && bits d.toNat 63 36 == 0
      && (r.acc || !dAcc d) && (r.exch || !dExch d) && (r.sr || !dSr d)
      && r.fmts.contains (dFmt d) && (r.zero == (dCount d == 0))
      && (!decode || decide (dRows d ≤ 16))
      && within (dP0 d) r.p0 && within (dP1 d) r.p1 && within (dP2 d) r.p2
      && operandOk x (dRows d) dl r.dst (dDst d) && operandOk x (dRows d) al r.srcA (dSrcA d)
      && operandOk x (dRows d) bl r.srcB (dSrcB d)
      && (paramOperands d).all (fun q => operandOk x (dRows d) q.2.1 true q.1)
      && fieldsOk x d

/-- Operations that move data between cores (R100). -/
def movesData (d : W256) : Bool := [0x20, 0x21, 0x22, 0x23, 0x24].contains (dOp d)

/-- Trouble and replay at plan load: a branch names an entry inside the replay program and arms one that moves data only with STAGE; the replay
program holds no branch, the maintenance program neither CHECK nor branch (R87, R99, R100). -/
def CoreSt.replayOk (k : CoreSt) : Bool :=
  ([k.decode, k.prefill, k.tuneFwd, k.tuneBwd].flatMap k.program).all (fun d => dOp d ≠ 0x03 ||
      (decide (bits (dP0 d) 11 0 < k.replay.len) && endsWell (k.entryOf d) && (dP1 d % 2 = 1 || !(k.entryOf d).any movesData)))
    && (k.program k.replay).all (fun d => dOp d ≠ 0x03)
    && (k.program k.maint).all fun d => dOp d ≠ 0x03 && dOp d ≠ 0x35

/-- Lists of global addresses that GATHER and SCATTER read where the plan's load entries hold them (R65, R102). -/
def CoreSt.listsOk (k : CoreSt) (d : W256) : Bool :=
  let n := bits (dP1 d) 5 0 + 1
  let lin := linLocal (bits (dP0 d) 19 0)
  let words := (4 * n + 31) / 32
  let held := k.loads.any fun e => decide (linLocal e.dest ≤ lin) && decide (lin + words ≤ linLocal e.dest + e.words)
  if (dOp d = 0x23 || dOp d = 0x24) && bits (dP0 d) 31 30 = 0 && held then
    (addressList (k.mem.bytes (32 * lin) (32 * words)) n).all (globalOk false)
  else true

/-- A load entry's destination: a valid local address, inside the scratchpad and the plan's banks (R65, R74, R157). -/
def CoreSt.loadOk (k : CoreSt) (e : LoadEntry) : Bool :=
  let lin := linLocal e.dest
  let last := lin + (e.words - 1)
  validLocal e.dest && decide (lin + e.words ≤ scratchWords)
    && (List.range 16).all fun b => k.bankMask.getLsbD b || decide (b < lin / 57344) || decide (last / 57344 < b)

/-- Tables of the activation store that a core has, or that its programs name, have 1-60 segments and reserved bytes of 0 (R128). -/
def CoreSt.tablesOk (k : CoreSt) : Bool :=
  let used := ([k.decode, k.prefill, k.replay, k.maint, k.tuneFwd, k.tuneBwd].flatMap k.program ++ k.deputyProg).filterMap fun d =>
    if dOp d = 0x31 || dOp d = 0x32 then some (bits (dP0 d) 4 0) else none
  ((if k.actStore.isEmpty then used else List.range 32)).all fun t =>
    let n := k.actStore.le (512 * t + 8) 2
    decide (1 ≤ n) && decide (n ≤ 60) && (List.range 22).all fun i => k.actStore.read (512 * t + 10 + i) == 0

/-- The programs of a core: inside descriptors 0-3,839, apart from each other, the four of R63 not empty, every descriptor checked, deputy and
tuning programs with them (R63, R79, R87, R141, R264). -/
def CoreSt.programsOk (k : CoreSt) (x : LoadCtx) : Bool :=
  let four := [k.decode, k.prefill, k.replay, k.maint]
  let tune := [k.tuneFwd, k.tuneBwd].filter fun p => 0 < p.len
  let ps := four ++ tune
  let apart (a b : Prog) : Bool := decide (a.base + a.len ≤ b.base) || decide (b.base + b.len ≤ a.base)
  four.all (fun p => decide (0 < p.len)) && ps.all (fun p => decide (p.base + p.len ≤ 3840))
    && ((List.range ps.length).all fun i => (List.range i).all fun j => apart (ps.getD i {}) (ps.getD j {}))
    && (k.program k.decode).all (descriptorOk x true)
    && (([k.prefill, k.replay, k.maint] ++ tune).flatMap k.program).all (descriptorOk x false)
    && k.deputyProg.all (descriptorOk x false)
    && ps.all (fun p => endsWell (k.program p)) && endsWell k.deputyProg
    && (ps.flatMap k.program).all k.listsOk
    && k.replayOk && k.loads.all k.loadOk && k.tablesOk

/-! ### Loading a core (R64, R74, R155-R157, R264) -/

def prog4 (m : Mem) (e i : Nat) : Prog := ⟨m.le (e + 8 + 4 * i) 2, m.le (e + 10 + 4 * i) 2⟩

/-- Words a bank mask leaves powered; banks that come up are cleared and initialise (R69, R74). -/
def CoreSt.powerBanks (k : CoreSt) (mask : W16) : CoreSt :=
  let keep (b : Nat) : Bool := k.bankOn.getLsbD b && mask.getLsbD b
  { k with
    mem := k.mem.filter fun e => keep (e.1 / (32 * 57344))
    scErr := k.scErr.filter fun e => keep (e.1 / 57344)
    bankInit := (k.bankInit &&& mask) ||| (mask &&& ~~~k.bankOn)
    bankOn := mask, bankMask := mask }

/-- Words a load entry writes, tagged PLAN (R157). -/
def CoreSt.applyLoad (m : Mem) (k : CoreSt) (e : LoadEntry) : CoreSt :=
  let lin := linLocal e.dest
  { k with
    mem := k.mem.writeBytes (32 * lin) (m.bytes e.src (32 * e.words))
    scErr := k.scErr.filter fun x => x.1 < lin || lin + e.words ≤ x.1
    tags := (List.range (e.words / 2048 + 2)).foldl (fun t i =>
      let g := segOf lin + i
      if 2048 * g < lin + e.words then t.set g 0x8 else t) k.tags }

/-- A core as its bank header's core entry gives it. -/
def CoreSt.load (k : CoreSt) (m : Mem) (n : Nat) : CoreSt :=
  let e := 64 + 64 * n
  let stage := m.le e 2
  let progLen := m.le (e + 28) 2
  let code : Tbl W256 := (List.range progLen).map fun i => (i, BitVec.ofNat 256 (m.le (m.le (e + 24) 4 + 32 * i) 32))
  let loads := (List.range (m.le (e + 40) 4)).map fun i =>
    let o := m.le (e + 36) 4 + 16 * i
    (⟨m.le o 4 % 2 ^ 20, m.le (o + 4) 4, m.le (o + 8) 8⟩ : LoadEntry)
  let base := m.le (e + 58) 2
  let k := k.powerBanks (BitVec.ofNat 16 (m.le (e + 2) 2))
  let k := { k with
    stage := stage, reserveSeg := m.le (e + 4) 2, adapterSeg := m.le (e + 6) 2
    decode := prog4 m e 0, prefill := prog4 m e 1, replay := prog4 m e 2, maint := prog4 m e 3
    tuneFwd := ⟨base, m.le (e + 60) 2⟩, tuneBwd := ⟨base + m.le (e + 60) 2, m.le (e + 62) 2⟩
    areaA := ⟨3840, 0⟩, areaB := ⟨3968, 0⟩
    code := code, codeErr := [], repairs := [], reloads := []
    actStore := if m.le (e + 32) 4 = 0 then [] else Mem.writeBytes [] 0 (m.bytes (m.le (e + 32) 4) 16384)
    loads := loads
    absList := (List.range (m.le (e + 48) 4)).map fun i => m.le (m.le (e + 44) 4 + 4 * i) 4 % 2 ^ 22
    deputyProg := (List.range (m.le (e + 56) 2)).map fun i => BitVec.ofNat 256 (m.le (m.le (e + 52) 4 + 32 * i) 32)
    tags := [], nextTags := [], decRows := [], preRows := []
    seq := {}, extension := 0, deputyOf := none, absShare := []
    state := if k.state == .failed then .failed else if stage = 0x3FF then .idle else .serving }
  loads.foldl (CoreSt.applyLoad m) k

def FieldSt.bank (x : FieldSt) (i : Nat) : Bank := if i = 0 then x.bank0 else x.bank1
def FieldSt.setBank (x : FieldSt) (i : Nat) (b : Bank) : FieldSt := if i = 0 then { x with bank0 := b } else { x with bank1 := b }

/-- A field's steward loads the plan of one of its banks. -/
def State.loadField (s : State) (f bank : Nat) : State :=
  let m := ((s.field f).bank bank).mem
  s.forAll (List.range 32) fun s n => s.updCore (32 * f + n) fun k => k.load m n

/-- The live placements. -/
def State.livePlacements (s : State) : List Nat := (List.range 4).filter fun p => (s.plc p).live

/-- Fields of a placement in role ACTIVE, ascending. -/
def State.fieldsOf (s : State) (p : Nat) : List Nat :=
  computeFields.filter fun f => (s.field f).placement == some p && (s.field f).role == .active

/-! ### Plan-load checks -/

/-- Used non-reserve segments of a core (R80): those that load entries write, the adapter segments, the sampling blocks, and what the bound
airspaces' shares take of the pool; the segments left over stay FREE (R186). -/
def State.usedSegs (s : State) (c : Nat) : Nat :=
  let k := s.core c
  let pool := match (s.field (coreField c)).placement with
    | some p => if (s.kvCores p).contains c then ((s.boundTo p).map fun a => (s.airSegs p a c).length).foldl (· + ·) 0 else 0
    | none => 0
  (k.bankSegs.filter k.planSegs.contains).length + k.adapterSegs.length + k.sampleSegs.length + pool

/-- R80: every reserve at least 2 ⌈U / 30⌉, and two failures' absorption within a. -/
def State.absorptionOk (s : State) (f a : Nat) : Bool :=
  let ks := (coresOf f).map s.core
  let u := ((coresOf f).map s.usedSegs).foldl max 0
  let lens := sortNat (ks.map fun k => k.absList.length)
  let two := lens.getD 31 0 + lens.getD 30 0
  ks.all (fun k => decide (2 * ceilDiv u 30 ≤ k.reserveSeg)) && decide (ceilDiv two 30 ≤ a)

/-- A run of n tiles from t: every tile valid and of one code width; a run of 2-bit tiles starts at an even offset of the pair region (R104,
R145). -/
def runOk (m : Mem) (t n : Nat) : Bool :=
  let width (i : Nat) : Option Nat := (tilePlace m i).map fun p => p.2.2
  (width t).isSome && ((List.range n).all fun i => width (t + i) == width t)
    && (decide (t < bankPairBase m) || (t - bankPairBase m) % 2 == 0)

/-- R145: no program names an invalid tile. The runs of an INDIRECT operation are those of every expert from P0 on, P2 tiles apart, that fits the
bank; EMBED reads its slice's rows of COUNT tiles. -/
def tilesOk (m : Mem) (d : W256) : Bool :=
  let t := bits (dP0 d) 21 0
  let n := dCount d
  let tiles := bankPairBase m + 2 * (bankSlots m - bankPairBase m)
  match dOp d with
  | 0x10 | 0x11 | 0x61 =>
    let stride := bits (dP2 d) 21 0
    if bits (dP1 d) 20 20 = 1 && 0 < stride then
      runOk m t n && (List.range ((tiles - t) / stride)).all fun e => decide (tiles < t + e * stride + n) || runOk m (t + e * stride) n
    else runOk m t n
  | 0x60 => (List.range (ceilDiv (bits (dP2 d) 17 0) 64 * n)).all fun i => (tilePlace m (t + i)).isSome
  | _ => true

/-- Zero bytes where the layout reserves them. -/
def zeroBytes (m : Mem) (a n : Nat) : Bool := (List.range n).all fun i => m.read (a + i) == 0

/-- A core entry of a bank header: PROG_LEN, DEP_LEN, its offsets inside the region, the reserved bytes, and the reserved bits of its load entries
and absorption list (R156, R157). -/
def coreEntryOk (m : Mem) (region stages n : Nat) : Bool :=
  let e := 64 + 64 * n
  let inside (off len : Nat) : Bool := decide (m.le (e + off) 4 + len ≤ region)
  let progLen := m.le (e + 28) 2
  let dep := m.le (e + 56) 2
  (m.le e 2 == 0x3FF || decide (m.le e 2 < stages)) && decide (m.le (e + 4) 2 ≤ 448)
    && decide (1 ≤ progLen) && decide (progLen ≤ 3840) && inside 24 (32 * progLen) && m.le (e + 30) 2 == 0
    && (m.le (e + 32) 4 == 0 || inside 32 16384)
    && inside 36 (16 * m.le (e + 40) 4) && inside 44 (4 * m.le (e + 48) 4)
    && decide (1 ≤ dep) && decide (dep ≤ 128) && inside 52 (32 * dep)
    && (List.range (m.le (e + 40) 4)).all (fun i =>
      let o := m.le (e + 36) 4 + 16 * i
      decide (m.le o 4 < 2 ^ 20) && decide (m.le (o + 8) 8 + 32 * m.le (o + 4) 4 ≤ region))
    && (List.range (m.le (e + 48) 4)).all fun i => decide (m.le (m.le (e + 44) 4 + 4 * i) 4 < 2 ^ 22)

/-- A field bank header as its image records it (R145, R155, R158). -/
def bankHeaderOk (m : Mem) (img : Image) (r : FieldRec) : Bool :=
  let off := bankTileOff m
  let slots := bankSlots m
  let pair := bankPairBase m
  m.bytes 0 8 == [0x59, 0x47, 0x4E, 0x46, 0x4C, 0x44, 0x30, 0x31] && m.le 8 8 == img.imageId && m.le 16 2 == r.field && m.le 18 2 == 0
    && off % 32 == 0 && decide (4096 ≤ off) && decide (off + 2336 * slots ≤ r.regionBytes)
    && decide (pair ≤ slots) && decide (pair + 2 * (slots - pair) ≤ 4194304) && decide (bankWidthOff m + ceilDiv pair 8 ≤ r.regionBytes)
    && zeroBytes m 36 28 && zeroBytes m 2112 1984
    && (List.range 32).all (coreEntryOk m r.regionBytes img.stages.length)

/-- R176: the KV geometry of a stage's cores. -/
def State.kvOk (s : State) (p : Nat) (img : Image) (stage : Nat) : Bool :=
  match img.stages[stage]? with
  | none => true
  | some r =>
    let cs := (s.kvCores p).filter fun c => (s.core c).stage = stage
    if r.kvWords = 0 then true
    else
      let ds := cs.filterMap fun c => (s.core c).kvAppend
      let h := (ds.map dCount).headD 0
      let heads := max 1 img.kvHeads
      let split := cs.length * h / heads
      let lmax := ([3, 2, 1, 0].find? fun c => bits img.classMask c c = 1).elim 0 classLen
      let blocks := cs.flatMap fun c => ((s.core c).program (s.core c).decode ++ (s.core c).program (s.core c).prefill).filter fun d => dOp d = 0x40 || dOp d = 0x42
      ds.all (fun d => dCount d == h && r.kvWords == 2 * h * kvTb (dP0 d) * kvOmega (dP0 d))
        && cs.length * h % heads == 0 && [1, 2, 4, 8, 16].contains split && (!r.windowed || split == 1)
        && blocks.all fun d => if r.windowed then decide (ceilDiv r.window 64 + 1 ≤ dCount d) else decide (lmax / (64 * split) ≤ dCount d)

/-- What a core's descriptors are checked by: its own banks and adapter segments, and the region of the image's largest class. -/
def State.loadCtx (s : State) (img : Image) (c : Nat) : LoadCtx :=
  let k := s.core c
  let (split, _) := s.kvShare c
  let top := ([3, 2, 1, 0].find? fun x => bits img.classMask x x = 1).getD 0
  { mask := k.bankMask, kv := k.kvAppend.map fun _ => (mapEntries top split * s.kvBlock c, classLen top)
    adapter := 2048 * k.adapterSeg, field := coreField c, groups := Config.planGroups img.headerHash }

/-- The queued sends of a program arrive within the bound of R39 by the latencies that `lat` gives: the last cycle in which a packet may arrive is
P − 67, and a send leaves at P − 64 − x + OFFSET (R98). -/
def State.exchInTime (s : State) (lat : State → Nat → Nat → Nat) (c x prog : Nat) (l : List W256) : Bool :=
  let t := s.updCore c fun k => { k with decRows := fullRows 16, preRows := fullRows 128, seq := { prog := prog } }
  l.all fun d => dOp d ≠ 0x20 || !dExch d || bits (dP1 d) 16 16 == 1 ||
    decide (bits (dP1 d) 15 0 + t.sourceLatency c d + (dCount d + 1) / 2 * min (dRows d) (if prog = 4 then 128 else 16)
      + ((t.moveTargets c d).map (lat s c)).foldl max 28 + 3 ≤ x)

/-- They do so with either field aliased to any clearing (R167). -/
def State.exchOk (s : State) (c x prog : Nat) (l : List W256) : Bool := s.exchInTime State.aliasLatency c x prog l

/-- R95 over one core: decode within d, the deputy program within a, maintenance within 56 cycles, replay entries of their declared lengths and no
longer than the reserve; queued sends within R39. A send that is not queued has arrived as its program completes, so that none falls into a guard
(R38). -/
def State.coreFits (s : State) (c period d a c0 x : Nat) : Bool :=
  let k := s.core c
  let entryFits (pre : Bool) (e : W256) : Bool := dOp e ≠ 0x03 ||
    (let len := bits (dP0 e) 31 16
     let start := 48 + c0
     s.dryRun c 5 start (if pre then 128 else 16) (k.entryOf e) pre == start + len && decide (len ≤ period - 112 - c0 - x))
  decide (s.dryRun c 1 48 16 (k.program k.decode) ≤ 48 + d)
    && decide (s.dryRun c 2 48 16 k.deputyProg ≤ 48 + a)
    && decide (s.dryRun c 6 (period - 64) 16 (k.program k.maint) ≤ period - 64 + 56)
    && (k.program k.decode).all (entryFits false)
    && ([k.prefill, k.tuneFwd, k.tuneBwd].flatMap k.program).all (entryFits true)
    && s.exchOk c x 1 (k.program k.decode) && s.exchOk c x 4 (k.program k.prefill) && s.exchOk c x 1 (k.program k.replay)

/-- Every check of a placement's loaded plan. -/
def State.planOk (s : State) (p : Nat) (img : Image) (d x a c0 period : Nat) : Bool :=
  let cs := s.coresOfPlacement p
  let bank := (s.plc p).liveBank
  img.fields.all (fun r => r.role ≠ 1 || bankHeaderOk ((s.field ((s.plc p).siteOf r.field)).bank bank).mem img r)
    && cs.all (fun c =>
      let k := s.core c
      k.programsOk (s.loadCtx img c) && s.coreFits c period d a c0 x
      && ([k.decode, k.prefill, k.replay, k.maint, k.tuneFwd, k.tuneBwd].flatMap k.program).all (tilesOk ((s.field (coreField c)).bank bank).mem))
    && (s.fieldsOf p).all (fun f => s.absorptionOk f a)
    && (List.range img.stages.length).all (s.kvOk p img)
    && s.fabricOk p img d x c0 period
    && s.linksOk p img.headerHash period x

/-- The plan in force of an image at given shares (R33, R37, R217, R265). -/
def State.makePlan (s : State) (p : Nat) (img : Image) (sized rr required : Nat) : Plan :=
  let d := img.decodeLen
  let c0 := computeWindow d sized
  let cs := s.coresOfPlacement p
  let least (l : List Nat) : Nat := match l with | [] => 0 | n :: ns => ns.foldl min n
  let rows (c : Nat) (len : Nat) : Nat :=
    largestRows fun n => decide (s.dryRun c 4 (48 + d) n ((s.core c).program (s.core c).prefill) ≤ 48 + d + len)
  let tuning := decide (0 < img.adapterRank) && cs.all fun c => decide (0 < (s.core c).tuneFwd.len) && decide (0 < (s.core c).tuneBwd.len)
  { d := d, c := c0, x := img.exchange, a := img.absorb, sized := sized, rr := rr, required := required
    ns := img.stages.length, maxDepth := img.maxDepth
    qp := (List.range (sized + 1)).map fun g => least (cs.map fun c => rows c (c0 * g / 100))
    qtShared := if tuning then least (cs.map fun c => s.tuneRows c (48 + d) (c0 * sized / 100)) else 0
    qtIdle := if tuning then least (cs.map fun c => s.tuneRows c 48 c0) else 0
    tuning := tuning }

/-- Plan registers of R59; all but RR read 0 while the placement is not live. -/
def State.gaugePlan (s : State) : State :=
  s.forAll (List.range 4) fun s p =>
    let x := s.plc p
    let v (n : Nat) : Nat := if x.live then n else 0
    let s := s.put (Reg.Tick.DECODE p) (v x.plan.d)
    let s := s.put (Reg.Tick.PREFILL p) (v (x.plan.c - x.plan.d))
    let s := s.put (Reg.Tick.RESERVE p) (v (s.tick.period - 112 - x.plan.c - x.plan.x))
    let s := s.put (Reg.Tick.EXCHANGE p) (v x.plan.x)
    let s := s.put (Reg.Tick.GRANT p) (v x.grant)
    let s := s.put (Reg.Tick.SIZED p) (v x.plan.sized)
    s.put (Reg.Tick.RR p) x.plan.rr

/-- The period the live placements require: the largest, or 4,800 while none is live (R33, R35). -/
def State.periodOf (s : State) : Nat :=
  let l := (List.range 4).filter fun p => (s.plc p).live
  if l.isEmpty then Config.idlePeriod else (l.map fun p => (s.plc p).plan.required).foldl max 0

end Sys2Proof.Machine
end

