-- ==== Sys2Proof/Machine/Clearance.lean ====
section
/-! DEFINITION. Clearance (R220-R224), sampling parameters (R225), resume and continuation (R203, R233), destinations taken at
clearance (R253), the wait list (R221), and the acknowledgements of requests (R250, R252). -/

namespace Sys2Proof.Machine

/-! ### Parameters (R225) -/

/-- FP32 value in [0.0, hi] or, with `open_`, [0.0, hi). -/
def inUnit (x : W32) (hi : Nat) (open_ : Bool) : Bool :=
  let v := if x.toNat = 0x80000000 then 0 else x.toNat
  if open_ then decide (v < hi) else decide (v ≤ hi)

def temperatureOk (x : W32) : Bool := inUnit x 0x41800000 false
def topPOk (x : W32) : Bool := decide (0 < x.toNat) && decide (x.toNat ≤ 0x3F800000)
def minPOk (x : W32) : Bool := inUnit x 0x3F800000 true

/-- A sampling block in range for a vocabulary (R225). -/
def samplingOk (x : Sampling) (vocab : Nat) : Bool :=
  temperatureOk x.temperature && topPOk x.topP && minPOk x.minP && decide (x.topK ≤ 1024)
    && decide (x.stopIds.length ≤ 8) && x.stopIds.all (· < vocab)
    && decide (x.biases.length ≤ 64)
    && x.biases.all fun b => decide (b.1 < vocab) && (bits b.2.toNat 30 23 ≠ 255 || b.2 == 0xFF800000#32)

/-- The airspace's defaults (R241, R247). -/
def AirspaceSt.defaults (x : AirspaceSt) : Sampling := ⟨x.temperature, x.topP, x.minP, x.topK, 0, [], []⟩

/-! ### Adapters held (R170, R172) -/

/-- Slot of the current version of an adapter ID, if it is held and not retiring. -/
def AdapterSt.current (x : AdapterSt) : Option AdapterSlot :=
  if x.retiring then none
  else match x.slotA.filter (·.current), x.slotB.filter (·.current) with
    | some v, _ => some v
    | none, r => r

/-- Slot that holds a version. -/
def AdapterSt.slotOf (x : AdapterSt) (version : Nat) : Option AdapterSlot :=
  match x.slotA.filter (·.version = version), x.slotB.filter (·.version = version) with
  | some v, _ => some v
  | none, r => r

def PlacementSt.adapterFor (x : PlacementSt) (a id : Nat) : Option AdapterSlot :=
  ((x.adapters.find id).filter fun e => e.owner = a).bind AdapterSt.current

/-! ### Destinations (R253) -/

/-- The entry that a client's dynamic destination takes at clearance: the one it holds already, or the lowest free one. -/
def State.takeDest (s : State) (c : Client) : Option (Nat × State) :=
  let x := s.asp c.airspace
  match x.dests.find? fun e => 16 ≤ e.1 && e.2.addr = c.addr && e.2.udpPort = c.port && e.2.ingress = c.eth with
  | some e => some (e.1, s)
  | none =>
    match ((List.range (x.dests.length + 1)).map (· + 16)).find? fun i => i < 4096 && !x.dests.has i with
    | none => none
    | some i => some (i, s.setAsp c.airspace { x with dests := x.dests.set i ⟨c.addr, c.port, c.eth, c.eth, 0⟩ })

/-! ### Clearance -/

/-- What a request asks, once R233 has turned a continuation into a prompt. -/
structure Ask where
  airspace : Nat
  /-- the descriptor that is continued -/
  session : Option Nat
  prompt : List Nat
  limit : Nat
  cls : Nat
  dest : Nat
  sampling : Option Sampling
  prefixHandle : Nat
  register : Bool
  registerLen : Nat
  adapterId : Nat
  client : Client
deriving DecidableEq, Repr

inductive Verdict where
  | refused (st : Status)
  | waits (s : State)
  | cleared (s : State) (ack : AckMsg)
deriving DecidableEq, Repr

/-- Check 3 of R220: the class, and M′. -/
def chooseClass (mask t m cls : Nat) : Option (Nat × Nat) :=
  let fits (c : Nat) : Bool := bits mask c c = 1 && decide (t + max m 1 - 1 ≤ classLen c)
  let c := if cls = 0xFF then [0, 1, 2, 3].find? fits else if cls ≤ 3 && fits cls then some cls else none
  c.map fun c => (c, if m = 0 then classLen c - t + 1 else min m (classLen c - t + 1))

/-- Check 5 of R220: the prefix named, or the refusal (R191, R192, R195). Answers the entry used, and its tokens and pages. -/
def State.checkPrefix (s : State) (q : Ask) (cls : Nat) (adapter : Option (Nat × Nat)) : Except Status (Option Nat × Nat × List Nat) :=
  let x := s.asp q.airspace
  let t := q.prompt.length
  let base : Except Status (Option Nat × Nat × List Nat) :=
    if q.prefixHandle = 0 then .ok (none, 0, [])
    else match x.prefixNamed q.prefixHandle with
      | none => .error .badParameter
      | some e =>
        let pe := x.prefixes.getD e {}
        match pe.st with
        | .free => .error .badParameter
        | .filling => .error .busy
        | .retiring => .error .notPermitted
        | .ready =>
          if pe.adapter ≠ adapter || classLen cls ≤ pe.tokens || t ≤ pe.tokens then .error .notPermitted
          else .ok (some e, pe.tokens, pe.pages)
  match base with
  | .error e => .error e
  | .ok (e, n, pages) =>
    if q.register && (q.registerLen = 0 || t < q.registerLen || q.registerLen ≤ n || 131071 < q.registerLen) then .error .badParameter
    else .ok (e, n, pages)

/-- Steps 7-9 of R220 and R222: the lane and the bookings of a request that computes tp positions from s0. -/
def State.findLane (s : State) (p a n tp m s0 : Nat) : Option (Nat × Nat × Nat × Nat × Nat × List Booking) :=
  let x := s.plc p
  let ns := x.ns
  let rlen := x.round * ns
  if !s.laneAllowed p a then none
  else if x.slotMode then
    match x.firstFreeLane s.power.depthLimit s0 (s0 + rlen) with
    | none => none
    | some (r0, ph, l) =>
      let first := r0 + tp * ns
      let done := r0 + (tp + m - 1) * ns
      if s.outlookAdmits a r0 done [] then some (first, done, r0, ph, l, []) else none
  else if x.qp = 0 then none
  else
    let fuel := tp + x.ledger.length + 2
    let attempt (cap : List Booking → Nat → Nat) (fuel : Nat) := bookRows n cap fuel s0 tp x.ledger
    let plain (l : List Booking) (t : Nat) : Nat := x.qpBook - ((l.filter fun b => b.tick = t).foldl (fun k b => k + b.rows) 0)
    let judge (r : Option (Nat × List Booking)) (latest : Option Nat) : Option (Nat × Nat × Nat × Nat × Nat × List Booking) :=
      match r with
      | none => none
      | some (tLast, led) =>
        let first := tLast + ns
        match x.firstFreeLane s.power.depthLimit first (first + rlen) with
        | none => none
        | some (r0, ph, l) =>
          let done := r0 + (m - 1) * ns
          let added := led.drop x.ledger.length
          if s.outlookAdmits a r0 done added && latest.all fun r => decide (r0 ≤ r)
          then some (first, done, r0, ph, l, added) else none
    match judge (attempt plain fuel) none with
    | some r => some r
    | none =>
      -- R355: bookings that fail move to later ticks, within the clearance's lane interval
      let r0 := match attempt plain fuel with
        | some (tLast, _) => (x.firstFreeLane s.power.depthLimit (tLast + ns) (tLast + ns + rlen)).map fun r => r.1
        | none => none
      if r0.isNone then none else judge (attempt (fun l t => s.outlookCap a (plain l t) t) (fuel + 20)) r0

/-- Words of copy-on-write of a prefix's partial page (R194). -/
def State.cowWords (s : State) (p tokens : Nat) : Nat :=
  let blocks := ceilDiv (tokens % 256) 64
  ((s.kvCores p).map fun c => blocks * s.kvBlock c).foldl max 0

/-- Cores of the last stage that run SAMPLE, and where a sampling block stands there (log entry 45). -/
def State.sampleCores (s : State) (p : Nat) : List Nat :=
  (s.coresOfPlacement p).filter fun c =>
    (s.core c).stage + 1 = (s.plc p).ns && (s.core c).samples
def CoreSt.sampleBlk (k : CoreSt) (block : Nat) : Nat := 2048 * k.sampleSegs.getD (block / 113) 0 + 18 * (block % 113)

/-- Write a session's sampling block in the cores that sample (R225). -/
def State.writeSampling (s : State) (n : Nat) : State :=
  let d := s.sess n
  match d.sampling, d.phase, d.lane with
  | some x, some ph, some l =>
    s.forAll (s.sampleCores d.placement) fun s c => s.poke c (32 * (s.core c).sampleBlk ((s.plc d.placement).blockOf (slotIx ph l))) (samplingBlock x)
  | _, _, _ => s

/-- Take the pages of a registration (R192): a FREE entry in state FILLING with the base's full pages and new page slots. -/
def State.register (s : State) (n : Nat) (q : Ask) (baseTok : Nat) (basePages : List Nat) (adapter : Option (Nat × Nat)) : Option State :=
  let x := s.asp q.airspace
  let lo := baseTok / 256
  let hi := ceilDiv q.registerLen 256
  match (List.range 256).find? (fun e => (x.prefixes.getD e {}).st == .free), s.takePages q.airspace ((List.range (hi - lo)).map (· + lo)) with
  | some e, some (ids, s) =>
    let s := s.updAsp q.airspace fun x => { x with prefixes := x.prefixes.set e {
      generation := (x.prefixes.getD e {}).generation, st := .filling, tokens := q.registerLen, adapter := adapter
      pages := basePages.take lo ++ ids, registrant := some n } }
    some (s.updSess n fun d => { d with registering := some e })
  | _, _ => none

/-- Grant a clearance: fill the descriptor and answer its acknowledgement (R222, R223, R252). The descriptor is taken now, and its state changes at
boundary b (R211): until then it reads as before. DESIGN CHOICE (log entry 144): PENDING holds the last token of the history from the start, also while
earlier positions are still computed. -/
def State.grant (s : State) (q : Ask) (n p cls m w start : Nat) (adapter : Option (Nat × Nat)) (lane : Nat × Nat × Nat × Nat × Nat × List Booking)
    (rebuild : Bool) : State × AckMsg :=
  let x := s.plc p
  let (first, done, r0, ph, l, led) := lane
  let b := s.tick.count + 1
  let (seed, s) := match q.sampling with
    | some y => if y.seed = 0 then (Config.freeSeed s.freeUses, { s with freeUses := s.freeUses + 1 }) else (y.seed, s)
    | none => (0, s)
  let smp := q.sampling.map fun y => { y with seed := seed }
  let c := s.tick.committed
  let fns := promiseNs (first - b) s.tick.period c
  let dns := promiseNs (done - b) s.tick.period c
  let s := s.updPlc p fun x => { x with
    lanes := x.lanes.set (slotIx ph l) ⟨n, r0, q.airspace, x.freeBlock⟩
    ledger := x.ledger ++ led }
  let s := s.updSess n fun d => { d with
    st := .queued, before := d.st, airspace := q.airspace, placement := p, cls := cls, committed := c, phase := some ph, lane := some l, r0 := r0
    adapterId := adapter.map Prod.fst, adapterVersion := (adapter.map Prod.snd).getD 0, prefixHandle := q.prefixHandle
    promptLen := q.prompt.length, limitAsked := q.limit, maxTokens := m, delivered := 0, kvFill := start, pos := start
    pendingTok := q.prompt.getLastD 0, clearBoundary := b, firstBound := first, doneBound := done, firstNs := fns, doneNs := dns
    clearWall := s.tick.wall480 + tickNs480 s.tick.period s.tick.level, clearPeriod := s.tick.period
    sampling := smp, history := q.prompt, cowLeft := w, slotMode := x.slotMode, endReason := 0, endPending := false
    kvHeld := false, rebuilding := false, rebuiltMark := rebuild, gapSent := false, sampled := none, travDropped := false
    delayTicks := 0, faultDelayed := false, stretchExceeded := false, cancelLate := false, rebuilt := false
    latch := 0, drainPause := false, cancelLatched := false, pauseLatched := false }
  let s := (if q.session.isSome then s else s.placeContrail n).writeSampling n
  let s := s.bump (Reg.Ses.CLEARED q.airspace)
  let d := s.sess n
  (s, { client := q.client, status := .ok, handle := handleOf n d, cls := cls, prefixRefused := d.prefixRefused
        slotMode := d.slotMode, rebuild := rebuild, adapterVersion := d.adapterVersion, clearBoundary := b, firstBound := first
        doneBound := done, firstNs := fns, doneNs := dns, seed := seed
        prefixHandle := match d.registering with
          | some e => prefixHandle e ((s.asp q.airspace).prefixes.getD e {})
          | none => 0
        maxTokens := m })

/-- An order that carves again waits for its boundary (R187). -/
def State.carvePending (s : State) : Bool :=
  s.host.deferred.any fun d => match d.order with
    | .setKv .. | .setShares .. | .airspaceBind .. | .airspaceUnbind .. => true
    | _ => false

/-- A session's full pages in order: at the indices `at_` those copied, elsewhere the linked ones (R203). -/
def weave (at_ links ids : List Nat) : List Nat :=
  ((List.range (links.length + ids.length)).foldl (fun (acc : List Nat × List Nat × List Nat) u =>
    let (out, l, i) := acc
    if at_.contains u then (out ++ i.take 1, l, i.drop 1) else (out ++ l.take 1, l.drop 1, i)) ([], links, ids)).1

/-- R220 and R222: one clearance attempt in the control slot under way. -/
def State.clear (s : State) (q : Ask) : Verdict :=
  let a := q.airspace
  match (s.asp a).placement with
  | none => .refused .notPermitted
  | some p =>
  let x := s.plc p
  match x.image with
  | none => .refused .notPermitted
  | some img =>
  let t := q.prompt.length
  if !x.live then .refused .notPermitted
  else if x.suspended.isSome then .refused .noResource
  else if t = 0 || 131072 < t || !q.prompt.all (· < img.vocab) || !q.sampling.all (samplingOk · img.vocab)
      || (q.dest ≤ 15 && !(s.asp a).dests.has q.dest) || (15 < q.dest && q.dest < 0xFFFE) || (q.dest = 0xFFFE && q.session.isNone)
    then .refused .badParameter
  else match chooseClass img.classMask t q.limit q.cls with
  | none => .refused .badParameter
  | some (cls, m) =>
  let held := x.adapterFor a q.adapterId
  if q.adapterId ≠ 0xFF && held.isNone then .refused .noResource
  else
  let adapter := if q.adapterId = 0xFF then none else held.map fun v => (q.adapterId, v.version)
  match s.checkPrefix q cls adapter with
  | .error e => .refused e
  | .ok (_, baseTok, basePages) =>
  let old := q.session.map s.sess
  -- R203: a held copy of unchanged class is copied back; its regions stand once the copy-back has ended
  let copied := old.any fun d => d.st == .paused && d.cls = cls && !d.regions.isEmpty && !d.copyBack && d.pauseRec.isNone && !d.failedPause
  let keep := old.any fun d => d.kvHeld && d.cls = cls
  let grows := old.any fun d => d.cls < cls
  match (match q.session with | some n => some n | none => s.freeDesc) with
  | none => .waits s
  | some n =>
  -- a pause copy under way ends first; a carving about to change is changed first (log entry 55)
  if (old.any fun d => d.failedPause || (d.pauseRec.any (·.copying))) || s.carvePending then .waits s else
  let nFull := baseTok / 256
  if keep && !copied then
    -- R203: take the region and the page slots, and begin the copy-back
    if (s.sess n).copyBack then .waits s
    else
    let links := ((s.sess n).pauseRec.map (·.links)).getD []
    let copies := ((s.sess n).pauseRec.map (·.copied)).getD []
    let linked := (List.range (links.length + copies.length)).filter fun u => !copies.contains u
    match s.regionClass p a cls linked with
    | none => .waits s
    | some c' =>
      match s.takePages a copies with
      | none => .refused .noResource
      | some (ids, s) =>
        let pages := weave copies links ids
        let s := s.updAsp a fun x => x.hold pages
        let s := s.updSess n fun d => { d with pages := pages, copyBack := true }
        .waits (s.takeRegions n c' linked)
  else
  let region := if copied then some cls else s.regionClass p a cls (List.range nFull)
  match region with
  | none => if grows then .refused .noResource else .waits s
  | some c' =>
  if x.drain.isSome || (List.range 4).any (fun q => (s.plc q).drain.any fun d => d.heldPeriod.isSome) then .waits s
  else
  let w := if copied then 0 else s.cowWords p baseTok
  let b := s.tick.count + 1
  let s0 := if w > 0 then b - 1 + ceilDiv w 64 else b
  let start := if copied then ((s.sess n).kvFill) else baseTok
  let tp := t - start
  match s.findLane p a n tp m s0 with
  | none => .waits s
  | some lane =>
  match (if q.dest = 0xFFFF then s.takeDest q.client
         else some (if q.dest = 0xFFFE then (old.map (·.dest)).getD 0 else q.dest, s)) with
  | none => .refused .noResource
  | some (dest, s) =>
    let rebuild := q.session.isSome && !copied
    -- a copy that is not brought back is freed with its record (R204, R233)
    let s := if rebuild then s.dropPause n else s
    let s := s.updSess n fun d => { d with airspace := a, placement := p, cls := cls, dest := dest, registering := none, prefixRefused := false
                                           pages := if copied then d.pages else basePages.take nFull
                                           cowPage := if w > 0 then basePages[nFull]? else none }
    let s := if copied then s else s.updAsp a fun x => x.hold (basePages.take nFull ++ (if w > 0 then basePages[nFull]?.toList else []))
    let s := if !q.register then s else
      match s.register n q baseTok basePages adapter with
      | some s => s
      | none => s.updSess n fun d => { d with prefixRefused := true }
    let paused := old.any fun d => d.st == .paused
    let (s, ack) := s.grant q n p cls m w start adapter lane rebuild
    let s := s.updSess n fun d => { d with rebuiltMark := rebuild && paused }
    .cleared (if copied then s.writeMaps n else s.takeRegions n c' (List.range nFull)) ack

/-! ### Requests (R233, R249) -/

/-- The clearance a request asks for; an error is its refusal. -/
def State.askOf (s : State) (r : Request) : Except Status Ask :=
  let a := r.client.airspace
  match r.kind, r.part0 with
  | 0, some q =>
    .ok { airspace := a, session := none, prompt := r.tokens, limit := q.maxTokens, cls := q.cls, dest := q.dest
          sampling := some (q.sampling.getD (s.asp a).defaults), prefixHandle := q.prefixHandle, register := q.register
          registerLen := q.registerLen, adapterId := q.adapterId, client := r.client }
  | 1, some q =>
    match s.namedBy a r.client.handle with
    | none => .error .badParameter
    | some n =>
      let d := s.sess n
      if d.st == .paused || (d.st == .ended && 1 ≤ d.endReason && d.endReason ≤ 3 && !d.endPending) then
        if q.prefixHandle ≠ 0 || q.register || q.registerLen ≠ 0 || q.adapterId ≠ 0xFF then .error .badParameter
        else .ok { airspace := a, session := some n, prompt := d.history ++ r.tokens, limit := q.maxTokens, cls := q.cls, dest := q.dest
                   sampling := match q.sampling with | some x => some x | none => d.sampling
                   prefixHandle := 0, register := false, registerLen := 0, adapterId := d.adapterId.getD 0xFF, client := r.client }
      else .error .notPermitted
  | _, _ =>
    match s.namedBy a r.client.handle with
    | none => .error .badParameter
    | some n =>
      let d := s.sess n
      if d.st == .paused then
        .ok { airspace := a, session := some n, prompt := d.history, limit := if d.limitAsked = 0 then 0 else d.maxTokens - d.delivered
              cls := 0xFF, dest := 0xFFFE, sampling := d.sampling, prefixHandle := 0, register := false, registerLen := 0
              adapterId := d.adapterId.getD 0xFF, client := r.client }
      else .error .notPermitted

/-- An acknowledgement is put up for release at the next boundary (R250). -/
def State.ackLater (s : State) (m : AckMsg) : State := { s with acks := s.acks ++ [m] }

/-- A refusal: counted and acknowledged (R240, R252). -/
def State.refuse (s : State) (c : Client) (st : Status) : State :=
  (s.bump (Reg.Ses.REFUSED c.airspace)).ackLater { client := c, status := st, handle := c.handle }

/-- A carried session that cannot be cleared again ends FAULT; one that waits goes on waiting (R443). -/
def State.refuseRequest (s : State) (r : Request) (st : Status) : State :=
  if r.carried then
    match s.namedBy r.client.airspace r.client.handle with
    | some n => s.endSession n 5
    | none => s
  else s.refuse r.client st

/-- Try a request in a control slot; true: it no longer waits. -/
def State.tryRequest (s : State) (r : Request) : Bool × State :=
  match s.askOf r with
  | .error st => (true, s.refuseRequest r st)
  | .ok q =>
    match s.clear q with
    | .refused st => (true, s.refuseRequest r st)
    | .waits s => (false, s)
    | .cleared s ack =>
      let s := if r.carried then
          match s.named ack.handle with
          | some n => (s.bump (Reg.Ses.STRETCH_EXCEEDED (s.sess n).airspace)).updSess n fun d => { d with stretchExceeded := true, rebuiltMark := true, carried := false }
          | none => s
        else s
      (true, s.ackLater { ack with client := r.client, rebuild := ack.rebuild || r.carried })

/-- A clearance request is processed for the first time (R221): cleared, refused, or put on the wait list. A request does not pass an earlier
waiting request of its airspace; one that may not wait leaves nothing begun. -/
def State.firstTry (s : State) (r : Request) : State :=
  let a := r.client.airspace
  let x := s.asp a
  let (done, t) := match s.askOf r with
    | .error _ => s.tryRequest r
    | .ok _ => if x.waiting.isEmpty then s.tryRequest r else (false, s)
  if done then t
  else if x.waiting.length ≥ x.waitMax then s.refuse r.client .noResource
  else if x.waitLimit = 0 then s.refuse r.client .timeout
  else
    let s := t.updAsp a fun x => { x with waiting := x.waiting ++ [{ r with pendingSent := true }] }
    s.ackLater { client := r.client, status := .pending, handle := r.client.handle }

/-- Insert a request in order of receipt tick, then airspace, then sequence (R221). -/
def insertReq (r : Request) : List Request → List Request
  | [] => [r]
  | q :: qs =>
    if r.receipt < q.receipt || (r.receipt = q.receipt && (r.client.airspace < q.client.airspace
        || (r.client.airspace = q.client.airspace && r.id < q.id))) then r :: q :: qs
    else q :: insertReq r qs

/-- All waiting requests in retry order. -/
def State.retryOrder (s : State) : List Request :=
  ((List.range 8).flatMap fun a => (s.asp a).waiting).foldl (fun l r => insertReq r l) []

/-- Retry one waiting request unless an earlier one of its airspace still waits. -/
def State.retryOne (acc : State × List Nat) (r : Request) : State × List Nat :=
  let a := r.client.airspace
  let (s, stuck) := acc
  if stuck.contains a then acc
  else
    let (done, s) := s.tryRequest r
    if done then (s.updAsp a fun x => { x with waiting := x.waiting.filter fun w => w.id ≠ r.id }, stuck)
    else (s, if r.carried then stuck else stuck ++ [a])

/-- The wait-list retries of a control slot, carried sessions first (R221, R443). -/
def State.retries (s : State) : State :=
  let l := s.retryOrder
  ((l.filter (·.carried) ++ l.filter (!·.carried)).foldl State.retryOne (s, [])).1

/-- A waiting resume is over without a clearance: a copy-back begun for it gives its region back; a complete one leaves the session without KV. -/
def State.dropResume (s : State) (r : Request) : State :=
  match s.namedBy r.client.airspace r.client.handle with
  | some n => if (s.sess n).st == .paused && !(s.sess n).regions.isEmpty && !((s.sess n).pauseRec.any (·.copying)) then s.abandonBack n else s
  | none => s

/-! ### The wait limit (R221) -/

/-- A waiting request reaches the wait limit: refused with TIMEOUT. Carried sessions are exempt (R443), and one whose copy-back runs
has its region (R202, log entry 48). -/
def opWaitLimit (a id : Nat) (s : State) : State :=
  match (s.asp a).waiting.find? fun r => r.id = id with
  | none => s
  | some r =>
    let copying := match s.namedBy a r.client.handle with | some n => (s.sess n).copyBack | none => false
    if r.carried || copying then s
    else
      let s := s.updAsp a fun x => { x with waiting := x.waiting.filter fun w => w.id ≠ id }
      s.refuse r.client .timeout

def execWaitLimitTimeout (airspace request : Nat) (s : State) : Result := .next (opWaitLimit airspace request s)

end Sys2Proof.Machine
end

