-- ==== Sys2Proof/Machine/Streams.lean ====
section
/-! DEFINITION. The Tvedone stream protocol (R242-R258, R261): frames, assembly of requests, cancels and pauses at their latch
boundary (R230, R231), retransmission, history, and the egress of datagrams. -/

namespace Sys2Proof.Machine

/-! ### Egress (R253, R261) -/

/-- An acknowledgement leaves for its request's source, by its ingress port (R252, R253). -/
def State.sendAck (s : State) (m : AckMsg) (tick : Nat) : State :=
  s.sendDatagram m.client.airspace m.client.eth 88 (isV4 m.client.addr) (.ack m tick)

/-- Records a step-batch part holds, and tokens a HISTORY message holds (R254, R258). -/
def State.partRoom (s : State) (port unit : Nat) (v4 : Bool) : Nat :=
  max 1 (((s.ethPort port).mtu - (if v4 then 28 else 48) - 40) / unit)

/-- Cut a list into pieces of n. -/
def pieces {α : Type} (n : Nat) : Nat → List α → List (List α)
  | 0, _ => []
  | k + 1, l => if l.isEmpty then [] else l.take n :: pieces n k (l.drop n)

/-- A step batch leaves in its parts (R254). -/
def State.sendBatch (s : State) (a : Nat) (b : Batch) (again : Bool) : State :=
  match (s.asp a).dests.find b.dest with
  | none => s
  | some e =>
    let room := s.partRoom e.eth 16 (isV4 e.addr)
    let parts := pieces room (b.records.length + 1) b.records
    (List.range parts.length).foldl (fun s i =>
      let rs := parts.getD i []
      s.sendDatagram a e.eth (32 + 16 * rs.length) (isV4 e.addr) (.stepBatch a { b with records := rs, part := i, parts := parts.length } again)) s

/-! ### Remembered answers (R251) -/

def Remembered.is (r : Remembered) (c : Client) : Bool := r.addr == c.addr && r.port == c.port && r.seq == c.seq

/-- Ten seconds of wall time. -/
def tenSeconds : Nat := 10000000000 * 480

/-- The remembered answer to a client's key, while it is kept. -/
def State.remembered (s : State) (c : Client) : Option Remembered :=
  ((s.asp c.airspace).answers.find? (Remembered.is · c)).filter fun r => decide (s.tick.wall480 ≤ r.at_ + tenSeconds)

/-- Note that a request was received; its answer follows. The last 4,096 are kept (R251). -/
def State.remember (s : State) (c : Client) : State :=
  s.updAsp c.airspace fun x =>
    let kept := x.answers.filter fun (r : Remembered) => !(r.is c)
    { x with answers := (kept ++ [({ addr := c.addr, port := c.port, seq := c.seq, answer := none, at_ := s.tick.wall480 } : Remembered)]).drop (kept.length - 4095) }

/-- The latest acknowledgement of a request is remembered as it is released. -/
def State.noteAnswer (s : State) (m : AckMsg) : State :=
  s.updAsp m.client.airspace fun x => { x with
    answers := x.answers.map fun r => if r.is m.client then { r with answer := some m, at_ := s.tick.wall480 } else r }

/-- A message with a remembered key: its latest answer again, or nothing where none is released yet. -/
def State.duplicate (s : State) (c : Client) (r : Remembered) : State :=
  match r.answer with
  | some m => (s.bump (Reg.Eth.DUPLICATES c.airspace)).sendAck m s.tick.count
  | none => s

/-! ### Receive queue (R250) -/

/-- Boundaries and control slots are not served now. -/
def State.queueing (s : State) : Bool := !s.zenithServing || !s.tick.running

/-- A request is received in the running tick; with no service the queue of 1,024 bounds it. -/
def State.receiveReq (s : State) (r : Request) : State :=
  let a := r.client.airspace
  if s.queueing && (s.asp a).received.length ≥ 1024 then s.bump (Reg.Eth.QUEUE_DROP a)
  else
    let s := s.remember r.client
    let r := { r with id := s.nextRequest, receipt := s.tick.count }
    { s with nextRequest := s.nextRequest + 1 }.updAsp a fun x => { x with received := x.received ++ [r] }

/-- Answer a message that has a field outside its range (R245). -/
def State.badField (s : State) (c : Client) : State :=
  (s.remember c).ackLater { client := c, status := .badParameter, handle := c.handle }

/-! ### OPEN and CONTINUE (R247-R249) -/

/-- Range checks of one part. -/
def partOk (p : OpenPart) (isContinue : Bool) : Bool :=
  p.reserved == 0 && decide (1 ≤ p.parts) && decide (p.parts ≤ 1024) && decide (p.tokens.length < 65536)
    && p.tokens.all (· < 2 ^ 18)
    && (p.part ≠ 0
        || ((if isContinue then decide (p.promptLen ≤ 131071) else decide (1 ≤ p.promptLen) && decide (p.promptLen ≤ 131072))
            && (p.cls ≤ 3 || p.cls == 0xFF) && (p.adapterId ≤ 63 || p.adapterId == 0xFF)
            && (p.register || p.registerLen == 0) && decide (p.registerLen ≤ 131071)
            && (!isContinue || (p.prefixHandle == 0 && p.registerLen == 0 && !p.register && p.adapterId == 0xFF))))

/-- Tokens of the parts placed by their first index, if they cover 0 .. T−1 exactly once. -/
def coverTokens : Nat → Nat → List OpenPart → List Nat → Option (List Nat)
  | 0, _, _, _ => none
  | fuel + 1, t, parts, acc =>
    let parts := parts.filter fun p => !p.tokens.isEmpty
    match parts.find? fun p => p.tokenFirst = acc.length with
    | none => if acc.length = t && parts.isEmpty then some acc else none
    | some p => coverTokens fuel t (parts.filter (· ≠ p)) (acc ++ p.tokens)

def OpenAssembly.is (x : OpenAssembly) (c : Client) : Bool := x.client.addr == c.addr && x.client.port == c.port && x.client.seq == c.seq

def State.dropAssembly (s : State) (c : Client) : State :=
  s.updAsp c.airspace fun x => { x with assemblies := x.assemblies.filter fun y => !(y.is c) }

/-- A part of an OPEN or CONTINUE is received (R248). -/
def State.openPart (s : State) (c : Client) (isContinue : Bool) (p : OpenPart) : State :=
  let a := c.airspace
  match s.remembered c with
  | some r => s.duplicate c r
  | none =>
    let x := s.asp a
    let old := x.assemblies.find? fun y => y.is c
    if !partOk p isContinue then (s.dropAssembly c).badField c
    else
      let parts := (old.map (·.parts)).getD []
      if p.parts ≤ p.part || parts.any (fun q => q.parts ≠ p.parts) then (s.dropAssembly c).badField c
      else if old.isNone && 1 < p.parts && 64 ≤ x.assemblies.length then
        (s.remember c).ackLater { client := c, status := .busy, handle := c.handle }
      else
        let parts := if parts.any (fun q => q.part = p.part) then parts else parts ++ [p]
        if parts.length < p.parts then
          s.updAsp a fun x => { x with assemblies := (x.assemblies.filter fun y => !(y.is c)) ++ [⟨c, isContinue, parts⟩] }
        else
          let s := s.dropAssembly c
          match parts.find? (·.part = 0) with
          | none => s.badField c
          | some z =>
            match coverTokens (parts.length + 1) z.promptLen parts [] with
            | none => s.badField c
            | some ts => s.receiveReq { id := 0, kind := if isContinue then 1 else 0, receipt := 0, client := c, part0 := some { z with tokens := [] }, tokens := ts }

def execOpenMsg (c : Client) (p : OpenPart) (s : State) : Result := .next (s.openPart { c with handle := 0 } false p)

def execContinueMsg (c : Client) (p : OpenPart) (s : State) : Result := .next (s.openPart c true p)

/-- 100 ms after the first part: the request is discarded and answered TIMEOUT, counted under QUEUE_DROP (R248, R262). -/
def opAssemblyTimeout (a addr port seq : Nat) (s : State) : State :=
  match (s.asp a).assemblies.find? fun y => y.client.addr = addr && y.client.port = port && y.client.seq = seq with
  | none => s
  | some y =>
    let s := (s.dropAssembly y.client).bump (Reg.Eth.QUEUE_DROP a)
    (s.remember y.client).ackLater { client := y.client, status := .timeout, handle := y.client.handle }

def execOpenAssemblyTimeout (airspace addr port seq : Nat) (s : State) : Result := .next (opAssemblyTimeout airspace addr port seq s)

/-- A request of one part: remembered keys first (R251). -/
def State.simpleRequest (s : State) (c : Client) (r : Request) : State :=
  match s.remembered c with
  | some m => s.duplicate c m
  | none => s.receiveReq r

/-- CANCEL of a session, or of the request that the same source sent with a SEQ (R249). -/
def State.opCancel (s : State) (c : Client) (targetSeq : Nat) : State :=
  s.simpleRequest c { id := 0, kind := 3, receipt := 0, client := c, part0 := none, tokens := [], targetSeq := targetSeq }

def execCancel (c : Client) (targetSeq : Nat) (s : State) : Result := .next (s.opCancel c targetSeq)

/-- PAUSE: a time to live outside 0-86,400 is refused (R249). -/
def State.opPause (s : State) (c : Client) (ttl : Nat) : State :=
  if 86400 < ttl then match s.remembered c with | some m => s.duplicate c m | none => s.badField c
    else s.simpleRequest c { id := 0, kind := 4, receipt := 0, client := c, part0 := none, tokens := [], ttl := ttl }

def execPause (c : Client) (ttl : Nat) (s : State) : Result := .next (s.opPause c ttl)

/-- RESUME (R249). -/
def State.opResume (s : State) (c : Client) : State :=
  s.simpleRequest c { id := 0, kind := 2, receipt := 0, client := c, part0 := none, tokens := [] }

def execResume (c : Client) (s : State) : Result := .next (s.opResume c)

/-! ### Latching cancels and pauses (R230, R231, R232) -/

/-- The session's lane has its round boundary at boundary k. -/
def State.atRound (s : State) (n k : Nat) : Bool :=
  let d := s.sess n
  match d.phase with
  | none => false
  | some ph => (s.plc d.placement).roundAt ph k == k

/-- The session holds its lane at boundary k: the lane's first round has begun. -/
def Desc.holdsLane (d : Desc) (k : Nat) : Bool := d.lane.isSome && decide (d.r0 ≤ k)

/-- A cancel latches at boundary k. -/
def State.latchCancel (s : State) (n k : Nat) : State :=
  let d := s.sess n
  match d.st with
  | .queued | .paused => s.endSession n 4
  | .prefill | .decode =>
    if !d.holdsLane k || s.atRound n k then s.endSession n 4
    else
      let s := s.pushEnd n 4
      let s := s.unbook n
      s.updSess n fun d => { d with st := .draining, cancelLatched := true, endReason := 4 }
  | .draining => s.updSess n fun d => { d with cancelLatched := true }
  | _ => s

/-- Whether a core of an airspace holds a page. -/
def AirspaceSt.pageIn (x : AirspaceSt) (c id : Nat) : Bool := x.carvings.any fun cv => cv.core == c && (cv.pageBase id).isSome

/-- Private blocks of a core that hold positions below pos: the map's entries behind those of the session's pages (R190, R202). -/
def State.privateBlocks (s : State) (d : Desc) (c pos : Nat) : Nat :=
  let (split, share) := s.kvShare c
  let lead := 4 * (d.pages.filter ((s.asp d.airspace).pageIn c)).length
  ((List.range (mapEntries d.cls split)).filter fun e => decide (lead ≤ e) && decide (256 * (split * (e / 4) + share) + 64 * (e % 4) < pos)).length

/-- A DECODE session drained for a pause, or without a lane, becomes PAUSED: its region and holds stay for the copy (R202). -/
def State.becomePaused (s : State) (n : Nat) : State :=
  let d := s.sess n
  if d.rebuilding || d.kvLost then (s.pauseBare n).pauseNoKv
  else
    let x := s.asp d.airspace
    let copied := (List.range d.pages.length).filter fun i => x.pageRefs.getD (d.pages.getD i 0) 0 = 1
    let full := d.pages.filter fun id => x.pageRefs.getD id 0 = 1
    let links := d.pages.filter fun id => x.pageRefs.getD id 0 ≠ 1
    -- words of each core's copy (R202)
    let words (c : Nat) : Nat := s.kvBlock c * s.privateBlocks d c d.pos + 4 * s.kvBlock c * (full.filter (x.pageIn c)).length
    let need := (d.regions.map fun r => ceilDiv (words r.1) 2048).foldl (· + ·) 0
    let s := s.unbook n
    let s := s.dropLane n
    let s := s.updSess n fun d => { d with st := .paused, drainPause := false, pauseLatched := false, latch := 0, kvFill := d.pos, sampled := none }
    match s.allocPages d.airspace need with
    | none => s.failPause n
    | some (pages, s) =>
      let bytes : Tbl Mem := d.regions.map fun r =>
        let (split, _) := s.kvShare r.1
        let mem := s.memOf r.1
        let cut (lo words base : Nat) : Mem :=
          (mem.filter fun e => decide (32 * lo ≤ e.1) && decide (e.1 < 32 * (lo + words))).map fun e => (base + e.1 - 32 * lo, e.2)
        let kvBase := r.2.1 + mapWords r.2.2.1 split
        let pages := (List.range full.length).flatMap fun j =>
          match (x.carvings.find? fun cv => cv.core = r.1).bind fun cv => cv.pageBase (full.getD j 0) with
          | none => []
          | some b => cut b (4 * s.kvBlock r.1) (2 ^ 32 * (j + 1))
        (r.1, cut kvBase (s.privateBlocks d r.1 d.pos * s.kvBlock r.1) 0 ++ pages)
      s.updSess n fun d => { d with pauseRec := some {
        pages := pages, kvFill := d.pos, prefixHandle := d.prefixHandle, links := links, copied := copied, copying := true, bytes := bytes } }

/-- The status of a pause asked of a session (R231). -/
def Desc.pauseStatus (d : Desc) : Status :=
  match d.st with
  | .queued | .prefill | .draining => .busy
  | .decode | .paused => .ok
  | .ended => .notPermitted
  | .free => .badParameter

/-- A pause latches at boundary k. -/
def State.latchPause (s : State) (n k ttl : Nat) : State :=
  let d := s.sess n
  if d.st ≠ .decode then s
  else
    let s := s.updSess n fun d => { d with pauseTtl := if ttl = 0 then (s.asp d.airspace).pauseTtl else ttl }
    -- the copies of a registration end before the pause proceeds (R205)
    if (d.holdsLane k && !s.atRound n k) || d.registering.isSome then s.updSess n fun d => { d with st := .draining, drainPause := true, pauseLatched := true }
    else s.becomePaused n

/-- The requests of kind CANCEL that name a session of an airspace. -/
def State.cancelAsked (s : State) (n : Nat) : Bool :=
  let d := s.sess n
  d.latch = 1 || ((s.asp d.airspace).received.any fun r => r.kind = 3 && r.client.handle = handleOf n d)

/-- Apply one CANCEL or PAUSE message at boundary k (R230, R249, R250). -/
def State.latchMessage (k : Nat) (s : State) (r : Request) : State :=
  let c := r.client
  let a := c.airspace
  let ack (s : State) (st : Status) : State := s.ackLater { client := c, status := st, handle := c.handle }
  if r.kind = 3 && c.handle = 0 then
    let mine (w : Request) : Bool := w.client.addr == c.addr && w.client.port == c.port && w.client.seq == r.targetSeq && w.kind ≤ 2
    match (s.asp a).waiting.find? mine with
    | none => ack s .notPermitted
    | some w =>
      let s := (s.updAsp a fun x => { x with waiting := x.waiting.filter fun y => y.id ≠ w.id }).dropResume w
      ack (s.ackLater { client := w.client, status := .superseded, handle := w.client.handle }) .ok
  else match s.namedBy a c.handle with
    | none => ack s .badParameter
    | some n =>
      if r.kind = 3 then
        -- a resume that waits is withdrawn with its session
        ack (s.latchCancel n k) .ok
      else
        let st := (s.sess n).pauseStatus
        ack (if st = .ok && !s.cancelAsked n then s.latchPause n k r.ttl else s) st

/-- Latch what was received: host cancels and pauses, then messages (R230, R250, R406). -/
def State.latchAll (s : State) (k : Nat) : State :=
  if !s.zenithServing then s else
  let s := s.forAll s.sessIds fun s n =>
    if (s.sess n).latch = 1 then s.latchCancel n k
    else if (s.sess n).latch = 2 then
      if s.cancelAsked n then s else s.latchPause n k (s.sess n).pauseTtl
    else s
  let s := s.forAll s.sessIds fun s n => s.updSess n fun d => { d with latch := 0 }
  s.forAll (List.range 8) fun s a =>
    let l := (s.asp a).received.filter fun r => 3 ≤ r.kind
    -- cancels first: a pause latched at the same boundary is discarded (R232)
    let s := (l.filter (·.kind = 4)).foldl (State.latchMessage k) s
    let s := (l.filter (·.kind = 3)).foldl (State.latchMessage k) s
    s.updAsp a fun x => { x with received := x.received.filter fun r => r.kind < 3 }

/-! ### RETRANSMIT (R257, R258) -/

/-- Whether BATCH_SEQ n lies in [from, to] of the wrapping order. -/
def inSeq (lo hi n : Nat) : Bool := decide (seqAfter lo n ≤ seqAfter lo hi)

def opRetransmit (c : Client) (dest mode lo hi : Nat) (s : State) : State :=
  let a := c.airspace
  let x := s.asp a
  let ans (s : State) (st : Status) : State := (s.remember c |>.sendAck { client := c, status := st, handle := c.handle } s.tick.count).noteAnswer
    { client := c, status := st, handle := c.handle }
  match s.remembered c with
  | some r => s.duplicate c r
  | none =>
    if mode = 0 then
      match x.dests.find dest with
      | none => ans s .badParameter
      | some e =>
        if lo = 0 || hi = 0 || 256 ≤ seqAfter lo hi then ans s .badParameter
        else if e.addr ≠ c.addr then ans s .notPermitted
        else
          let kept := x.batches.filter fun b => b.dest = dest && inSeq lo hi b.seq && decide (s.tick.count ≤ b.tick + 4096)
          let s := kept.foldl (fun s b => (s.bump (Reg.Eth.RETRANSMITS a)).sendBatch a b true) s
          ans s (if kept.length = seqAfter lo hi + 1 then .ok else .noResource)
    else if mode = 1 then
      if s.start.power ≠ .active && s.start.power ≠ .lull then s
      else match s.namedBy a c.handle with
        | none => ans s .badParameter
        | some n =>
          let d := s.sess n
          if hi < lo || d.history.length ≤ hi || 65536 ≤ hi - lo then ans s .badParameter
          else
            let room := s.partRoom c.eth 3 (isV4 c.addr)
            let toks := (d.history.drop lo).take (hi - lo + 1)
            let s := ((pieces room (toks.length + 1) toks).foldl (fun (acc : State × Nat) ts =>
              (acc.1.sendDatagram a c.eth (32 + 3 * ts.length) (isV4 c.addr) (.history c c.handle acc.2 ts), acc.2 + ts.length)) (s, lo)).1
            ans s .ok
    else ans s .badParameter

def execRetransmit (c : Client) (dest mode fromSeq toSeq : Nat) (s : State) : Result := .next (opRetransmit c dest mode fromSeq toSeq s)

/-! ### Addresses (R243) -/

/-- The link-local address of airspace a on port n: fe80::/64 with the EUI-64 of the port's MAC address (R243). -/
def linkLocal (n a : Nat) : Nat :=
  let mac := Config.macBase + 8 * n + a
  0xFE80 * 2 ^ 112 + (mac / 2 ^ 24 ^^^ 0x020000) * 2 ^ 40 + 0xFFFE * 2 ^ 24 + mac % 2 ^ 24

/-- An address of the airspace, as a datagram that comes in by port n finds it: a global one, the IPv4 one, the leased one or, where there
is one of these, the port's link-local one (R243). -/
def State.owns (s : State) (n a addr : Nat) : Bool :=
  let x := s.asp a
  (x.addresses.any fun e => e.2.1 = addr) || x.ipv4 == some addr || x.lease == some addr
    || ((!x.addresses.isEmpty || x.ipv4.isSome || x.lease.isSome) && linkLocal n a == addr)

/-- The airspace that an address and UDP port belong to at port n (R243). -/
def State.airspaceAt (s : State) (n addr udp : Nat) : Option Nat :=
  (List.range 8).find? fun a => (s.asp a).udpPort = udp && s.owns n a addr

/-- An address inside a prefix of 128-bit form (R243). -/
def inPrefix (addr : Nat) (p : Nat × Nat) : Bool := addr / 2 ^ (128 - p.2) == p.1 / 2 ^ (128 - p.2)

/-! ### Ports and leases -/

/-- An Ethernet port loses FEC lock (R253, R368). -/
def opEthDown (n : Nat) (s : State) : State :=
  if !(s.ethPort n).linkUp then s
  else
    let s := s.updEth n fun x => { x with linkUp := false, fecLock := false }
    let s := (s.put (Reg.Eth.LINK_UP n) 0).put (Reg.Eth.FEC_LOCK n) 0
    s.event { code := 0x070B, detail := [(40, n)] }

def execEthLinkDown (port : Nat) (s : State) : Result := .next (opEthDown port s)

def execEthLinkUp (port : Nat) (s : State) : Result :=
  .next (((s.updEth port fun x => { x with linkUp := true, fecLock := true }).put (Reg.Eth.LINK_UP port) 1).put (Reg.Eth.FEC_LOCK port) 1)

/-- The lease ends without renewal: its address is removed; sessions and destination entries stay (R243). -/
def execDhcpv6LeaseEnd (airspace : Nat) (s : State) : Result := .next (s.updAsp airspace fun x => { x with lease := none })

end Sys2Proof.Machine
end

