-- ==== Sys2Proof/Machine/Recovery.lean ====
section
/-! DEFINITION. Recovery (R22, R23, R77-R82, R164-R167, R297-R299, R366-R376): twins, field losses and moves, core absorption, suspension,
stack losses, detours and the health state. -/

namespace Sys2Proof.Machine

/-! ### Twins (R164, R165) -/

/-- Number of a field's standby bank (R143). A field in no placement has two standby banks and STANDBY one state: the model's is that of
bank 1 (DESIGN CHOICE, log entry 125). -/
def State.standbyNo (s : State) (f : Nat) : Nat :=
  match (s.field f).placement with
  | none => 1
  | some p => 1 - (s.plc p).liveBank
def State.standby (s : State) (f : Nat) : Bank := (s.field f).bank (s.standbyNo f)
def State.updBank (s : State) (f i : Nat) (g : Bank → Bank) : State := s.updField f fun x => x.setBank i (g (x.bank i))
def State.updStandby (s : State) (f : Nat) (g : Bank → Bank) : State := s.updBank f (s.standbyNo f) g

/-- The wear limit: the bank is CLOSED from its 100,000th program cycle on, whatever it holds (R144). -/
def Bank.worn (b : Bank) : Bool := decide (100000 ≤ b.cycles)

/-- The bank's state of R161. -/
def Bank.state (b : Bank) : BankState := if b.worn then .closed else b.st

/-- Writing a bank's image region begins: its program count rises; wear is reported at 90,000 (R144). The write that brings the count to
100,000 goes on (DEDUCED, log entry 140): what would write a bank that is CLOSED is refused. -/
def State.beginWrite (s : State) (f i : Nat) : State :=
  let s := s.updBank f i fun b => { b with cycles := b.cycles + 1 }
  let n := ((s.field f).bank i).cycles
  let s := s.put (if i = 0 then Reg.Stratum.BANK0_CYCLES f else Reg.Stratum.BANK1_CYCLES f) n
  if n = 90000 then
      s.event { code := 0x0304, field := f, placement := placementByte (s.field f).placement
                detail := [(40, i), (44, n % 256), (45, n / 256 % 256), (46, n / 65536 % 256), (47, n / 16777216 % 256)] }
  else s

/-- f's mirror is complete and its holder in service. -/
def State.twinComplete (s : State) (f : Nat) : Option Nat :=
  ((s.field f).twinHolder).filter fun h =>
    (s.standby h).st == .twin && (s.field h).role == .active && !(s.field h).lossPending

/-- h may hold f's twin (R164). -/
def State.mayHold (s : State) (p f h : Nat) : Bool :=
  h != f && decide (3 ≤ dist f h) && (s.fieldsOf p).contains h && (s.field h).twinOf.isNone
    && match (s.standby h).state with
      | .staged | .installing | .previous | .incomplete | .closed => false
      | _ => true

/-- Twin protection is suspended while the placement holds an image in its standby banks, live or not (R165). -/
def PlacementSt.twinSuspended (x : PlacementSt) : Bool :=
  x.imageState == .installing || x.imageState == .staged || x.imageState == .previous || x.imageState == .incomplete

/-- Begin the mirror of f in h. -/
def State.startMirror (s : State) (f h : Nat) : State :=
  let s := s.updField f fun x => { x with twinHolder := some h }
  let s := s.updField h fun x => { x with twinOf := some f }
  (s.beginWrite h (s.standbyNo h)).updStandby h fun b => { b with st := .twinBuilding, mem := [], err := [], leaves := [] }

/-- The mirror that f's standby bank holds is given up. -/
def State.dropMirror (s : State) (f : Nat) : State :=
  s.updStandby f fun b => if b.st == .twin || b.st == .twinBuilding then { b with st := .empty, mem := [], err := [], leaves := [] } else b

/-- R164: keep pairs still at distance 3 or more, apply the image's pairs, then the nearest eligible holder; TWIN_NONE where none is left. -/
def State.buildTwins (s : State) (p : Nat) : State :=
  let x := s.plc p
  if !s.twinProtection || x.twinSuspended || !x.live then s else
  let fs := s.fieldsOf p
  let s := s.forAll fs fun s f =>
    match (s.field f).twinHolder with
    | some h => if fs.contains h && 3 ≤ dist f h then s else s.updField f fun y => { y with twinHolder := none }
    | none => s
  let s := s.forAll fs fun s h =>
    match (s.field h).twinOf with
    | some f => if fs.contains f && (s.field f).twinHolder == some h then s
      else (s.updField h fun y => { y with twinOf := none }).dropMirror h
    | none => s
  let named : List (Nat × Nat) := match x.image with
    | some i => i.fields.filterMap fun (r : FieldRec) => if r.twin = 0xFF then none else some (r.field, r.twin)
    | none => []
  let s := named.foldl (fun s e =>
    if fs.contains e.1 && (s.field e.1).twinHolder.isNone && s.mayHold p e.1 e.2 then s.startMirror e.1 e.2 else s) s
  s.forAll fs fun s f =>
    if (s.field f).twinHolder.isSome then s else
    match (fs.filter (s.mayHold p f)).foldl (fun (b : Option Nat) h => match b with
        | none => some h
        | some y => if dist f h < dist f y then some h else some y) none with
    | some h => s.startMirror f h
    | none => s.event { code := 0x0305, placement := p, field := f }

/-- Mirrors of a placement are dropped (R159 step 4, R165). -/
def State.dropMirrors (s : State) (p : Nat) : State :=
  s.forAll (s.fieldsOf p) fun s f =>
    (s.dropMirror f).updField f fun x => { x with twinOf := none, twinHolder := none }

/-- MIRROR_COPY_COMPLETE: the holder's mirror is copied and every leaf recomputed; a failed check leaves it TWIN_BUILDING (R165). -/
def opMirrorDone (h : Nat) (ok : Bool) (s : State) : State :=
  match (s.field h).twinOf with
  | none => s
  | some f =>
    if (s.standby h).st ≠ .twinBuilding || !ok then s
    else
      let src := s.liveBankOf f
      s.updStandby h fun b => { b with st := .twin, mem := src.mem.filter fun e => decide (e.1 < 6408896512), err := src.err, leaves := src.leaves }

def execMirrorCopyComplete (field : Nat) (verified : Bool) (s : State) : Result := .next (opMirrorDone field verified s)

def BankState.code : BankState → Nat
  | .empty => 0 | .installing => 1 | .staged => 2 | .previous => 3 | .twinBuilding => 4 | .twin => 5 | .incomplete => 6 | .closed => 7

/-- Placement and stratum gauges of R173 and R174. -/
def State.gaugeWeights (s : State) : State :=
  let s := s.forAll (List.range 4) fun s p =>
    let none_ := (s.plc p).live && (s.fieldsOf p).any fun f => (s.twinComplete f).isNone
    let s := s.updPlc p fun x => { x with twinNone := none_ }
    let x := s.plc p
    let id (i : Option Image) : Nat := match i with | some i => i.imageId | none => 0
    let s := s.put (Reg.Plc.IMAGE_STATE p) x.imageState.code
    let s := s.put (Reg.Plc.FIELDS p) (s.fieldsOf p).length
    let s := s.put (Reg.Plc.LIVE_BANK p) x.liveBank
    let s := s.put (Reg.Plc.TWIN_SUSPENDED p) (if x.twinSuspended then 1 else 0)
    let s := s.put (Reg.Plc.TWIN_NONE p) (if none_ then 1 else 0)
    let s := s.put (Reg.Plc.LIVE p) (if x.live then 1 else 0)
    let s := (s.put (Reg.Plc.LIVE_ID_LO p) (if x.live then id x.image % 2 ^ 32 else 0)).put (Reg.Plc.LIVE_ID_HI p) (if x.live then id x.image / 2 ^ 32 else 0)
    (s.put (Reg.Plc.STAGED_ID_LO p) (id x.staged % 2 ^ 32)).put (Reg.Plc.STAGED_ID_HI p) (id x.staged / 2 ^ 32)
  s.forAll computeFields fun s f =>
    if !s.fields.has f then s else
    let x := s.field f
    let s := s.put (Reg.Stratum.TWIN_OF f) (x.twinOf.getD 0xFF)
    let s := s.put (Reg.Stratum.TWIN_HOLDER f) (x.twinHolder.getD 0xFF)
    let s := s.put (Reg.Stratum.STANDBY f) (s.standby f).state.code
    s.put (Reg.Stratum.LIVE_BANK f) (1 - s.standbyNo f)

def Role.code : Role → Nat
  | .unassigned => 0 | .active => 1 | .clearing => 2 | .service => 3 | .lost => 4 | .rebuild => 5

/-- Field gauges of R382-R384: role, placement, lost cause, patches, failed cores. -/
def State.gaugeFields (s : State) : State :=
  s.forAll allFields fun s f =>
    if !s.fields.has f then s else
    let x := s.field f
    let s := s.put (Reg.FGen.ROLE f) x.role.code
    let s := s.put (Reg.FGen.PLACEMENT f) (placementByte x.placement)
    let s := s.put (Reg.FGen.LOST_CAUSE f) (x.lostCause.getD 0xF)
    let s := s.put (Reg.FGen.PATCH_USED f) x.patches.length
    let s := s.put (Reg.FGen.PATCH_VALID f) (2 ^ x.patches.length - 1)
    s.put (Reg.FGen.CORES_FAILED f) (x.failed.foldl (fun v n => v + 2 ^ n) 0)

/-! ### Suspension (R371) -/

/-- A placement is to be suspended: at the next boundary. -/
def State.suspend (s : State) (p reason : Nat) : State :=
  if (s.plc p).suspended.isSome || (s.plc p).suspendDue.isSome then s else s.updPlc p fun x => { x with suspendDue := some reason }

/-- A suspension takes effect: the placement's sessions pause or end; clearances on it are refused from now on. -/
def State.takeSuspension (s : State) (p : Nat) : State :=
  match (s.plc p).suspendDue with
  | none => s
  | some reason =>
  let s := s.updPlc p fun x => { x with suspended := some reason, suspendDue := none }
  let s := s.forAll (s.sessIds.filter fun n => (s.sess n).placement = p) fun s n =>
    let d := s.sess n
    match d.st with
    | .prefill | .decode => s.pauseBare n
    | .queued => s.endSession n 5
    | .draining => if d.drainPause && !d.cancelLatched then s.pauseBare n else s.endSession n 4
    | _ => s
  s.event { code := 0x0403, placement := p, detail := [(40, reason)] }

/-! ### Losses of KV (R195, R237, R366) -/

/-- Everything airspaces held in some cores is lost: prefixes with pages there are dropped, sessions with KV there rebuild. -/
def State.loseCores (s : State) (cores : List Nat) (f : Nat) : State :=
  let s := s.forAll (List.range 8) fun s a =>
    let x := s.asp a
    let lost := (x.carvings.filter fun cv => cores.contains cv.core).flatMap fun cv => cv.pageSlots.filterMap Prod.snd
    s.forAll ((x.prefixes.filter fun e => e.2.st != .free && e.2.pages.any lost.contains).map Prod.fst) fun s e => s.dropPrefix a e (some f)
  let s := s.forAll (s.sessionsIn cores) State.loseKv
  -- a tuning job fails with its slot or work area; the loss of a sequence's KV repeats the step (R275)
  s.forAll (List.range 4) fun s p =>
    let j := (s.plc p).tune
    let kv := (s.asp j.airspace).carvings.any fun cv => cores.contains cv.core && cv.slots.any fun e => e.2.2 == some (4096 + p)
    let hit := if j.areas.any fun q => cores.contains q.1 then 2 else if kv && j.st == .running then 1 else 0
    if hit ≤ j.hit then s else s.updPlc p fun x => { x with tune := { x.tune with hit := hit } }

/-- How many sessions must be rebuilt for a loss of cores. -/
def State.toRebuild (s : State) (cores : List Nat) : Nat :=
  ((s.sessionsIn cores).filter fun n => (s.sess n).st == .prefill || (s.sess n).st == .decode).length

def le2 (o v : Nat) : List (Nat × Nat) := [(o, v % 256), (o + 1, v / 256 % 256)]
def le4 (o v : Nat) : List (Nat × Nat) := [(o, v % 256), (o + 1, v / 256 % 256), (o + 2, v / 65536 % 256), (o + 3, v / 16777216 % 256)]
def le8 (o v : Nat) : List (Nat × Nat) := le4 o (v % 2 ^ 32) ++ le4 (o + 4) (v / 2 ^ 32)

/-! ### Field losses and moves (R22, R23, R166, R167, R370) -/

/-- A field is found lost: it stops; the Zenith acts in the control slot of the next tick (R370). -/
def State.loseField (s : State) (f cause : Nat) : State :=
  let x := s.field f
  if x.role == .lost || x.lossPending || x.role == .service then s
  else
    let s := (s.updField f fun x => { x with lossPending := true, lossAt := s.tick.count, lostCause := some cause, absorb := [], patches := [] }).copyWindow f
    s.forAll (coresOf f) fun s c =>
      if s.cores.has c then s.updCore c fun k => { k with state := if k.state == .failed then .failed else .off, seq := {} } else s

/-- Every bank of a field's cores goes down: contents lost, segments FREE; a test on them is over (R74). -/
def State.banksDown (s : State) (f : Nat) : State :=
  s.forAll (coresOf f) fun s c =>
    if s.cores.has c then s.updCore c fun k => { k with
      bankOn := 0, bankInit := 0, mem := [], scErr := [], tags := [], nextTags := [], state := if k.state == .test then .off else k.state } else s

/-- A self-test starts on a field that has woken: it uses every bank of every core, which are initialised first (R69, R74, R83, R450). -/
def State.banksTest (s : State) (f : Nat) : State :=
  s.forAll (coresOf f) fun s c => s.updCore c fun k => { k with bankOn := 0xFFFF, bankInit := 0xFFFF, mem := [], scErr := [], state := .test }

/-- The cores of a field that serves a placement no more: no plan, every bank down (R74). -/
def State.releaseCores (s : State) (f : Nat) : State :=
  (s.forAll (coresOf f) fun s c => if s.cores.has c then s.updCore c fun k => { k with
    state := if k.state == .failed then .failed else .idle, stage := 0x3FF, decRows := [], preRows := [], seq := {}
    decode := {}, prefill := {}, replay := {}, maint := {}, tuneFwd := {}, tuneBwd := {}, loads := [], code := [] } else s).banksDown f

/-- A self-test that runs on a field is abandoned and counted (R23). -/
def State.abandonTest (s : State) (f : Nat) : State :=
  if s.start.testField == some f then
    let cmd := s.start.testCmd
    let s := (s.updStart fun x => { x with testField := none, testCmd := none }).bump Reg.Start.TESTS_ABANDONED
    let s := ((s.put Reg.Start.TEST_FIELD 0xFF).updField f fun x => { x with task := 0, taskCmd := none }).banksDown f
    match cmd with
    | none => s
    | some (seq, src, op) => s.reply src { seq := seq, opcode := op, status := .busy, final := true }
  else s

/-- A task ordered on a field that is lost before the task ends: the command still gets its final reply, NOT_PERMITTED, as on a LOST field (R393,
R439; DESIGN CHOICE, log entry 153). -/
def State.failTask (s : State) (f : Nat) : State :=
  let x := s.field f
  let s := s.updField f fun x => { x with task := 0, taskCmd := none }
  match x.taskCmd with
  | none => s
  | some (seq, src, op) => s.reply src { seq := seq, opcode := op, status := .notPermitted, final := true }

/-- REBUILD_REQUEST for a field of a placement (R167, R375). -/
def State.askRebuild (s : State) (p f : Nat) : State :=
  let (id, first, n) := match (s.plc p).image with
    | some i => match i.fields.find? fun r => r.field = f with
      | some r => (i.imageId, r.firstChunk, r.chunks)
      | none => (i.imageId, 0, 0)
    | none => (0, 0, 0)
  let s := s.updPlc p fun x => { x with rebuildAsked := if x.rebuildAsked.contains f then x.rebuildAsked else x.rebuildAsked ++ [f] }
  s.event { code := 0x0302, placement := p, field := f, stages := s.stagesOf f
            detail := le8 40 id ++ le4 48 first ++ le4 52 n }

/-- A new alias entry would be needed while all 16 of the routers' tables are in use (R289, R371). -/
def State.aliasFull (s : State) (p f : Nat) : Bool :=
  decide (16 ≤ ((List.range 4).map fun q => (s.plc q).moved.length).foldl (· + ·) 0) && !((s.plc p).moved.any fun e => e.1 == f)

/-- Begin the move of field f's work (R166, R167): clearing chosen, copy begun from the twin or chunks asked for. Answers the path taken
(0 twin, 1 image, 2 none), the clearing and the holder. -/
def State.beginMove (s : State) (p f : Nat) (heat : Bool) : State × Nat × Option Nat × Option Nat :=
  match s.nearestClearing f with
  | none => (s, 2, none, none)
  | some c =>
    let h := s.twinComplete f
    -- a clearing on which a self-test fragment runs takes role REBUILD at the next boundary (R23)
    let testing := s.start.testField == some c
    let s := s.abandonTest c
    let s := s.updField c fun x => { x with role := if testing then x.role else .rebuild, chosen := testing, placement := some p }
    let s := s.beginWrite c (s.plc p).liveBank
    let s := s.updBank c (s.plc p).liveBank fun b => { b with st := .installing, mem := [], err := [], leaves := [] }
    let s := s.updPlc p fun x => { x with moves := x.moves ++ [⟨f, c, h, h.isNone, heat, s.tick.count + 1, none⟩] }
    let s := if h.isNone then s.askRebuild p f else s
    -- a clearing at rest is woken for the rebuild (R58, R356)
    let s := if (s.field c).clock == .stopped then (s.updField c fun x => { x with wakeForRebuild := true }).sendGust (stewardId c) else s
    (s, if h.isSome then 0 else 1, some c, h)

/-- A field holds a part of the image that a placement has in its standby banks, or is to get one from an installation under way. -/
def State.holdsPart (s : State) (p f : Nat) : Bool :=
  let x := s.plc p
  (x.staged.toList ++ (s.transfers.filter fun t => t.placement = p && t.kind = 0).filterMap (·.image)).any fun i =>
    i.fields.any fun r => r.role = 1 && x.partSite r.field = f

/-- The loss of a field of a placement whose image state is INSTALLING or STAGED sets it to INCOMPLETE (R167). -/
def State.markIncomplete (s : State) (p f : Nat) : State :=
  let x := s.plc p
  let s := s.updPlc p fun x => if x.imageState == .installing || x.imageState == .staged then { x with imageState := .incomplete } else x
  -- an installation under way has to supply the field again
  let redo (t : Transfer) : Transfer :=
    if t.placement ≠ p || t.kind ≠ 0 then t else
    match t.image.bind fun i => i.fields.find? fun r => r.role = 1 && x.partSite r.field = f with
    | none => t
    | some r => { t with done := t.done.filter fun n => n < r.firstChunk || r.firstChunk + r.chunks ≤ n, readBack := without t.readBack r.field }
  { s with transfers := s.transfers.map redo }

/-- The Zenith takes up one lost field (R370): REACH cleared, KV losses, the move, FIELD_LOST. -/
def State.handleLoss (s : State) (f : Nat) : State :=
  let x := s.field f
  let was := if x.chosen then Role.rebuild else x.role
  let s := s.updField f fun x => { x with role := .lost, lossPending := false, chosen := false }
  let s := s.setReach f false
  let s := (s.abandonTest f).failTask f
  let cause := x.lostCause.getD 0
  -- a holder lost: the field it protects has no twin; a copy from it goes on from the image (R167, R372)
  let s : State := match x.twinOf with
    | none => s
    | some g =>
      let s := s.updField g fun y => { y with twinHolder := none }
      let s := s.updField f fun y => { y with twinOf := none }
      s.forAll (List.range 4) fun s p =>
        let hit := (s.plc p).moves.filter fun m => m.holder == some f && !m.fromImage && m.activeAt.isNone
        let turn (m : Move) : Move := if m.holder == some f && m.activeAt.isNone then { m with holder := none, fromImage := true } else m
        let s := s.updPlc p fun y => { y with moves := y.moves.map turn }
        hit.foldl (fun s m => s.askRebuild p m.field) s
  let none_ : Nat × Option Nat × Option Nat := (2, none, none)
  let s := s.forAll ((List.range 4).filter fun p => (was == .active && x.placement == some p) || s.holdsPart p f) fun s p => s.markIncomplete p f
  let (s, info, nReb) : State × (Nat × Option Nat × Option Nat) × Nat :=
    match was, x.placement with
    | .active, some p =>
      let n := s.toRebuild (coresOf f)
      let s := s.loseCores (coresOf f) f
      let s := if (s.twinComplete f).isNone then
          (s.updPlc p fun y => { y with untwinned := y.untwinned + 1 }).bump Reg.Health.UNTWINNED_LOSSES
        else s
      if (s.plc p).moves.any fun m => m.field = f && m.heat then
        -- a move begun for a switch-off goes on as a move for a loss
        let info : Nat × Option Nat × Option Nat := match (s.plc p).moves.find? fun m => m.field = f with
          | some m => (bit m.fromImage 0, some m.clearing, m.holder)
          | none => none_
        (s.updPlc p fun y => { y with moves := y.moves.map fun m =>
          if m.field = f then { m with heat := false } else m }, info, n)
      else if 3 ≤ (s.plc p).moves.length then (s.suspend p 2, none_, n)
      else if s.aliasFull p f then (s.suspend p 3, none_, n)
      else
        let (s, path, c, h) := s.beginMove p f false
        if path = 2 then (s.suspend p 0, none_, n) else (s, (path, c, h), n)
    | .rebuild, some p =>
      -- the clearing of a move: the move starts again with the next clearing (R167)
      match (s.plc p).moves.find? fun m => m.clearing = f with
      | none => (s, none_, 0)
      | some m =>
        let s := s.updPlc p fun y => { y with moves := y.moves.filter fun z => z.clearing ≠ f }
        let (s, path, c, h) := s.beginMove p m.field m.heat
        if path = 2 then (s.suspend p 0, none_, 0) else (s, (path, c, h), 0)
    | _, _ => (s, none_, 0)
  let s := if was == .rebuild || was == .clearing || was == .unassigned then s.updField f fun y => { y with placement := none } else s
  s.event { code := 0x0802, placement := placementByte x.placement, field := f, stages := s.stagesOf f
            detail := [(40, cause), (41, info.1), (42, info.2.1.getD 0xFF), (43, info.2.2.getD 0xFF)] ++ le4 44 nReb }

/-- Fields in ascending order of placement number, then of field index; those of no placement last (R23). -/
def State.byPlacement (s : State) (l : List Nat) : List Nat :=
  let those (p : Option Nat) := l.filter fun f => (s.field f).placement = p
  those (some 0) ++ those (some 1) ++ those (some 2) ++ those (some 3) ++ those none

/-- Lost fields in ascending placement and field index (R23): in a running tick those lost in an earlier one (R370). -/
def State.handleLosses (s : State) : State :=
  s.forAll (s.byPlacement (allFields.filter fun f => (s.field f).lossPending && (!s.tick.running || decide ((s.field f).lossAt < s.tick.count))))
    State.handleLoss

/-- A LOST field that is still a member of a live placement: its work has not moved (R22, R434). -/
def State.holdsWork (s : State) (f : Nat) : Bool :=
  (s.field f).role == .lost && (s.field f).placement.any fun p => (s.plc p).live

/-- LOST fields whose work had not moved are re-placed, in the order of R23 (R22, R434). -/
def State.replaceLeft (s : State) : State :=
  s.forAll (s.byPlacement (computeFields.filter s.holdsWork)) fun s f =>
    (s.updField f fun x => { x with role := .active, lossPending := true }).handleLoss f

/-- Clearings chosen while they were under test take role REBUILD at a boundary (R23). -/
def State.takeChosen (s : State) : State :=
  s.forAll (computeFields.filter fun f => (s.field f).chosen) fun s f => s.updField f fun x => { x with role := .rebuild, chosen := false }

/-- Name c's cores wherever f's cores were named: KV carvings, regions, adapter slots, tuning areas (R166, R237). -/
def State.renameCores (s : State) (p f c : Nat) : State :=
  let r (n : Nat) : Nat := if coreField n = f then 32 * c + coreNum n else n
  let s := s.forAll (s.boundTo p) fun s a => s.updAsp a fun x => { x with carvings := x.carvings.map fun cv => { cv with core := r cv.core } }
  let s := s.forAll s.sessIds fun s n =>
    if (s.sess n).placement = p then s.updSess n fun d => { d with regions := d.regions.map fun e => (r e.1, e.2) } else s
  s.updPlc p fun x => { x with
    adapters := x.adapters.map fun e =>
      let fix (v : AdapterSlot) : AdapterSlot := { v with cores := v.cores.map fun q => (r q.1, q.2) }
      (e.1, { e.2 with slotA := e.2.slotA.map fix, slotB := e.2.slotB.map fix })
    tune := { x.tune with areas := x.tune.areas.map fun q => (r q.1, q.2) } }

/-- The steward of the clearing has the bank and loads the plan; it goes ACTIVE at the next boundary (R166 steps 4-5). -/
def State.moveLoaded (s : State) (p f c : Nat) : State :=
  let bank := (s.plc p).liveBank
  let s := s.updBank c bank fun b => { b with st := .empty }
  let s := s.loadField c bank
  -- tags of f's airspace segments stand in the clearing's cores
  let s := s.forAll (List.range 32) fun s n => s.updCore (32 * c + n) fun k =>
    { k with nextTags := ((s.core (32 * f + n)).tags.filter fun e => e.2 < 8) }
  let s := s.updPlc p fun x => { x with moves := x.moves.map fun m => if m.field = f then { m with activeAt := some (s.tick.count + 1) } else m }
  let s := s.updPlc p fun x => { x with moved := (x.moved.filter fun e => e.1 != f) ++ [(f, c)] }
  (s.writeAliases.writeGroups p).setReach c true

/-- TWIN_COPY_COMPLETE: the mirror stands in the clearing and is leaf-checked; a mismatch moves to the image (R166, R167). -/
def opTwinCopy (field : Nat) (ok : Bool) (s : State) : State :=
  match (List.range 4).find? fun p => (s.plc p).moves.any fun m => m.clearing = field || m.field = field with
  | none => s
  | some p =>
    match (s.plc p).moves.find? fun m => m.clearing = field || m.field = field with
    | none => s
    | some m =>
      match m.holder with
      | none => s
      | some h =>
        if m.fromImage || m.activeAt.isSome then s
        else if !ok then
          (s.updPlc p fun x => { x with moves := x.moves.map fun y => if y.field = m.field then { y with fromImage := true, holder := none } else y }).askRebuild p m.field
        else
          let src := s.standby h
          let s := s.updBank m.clearing (s.plc p).liveBank fun b => { b with mem := src.mem, err := src.err, leaves := src.leaves }
          s.moveLoaded p m.field m.clearing

def execTwinCopyComplete (field : Nat) (verified : Bool) (s : State) : Result := .next (opTwinCopy field verified s)

/-- A move ends at boundary k: its copy is verified, its clearing runs and has its plan (R166). -/
def State.moveDone (s : State) (k : Nat) (m : Move) : Bool :=
  m.activeAt.any (· ≤ k) && (s.field m.clearing).clock == .running && (s.field m.clearing).loadAt.isNone

/-- An installation under way writes the part of a lost field into the field that took its work (R167). -/
def State.moveStaged (s : State) (p f c : Nat) : State :=
  if (s.field f).role == .lost && (s.transfers.any fun t => t.placement = p && t.kind = 0 && t.image.any fun i => i.fields.any fun r => r.role = 1 && r.field = f) then
    let bank := (s.plc p).stagedBank
    let s := s.updPlc p fun x => { x with stagedAt := (x.stagedAt.filter fun e => e.1 != f) ++ [(f, c)] }
    (s.beginWrite c bank).updBank c bank fun b => { b with st := .installing, mem := [], err := [], leaves := [] }
  else s

/-- At a boundary: clearings whose plan is loaded become ACTIVE, their stall ends, REPLACED is raised and twins are assigned again. -/
def State.finishMoves (s : State) (k : Nat) : State :=
  s.forAll (List.range 4) fun s p =>
    let due := (s.plc p).moves.filter (s.moveDone k)
    let s := due.foldl (fun s m =>
      let s := s.renameCores p m.field m.clearing
      let s := s.updField m.clearing fun x => { x with role := .active, placement := some p }
      let s := s.updField m.field fun x =>
        { x with placement := none, role := if m.heat then .unassigned else x.role, twinOf := none, twinHolder := none }
      let s := if m.heat then s.releaseCores m.field else s.moveStaged p m.field m.clearing
      let s := s.updPlc p fun x => { x with moves := x.moves.filter fun y => y.field ≠ m.field, rebuildAsked := without x.rebuildAsked m.field }
      -- the field moved off is switched off, or reset (R357, R403)
      let s := if m.heat && (s.field m.field).task ≠ 2 then s.sendGust (stewardId m.field) else s
      s.event { code := 0x0803, placement := p, field := m.clearing, stages := s.stagesOf m.clearing
                detail := [(40, m.field), (41, m.clearing), (42, if m.fromImage then 1 else 0)] ++ le8 48 k }) s
    -- a suspended placement serves again once no field of it is missing (R371)
    let missing := !(s.plc p).moves.isEmpty || computeFields.any fun f => (s.field f).role == .lost && (s.field f).placement == some p
    let s := if due.isEmpty || missing then s else s.updPlc p fun x => { x with suspended := none }
    if due.isEmpty then s else (s.buildTwins p).setFilters p

/-- A placement's sessions are stalled at boundary k (R367, R370). -/
def State.stalledAt (s : State) (p k : Nat) : Bool :=
  (s.plc p).moves.any fun m => decide (m.stallFrom ≤ k) && !(s.moveDone k m)

/-! ### Core absorption (R78-R82) -/

/-- Deputies of the failed cores, taken in ascending core number (R79): (failed, deputy). -/
def deputies (survivors : List Nat) : List Nat → List (Nat × Nat) → List (Nat × Nat)
  | [], acc => acc
  | c :: rest, acc =>
    let order := survivors.filter (c < ·) ++ survivors.filter (· < c)
    match order.find? fun s => !(acc.any fun e => e.2 = s) with
    | none => acc
    | some d => deputies survivors rest (acc ++ [(c, d)])

/-- Reserve segments of a survivor that hold nothing relocated. -/
def State.freeReserve (s : State) (f n : Nat) : List Nat :=
  ((s.core (32 * f + n)).reserveSegs).filter fun g => !((s.field f).absMap.any fun e => e.2.2.1 = n && e.2.2.2 = g)

/-- Relocate one segment of a failed core to the survivor with the most free reserve, lowest rank on a tie (R80). DESIGN CHOICE (log entry 135):
the manual names the survivor and not the segment of its reserve; the model takes the lowest-numbered free one. -/
def State.relocate (f : Nat) (survivors : List Nat) (s : State) (e : Nat × Nat) : State :=
  let (dead, seg) := e
  let best := survivors.foldl (fun (b : Option (Nat × Nat)) n =>
    let k := (s.freeReserve f n).length
    match b with
    | none => if k = 0 then none else some (n, k)
    | some y => if y.2 < k then some (n, k) else some y) none
  match best with
  | none => s
  | some (n, _) =>
    match s.freeReserve f n with
    | [] => s
    | g :: _ =>
      let tag := (s.core (32 * f + dead)).tags.getD seg 0xF
      let loads := (s.core (32 * f + dead)).loads
      let bank := (s.liveBankOf f).mem
      -- the words of load entries that fall into a PLAN segment, read again from the live bank
      let words := if tag ≠ 0x8 then [] else loads.flatMap fun l =>
        (List.range l.words).filterMap fun i =>
          let w := linLocal l.dest + i
          if segOf w = seg then some (w % 2048, bank.bytes (l.src + 32 * i) 32) else none
      let s := s.updCore (32 * f + n) fun k =>
        let mem := k.mem.filter fun b => b.1 / 65536 ≠ g
        { k with
          mem := words.foldl (fun m w => m.writeBytes (65536 * g + 32 * w.1) w.2) mem
          scErr := k.scErr.filter fun x => segOf x.1 ≠ g
          tags := k.tags.set g tag }
      s.updField f fun x => { x with absMap := (x.absMap.filter fun y => !(y.1 = dead && y.2.1 = seg)) ++ [(dead, seg, n, g)] }

/-- Shares of the concatenated absorption list (R78). -/
def absShares (l : List (Nat × Nat)) (n j : Nat) : List (Nat × Nat) := (l.drop (j * l.length / n)).take ((j + 1) * l.length / n - j * l.length / n)

/-- Absorption of a field's failed cores takes force at a boundary: relocation, split, deputies, areas (R78-R81). -/
def State.absorbField (s : State) (f : Nat) : State :=
  let x := s.field f
  let due := (x.absorb.filter fun a => a.ordered.isSome).map (·.core)
  if due.isEmpty then s else
  let s := s.ackGust (stewardId f)
  let failed := x.failed.filter fun n => due.contains n || x.absMap.any (fun e => e.1 = n) || !(x.absorb.any fun a => a.core = n)
  let survivors := (List.range 32).filter fun n => !x.failed.contains n
  let s := due.foldl (fun s n =>
    -- segments relocated to the failed core go first, in the order of their first relocation
    let held := ((s.field f).absMap.filter fun e => e.2.2.1 = n).map fun e => (e.1, e.2.1)
    let s := s.updField f fun y => { y with absMap := y.absMap.filter fun e => e.2.2.1 ≠ n }
    let k := s.core (32 * f + n)
    let own := (sortNat ((k.tags.filter fun t => t.2 ≠ 0xF && !k.reserveSegs.contains t.1).map Prod.fst)).map fun g => (n, g)
    (held ++ own).foldl (State.relocate f survivors) s) s
  let list := failed.flatMap fun n => (List.range (s.core (32 * f + n)).absList.length).map fun i => (n, i)
  let n := survivors.length
  let ext := ((List.range n).map fun j => (absShares list n j).length).foldl max 0
  let deps := deputies survivors (sortNat failed) []
  let area (i : Nat) (me : Nat) : List W256 :=
    match failed[i]? with
    | none => []
    | some dead => match deps.find? fun e => e.1 = dead && e.2 = me with
      | some _ => (s.core (32 * f + dead)).deputyProg
      | none => [1]
  let s := (List.range n).foldl (fun s j =>
    let me := survivors.getD j 0
    let a := area 0 me
    let b := area 1 me
    let put (t : Tbl W256) (base : Nat) (l : List W256) : Tbl W256 :=
      (List.range l.length).foldl (fun t i => t.set (base + i) (l.getD i 0)) t
    s.updCore (32 * f + me) fun k => { k with
      state := .absorbing, extension := ext, absShare := absShares list n j
      deputyOf := (deps.find? fun e => e.2 = me).map Prod.fst
      areaA := ⟨3840, a.length⟩, areaB := ⟨3968, b.length⟩
      code := put (put k.code 3840 a) 3968 b }) s
  s.updField f fun y => { y with absorb := y.absorb.filter fun a => a.ordered.isNone }

/-- CORE_LOST: the steward's report reaches the Zenith by Gust (R77, R81, R82, R372). -/
def opCoreLost (f n condition : Nat) (s : State) : State :=
  let c := 32 * f + n
  let s := s.failCore c
  let x := s.field f
  let moving := (List.range 4).any fun p => (s.plc p).moves.any fun m => m.field = f
  if x.lossPending || x.role == .lost || moving then s
  else
    let reb := s.toRebuild [c]
    let stage := (s.core c).stage
    let s := s.loseCores [c] f
    let s := s.event { code := 0x0801, placement := placementByte x.placement, field := f, core := n
                       stages := if stage = 0x3FF then [] else [stage]
                       detail := [(40, condition), (41, (s.core c).failOrder)] ++ le4 44 reb }
    if 3 ≤ x.failed.length then s.loseField f 0 else s

def execCoreLost (field core condition : Nat) (s : State) : Result := .next (opCoreLost field core condition s)

/-- In a control slot the Zenith orders the absorption of cores reported in an earlier tick (R81); a core failure in a field whose work is moving
is ignored (R372). -/
def State.orderAbsorption (s : State) : State :=
  s.forAll computeFields fun s f =>
    if ((List.range 4).any fun p => (s.plc p).moves.any fun m => m.field = f) || !((s.field f).absorb.any fun a => a.ordered.isNone && decide (a.tick + 2 ≤ s.tick.count)) then s
    else (s.sendGust (stewardId f)).updField f fun x => { x with absorb := x.absorb.map fun a =>
      if a.ordered.isNone && a.tick + 2 ≤ s.tick.count then { a with ordered := some s.tick.count } else a }

/-! ### Stacks (R201) -/

/-- Spare slots of a stack: 16. -/
def StackSt.freeSpare (x : StackSt) : Option Nat := (List.range 16).find? fun j => !(x.spares.any fun e => e.1 = j)

/-- The spare slot for a contrail copy lost in stack st whose other copy lies in stack `other` (R201). -/
def State.spareFor (s : State) (st other : Nat) : Option (Nat × Nat) :=
  (((List.range 47).map fun i => (st + 1 + i) % 48).filter fun n => (s.stack n).st != .lost && n != other).findSome? fun n =>
    (s.stack n).freeSpare.map fun j => (n, j)

/-- Write a descriptor's lost copy again. -/
def State.respare (st : Nat) (s : State) (n : Nat) : State :=
  let d := s.sess n
  let lostA := d.copyA.any fun e => e.1 = st
  let lostB := d.copyB.any fun e => e.1 = st
  if !lostA && !lostB then s
  else
    let other := if lostA then d.copyB else d.copyA
    let new := match other with
      | none => none
      | some o => s.spareFor st o.1
    let s := match new with
      | none => s
      | some (m, j) => s.updStack m fun x => { x with spares := x.spares ++ [(j, n)] }
    let copy := new.map fun e => (e.1, 944 + 5 * e.2)
    s.updSess n fun d => if lostA then { d with copyA := copy } else { d with copyB := copy }

/-- A stack becomes LOST (R201, R206, R368). -/
def State.loseStack (s : State) (st cause : Nat) : State :=
  if (s.stack st).st == .lost then s
  else
    -- copies with a page in the stack, judged while its pages are known
    let hit (a : Nat) (l : List Nat) : Bool := l.any fun n => (s.cloudPage (s.asp a).stripes n).any fun e => e.1 = st
    let sess := s.sessIds.filter fun n => (s.sess n).pauseRec.any fun r => hit (s.sess n).airspace r.pages
    let s := s.updStack st fun x => { x with st := .lost, spares := [] }
    let s := s.forAll sess fun s n =>
      let d := s.sess n
      if d.pauseRec.any (·.copying) then s.failPause n
      else ((if d.copyBack then s.abandonBack n else s).dropPause n).bump Reg.Cloud.COPIES_DROPPED
    let s := s.forAll (s.sessIds.filter fun n => (s.sess n).st != .free) (State.respare st)
    let s := if st < 32 then s.put ⟨0x740004, st, st⟩ 1 else s.put ⟨0x740008, st - 32, st - 32⟩ 1
    let s := s.mark Reg.Cloud.STACK_LOST
    let s := s.put Reg.Cloud.STACKS_OK ((List.range 48).filter fun n => (s.stack n).st != .lost && (s.stack n).st != .off).length
    s.event { code := 0x0807, detail := [(40, st), (41, cause)] }

def execStackLost (stack cause : Nat) (s : State) : Result := .next (s.loseStack stack cause)

/-! ### Detours and Gust (R297, R298) -/

/-- R299: a stack is LOST when no other stop of the ring has a healthy home router. -/
def State.ringCheck (s : State) (f : Nat) : State :=
  s.forAll ((List.range 48).filter fun n => stackHome n == f) fun s n =>
    if (List.range 48).any fun m => stackHome m != f && !s.routerLost (stackHome m) then s else s.loseStack n 3

/-- Cores of live placements whose queued sends miss R39 on the routes of the tables in force. -/
def State.lateSenders (s : State) : List Nat :=
  s.livePlacements.flatMap fun p =>
    let x := (s.plc p).plan.x
    (s.coresOfPlacement p).filter fun c => let k := s.core c
      !(s.exchInTime State.fabLatency c x 1 (k.program k.decode) && s.exchInTime State.fabLatency c x 4 (k.program k.prefill))

/-- The tables as they are once every router has swapped. -/
def State.swapped (s : State) : State := s.forAll allFields State.swapTables

/-- DETOUR_COMPUTED: tables written to every router for the next swap; a field whose router is lost becomes LOST; a Jetstream path that now misses
R39 is reported as ROUTE_TIMING (R298, R299). -/
def opDetour (s : State) : State :=
  let before := s.lateSenders
  let s := s.writeDetours
  let s := (s.swapped.lateSenders.filter fun c => !before.contains c).foldl (fun s c => s.event { code := 0x0702, core := c, detail := le2 40 c }) s
  let gone := allFields.filter fun u => s.routerLost u && !(s.router u).linksDown.isEmpty
  let s := s.forAll (gone.filter computeFields.contains) fun s u => s.loseField u 6
  s.forAll gone State.ringCheck

def execDetourComputed (s : State) : Result := .next (opDetour s)

/-- GUST_RESEND: a message still unacknowledged after 16 ticks is sent again. -/
def execGustResend (message : Nat) (s : State) : Result :=
  .next (match s.gust.find? fun e => e.1 = message with
    | none => s
    | some e => s.emit (.gust e.1 e.2))

/-! ### Health (R373) -/

/-- Both segments that feed a site's dual-fed domains are off (R324, R327). -/
def State.pairOff (s : State) (f : Nat) : Bool :=
  let n := f / 4
  s.power.segTripped.contains n && s.power.segTripped.contains (if n % 2 = 0 then n + 1 else n - 1)

/-- A service field has a domain off. -/
def State.serviceOff (s : State) (f : Nat) : Bool := (s.field f).tripped ≠ 0 || s.pairOff f

/-- HEALTH_CAUSE of R373. -/
def State.healthCause (s : State) : Nat :=
  let fs := computeFields.map s.field
  let ps := (List.range 4).map s.plc
  let lostStacks := ((List.range 48).filter fun n => (s.stack n).st == .lost).length
  let bound := (List.range 8).filterMap fun a => (s.asp a).placement
  let planned := (List.range 12).filter fun n => s.links.plan.groups.any fun g => (g.ports / 2 ^ n) % 2 = 1
  bit (fs.any fun x => x.role == .active && !x.failed.isEmpty) 0
  + bit (fs.any fun x => x.role == .lost) 1
  + bit (ps.any fun x => x.live && x.twinNone) 2
  + bit (ps.any (·.twinSuspended)) 3
  + bit (fs.any fun x => !x.unpatched.isEmpty) 4
  + bit (0 < lostStacks) 5
  + bit (planned.any fun n => (s.port n).st != .active) 6
  + bit ((List.range 4).any fun n => !(s.ethPort n).linkUp) 7
  + bit ((s.fields.any fun e => e.2.spots.any fun h => h.2.suspect || h.2.lost) || decide (3 ≤ s.thermal.inletFails)
      || decide (3 ≤ s.thermal.outletFails) || decide (3 ≤ s.thermal.flowFails)) 8
  + bit ([43, 44, 85].any s.serviceOff) 9
  + bit (ps.any fun x => x.suspended.isSome) 10
  + bit (fs.all fun x => x.role != .clearing) 16
  + bit (s.fields.any fun e => decide ((9 : Rat) / 10 ≤ e.2.lifeIndex)) 17
  + bit (decide (2 ≤ (ps.map (·.untwinned)).foldl (· + ·) 0)) 18
  + bit (decide (48 - lostStacks < 40)) 19
  + bit (s.serviceOff 2) 24
  + bit (!bound.isEmpty && bound.all fun p => (s.plc p).suspended.isSome) 25

def healthState (cause : Nat) : Nat := if 2 ^ 24 ≤ cause then 3 else if 2 ^ 16 ≤ cause then 2 else if cause = 0 then 0 else 1

/-- A PLDM event message to the receiver, if one is set; at most one message per sensor waits (R427). -/
def State.platformEvent (s : State) (sensor value data : Nat) : State :=
  match s.mgmt.receiver with
  | none => s
  | some r =>
    let keep (l : List (Nat × Nat × Nat × Nat)) : List (Nat × Nat × Nat × Nat) := l.filter fun e => e.1 ≠ sensor
    (s.updMgmt fun m => { m with events := keep m.events ++ [(sensor, value, data, 1)] }).emit (.platformEvent r sensor value data)

/-- Evaluate the health state and its registers (R373, R376). -/
def State.evalHealth (s : State) : State :=
  let c := s.healthCause
  let old := s.health.st
  let new := healthState c
  let s := { s with health := ⟨new, BitVec.ofNat 32 c⟩ }
  let s := (s.put Reg.Health.STATE new).put Reg.Health.HEALTH_CAUSE c
  let cnt (r : Role) : Nat := (computeFields.filter fun f => (s.field f).role == r).length
  let s := (s.put Reg.Health.CLEARINGS (cnt .clearing)).put Reg.Health.FIELDS_LOST (cnt .lost)
  let s := s.put Reg.Health.CORES_FAILED (((computeFields.filter fun f => (s.field f).role == .active).map fun f => (s.field f).failed.length).foldl (· + ·) 0)
  let s := s.put Reg.Health.TILES_UNPATCHED ((computeFields.map fun f => (s.field f).unpatched.length).foldl (· + ·) 0)
  if old = new then s
  else ((s.bump Reg.Health.HEALTH_CHANGES).platformEvent 32 new c).event { code := 0x0101, detail := [(40, old), (41, new)] ++ le4 44 c }

end Sys2Proof.Machine
end

