-- ==== Sys2Proof/Machine/Steward.lean ====
section
/-! DEFINITION. What a field steward does: vanes and the VLOG set point (R52-R54), scrub, repairs and self-checks of the maintenance
slot (R64, R70, R77, R96), bank initialisation (R69), stop and wake orders (R57, R58), and the tick beacon (R45-R48). -/

namespace Sys2Proof.Machine

/-! ### Voltage bands (R44) -/

/-- Voltage band of a stretch level. -/
def bandOf (level : Nat) : Nat := if level < 19 then 0 else if level < 40 then 1 else if level < 100 then 2 else 3
/-- VLOG floor of a band in mV; its ceiling lies 100 mV above. -/
def bandFloor (b : Nat) : Nat := [720, 680, 650, 600].getD b 720
def bandCeil (b : Nat) : Nat := bandFloor b + 100
/-- The set point of a field in a band: floor plus trim, at most the ceiling (R52). -/
def FieldSt.setPoint (x : FieldSt) (b : Nat) : Nat := min (bandFloor b + x.trim) (bandCeil b)
/-- The trim reaches the ceiling of the band. -/
def FieldSt.trimAtCeiling (x : FieldSt) (b : Nat) : Bool := decide (bandCeil b ≤ bandFloor b + x.trim)

/-! ### The maintenance slot (R52, R64, R70, R77, R366) -/

/-- The vane rule of one tick: margin, runs, the raise of the next boundary and the reports to the Zenith (R52). -/
def FieldSt.readVanes (x : FieldSt) (warn release band m : Nat) : FieldSt :=
  let low := decide (m < warn)
  let top := x.trimAtCeiling band
  let lowRun := if low && !top then x.lowRun + 1 else 0
  let limitRun := if low && top then x.limitRun + 1 else 0
  let hold := x.trimHold - 1
  let raise := decide (4 ≤ lowRun) && x.trimHold == 0
  { x with
    margin := m
    lowRun := lowRun
    limitRun := limitRun
    goodRun := if release ≤ m then x.goodRun + 1 else 0
    trimRaise := x.trimRaise || raise
    trimHold := if raise then 64 else hold
    vaneReport := decide (m < 5) || decide (1024 ≤ limitRun) }

/-- Scrub the next words of a powered bank: a correctable word is written back corrected; an uncorrectable one is counted and stays
(R70). -/
def State.scrubBank (s : State) (c b : Nat) : State :=
  let k := s.core c
  if !k.bankUp b then s else
  (List.range s.scrubWords).foldl (fun s i =>
    let lin := 57344 * b + (k.scrubWord + i) % 57344
    match (s.core c).scErr.getD lin 0 with
    | 0 => s
    | 1 => (s.updCore c fun k => { k with scErr := k.scErr.del lin }).bump (Reg.Core.SC_CORR (coreField c) (coreNum c))
    | _ => (s.bump (Reg.Core.SC_UNCORR (coreField c) (coreNum c))).updCore c fun k => { k with bankErrors := (b, s.tick.count) :: k.bankErrors }) s

/-- The steward rewrites descriptors (R64) and load entries from the plan area of the live bank (R366). -/
def State.repairCore (s : State) (c : Nat) : State :=
  let f := coreField c
  let k := s.core c
  let s := s.count (Reg.Core.PROG_REPAIR f (coreNum c)) k.repairs.length
  let inEntry (lin : Nat) (e : LoadEntry) : Bool := decide (linLocal e.dest ≤ lin) && decide (lin < linLocal e.dest + e.words)
  let m := (s.liveBankOf f).mem
  s.updCore c fun k =>
    let todo := k.loads.filter fun e => k.reloads.any fun lin => inEntry lin e
    let k := { k with codeErr := k.repairs.foldl Tbl.del k.codeErr, repairs := [] }
    let k := todo.foldl (fun (k : CoreSt) e => CoreSt.applyLoad m k e) k
    { k with reloads := k.reloads.filter fun lin => !(k.loads.any (inEntry lin)) }

/-- Uncorrectable crossbar reads of a core that count toward its failure: on tiles whose slot a scrub reads clean, within 1,024 ticks (R77). -/
def State.portErrors (s : State) (c : Nat) : List (Nat × Nat) :=
  let b := s.liveBankOf (coreField c)
  (s.core c).tileErrors.filter fun e =>
    decide (s.tick.count < e.2 + 1024) && (match tilePlace b.mem e.1 with
      | some (slot, _, _) => b.err.getD slot 0 != 2
      | none => false)

/-- The steward's tests of R77: 16 uncorrectable reads in one bank, or uncorrectable crossbar reads on 4 distinct tiles that scrub clean, within
1,024 ticks. -/
def State.judgeCore (s : State) (c : Nat) : State :=
  let ports := s.portErrors c
  let s := s.updCore c fun k => { k with bankErrors := k.bankErrors.filter fun e => s.tick.count < e.2 + 1024, tileErrors := ports }
  let banks := (List.range 16).any fun b => 16 ≤ ((s.core c).bankErrors.filter fun e => e.1 = b).length
  if banks || 4 ≤ (ports.map Prod.fst).eraseDups.length then s.failCore c else s

/-- What one core does in the maintenance slot: scrub of its powered banks (R70), and, unless it has failed, repairs, the tests of R77 and the
start of its maintenance program (R96). -/
def State.maintainCore (s : State) (c : Nat) : State :=
  let k := s.core c
  let s := s.forAll (List.range 16) fun s b => s.scrubBank c b
  let s := s.updCore c fun k => { k with scrubWord := (k.scrubWord + s.scrubWords) % 57344 }
  if k.state == .off || k.state == .failed then s
  else
    let s := (s.repairCore c).judgeCore c
    if (s.core c).state == .failed then s else
    if k.maint.len = 0 || k.seq.prog ≠ 0 || !(s.field (coreField c)).beaconOk then s
    else s.updSeq c fun q => q.begin_ 6 k.maint.base (s.tick.period - 64)

def CoreState.code : CoreState → Nat
  | .off => 0 | .idle => 1 | .serving => 2 | .absorbing => 3 | .failed => 4 | .test => 5

def Prog.word (p : Prog) : Nat := p.len * 65536 + p.base

/-- The steward copies a core's block and its sequencer's into the field window (R83, R110). -/
def State.gaugeCore (s : State) (c : Nat) : State :=
  let f := coreField c
  let n := coreNum c
  let k := s.core c
  let q := k.seq
  let s := (s.put (Reg.Core.STAGE f n) k.stage).put (Reg.Core.STATE f n) k.state.code
  let s := ((s.put (Reg.Core.DEPUTY f n) (bit k.deputyOf.isSome 0)).put (Reg.Core.DEPUTY_OF f n) (k.deputyOf.getD 0)).put (Reg.Core.FAIL_ORDER f n) k.failOrder
  let s := (s.put (Reg.Core.BANK_INIT f n) k.bankInit.toNat).put (Reg.Core.BANK_ON f n) k.bankOn.toNat
  let s := (s.put (Reg.Core.EXTENSION f n) k.extension).put (Reg.Core.RESERVE_SEG f n) k.reserveSeg
  let s := (s.put (Reg.Seq.DEC_LEN f n) k.decode.len).put (Reg.Seq.DEC_BASE f n) k.decode.base
  let s := ((s.put (Reg.Seq.PRE_PROG f n) k.prefill.word).put (Reg.Seq.REP_PROG f n) k.replay.word).put (Reg.Seq.MNT_PROG f n) k.maint.word
  let s := ((s.put (Reg.Seq.ENTRY f n) (q.lastEntry.getD 0)).put (Reg.Seq.ARMED f n) (bit q.lastEntry.isSome 0)).put (Reg.Seq.REPLAYED f n) (bit q.replayed 0)
  (s.put (Reg.Seq.PC f n) q.pc).put (Reg.Seq.PROG f n) q.prog

/-- A margin below 5 ps is reported (R52). -/
def State.vaneCritical (s : State) (f m : Nat) : State :=
  if 5 ≤ m then s
  else s.event { code := 0x0806, field := f, placement := placementByte (s.field f).placement, detail := [(40, m % 256), (41, m / 256 % 256)] }

/-- The maintenance slot of one field; the Zenith refreshes its copy of the field window (R383). In the tick in which a field stops the slot
brings the snapshot of R57. -/
def opMaintenance (f : Nat) (vanes : List Nat) (bad : List Nat) (s : State) : State :=
  let x := s.field f
  if !s.tick.running || x.role == .lost then s
  else if x.role == .service || (match x.clock with | .gated _ => true | _ => false) then s.copyWindow f
  else if x.clock != .running then s
  else
    let s := match vanes with
      | [] => s
      | v :: vs =>
        let m := vs.foldl min v
        let s := s.updField f fun x => x.readVanes s.tick.vaneWarn s.tick.vaneRelease (bandOf s.tick.level) m
        s.vaneCritical f m
    let s := s.forAll (coresOf f) State.maintainCore
    let s := (bad.filter (· < 32)).foldl (fun s n => s.failCore (32 * f + n)) s
    (s.forAll (coresOf f) State.gaugeCore).copyWindow f

def execMaintenanceSlot (field : Nat) (vanes : VaneReads) (selfCheckFailed : List Nat) (s : State) : Result :=
  .next (opMaintenance field vanes selfCheckFailed s)

/-- VANE_LIMIT: the steward's report; the demand it makes is taken up in the control slot (R53). -/
def opVaneLimit (f : Nat) (s : State) : State :=
  let m := (s.field f).margin
  let s := s.updField f fun x => { x with vaneReport := true }
  s.event { code := 0x0805, field := f, placement := placementByte (s.field f).placement, detail := [(40, m % 256), (41, m / 256 % 256)] }

def execVaneLimit (field : Nat) (s : State) : Result := .next (opVaneLimit field s)

/-- The steward writes the set point of a band: its floor plus the trim (R52, R54). -/
def State.writeSetPoint (s : State) (f band : Nat) : State :=
  let v := (s.field f).setPoint band
  (s.updField f fun x => { x with vlogMv := v, railBand := band }).put (Reg.FPow.VLOG_MV f) v

/-- VANE_TRIM_LOWER: the trim falls by 10 mV, never below 0 (R52); the rail keeps the band whose floor it holds (R54). -/
def opTrimLower (f : Nat) (s : State) : State :=
  let s := s.updField f fun x => { x with trim := x.trim - 10 }
  (s.put (Reg.FPow.TRIM_MV f) (s.field f).trim).writeSetPoint f (s.field f).railBand

def execVaneTrimLower (field : Nat) (s : State) : Result := .next (opTrimLower field s)

/-- VANE_DEMAND_WITHDRAW: one level of the vane demand is withdrawn (R53). -/
def execVaneDemandWithdraw (s : State) : Result :=
  .next ((s.updTick fun t => { t with vaneDemand := t.vaneDemand - 1 }).put Reg.Tick.VANE_HELD (if 1 < s.tick.vaneDemand then 1 else 0))

/-- RAIL_SETTLED: the steward's report (R54). -/
def execRailSettled (field : Nat) (s : State) : Result := .next (s.updField field fun x => { x with settled := true })

/-- VLOG_RAISE_ORDER: the new set point is that of the band one level below the Zenith's (R54). -/
def opRaise (f : Nat) (s : State) : State :=
  let s := s.ackGust (stewardId f)
  (s.writeSetPoint f (bandOf (s.tick.zenith - 1))).updField f fun x => { x with settled := false }

def execVlogRaiseOrder (field : Nat) (s : State) : Result := .next (opRaise field s)

/-! ### Stop and wake (R57, R58) -/

/-- STEWARD_STOP_ORDER: from the next boundary the field's sequencers do not start. -/
def opStop (f : Nat) (off : Bool) (s : State) : State :=
  let s := s.ackGust (stewardId f)
  s.updField f fun x => if x.clock == .running then { x with clock := .stopping off } else x

def execStewardStopOrder (field : Nat) (powerOff : Bool) (s : State) : Result := .next (opStop field powerOff s)

/-- STEWARD_WAKE_ORDER: the wake is asked for the next boundary. -/
def opWake (f : Nat) (s : State) : State :=
  let s := s.ackGust (stewardId f)
  s.updField f fun x => if x.clock == .stopped then { x with clock := .waking, wakeDeferred := 0 } else x

def execStewardWakeOrder (field : Nat) (s : State) : Result := .next (opWake field s)

/-- WAKE_ABANDONED: counted and reported; the field keeps its previous state (R58, R332). -/
def opWakeAbandoned (f : Nat) (s : State) : State :=
  if (s.field f).clock != .waking then s else
  let cmd := (s.field f).taskCmd
  let s := s.updField f fun x => { x with clock := .stopped, wakeDeferred := 0, wakeForRebuild := false, task := 0, taskCmd := none }
  -- the order that asked for the wake ends for want of headroom (log entry 96)
  let s := match cmd with
    | none => s
    | some (seq, src, op) => s.reply src { seq := seq, opcode := op, status := .noResource, final := true }
  let s := if s.start.testField == some f then (s.updStart fun x => { x with testField := none, testCmd := none }).put Reg.Start.TEST_FIELD 0xFF else s
  (s.mark Reg.Pow.WAKE_ABANDONED).event { code := 0x0209, field := f, placement := placementByte (s.field f).placement }

def execWakeAbandoned (field : Nat) (s : State) : Result := .next (opWakeAbandoned field s)

/-- Current of a site's VLOG rail on the 12 V side by the highest forecast level of this tick and those to come, in mA: the words sent for them, and
the regulator's last word where none is (R326, R332). -/
def State.amps12 (s : State) (f : Nat) : Nat :=
  let x := s.field f
  let w := x.forecast.toNat
  let coming := (s.power.forecastLog.filter fun e => e.2.1 = f && decide (s.tick.count ≤ e.1)).map fun e => e.2.2
  let level := if coming.isEmpty then max (bits w 23 16) (max (bits w 15 8) (bits w 7 0)) else coming.foldl max 0
  if x.clock == .stopped || x.clock == .waking then 0
  else
    let a := if x.clock == .running then level else 30
    ceilDiv (a * x.vlogMv * 100) (92 * 12)

/-- Rated currents of the other domains of a site on the 12 V side, in mA (R325, R332): a rail current times its voltage over 0.92 x 12 V. -/
def otherAmps (f : Nat) : Nat :=
  let mA (amp mv : Nat) : Nat := ceilDiv (amp * mv * 100) (92 * 12)
  let home := homeSites.any fun e => fieldIndex e.1 e.2 == some f
  (if Config.serviceFields.contains f then mA 120 700 + mA 60 800 + mA 180 800 else mA 60 800 + mA 25 800)
    + (if home then mA 40 750 else 0)

/-- R332: both headrooms for a wake of a site. -/
def State.wakeFits (s : State) (f : Nat) : Bool :=
  let seg := (List.range 4).map fun i => 4 * (f / 4) + i
  let sum := seg.foldl (fun n g => n + s.amps12 g + otherAmps g) 0
  decide (sum + 6000 ≤ 105000) && decide (s.power.p1 + 100 ≤ s.power.capEff)

/-- Sites whose wake goes ahead at this boundary (R333): per segment the first of rebuilds, moves back and others in field order; with
the ladder engaged only rebuilds. The others are deferred. -/
def State.wakes (s : State) : State :=
  let waking := computeFields.filter fun f => (s.field f).clock == .waking
  let go := (List.range 22).filterMap fun n =>
    let mine := waking.filter fun f => f / 4 = n
    let reb := mine.filter fun f => (s.field f).wakeForRebuild
    let rest := if s.power.ladder = 0 then mine.filter fun f => !(s.field f).wakeForRebuild else []
    -- a field that wakes in role ACTIVE comes back to its work
    let back := rest.filter fun f => (s.field f).role == .active
    ((reb ++ back ++ rest).head?).filter s.wakeFits
  s.forAll waking fun s f =>
    if go.contains f then s.updField f fun x => { x with clock := .ramping, on := (x.on ||| 3) &&& (0xF ^^^ x.tripped) }
    else (s.updField f fun x => { x with wakeDeferred := min 1000 (x.wakeDeferred + 1) }).bump (Reg.Pow.WAKE_DEFERRED (f / 4))

/-- Address of a field window (R83). -/
def windowBase (f : Nat) : Nat := 0x100000 + 0x10000 * f

/-- A field reset (R83, R110, R140, R173, R207, R384, R439): the window's registers but for the router, power and thermal blocks, failed
cores, patches and lost hot spots. The field then wakes and is calibrated (R51, R57, R58). -/
def State.resetField (s : State) (f : Nat) : State :=
  let b := windowBase f
  let s := { s with
    regs := s.regs.filter fun e => !((b ≤ e.1 && e.1 < b + 0x7000) || (b + 0x8000 ≤ e.1 && e.1 < b + 0x9000))
    cores := s.cores.filter fun e => coreField e.1 ≠ f }
  let s := (s.put (Reg.Stratum.STRATUM_REPAIR f) 0).put (Reg.FTherm.LOST f) 0
  let s := s.updField f fun x => { x with
    failed := [], patches := [], nextPatches := [], absorb := [], absMap := [], unpatched := []
    spots := x.spots.map fun e => (e.1, { e.2 with lost := false }) }
  ((s.gaugeFields.gaugeWeights).copyWindow f).sendGust (stewardId f)

/-- Boundary steps of the stop sequence (R57): the field's endpoints become unreachable, then its clock stops. -/
def State.stops (s : State) : State :=
  s.forAll computeFields fun s f =>
    match (s.field f).clock with
    | .stopping off =>
      let s := (s.updField f fun x => { x with clock := .gated off }).setReach f false
      s.forAll (coresOf f) fun s c => s.updCore c fun k => { k with seq := {}, state := if k.state == .failed then .failed else .off }
    | .gated off =>
      let s := s.updField f fun x => { x with clock := .stopped, on := if off then x.on &&& 12 else x.on, patches := if off then [] else x.patches }
      let s := if off then s.banksDown f else s
      let s := (s.put (Reg.FPow.ON f) (s.field f).on).gaugeFields
      if (s.field f).task = 1 then s.resetField f else s
    | _ => s

/-! ### Bank initialisation (R69) -/

/-- BANK_INIT_COMPLETE: every word of the bank is zero with valid check symbols; the bank is usable. -/
def opBankInit (c b : Nat) (s : State) : State :=
  s.updCore c fun k =>
    if b < 16 && k.bankInit.getLsbD b then
      { k with bankInit := k.bankInit &&& ~~~(BitVec.ofNat 16 (2 ^ b)) }
    else k

def execBankInitComplete (core bank : Nat) (s : State) : Result := .next (opBankInit core bank s)

/-! ### The tick beacon (R45-R48) -/

/-- The word of the coming boundary (R46). -/
def beaconWord (relay lull : Bool) (level tick : Nat) : W32 :=
  let low := bit relay 24 + bit lull 23 + level % 128 * 65536 + tick % 65536
  BitVec.ofNat 32 (beaconCrc low * 2 ^ 25 + low)

/-- A beacon word's check bits are right. -/
def beaconGood (w : W32) : Bool := beaconCrc (w.toNat % 2 ^ 25) == w.toNat / 2 ^ 25

/-- Level of the word to come: the first boundary after Lull takes the level that was in force when Lull ended (R46, R48). -/
def State.levelToCome (s : State) : Nat := if s.tick.running || s.following then s.nextLevel else s.tick.level

/-- A Lull reaches the origin: set in the word to come, or in the one after it when that has begun (R48). -/
def State.askLull (s : State) : State :=
  s.updTick fun t =>
    if !t.running then
      if t.wordEmitted && t.lullEndAsked then { t with lullLate := true } else { t with lullEndAsked := false, lullLate := false }
    else if t.wordEmitted then { t with lullLate := true } else { t with lullAsked := true }

/-- BEACON_EMIT: the origin emits the word of the next boundary, and every ACTIVE link port sends it on (R45, R46, R317). -/
def opBeaconEmit (s : State) : State :=
  let t := s.tick
  let lull := if t.running then t.lullAsked else !t.lullEndAsked
  let level := s.levelToCome
  let s := s.updTick fun t => { t with wordEmitted := true }
  let word := beaconWord s.following lull level s.nextCount
  (s.emit (.beacon word)).sendBeacons (beaconWord true lull level s.nextCount) s.nextCount

def execBeaconEmit (s : State) : Result := .next (opBeaconEmit s)

/-- A measured offset leaves its branch usable: at most 62 cycles at level 0; a cycle there lasts 5,000/12 ps (R45). -/
def branchUsable (offset : Option Nat) : Bool := offset.any fun ps => decide (12 * ps ≤ 5000 * 62)

/-- Equalisation delay of a branch at a level: 96 cycles less the offset in cycles of that level, rounded to the nearest (R45). -/
def equalisation (level : Nat) (offset : Option Nat) : Nat :=
  let d := 25 * (200 + level)
  96 - (24 * offset.getD 0 + d) / (2 * d)

/-- The steward computes its delays for a level (R45). -/
def FieldSt.equalise (x : FieldSt) (level : Nat) : FieldSt :=
  { x with delayPrimary := equalisation level x.offsetPrimary, delayRedundant := equalisation level x.offsetRedundant }

/-- A branch passes: edge within one cycle of the calibrated offset, CHK correct, the branch usable (R45, R47). -/
def branchOk (offset : Option Nat) (b : Option BeaconRx) : Bool :=
  match b with
  | none => false
  | some r => branchUsable offset && decide (-1 ≤ r.edgeError) && decide (r.edgeError ≤ 1) && beaconGood r.word

/-- A field takes a beacon word: one whose TICK disagrees with the steward's own count is counted; the count stays (R47). -/
def FieldSt.takeBeacon (x : FieldSt) (count : Nat) (b : Option BeaconRx) : FieldSt :=
  { x with
    beaconOk := true, beaconMiss := 0
    tickMismatch := if b.any fun r => r.word.toNat % 65536 ≠ count % 65536 then x.tickMismatch + 1 else x.tickMismatch }

/-- BEACON_ARRIVAL: primary, else redundant, else the coming tick is missed (R47). -/
def opBeaconArrival (f : Nat) (a b : Option BeaconRx) (s : State) : State :=
  let x := s.field f
  if branchOk x.offsetPrimary a then s.updField f fun x => x.takeBeacon s.nextCount a
  else if branchOk x.offsetRedundant b then
    let t := (s.bump Reg.Evc.BEACON_ALT).mark Reg.Tick.BEACON_ALT
    t.updField f fun x => x.takeBeacon s.nextCount b
  else
    let s := s.updField f fun x => { x with beaconOk := false, beaconMiss := x.beaconMiss + 1 }
    let s := (s.bump Reg.Evc.BEACON_LOST).mark Reg.Tick.BEACON_LOST
    s.event { code := 0x0804, field := f, placement := placementByte x.placement, detail := [(40, (x.beaconMiss + 1) % 256)] }

def execBeaconArrival (field : Nat) (primary redundant : Option BeaconRx) (s : State) : Result :=
  .next (opBeaconArrival field primary redundant s)

/-- BEACON_LOSS_LIMIT: three ticks without a usable beacon; the field is lost (R47). -/
def execBeaconLossLimit (field : Nat) (s : State) : Result := .next (s.loseField field 4)

end Sys2Proof.Machine
end

