-- ==== Sys2Proof/Machine/Command.lean ====
section
/-! DEFINITION. What every host and BMC command shares: who may send it (R398, R428), the stored settings that take effect at a boundary
(R30, R388), and the checks of placement and airspace numbers. -/

namespace Sys2Proof.Machine

/-- Opcodes the BMC channel may send (R428). -/
def bmcOps : List Nat := [0x0101, 0x0102, 0x0104, 0x0201, 0x0202, 0x0204]

/-- A source may send an opcode (R398, R428); in Standby the BMC sends POWER_STATE and DEVICE_INFO only. -/
def State.mayOrder (s : State) (h : CmdHdr) (op : Nat) : Bool :=
  match h.src with
  | .host => true
  | .bmc => bmcOps.contains op && (s.start.power != .standby || op == 0x0101 || op == 0x0104)
  | _ => false

/-- Run a command's rule if its source may send it; else answer NOT_PERMITTED. -/
def State.ordered (s : State) (h : CmdHdr) (op : Nat) (k : State → State) : State :=
  if s.mayOrder h op then k s else s.answer h op .notPermitted

/-- The first fault in a list of (byte offset, in range). -/
def firstBad : List (Nat × Bool) → Option Nat
  | [] => none
  | (o, ok) :: rest => if ok then firstBad rest else some o

/-- Run a rule if every field is in range; else BAD_PARAMETER naming the first faulty one (R12, R391). -/
def State.checked (s : State) (h : CmdHdr) (op : Nat) (fields : List (Nat × Bool)) (k : State → State) : State :=
  match firstBad fields with
  | some o => s.badParam h op o
  | none => k s

/-- An order accepted in this control slot that takes effect at the next boundary: answered OK while ticks run, PENDING while none do
(R30, R388). -/
def State.atBoundary (s : State) (h : CmdHdr) (op : Nat) (i : Instr) : State :=
  let d (owed : Bool) : Deferred := ⟨i, s.tick.count + 1, owed⟩
  if s.tick.running then
    (s.updHost fun x => { x with deferred := x.deferred ++ [d false] }).answer h op .ok
  else (s.updHost fun x => { x with deferred := x.deferred ++ [d true] }).pend h op []

/-- The same for an order answered PENDING in every case. -/
def State.atBoundaryPending (s : State) (h : CmdHdr) (op : Nat) (i : Instr) : State :=
  (s.updHost fun x => { x with deferred := x.deferred ++ [⟨i, s.tick.count + 1, true⟩] }).pend h op []

/-- Final reply to a command known by its source, SEQ and opcode. -/
def State.finalReply (s : State) (src : Src) (seq op : Nat) (st : Status) : State :=
  s.reply src { seq := seq, opcode := op, status := st, final := true }

def placementOk (p : Nat) : Bool := decide (p < 4)
def airspaceOk (a : Nat) : Bool := decide (a < 8)

/-- The key slot of an airspace whose hash is given, and its key. -/
def State.keyOf (s : State) (a : Nat) (hash : List Byte) : Option (Nat × List Byte) :=
  (s.asp a).keys.find? fun e => sha512 e.2 == hash

end Sys2Proof.Machine
end

