-- ==== Sys2Proof/Machine/Image.lean ====
section
/-! DEFINITION. Yargon images (R147-R158, R171): the header, its signature, the manifest and its records, the chunk hash tree, and the
checks that refuse an image. -/

namespace Sys2Proof.Machine

/-- Little-endian field of n bytes at an offset (R9). -/
def fieldAt (b : List Byte) (o n : Nat) : Nat := leNat ((b.drop o).take n)
/-- Bytes from `o` to `hi`, exclusive, are all 0. -/
def zeroAt (b : List Byte) (o hi : Nat) : Bool := ((b.drop o).take (hi - o)).all (· == 0)
def bytesAt (b : List Byte) (o n : Nat) : List Byte := (b.drop o).take n

/-- Size of a chunk (R147). -/
def chunkBytes : Nat := 4194304

/-- Next multiple of 64. -/
def up64 (n : Nat) : Nat := ceilDiv n 64 * 64

/-! ### The hash tree (R154) -/

/-- Leaf n of a chunk. -/
def leafOf (n : Nat) (chunk : List Byte) : List Byte := sha512 ([0x00] ++ leBytes 8 n ++ chunk)

/-- One level up: pairs are hashed, an odd node rises unchanged. -/
def treeLevel : List (List Byte) → List (List Byte)
  | a :: b :: rest => sha512 ([0x01] ++ a ++ b) :: treeLevel rest
  | l => l

/-- The root; 18 levels cover 262,144 leaves. -/
def treeRoot : Nat → List (List Byte) → List Byte
  | 0, l => l.headD []
  | n + 1, l => if l.length ≤ 1 then l.headD [] else treeRoot n (treeLevel l)

/-- Cut the leaf table into leaves. -/
def leavesAt (m : List Byte) (o : Nat) : Nat → List (List Byte)
  | 0 => []
  | n + 1 => bytesAt m o 64 :: leavesAt m (o + 64) n

/-! ### Header (R148) -/

def imageMagic : List Byte := [0x59, 0x47, 0x4E, 0x49, 0x4D, 0x47, 0x30, 0x31]

def hdrKind (h : List Byte) : Nat := fieldAt h 10 2
def hdrChunks (h : List Byte) : Nat := fieldAt h 36 4
def hdrManifestLen (h : List Byte) : Nat := fieldAt h 40 4
def hdrFields (h : List Byte) : Nat := fieldAt h 28 4
def hdrStages (h : List Byte) : Nat := fieldAt h 32 4

/-- The header's own ranges for a kind of transfer. -/
def headerFits (h : List Byte) (kind : Nat) : Bool :=
  let counts := if kind = 0 then decide (1 ≤ hdrFields h) && decide (hdrFields h ≤ 84) && decide (1 ≤ hdrStages h) && decide (hdrStages h ≤ 1023)
    else hdrFields h == 0 && hdrStages h == 0
  (bytesAt h 0 8 == imageMagic) && fieldAt h 8 2 == 1 && hdrKind h == kind && zeroAt h 12 16 && fieldAt h 16 8 != 0
    && counts && decide (1 ≤ hdrChunks h) && decide (hdrChunks h ≤ 262144) && hdrManifestLen h % 4096 == 0 && zeroAt h 44 48 && zeroAt h 240 512

/-! ### The manifest of a weight image (R150-R153) -/

def parseStage (m : List Byte) (i : Nat) : StageRec :=
  let o := 256 + 16 * i
  { layer := fieldAt m o 2, kind := fieldAt m (o + 2) 1, windowed := fieldAt m (o + 3) 1 % 2 == 1, window := fieldAt m (o + 4) 4
    kvWords := fieldAt m (o + 8) 4, cores := fieldAt m (o + 12) 2 }

def stageFits (m : List Byte) (i : Nat) : Bool :=
  let o := 256 + 16 * i
  decide (fieldAt m (o + 2) 1 ≤ 4) && decide (fieldAt m (o + 3) 1 ≤ 1) && zeroAt m (o + 14) (o + 16)

def parseField (m : List Byte) (o : Nat) : FieldRec :=
  { field := fieldAt m o 2, role := fieldAt m (o + 2) 1, twin := fieldAt m (o + 3) 1, firstChunk := fieldAt m (o + 4) 4
    chunks := fieldAt m (o + 8) 4, regionBytes := fieldAt m (o + 16) 8 }

def fieldRecFits (m : List Byte) (o : Nat) : Bool :=
  let r := parseField m o
  (r.role == 1 || r.role == 2) && decide (r.field < 88) && (r.role == 1 || r.chunks == 0) && (r.twin == 0xFF || decide (r.twin < 88))
    && decide (r.regionBytes ≤ 6408896512) && decide (r.regionBytes ≤ r.chunks * chunkBytes) && zeroAt m (o + 12) (o + 16) && zeroAt m (o + 24) (o + 64)

/-- Field indices strictly rise. -/
def rising : List Nat → Bool
  | a :: b :: rest => decide (a < b) && rising (b :: rest)
  | _ => true

/-- Chunk ranges, taken in order of their first chunk, cover 0 .. n−1 exactly (R153). -/
def coversFrom : Nat → Nat → List FieldRec → Bool
  | 0, _, _ => true
  | fuel + 1, at_, rs =>
    match rs.find? fun r => r.firstChunk = at_ && 0 < r.chunks with
    | none => rs.all fun r => r.chunks == 0
    | some r => coversFrom fuel (at_ + r.chunks) (rs.filter fun q => q.field ≠ r.field)

def coversChunks (rs : List FieldRec) (n : Nat) : Bool :=
  (rs.map FieldRec.chunks).foldl (· + ·) 0 == n && coversFrom (rs.length + 1) 0 rs

/-- Named twin pairs obey R164 as far as an image can say. -/
def twinsFit (rs : List FieldRec) : Bool :=
  let act := (rs.filter fun r => r.role = 1).map FieldRec.field
  let named := rs.filter fun r => r.twin ≠ 0xFF
  named.all (fun r => r.role == 1 && r.twin != r.field && act.contains r.twin && decide (3 ≤ dist r.field r.twin))
    && named.all fun r => (named.filter fun q => q.twin = r.twin).length == 1

/-- Model record ranges (R151). -/
def modelFits (m : List Byte) : Bool :=
  let f (o n : Nat) : Nat := fieldAt m o n
  f 4 4 % 64 == 0 && decide (0 < f 10 2) && f 8 2 % max 1 (f 10 2) == 0 && (f 12 2 == 64 || f 12 2 == 128 || f 12 2 == 256)
    && (if f 14 2 = 0 then f 16 2 == 0 else decide (1 ≤ f 16 2) && decide (f 16 2 ≤ 16))
    && decide (1 ≤ f 24 4) && decide (f 24 4 ≤ 262144) && decide (f 32 1 < 16) && decide (1 ≤ f 33 1) && decide (f 33 1 ≤ 16)
    && decide (f 34 1 ≤ 60) && decide (2 ≤ f 35 1) && decide (f 35 1 ≤ 20) && decide (f 52 4 ≤ 64) && zeroAt m 72 256

/-- The image a header and manifest describe. -/
def parseImage (h m : List Byte) : Image :=
  let ns := hdrStages h
  let nf := hdrFields h
  let o := 256 + 16 * ns
  let f (a n : Nat) : Nat := fieldAt m a n
  { imageId := fieldAt h 16 8, version := fieldAt h 24 4, headerHash := sha512 h, keyHash := bytesAt h 176 64
    layers := f 0 4, hidden := f 4 4, qHeads := f 8 2, kvHeads := f 10 2, headDim := f 12 2, vocab := f 24 4, maxContext := f 28 4
    classMask := f 32 1, maxDepth := f 33 1, prefillPct := f 34 1, rrPct := f 35 1, decodeLen := f 36 4, exchange := f 40 4
    absorb := f 44 4, period := f 48 4, adapterRank := f 52 4
    stages := (List.range ns).map (parseStage m), fields := (List.range nf).map fun i => parseField m (o + 64 * i)
    leaves := leavesAt m (up64 (o + 64 * nf)) (hdrChunks h) }

/-- A placement may take a field (R21): a pool field, not lost, not in another placement that is live, staged or being installed. -/
def State.fieldFree (s : State) (p f : Nat) : Bool :=
  let x := s.field f
  !Config.serviceFields.contains f && !Config.factoryClearings.contains f && x.role != .lost && !x.lossPending
    && (x.placement.isNone || x.placement == some p)
    && (List.range 4).all (fun q => q = p || !((s.plc q).staged.any fun i => i.fields.any fun r => r.field = f))
    && !(s.transfers.any fun t => t.placement ≠ p && t.kind = 0 && t.image.any fun i => i.fields.any fun r => r.field = f)

/-- R158: the manifest is accepted. -/
def State.manifestFits (s : State) (p : Nat) (h m : List Byte) : Bool :=
  let ns := hdrStages h
  let nf := hdrFields h
  let i := parseImage h m
  let o := 256 + 16 * ns
  let last := up64 (o + 64 * nf) + 64 * hdrChunks h
  sha512 m == bytesAt h 48 64 && treeRoot 19 i.leaves == bytesAt h 112 64
    && m.length == ceilDiv last 4096 * 4096 && zeroAt m last m.length && zeroAt m (o + 64 * nf) (up64 (o + 64 * nf))
    && modelFits m && (List.range ns).all (stageFits m) && (List.range nf).all (fun n => fieldRecFits m (o + 64 * n))
    && rising (i.fields.map FieldRec.field) && coversChunks i.fields (hdrChunks h) && twinsFit i.fields
    && (i.fields.all fun r => s.fieldFree p r.field)
    && planPeriod i.decodeLen i.prefillPct i.exchange i.absorb i.rrPct == some i.period

/-! ### Adapter packages and tuning kits (R171) -/

/-- An adapter record's core entries: core, words, payload offset. -/
def adapterCores (m : List Byte) : List (Nat × Nat × Nat) :=
  (List.range (fieldAt m 18 2)).map fun n => (fieldAt m (32 + 16 * n) 2, fieldAt m (36 + 16 * n) 4, fieldAt m (40 + 16 * n) 8)

/-- Hash, tree and layout of a package whose record ends at `rec` (R170): the leaf table stands at the next multiple of 64. -/
def packageFits (h m : List Byte) (rec : Nat) : Bool :=
  let last := up64 rec + 64 * hdrChunks h
  sha512 m == bytesAt h 48 64 && treeRoot 19 (leavesAt m (up64 rec) (hdrChunks h)) == bytesAt h 112 64
    && m.length == ceilDiv last 4096 * 4096 && zeroAt m last m.length && zeroAt m rec (up64 rec)

/-- Shape and range checks of an adapter record against the live model. -/
def adapterFits (m : List Byte) (id : Nat) (i : Image) : Bool :=
  fieldAt m 0 2 == id && decide (1 ≤ fieldAt m 2 2) && decide (fieldAt m 2 2 ≤ i.adapterRank) && fieldAt m 4 4 == i.layers
    && fieldAt m 8 4 == i.hidden && fieldAt m 12 2 == i.qHeads && fieldAt m 14 2 == i.kvHeads && fieldAt m 16 2 == i.headDim
    && zeroAt m 20 32 && (List.range (fieldAt m 18 2)).all fun n => zeroAt m (34 + 16 * n) (36 + 16 * n)

end Sys2Proof.Machine
end

