-- ==== Sys2Proof/Machine/Weights.lean ====
section
/-! DEFINITION. Weights: transfers and their chunks (R159, R160, R259, R260), adapters and tuning kits (R170-R172, R267-R270), bank flips
and plan loads (R36, R162, R163), removal, rebuild and repair (R163, R167, R169), and stratum scrub (R168). -/

namespace Sys2Proof.Machine

/-! ### Cloudbank pages by byte -/

/-- Write bytes at a byte offset of a run of partition pages; bytes on absent pages go nowhere. -/
def State.writePages (s : State) (a : Nat) (pages : List Nat) : Nat → List Byte → State
  | _, [] => s
  | o, b :: bs =>
    match (pages[o / 65536]?).bind (s.cloudPage (s.asp a).stripes) with
    | none => s
    | some (st, base) => (s.updStack st fun m => { m with mem := m.mem.write (base + o % 65536) b }).writePages a pages (o + 1) bs

/-- Read bytes from a run of partition pages; none: a page is absent. -/
def State.readPages (s : State) (a : Nat) (pages : List Nat) (len : Nat) : Option (List Byte) :=
  if pages.all fun n => (s.cloudPage (s.asp a).stripes n).isSome then
    some ((List.range len).map fun o =>
      match (pages[o / 65536]?).bind (s.cloudPage (s.asp a).stripes) with
      | none => 0
      | some (st, base) => (s.stack st).mem.read (base + o % 65536))
  else none

/-! ### Adapter version slots (R170, R172) -/

/-- Segments of a core's adapter pool that version slots and a tuning job hold. -/
def PlacementSt.adapterHeld (x : PlacementSt) (c : Nat) : List Nat :=
  let slots := x.adapters.flatMap fun e => (e.2.slotA.toList ++ e.2.slotB.toList).flatMap fun v => v.cores
  (slots.filter fun q => q.1 = c).flatMap (fun q => (List.range q.2.2.1).map (· + q.2.1))
    ++ (x.tune.areas.filter fun q => q.1 = c).flatMap fun q =>
      let words := ceilDiv q.2.2.2 16
      (List.range (ceilDiv words 2048)).map (· + q.2.1 / 2048)
        ++ (if x.tune.workFreed then [] else (List.range (ceilDiv (7 * words) 2048)).map (· + q.2.2.1 / 2048))

/-- Lowest run of whole free segments of a core's adapter pool that holds a number of words, outside `more`. -/
def State.adapterRun (s : State) (p c words : Nat) (more : List Nat) : Option Nat :=
  let held := (s.plc p).adapterHeld c ++ more
  let free := (s.core c).adapterSegs.filter fun g => !held.contains g
  (takeRun (2048 * ceilDiv words 2048) (segRuns free)).map fun r => r.1 / 2048

/-- A slot in every named core: (core, first segment, segments, words); none: one does not fit. -/
def State.adapterPlace (s : State) (p : Nat) : List (Nat × Nat) → Option (List (Nat × Nat × Nat × Nat))
  | [] => some []
  | (c, w) :: rest =>
    match s.adapterRun p c w [], s.adapterPlace p rest with
    | some g, some l => some ((c, g, ceilDiv w 2048, w) :: l)
    | _, _ => none

/-- Tag the segments of a version slot for its owner, or free them with tag 0xF (R72). -/
def State.tagSlot (s : State) (a : Nat) (cores : List (Nat × Nat × Nat × Nat)) : State :=
  cores.foldl (fun s q => s.tagSegs q.1 a ((List.range q.2.2.1).map (· + q.2.1))) s

/-- Write a version slot's words in its cores from their concatenation. -/
def State.fillSlot (s : State) : List (Nat × Nat × Nat × Nat) → List Byte → State
  | [], _ => s
  | q :: rest, bytes =>
    let n := 32 * q.2.2.2
    (s.poke q.1 (65536 * q.2.1) (bytes.take n)).fillSlot rest (bytes.drop n)

/-- Replace an adapter ID's version slots. -/
def PlacementSt.updAdapter (x : PlacementSt) (id : Nat) (g : AdapterSt → AdapterSt) : PlacementSt :=
  match x.adapters.find id with
  | none => x
  | some e => { x with adapters := x.adapters.set id (g e) }

/-- Free the pages of a version's backing copy. -/
def State.freeBacking (s : State) (a : Nat) (v : Option AdapterSlot) : State :=
  match v with
  | none => s
  | some v => s.freePages a v.backing

/-- A version slot is released (R172). The ID stays its owner's until its removal (R170): a retiring ID goes with its last version. -/
def State.releaseVersion (s : State) (p id version : Nat) : State :=
  match (s.plc p).adapters.find id with
  | none => s
  | some e =>
    let s := s.freeBacking e.owner (e.slotOf version)
    let s := match e.slotOf version with
      | none => s
      | some v => s.tagSlot 0xF v.cores
    let keep (v : Option AdapterSlot) : Option AdapterSlot := v.filter fun y => y.version ≠ version
    let e' := { e with slotA := keep e.slotA, slotB := keep e.slotB }
    s.updPlc p fun x => { x with adapters := if e.retiring && e'.slotA.isNone && e'.slotB.isNone then x.adapters.del id else x.adapters.set id e' }

/-- Sessions pinned to a version: those with a lane or promise, and paused ones while their KV is held (R172). -/
def State.pinned (s : State) (p id version : Nat) : Bool :=
  s.sessIds.any fun n =>
    let d := s.sess n
    d.placement == p && d.adapterId == some id && d.adapterVersion == version
      && (d.st.promises || d.st == .draining || (d.st == .paused && d.kvHeld))

/-- Release versions that nothing holds: not current, or of a retiring ID (R172). A tuning result is not one of them. -/
def State.sweepAdapters (s : State) : State :=
  s.forAll (List.range 4) fun s p =>
    let s := s.updPlc p fun x => { x with adapters := x.adapters.filter fun e => !(e.2.retiring && e.2.slotA.isNone && e.2.slotB.isNone) }
    (s.plc p).adapters.foldl (fun s e =>
      (e.2.slotA.toList ++ e.2.slotB.toList).foldl (fun s v =>
        if (!v.current || e.2.retiring) && v.atBoundary.isNone && !s.pinned p e.1 v.version then s.releaseVersion p e.1 v.version else s) s) s

/-! ### Transfers (R159, R259, R260) -/

def State.updTransfer (s : State) (n : Nat) (g : Transfer → Transfer) : State :=
  { s with transfers := s.transfers.map fun t => if t.number = n then g t else t }

/-- A CHUNK_ACK of 40 bytes leaves for a source (R246, R260). No port is named for it: it leaves by the lowest-numbered one whose link is
up (DESIGN CHOICE, log entry 124). -/
def State.sendChunkAck (s : State) (airspace source transfer result chunk done : Nat) : State :=
  s.sendDatagram airspace 0 40 (isV4 source) (.chunkAck source transfer result chunk done)

/-- CHUNK_ACK to the transfer's source (R260). -/
def State.chunkAck (s : State) (t : Transfer) (result chunk : Nat) : State :=
  s.sendChunkAck t.airspace t.source t.number result chunk t.done.length

/-- Progress registers (R174). -/
def State.gaugeTransfer (s : State) (t : Transfer) : State :=
  if 2 ≤ t.kind then s
  else (s.put (Reg.Plc.CHUNKS_DONE t.placement) t.done.length).put (Reg.Plc.CHUNKS_TOTAL t.placement) t.total

def ackLead : Nat := 0xFFFFFFFF

/-- Open a transfer: its number is returned in the PENDING reply (R259, R405). -/
def State.openTransfer (s : State) (h : CmdHdr) (op : Nat) (t : Transfer) : State :=
  let n := s.nextTransfer
  let t := { t with number := n, cmdSeq := h.seq, cmdSrc := h.src, cmdOp := opOf h op }
  let s := { s with transfers := s.transfers ++ [t], nextTransfer := if n ≥ 65535 then 1 else n + 1 }
  (s.gaugeTransfer t).pend h op [(0, 2, n)]

/-- The image state a placement has by what its standby banks hold. -/
def State.heldState (s : State) (p : Nat) : BankState :=
  match (s.plc p).staged with
  | none => .empty
  | some i =>
    let act := (i.fields.filter fun r => r.role = 1).map fun r =>
      let x := s.field ((s.plc p).partSite r.field)
      if x.role == .lost || x.lossPending then .incomplete else (x.bank (s.plc p).stagedBank).st
    if act.all (· == .previous) then .previous else if act.all (· == .staged) then .staged else .incomplete

/-- A tuning job's region slots are released (R276); its slots carry the number 4096 + p. -/
def State.freeTuneRegions (s : State) (p : Nat) : State :=
  s.forAll (List.range 8) fun s a => s.updAsp a fun x => { x with carvings := x.carvings.map fun cv =>
    { cv with slots := cv.slots.map fun e => if e.2.2 == some (4096 + p) then (e.1, e.2.1, none) else e } }

/-- Segments of a tuning job's slot and of its work area in one core. -/
def tuneSlotSegs (q : Nat × Nat × Nat × Nat) : List Nat := (List.range (ceilDiv (ceilDiv q.2.2.2 16) 2048)).map (· + q.2.1 / 2048)
def tuneWorkSegs (q : Nat × Nat × Nat × Nat) : List Nat := (List.range (ceilDiv (7 * ceilDiv q.2.2.2 16) 2048)).map (· + q.2.2.1 / 2048)

/-- The areas of a placement's tuning job are given back: the work areas, and the slots unless they hold a version now (R72, R277). -/
def State.freeAreas (s : State) (p : Nat) (slots : Bool) : State :=
  let j := (s.plc p).tune
  let s := j.areas.foldl (fun s q => s.tagSegs q.1 0xF ((if slots then tuneSlotSegs q else []) ++ (if j.workFreed then [] else tuneWorkSegs q))) s
  s.updPlc p fun x => { x with tune := { x.tune with areas := [], held := false } }

/-- A job that holds a result gives back its work areas (R276). -/
def State.freeWork (s : State) (p : Nat) : State :=
  let j := (s.plc p).tune
  if j.workFreed then s
  else (j.areas.foldl (fun s q => s.tagSegs q.1 0xF (tuneWorkSegs q)) s).updPlc p fun x => { x with tune := { x.tune with workFreed := true } }

/-- Registers of R278. -/
def State.gaugeTune (s : State) (p : Nat) : State :=
  let j := (s.plc p).tune
  let s := s.put (Reg.Tune.STATE p) (match j.st with
    | .none => 0 | .loading => 1 | .running => 2 | .done => 3 | .stopped => 4 | .failed => 5)
  let s := (s.put (Reg.Tune.AIRSPACE p) j.airspace).put (Reg.Tune.ADAPTER_ID p) j.adapter
  ((s.put (Reg.Tune.STEP p) j.step).put (Reg.Tune.STEPS_TOTAL p) j.steps).put (Reg.Tune.LOSS p) j.loss.toNat

/-- A tuning job fails: its region slots and its result go (R276, R277). -/
def State.failTune (s : State) (p : Nat) : State :=
  let j := (s.plc p).tune
  let s := ((s.freeTuneRegions p).freeAreas p true).updPlc p fun x => { x with tune := { x.tune with st := .failed } }
  let s := if j.cmdOp = 0 then s else s.finalReply j.cmdSrc j.cmdSeq j.cmdOp .noResource
  (s.updPlc p fun x => { x with tune := { x.tune with cmdOp := 0 } }).gaugeTune p

/-- The slot a tuning job fills is released with its result. -/
def State.dropTune (s : State) (p : Nat) : State :=
  (((s.freeTuneRegions p).freeAreas p true).updPlc p fun x => { x with tune := {} }).gaugeTune p

/-- What a transfer had claimed is given back: an installation's banks are EMPTY, and so is its image (R159, R160); a rebuild's banks of an
INCOMPLETE image are EMPTY again. -/
def State.releaseClaims (s : State) (t : Transfer) : State :=
  let p := t.placement
  let x := s.plc p
  let clear (b : Bank) : Bank := { b with st := .empty, mem := [], err := [], leaves := [] }
  match t.kind, t.image with
  | 0, none => s.updPlc p fun y => { y with imageState := s.heldState p }
  | 0, some i =>
    let s := s.forAll ((i.fields.filter fun (r : FieldRec) => r.role = 1).map fun (r : FieldRec) => x.partSite r.field) fun s f =>
      s.updBank f x.stagedBank fun (b : Bank) => if b.st == .installing || b.st == .staged || b.st == .incomplete then clear b else b
    s.updPlc p fun y => { y with imageState := .empty, staged := none, stagedAt := [] }
  | 1, some _ =>
    let supply := t.fields.filter fun f => !(x.moves.any fun mv => mv.field = f)
    s.forAll (supply.map x.partSite) fun s f => s.updBank f x.stagedBank fun (b : Bank) => if b.st == .installing then clear b else b
  | _, _ => s

/-- A transfer ends: its chunks go, what it claimed is given back unless it succeeded, and the command gets its final reply (R159, R260). -/
def State.endTransfer (s : State) (t : Transfer) (st : Status) : State :=
  let ok := st == .ok
  let s := { s with
    transfers := s.transfers.filter fun y => y.number ≠ t.number
    assemblies := s.assemblies.filter fun y => y.transfer ≠ t.number
    chunkStore := s.chunkStore.filter fun y => y.1 ≠ t.number }
  let p := t.placement
  let s := match t.image with
    | none => s
    | some i => s.forAll (i.fields.flatMap fun (r : FieldRec) => [(s.plc p).siteOf r.field, (s.plc p).partSite r.field]) fun s f =>
        s.updField f fun x => { x with writeQueue := [] }
  let s := if ok then s else
    match t.kind, t.image with
    | 0, none => s.releaseClaims t
    | 0, some _ => (s.releaseClaims t).buildTwins p
    | 1, _ => s.releaseClaims t
    | 3, _ => match t.slot with
      | none => s
      | some v => s.releaseVersion p t.adapter v
    | 4, _ => s.dropTune p
    | _, _ => s
  let s := s.chunkAck t (if ok then 6 else 7) ackLead
  let s := s.gaugeWeights
  if t.kind = 4 && ok then s else s.finalReply t.cmdSrc t.cmdSeq t.cmdOp st

/-- The record of a chunk's field. -/
def Image.recOf (i : Image) (chunk : Nat) : Option FieldRec :=
  i.fields.find? fun r => r.role = 1 && r.firstChunk ≤ chunk && chunk < r.firstChunk + r.chunks

/-- Where a field's chunks are written: site and bank. An installation writes the standby bank of the field that its record names, or of the
one that took that field's work, while it is not lost; a rebuild writes the clearing of the field's move, or supplies an INCOMPLETE image
(R159, R167). -/
def State.chunkTarget (s : State) (t : Transfer) (r : FieldRec) : Option (Nat × Nat) :=
  let x := s.plc t.placement
  let site := x.partSite r.field
  let staged := if (s.field site).role == .lost || (s.field site).lossPending then none else some (site, x.stagedBank)
  if t.kind = 0 then staged
  else match x.moves.find? fun m => m.field = r.field && m.activeAt.isNone with
    | some m => some (m.clearing, x.liveBank)
    | none => if x.imageState == .incomplete then staged else none

/-- Leaf n the chunk of a transfer must match. -/
def Transfer.leaf (t : Transfer) (n : Nat) : List Byte :=
  match t.image with
  | some i => i.leaves.getD n []
  | none => match t.leading with
    | none => []
    | some l =>
      let rec_ := 32 + 16 * fieldAt l (4096 + 18) 2 + if t.kind = 4 then 64 else 0
      bytesAt l (4096 + up64 rec_ + 64 * n) 64

/-- Chunks a transfer takes. -/
def Transfer.wants (t : Transfer) (n : Nat) : Bool :=
  match t.kind with
  | 0 => (t.image.bind fun i => i.recOf n).isSome
  | 1 => (t.image.bind fun i => i.recOf n).any fun r => t.fields.contains r.field
  | 2 => t.repairs.any fun e => e.2.2 = n
  | _ => decide (n < t.total)

/-! ### The leading part (steps 2-4 of R159) -/

/-- Claim the standby banks of the named fields; NO_RESOURCE when one is CLOSED. -/
def State.claimBanks (s : State) (t : Transfer) (i : Image) : Except Status State :=
  let p := t.placement
  let bank := 1 - (s.plc p).liveBank
  let act := (i.fields.filter fun r => r.role = 1).map FieldRec.field
  if act.any fun f => ((s.field f).bank bank).worn then .error .noResource
  else
    let s := s.dropMirrors p
    let s := s.updPlc p fun x => { x with staged := none, stagedAt := [], stagedBank := bank, imageState := .installing }
    let s := s.forAll act fun s f =>
      (s.beginWrite f bank).updBank f bank fun b => { b with st := .installing, mem := [], err := [], leaves := [] }
    .ok (s.updTransfer t.number fun y => { y with image := some i, total := i.leaves.length })

/-- Where the part of an image field that is to be supplied anew goes: where it stood, or with the field that took a lost one's work (R167). -/
def State.supplySite (s : State) (p f : Nat) : Nat :=
  let q := (s.plc p).partSite f
  if (s.field q).role == .lost then (s.plc p).siteOf f else q

/-- A weight image's leading part. -/
def State.leadWeights (s : State) (t : Transfer) (h m : List Byte) : Except Status State :=
  let x := s.plc t.placement
  if t.kind = 0 then
    let lower := x.live && x.image.any fun i => i.imageId == fieldAt h 16 8 && decide (fieldAt h 24 4 < i.version)
    if lower && !t.older then .error .notPermitted
    else if !s.manifestFits t.placement h m then .error .badParameter
    else s.claimBanks t (parseImage h m)
  else
    -- rebuild and repair bring chunks of the image the placement holds
    let held := if t.kind = 1 && !(x.moves.any fun mv => t.fields.contains mv.field) then x.staged else x.image
    match held with
    | none => .error .badParameter
    | some i =>
      if i.headerHash == sha512 h && sha512 m == bytesAt h 48 64 then
        let total := if t.kind = 2 then t.repairs.length
          else ((i.fields.filter fun r => t.fields.contains r.field).map FieldRec.chunks).foldl (· + ·) 0
        let s := s.updTransfer t.number fun y => { y with image := some i, total := total }
        -- banks of an INCOMPLETE image are written anew; those of a move were claimed with its clearing
        let supply := if t.kind = 1 then t.fields.filter fun f => !(x.moves.any fun mv => mv.field = f) else []
        .ok (s.forAll supply fun s f =>
          let q := s.supplySite t.placement f
          let s := if q = f then s else s.updPlc t.placement fun y => { y with stagedAt := (y.stagedAt.filter fun e => e.1 != f) ++ [(f, q)] }
          (s.beginWrite q x.stagedBank).updBank q x.stagedBank fun b => { b with st := .installing, mem := [], err := [], leaves := [] })
      else .error .badParameter

/-- The core entries of a package lie in the placement. -/
def State.coresFit (s : State) (p : Nat) (l : List (Nat × Nat × Nat)) : Bool :=
  l.all fun q => isCore q.1 && (s.field (coreField q.1)).role == .active && (s.field (coreField q.1)).placement == some p

/-- Next version number of an ID (R170). -/
def nextVersion (n : Nat) : Nat := if n ≥ 65535 then 1 else n + 1

/-- An adapter package's leading part: shape, then a slot in every named core (R170-R172). -/
def State.leadAdapter (s : State) (t : Transfer) (h m : List Byte) : Except Status State :=
  let p := t.placement
  match (s.plc p).image with
  | none => .error .badParameter
  | some i =>
    let cs := adapterCores m
    if !packageFits h m (32 + 16 * cs.length) || !adapterFits m t.adapter i || !s.coresFit p cs then .error .badParameter
    else match s.adapterPlace p (cs.map fun q => (q.1, q.2.1)) with
      | none => .error .noResource
      | some place =>
        let e := (s.plc p).adapters.getD t.adapter
          { owner := t.airspace, slotA := none, slotB := none, retiring := false, lastVersion := 0, layers := i.layers, hidden := i.hidden
            qHeads := i.qHeads, kvHeads := i.kvHeads, headDim := i.headDim }
        let v : AdapterSlot :=
          { version := nextVersion e.lastVersion, current := false, pinned := 0, keyHash := bytesAt h 176 64, backing := []
            atBoundary := some (2 ^ 64), cores := place }
        let e := if e.slotA.isNone then { e with slotA := some v } else { e with slotB := some v }
        let s := s.updPlc p fun x => { x with adapters := x.adapters.set t.adapter { e with
          lastVersion := v.version, layers := i.layers, hidden := i.hidden, qHeads := i.qHeads, kvHeads := i.kvHeads, headDim := i.headDim } }
        let s := s.tagSlot t.airspace place
        .ok (s.updTransfer t.number fun y => { y with slot := some v.version, total := hdrChunks h })

/-- Pages of a tuning job's save area (R271): per token and stage the input as MXFP8 and m, l of every query head. -/
def savePages (i : Image) (batch seqMax : Nat) : Nat :=
  let record := ceilDiv (96 * ceilDiv i.hidden 64 + 8 * i.qHeads) 32 * 32
  ceilDiv (i.stages.length * batch * seqMax * record) 65536

/-- A tuning record's value or its default (R268). -/
def tuneValue (v : Nat) (dflt : W32) : W32 := if v = 0 then dflt else BitVec.ofNat 32 v

/-- Ranges of the tuning record at offset `o`. -/
def tuneFits (m : List Byte) (o : Nat) : Bool :=
  let f (a n : Nat) : Nat := fieldAt m (o + a) n
  let pos1 (v : Nat) : Bool := decide (0 < v) && decide (v ≤ 0x3F800000)
  let open1 (v : Nat) : Bool := v == 0 || (decide (0 < v) && decide (v < 0x3F800000))
  decide (1 ≤ f 0 4) && decide (f 0 4 ≤ 1000000) && decide (1 ≤ f 4 2) && decide (f 4 2 ≤ 16) && f 6 2 == 0
    && decide (2 ≤ f 8 4) && decide (f 8 4 ≤ 8192) && decide (1 ≤ f 12 4) && decide (f 12 4 ≤ 1048576)
    && pos1 (f 16 4) && open1 (f 20 4) && open1 (f 24 4) && (f 28 4 == 0 || pos1 (f 28 4)) && decide (f 32 4 ≤ 0x3F800000) && f 36 4 == 0

/-- A slot and a work area of seven times its size in every named core (R270): (core, slot word, work word, parameters). -/
def State.tunePlace (s : State) (p : Nat) : List (Nat × Nat) → Option (List (Nat × Nat × Nat × Nat))
  | [] => some []
  | (c, w) :: rest =>
    match s.adapterRun p c w [], s.tunePlace p rest with
    | some g, some l =>
      match s.adapterRun p c (7 * w) ((List.range (ceilDiv w 2048)).map (· + g)) with
      | some k => some ((c, 2048 * g, 2048 * k, 16 * w) :: l)
      | none => none
    | _, _ => none

/-- Give a tuning job `batch` region slots of a class in every core of the airspace, with their block maps (R188, R270). -/
def State.takeTuneRegions (s : State) (p a cls batch : Nat) : Option State :=
  let cvs := (s.asp a).carvings
  let free (cv : Carving) : List Nat := ((cv.slots.filter fun e => e.1 = cls && e.2.2.isNone).map fun e => e.2.1).take batch
  if cvs.any fun cv => decide ((free cv).length < batch) then none
  else
    let map (s : State) (c b : Nat) : State :=
      let (split, share) := s.kvShare c
      s.updCore c fun k => { k with
        mem := k.mem.writeBytes (32 * b) (mapBytes split share (mapEntries cls split) (s.kvBlock c) (b + mapWords cls split) [] []) }
    let s := cvs.foldl (fun s cv => (free cv).foldl (fun s b => map s cv.core b) s) s
    some (s.updAsp a fun x => { x with carvings := x.carvings.map fun cv =>
      { cv with slots := cv.slots.map fun e => if (free cv).contains e.2.1 then (e.1, e.2.1, some (4096 + p)) else e } })

/-- A tuning kit's leading part: records, then the resources of R270. -/
def State.leadKit (s : State) (t : Transfer) (h m : List Byte) : Except Status State :=
  let p := t.placement
  match (s.plc p).image with
  | none => .error .badParameter
  | some i =>
    let cs := adapterCores m
    let o := 32 + 16 * cs.length
    if !packageFits h m (o + 64) || !adapterFits m t.adapter i || !s.coresFit p cs || !tuneFits m o then .error .badParameter
    else
      let f (a n : Nat) : Nat := fieldAt m (o + a) n
      match s.tunePlace p (cs.map fun q => (q.1, q.2.1)) with
      | none => .error .noResource
      | some areas =>
        let cls := [0, 1, 2, 3].find? fun c => bits i.classMask c c = 1 && decide (f 8 4 ≤ classLen c)
        match cls.bind fun c => s.takeTuneRegions p t.airspace c (f 4 2) with
        | none => .error .noResource
        | some s =>
          if (s.asp t.airspace).window ≤ f 56 4 || (s.asp t.airspace).window < f 60 4 + savePages i (f 4 2) (f 8 4) then .error .noResource
          else
            let s := areas.foldl (fun s q =>
              s.tagSegs q.1 t.airspace (tuneSlotSegs q ++ tuneWorkSegs q)) s
            let s := s.updPlc p fun x => { x with tune := { x.tune with
              steps := f 0 4, batch := f 4 2, seqMax := f 8 4, seqCount := f 12 4, lr := BitVec.ofNat 32 (f 16 4)
              beta1 := tuneValue (f 20 4) 0x3F666666, beta2 := tuneValue (f 24 4) 0x3F7FBE77, eps := tuneValue (f 28 4) 0x322BCC77
              decay := BitVec.ofNat 32 (f 32 4), seed := BitVec.ofNat 64 (f 40 8), dataPage := f 56 4, savePage := f 60 4
              keyHash := bytesAt h 176 64, areas := areas } }
            .ok (s.updTransfer t.number fun y => { y with total := hdrChunks h })

/-- The leading part is complete: header, signature, manifest (steps 2-4 of R159). -/
def State.lead (s : State) (t : Transfer) (l : List Byte) : State :=
  let h := l.take 512
  let m := l.drop 4096
  let s := s.updTransfer t.number fun y => { y with leading := some l }
  let t := { t with leading := some l }
  let kind := if t.kind ≤ 2 then 0 else t.kind - 2
  if !headerFits h kind || !zeroAt l 1024 4096 then s.endTransfer t .badParameter
  else match s.keyOf t.airspace (bytesAt h 176 64) with
    | none => s.endTransfer t .signatureInvalid
    | some (_, key) =>
      if !verifyWith key h (bytesAt l 512 512) then s.endTransfer t .signatureInvalid
      else
        let r := if t.kind ≤ 2 then s.leadWeights t h m else if t.kind = 3 then s.leadAdapter t h m else s.leadKit t h m
        match r with
        | .error st => s.endTransfer t st
        | .ok s =>
          match s.transfers.find? fun y => y.number = t.number with
          | none => s
          | some t => ((s.chunkAck t 0 ackLead).gaugeTransfer t).gaugeWeights

/-! ### IMAGE_CHUNK (R259, R260) -/

/-- Bytes of a part: a chunk, or the leading part as its header's MANIFEST_LEN gives it, once that header is in. -/
def Assembly.size (x : Assembly) : Option Nat :=
  if x.chunk ≠ ackLead then some chunkBytes
  else (x.fragments.find? fun e => e.1 = 0).map fun e => 4096 + hdrManifestLen e.2

/-- Join the fragments from an offset on; none: some bytes are missing. -/
def joinFrom : Nat → Nat → Nat → List (Nat × List Byte) → Option (List Byte)
  | 0, _, _, _ => none
  | fuel + 1, at_, size, fs =>
    if size ≤ at_ then some []
    else match fs.find? fun e => e.1 = at_ with
      | none => none
      | some e => (joinFrom fuel (at_ + e.2.length) size fs).map (e.2 ++ ·)

/-- The whole part, when every fragment is in. -/
def Assembly.whole (x : Assembly) : Option (List Byte) :=
  x.size.bind fun n => (joinFrom (x.fragments.length + 1) 0 n x.fragments).map (List.take n)

/-- The field whose write queue a chunk joins. -/
def State.queueOf (s : State) (t : Transfer) (n : Nat) : Option Nat :=
  (t.image.bind fun i => i.recOf n).bind fun r => (s.chunkTarget t r).map Prod.fst

/-- A complete chunk is queued for hashing; a full field queue refuses it (R159). -/
def State.chunkIn (s : State) (t : Transfer) (n : Nat) (data : List Byte) : State :=
  let keep (s : State) : State := { s with chunkStore := s.chunkStore ++ [(t.number, n, data)] }
  if 2 ≤ t.kind then keep s
  else match s.queueOf t n with
    | none => s.chunkAck t 2 n
    | some f =>
      if 16 ≤ (s.field f).writeQueue.length then s.chunkAck t 2 n
      else keep (s.updField f fun x => { x with writeQueue := x.writeQueue ++ [n] })

/-- A fragment arrives. -/
def opChunk (m : ChunkMsg) (s : State) : State :=
  match s.transfers.find? fun t => t.number = m.transfer && t.airspace = m.airspace && t.source = m.source with
  | none => s.sendChunkAck m.airspace m.source m.transfer 5 m.chunk 0
  | some t =>
    let lead := m.chunk == ackLead
    let fits := m.offset % 1024 == 0 && decide (1024 ≤ m.data.length) && decide (m.data.length ≤ 8192) && m.data.length % 1024 == 0
    if !fits || (!lead && t.leading.isSome && !t.wants m.chunk) || (!lead && chunkBytes < m.offset + m.data.length) then
      s.badField ⟨m.airspace, m.source, 0, 0, 0, 0, 2 ^ 48 ≤ m.source⟩
    else if !lead && t.leading.isNone then s.chunkAck t 2 m.chunk
    else if (lead && t.leading.isSome) || t.done.contains m.chunk || s.chunkStore.any fun e => e.1 = t.number && e.2.1 = m.chunk then
      s.chunkAck t 3 m.chunk
    else
      let old := s.assemblies.find? fun x => x.transfer = t.number && x.chunk = m.chunk
      if old.isNone && 64 ≤ s.assemblies.length then s.chunkAck t 2 m.chunk
      else
        let x := old.getD ⟨t.number, m.chunk, []⟩
        let x := { x with fragments := (x.fragments.filter fun (e : Nat × List Byte) => e.1 ≠ m.offset) ++ [(m.offset, m.data)] }
        let others := s.assemblies.filter fun y => !(y.transfer = t.number && y.chunk = m.chunk)
        match x.whole with
        | none => { s with assemblies := others ++ [x] }
        | some data =>
          let s := { s with assemblies := others }
          if lead then s.lead t data else s.chunkIn t m.chunk data

def execImageChunk (m : ChunkMsg) (s : State) : Result := .next (opChunk m s)

/-- CHUNK_ASSEMBLY_TIMEOUT: the assembly is discarded and answered RESEND_BUSY (R259, R260). -/
def opChunkTimeout (n chunk : Nat) (s : State) : State :=
  match s.transfers.find? fun t => t.number = n with
  | none => s
  | some t =>
    if s.assemblies.any fun x => x.transfer = n && x.chunk = chunk then
      ({ s with assemblies := s.assemblies.filter fun x => !(x.transfer = n && x.chunk = chunk) }).chunkAck t 2 chunk
    else s

def execChunkAssemblyTimeout (transfer chunk : Nat) (s : State) : Result := .next (opChunkTimeout transfer chunk s)

/-! ### CHUNK_WRITTEN and what completes a transfer -/

/-- All payload bytes of a package, in chunk order. -/
def State.payload (s : State) (t : Transfer) : List Byte :=
  (List.range t.total).flatMap fun n => ((s.chunkStore.find? fun e => e.1 = t.number && e.2.1 = n).map fun e => e.2.2).getD []

/-- Write a package's backing copy into the owner's partition (R170); none: pages lack. -/
def State.writeBacking (s : State) (a : Nat) (bytes : List Byte) : Option (List Nat × State) :=
  (s.allocPages a (ceilDiv bytes.length 65536)).map fun r => (r.1, r.2.writePages a r.1 0 bytes)

/-- The bytes of the named cores, joined. -/
def coreBytes (cs : List (Nat × Nat × Nat)) (payload : List Byte) : List Byte := cs.flatMap fun q => bytesAt payload q.2.2 (32 * q.2.1)

/-- An adapter package is complete: slots filled, backing copy kept, current at the next boundary (R172). -/
def State.adapterLoaded (s : State) (t : Transfer) : State :=
  let p := t.placement
  match t.slot, t.leading with
  | some v, some l =>
    let bytes := coreBytes (adapterCores (l.drop 4096)) (s.payload t)
    match s.writeBacking t.airspace bytes with
    | none => s.endTransfer t .noResource
    | some (pages, s) =>
      let place := (((s.plc p).adapters.find t.adapter).bind fun e => e.slotOf v).map (·.cores)
      let s := s.fillSlot (place.getD []) bytes
      let due (y : AdapterSlot) : AdapterSlot := if y.version = v then { y with backing := pages, atBoundary := some (s.tick.count + 1) } else y
      s.updPlc p fun x => x.updAdapter t.adapter fun e => { e with slotA := e.slotA.map due, slotB := e.slotB.map due }
  | _, _ => s.endTransfer t .noResource

/-- Bytes of a data set: the records' 32-byte aligned lengths (R269). -/
def dataLength : Nat → List Byte → Nat → Nat
  | 0, _, o => o
  | n + 1, b, o => dataLength n b (o + ceilDiv (8 + 4 * fieldAt b o 4) 32 * 32)

/-- A kit is complete: factors to the slot and the masters, data set to its pages, the job runs (R267, R270, R274). -/
def State.kitLoaded (s : State) (t : Transfer) : State :=
  let p := t.placement
  match t.leading with
  | none => s
  | some l =>
    let m := l.drop 4096
    let cs := adapterCores m
    let all := s.payload t
    let j := (s.plc p).tune
    let data := all.drop (fieldAt m (32 + 16 * cs.length + 48) 8)
    let len := min data.length (dataLength j.seqCount data 0)
    let pages := (List.range (ceilDiv len 65536)).map (· + j.dataPage)
    if (s.asp t.airspace).window < j.dataPage + pages.length then s.endTransfer t .noResource
    else
      let s := s.writePages t.airspace pages 0 (data.take len)
      let s := j.areas.foldl (fun s q =>
        let bytes := ((cs.find? fun e => e.1 = q.1).map fun e => bytesAt all e.2.2 (32 * e.2.1)).getD []
        let n := q.2.2.2
        s.updCore q.1 fun k =>
          let mem := (k.mem.writeBytes (32 * q.2.1) bytes).writeBytes (32 * q.2.2.1) (List.replicate (14 * n) 0)
          let mem := (List.range n).foldl (fun (mem : Mem) i =>
            mem.setLe (32 * q.2.2.1 + 2 * n + 4 * i) 4 (65536 * fieldAt bytes (2 * i) 2)) mem
          { k with mem := mem, b1t := 0x3F800000, b2t := 0x3F800000 }) s
      let s := s.updPlc p fun x => { x with tune := { x.tune with st := .running } }
      (s.endTransfer t .ok).gaugeTune p

/-- Tiles of a field whose slot a repair names, and the patch entries its chunk gives (R169). -/
def State.patchFrom (s : State) (t : Transfer) (n : Nat) (data : List Byte) : State :=
  (t.repairs.filter fun e => e.2.2 = n).foldl (fun s e =>
    let f := e.1
    let b := s.liveBankOf f
    let first := ((t.image.bind fun i => i.recOf n).map FieldRec.firstChunk).getD 0
    let mem := b.mem.writeBytes (chunkBytes * (n - first)) data
    let tiles := (s.field f).unpatched.filter fun k => (tilePlace b.mem k).any fun q => q.1 = e.2.1
    let s := tiles.foldl (fun s _ => s.bump (Reg.Stratum.STRATUM_REPAIR f)) s
    let s := s.updField f fun x => { x with
      nextPatches := x.nextPatches ++ tiles.map fun k => ⟨k, slotBytes mem e.2.1⟩
      unpatched := x.unpatched.filter fun k => !tiles.contains k }
    s.updPlc t.placement fun x => { x with repairsAsked := x.repairsAsked.filter fun q => q ≠ e }) s

/-- The chunk's bytes beyond REGION_BYTES are 0 (R153). -/
def tailOk (r : FieldRec) (n : Nat) (data : List Byte) : Bool :=
  (data.drop (r.regionBytes - chunkBytes * (n - r.firstChunk))).all (· == 0)

/-- Write a chunk of a weight image into its bank. -/
def State.writeChunk (s : State) (t : Transfer) (r : FieldRec) (site bank n : Nat) (data : List Byte) : State :=
  let at_ := chunkBytes * (n - r.firstChunk)
  let s := s.updBank site bank fun b => { b with mem := b.mem.writeBytes at_ (data.take (r.regionBytes - at_)) }
  s.updTransfer t.number fun y => { y with done := y.done ++ [n] }

/-- Chunks of a package whose bytes, read back, do not give their leaf (step 6 of R159). -/
def State.badChunks (s : State) (t : Transfer) : List Nat :=
  (List.range t.total).filter fun n =>
    match s.chunkStore.find? fun e => e.1 = t.number && e.2.1 = n with
    | none => true
    | some e => leafOf n e.2.2 != t.leaf n

/-- Chunks that failed their read-back are asked for again; the third failure of one ends the transfer with NO_RESOURCE (step 6 of R159). -/
def State.askAgain (s : State) (t : Transfer) (bad : List Nat) : State :=
  let fails (n : Nat) : Nat := ((t.readFails.find? fun e => e.1 = n).map Prod.snd).getD 0 + 1
  if bad.any fun n => 3 ≤ fails n then s.endTransfer t .noResource
  else
    let s := { s with chunkStore := s.chunkStore.filter fun e => !(e.1 = t.number && bad.contains e.2.1) }
    let s := s.updTransfer t.number fun y => { y with
      done := y.done.filter fun n => !bad.contains n
      readFails := (y.readFails.filter fun e => !bad.contains e.1) ++ bad.map fun n => (n, fails n) }
    match s.transfers.find? fun y => y.number = t.number with
    | none => s
    | some t => bad.foldl (fun s n => s.chunkAck t 4 n) (s.gaugeTransfer t)

/-- CHUNK_WRITTEN: hash against the leaf, then write, keep or discard (step 5 of R159). -/
def opChunkWritten (num n : Nat) (s : State) : State :=
  match s.transfers.find? (fun t => t.number = num), s.chunkStore.find? (fun e => e.1 = num && e.2.1 = n) with
  | some t, some (_, _, data) =>
    let s := match s.queueOf t n with
      | some f => s.updField f fun x => { x with writeQueue := without x.writeQueue n }
      | none => s
    let drop (s : State) : State := { s with chunkStore := s.chunkStore.filter fun e => !(e.1 = num && e.2.1 = n) }
    if (s.keyOf t.airspace (bytesAt (t.leading.getD []) 176 64)).isNone then s.endTransfer t .signatureInvalid
    else if leafOf n data ≠ t.leaf n then ((drop s).updTransfer num fun y => { y with mismatched := y.mismatched + 1 }).chunkAck t 1 n
    else
      let told (s : State) : State := match s.transfers.find? fun y => y.number = num with
        | none => s
        | some t => (s.chunkAck t 0 n).gaugeTransfer t
      let complete (s : State) : Option Transfer := s.transfers.find? fun y => y.number = num && y.total ≤ y.done.length
      if t.kind ≤ 1 then
        match (t.image.bind fun i => i.recOf n).bind fun r => (s.chunkTarget t r).map fun w => (r, w) with
        | none => (drop s).chunkAck t 2 n
        | some (r, site, bank) =>
          if !tailOk r n data then (drop s).chunkAck t 1 n else told (drop (s.writeChunk t r site bank n data))
      else
        let s := s.updTransfer num fun y => { y with done := y.done ++ [n] }
        let s := told (if t.kind = 2 then (drop s).patchFrom t n data else s)
        match complete s with
        | none => s
        | some t =>
          if t.kind = 2 then
            if t.repairs.all fun e => t.done.contains e.2.2 then s.endTransfer t .ok else s
          else if !(s.badChunks t).isEmpty then s.askAgain t (s.badChunks t)
          else if t.kind = 3 then s.adapterLoaded t else s.kitLoaded t
  | _, _ => s

def execChunkWritten (transfer chunk : Nat) (s : State) : Result := .next (opChunkWritten transfer chunk s)

/-- Leaf entries of a field's chunks. -/
def Image.leavesOf (i : Image) (r : FieldRec) : List (List Byte) := (i.leaves.drop r.firstChunk).take r.chunks

/-- Every named field has passed: STAGED and reported (step 7 of R159). -/
def State.stageImage (s : State) (t : Transfer) (i : Image) : State :=
  let p := t.placement
  let s := s.updPlc p fun x => { x with imageState := .staged, staged := some i }
  let s := s.event { code := 0x0301, placement := p, detail := le8 40 i.imageId }
  s.endTransfer t .ok

/-- A field's chunks are read back and right: its leaves are recorded; a rebuild's clearing loads its plan (R159, R166, R167). -/
def State.fieldPassed (s : State) (t : Transfer) (i : Image) (r : FieldRec) : State :=
  let p := t.placement
  match s.chunkTarget t r with
  | none => s
  | some (site, bank) =>
    let moving := t.kind = 1 && ((s.plc p).moves.any fun m => m.field = r.field && m.activeAt.isNone)
    let s := s.updBank site bank fun b => { b with leaves := i.leavesOf r, st := if moving then b.st else .staged }
    let s := s.updTransfer t.number fun y => { y with readBack := y.readBack ++ [r.field] }
    if moving then s.moveLoaded p r.field site else s

/-- FIELD_READBACK_COMPLETE (steps 6-7 of R159): mismatched chunks are asked for again; the third failure of one chunk ends it. -/
def opReadback (p field : Nat) (bad : List Nat) (s : State) : State :=
  match s.transfers.find? fun t => t.placement = p && t.kind ≤ 1 with
  | none => s
  | some t =>
    match t.image with
    | none => s
    | some i =>
      let mine (r : FieldRec) : Bool := r.role == 1 && (t.kind == 0 || t.fields.contains r.field) && (r.field == field || (s.chunkTarget t r).any fun w => w.1 = field)
      match i.fields.find? mine with
      | none => s
      | some r =>
        if (s.keyOf t.airspace i.keyHash).isNone then s.endTransfer t .signatureInvalid
        else if t.readBack.contains r.field || !((List.range r.chunks).all fun k => t.done.contains (r.firstChunk + k)) then s
        else if !bad.isEmpty then s.askAgain t bad
        else
          let s := s.fieldPassed t i r
          match s.transfers.find? fun y => y.number = t.number with
          | none => s
          | some t =>
            if t.kind = 0 then
              if (i.fields.filter fun q => q.role = 1).all fun q => t.readBack.contains q.field then s.stageImage t i else s
            else if t.fields.all t.readBack.contains then
              if (s.plc p).imageState == .incomplete && s.heldState p == .staged then s.stageImage t i else s.endTransfer t .ok
            else s

def execFieldReadbackComplete (placement field : Nat) (badChunks : List Nat) (s : State) : Result :=
  .next (opReadback placement field badChunks s)

/-- INSTALL_TIMEOUT: the oldest transfer of the placement ends with TIMEOUT; a rebuild's end suspends the placement (R160, R371). -/
def opInstallTimeout (p : Nat) (s : State) : State :=
  match s.transfers.find? fun t => t.placement = p with
  | none => s
  | some t =>
    let s := s.endTransfer t .timeout
    if t.kind = 1 && !(s.plc p).moves.isEmpty then s.suspend p 1 else s

def execInstallTimeout (placement : Nat) (s : State) : Result := .next (opInstallTimeout placement s)

/-! ### INSTALL, INSTALL_CANCEL, REBUILD, REPAIR (R159, R160, R167, R169, R405) -/

/-- A transfer that has just been ordered. -/
def newTransfer (kind p a source limit : Nat) : Transfer :=
  { number := 0, kind := kind, placement := p, airspace := a, source := source, cmdSeq := 0, cmdSrc := .host, cmdOp := 0, timeLimit := limit
    older := false, fields := [], adapter := 0, slot := none, leading := none, image := none, total := 0, done := [], readFails := [], readBack := [] }

/-- The airspace is not bound to another placement. -/
def State.boundElsewhere (s : State) (a p : Nat) : Bool := (s.asp a).placement.any (· != p)

/-- An installation or rebuild is under way on a placement. -/
def State.installing (s : State) (p : Nat) : Bool := s.transfers.any fun t => t.placement = p && t.kind ≤ 1

/-- Install time limit: the parameter, or the default of each basic command (R175). -/
def limitOf (h : CmdHdr) (v : Nat) : Nat := if h.expert && v ≠ 0xFFFFFFFF then v else 600
def limitOk (h : CmdHdr) (v : Nat) : Bool := !h.expert || inRange 32 v 60 86400

def opInstall (h : CmdHdr) (p a source limit older : Nat) (s : State) : State :=
  s.ordered h 0x0301 fun s =>
    s.checked h 0x0301 [(32, placementOk p), (33, airspaceOk a), (56, limitOk h limit), (60, !h.expert || decide (older ≤ 1))] fun s =>
      let x := s.plc p
      if s.installing p || x.drain.isSome || !x.moves.isEmpty then s.answer h 0x0301 .busy
      else if s.boundElsewhere a p then s.answer h 0x0301 .notPermitted
      else
        let s := s.updPlc p fun x => { x with imageState := .installing }
        (s.openTransfer h 0x0301 { newTransfer 0 p a source (limitOf h limit) with older := h.expert && older == 1 }).gaugeWeights

def execInstall (h : CmdHdr) (placement airspace source timeLimit older : Nat) (s : State) : Result :=
  .next (opInstall h placement airspace source timeLimit older s)

/-- INSTALL_CANCEL: OK; the installation's final reply reads SUPERSEDED. -/
def opInstallCancel (h : CmdHdr) (p : Nat) (s : State) : State :=
  s.ordered h 0x0302 fun s => s.checked h 0x0302 [(32, placementOk p)] fun s =>
    match s.transfers.find? fun t => t.placement = p && t.kind = 0 with
    | none => s.answer h 0x0302 .ok
    | some t => (s.answer h 0x0302 .ok).endTransfer t .superseded

def execInstallCancel (h : CmdHdr) (placement : Nat) (s : State) : Result := .next (opInstallCancel h placement s)

/-- Fields a rebuild may name: those of moves that wait for the image, and those an INCOMPLETE image lacks. -/
def State.rebuildable (s : State) (p : Nat) : List Nat :=
  let x := s.plc p
  let moving := (x.moves.filter fun m => m.fromImage && m.activeAt.isNone).map fun m => m.field
  if !moving.isEmpty then moving
  else if x.imageState != .incomplete then []
  else match x.staged with
    | none => []
    | some i => ((i.fields.filter fun r => r.role = 1).map FieldRec.field).filter fun f =>
        let q := s.supplySite p f
        (s.field q).role != .lost && !(s.field q).lossPending && (q != x.partSite f || ((s.field q).bank x.stagedBank).st != .staged)

/-- Fields of a 16-byte bitmap. -/
def bitmapFields (v : Nat) : List Nat := (List.range 128).filter fun n => v / 2 ^ n % 2 = 1

def opRebuild (h : CmdHdr) (p a source limit fields : Nat) (s : State) : State :=
  s.ordered h 0x0305 fun s =>
    let could := s.rebuildable p
    let named := if h.expert && fields ≠ 2 ^ 128 - 1 then bitmapFields fields else could
    s.checked h 0x0305 [(32, placementOk p), (33, airspaceOk a), (56, limitOk h limit), (64, named.all could.contains)] fun s =>
      if s.installing p || (s.plc p).drain.isSome then s.answer h 0x0305 .busy
      else if s.boundElsewhere a p || named.isEmpty then s.answer h 0x0305 .notPermitted
      else s.openTransfer h 0x0305 { newTransfer 1 p a source (limitOf h limit) with fields := named }

def execRebuild (h : CmdHdr) (placement airspace source timeLimit fields : Nat) (s : State) : Result :=
  .next (opRebuild h placement airspace source timeLimit fields s)

def opRepair (h : CmdHdr) (p a source field slot : Nat) (s : State) : State :=
  s.ordered h 0x0306 fun s =>
    let asked := (s.plc p).repairsAsked
    let sel := if h.expert && field ≠ 0xFF then asked.filter fun e => e.1 = field && (slot = 0xFFFFFFFF || e.2.1 = slot) else asked
    s.checked h 0x0306 [(32, placementOk p), (33, airspaceOk a), (56, !h.expert || field == 0xFF || decide (field < 88))] fun s =>
      if s.transfers.any fun t => t.placement = p && t.kind = 2 then s.answer h 0x0306 .busy
      else if s.boundElsewhere a p || sel.isEmpty then s.answer h 0x0306 .notPermitted
      else s.openTransfer h 0x0306 { newTransfer 2 p a source 600 with repairs := sel }

def execRepair (h : CmdHdr) (placement airspace source field slot : Nat) (s : State) : Result :=
  .next (opRepair h placement airspace source field slot s)

/-! ### Flips and plan loads (R36, R162, R163, R405) -/

/-- Old sessions that hold a flip: a slot, a prefill row, or QUEUED (R162). -/
def State.oldSessions (s : State) (p : Nat) : List Nat :=
  s.sessIds.filter fun n => (s.sess n).placement = p && ((s.sess n).st.promises || (s.sess n).st == .draining)

/-- A session somewhere else still holds a promise (R36). -/
def State.promisesElsewhere (s : State) (p : Nat) : Bool :=
  s.sessIds.any fun n => (s.sess n).placement != p && (s.sess n).st.promises

/-- The period the module would run with placement p requiring `req` (R33, R35). -/
def State.periodWith (s : State) (p req : Nat) : Nat :=
  (((List.range 4).filter fun q => q ≠ p && (s.plc q).live).map fun q => (s.plc q).plan.required).foldl max req

/-- A higher P is held for some placement (R36). -/
def State.periodHeld (s : State) : Bool := (List.range 4).any fun p => (s.plc p).drain.any fun d => d.heldPeriod.isSome

/-- Drain registers. -/
def State.gaugeDrain (s : State) : State :=
  let s := s.forAll (List.range 4) fun s p =>
    let on := (s.plc p).drain.any (·.isFlip)
    let s := s.put (Reg.Plc.FLIP_DRAIN p) (if on then 1 else 0)
    s.put (Reg.Plc.DRAIN_LEFT p) (if on then (s.oldSessions p).length else 0)
  (s.put Reg.Tick.PERIOD_HOLD (if s.periodHeld then 1 else 0)).put Reg.Tick.PERIOD s.tick.period

/-- Roles as a placement's new live image gives them (R21); a field that holds the part of a lost one stands for it (R167). -/
def State.applyRoles (s : State) (p : Nat) (i : Image) : State :=
  let at_ := s.plc p
  s.forAll computeFields fun s f =>
    match i.fields.find? fun r => at_.partSite r.field = f with
    | some r => s.updField f fun x =>
        if x.role == .lost then x else { x with role := if r.role = 1 then .active else .clearing, placement := some p, trim := x.trim }
    | none =>
      let x := s.field f
      if x.placement != some p || x.role == .lost then s
      else (s.releaseCores f).updField f fun x => { x with
        placement := none, twinOf := none, twinHolder := none
        role := if Config.factoryClearings.contains f then .clearing else if x.role == .active || x.role == .clearing then .unassigned else x.role }

/-- The steward of every field of p loads the live bank's plan; absorption of failed cores is ordered again (R64, R80, R157). -/
def State.loadPlan (s : State) (p : Nat) : State :=
  let s := match (s.plc p).image with
    | some img => (s.loadLinkTables p img.headerHash).writeGroups p
    | none => s
  s.forAll (s.fieldsOf p) fun s f =>
    let s := s.ackGust (stewardId f)
    let tags := (coresOf f).map fun c => (c, ((s.core c).tags.filter fun e => e.2 < 8))
    let s := s.loadField f (s.plc p).liveBank
    let s := tags.foldl (fun s e => s.updCore e.1 fun k => { k with tags := e.2.foldl (fun t g => t.set g.1 g.2) k.tags }) s
    s.updField f fun x => { x with
      absMap := [], forecastLearn := 1024
      absorb := x.failed.map fun n => ⟨n, s.tick.count, some s.tick.count⟩ }

/-- Granted share of a placement: the lower of the host's setting and the ladder's bound (R60). -/
def State.shareInForce (s : State) (p : Nat) : Nat := min (s.plc p).hostGrant (s.power.shareBound.getD p 100)

/-- A placement's plan comes into force: shares return to the sized share and the period follows (R33, R60); with a new live bank the phases
start anew (R212, R214). -/
def State.planInForce (s : State) (p : Nat) (plan : Plan) (restart : Bool) : State :=
  let s := s.updPlc p fun x => { x with plan := plan, hostGrant := plan.sized, grant := plan.sized, grantOrder := none }
  let s := s.updPlc p fun x => { x with grant := s.shareInForce p }
  -- the first round of phase 0 begins at this boundary (R214)
  let k := s.tick.count
  let depth := max 1 (min plan.maxDepth (s.power.depthAt (k - s.leadNow - 1)))
  let s := if restart then s.updPlc p fun x => { x with bL := k, phases := [(0, ⟨k, x.round, depth⟩)], lanes := [], ledger := [] } else s
  let s := s.updTick fun t => { t with period := s.periodOf }
  s.gaugePlan.gaugeDrain

/-- Carve the KV of every airspace bound to p for its new plan, then put back the segments of held adapter versions (R186, R187). -/
def State.carveAll (s : State) (p : Nat) : State :=
  s.forAll (s.boundTo p) fun s a => (s.carve p a).getD s

/-- Adapters across a flip: those that do not match the new model are released and reported; the others are reloaded from their backing
copies (R163, R170). DESIGN CHOICE (log entry 141): the versions kept stay in their cores and segments, which the new image's plan may give to
another use; the manual does not say that they are placed anew. -/
def State.flipAdapters (s : State) (p : Nat) (i : Image) : State :=
  (s.plc p).adapters.foldl (fun s e =>
    let a := e.2
    if a.layers == i.layers && a.hidden == i.hidden && a.qHeads == i.qHeads && a.kvHeads == i.kvHeads && a.headDim == i.headDim then
      (a.slotA.toList ++ a.slotB.toList).foldl (fun s v =>
        let len := (v.cores.map fun q => 32 * q.2.2.2).foldl (· + ·) 0
        match s.readPages a.owner v.backing len with
        | none => s
        | some bytes => (s.fillSlot v.cores bytes).tagSlot a.owner v.cores) s
    else
      let vs := a.slotA.toList ++ a.slotB.toList
      let s := vs.foldl (fun s v => s.event { code := 0x0306, placement := p, airspace := a.owner, detail := [(40, e.1), (42, v.version % 256), (43, v.version / 256)] }) s
      vs.foldl (fun s v => s.releaseVersion p e.1 v.version) s) s

/-- What a flip does at boundary b beside the pointer: paused copies freed, prefixes dropped, a tuning job failed (R163, R195, R277). -/
def State.flipSessions (s : State) (p : Nat) : State :=
  let s := s.forAll (s.sessIds.filter fun n => (s.sess n).placement = p && (s.sess n).st == .paused) fun s n =>
    ((s.releaseKv n).dropPause n).updSess n fun d => { d with kvHeld := false, copyBack := false }
  let s := s.forAll (s.boundTo p) fun s a => s.dropPrefixes a true
  if (s.plc p).tune.st == .none then s
  else s.failTune p

/-- The pointer switches (R162). A plan that fails its checks leaves everything as it was and is answered BAD_PARAMETER. -/
def State.switchBank (s : State) (p : Nat) (d : Drain) : State :=
  match (s.plc p).staged with
  | none => s
  | some i =>
    let x := s.plc p
    let oldBank := x.liveBank
    let oldImage := if x.live then x.image else none
    let t := s.applyRoles p i
    let t := t.updPlc p fun x => { x with
      live := true, liveBank := x.stagedBank, stagedBank := oldBank, image := some i, moved := x.stagedAt
      stagedAt := if t.rollbackHold = 0 || oldImage.isNone then [] else x.moved, suspended := none, drain := none }
    let t := (t.forAll (t.fieldsOf p) fun t f => t.updField f fun y => { y with patches := [], nextPatches := [], unpatched := [] }).writeAliases
    let t := t.loadPlan p
    let t := t.updPlc p fun x => { x with plan := t.makePlan p i i.prefillPct i.rrPct i.period }
    if !t.planOk p i i.decodeLen i.exchange i.absorb (computeWindow i.decodeLen i.prefillPct) i.period then
      (s.updPlc p fun x => { x with drain := none }).gaugeDrain.finalReply d.cmdSrc d.cmdSeq d.cmdOp .badParameter
    else
      let t := t.planInForce p (t.plc p).plan true
      let t := t.flipSessions p
      let t := t.flipAdapters p i
      let t := t.carveAll p
      -- the old bank is PREVIOUS for the rollback hold, then mirrors are built
      let t := match oldImage with
        | none => t.updPlc p fun x => { x with imageState := .empty, staged := none }
        | some o =>
          let mine := (o.fields.filter fun (r : FieldRec) => r.role = 1).map fun (r : FieldRec) => x.siteOf r.field
          let st := if t.rollbackHold = 0 then BankState.empty else .previous
          let t := t.forAll mine fun t f => t.updBank f oldBank fun (b : Bank) =>
            if st == BankState.empty then { b with st := .empty, mem := [], err := [], leaves := [] } else { b with st := st }
          t.updPlc p fun x => { x with imageState := st, staged := if t.rollbackHold = 0 then none else some o, holdLeft := t.rollbackHold }
      let t := t.forAll (t.fieldsOf p) fun t f => t.updBank f (t.plc p).liveBank fun b => { b with st := .empty }
      let t := t.updPlc p fun x => { x with servingAt := some t.tick.count }
      ((t.buildTwins p).setFilters p).gaugeWeights.gaugeFields.gaugeDrain.finalReply d.cmdSrc d.cmdSeq d.cmdOp .ok

/-- A plan load comes into force (R36, R405). -/
def State.applyPlanLoad (s : State) (p : Nat) (d : Drain) : State :=
  match d.newPlan, (s.plc p).image with
  | some plan, some _ =>
    let s := (s.updPlc p fun x => { x with drain := none }).loadPlan p
    (s.planInForce p plan false).gaugeDrain.finalReply d.cmdSrc d.cmdSeq d.cmdOp .ok
  | _, _ => s

/-- The drain's boundary has come: no old session remains and no held period waits for another placement (R36, R162). -/
def State.drainDue (s : State) (p : Nat) : Bool :=
  match (s.plc p).drain with
  | none => false
  | some d => s.tick.running && decide (d.from_ ≤ s.tick.count) && (s.oldSessions p).isEmpty
      && (d.heldPeriod.isNone || !s.promisesElsewhere p)

/-- Complete the drain of a placement; the tables written with it are in force in the tick that begins (R30, R288). -/
def State.completeDrain (s : State) (p : Nat) : State :=
  match (s.plc p).drain with
  | none => s
  | some d => if !s.drainDue p then s else (if d.isFlip then s.switchBank p d else s.applyPlanLoad p d).forAll allFields State.swapTables

/-- A boundary has begun and its control slot has not run: no sequencer has started, and changes may still take effect at it (R30, R37). -/
def State.atTickStart (s : State) : Bool := s.tick.running && s.tick.started && !s.tick.slotDone

/-- FLIP_DRAIN_COMPLETE: at a boundary, before its control slot; at any other time the next boundary completes the drain (R30, R162). -/
def opDrainComplete (p : Nat) (s : State) : State := if s.atTickStart then s.completeDrain p else s

def execFlipDrainComplete (placement : Nat) (s : State) : Result := .next (opDrainComplete placement s)

/-- PERIOD_HOLD_RELEASE: a held higher P applies once no other placement holds a promise, at a boundary (R30, R36). -/
def opHoldRelease (s : State) : State :=
  if s.atTickStart then s.forAll ((List.range 4).filter fun p => (s.plc p).drain.any fun d => d.heldPeriod.isSome) State.completeDrain else s

def execPeriodHoldRelease (s : State) : Result := .next (opHoldRelease s)

/-- FLIP_DRAIN_TIMEOUT: the drain is abandoned with TIMEOUT; queued clearances are processed on the old bank (R36, R162). -/
def opDrainTimeout (p : Nat) (s : State) : State :=
  match (s.plc p).drain with
  | none => s
  | some d =>
    let s := s.updPlc p fun x => { x with drain := none }
    s.gaugeDrain.finalReply d.cmdSrc d.cmdSeq d.cmdOp .timeout

def execFlipDrainTimeout (placement : Nat) (s : State) : Result := .next (opDrainTimeout placement s)

/-- Begin a drain in this control slot; a higher P is held (R36). -/
def State.startDrain (s : State) (h : CmdHdr) (op p limit req : Nat) (isFlip : Bool) (plan : Option Plan) : State :=
  let new := s.periodWith p req
  let d : Drain :=
    { isFlip := isFlip, cmdSeq := h.seq, cmdSrc := h.src, cmdOp := opOf h op, from_ := s.tick.count + 1, limit := limit, newPlan := plan, periodRequest := req
      heldPeriod := if s.tick.period < new then some new else none }
  let s := s.updPlc p fun x => { x with drain := some d }
  -- the order to the stewards of the fields that change (R26)
  let s := s.forAll (s.fieldsOf p) fun s f => s.sendGust (stewardId f)
  s.gaugeDrain.pend h op []

def opFlip (h : CmdHdr) (p limit : Nat) (s : State) : State :=
  s.ordered h 0x0303 fun s =>
    s.checked h 0x0303 [(32, placementOk p), (34, !h.expert || inRange 16 limit 1 3600)] fun s =>
      let x := s.plc p
      let may := x.imageState == .staged || (x.imageState == .previous && decide (0 < x.holdLeft))
      if x.drain.isSome || !x.moves.isEmpty then s.answer h 0x0303 .busy
      else if !may then s.answer h 0x0303 .notPermitted
      else match x.staged with
        | none => s.answer h 0x0303 .notPermitted
        | some i => s.startDrain h 0x0303 p (if h.expert && limit ≠ 0xFFFF then limit else 30) i.period true none

def execFlip (h : CmdHdr) (placement drain : Nat) (s : State) : Result := .next (opFlip h placement drain s)

/-- PLAN_LOAD (R34, R35, R36, R60, R405). -/
def opPlanLoad (h : CmdHdr) (p period sized replay : Nat) (s : State) : State :=
  s.ordered h 0x0304 fun s =>
    s.checked h 0x0304 [(32, placementOk p), (34, !h.expert || unchanged 16 period || (decide (period ≤ 48000) && period % 8 == 0)),
        (36, !h.expert || inRange 8 sized 0 60), (37, !h.expert || inRange 8 replay 2 20)] fun s =>
      let x := s.plc p
      if !x.live then s.answer h 0x0304 .notPermitted
      else if x.drain.isSome || !x.moves.isEmpty || s.installing p then s.answer h 0x0304 .busy
      else match x.image with
        | none => s.answer h 0x0304 .notPermitted
        | some i =>
          let own := !h.expert || (unchanged 8 sized && unchanged 8 replay)
          let share := if h.expert then setting 8 sized i.prefillPct else i.prefillPct
          let rr := if h.expert then setting 8 replay i.rrPct else i.rrPct
          match planPeriod i.decodeLen share i.exchange i.absorb rr with
          | none => s.badParam h 0x0304 (if own then 32 else 36)
          | some need =>
            if own && need ≠ i.period then s.badParam h 0x0304 32
            else if h.expert && !unchanged 16 period && period < need then s.badParam h 0x0304 34
            else
              let req := if h.expert && !unchanged 16 period then period else need
              if !s.planOk p i i.decodeLen i.exchange i.absorb (computeWindow i.decodeLen share) req then s.badParam h 0x0304 32
              else s.startDrain h 0x0304 p 30 req false (some (s.makePlan p i share rr req))

def execPlanLoad (h : CmdHdr) (placement period sized replay : Nat) (s : State) : Result :=
  .next (opPlanLoad h placement period sized replay s)

/-- ROLLBACK_HOLD_EXPIRY: the PREVIOUS image goes; mirrors are built into its banks (R175). -/
def State.endRollback (s : State) (p : Nat) : State :=
  let x := s.plc p
  if x.imageState != .previous then s
  else
    let fs := match x.staged with
      | some i => (i.fields.filter fun r => r.role = 1).map fun r => x.partSite r.field
      | none => []
    let s := s.forAll fs fun s f => s.updBank f x.stagedBank fun b =>
      if b.st == .previous then { b with st := .empty, mem := [], err := [], leaves := [] } else b
    let s := s.updPlc p fun x => { x with imageState := .empty, staged := none, stagedAt := [], holdLeft := 0 }
    (s.buildTwins p).gaugeWeights

def execRollbackHoldExpiry (placement : Nat) (s : State) : Result := .next (s.endRollback placement)

/-! ### REMOVE_PLACEMENT and SET_WEIGHTS (R21, R163, R175) -/

/-- At the boundary of the removal: the placement's fields are UNASSIGNED, both banks EMPTY, and so are the banks of fields that only its
image in the standby banks named; its aliases go (R163, R289). -/
def State.removePlacement (s : State) (p : Nat) : State :=
  let x := s.plc p
  let s := x.adapters.foldl (fun s e => (e.2.slotA.toList ++ e.2.slotB.toList).foldl (fun s v => s.freePages e.2.owner v.backing) s) s
  let s := s.forAll ((x.staged.toList.flatMap (·.fields)).map fun r => x.partSite r.field) fun s f =>
    if (s.field f).placement.isSome then s
    else s.updBank f x.stagedBank fun b => if b.st == .staged || b.st == .incomplete || b.st == .previous then { cycles := b.cycles } else b
  let s := s.forAll (computeFields.filter fun f => (s.field f).placement == some p) fun s f =>
    let s := s.updField f fun x => { x with
      placement := none, twinOf := none, twinHolder := none, patches := [], nextPatches := [], unpatched := []
      role := if x.role == .lost then .lost else if Config.factoryClearings.contains f then .clearing else .unassigned
      bank0 := { cycles := x.bank0.cycles }
      bank1 := { cycles := x.bank1.cycles } }
    s.releaseCores f
  let s := (s.setPlc p { round := (s.plc p).round }).writeAliases
  let s := s.updTick fun t => { t with period := s.periodOf }
  s.gaugeWeights.gaugeFields.gaugePlan.gaugeDrain

def opRemove (h : CmdHdr) (p : Nat) (s : State) : State :=
  s.ordered h 0x0307 fun s => s.checked h 0x0307 [(32, placementOk p)] fun s =>
    if !(s.boundTo p).isEmpty then s.answer h 0x0307 .notPermitted
    else if s.installing p || (s.plc p).drain.isSome || !(s.plc p).moves.isEmpty then s.answer h 0x0307 .busy
    else s.atBoundary h 0x0307 (.removePlacement h p)

def execRemovePlacement (h : CmdHdr) (placement : Nat) (s : State) : Result := .next (opRemove h placement s)

/-- SET_WEIGHTS: rollback hold and twin protection, in stratum configuration (R175). -/
def opSetWeights (h : CmdHdr) (rollback twin : Nat) (s : State) : State :=
  s.ordered h 0x0308 fun s =>
    s.checked h 0x0308 [(32, inRange 32 rollback 0 86400), (36, !h.expert || inRange 8 twin 0 1)] fun s =>
      let s := { s with rollbackHold := setting 32 rollback s.rollbackHold }
      let on := if h.expert && !unchanged 8 twin then twin == 1 else s.twinProtection
      let was := s.twinProtection
      let s := { s with twinProtection := on }
      let s := if was && !on then s.forAll (List.range 4) State.dropMirrors
        else if !was && on then s.forAll (List.range 4) State.buildTwins else s
      s.gaugeWeights.answer h 0x0308 .ok

def execSetWeights (h : CmdHdr) (rollback twinProtection : Nat) (s : State) : Result := .next (opSetWeights h rollback twinProtection s)

/-! ### Scrub and tile repair (R76, R168, R169) -/

/-- A tile is found uncorrectable: dropped until it is patched; a ninth entry loses the field (R169). -/
def State.tileBad (s : State) (f tile : Nat) : State :=
  s.updField f fun x => if x.unpatched.contains tile || x.patches.any (fun q => q.tile = tile) then x else { x with unpatched := x.unpatched ++ [tile] }

/-- The Zenith takes up unpatched tiles: copied from the twin, asked for from the host, or the field is lost (R169). DESIGN CHOICE (log entry
139): WEIGHT_REPAIR names one chunk; of a slot that runs over two chunks the model asks for the one that holds its first byte, and the rest of
the patch comes from the live bank as it stands. -/
def State.repairTiles (s : State) (f : Nat) : State :=
  let x := s.field f
  if x.role != .active || x.lossPending then s
  else if 8 < x.patches.length + x.nextPatches.length + x.unpatched.length then s.loseField f 1
  else if (s.twinComplete f).isSome then s
  else match x.placement with
    | none => s
    | some p =>
      let b := s.liveBankOf f
      x.unpatched.foldl (fun s tile =>
        match tilePlace b.mem tile with
        | none => s
        | some (slot, _, _) =>
          let i := (s.plc p).image
          let first := ((i.bind fun i => i.fields.find? fun r => (s.plc p).siteOf r.field = f).map FieldRec.firstChunk).getD 0
          let chunk := first + (bankTileOff b.mem + 2336 * slot) / chunkBytes
          if (s.plc p).repairsAsked.any fun e => e.1 = f && e.2.1 = slot then s
          else
            let s := s.updPlc p fun y => { y with repairsAsked := y.repairsAsked ++ [(f, slot, chunk)] }
            s.event { code := 0x0303, placement := p, field := f, stages := s.stagesOf f
                      detail := le8 40 ((i.map fun i => i.imageId).getD 0) ++ le4 48 slot ++ le4 52 chunk }) s

/-- Tile slots that overlap bytes [lo, hi) of an image region. -/
def slotsIn (m : Mem) (lo hi : Nat) : List Nat :=
  let off := bankTileOff m
  if hi ≤ off || bankSlots m = 0 then []
  else (List.range ((hi - off) / 2336 + 1)).filter fun n => decide (n < bankSlots m) && decide (lo < off + 2336 * (n + 1)) && decide (off + 2336 * n < hi)

/-- STRATUM_SCRUB: page `page` of a bank is read. `finding` 0 clean, 1 correctable, 2 + w: word w of the page is uncorrectable (R168). -/
def opScrub (f bank page finding : Nat) (s : State) : State :=
  let next := (1572864 * bank + page + 1) % 3145728
  let s := (s.updField f fun x => { x with scrubPage := next }).put (Reg.Stratum.SCRUB_PAGE f) next
  let x := s.field f
  let live := x.role == .active && (x.placement.any fun p => (s.plc p).liveBank == bank) && decide (page < 1564672)
  let b := x.bank bank
  let fix (n : Nat) (b : Bank) : Bank := { b with err := b.err.filter fun e => !(e.2 = n && (slotsIn b.mem (4096 * page) (4096 * page + 4096)).contains e.1) }
  if finding = 0 then s
  else if finding = 1 then
    if live then s.bump (Reg.FGen.STRATUM_CORR f) else s.updBank f bank (fix 1)
  else
    let word := 4096 * page + 32 * (finding - 2)
    let slots := slotsIn b.mem word (word + 32)
    if !live then
      -- a mirror page is copied again from the twinned field; a staged image becomes INCOMPLETE
      let s := if b.st == .staged then
          s.forAll ((List.range 4).filter fun p => (s.plc p).stagedBank = bank && s.holdsPart p f) fun s p =>
            s.updPlc p fun y => if y.imageState == .staged then { y with imageState := .incomplete } else y
        else s
      match b.st, x.twinOf with
      | .twin, some g =>
        -- in the system area stand the leaf entries of the mirror (R142, R165)
        if 1564672 ≤ page then s.updBank f bank fun b => { b with leaves := (s.liveBankOf g).leaves }
        else
          let src := (s.liveBankOf g).mem
          s.updBank f bank fun b => fix 2 { b with mem := b.mem.writeBytes (4096 * page) (src.bytes (4096 * page) 4096) }
      | .staged, _ => s.updBank f bank fun b => { b with st := .incomplete }
      | _, _ =>
        -- the leaf entries of the live image are copied again from the holder of the field's twin
        match s.twinComplete f with
        | some h => if 1564672 ≤ page && x.placement.any (fun p => (s.plc p).liveBank == bank) then s.updBank f bank fun b => { b with leaves := (s.standby h).leaves } else s
        | none => s
    else match slots with
      | [] => s.loseField f 1
      | slot :: _ =>
        let base := bankPairBase b.mem
        let tiles := if slot < base then [slot] else [base + 2 * (slot - base), base + 2 * (slot - base) + 1]
        let s := s.updBank f bank fun b => { b with err := b.err.set slot 2 }
        tiles.foldl (fun s t => s.tileBad f t) s

def execStratumScrub (field bank page finding : Nat) (s : State) : Result := .next (opScrub field bank page finding s)

/-- TILE_PATCH_COMPLETE: the slot is copied from the twin's holder; it serves from the next boundary (R169). -/
def opTilePatch (f tile : Nat) (s : State) : State :=
  match s.twinComplete f, tilePlace (s.liveBankOf f).mem tile with
  | some h, some (slot, _, _) =>
    let x := s.field f
    if 8 ≤ x.patches.length + x.nextPatches.length || !x.unpatched.contains tile then s
    else
      let bytes := slotBytes (s.standby h).mem slot
      let s := s.updField f fun x => { x with nextPatches := x.nextPatches ++ [⟨tile, bytes⟩], unpatched := without x.unpatched tile }
      s.bump (Reg.Stratum.STRATUM_REPAIR f)
  | _, _ => s

def execTilePatchComplete (field tile : Nat) (s : State) : Result := .next (opTilePatch field tile s)

/-! ### ADAPTER_LOAD, ADAPTER_REMOVE (R170, R172, R407) -/

/-- A tuning job or a held result occupies the idle slot of an ID (R277). -/
def State.tuneHolds (s : State) (p id : Nat) : Bool :=
  let j := (s.plc p).tune
  j.adapter == id && (j.st == .loading || j.st == .running || ((j.st == .done || j.st == .stopped) && j.held))

/-- ADAPTER_LOAD (R170, R172). DESIGN CHOICE (log entry 142): a load of a retiring ID is taken; its version is released as soon as it is
current, since nothing can be pinned to it. -/
def opAdapterLoad (h : CmdHdr) (p a id source limit : Nat) (s : State) : State :=
  s.ordered h 0x0501 fun s =>
    s.checked h 0x0501 [(32, placementOk p), (33, airspaceOk a), (34, decide (id < 64)), (56, limitOk h limit)] fun s =>
      let e := (s.plc p).adapters.find id
      if !(s.plc p).live || s.boundElsewhere a p then s.answer h 0x0501 .notPermitted
      else if e.any fun e => e.owner ≠ a then s.answer h 0x0501 .notPermitted
      else if (e.any fun e => e.slotA.isSome && e.slotB.isSome) || s.tuneHolds p id
          || s.transfers.any fun t => t.placement = p && t.kind = 3 && t.adapter = id then s.answer h 0x0501 .busy
      else s.openTransfer h 0x0501 { newTransfer 3 p a source (limitOf h limit) with adapter := id }

def execAdapterLoad (h : CmdHdr) (placement airspace adapter source timeLimit : Nat) (s : State) : Result :=
  .next (opAdapterLoad h placement airspace adapter source timeLimit s)

def opAdapterRemove (h : CmdHdr) (p a id : Nat) (s : State) : State :=
  s.ordered h 0x0502 fun s =>
    s.checked h 0x0502 [(32, placementOk p), (33, airspaceOk a), (34, decide (id < 64))] fun s =>
      match (s.plc p).adapters.find id with
      | none => s.answer h 0x0502 .noResource
      | some e =>
        if e.owner ≠ a then s.answer h 0x0502 .notPermitted
        else
          let s := s.updPlc p fun x => x.updAdapter id fun e => { e with retiring := true }
          let s := if s.tuneHolds p id then s.failTune p else s
          s.sweepAdapters.answer h 0x0502 .ok

def execAdapterRemove (h : CmdHdr) (placement airspace adapter : Nat) (s : State) : Result :=
  .next (opAdapterRemove h placement airspace adapter s)

/-- At boundary k: versions whose boundary has come become current, and their load or commit is answered OK (R172). -/
def State.adaptersCurrent (s : State) (k : Nat) : State :=
  let s := s.forAll (List.range 4) fun s p =>
    (s.plc p).adapters.foldl (fun s e =>
      match ((e.2.slotA.toList ++ e.2.slotB.toList).find? fun v => v.atBoundary.any (· ≤ k)).map (·.version) with
      | none => s
      | some n =>
        let turn (v : AdapterSlot) : AdapterSlot := if v.version = n then { v with current := true, atBoundary := none } else { v with current := false }
        let s := s.updPlc p fun x => x.updAdapter e.1 fun e => { e with slotA := e.slotA.map turn, slotB := e.slotB.map turn }
        match s.transfers.find? fun t => t.kind = 3 && t.placement = p && t.adapter = e.1 && t.slot == some n with
        | none => s
        | some t => s.endTransfer t .ok) s
  s.sweepAdapters

/-! ### Tuning commands (R270, R276, R277) -/

/-- TUNE_START, with the checks in the order of R270. DESIGN CHOICE (log entry 148): a retiring ID counts as one whose slots are held, BUSY. -/
def opTuneStart (h : CmdHdr) (p a id source limit : Nat) (s : State) : State :=
  s.ordered h 0x0503 fun s =>
    s.checked h 0x0503 [(32, placementOk p), (33, airspaceOk a), (34, decide (id < 64)), (56, limitOk h limit)] fun s =>
      let x := s.plc p
      let e := x.adapters.find id
      let busy := x.tune.st == .loading || x.tune.st == .running || ((x.tune.st == .done || x.tune.st == .stopped) && x.tune.held)
      if !x.live || !x.plan.tuning || s.boundElsewhere a p then s.answer h 0x0503 .notPermitted
      else if busy then s.answer h 0x0503 .busy
      else if e.any fun e => e.owner ≠ a then s.answer h 0x0503 .notPermitted
      else if e.any fun e => (e.slotA.isSome && e.slotB.isSome) || e.retiring then s.answer h 0x0503 .busy
      else
        let s := s.updPlc p fun x => { x with tune := { st := .loading, airspace := a, adapter := id, cmdSeq := h.seq, cmdSrc := h.src, cmdOp := opOf h 0x0503, held := true } }
        (s.openTransfer h 0x0503 { newTransfer 4 p a source (limitOf h limit) with adapter := id }).gaugeTune p

def execTuneStart (h : CmdHdr) (placement airspace adapter source timeLimit : Nat) (s : State) : Result :=
  .next (opTuneStart h placement airspace adapter source timeLimit s)

/-- TUNE_STOP: the job ends at its next completed optimiser step (R276). -/
def opTuneStop (h : CmdHdr) (p : Nat) (s : State) : State :=
  s.ordered h 0x0504 fun s => s.checked h 0x0504 [(32, placementOk p)] fun s =>
    if (s.plc p).tune.st == .running then
      (s.updPlc p fun x => { x with tune := { x.tune with stopping := true } }).answer h 0x0504 .ok
    else s.answer h 0x0504 .notPermitted

def execTuneStop (h : CmdHdr) (placement : Nat) (s : State) : Result := .next (opTuneStop h placement s)

/-- A held result of a placement. -/
def TuneJob.hasResult (j : TuneJob) : Bool := (j.st == .done || j.st == .stopped) && j.held

/-- TUNE_COMMIT at the boundary: the result takes the next version number and becomes current; its backing copy is written (R277). -/
def State.commitTune (s : State) (p : Nat) : Option State :=
  let j := (s.plc p).tune
  let cores := j.areas.map fun q => (q.1, q.2.1 / 2048, ceilDiv q.2.2.2 32768, q.2.2.2 / 16)
  let bytes := cores.flatMap fun q => (s.core q.1).mem.bytes (65536 * q.2.1) (32 * q.2.2.2)
  match (s.plc p).image, s.writeBacking j.airspace bytes with
  | some i, some (pages, s) =>
    let e := (s.plc p).adapters.getD j.adapter
      { owner := j.airspace, slotA := none, slotB := none, retiring := false, lastVersion := 0, layers := i.layers, hidden := i.hidden
        qHeads := i.qHeads, kvHeads := i.kvHeads, headDim := i.headDim }
    let n := nextVersion e.lastVersion
    let v : AdapterSlot := { version := n, current := true, pinned := 0, keyHash := j.keyHash, backing := pages, atBoundary := none, cores := cores }
    let old (y : AdapterSlot) : AdapterSlot := { y with current := false }
    let e := { e with lastVersion := n, slotA := e.slotA.map old, slotB := e.slotB.map old }
    let e := if e.slotA.isNone then { e with slotA := some v } else { e with slotB := some v }
    let s := (s.updPlc p fun x => { x with adapters := x.adapters.set j.adapter e }).freeAreas p false
    some (s.sweepAdapters.gaugeTune p)
  | _, _ => none

def opTuneCommit (h : CmdHdr) (p : Nat) (s : State) : State :=
  s.ordered h 0x0505 fun s => s.checked h 0x0505 [(32, placementOk p)] fun s =>
    if (s.plc p).tune.hasResult then s.atBoundaryPending h 0x0505 (.tuneCommit h p)
    else s.answer h 0x0505 .notPermitted

def execTuneCommit (h : CmdHdr) (placement : Nat) (s : State) : Result := .next (opTuneCommit h placement s)

/-- TUNE_DISCARD: the held result's slot is released; with a commit in the same control slot the commit wins (R277, R400). -/
def opTuneDiscard (h : CmdHdr) (p : Nat) (s : State) : State :=
  s.ordered h 0x0506 fun s => s.checked h 0x0506 [(32, placementOk p)] fun s =>
    let committing := s.host.deferred.any fun d => match d.order with | .tuneCommit _ q => q == p | _ => false
    if committing then s.answerWith h 0x0506 .superseded 2 []
    else if (s.plc p).tune.hasResult then
      let s := s.freeAreas p true
      (s.gaugeTune p).answer h 0x0506 .ok
    else s.answer h 0x0506 .notPermitted

def execTuneDiscard (h : CmdHdr) (placement : Nat) (s : State) : Result := .next (opTuneDiscard h placement s)

/-- What the losses of the tick do to the tuning jobs (R275). -/
def State.settleTunes (s : State) : State :=
  s.forAll (List.range 4) fun s p =>
    let j := (s.plc p).tune
    let s := if j.hit = 0 then s else s.updPlc p fun x => { x with tune := { x.tune with hit := 0 } }
    if j.hit = 2 then s.failTune p else if j.hit = 1 && j.st == .running then s.repeatTune p else s

/-- Jobs that have left RUNNING release their region slots and their work areas and are answered: OK for DONE and STOPPED (R276, R407). -/
def State.finishTunes (s : State) : State :=
  s.forAll (List.range 4) fun s p =>
    let j := (s.plc p).tune
    if j.cmdOp = 0 || j.st == .none || j.st == .loading || j.st == .running then s
    else
      let s := s.freeTuneRegions p
      let s := if j.st == .failed then s.freeAreas p true else s.freeWork p
      let s := s.finalReply j.cmdSrc j.cmdSeq j.cmdOp (if j.st == .failed then .noResource else .ok)
      (s.updPlc p fun x => { x with tune := { x.tune with cmdOp := 0, assigned := [] } }).gaugeTune p

end Sys2Proof.Machine
end

