-- ==== Sys2Proof/Machine/Kv.lean ====
section
/-! DEFINITION. KV beyond the scratchpad: pause copies and copy-backs (R202-R205), the holds that end by time (R204, R211, R234), and the
page copies of shared prefixes (R192, R194). -/

namespace Sys2Proof.Machine

/-- First word of a session's private region in a core. -/
def State.kvBaseOf (s : State) (r : Nat × Nat × Nat × Nat) : Nat := r.2.1 + mapWords r.2.2.1 (s.kvShare r.1).1

/-- The session's region in a core that holds logical page u, and the page slot of a page there. -/
def State.pageInCore (s : State) (a u id : Nat) (r : Nat × Nat × Nat × Nat) : Option Nat :=
  let (split, share) := s.kvShare r.1
  if u % split ≠ share then none
  else ((s.asp a).carvings.find? fun cv => cv.core = r.1).bind fun cv => cv.pageBase id

/-- PAUSE_COPY_COMPLETE: every core has reported; the pause record stands. Slots go and KV_HELD comes at the next boundary (R202). -/
def opPauseCopy (n : Nat) (s : State) : State :=
  let d := s.sess n
  match d.pauseRec with
  | none => s
  | some r => if d.st == .paused && r.copying then s.updSess n fun d => { d with pauseRec := some { r with copying := false } } else s

def execPauseCopyComplete (session : Nat) (s : State) : Result := .next (opPauseCopy session s)

/-- At a boundary: pauses whose copy is complete give up their slots and their holds on copied pages; KV_HELD is 1 (R202). -/
def State.holdPauses (s : State) : State :=
  let s := s.forAll (s.sessIds.filter fun n => (s.sess n).failedPause) State.releaseKv
  s.forAll (s.sessIds.filter fun n =>
    let d := s.sess n
    d.st == .paused && !d.kvHeld && (d.pauseRec.any fun r => !r.copying)) fun s n =>
    let d := s.sess n
    let links := (d.pauseRec.map (·.links)).getD []
    let s := s.updAsp d.airspace fun x => x.unhold (d.pages.filter fun id => !links.contains id)
    let s := (s.freeRegions n).bump Reg.Cloud.PAUSE_COPIES
    s.updSess n fun d => { d with pages := [], kvHeld := true }

/-- An uncorrectable line of one of these pages has been read (R201, R206): which page holds it is a free value (log entry 121). The 16th line of a
stack within 1 s makes it LOST. -/
def State.badLine (s : State) (stripes pages : List Nat) : State :=
  let (v, s) := s.fresh
  let s := s.mark Reg.Cloud.UNCORR
  match (pages[v % pages.length]?).bind fun p => s.cloudPage stripes p with
  | none => s
  | some (stk, _) =>
    let now := s.tick.wall480
    let recent := ((s.stack stk).badLines.filter fun t => now < t + 480 * 10 ^ 9) ++ [now]
    let s := (s.bump (Reg.Cloud.UNCORR_LINES stk)).updStack stk fun x => { x with badLines := recent }
    if 16 ≤ recent.length then s.loseStack stk 1 else s

/-- COPY_BACK_COMPLETE: the blocks stand in the session's region and pages again, and the Cloudbank pages are freed; a failed one frees
the pages and the session is re-prefilled (R203). -/
def opCopyBack (n : Nat) (ok : Bool) (s : State) : State :=
  let d := s.sess n
  match d.pauseRec with
  | none => s
  | some r =>
    if !d.copyBack then s
    else if !ok then
      let s := (s.badLine (s.asp d.airspace).stripes r.pages).releaseKv n
      (s.dropPause n).updSess n fun d => { d with kvHeld := false, copyBack := false }
    else
      let back := r.copied.filterMap fun i => d.pages[i]?
      let s := d.regions.foldl (fun s g =>
        let copy (lo words : Nat) : List Byte := ((r.bytes.getD g.1 []).bytes lo (32 * words))
        let s := s.poke g.1 (32 * s.kvBaseOf g) (copy 0 (s.privateBlocks d g.1 r.kvFill * s.kvBlock g.1))
        (List.range back.length).foldl (fun s j =>
          match ((s.asp d.airspace).carvings.find? fun cv => cv.core = g.1).bind fun cv => cv.pageBase (back.getD j 0) with
          | none => s
          | some b => s.poke g.1 (32 * b) (copy (2 ^ 32 * (j + 1)) (4 * s.kvBlock g.1))) s) s
      let s := ((s.dropPause n).writeMaps n).bump Reg.Cloud.RESUME_COPIES
      s.updSess n fun d => { d with kvHeld := false, copyBack := false }

def execCopyBackComplete (session : Nat) (ok : Bool) (s : State) : Result := .next (opCopyBack session ok s)

/-- PAUSE_TTL_EXPIRY: unless a copy-back has begun, the pages are freed and KV_HELD is 0 (R204). -/
def opPauseTtl (n : Nat) (s : State) : State :=
  let d := s.sess n
  if d.st == .paused && d.kvHeld && !d.copyBack then
    let s := s.dropPause n
    let s := (s.bump Reg.Cloud.EXPIRED_COUNT).mark Reg.Cloud.KV_EXPIRED
    s.event { code := 0x0402, placement := d.placement, airspace := d.airspace, detail := le4 44 (handleOf n d) }
  else s

def execPauseTtlExpiry (session : Nat) (s : State) : Result := .next (opPauseTtl session s)

/-- CONTINUATION_HOLD_EXPIRY: the ENDED descriptor becomes FREE (R234). -/
def execContinuationHoldExpiry (session : Nat) (s : State) : Result :=
  .next (if (s.sess session).st == .ended then s.freeSession session else s)

/-- CONTRAIL_HOLD_EXPIRY: the PAUSED session ends EXPIRED (R211). -/
def execContrailHoldExpiry (session : Nat) (s : State) : Result :=
  .next (if (s.sess session).st == .paused then s.endSession session 6 else s)

/-- PREFIX_PAGE_COPY_COMPLETE: the partial page stands in its page slots; READY follows at the next boundary (R192). -/
def opPrefixCopy (a e : Nat) (s : State) : State :=
  let pe := (s.asp a).prefixes.getD e {}
  match pe.registrant with
  | none => s
  | some n =>
    if pe.st != .filling || pe.tokens % 256 = 0 || pe.copied then s
    else
      let u := pe.tokens / 256
      let blocks := ceilDiv (pe.tokens % 256) 64
      let id := pe.pages.getD u 0
      let s := (s.sess n).regions.foldl (fun s g =>
        match s.pageInCore a u id g with
        | none => s
        | some b =>
          let s := s.count (Reg.Kv.KV_COW (coreField g.1)) blocks
          s.copyWords g.1 (s.kvBaseOf g) b (blocks * s.kvBlock g.1)) s
      s.updAsp a fun x => { x with prefixes := x.prefixes.set e { pe with copied := true } }

def execPrefixPageCopyComplete (airspace entry : Nat) (s : State) : Result := .next (opPrefixCopy airspace entry s)

/-- At boundary k: registered prefixes whose positions and copies are complete become READY (R192, R193). -/
def State.readyPrefixes (s : State) (k : Nat) : State :=
  s.forAll (List.range 8) fun s a =>
    ((s.asp a).prefixes.map Prod.fst).foldl (fun s e =>
      let pe := (s.asp a).prefixes.getD e {}
      if pe.st == .filling && (pe.due.any (· ≤ k)) && (pe.tokens % 256 = 0 || pe.copied) then
        let s := s.updAsp a fun x => { (x.hold pe.pages) with prefixes := x.prefixes.set e { pe with st := .ready, registrant := none } }
        match pe.registrant with
        | none => s
        | some n =>
          -- the session's entries for its full new pages turn SHARED and count as its holds
          let full := pe.pages.take (pe.tokens / 256)
          let s := s.updAsp a fun x => x.hold (full.filter fun id => !(s.sess n).pages.contains id)
          (s.updSess n fun d => { d with registering := none, pages := full }).writeMaps n
      else s) s

/-- PREFIX_COW_COMPLETE: the partial page stands in the session's private blocks, or in the page slot that a registration takes for the page; its hold
is released (R192, R194). -/
def opCow (n : Nat) (s : State) : State :=
  let d := s.sess n
  match d.cowPage with
  | none => s
  | some id =>
    let u := d.pages.length
    let words := d.cowLeft
    let s := d.regions.foldl (fun s g =>
      match s.pageInCore d.airspace u id g with
      | none => s
      | some b =>
        let blocks := ceilDiv (min words (4 * s.kvBlock g.1)) (max 1 (s.kvBlock g.1))
        let s := s.count (Reg.Kv.KV_COW (coreField g.1)) blocks
        let dst := match (s.ownPages n).head?.bind fun own => s.pageInCore d.airspace u own g with
          | some own => own
          | none => s.kvBaseOf g
        s.copyWords g.1 b dst (blocks * s.kvBlock g.1)) s
    let s := s.updAsp d.airspace fun x => x.unhold [id]
    s.updSess n fun d => { d with cowPage := none, cowLeft := 0 }

def execPrefixCowComplete (session : Nat) (s : State) : Result := .next (opCow session s)

end Sys2Proof.Machine
end

