-- ==== Sys2Proof/Machine/Wire.lean ====
section
/-! DEFINITION. Messages as bytes (R9): what the module writes (R252, R254, R255, R258, R260, R374, R391), what a client writes (R244-R249, R257, R259),
and the frames of the Ethernet ports (R242, R243, R245). -/

namespace Sys2Proof.Machine

/-! ### Device messages, in network byte order (R244, R246) -/

/-- The 24 bytes of a message header. -/
def msgHeader (type len flags seq handle tick : Nat) : List Byte :=
  beBytes 2 0x5456 ++ beBytes 1 1 ++ beBytes 1 type ++ beBytes 2 len ++ beBytes 2 flags ++ beBytes 4 seq ++ beBytes 4 handle ++ beBytes 8 tick

/-- An ACK (R252). -/
def AckMsg.bytes (m : AckMsg) (tick : Nat) : List Byte :=
  msgHeader 0x81 88 0 m.client.seq m.handle tick
    ++ beBytes 2 m.status.code ++ beBytes 1 m.cls ++ beBytes 1 (bit m.prefixRefused 0 + bit m.slotMode 1 + bit m.rebuild 2)
    ++ beBytes 2 m.adapterVersion ++ beBytes 2 0 ++ beBytes 8 m.clearBoundary ++ beBytes 8 m.firstBound ++ beBytes 8 m.doneBound
    ++ beBytes 8 m.firstNs ++ beBytes 8 m.doneNs ++ beBytes 8 m.seed.toNat ++ beBytes 4 m.prefixHandle ++ beBytes 4 m.maxTokens

/-- A record of a step batch (R255). -/
def Rec.bytes (r : Rec) : List Byte :=
  beBytes 4 r.handle ++ beBytes 4 r.index ++ beBytes 1 r.kind ++ beBytes 1 r.marks ++ beBytes 2 r.aux ++ beBytes 4 r.value

/-- A part of a step batch (R254). -/
def Batch.bytes (b : Batch) (again : Bool) : List Byte :=
  msgHeader 0x82 (32 + 16 * b.records.length) (bit again 0) 0 0 b.tick
    ++ beBytes 4 b.seq ++ beBytes 1 b.part ++ beBytes 1 b.parts ++ beBytes 2 b.records.length ++ b.records.flatMap Rec.bytes

/-- A HISTORY message (R258). -/
def historyBytes (seq handle first tick : Nat) (tokens : List Nat) : List Byte :=
  msgHeader 0x84 (32 + 3 * tokens.length) 0 seq handle tick
    ++ beBytes 4 first ++ beBytes 2 tokens.length ++ beBytes 2 0 ++ tokens.flatMap (beBytes 3)

/-- A CHUNK_ACK (R260). -/
def chunkAckBytes (transfer result chunk done tick : Nat) : List Byte :=
  msgHeader 0x83 40 0 0 0 tick ++ beBytes 2 transfer ++ beBytes 1 result ++ beBytes 1 0 ++ beBytes 4 chunk ++ beBytes 4 done ++ beBytes 4 0

/-! ### Records and replies in host memory, little-endian (R374, R391) -/

/-- An event record of 64 bytes. -/
def Event.bytes (e : Event) : List Byte :=
  leBytes 2 e.code ++ leBytes 1 (bit e.more 0 + bit e.isEnd 1) ++ [0] ++ leBytes 4 e.seq ++ leBytes 8 e.tick ++ leBytes 1 e.placement
    ++ leBytes 1 e.airspace ++ leBytes 1 e.field ++ leBytes 1 e.core ++ leBytes 1 e.stages.length ++ [0, 0, 0]
    ++ ((List.range 8).flatMap fun i => leBytes 2 (e.stages.getD i 0xFFFF))
    ++ (List.range 24).map fun i => BitVec.ofNat 8 (((e.detail.find? fun d => d.1 = 40 + i).map Prod.snd).getD 0)

/-- A reply of 256 bytes. -/
def Reply.bytes (r : Reply) : List Byte :=
  let result (i : Nat) : Byte :=
    match r.result.find? fun f => f.1 ≤ i && i < f.1 + f.2.1 with
    | some f => BitVec.ofNat 8 (f.2.2 / 256 ^ (i - f.1))
    | none => 0
  leBytes 4 r.num ++ leBytes 4 r.seq ++ leBytes 2 r.opcode ++ leBytes 2 r.status.code ++ leBytes 1 (bit r.final 0 + bit r.inBuffer 1) ++ [0, 0, 0]
    ++ leBytes 8 r.tick ++ leBytes 4 r.detail ++ [0, 0, 0, 0] ++ (List.range 224).map result

/-- What an answer carries as it leaves in a tick: a message, a record or a reply; none: another unit's signal. -/
def Out.wire (tick : Nat) : Out → Option (List Byte)
  | .ack m t => some (m.bytes t)
  | .stepBatch _ b again => some (b.bytes again)
  | .history c handle first tokens => some (historyBytes c.seq handle first tick tokens)
  | .chunkAck _ transfer result chunk done => some (chunkAckBytes transfer result chunk done tick)
  | .event e => some e.bytes
  | .reply r => some r.bytes
  | .bmcReply r => some r.bytes
  | _ => none

/-! ### Client messages (R244-R249, R257, R259) -/

/-- The n bytes at an offset of a message, most significant first. -/
def msgAt (b : List Byte) (o n : Nat) : Nat := beNat ((b.drop o).take n)

/-- A SAMPLING block as a client writes it: the fields of R225 in network byte order; none: a reserved byte is set. -/
def readMsgSampling (b : List Byte) : Option Sampling :=
  if msgAt b 24 8 ≠ 0 then none
  else some {
    temperature := BitVec.ofNat 32 (msgAt b 0 4), topP := BitVec.ofNat 32 (msgAt b 4 4), minP := BitVec.ofNat 32 (msgAt b 8 4), topK := msgAt b 12 2
    seed := BitVec.ofNat 64 (msgAt b 16 8)
    stopIds := (List.range (msgAt b 15 1)).map fun i => msgAt b (32 + 4 * i) 4
    biases := (List.range (msgAt b 14 1)).map fun j => (msgAt b (64 + 8 * j) 4, BitVec.ofNat 32 (msgAt b (68 + 8 * j) 4)) }

/-- A part of an OPEN or CONTINUE (R247); none: its length does not fit, or a SAMPLING block does not. -/
def readOpenPart (b : List Byte) : Option OpenPart :=
  let count := msgAt b 32 2
  let tokens (o : Nat) : List Nat := (List.range count).map fun i => msgAt b (o + 3 * i) 3
  let common : OpenPart :=
    { part := msgAt b 24 2, parts := msgAt b 26 2, tokenFirst := msgAt b 28 4, tokens := [], promptLen := 0, maxTokens := 0, dest := 0, cls := 0,
      register := false, sampling := none, prefixHandle := 0, registerLen := 0, adapterId := 0, reserved := msgAt b 34 2 }
  if b.length < 36 then none
  else if common.part ≠ 0 then (if b.length = 36 + 3 * count then some { common with tokens := tokens 36 } else none)
  else if b.length < 64 then none
  else
    let flags := msgAt b 47 1
    let withSampling := flags / 2 % 2 == 1
    let first := if withSampling then 640 else 64
    if b.length ≠ first + 3 * count || (withSampling && (readMsgSampling ((b.drop 64).take 576)).isNone) then none
    else some { common with
      tokens := tokens first, promptLen := msgAt b 36 4, maxTokens := msgAt b 40 4, dest := msgAt b 44 2, cls := msgAt b 46 1
      register := flags % 2 == 1, sampling := if withSampling then readMsgSampling ((b.drop 64).take 576) else none
      prefixHandle := msgAt b 48 4, registerLen := msgAt b 52 4, adapterId := msgAt b 56 1
      reserved := common.reserved + flags / 4 + msgAt b 57 7 }

/-- A message header of R244 that a client may send (R245). DESIGN CHOICE (log entry 147): FLAGS bit 0, RETRANSMITTED, is not reserved, so a client
message that sets it passes and the bit means nothing there. -/
def headerOk (b : List Byte) : Bool :=
  decide (24 ≤ b.length) && msgAt b 0 2 == 0x5456 && msgAt b 2 1 == 1 && decide (1 ≤ msgAt b 3 1) && decide (msgAt b 3 1 ≤ 7)
    && msgAt b 4 2 == b.length && decide (msgAt b 6 2 ≤ 1)

/-- A field that does not fit is answered BAD_PARAMETER, a remembered request with its answer (R245, R251). -/
def State.badMessage (s : State) (c : Client) : State :=
  match s.remembered c with
  | some r => s.duplicate c r
  | none => s.badField c

/-- A client message with a good header takes its effect (R245, R246). -/
def State.message (s : State) (c : Client) (b : List Byte) : State :=
  let type := msgAt b 3 1
  -- TICK is 0 in client messages, and HANDLE in those that name no session
  let named := type ≠ 1 && type ≠ 7 && !(type = 6 && msgAt b 26 1 = 0)
  if msgAt b 16 8 ≠ 0 || (!named && c.handle ≠ 0) then s.badMessage c
  else match type with
    | 1 => match readOpenPart b with
      | some p => s.openPart c false p
      | none => s.badMessage c
    | 2 => match readOpenPart b with
      | some p => s.openPart c true p
      | none => s.badMessage c
    | 3 => if b.length = 28 then s.opCancel c (msgAt b 24 4) else s.badMessage c
    | 4 => if b.length = 28 then s.opPause c (msgAt b 24 4) else s.badMessage c
    | 5 => if b.length = 24 then s.opResume c else s.badMessage c
    | 6 =>
      if b.length = 36 && msgAt b 27 1 = 0 then opRetransmit c (msgAt b 24 2) (msgAt b 26 1) (msgAt b 28 4) (msgAt b 32 4) s else s.badMessage c
    | _ =>
      if msgAt b 26 2 = 0 && msgAt b 38 2 = 0 && b.length = 40 + msgAt b 36 2 then
        opChunk ⟨c.airspace, c.addr, msgAt b 24 2, msgAt b 28 4, msgAt b 32 4, b.drop 40⟩ s
      else s.badMessage c

/-! ### Frames (R242, R243) -/

/-- A frame is addressed to an airspace at its port: its MAC address, or a group address where the protocol uses one, and its VLAN ID, tag and no tag
being VLAN 0 (R243, log entry 146). -/
def State.reaches (s : State) (f : Frame) (a : Nat) : Bool :=
  (f.dstMac == Config.macBase + 8 * f.port + a || (f.echo.isSome && f.dstMac / 2 ^ 40 % 2 == 1)) && f.vlan.getD 0 == (s.asp a).vlan

/-- An option of a DHCPv6 message. -/
def dhcpOption (code : Nat) : Nat → List Byte → Option (List Byte)
  | 0, _ => none
  | fuel + 1, b =>
    if b.length < 4 then none
    else if msgAt b 0 2 = code then some ((b.drop 4).take (msgAt b 2 2))
    else dhcpOption code fuel (b.drop (4 + msgAt b 2 2))

/-- The address that a DHCPv6 Reply gives: the IAADDR option of its IA_NA (R242). PRESUMED (log entry 66): the message's layout is the protocol's own. -/
def dhcpAddress (b : List Byte) : Option Nat :=
  if msgAt b 0 1 ≠ 7 then none
  else (dhcpOption 3 (b.length + 1) (b.drop 4)).bind fun ia => (dhcpOption 5 (ia.length + 1) (ia.drop 12)).bind fun x =>
    if x.length < 24 then none else some (msgAt x 0 16)

/-- A DHCPv6 Reply to an airspace that asks for an address: one that no other airspace holds is leased (R243, R263). -/
def State.takeLease (s : State) (a : Nat) (b : List Byte) : State :=
  match dhcpAddress b with
  | some addr =>
    if ((List.range 8).filter (· != a)).any fun o => ((s.asp o).addresses.any fun e => e.2.1 = addr) || (s.asp o).lease == some addr then s
    else s.updAsp a fun x => { x with lease := some addr }
  | none => s

/-- A frame arrives: counted, and dropped, answered or carried out (R242, R243, R245). An answer is a frame as long as the one it answers (DEDUCED, log
entry 124). -/
def opFrame (f : Frame) (s : State) : State :=
  let s := s.bump (Reg.Eth.RX_FRAMES f.port)
  let bad (s : State) : State := s.bump (Reg.Eth.BAD_FRAME f.port)
  if f.pause then s
  else if (s.ethPort f.port).mtu < f.length || !f.fcsOk || f.fragment || f.extensionOrOptions then bad s
  else match f.echo with
    | some code => match (List.range 8).find? fun a => s.reaches f a && s.owns f.port a f.dstAddr with
      | none => bad s
      | some a => s.sendFrame a f.port (max 64 f.length) (.echoReply f.port code)
    | none =>
      if f.udpChecksumOk ≠ some true then bad s
      else match (List.range 8).find? fun a => s.reaches f a && f.dstPort = 546 && (s.asp a).dhcp && linkLocal f.port a == f.dstAddr with
        | some a => s.takeLease a f.payload
        | none => match (s.airspaceAt f.port f.dstAddr f.dstPort).filter (s.reaches f) with
          | none => bad s
          | some a =>
            let x := s.asp a
            if !x.filters.isEmpty && !x.filters.any (inPrefix f.srcAddr) then s.bump (Reg.Eth.FILTERED a)
            else if !headerOk f.payload then s.bump (Reg.Eth.BAD_MESSAGE f.port)
            else s.message ⟨a, f.srcAddr, f.srcPort, f.port, msgAt f.payload 8 4, msgAt f.payload 12 4, !isV4 f.srcAddr⟩ f.payload

def execEthernetFrame (f : Frame) (s : State) : Result := .next (opFrame f s)

end Sys2Proof.Machine
end

