-- ==== Sys2Proof/Machine/SessionCmds.lean ====
section
/-! DEFINITION. The session family of host commands (R406): queries of descriptors (R239), cancels, pauses, lists, and the settings of R208
and R241; and how every stored setting is applied at its boundary. -/

namespace Sys2Proof.Machine

/-- State codes of R210. -/
def SessState.code : SessState → Nat
  | .free => 0 | .queued => 1 | .prefill => 2 | .decode => 3 | .paused => 4 | .draining => 5 | .ended => 6

/-- FLAGS of R239. -/
def Desc.flags (d : Desc) : Nat :=
  bit d.cancelLatched 0 + bit d.pauseLatched 1 + bit d.kvHeld 2 + bit d.rebuilt 3 + bit d.faultDelayed 4 + bit d.stretchExceeded 5
    + bit d.cancelLate 6 + bit d.prefixRefused 7 + bit d.slotMode 8

/-- The 1,024 bytes of a descriptor (R239). -/
def descBytes (n : Nat) (d : Desc) : List Byte :=
  let body := leBytes 4 (handleOf n d) ++ leBytes 1 d.st.code ++ leBytes 1 d.airspace ++ leBytes 1 d.placement ++ leBytes 1 d.cls
    ++ leBytes 4 d.flags ++ leBytes 1 d.endReason ++ leBytes 1 d.committed ++ leBytes 1 (d.lane.getD 0xFF) ++ [0]
    ++ leBytes 2 (d.phase.getD 0xFFFF) ++ leBytes 1 (d.adapterId.getD 0xFF) ++ [0] ++ leBytes 2 d.adapterVersion ++ [0, 0]
    ++ leBytes 4 d.prefixHandle ++ leBytes 4 d.promptLen ++ leBytes 4 d.maxTokens ++ leBytes 4 d.delivered ++ leBytes 4 d.kvFill
    ++ leBytes 4 (d.pendingTok % 2 ^ 18) ++ leBytes 8 d.clearBoundary ++ leBytes 8 d.firstBound ++ leBytes 8 d.doneBound
    ++ leBytes 8 d.firstNs ++ leBytes 8 d.doneNs ++ leBytes 4 d.delayTicks ++ leBytes 4 d.pauseTtl ++ leBytes 2 d.dest
  let body := body ++ List.replicate (128 - body.length) 0
  let body := body ++ (match d.sampling with | some x => samplingBlock x | none => [])
  body ++ List.replicate (1024 - body.length) 0

/-! ### The contrail store and the lines of a stack (R197-R199, R235, R236) -/

/-- A contrail as it stands in a copy: the descriptor, and from byte 1,024 the history, token i in bits 18i and up (R235). -/
def contrailBytes (n : Nat) (d : Desc) : List Byte :=
  descBytes n d ++ leBytes (ceilDiv (18 * d.history.length) 8) ((d.history.reverse).foldl (fun v tok => v * 2 ^ 18 + tok % 2 ^ 18) 0)

/-- The descriptor of which a page of a stack's channel 0 holds a copy, and the copy's first page (R199, R201). -/
def State.copyAt (s : State) (st page : Nat) : Option (Nat × Nat) :=
  s.sessions.findSome? fun e =>
    if e.2.st == .free then none
    else ([e.2.copyA, e.2.copyB].findSome? fun c => match c with
      | some (n, pg) => if n = st && pg ≤ page && page < pg + 5 then some pg else none
      | none => none).map fun pg => (e.1, pg)

/-- A data byte of a stack. A contrail copy holds its descriptor's contrail as it now is: a released token is in both copies (R236). -/
def State.stackByte (s : State) (st addr : Nat) : Byte :=
  match if addr < 65536 * 1024 then s.copyAt st (addr / 65536) else none with
  | some (n, pg) => (contrailBytes n (s.sess n)).getD (addr - 65536 * pg) 0
  | none => (s.stack st).mem.read addr

/-- Burst i of the line at a 256-byte unit of a stack: bursts 0-7 hold the data of code words 0-7, burst 8 their check symbols in word order (R198). -/
def State.lineBurst (s : State) (st line i : Nat) : List Byte :=
  let word (j : Nat) : List Byte := (List.range 32).map fun b => s.stackByte st (256 * line + 32 * j + b)
  if i < 8 then word i else (List.range 8).flatMap fun j => scCheck (word j)

/-- A stack's refresh interval is halved above 85 degrees (R197). -/
def State.refreshHalved (s : State) (st : Nat) : Bool := decide (85 < s.get (Reg.Cloud.TEMP st))

/-- A descriptor as it reads: a state that a clearance gives stands from its boundary on (R211). -/
def State.shownDesc (s : State) (n : Nat) : Desc :=
  let d := s.sess n
  if d.st == .queued && decide (s.tick.count < d.clearBoundary) then { d with st := d.before } else d

/-- SESSION_QUERY: the descriptor into BUFFER (R239, R406). -/
def opSessionQuery (h : CmdHdr) (handle : Nat) (s : State) : State :=
  s.ordered h 0x0401 fun s =>
    s.checked h 0x0401 [(16, decide (1024 ≤ h.bufferLen)), (32, (s.named handle).isSome)] fun s =>
      s.toBuffer h 0x0401 (descBytes (handle % 4096) (s.shownDesc (handle % 4096))) []

def execSessionQuery (h : CmdHdr) (handle : Nat) (s : State) : Result := .next (opSessionQuery h handle s)

/-- Ask for a cancel that latches at the next boundary (R230). -/
def State.askCancel (s : State) (handle : Nat) : State :=
  match s.named handle with
  | none => s
  | some n => s.updSess n fun d => { d with latch := 1 }

/-- Statuses of the handles of a cancel, 2 bytes each (R406). -/
def State.cancelResult (s : State) (handles : List Nat) : List (Nat × Nat × Nat) :=
  (List.range handles.length).map fun i =>
    (2 * i, 2, if (s.named (handles.getD i 0)).isSome then Status.ok.code else Status.badParameter.code)

/-- SESSION_CANCEL: OK with a status for each handle; 1 to 32 handles (R406). Without ticks it waits for its boundary. -/
def opSessionCancel (h : CmdHdr) (handles : List Nat) (s : State) : State :=
  s.ordered h 0x0402 fun s =>
    s.checked h 0x0402 [(36, decide (1 ≤ handles.length) && decide (handles.length ≤ 32) && (!h.expert || decide (2 ≤ handles.length)))] fun s =>
      if s.tick.running then (handles.foldl State.askCancel s).answerWith h 0x0402 .ok 0 (s.cancelResult handles)
      else s.atBoundaryPending h 0x0402 (.sessionCancel h handles)

def execSessionCancel (h : CmdHdr) (handles : List Nat) (s : State) : Result := .next (opSessionCancel h handles s)

/-- Ask for a pause that latches at the next boundary (R231). A cancel of the same tick prevails (R232). -/
def State.askPause (s : State) (n ttl : Nat) : State :=
  s.updSess n fun d =>
    if d.st == .decode && d.latch ≠ 1 then { d with latch := 2, pauseTtl := if ttl = 0 then (s.asp d.airspace).pauseTtl else ttl } else d

/-- SESSION_PAUSE (R204, R231). -/
def opSessionPause (h : CmdHdr) (handle ttl : Nat) (s : State) : State :=
  s.ordered h 0x0403 fun s =>
    s.checked h 0x0403 [(32, (s.named handle).isSome), (36, !h.expert || inRange 32 ttl 1 86400)] fun s =>
      let n := handle % 4096
      let st := (s.sess n).pauseStatus
      if st != .ok then s.answer h 0x0403 st
      else if s.tick.running then
        (s.askPause n (if h.expert && !unchanged 32 ttl then ttl else 0)).answer h 0x0403 .ok
      else s.atBoundaryPending h 0x0403 (.sessionPause h handle ttl)

def execSessionPause (h : CmdHdr) (handle ttl : Nat) (s : State) : Result := .next (opSessionPause h handle ttl s)

/-- Descriptors of an airspace in the selected states, from an index on, ascending. -/
def State.matching (s : State) (a mask first : Nat) : List Nat :=
  sortNat (s.sessIds.filter fun n =>
    let d := s.shownDesc n
    decide (first ≤ n) && d.st != .free && d.airspace == a && mask / 2 ^ d.st.code % 2 == 1)

/-- SESSION_LIST: handles into BUFFER (R406). -/
def opSessionList (h : CmdHdr) (a mask first : Nat) (s : State) : State :=
  s.ordered h 0x0404 fun s =>
    s.checked h 0x0404 [(32, airspaceOk a), (33, decide (mask < 128)), (34, !h.expert || inRange 16 first 0 4095)] fun s =>
      let from_ := if h.expert && !unchanged 16 first then first else 0
      let all := s.matching a mask from_
      let written := all.take (h.bufferLen / 4)
      let next := if written.length = all.length then 0xFFFF
        else match written.getLast? with
          | some n => n + 1
          | none => from_
      let res := [(0, 4, written.length), (4, 4, all.length), (8, 2, next)]
      if written.isEmpty then s.answerWith h 0x0404 .ok 0 res
      else s.toBuffer h 0x0404 (written.flatMap fun n => leBytes 4 (handleOf n (s.sess n))) res

def execSessionList (h : CmdHdr) (airspace mask first : Nat) (s : State) : Result := .next (opSessionList h airspace mask first s)

/-! ### Prefixes (R193) -/

/-- At its boundary an unregistered prefix gives up its hold on each page and is RETIRING. -/
def State.retirePrefix (s : State) (a handle : Nat) : State :=
  match (s.asp a).prefixNamed handle with
  | none => s
  | some e =>
    let pe := (s.asp a).prefixes.getD e {}
    if pe.st != .ready then s
    else s.updAsp a fun x => { (x.unhold pe.pages) with prefixes := x.prefixes.set e { pe with st := .retiring } }

/-- PREFIX_UNREGISTER: BUSY while FILLING; NOT_PERMITTED once RETIRING. -/
def opPrefixUnregister (h : CmdHdr) (a handle : Nat) (s : State) : State :=
  s.ordered h 0x0405 fun s =>
    s.checked h 0x0405 [(32, airspaceOk a),
        (36, ((s.asp a).prefixNamed handle).any fun e => ((s.asp a).prefixes.getD e {}).st != .free)] fun s =>
      match ((s.asp a).prefixes.getD (handle % 256) {}).st with
      | .ready => s.atBoundary h 0x0405 (.prefixUnregister h a handle)
      | .filling => s.answer h 0x0405 .busy
      | _ => s.answer h 0x0405 .notPermitted

def execPrefixUnregister (h : CmdHdr) (airspace prefixHandle : Nat) (s : State) : Result :=
  .next (opPrefixUnregister h airspace prefixHandle s)

/-! ### Carving and shares as they come into force (R186, R187, R199, R208, R241) -/

/-- An airspace holds a region, a tuning job's region or a prefix page. -/
def State.kvInUse (s : State) (a : Nat) : Bool :=
  (s.asp a).carvings.any fun cv => cv.slots.any (fun e => e.2.2.isSome) || cv.pageSlots.any fun e => e.2.isSome

/-- Airspaces of a placement from a on: those whose segments a change of a's share moves (R186). -/
def State.carvedFrom (s : State) (p a : Nat) : List Nat := (s.boundTo p).filter (a ≤ ·)

/-- Carve a list of airspaces; none: one does not fit. -/
def State.carveList (s : State) (p : Nat) : List Nat → Option State
  | [] => some s
  | a :: rest => (s.carve p a).bind fun s => s.carveList p rest

/-- Carve again for the airspaces that a change moves, if the placement is live. -/
def State.recarve (s : State) (a : Nat) : Option State :=
  match (s.asp a).placement with
  | none => some s
  | some p => if (s.plc p).live then s.carveList p (s.carvedFrom p a) else some s

/-- Carve one airspace's own segments again. -/
def State.recarveOwn (s : State) (a : Nat) : Option State :=
  match (s.asp a).placement with
  | none => some s
  | some p => if (s.plc p).live then s.carve p a else some s

/-- Bytes of the given channels of every stack are lost with the partition they stood in (R199). -/
def State.loseChannels (s : State) (channels : List Nat) : State :=
  { s with hbm := s.hbm.map fun e => (e.1, { e.2 with mem := e.2.mem.filter fun b =>
      !(channels.contains (b.1 / (65536 * 32768)) && decide ((if b.1 / (65536 * 32768) = 0 then 1024 else 0) ≤ b.1 / 65536 % 32768)) }) }

/-- Stripes no airspace holds, ascending. -/
def State.freeStripes (s : State) : List Nat :=
  (List.range 16).filter fun n => !((List.range 8).any fun a => (s.asp a).stripes.contains n)

/-- A partition of k stripes for an airspace: more from the lowest free ones, fewer by giving up the highest (R199). -/
def State.setStripes (s : State) (a k : Nat) : State :=
  let old := (s.asp a).stripes
  if k = old.length then s
  else
    let new := if k < old.length then old.take k else sortNat (old ++ s.freeStripes.take (k - old.length))
    (s.loseChannels (sortNat (old ++ new))).updAsp a fun x => { x with stripes := new }

/-- The settings of SET_KV as they come into force (R208). -/
def State.applyKv (s : State) (h : CmdHdr) (a ttl k16 k32 k128 pool window : Nat) : Option State :=
  let pick (w v old : Nat) : Nat := if h.expert then setting w v old else old
  let x := s.asp a
  let y := { x with
    pauseTtl := setting 32 ttl x.pauseTtl, slots16k := pick 16 k16 x.slots16k, slots32k := pick 16 k32 x.slots32k
    slots128k := pick 16 k128 x.slots128k, pool := pick 16 pool x.pool, window := pick 32 window x.window }
  let s := s.setAsp a y
  if (x.slots16k, x.slots32k, x.slots128k, x.pool) = (y.slots16k, y.slots32k, y.slots128k, y.pool) then some s else s.recarveOwn a

/-- The settings of SET_SHARES as they come into force. -/
def State.applyShares (s : State) (h : CmdHdr) (a slot kv cloud power : Nat) : Option State :=
  let pick (v old : Nat) : Nat := if h.expert then setting 8 v old else old
  let x := s.asp a
  let y := { x with slotShare := setting 8 slot x.slotShare, kvShare := pick kv x.kvShare, cloudShare := pick cloud x.cloudShare
                    powerShare := pick power x.powerShare }
  let s := s.setAsp a y
  let s := if y.placement.isSome then s.setStripes a y.cloudShare else s
  if x.kvShare = y.kvShare then some s else s.recarve a

/-- An airspace binds: stripes, segments and the routers' filter (R186, R199, R295). -/
def State.applyBind (s : State) (a p : Nat) : Option State :=
  let s := s.updAsp a fun x => { x with placement := some p }
  let s := (s.setStripes a (s.asp a).cloudShare).setFilters p
  s.recarve a

/-- An airspace is unbound: prefixes dropped, its adapters and tuning job released, segments and stripes given back. -/
def State.applyUnbind (s : State) (a : Nat) : Option State :=
  match (s.asp a).placement with
  | none => some s
  | some p =>
    let s := s.dropPrefixes a false
    let s := ((s.plc p).adapters.filter fun e => e.2.owner = a).foldl (fun s e =>
      (e.2.slotA.toList ++ e.2.slotB.toList).foldl (fun s v => s.releaseVersion p e.1 v.version) s) s
    let s := if (s.plc p).tune.st != .none && (s.plc p).tune.airspace = a then s.failTune p else s
    let mine := (s.asp a).carvings.map (·.core)
    let s := mine.foldl (fun s c => s.tagSegs c 0xF ((s.core c).poolSegs.filter fun g => (s.core c).tags.getD g 0xF = a)) s
    let s := (s.loseChannels (s.asp a).stripes).updAsp a fun x =>
      { x with placement := none, carvings := [], stripes := [], cloudPages := [], waiting := x.waiting, pageRefs := [] }
    let s := s.setFilters p
    if (s.plc p).live then s.carveList p (s.carvedFrom p a) else some s

/-- One stored setting that changes carving or shares, applied; an order that no longer fits leaves everything as it was. -/
def State.applyCarving (s : State) (i : Instr) : State :=
  match i with
  | .setKv h a ttl k16 k32 k128 pool window => (s.applyKv h a ttl k16 k32 k128 pool window).getD s
  | .setShares h a slot kv cloud power => (s.applyShares h a slot kv cloud power).getD s
  | .airspaceBind _ a p => (s.applyBind a p).getD s
  | .airspaceUnbind _ a => (s.applyUnbind a).getD s
  | _ => s

/-- The state as the orders accepted in this control slot will leave it, for the checks of a later one (R400). -/
def State.foreseen (s : State) : State := s.host.deferred.foldl (fun s d => s.applyCarving d.order) s

/-! ### Settings (R208, R241) -/

/-- SET_ROUND (R214). -/
def opSetRound (h : CmdHdr) (p round : Nat) (s : State) : State :=
  s.ordered h 0x0406 fun s =>
    s.checked h 0x0406 [(32, placementOk p), (34, inRange 16 round 1 256)] fun s => s.atBoundary h 0x0406 (.setRound h p round)

def execSetRound (h : CmdHdr) (placement round : Nat) (s : State) : Result := .next (opSetRound h placement round s)

/-- SET_SESSION_LIMITS. -/
def opSessionLimits (h : CmdHdr) (a list limit cont contrail : Nat) (s : State) : State :=
  s.ordered h 0x0407 fun s =>
    s.checked h 0x0407 [(32, airspaceOk a), (34, inRange 16 list 0 1024), (36, !h.expert || inRange 16 limit 0 600),
        (40, !h.expert || inRange 32 cont 0 86400), (44, !h.expert || inRange 32 contrail 1 604800)] fun s =>
      s.atBoundary h 0x0407 (.setSessionLimits h a list limit cont contrail)

def execSetSessionLimits (h : CmdHdr) (airspace waitList waitLimit contHold contrailHold : Nat) (s : State) : Result :=
  .next (opSessionLimits h airspace waitList waitLimit contHold contrailHold s)

/-- A setting in FP32: unchanged, or in range. -/
def f32Range (v : Nat) (ok : W32 → Bool) : Bool := unchanged 32 v || ok (BitVec.ofNat 32 v)

/-- SET_SAMPLING. -/
def opSetSampling (h : CmdHdr) (a temperature topP topK minP : Nat) (s : State) : State :=
  s.ordered h 0x0408 fun s =>
    s.checked h 0x0408 [(32, airspaceOk a), (36, f32Range temperature temperatureOk), (40, !h.expert || f32Range topP topPOk),
        (44, !h.expert || inRange 16 topK 0 1024), (48, !h.expert || f32Range minP minPOk)] fun s =>
      s.atBoundary h 0x0408 (.setSampling h a temperature topP topK minP)

def execSetSampling (h : CmdHdr) (airspace temperature topP topK minP : Nat) (s : State) : Result :=
  .next (opSetSampling h airspace temperature topP topK minP s)

/-- Every KV split of the airspace's placement divides a pool of pages (R208). -/
def State.poolFits (s : State) (a pool : Nat) : Bool :=
  match (s.asp a).placement with
  | none => true
  | some p => (s.kvCores p).all fun c => pool % (s.kvShare c).1 == 0

/-- SET_KV (R208): BUSY while something held would move, NO_RESOURCE where a number does not fit. -/
def opSetKv (h : CmdHdr) (a ttl k16 k32 k128 pool window : Nat) (s : State) : State :=
  s.ordered h 0x0409 fun s =>
    let t := s.foreseen
    let x := t.asp a
    let slot (v : Nat) : Bool := !h.expert || inRange 16 v 0 4096
    let newPool := if h.expert then setting 16 pool x.pool else x.pool
    let newWin := if h.expert then setting 32 window x.window else x.window
    s.checked h 0x0409 [(32, airspaceOk a), (36, inRange 32 ttl 1 86400), (40, slot k16), (42, slot k32), (44, slot k128),
        (46, !h.expert || (inRange 16 pool 0 8192 && t.poolFits a newPool)), (48, !h.expert || inRange 32 window 0 2097152)] fun s =>
      let same (v old : Nat) : Bool := !h.expert || setting 16 v old == old
      let still := same k16 x.slots16k && same k32 x.slots32k && same k128 x.slots128k && newPool == x.pool
      if newWin ≠ x.window && t.pagesTotal x.stripes < newWin then s.answer h 0x0409 .noResource
      else if (!still && t.kvInUse a) || x.cloudPages.any (· < newWin) then s.answer h 0x0409 .busy
      else match t.applyKv h a ttl k16 k32 k128 pool window with
        | none => s.answer h 0x0409 .noResource
        | some _ => s.atBoundary h 0x0409 (.setKv h a ttl k16 k32 k128 pool window)

def execSetKv (h : CmdHdr) (airspace ttl slots16k slots32k slots128k pool window : Nat) (s : State) : Result :=
  .next (opSetKv h airspace ttl slots16k slots32k slots128k pool window s)

end Sys2Proof.Machine
end

