-- ==== Sys2Proof/Machine/Airspace.lean ====
section
/-! DEFINITION. The airspace family of host commands (R408): binding, shares, addresses, filters, destinations and egress (R241, R243, R253,
R261, R263), the airspace reset (R211), and how deferred settings come into force. -/

namespace Sys2Proof.Machine

/-! ### Binding and shares -/

/-- The slot and KV shares of a placement's airspaces, with a's taken as given, sum to at most 100 (R241). -/
def State.sharesFit (s : State) (p a slot kv : Nat) : Bool × Bool :=
  let others := (s.boundTo p).filter (· != a)
  let sum (g : AirspaceSt → Nat) (own : Nat) : Nat := (others.map fun b => g (s.asp b)).foldl (· + ·) own
  (decide (sum (·.slotShare) slot ≤ 100), decide (sum (·.kvShare) kv ≤ 100))

/-- Lanes that a slot share allows on a placement (R216). -/
def State.lanesAllowed (s : State) (p share : Nat) : Nat := share * (s.plc p).ns * (s.plc p).plan.maxDepth / 100

/-- Something of an airspace moves that a change of its KV share would move: its own, or that of an airspace above it. -/
def State.kvMoves (s : State) (p a : Nat) : Bool := (s.plc p).live && (s.carvedFrom p a).any s.kvInUse

/-- AIRSPACE_BIND: elsewhere NOT_PERMITTED; shares that would not fit BAD_PARAMETER; a carving that does not fit NO_RESOURCE. -/
def opBind (h : CmdHdr) (a p : Nat) (s : State) : State :=
  s.ordered h 0x0601 fun s =>
    s.checked h 0x0601 [(32, airspaceOk a), (33, placementOk p)] fun s =>
      let t := s.foreseen
      let x := t.asp a
      match x.placement with
      | some q => s.answer h 0x0601 (if q = p then .ok else .notPermitted)
      | none =>
        let fit := t.sharesFit p a x.slotShare x.kvShare
        if !fit.1 || !fit.2 then s.badParam h 0x0601 33
        else if t.kvMoves p a then s.answer h 0x0601 .busy
        else match t.applyBind a p with
          | none => s.answer h 0x0601 .noResource
          | some _ => s.atBoundary h 0x0601 (.airspaceBind h a p)

def execAirspaceBind (h : CmdHdr) (airspace placement : Nat) (s : State) : Result := .next (opBind h airspace placement s)

/-- AIRSPACE_UNBIND: BUSY while any of its descriptors is not FREE. -/
def opUnbind (h : CmdHdr) (a : Nat) (s : State) : State :=
  s.ordered h 0x0602 fun s =>
    s.checked h 0x0602 [(32, airspaceOk a)] fun s =>
      let t := s.foreseen
      if s.sessIds.any fun n => (s.sess n).st != .free && (s.sess n).airspace == a then s.answer h 0x0602 .busy
      else if (t.asp a).placement.any fun p => (t.plc p).live && ((t.boundTo p).filter (a < ·)).any t.kvInUse then s.answer h 0x0602 .busy
      else s.atBoundary h 0x0602 (.airspaceUnbind h a)

def execAirspaceUnbind (h : CmdHdr) (airspace : Nat) (s : State) : Result := .next (opUnbind h airspace s)

/-- AIRSPACE_RESET: PENDING, OK at the boundary. -/
def opAirspaceReset (h : CmdHdr) (a : Nat) (s : State) : State :=
  s.ordered h 0x0603 fun s =>
    s.checked h 0x0603 [(32, airspaceOk a)] fun s => s.atBoundaryPending h 0x0603 (.airspaceReset h a)

def execAirspaceReset (h : CmdHdr) (airspace : Nat) (s : State) : Result := .next (opAirspaceReset h airspace s)

/-- At its boundary every session of the airspace ends AIRSPACE_RESET without a drain; prefixes, copies and a tuning job go
(R195, R205, R211, R277). -/
def State.resetAirspace (s : State) (a : Nat) : State :=
  let s := s.forAll (s.sessIds.filter fun n => (s.sess n).airspace = a && (s.sess n).st != .free) fun s n =>
    let d := s.sess n
    if d.st == .ended then s.updSess n fun d => { d with endReason := 7, endPending := true }
    else if d.st == .draining && d.endReason ≠ 0 then (s.finishSession n 7)
    else s.endSession n 7
  let s := s.dropPrefixes a true
  match (s.asp a).placement with
  | none => s
  | some p => if (s.plc p).tune.st != .none && (s.plc p).tune.airspace = a then s.failTune p else s

/-- SET_SHARES (R199, R241). -/
def opSetShares (h : CmdHdr) (a slot kv cloud power : Nat) (s : State) : State :=
  s.ordered h 0x0604 fun s =>
    let t := s.foreseen
    let x := t.asp a
    let pick (v old : Nat) : Nat := if h.expert then setting 8 v old else old
    let newSlot := setting 8 slot x.slotShare
    let newKv := pick kv x.kvShare
    let newCloud := pick cloud x.cloudShare
    let fit := match x.placement with
      | none => (true, true)
      | some p => t.sharesFit p a newSlot newKv
    let cloudSum := ((List.range 8).map fun b => if b = a then newCloud else (t.asp b).cloudShare).foldl (· + ·) 0
    s.checked h 0x0604 [(32, airspaceOk a), (33, inRange 8 slot 0 100 && fit.1), (34, (!h.expert || inRange 8 kv 0 100) && fit.2),
        (35, (!h.expert || inRange 8 cloud 0 16) && decide (cloudSum ≤ 16)), (36, !h.expert || inRange 8 power 0 100)] fun s =>
      let lanes := x.placement.any fun p => decide (t.lanesAllowed p newSlot < t.lanesOf p a) && decide (newSlot < x.slotShare)
      let regions := newKv ≠ x.kvShare && x.placement.any fun p => t.kvMoves p a
      let inFlight := t.cores.any fun e => e.2.cloud.any fun q => q.airspace = a
      let data := x.placement.any fun p => (t.plc p).tune.st != .none && (t.plc p).tune.airspace == a
      let stripes := newCloud ≠ x.cloudShare && x.placement.isSome && (!x.cloudPages.isEmpty || inFlight || data)
      if lanes || regions || stripes then s.answer h 0x0604 .busy
      else match t.applyShares h a slot kv cloud power with
        | none => s.answer h 0x0604 .noResource
        | some _ => s.atBoundary h 0x0604 (.setShares h a slot kv cloud power)

def execSetShares (h : CmdHdr) (airspace slot kv cloud power : Nat) (s : State) : Result :=
  .next (opSetShares h airspace slot kv cloud power s)

/-! ### Addresses (R243, R263) -/

/-- A prefix length: 0-128, and at least 96 for an IPv4-mapped address. -/
def prefixLenOk (addr len : Nat) : Bool := decide (len ≤ 128) && (!isV4 addr || decide (96 ≤ len))

/-- Every IP address that the other airspaces hold. -/
def State.otherAddresses (s : State) (a : Nat) : List Nat :=
  ((List.range 8).filter (· != a)).flatMap fun b =>
    let x := s.asp b
    (x.addresses.map fun e => e.2.1) ++ x.ipv4.toList ++ x.lease.toList

/-- An airspace's addresses after SET_ADDRESS. -/
def AirspaceSt.setAddress (x : AirspaceSt) (h : CmdHdr) (index address prefixLen udpPort vlan dhcp ipv4 : Nat) : AirspaceSt :=
  let old := x.addresses.getD index (0, 64)
  let addr := setting 128 address old.1
  let len := setting 8 prefixLen old.2
  let x := { x with addresses := if addr = 0 then x.addresses.del index else x.addresses.set index (addr, len) }
  if !h.expert then x
  else
    let on := if unchanged 8 dhcp then x.dhcp else dhcp == 1
    { x with
      udpPort := setting 16 udpPort x.udpPort, vlan := setting 16 vlan x.vlan, dhcp := on
      lease := if on then x.lease else none
      ipv4 := if unchanged 128 ipv4 then x.ipv4 else if ipv4 = 0 then none else some ipv4 }

/-- The addresses as the orders accepted in this control slot will leave them (R243, R400). -/
def State.foreseenAddresses (s : State) : State :=
  s.host.deferred.foldl (fun s d => match d.order with
    | .setAddress h a index address prefixLen udpPort vlan dhcp ipv4 => s.updAsp a fun x => x.setAddress h index address prefixLen udpPort vlan dhcp ipv4
    | _ => s) s

/-- SET_ADDRESS: an address that another airspace holds, or will hold, is refused (R243). -/
def opSetAddress (h : CmdHdr) (a index address prefixLen udpPort vlan dhcp ipv4 : Nat) (s : State) : State :=
  s.ordered h 0x0605 fun s =>
    let t := s.foreseenAddresses
    let x := t.asp a
    let y := x.setAddress h index address prefixLen udpPort vlan dhcp ipv4
    let others := t.otherAddresses a
    let entry := y.addresses.getD index (0, 64)
    s.checked h 0x0605 [(32, airspaceOk a), (33, decide (index ≤ 3)),
        (40, !others.contains entry.1 && decide (y.addresses.length + (if y.dhcp then 1 else 0) ≤ 4)),
        (56, entry.1 = 0 || prefixLenOk entry.1 entry.2),
        (58, !h.expert || inRange 16 udpPort 1024 65535), (60, !h.expert || inRange 16 vlan 0 4094), (62, !h.expert || inRange 8 dhcp 0 1),
        (64, !h.expert || unchanged 128 ipv4 || ipv4 = 0 || (isV4 ipv4 && !others.contains ipv4))] fun s =>
      s.atBoundary h 0x0605 (.setAddress h a index address prefixLen udpPort vlan dhcp ipv4)

def execSetAddress (h : CmdHdr) (airspace index address prefixLen udpPort vlan dhcp ipv4 : Nat) (s : State) : Result :=
  .next (opSetAddress h airspace index address prefixLen udpPort vlan dhcp ipv4 s)

/-- The prefixes of SET_FILTER's buffer: 17 bytes each. -/
def filterPrefixes (b : List Byte) (count : Nat) : List (Nat × Nat) :=
  (List.range count).map fun i => (leNat ((b.drop (17 * i)).take 16), leNat ((b.drop (17 * i + 16)).take 1))

/-- SET_FILTER: the prefixes stand in BUFFER, which must lie in a DMA window (R386). -/
def opSetFilter (h : CmdHdr) (a count : Nat) (s : State) : State :=
  s.ordered h 0x0606 fun s =>
    s.checked h 0x0606 [(16, decide (17 * count ≤ h.bufferLen)), (32, airspaceOk a), (33, decide (count ≤ 16))] fun s =>
      if 0 < count && !s.dmaOk h.buffer (17 * count) then (s.bump Reg.Ceil.DMA_BLOCKED).answer h 0x0606 .notPermitted
      else if !(filterPrefixes h.data count).all (fun e => prefixLenOk e.1 e.2) then s.badParam h 0x0606 8
      else s.atBoundary h 0x0606 (.setFilter h a count)

def execSetFilter (h : CmdHdr) (airspace count : Nat) (s : State) : Result := .next (opSetFilter h airspace count s)

/-- A descriptor names a destination entry of an airspace. -/
def State.destNamed (s : State) (a entry : Nat) : Bool :=
  s.sessIds.any fun n => (s.sess n).st != .free && (s.sess n).airspace == a && (s.sess n).dest == entry

/-- SET_DESTINATION (R253). -/
def opSetDestination (h : CmdHdr) (a entry port udp address : Nat) (s : State) : State :=
  s.ordered h 0x0607 fun s =>
    let set_ := (s.asp a).dests.has entry
    s.checked h 0x0607 [(32, airspaceOk a), (33, decide (entry ≤ 15)), (34, (set_ && unchanged 8 port) || decide (port ≤ 3)),
        (36, set_ || !unchanged 16 udp), (40, set_ || !unchanged 128 address)] fun s =>
      if s.destNamed a entry then s.answer h 0x0607 .busy
      else s.atBoundary h 0x0607 (.setDestination h a entry port udp address)

def execSetDestination (h : CmdHdr) (airspace entry port udpPort address : Nat) (s : State) : Result :=
  .next (opSetDestination h airspace entry port udpPort address s)

/-- SET_EGRESS (R261). -/
def opSetEgress (h : CmdHdr) (a cap : Nat) (s : State) : State :=
  s.ordered h 0x0608 fun s =>
    s.checked h 0x0608 [(32, airspaceOk a), (34, inRange 16 cap 1 1600)] fun s => s.atBoundary h 0x0608 (.setEgress h a cap)

def execSetEgress (h : CmdHdr) (airspace cap : Nat) (s : State) : Result := .next (opSetEgress h airspace cap s)

/-- SET_ETH_PORT (R263). -/
def opSetEthPort (h : CmdHdr) (n mtu cap : Nat) (s : State) : State :=
  s.ordered h 0x0609 fun s =>
    s.checked h 0x0609 [(32, decide (n ≤ 3)), (34, inRange 16 mtu 1500 9216), (36, !h.expert || inRange 16 cap 1 400)] fun s =>
      s.atBoundary h 0x0609 (.setEthPort h n mtu cap)

def execSetEthPort (h : CmdHdr) (port mtu cap : Nat) (s : State) : Result := .next (opSetEthPort h port mtu cap s)

/-! ### Settings at their boundary -/

/-- What a deferred setting of the session and airspace families stores. -/
def State.applySetting (s : State) (i : Instr) : State :=
  match i with
  | .setRound _ p round => s.updPlc p fun x => { x with round := setting 16 round x.round }
  | .setSessionLimits h a list limit cont contrail => s.updAsp a fun x =>
      let x := { x with waitMax := setting 16 list x.waitMax }
      if !h.expert then x
      else { x with waitLimit := setting 16 limit x.waitLimit, contHold := setting 32 cont x.contHold, contrailHold := setting 32 contrail x.contrailHold }
  | .setSampling h a temperature topP topK minP => s.updAsp a fun x =>
      let f (v : Nat) (old : W32) : W32 := if unchanged 32 v then old else BitVec.ofNat 32 v
      let x := { x with temperature := f temperature x.temperature }
      if !h.expert then x else { x with topP := f topP x.topP, topK := setting 16 topK x.topK, minP := f minP x.minP }
  | .setAddress h a index address prefixLen udpPort vlan dhcp ipv4 =>
    let s := s.updAsp a fun x => x.setAddress h index address prefixLen udpPort vlan dhcp ipv4
    (s.put (Reg.Eth.UDP_PORT a) (s.asp a).udpPort).put (Reg.Eth.VLAN a) (s.asp a).vlan
  | .setFilter h a count => s.updAsp a fun x => { x with filters := filterPrefixes h.data count }
  | .setDestination _ a entry port udp address => s.updAsp a fun x =>
      let old := x.dests.getD entry ⟨0, 0, 0, 0, 0⟩
      { x with
        dests := x.dests.set entry { old with
          eth := setting 8 port old.eth, udpPort := setting 16 udp old.udpPort, addr := setting 128 address old.addr, batchSeq := 0 }
        batches := x.batches.filter fun b => b.dest != entry }
  | .setEgress _ a cap => s.updAsp a fun x => { x with egressCap := setting 16 cap x.egressCap }
  | .setEthPort h n mtu cap =>
    let s := s.updEth n fun x => { x with mtu := setting 16 mtu x.mtu, cap := if h.expert then setting 16 cap x.cap else x.cap }
    s.put (Reg.Eth.MTU n) (s.ethPort n).mtu
  | .prefixUnregister _ a handle => s.retirePrefix a handle
  | .airspaceReset _ a => s.resetAirspace a
  | .setKv .. | .setShares .. | .airspaceBind .. | .airspaceUnbind .. => s.applyCarving i
  | _ => s

end Sys2Proof.Machine
end

