-- ==== Sys2Proof/Machine/PowerEvents.lean ====
section
/-! DEFINITION. Power: the cap and its ladder (R335-R338), the Ceiling unit's power limit, forced stretch and Lull (R48, R56, R336), the
forecast (R329, R330), breakers and segments (R324-R328), the main input (R323, R327), and the entry to and exit from Lull, Overcast and
Standby (R435-R438). -/

namespace Sys2Proof.Machine

/-! ### PMBus status bits and PWR_ALERT_N (R339, R340) -/

/-- PWR_ALERT_N is asserted or released. -/
def State.setAlert (s : State) (on : Bool) : State :=
  if s.power.alert = on then s
  else ((s.updPower fun p => { p with alert := on }).put Reg.Pow.ALERT (bit on 0)).emit (.pin "PWR_ALERT_N" on)

/-- Set a bit of a status byte of a page. -/
def orAt (t : Tbl Nat) (page b : Nat) : Tbl Nat := t.set page (t.getD page 0 ||| 2 ^ b)

/-- An event sets a bit of STATUS_INPUT or STATUS_IOUT, which asserts SMBALERT# (R339, R340). -/
def State.pmInput (s : State) (page b : Nat) : State :=
  (s.updMgmt fun m => { m with statusInput := orAt m.statusInput page b }).setAlert true
def State.pmIout (s : State) (page b : Nat) : State :=
  (s.updMgmt fun m => { m with statusIout := orAt m.statusIout page b }).setAlert true

/-! ### The stretch limit and forced stretch (R55, R56) -/

/-- The usable limit: the committed stretch, or a lower one recorded with a session that holds a promise (R55). -/
def State.usable (s : State) : Nat :=
  (s.sessions.filter fun e => e.2.st.promises || e.2.st == .draining).foldl (fun m e => min m e.2.committed) s.tick.committed

/-- The level is held above the usable limit by the Ceiling unit or a relayed level (R56). -/
def State.forcedAbove (s : State) : Bool :=
  decide (s.usable < s.tick.forced)
    || (s.following && s.links.relayWord.any fun w => decide (s.usable < w.1))
    || (!s.links.follower && (s.links.demands.any fun d => d.2.2.2) && decide (s.usable < s.tick.zenith))

/-- A change that may begin or end forced stretch: FORCED, and STRETCH_FORCED at the start and the end (R56, R318). -/
def State.forcing (s : State) (change : State → State) : State :=
  let was := s.get Reg.Tick.FORCED == 1
  let s := change s
  let now := s.forcedAbove
  let n := max s.tick.forced ((s.links.relayWord.map Prod.fst).getD 0)
  let s := s.put Reg.Tick.FORCED (bit now 0)
  if now && !was then (s.mark Reg.Tick.STRETCH_FORCED).event { code := 0x0208, detail := [(40, n)] }
  else if was && !now then s.event { code := 0x0208, isEnd := true, detail := [(40, n)] }
  else s

/-- The Ceiling unit's forced level. -/
def State.setForced (s : State) (n : Nat) : State :=
  s.forcing fun s => (s.updTick fun t => { t with forced := n }).put Reg.Ceil.FORCED_LEVEL n

/-- P_lim for a main input voltage in mV (R336). -/
def pLim (vin : Nat) : Nat := min 22000 (420 * vin / 1000)

/-- The Ceiling unit measures the module input. -/
def State.measure (s : State) (power vin : Nat) : State :=
  let s := s.updPower fun p => { p with p1 := power, vin := vin, uv := decide (vin < 47000) }
  (((s.put Reg.Pow.PIN_1MS power).put Reg.Pow.VIN vin).put Reg.Pow.UV (bit (decide (vin < 47000)) 0)).put Reg.Ceil.PLIM (pLim vin)

/-- POWER_LIMIT_EXCEEDED: one level above the level in force, at most 100, from the next boundary (R56). -/
def opPowerLimit (power vin : Nat) (s : State) : State :=
  let s := s.measure power vin
  if pLim vin < power then (s.setForced (max s.tick.forced (min 100 (s.tick.level + 1)))).watchForce else s

def execPowerLimitExceeded (power vin : Nat) (s : State) : Result := .next (opPowerLimit power vin s)

/-- FORCED_STRETCH_RELEASE: one level per boundary, down to the level that the Zenith demands (R336). -/
def opForcedRelease (s : State) : State :=
  let n := min s.tick.forced s.tick.level - 1
  s.setForced (if n ≤ s.tick.zenith then 0 else n)

def execForcedStretchRelease (s : State) : Result := .next (opForcedRelease s)

/-! ### Causes of Lull (R48, R436) -/

/-- Some cause of Lull stands: an order, the watchdog, the power Lull, a relayed LULL, a hold after start-up, or a state beyond Lull. -/
def State.lullCause (s : State) : Bool :=
  s.start.lullOrdered || s.start.holdInLull || s.get Reg.Ceil.WATCHDOG_LULL == 1 || s.power.lullUntil || s.power.powerLullHeld
    || (s.following && s.links.relayWord.any (·.2))
    || s.start.target == some .overcast || s.start.target == some .standby

/-- With no cause left, the end of Lull reaches the origin (R48, R436). -/
def State.releaseLull (s : State) : State :=
  if s.lullCause then s
  else s.updTick fun t =>
    if t.running then { t with lullAsked := t.lullAsked && t.wordEmitted, lullLate := false }
    else if s.start.power == .lull || (s.start.power == .overcast && s.start.target == some .active) then
      if t.wordEmitted then { t with lullLate := true } else { t with lullEndAsked := true }
    else t

/-- Lull is forced or ordered. -/
def State.toLull (s : State) : State := s.askLull

/-! ### Registers of the power state (R382, R341) -/

def PowerSt.code : PowerSt → Nat
  | .active => 0 | .lull => 1 | .overcast => 2 | .standby => 3 | .off => 3

/-- The power state changes (R382, R427). -/
def State.setPowerSt (s : State) (p : PowerSt) : State :=
  if s.start.power == p then s
  else ((s.updStart fun x => { x with power := p }).put Reg.Glob.POWER_STATE p.code).platformEvent 33 p.code 0

/-- A POWER_STATE order whose state is reached is answered OK (R403). -/
def State.arrived (s : State) : State :=
  match s.start.powerCmd with
  | none => s
  | some (seq, src, op) => (s.updStart fun x => { x with powerCmd := none }).finalReply src seq op .ok

/-! ### The power cap (R335) -/

/-- The input-current term of R335 in W, from the 10 ms average of the main input voltage; no reading of the main input yet: none. -/
def PowerMgr.inputTerm (p : PowerMgr) : Option Nat :=
  if p.vins.isEmpty then none else some (95 * 420 * (p.vins.foldl (· + ·) 0 / p.vins.length) / 100000)

/-- C_eff and its source (R335): ties go to the host cap, then the BMC cap, the thermal cap, the input-current term. -/
def State.capOf (s : State) : Nat × Nat :=
  let host : Nat × Nat := (s.power.hostCap, if s.power.hostSet then 0 else 4)
  let terms := ((s.power.bmcCap.map fun c => (c, 1)).toList) ++ [(s.thermal.cth, 2)] ++ ((s.power.inputTerm.map fun c => (c, 3)).toList)
  terms.foldl (fun (b : Nat × Nat) t => if t.1 < b.1 then t else b) host

/-- Recompute C_eff. -/
def State.recap (s : State) : State :=
  let (c, src) := s.capOf
  ((s.updPower fun p => { p with capEff := c }).put Reg.Pow.CAP_EFF c).put Reg.Pow.CAP_SRC src

/-! ### The cap ladder (R337) -/

/-- Largest MAX_DEPTH of the live placements. -/
def State.topDepth (s : State) : Nat := (s.livePlacements.map fun p => (s.plc p).plan.maxDepth).foldl max 0
/-- The ladder's bound of a placement's share, in points; 100: released (R60, R337). -/
def State.boundOf (s : State) (p : Nat) : Nat := s.power.shareBound.getD p 100

/-- Record the depth limit. -/
def State.setDepthLimit (s : State) (n : Nat) : State :=
  (s.updPower fun p => { p with depthLimit := n, depthLog := p.depthLog ++ [(s.tick.count, n)] }).put Reg.Pow.DEPTH_LIMIT n

/-- Record the ladder's step. -/
def State.setLadder (s : State) (n : Nat) : State := (s.updPower fun p => { p with ladder := n }).put Reg.Pow.LADDER n
def State.setCapDemand (s : State) (n : Nat) : State := (s.updTick fun t => { t with capDemand := n }).put Reg.Pow.CAP_LEVEL n

/-- One engaging action (R337). -/
def State.ladderUp (s : State) : State :=
  let p := s.power
  if p.ladder = 0 then s.setLadder 1
  else if p.p1 ≤ p.capEff then s
  else if s.livePlacements.any fun q => s.boundOf q ≠ 0 then
    let lower (t : Tbl Nat) (q : Nat) : Tbl Nat := t.set q (min (s.plc q).hostGrant (s.boundOf q) - 5)
    (s.updPower fun p => { p with shareBound := s.livePlacements.foldl lower p.shareBound }).setLadder (max 2 p.ladder)
  else if 1 < min p.depthLimit s.topDepth then (s.setDepthLimit (min p.depthLimit s.topDepth - 1)).setLadder (max 3 p.ladder)
  else if s.tick.capDemand < s.usable then (s.setCapDemand (s.tick.capDemand + 1)).setLadder 4
  else if p.ladder = 5 then s
  else
    let s := ((s.setLadder 5).mark Reg.Pow.CAP_HELD).pmInput 0 0
    s.event { code := 0x0206, detail := le4 44 p.capEff }

/-- One releasing action, once its time has passed (R337). -/
def State.ladderDown (s : State) : State :=
  let p := s.power
  let n := p.releaseMs + 1
  let wait (s : State) : State := s.updPower fun p => { p with releaseMs := n }
  let done (s : State) : State := s.updPower fun p => { p with releaseMs := 0 }
  if p.ladder = 0 then done s
  else if 0 < s.tick.capDemand then
    if n < 10 then wait s
    else
      let s := done (s.setCapDemand (s.tick.capDemand - 1))
      s.setLadder (if 0 < s.tick.capDemand then 4 else if p.depthLimit ≠ 16 then 3 else if !p.shareBound.isEmpty then 2 else 1)
  else if p.depthLimit ≠ 16 then
    if n < 100 then wait s
    else if s.topDepth ≤ p.depthLimit + 1 then done ((s.setDepthLimit 16).setLadder (if p.shareBound.isEmpty then 1 else 2))
    else done ((s.setDepthLimit (p.depthLimit + 1)).setLadder 3)
  else if !p.shareBound.isEmpty then
    if n < 100 then wait s
    else
      let up (q : Nat) : Nat := min (s.plc q).plan.sized (s.boundOf q + 5)
      let full := s.livePlacements.all fun q => (s.plc q).plan.sized ≤ s.boundOf q + 5
      let t : Tbl Nat := if full then [] else s.livePlacements.map fun q => (q, up q)
      done ((s.updPower fun p => { p with shareBound := t }).setLadder (if full then 1 else 2))
  else if n < 100 then wait s
  else done (s.setLadder 0)

/-- A 1 ms power sample of the outlook's fit, with the lanes and rows of its tick; the last 10 s are kept (R354). -/
def State.takeSample (s : State) (p1 : Nat) : State :=
  let t := s.tick.count
  let x : Nat × Rat × Nat := (p1, s.laneScale * ((s.lanesAt t none : Nat) : Int), s.rowsAt t none)
  s.updThermal fun y => { y with samples := (y.samples ++ [x]).drop (y.samples.length + 1 - 10000) }

/-- LADDER_EVALUATION: P_1 is compared with C_eff; one action (R337). -/
def opLadder (p1 p10 vin iin : Nat) (s : State) : State :=
  let s := (s.measure p1 vin).updPower fun p => { p with p10 := p10, iin := iin, vins := (p.vins ++ [vin]).drop (p.vins.length - 9) }
  let s := (s.put Reg.Pow.PIN_10MS p10).put Reg.Pow.IIN iin
  let s := s.takeSample p1
  let s := s.recap
  let c := s.power.capEff
  if 97 * c < 100 * p1 then (s.updPower fun p => { p with releaseMs := 0 }).ladderUp
  else if 100 * p1 < 94 * c then s.ladderDown
  else s.updPower fun p => { p with releaseMs := 0 }

def execLadderEvaluation (p1 p10 vin iin : Nat) (s : State) : Result := .next (opLadder p1 p10 vin iin s)

/-! ### Power Lull (R336) -/

/-- CEILING_POWER_LULL: Lull is forced; the third within 10 s is held until the next module or cold reset and reported. -/
def opPowerLull (s : State) : State :=
  let recent := (s.power.powerLulls.filter fun t => s.power.msClock < t + 10000) ++ [s.power.msClock]
  let third := decide (3 ≤ recent.length)
  let s := s.updPower fun p => { p with powerLulls := recent, lullUntil := true, powerLullHeld := p.powerLullHeld || third }
  let s := (s.put Reg.Pow.CEILING_LULL 1).toLull
  if third then (s.mark Reg.Pow.POWER_LULL).event { code := 0x0207 } else s

def execCeilingPowerLull (s : State) : Result := .next (opPowerLull s)

/-- POWER_LULL_RELEASE: after 100 ms, unless held. -/
def opPowerLullRelease (s : State) : State :=
  if s.power.powerLullHeld then s
  else ((s.updPower fun p => { p with lullUntil := false }).put Reg.Pow.CEILING_LULL 0).releaseLull

def execPowerLullRelease (s : State) : Result := .next (opPowerLullRelease s)

/-! ### The forecast (R329, R330) -/

/-- CRC-4 of R329 over bits [27:0]: polynomial 0x3, initial value 0. -/
def forecastCrc (v : Nat) : Nat :=
  ((List.range 28).reverse.foldl (fun (c : Nat) i =>
    let top := (c / 8 + v / 2 ^ i) % 2
    let c := c * 2 % 16
    if top = 1 then c ^^^ 3 else c) 0)

/-- A forecast word's check bits are right. -/
def forecastGood (w : W32) : Bool := forecastCrc (w.toNat % 2 ^ 28) == w.toNat / 2 ^ 28

/-- FORECAST_WORD: the site regulator takes the levels, or 240 A over the whole tick where CHK fails. -/
def opForecastWord (f : Nat) (w : W32) (s : State) : State :=
  if !forecastGood w then
    let s := s.updField f fun x => { x with forecast := 0x00F0F0F0, forecastBad := true }
    (s.bump (Reg.FPow.FORECAST_BAD f)).mark Reg.Pow.FORECAST_BAD
  else
    let s := s.updField f fun x => { x with forecast := w, forecastBad := false }
    let s := s.put (Reg.FPow.FC_LOW f) (bits w.toNat 23 16)
    (s.put (Reg.FPow.FC_MID f) (bits w.toNat 15 8)).put (Reg.FPow.FC_DEC f) (bits w.toNat 7 0)

def execForecastWord (field : Nat) (word : W32) (s : State) : Result := .next (opForecastWord field word s)

/-- The current in A that a site's regulator positions for in a cycle: DEC in the decode share, MID from its end to the exchange window, LOW
elsewhere; it begins to move 40 ns before the cycle (R329). -/
def State.siteLevel (s : State) (f cycle : Nat) : Nat :=
  let w := (s.field f).forecast.toNat
  let pl := match (s.field f).placement with
    | some p => (s.plc p).plan
    | none => {}
  let ext := ((coresOf f).map s.extOf).foldl max 0
  if (s.field f).forecastBad then 240
  else if 48 ≤ cycle && cycle < 48 + pl.d + ext then bits w 7 0
  else if 48 ≤ cycle && cycle < s.tick.period - 64 - pl.x then bits w 15 8
  else bits w 23 16

/-- FORECAST_MISS: counted, and 240 A is forecast for 1,024 ticks (R330). -/
def opForecastMiss (f w : Nat) (s : State) : State :=
  let s := s.updField f fun x => { x with forecastLearn := 1024 }
  let s := (s.bump (Reg.FPow.FORECAST_MISS f)).mark Reg.Pow.FORECAST_MISS
  s.event { code := 0x020A, field := f, placement := placementByte (s.field f).placement, detail := [(40, w)] }

def execForecastMiss (field window : Nat) (s : State) : Result := .next (opForecastMiss field window s)

/-- A level of R330: I_zero + n I_row + 10 %, rounded up, at most 240 A. -/
def forecastLevel (base row n : Nat) : Nat := min 240 (ceilDiv ((base + n * row) * 110) 100)

/-- The forecast word of a site for a coming tick with the depth and prefill rows its stage may run (R329, R330). -/
def FieldSt.forecastOf (x : FieldSt) (lead depth rows : Nat) (idleCell : Bool) : W32 :=
  let off : Bool := match x.clock with
    | .stopping o => o && lead == 2
    | .gated o => o && lead == 1
    | _ => false
  let cold : Bool := x.clock != .running && x.clock != .stopping true && x.clock != .stopping false
  let lv (i n : Nat) : Nat :=
    if cold then 30 else if 0 < x.forecastLearn then 240 else forecastLevel (x.iZero.getD i 0) (x.iRow.getD i 0) n
  let dec := lv 2 depth
  let mid := if idleCell then max (lv 1 rows) dec else lv 1 rows
  let low := bit off 25 + bit (x.clock == .waking) 24 + lv 0 0 * 65536 + mid * 256 + dec
  BitVec.ofNat 32 (forecastCrc low * 2 ^ 28 + low)

/-- The steward's learning: when its 1,024 ticks at 240 A end it takes the currents it measured, which no command carries: they are
free values (R330). -/
def State.learnForecast (s : State) (f : Nat) : State :=
  match (s.field f).forecastLearn with
  | 0 => s
  | 1 =>
    let n := s.freeUses
    { s.updField f fun x => { x with
        forecastLearn := 0
        iZero := [Config.freeNat n, Config.freeNat (n + 1), Config.freeNat (n + 2)]
        iRow := [Config.freeNat (n + 3), Config.freeNat (n + 4), Config.freeNat (n + 5)] } with freeUses := n + 6 }
  | n + 1 => s.updField f fun x => { x with forecastLearn := n }

/-! ### Breakers and segments (R324-R328) -/

/-- The domains a site has (R325): 0 VLOG, 1 VMEM, 2 VLNK, 3 VPHY. -/
def domainExists (f d : Nat) : Bool := decide (f < 88) && (decide (d < 3) || (d == 3 && isHomeSite f))

/-- Fused maximum of a domain's breaker in 0.1 A (R325). -/
def fusedMax (f d : Nat) : Nat :=
  let svc := Config.serviceFields.contains f
  match d with
  | 0 => if svc then 100 else 200
  | 1 => 60
  | 2 => if svc then 160 else 30
  | _ => 80
def FieldSt.gaugePower (x : FieldSt) (s : State) (f : Nat) : State :=
  (s.put (Reg.FPow.TRIPPED f) x.tripped).put (Reg.FPow.ON f) x.on
def State.gaugePower (s : State) (f : Nat) : State := (s.field f).gaugePower s f

/-- Domains of a site go off; without VMEM its cores' banks are down (R74). -/
def State.domainsOff (s : State) (f mask : Nat) : State :=
  let s := if mask.testBit 1 then s.banksDown f else s
  (s.updField f fun x => { x with on := x.on &&& (0xF ^^^ mask) }).gaugePower f

/-- The logic of a compute field loses power: LOST with a cause, whatever role or wake it was in (R327, R328). -/
def State.logicLost (s : State) (f cause : Nat) : State :=
  let s := ((s.loseField f cause).domainsOff f 3).failTask f
  s.updField f fun x => { x with clock := .stopped }

/-- A router loses its links domain: every link to it goes down, its neighbours report it (R298). -/
def State.routerOff (s : State) (f : Nat) : State :=
  let s := s.updRouter f fun t => { t with linksDown := [0, 1, 2, 3, 4, 5] }
  let s := s.put (Reg.Router.LINK_UP f) 0
  [(1, 3), (2, 4), (3, 1), (4, 2)].foldl (fun s (e : Nat × Nat) => match neighbour f e.1 with
    | none => s
    | some v => opLinkDown v e.2 s) s

/-- What a cause leaves of the configuration space: a hot reset or link-down resets it; the others are writes to it (R379). -/
def CfgSpace.down (x : CfgSpace) : LinkDownCause → CfgSpace
  | .hotReset => { link := x.link }
  | .linkDown => {}
  | .d3hot => { x with d3hot := true }
  | .busMasterOff => { x with busMaster := false }

/-- The functions of a service field stop (R327): the host link, the Obtik ports or the Ethernet ports of that side. -/
def State.serviceStop (s : State) (f : Nat) : State :=
  match f with
  | 2 => (s.updHost fun h => { h with linkUp := false, fetching := false, cfg := h.cfg.down .linkDown }).put Reg.Hwin.FETCHING 0
  | 43 => s.forAll (List.range 4) fun s p => s.updEth p fun x => { x with linkUp := false, fecLock := false }
  | 85 => s.forAll (List.range 6) fun s p => s.updPort p fun x => { x with st := .off }
  | 44 => s.forAll [6, 7, 8, 9, 10, 11] fun s p => s.updPort p fun x => { x with st := .off }
  | _ => s

/-- What a domain's going off does to its site (R327). -/
def State.domainLost (s : State) (f d cause : Nat) : State :=
  if Config.serviceFields.contains f then
    let s := s.domainsOff f (2 ^ d)
    let s := if d = 3 then s.forAll ((List.range 48).filter fun n => stackHome n == f) fun s n => s.loseStack n 3 else s
    let s := if d = 2 then (s.routerOff f).ringCheck f else s
    s.serviceStop f
  else match d with
    | 2 => ((s.logicLost f cause).domainsOff f 4).routerOff f |>.ringCheck f
    | 3 => (s.domainsOff f 8).forAll ((List.range 48).filter fun n => stackHome n == f) fun s n => s.loseStack n 3
    | _ => s.logicLost f cause

/-- BREAKER_TRIP: recorded, reported, and the domain goes off (R327). -/
def opBreakerTrip (f d : Nat) (s : State) : State :=
  if !domainExists f d then s
  else
    let s := s.updField f fun x => { x with tripped := x.tripped ||| 2 ^ d, powerRecord := x.powerRecord ||| 2 ^ d }
    let s := (s.mark Reg.Pow.BREAKER_TRIP).pmIout (f / 4 + 2) 5
    let s := s.event { code := 0x0201, field := f, placement := placementByte (s.field f).placement, stages := s.stagesOf f, detail := [(40, d)] }
    (s.domainLost f d 2).gaugePower f

def execBreakerTrip (field domain : Nat) (s : State) : Result := .next (opBreakerTrip field domain s)

/-- Sites of a segment (R324). -/
def segSites (n : Nat) : List Nat := [4 * n, 4 * n + 1, 4 * n + 2, 4 * n + 3]
/-- The partner segment n xor 1. -/
def partner (n : Nat) : Nat := n ^^^ 1

/-- SEGMENT_TRIP: own-fed domains of its sites go off; with both of a pair off, the dual-fed domains of all eight sites too (R327). -/
def opSegmentTrip (n : Nat) (s : State) : State :=
  if 22 ≤ n || s.power.segTripped.contains n then s
  else
    let s := s.updPower fun p => { p with segTripped := p.segTripped ++ [n], segOn := without p.segOn n }
    let s := (s.put (Reg.Pow.TRIPPED n) 1).put (Reg.Pow.ON n) 0
    let s := (s.mark Reg.Pow.SEGMENT_TRIP).pmIout (n + 2) 7
    let s := s.event { code := 0x0202, detail := [(40, n)] }
    let s := s.forAll (segSites n) fun s f =>
      if Config.serviceFields.contains f then s
      else (s.updField f fun x => { x with powerRecord := x.powerRecord ||| 16 }).logicLost f 3
    if s.power.segTripped.contains (partner n) then
      s.forAll (segSites n ++ segSites (partner n)) fun s f =>
        let s := s.domainLost f 2 3
        let s := if isHomeSite f then s.domainLost f 3 3 else s
        if Config.serviceFields.contains f then (s.domainLost f 0 3).domainLost f 1 3 else s
    else s

def execSegmentTrip (segment : Nat) (s : State) : Result := .next (opSegmentTrip segment s)

/-! ### Overcast (R437) -/

/-- Carry a session over a time without ticks (R437, R441). -/
def State.carrySession (s : State) (n : Nat) : State :=
  let d := s.sess n
  match d.st with
  | .queued | .prefill | .decode => (s.pauseBare n).updSess n fun d => { d with carried := true }
  | .draining => if d.drainPause && !d.cancelLatched then s.pauseBare n else s.endSession n 4
  | .paused =>
    -- a copy in progress fails; a held copy stays in self-refresh; KV in the scratchpad is lost (R205)
    if d.pauseRec.any (·.copying) || d.failedPause || d.pauseRec.isNone then
      let s := s.pauseBare n
      if d.pauseRec.isSome then s.pauseNoKv else s
    else
      let s := if d.copyBack then s.abandonBack n else s
      -- pages that the record links are lost with the scratchpad
      if d.pauseRec.any fun r => !r.links.isEmpty then (s.dropPause n).pauseNoKv else s
  | _ => s

/-! ### The contrail journal (R444, R445) -/

/-- Bytes of a journal area, of the directory at its head, and the bank byte at which it begins. -/
def journalArea : Nat := 25165824
def journalDir : Nat := 262144
def journalBase : Nat := 6417285120

/-- The fields that take a journal: compute fields that are not LOST and whose VMEM is on. -/
def State.journalFields (s : State) : List Nat :=
  computeFields.filter fun f => (s.field f).role != .lost && !(s.field f).lossPending && (s.field f).on / 2 % 2 == 1

/-- Length of an entry: contrail copy, destination record, padding to 32 B. -/
def journalLength (d : Desc) : Nat := 32 * ceilDiv (1024 + ceilDiv (18 * d.history.length) 8 + 32) 32

/-- The bytes of an entry. An address stands as an octet string, most significant octet first (PRESUMED, log entry 106). -/
def JournalEntry.bytes (e : JournalEntry) : List Byte :=
  let t := e.dest.getD ⟨0, 0, 0, 0, 0⟩
  let l := contrailBytes e.index e.desc ++ beBytes 16 t.addr ++ leBytes 2 t.udpPort ++ leBytes 1 t.eth ++ [0] ++ leBytes 4 t.batchSeq
  l ++ List.replicate (e.length - l.length) 0

/-- Descriptors in ascending index, each whole in the field with the most free journal space, the lower field index on a tie. `used` holds the
bytes taken in each field; an entry that fits no field has no place and is not valid. -/
def placeEntries : List JournalEntry → Tbl Nat → List JournalEntry
  | [], _ => []
  | e :: rest, used =>
    let best := used.foldl (fun (b : Option (Nat × Nat)) x => match b with
      | none => some x
      | some y => if x.2 < y.2 then some x else some y) none
    match best.filter fun x => x.2 + e.length ≤ journalArea - journalDir with
    | none => { e with valid := false } :: placeEntries rest used
    | some (f, n) => { e with field := f, offset := journalDir + n } :: placeEntries rest (used.set f (n + e.length))

/-- The entries for the descriptors in use, with their places; `valid` tells those written and read back. -/
def State.journalEntries (s : State) (valid : Nat → Bool) : List JournalEntry :=
  let l : List JournalEntry := (s.sessIds.filter fun n => (s.sess n).st != .free).map fun n =>
    let d := s.sess n
    { index := n, desc := d, carried := d.carried, valid := valid n, field := 0, length := journalLength d
      dest := (s.asp d.airspace).dests.find d.dest }
  placeEntries l (s.journalFields.map fun f => (f, 0))

/-- The directory: the 64-byte header and 4,096 entries of 32 B (R444). -/
def Journal.directory (j : Journal) : List Byte :=
  let mark (b : Bool) : List Byte := [if b then 0xA5 else 0]
  let entry (n : Nat) : List Byte :=
    match j.entries.find? fun e => e.index = n with
    | none => List.replicate 32 0
    | some e => leBytes 4 (handleOf n e.desc) ++ leBytes 1 (if e.carried then 7 else e.desc.st.code) ++ leBytes 1 (bit e.valid 0) ++ leBytes 1 e.field
        ++ [0] ++ leBytes 4 e.offset ++ leBytes 4 e.length ++ List.replicate 16 0
  [0x59, 0x47, 0x4E, 0x4A, 0x52, 0x4E, 0x4C, 0x31] ++ leBytes 8 j.generation ++ leBytes 8 j.tick ++ leBytes 1 j.cause ++ mark j.complete ++ mark j.consumed
    ++ [0] ++ leBytes 2 j.entries.length ++ List.replicate 34 0 ++ (List.range 4096).flatMap entry

/-- A byte of the stratum as it stands in a bank: of the newest journal where its area holds one, else of the bank's memory (R444). -/
def State.bankByte (s : State) (f bank off : Nat) : Byte :=
  let j := s.start.journal
  if j.generation ≠ 0 && bank = j.generation % 2 && j.fields.contains f && journalBase ≤ off then
    let o := off - journalBase
    if o < journalDir then j.directory.getD o 0
    else match j.entries.find? fun e => e.valid && e.field = f && e.offset ≤ o && o < e.offset + e.length with
      | some e => e.bytes.getD (o - e.offset) 0
      | none => 0
  else ((s.field f).bank bank).mem.read off

/-- A contrail journal begins (R236, R444): generation, tick, cause and the descriptors listed. -/
def State.beginJournal (s : State) (cause : Nat) : State :=
  if s.start.journal.running then s
  else
    let g := s.start.journal.generation + 1
    let s := s.updStart fun x => { x with journal :=
      { generation := g, tick := s.tick.count, cause := cause, complete := false, consumed := false, entries := s.journalEntries fun _ => false
        fields := s.journalFields, running := true } }
    (s.put Reg.Start.JOURNAL_GEN_LO (g % 2 ^ 32)).put Reg.Start.JOURNAL_GEN_HI (g / 2 ^ 32)

/-- What outlives the loss of every scratchpad: a failed core stays failed until its field is reset (R77). -/
def State.failedCores (s : State) : Tbl CoreSt :=
  (s.cores.filter fun e => e.2.state == .failed).map fun e => (e.1, { state := .failed, failOrder := e.2.failOrder })

/-- The end of the entry: stacks to self-refresh, VLOG and VMEM of every compute field off, scratchpads lost. -/
def State.overcastReached (s : State) : State :=
  let s := s.forAll (List.range 48) fun s n => s.updStack n fun x => { x with st := if x.st == .lost || x.st == .off then x.st else .selfRefresh }
  let s := s.forAll computeFields fun s f =>
    if s.fields.has f then ((s.updField f fun x => { x with clock := .stopped, patches := [], nextPatches := [], absorb := [], absMap := [] }).domainsOff f 3) else s
  let s := { s with cores := s.failedCores }
  -- a move under way is begun again after Overcast (R372)
  let s := s.forAll (List.range 4) fun s p =>
    let gone := (s.plc p).moves
    let s := gone.foldl (fun s m => s.updField m.clearing fun x => { x with role := .clearing, placement := none }) s
    gone.foldl (fun s m =>
      let s := s.updPlc p fun x => { x with moves := x.moves.filter fun y => y.field ≠ m.field }
      if m.heat then s else s.updField m.field fun x => { x with role := .lost, placement := some p }) s
  let s := s.updStart fun x => { x with target := none }
  s.gaugeFields.gaugeCloud.setPowerSt .overcast

/-! ### Off and Standby (R334, R435, R436) -/

/-- The 54 V conversion stops; every domain goes off and what stood in them is gone (R435). -/
def State.conversionOff (s : State) : State :=
  let s := s.updTick fun t => { t with running := false, lullAsked := false, lullLate := false, lullEndAsked := false }
  let s := ((s.put Reg.Tick.RUNNING 0).put Reg.Tick.LULL 0).updPower fun p => { p with segOn := [] }
  let s := s.forAll (List.range 22) fun s n => (((s.put (Reg.Pow.ON n) 0).put (Reg.Pow.IOUT n) 0).put (Reg.Pow.VOUT n) 0).put (Reg.Pow.TEMP n) 0
  let s := s.forAll allFields fun s f => if s.fields.has f then (s.updField f fun x => { x with on := 0, clock := .stopped }).gaugePower f else s
  let s := { s with cores := [], hbm := [] }
  (s.updHost fun h => { h with linkUp := false, fetching := false, cfg := h.cfg.down .linkDown }).put Reg.Hwin.FETCHING 0

/-- Standby is entered (R435, R436). BMC bounds return to none (R343, R428). -/
def State.enterStandby (s : State) : State :=
  let s := s.conversionOff
  let s := s.updPower fun p => { p with bmcCap := none }
  let s := s.updThermal fun t => { t with bmcLimit := none, bmcGuard := none }
  let s := s.updStart fun x => { x with target := none, phase := 0, serving := false }
  ((s.put Reg.Start.PHASE 0).recap.setPowerSt .standby).arrived

/-- Entry to Overcast once ticks have stopped: steps 2-4 of R437; moves in progress are abandoned (R372). Before step 5 of start-up no
descriptor is in use, and the journal is empty (R448). -/
def State.beginOvercast (s : State) : State :=
  let s := s.forAll s.sessIds State.carrySession
  let s := s.forAll (List.range 8) fun s a => s.dropPrefixes a true
  -- a tuning job and an uncommitted result are lost (R277)
  let s := s.forAll (List.range 4) fun s p => if (s.plc p).tune.st == .none then s else s.failTune p
  s.beginJournal s.start.entryCause

/-- A transition to Overcast or Standby is ordered (R436): from Active through Lull; from Lull at once. -/
def State.goOvercast (s : State) (cause : Nat) (standby : Bool) : State :=
  match s.start.power with
  | .active | .lull =>
    let begun := s.start.target == some .overcast || s.start.target == some .standby
    let toStandby := standby || s.start.target == some .standby
    let s := s.updStart fun x => { x with
      target := some (if toStandby then .standby else .overcast), entryCause := if begun then x.entryCause else cause, entryStandby := toStandby }
    if begun then s
    else if s.tick.running then s.toLull else s.beginOvercast
  | _ => s

/-! ### The main input (R323, R327) -/

/-- UV_WARN: below 47.0 V on a 1 ms average. -/
def opUvWarn (vin : Nat) (s : State) : State :=
  let s := (s.updPower fun p => { p with uv := true, vin := vin }).put Reg.Pow.VIN vin
  let s := (((s.put Reg.Pow.UV 1).mark Reg.Pow.UV_WARN).pmInput 0 5).put Reg.Ceil.PLIM (pLim vin)
  s.event { code := 0x0205, detail := le4 44 vin }

def execUvWarn (vin : Nat) (s : State) : Result := .next (opUvWarn vin s)

/-- INPUT_UV: Lull, the journal with cause 3, Overcast. -/
def opInputUv (vin : Nat) (s : State) : State :=
  let s := (s.updPower fun p => { p with uv := true, vin := vin, inputFault := max 1 p.inputFault }).put Reg.Pow.VIN vin
  let s := ((s.put Reg.Pow.UV 1).mark Reg.Pow.INPUT_UV).pmInput 0 4
  let s := s.event { code := 0x0203, detail := le4 44 vin }
  s.goOvercast 3 false

def execInputUv (vin : Nat) (s : State) : Result := .next (opInputUv vin s)

end Sys2Proof.Machine
end

