-- ==== Sys2Proof/Machine/Boot.lean ====
section
/-! DEFINITION. Boot: the boot image format (R414), the boot ROM's steps (R415), fuses and rollback (R416-R418), the debug token (R431),
write protection of the flash (R31, R429, R461), and the security registers (R432). -/

namespace Sys2Proof.Machine

/-! ### Boot images (R414) -/

/-- What the ROM reads of a boot image's header, with the verdicts that depend on the image alone. -/
structure BootInfo where
  build : Nat
  svn : Nat
  keySlot : Nat
  revoke : Nat
  /-- component hashes: KIND and HASH -/
  hashes : List (Nat × List Byte)
  /-- MAGIC and FORMAT, the fused hash equal to the key hash, SIGNATURE valid, stage 1 equal to its HASH -/
  sound : Bool
  /-- every further component equal to its HASH -/
  whole : Bool
deriving DecidableEq, Repr

def bootMagic : List Byte := [0x59, 0x47, 0x4E, 0x42, 0x4F, 0x4F, 0x54, 0x31]

/-- Component n of a header: KIND, LENGTH, OFFSET, HASH. -/
def component (b : List Byte) (n : Nat) : Nat × Nat × Nat × List Byte :=
  let o := 32 + 80 * n
  (fieldAt b o 2, fieldAt b (o + 4) 4, fieldAt b (o + 8) 8, bytesAt b (o + 16) 64)

/-- A header is well formed and its lengths lie inside `len` bytes (R414, R419). -/
def bootWellFormed (b : List Byte) (len : Nat) : Bool :=
  let n := fieldAt b 11 1
  let cs := (List.range n).map (component b)
  bytesAt b 0 8 == bootMagic && fieldAt b 8 2 == 1 && decide (fieldAt b 10 1 ≤ 3) && decide (1 ≤ n) && decide (n ≤ 16)
    && decide (fieldAt b 12 1 ≤ 64) && decide (fieldAt b 13 1 < 16) && zeroAt b 14 16 && zeroAt b 20 32
    && ((List.range n).all fun i => zeroAt b (34 + 80 * i) (36 + 80 * i)) && zeroAt b (32 + 80 * n) 1312
    && fieldAt b 1824 4 == 65537 && zeroAt b 1828 2048 && zeroAt b 2560 4096
    && (cs.headD (0, 0, 0, [])).1 == 1
    && (cs.all fun c => decide (1 ≤ c.1) && decide (c.1 ≤ 4) && decide (4096 ≤ c.2.2.1) && c.2.2.1 % 4096 == 0 && decide (c.2.2.1 + c.2.1 ≤ len))
    && (List.range n).all fun i => (List.range i).all fun j =>
      let x := cs.getD i (0, 0, 0, [])
      let y := cs.getD j (0, 0, 0, [])
      decide (x.2.2.1 + x.2.1 ≤ y.2.2.1) || decide (y.2.2.1 + y.2.1 ≤ x.2.2.1)

/-- A component's bytes have its HASH. -/
def componentOk (b : List Byte) (n : Nat) : Bool :=
  let (_, len, off, hash) := component b n
  sha512 (bytesAt b off len) == hash

/-- A header that the ROM can read: MAGIC and FORMAT. -/
def bootReadable (b : List Byte) : Bool := bytesAt b 0 8 == bootMagic && fieldAt b 8 2 == 1

/-- Step 2 of R415 over the image alone: MAGIC and FORMAT, the fused hash equal to the key hash (KEY_E other than 65,537 fails, R414), SIGNATURE
valid, stage 1, which is component 0, equal to its HASH. -/
def bootSound (b : List Byte) : Bool :=
  let slot := fieldAt b 10 1
  bootReadable b && decide (slot ≤ 3) && decide (1 ≤ fieldAt b 11 1) && decide (fieldAt b 11 1 ≤ 16) && fieldAt b 1824 4 == 65537
    && sha512 (bytesAt b 1312 516) == Config.bootKeyHash slot && pssVerify (beNat (bytesAt b 1312 512)) (bytesAt b 0 2048) (bytesAt b 2048 512)
    && (component b 0).1 == 1 && componentOk b 0

/-- Read an image from the bytes of a code area (R414, R415); BUILD and SVN of one that cannot be read are 0 (R432). -/
def bootInfoOf (b : List Byte) : BootInfo :=
  let n := fieldAt b 11 1
  let read := bootReadable b
  { build := if read then fieldAt b 16 4 else 0, svn := if read then fieldAt b 12 1 else 0, keySlot := fieldAt b 10 1, revoke := fieldAt b 13 1
    hashes := (List.range n).map fun i => ((component b i).1, (component b i).2.2.2)
    sound := bootSound b
    whole := (List.range n).all (componentOk b) }

/-- The image in a code area. -/
def BootArea.info (x : BootArea) (i : Nat) : BootInfo :=
  if x.factory then
    { build := Config.factoryBuild i, svn := Config.factorySvn i, keySlot := Config.factoryKeySlot i % 4, revoke := Config.factoryRevoke i
      hashes := [1, 2, 3, 4].map fun k => (k, Config.factoryHash i k), sound := true, whole := true }
  else bootInfoOf (x.bytes.bytes 0 16777216)

def BootSt.area (b : BootSt) (i : Nat) : BootArea := if i = 0 then b.area0 else b.area1
def BootSt.setArea (b : BootSt) (i : Nat) (x : BootArea) : BootSt := if i = 0 then { b with area0 := x } else { b with area1 := x }
def BootSt.info (b : BootSt) (i : Nat) : BootInfo := (b.area i).info i
def BootSt.revokedSlot (b : BootSt) (slot : Nat) : Bool := b.revoked / 2 ^ slot % 2 = 1

/-- Step 2 of R415 for an image: slot not revoked, SVN at or above the counter, and the image sound. -/
def BootSt.admits (b : BootSt) (x : BootInfo) : Bool := x.sound && !b.revokedSlot x.keySlot && decide (b.counter ≤ x.svn)
def BootSt.passes (b : BootSt) (i : Nat) : Bool := b.admits (b.info i)

/-! ### The boot ROM (R415, R418) -/

/-- Step 1: the candidates in order. -/
def BootSt.order (b : BootSt) : List Nat :=
  match b.preference with
  | some p => [p, 1 - p]
  | none => if (b.info 0).build < (b.info 1).build then [1, 0] else [0, 1]

/-- Steps 2 and 5: the first candidate that passes. -/
def BootSt.chosen (b : BootSt) : Option Nat := b.order.find? fun i => b.passes i && (b.info i).whole

/-- A fuse request may be carried out (R418). -/
def BootSt.fuseOk (b : BootSt) (c m : Nat) : Bool :=
  [0, 1].all (fun i => b.passes i && decide (c ≤ (b.info i).svn) && m / 2 ^ (b.info i).keySlot % 2 = 0) && (b.revoked ||| m) % 16 != 15

/-- Step 3, at cold and module reset only. -/
def State.burnFuses (s : State) : State :=
  match s.boot.fuseRequest with
  | none => s
  | some (c, m) =>
    let ok := s.boot.fuseOk c m
    let s := s.updBoot fun b => { b with fuseRequest := none }
    if ok then s.updBoot fun b => { b with counter := max b.counter c, revoked := b.revoked ||| m }
    else s.mark Reg.Sec.FUSE_REQ_REFUSED

/-- The security registers set at boot (R432). -/
def State.gaugeBoot (s : State) : State :=
  let b := s.boot
  let s := (s.put Reg.Sec.COUNTER b.counter).put Reg.Sec.REVOKED b.revoked
  let s := (s.put Reg.Sec.KEY_SLOT b.keySlot).put Reg.Sec.DEBUG_OPEN (bit b.debugOpen 0)
  let s := (s.put Reg.Sec.WP_OPEN (bit b.wpOpen 0)).put Reg.Ceil.WP_OPEN (bit b.wpOpen 0)
  let s := (s.put Reg.Sec.IMG0_OK (bit b.img0Ok 0)).put Reg.Sec.IMG1_OK (bit b.img1Ok 0)
  let s := (s.put Reg.Sec.BOOT_IMAGE b.bootImage).put Reg.Glob.BOOT_IMAGE b.bootImage
  let s := (s.put Reg.Sec.IMG0_BUILD (b.info 0).build).put Reg.Sec.IMG1_BUILD (b.info 1).build
  let s := (s.put Reg.Sec.IMG0_SVN (b.info 0).svn).put Reg.Sec.IMG1_SVN (b.info 1).svn
  let s := (s.put Reg.Glob.FW_MAJOR (b.fw / 2 ^ 24)).put Reg.Glob.FW_MINOR (b.fw / 2 ^ 16 % 256)
  let s := s.put Reg.Glob.FW_BUILD (b.fw % 2 ^ 16)
  s.forAll [0, 1, 2, 3] fun s n => s.put (Reg.Sec.BOOT_KEY n) (leNat ((Config.bootKeyHash n).take 4))

/-- The boot ROM's steps; `full` at cold and module reset. With no candidate the Zenith stays in ROM recovery. -/
def State.romBoot (s : State) (full : Bool) : State :=
  let pick := s.boot.chosen
  let s := if pick == s.boot.order.head? then s else s.mark Reg.Sec.BOOT_FALLBACK
  let ok0 := s.boot.passes 0
  let ok1 := s.boot.passes 1
  let s := s.updBoot fun b => { b with img0Ok := ok0, img1Ok := ok1, romDone := true, restartWindow := false, missedSlots := 0 }
  -- step 3 follows the first candidate that passes step 2
  let s := if full && (ok0 || ok1) then s.burnFuses else s
  let s := match pick with
    | none => s.updBoot fun b => { b with recovery := true, zenithUp := false }
    | some i => s.updBoot fun b => { b with recovery := false, zenithUp := true, bootImage := i, keySlot := (b.info i).keySlot, fw := (b.info i).build }
  ((s.put Reg.Glob.ZENITH_RESTARTING 0).put Reg.Ceil.RESTART_WINDOW 0).gaugeBoot

/-- Step 1 of R433 ends: the ROM has not run yet, and no reset is being held. -/
def State.bootIfDue (s : State) : State :=
  if s.start.power == .off || s.boot.romDone || s.start.perstHeld then s else s.romBoot true

/-- After an update, a fuse request is written when it is due (R418). -/
def State.askFuses (s : State) : State :=
  let b := s.boot
  if !(b.passes 0 && b.passes 1) then s
  else
    let c := min (b.info 0).svn (b.info 1).svn
    let m := ((b.info 0).revoke &&& (b.info 1).revoke) % 16
    if b.counter < c || (List.range 4).any (fun n => m / 2 ^ n % 2 = 1 && !b.revokedSlot n) then
      s.updBoot fun b => { b with fuseRequest := some (c, m) }
    else s

/-! ### The debug token and write protection -/

/-- DEBUG_TOKEN: accepted before step 4 of R415 after a cold reset, for this module, under an unrevoked slot (R431). -/
def opDebugToken (serial : W64) (slot : Nat) (token sig : List Byte) (s : State) : State :=
  if s.start.power != .off && !s.boot.romDone && s.start.resetCause = 0 && serial == Config.serial && slot < 4 && !s.boot.revokedSlot slot
      && Config.debugSigned slot token sig then
    (s.updBoot fun b => { b with debugOpen := true }).put Reg.Sec.DEBUG_OPEN 1
  else s

def execDebugToken (serial : W64) (slot : Nat) (token signature : List Byte) (s : State) : Result :=
  .next (opDebugToken serial slot token signature s)

/-- FLASH_WP_N_CHANGE: the Ceiling unit's protection follows the input (R31, R461). -/
def execFlashWpNChange (released : Bool) (s : State) : Result :=
  .next (((s.updBoot fun b => { b with wpOpen := released }).put Reg.Sec.WP_OPEN (bit released 0)).put Reg.Ceil.WP_OPEN (bit released 0))

/-- A protected flash write is blocked and counted (R429). -/
def State.flashBlocked (s : State) : State :=
  (s.updBoot fun b => { b with flashBlocked := b.flashBlocked + 1 }).mark Reg.Sec.FLASH_BLOCKED

end Sys2Proof.Machine
end

