-- ==== Sys2Proof/Machine/Startup.lean ====
section
/-! DEFINITION. Resets, start-up, the contrail journal and the power states (R433-R447, R462-R464), the dawn calibration's results (R51), and
the Zenith's watchdog and restart (R27, R28, R440). -/

namespace Sys2Proof.Machine

/-! ### Publisher keys as registers (R424, R432) -/

/-- Key hashes that something held on a placement was verified with (R424). -/
def PlacementSt.keysUsed (x : PlacementSt) : List (List Byte) :=
  let held (i : Option Image) : List (List Byte) := i.elim [] fun i => [i.keyHash]
  let live := if x.live then held x.image else []
  let other := if x.imageState == .staged || x.imageState == .previous || x.imageState == .incomplete then held x.staged else []
  let versions := x.adapters.flatMap fun e => (e.2.slotA.toList ++ e.2.slotB.toList).map (·.keyHash)
  let job := if x.tune.st == .none then [] else [x.tune.keyHash]
  live ++ other ++ versions ++ job

/-- The key of an airspace's slot is in use. -/
def State.keyInUse (s : State) (a slot : Nat) : Bool :=
  match (s.asp a).keys.find slot, (s.asp a).placement with
  | some k, some p => (s.plc p).keysUsed.contains (sha512 k)
  | _, _ => false

/-- IN_USE, ENROLLED and KEY_PREFIX. -/
def State.gaugeKeys (s : State) : State :=
  s.forAll (List.range 8) fun s a =>
    let on (p : Nat → Bool) : Nat := (List.range 4).foldl (fun m n => m + bit (p n) n) 0
    let s := (s.put (Reg.Sec.ENROLLED a) (on fun n => (s.asp a).keys.has n)).put (Reg.Sec.IN_USE a) (on (s.keyInUse a))
    s.forAll (List.range 4) fun s n => s.put (Reg.Sec.KEY_PREFIX a n) (match (s.asp a).keys.find n with
      | some k => leNat ((sha512 k).take 4)
      | none => 0)

/-! ### What a reset keeps (R439, R447) -/

/-- A bank across a reset: what was being written is EMPTY (R434). -/
def Bank.kept (b : Bank) : Bank := if b.st == .installing || b.st == .twinBuilding then { cycles := b.cycles } else b

/-- A field's stored state: role, LOST state, banks, twins, power record, life index. -/
def FieldSt.kept (x : FieldSt) : FieldSt :=
  { role := if x.lossPending then .lost else if x.role == .rebuild then .clearing else x.role
    lostCause := if x.lossPending || x.role == .lost then x.lostCause else none
    placement := if x.role == .rebuild || x.chosen then none else x.placement
    powerRecord := x.powerRecord, tripped := x.powerRecord % 16, bank0 := x.bank0.kept, bank1 := x.bank1.kept
    twinOf := x.twinOf, twinHolder := x.twinHolder
    lifeIndex := x.storedLife, storedLife := x.storedLife, residue := x.storedResidue, storedResidue := x.storedResidue, cycles := x.cycles }

/-- A placement's stored state: images, banks, aliases of fields moved, the round length. -/
def PlacementSt.kept (x : PlacementSt) : PlacementSt :=
  { live := x.live, liveBank := x.liveBank, image := x.image, imageState := x.imageState, staged := x.staged, stagedBank := x.stagedBank
    holdLeft := x.holdLeft, moved := x.moved, stagedAt := x.stagedAt, round := x.round }

/-- An airspace's stratum configuration. -/
def AirspaceSt.kept (x : AirspaceSt) : AirspaceSt :=
  { placement := x.placement, slotShare := x.slotShare, kvShare := x.kvShare, cloudShare := x.cloudShare, powerShare := x.powerShare
    waitMax := x.waitMax, waitLimit := x.waitLimit, contHold := x.contHold, contrailHold := x.contrailHold
    temperature := x.temperature, topP := x.topP, topK := x.topK, minP := x.minP
    pauseTtl := x.pauseTtl, slots16k := x.slots16k, slots32k := x.slots32k, slots128k := x.slots128k, pool := x.pool, window := x.window
    addresses := x.addresses, ipv4 := x.ipv4, dhcp := x.dhcp, udpPort := x.udpPort, vlan := x.vlan, filters := x.filters
    egressCap := x.egressCap, dests := (x.dests.filter fun e => e.1 < 16).map fun e => (e.1, { e.2 with batchSeq := 0 }), keys := x.keys }

/-- The factory state of a YGN-2688-A-P (R2): the customer's image stands in bank 0 of its fields as placement 0, the pointer selects bank 0,
airspace 0 is bound to placement 0 with the publisher's key enrolled, and bank 1 of those fields holds the twins. `content` gives the image
region of each field, `key` the publisher key. State.reset is the module without an image (R1). -/
def State.factory (i : Image) (content : Nat → Mem) (key : List Byte) : State :=
  let act := (i.fields.filter fun r => r.role = 1).map FieldRec.field
  let s := i.fields.foldl (fun (s : State) (r : FieldRec) => s.updField r.field fun x => { x with
    role := if r.role = 1 then .active else .clearing, placement := some 0
    bank0 := if r.role = 1 then { mem := content r.field, cycles := 1, leaves := i.leavesOf r } else {} }) State.reset
  let s := s.updPlc 0 fun x => { x with live := true, liveBank := 0, stagedBank := 1, image := some i }
  let s := s.updAsp 0 fun x => { x with placement := some 0, keys := [(0, key)] }
  let t := s.buildTwins 0
  let t := t.forAll act fun t h => opMirrorDone h true t
  { s with fields := t.fields, placements := t.placements }.gaugeWeights.gaugeFields.gaugeKeys

/-- A segment whose trip stands in the record of one of its sites (R327, R341). -/
def State.segRecord (s : State) (n : Nat) : Bool := (segSites n).any fun f => (s.field f).powerRecord / 16 % 2 = 1

/-- Stored registers and those that follow standing conditions, set again after a reset (R59-R432). -/
def State.regauge (s : State) : State :=
  let s := s.gaugeWeights.gaugeFields.gaugeKeys.gaugeBoot.gaugeLinks
  let g := s.start.journal.generation
  let s := (s.put Reg.Start.JOURNAL_GEN_LO (g % 2 ^ 32)).put Reg.Start.JOURNAL_GEN_HI (g / 2 ^ 32)
  let s := s.forAll (List.range 4) fun s p => s.put (Reg.Eth.MTU p) (s.ethPort p).mtu
  let s := s.forAll (List.range 8) fun s a => (s.put (Reg.Eth.UDP_PORT a) (s.asp a).udpPort).put (Reg.Eth.VLAN a) (s.asp a).vlan
  let s := s.forAll allFields fun s f =>
    if !s.fields.has f then s else
    let x := s.field f
    let s := (s.put (Reg.FTherm.CYCLES f) x.cycles).put (Reg.FTherm.LIFE f) (x.lifeIndex * 10000).floor.toNat
    let s := (s.put (Reg.Stratum.BANK0_CYCLES f) x.bank0.cycles).put (Reg.Stratum.BANK1_CYCLES f) x.bank1.cycles
    s.gaugePower f
  let s := s.put Reg.Therm.LIFE (((s.fields.map fun e => e.2.lifeIndex).foldl max 0) * 10000).floor.toNat
  let s := s.forAll (List.range 22) fun s n => s.put (Reg.Pow.TRIPPED n) (bit (s.power.segTripped.contains n) 0)
  let s := ((s.put Reg.Glob.MODULE_ID s.start.moduleId).put Reg.Glob.RESET_CAUSE s.start.resetCause).put Reg.Glob.POWER_STATE s.start.power.code
  let s := (s.put Reg.Glob.SERIAL_LO (Config.serial.toNat % 2 ^ 32)).put Reg.Glob.SERIAL_HI (Config.serial.toNat / 2 ^ 32)
  let s := (s.put Reg.Glob.SILICON Config.silicon.toNat).put Reg.Glob.MODULE_REV Config.moduleRev.toNat
  let t := bit s.thermal.trip 0
  (((s.put Reg.Ceil.TRIP t).put Reg.Therm.THERMTRIP t).put Reg.Pow.UV (bit s.power.uv 0)).recap

/-- The state as a cold reset, a module reset or Standby leaves it: stored state kept, everything else at its reset value. `cold` drops
what only the auxiliary input holds; `windows` keeps the host windows (Standby, R385). -/
def State.afterReset (s : State) (cold windows : Bool) (cause : Nat) : State :=
  -- a transfer ends at once; what it had claimed is EMPTY (R160, R434)
  let s := s.transfers.foldl State.releaseClaims s
  let wregs := s.regs.filter fun e => 0x50000 ≤ e.1 && e.1 < 0x50060
  let t : State := {
    regs := if windows then wregs else []
    start := {
      power := .standby, phase := 1, resetCause := cause, straps := s.start.straps, moduleId := s.start.straps, perstHeld := s.start.perstHeld
      carry := s.start.carry, testInterval := s.start.testInterval, lastTested := s.start.lastTested, journal := { s.start.journal with running := false } }
    power := {
      storedCap := s.power.storedCap, hostCap := s.power.storedCap, bmcCap := if cold || windows then none else s.power.bmcCap
      capEff := s.power.storedCap, segTripped := (List.range 22).filter s.segRecord
      mainOk := s.power.mainOk, auxOk := true, refclkOk := s.power.refclkOk, uv := s.power.uv, vin := s.power.vin, vins := s.power.vins, auxV := s.power.auxV
      inputLost := s.power.inputLost, alert := s.power.alert }
    thermal := {
      tLim := s.thermal.tLim, guard := s.thermal.guard, switchOff := s.thermal.switchOff
      bmcLimit := if cold || windows then none else s.thermal.bmcLimit, bmcGuard := if cold || windows then none else s.thermal.bmcGuard
      trip := !cold && s.thermal.trip, tripCount := if cold then 0 else s.thermal.tripCount }
    fields := s.fields.map fun e => (e.1, e.2.kept)
    placements := s.placements.map fun e => (e.1, e.2.kept)
    airspaces := s.airspaces.map fun e => (e.1, e.2.kept)
    eth := s.eth.map fun e => (e.1, { mtu := e.2.mtu })
    links := {
      storedPlan := s.links.storedPlan, storedChart := s.links.storedChart, storedMaster := s.links.storedMaster
      plan := { s.links.storedPlan with master := s.links.storedMaster.getD s.links.storedPlan.master }
      chart := s.links.storedChart, soundLimit := s.links.soundLimit
      ports := if windows then [] else ((List.range 12).filter fun n => s.links.storedPlan.groups.any fun g => groupHas g n).map fun n => (n, { st := .down }) }
    nextTransfer := s.nextTransfer
    host := if windows then { written := s.host.written, fetched := s.host.fetched, produced := s.host.produced, repliesConsumed := s.host.repliesConsumed
                              eventsConsumed := s.host.eventsConsumed, replyNum := s.host.replyNum, held := s.host.held
                              eventSeq := s.host.eventSeq, eventQueue := s.host.eventQueue } else {}
    mgmt := if cold then {} else s.mgmt
    boot := {
      area0 := s.boot.area0, area1 := s.boot.area1, preference := s.boot.preference, fuseRequest := s.boot.fuseRequest
      counter := s.boot.counter, revoked := s.boot.revoked, wpOpen := s.boot.wpOpen, debugOpen := !cold && s.boot.debugOpen }
    rollbackHold := s.rollbackHold, twinProtection := s.twinProtection
    nextRequest := s.nextRequest, freeUses := s.freeUses, out := s.out, pending := s.pending }
  -- an update cut off by the reset leaves its area without an image (R419)
  let t := match s.boot.update with
    | none => t
    | some u => t.updBoot fun b => b.setArea u.image ⟨false, []⟩
  let t := if windows then
      ((t.put Reg.Hwin.FETCHED s.host.fetched).put Reg.Hwin.REPLY_SEQ s.host.replyNum).put Reg.Hwin.EVENT_SEQ (s.get Reg.Hwin.EVENT_SEQ)
    else t
  let t := t.put Reg.Start.PHASE 1
  t.regauge.forAll allFields State.copyWindow

/-- A module reset takes place: everything but stored state to its reset value, then step 1 of R433 (R439). -/
def State.moduleReset (s : State) (cause : Nat) (hold : Bool) : State :=
  let s := s.afterReset false false cause
  (s.updStart fun x => { x with holdInLull := hold }).bootIfDue

/-- AUX_INPUT_APPLIED: a cold reset; the straps are sampled; step 1 of R433 begins (R433, R462). -/
def opAuxApplied (straps : Nat) (s : State) : State :=
  if s.start.power != .off then s
  else (s.updStart fun x => { x with straps := straps % 64 }).afterReset true false 0

def execAuxInputApplied (straps : Nat) (s : State) : Result := .next (opAuxApplied straps s)

/-- AUX_INPUT_LOST: the module goes Off (R436); nothing but stored state is left. A journal that had begun stands cut (R448). -/
def opAuxLost (s : State) : State :=
  if s.start.power == .off then s
  else
    let lost := s.power.inputLost || s.start.power == .active || s.start.power == .lull
    let trip := s.thermal.trip
    let s := s.afterReset true false s.start.resetCause
    let s := s.updPower fun p => { p with inputLost := lost, auxOk := false, mainOk := false }
    let s := s.updStart fun x => { x with power := .off, phase := 0 }
    let s := if trip then s.emit (.pin "THERMTRIP_N" false) else s
    s.setAlert false

def execAuxInputLost (s : State) : Result := .next (opAuxLost s)

/-! ### The journal (R236, R441, R444-R446) -/

/-- Life indices and residues are written to the system areas (R358). -/
def State.storeLife (s : State) : State :=
  { s with fields := s.fields.map fun e => (e.1, { e.2 with storedLife := e.2.lifeIndex, storedResidue := e.2.residue }) }

/-- A descriptor as R441 restores it. -/
def JournalEntry.restore (e : JournalEntry) (whole : Bool) : Desc :=
  let d := { e.desc with
    lane := none, phase := none, regions := [], pages := [], cowPage := none, cowLeft := 0, registering := none, pauseRec := none, copyBack := false
    kvHeld := false, kvFill := 0, rebuilding := false, sampled := none, travDropped := false, latch := 0, endPending := false, carried := false
    cancelLatched := false, pauseLatched := false, drainPause := false, copyA := none, copyB := none }
  let ended (r : Nat) : Desc := { d with st := .ended, endReason := r }
  if !whole && !e.valid then ended 5
  else match e.desc.st with
    | .queued | .prefill | .decode => { d with st := .paused, carried := true }
    | .draining => if e.desc.drainPause && !e.desc.cancelLatched then { d with st := .paused } else ended (if e.desc.endReason = 0 then 4 else e.desc.endReason)
    | .paused => { d with st := .paused, carried := e.carried }
    | .ended => ended e.desc.endReason
    | .free => d

/-- Step 5 of R433: the journal is restored and marked consumed (R446). -/
def State.restoreJournal (s : State) : State :=
  let j := s.start.journal
  if j.consumed || j.generation = 0 then s
  else
    let s := s.updStart fun x => { x with journal := { j with consumed := true, running := false } }
    let s := j.entries.foldl (fun s e =>
      let d := e.restore j.complete
      let s := (s.setSess e.index d).placeContrail e.index
      let s := match e.dest with
        | some t => if 16 ≤ d.dest && d.dest < 4096 then s.updAsp d.airspace fun x => { x with dests := x.dests.set d.dest t } else s
        | none => s
      -- an end that the journal brings is told in the first step batches after serving starts
      if d.st == .ended && e.desc.st != .ended then (s.pushEnd e.index d.endReason).updSess e.index fun d => { d with endPending := true } else s) s
    let faults := (j.entries.filter fun e => !j.complete && !e.valid).length
    let s := s.put Reg.Start.RESTORED (j.entries.length - faults)
    (s.put Reg.Start.RESTORE_FAULT faults).put Reg.Start.JOURNAL_CUT (bit (!j.complete) 0)

/-- Carried sessions ask for their clearance when their placement serves (R443). -/
def State.carryRequests (s : State) : State :=
  if !s.start.carry then s.forAll s.sessIds fun s n => s.updSess n fun d => { d with carried := false }
  else
    let l := sortNat (s.sessIds.filter fun n => (s.sess n).carried && (s.sess n).st == .paused)
    let s := s.put Reg.Start.CARRY_PENDING (bit (!l.isEmpty) 0)
    s.forAll l fun s n =>
      let d := s.sess n
      let t := (s.asp d.airspace).dests.getD d.dest ⟨0, 0, 0, 0, 0⟩
      let c : Client := { airspace := d.airspace, addr := t.addr, port := t.udpPort, eth := t.ingress, seq := 0, handle := handleOf n d, v6 := true }
      let r : Request := { id := s.nextRequest, kind := 2, receipt := s.tick.count, client := c, part0 := none, tokens := [], pendingSent := true, carried := true }
      { s.updAsp d.airspace fun x => { x with waiting := x.waiting ++ [r] } with nextRequest := s.nextRequest + 1 }

/-! ### Leaving Standby (R436) -/

/-- POWER_STATE 0 in Standby: start-up from step 2, runtime state as after a module reset (R436). -/
def State.leaveStandby (s : State) : State :=
  let cmd := s.start.powerCmd
  let boot := s.boot
  let t := s.afterReset false true s.start.resetCause
  let t := t.updBoot fun _ => boot
  let t := t.updStart fun x => { x with phase := 2, powerCmd := cmd, target := some .active }
  (t.gaugeBoot).put Reg.Start.PHASE 2

/-! ### Step 2 to step 7 of start-up (R433, R434) -/

/-- A compute field may be powered: no record of a trip (R22, R327). -/
def State.mayPower (s : State) (f : Nat) : Bool := (s.field f).powerRecord = 0

/-- Every compute field is asked to wake (R433 step 3), but for a LOST field that still holds work, which is not retested (R22, R434). -/
def State.wakeAll (s : State) : State :=
  s.forAll (computeFields.filter fun f => s.mayPower f && !s.holdsWork f) fun s f => s.updField f fun x => { x with clock := .waking, wakeDeferred := 0, vlogMv := 720 }

/-- Ticks start at P = 4,800 (R433 step 3, R49). -/
def State.startTicks (s : State) : State :=
  let s := s.updTick fun t => { t with lullEndAsked := true }
  (s.put Reg.Tick.PERIOD s.tick.period).put Reg.Tick.LULL 0

/-- Domains up: segments not tripped, links of every site, service fields, memory interfaces and stacks (R334 steps 2-4). -/
def State.conversionOn (s : State) : State :=
  let on := (List.range 22).filter fun n => !s.power.segTripped.contains n
  let s := s.updPower fun p => { p with segOn := on, mainOk := true }
  let s := s.forAll on fun s n => s.put (Reg.Pow.ON n) 1
  let s := s.forAll allFields fun s f =>
    let svc := if Config.serviceFields.contains f then 7 else 4
    (s.updField f fun x => { x with on := (svc + bit (isHomeSite f) 3) &&& (0xF ^^^ x.tripped) }).gaugePower f
  s.forAll (List.range 48) fun s n => s.updStack n fun x => { x with st := .training }

/-- MAIN_INPUT_READY: steps 2 and 3 of R433; with the thermal trip standing, no compute field wakes and the module stays in Overcast
(R353). -/
def opMainReady (s : State) : State :=
  let s := (s.updPower fun p => { p with mainOk := true }).bootIfDue
  if !s.zenithServing || s.boot.recovery || (s.start.phase ≠ 1 && s.start.phase ≠ 2) then s
  else
    let s := s.conversionOn
    if s.thermal.trip then ((s.updStart fun x => { x with phase := 3 }).put Reg.Start.PHASE 3).setPowerSt .overcast
    else
      let s := (s.updStart fun x => { x with phase := 4, calibrating := true }).put Reg.Start.PHASE 4
      (s.startTicks.wakeAll).setPowerSt .active

def execMainInputReady (s : State) : Result := .next (opMainReady s)

/-- A clearing or UNASSIGNED field's logic stays off (R356). -/
def State.restOff (s : State) (f : Nat) : State :=
  let x := s.field f
  if x.role == .clearing || x.role == .unassigned || x.role == .lost then
    (s.updField f fun x => { x with clock := .stopped }).domainsOff f 3
  else s

/-- The beacon offsets of a field as its calibration measured them, in ps by branch; a field that the event does not list has the nominal
ones of R45: 4 cycles and 2 per hop from the origin (0,5) on the primary branch, 52 cycles on the redundant one (DESIGN CHOICE, log entry
127). -/
def offsetsOf (l : List (Nat × Nat × Nat)) (f : Nat) : Nat × Nat :=
  match l.find? fun e => e.1 = f with
  | some e => (e.2.1 / 10 * 10, e.2.2 / 10 * 10)
  | none => ((4 + 2 * dist 44 f) * 5000 / 120 * 10, 52 * 5000 / 120 * 10)

/-- Step 2 of the calibration: a branch above 62 cycles is unusable; a field with neither fails (R45, R51). -/
def offsetsPass (o : Nat × Nat) : Bool := branchUsable (some o.1) || branchUsable (some o.2)

/-- One field's dawn calibration passed: its clock runs and both branches are measured. The vane trim that it finds is measured: a free
value up to the ceiling (R51). -/
def State.calibrated (s : State) (f : Nat) (o : Nat × Nat) : State :=
  let (n, s) := s.fresh
  let trim := min 100 n
  let s := s.updField f fun x => { x with
    clock := .running, offsetPrimary := some o.1, offsetRedundant := some o.2, beaconOk := true, beaconMiss := 0, trim := trim
    on := (x.on ||| 3) &&& (0xF ^^^ x.tripped) }
  let s := s.updField f fun x => x.equalise s.tick.level
  let s := (((s.put (Reg.FPow.TRIM_MV f) trim).gaugePower f).writeSetPoint f (bandOf s.tick.zenith)).updField f fun x => { x with settled := true }
  let s := s.forAll (coresOf f) fun s c => s.updCore c fun k => { k with state := if k.state == .off then .idle else k.state }
  s.setReach f true

/-- Step 7 of R433: serving starts. LOST fields that still belong to a live placement are re-placed (R434). -/
def State.serve (s : State) : State :=
  let s := (s.updStart fun x => { x with phase := 0, serving := true, target := none, calibrating := false }).put Reg.Start.PHASE 0
  let s := s.replaceLeft
  let s := if s.power.inputLost then (s.updPower fun p => { p with inputLost := false }).event { code := 0x0204 } else s
  -- the boundary at which the placement first serves is b_L (R214)
  let s := s.forAll s.livePlacements fun s p => s.updPlc p fun x => { x with bL := s.nextCount, phases := [] }
  let s := (s.setPowerSt .active).carryRequests
  let s := if s.start.holdInLull then s.toLull else s
  let s := if s.start.holdInLull then s else s.arrived
  s.gaugeSessions.gaugeKv.gaugeLanes.gaugeCloud.gaugeWeights.gaugeFields.evalHealth

/-- Step 6 of R433 for one placement: the plan loaded and in force, airspaces carved, twins (R34, R157, R187, R434). -/
def State.buildPlacement (s : State) (p : Nat) : State :=
  match (s.plc p).image with
  | none => s
  | some i =>
    let s := s.forAll (s.fieldsOf p) fun s f =>
      -- a mirror under construction is begun again from its start (R434)
      if (s.standby f).st != .twin then
        match (s.field f).twinOf with
        | none => s
        | some g => (s.updField f fun x => { x with twinOf := none }).updField g fun x => { x with twinHolder := none }
      else s
    let s := s.loadPlan p
    let s := s.planInForce p (s.makePlan p i i.prefillPct i.rrPct i.period) true
    let s := s.writeAliases
    let s := s.forAll (s.boundTo p) fun s a => s.setStripes a (s.asp a).cloudShare
    let s := (s.carveAll p).setFilters p
    let s := s.updPlc p fun x => { x with servingAt := some s.tick.count }
    s.buildTwins p

/-- PLACEMENT_BUILT. With debug open, no placement is built (R431). -/
def opPlacementBuilt (p : Nat) (s : State) : State :=
  if s.start.phase ≠ 6 || !(s.plc p).live || s.start.built.contains p || s.boot.debugOpen then s
  else
    let s := s.buildPlacement p
    let s := s.updStart fun x => { x with built := x.built ++ [p] }
    if s.livePlacements.all s.start.built.contains then s.serve else s

def execPlacementBuilt (placement : Nat) (s : State) : Result := .next (opPlacementBuilt placement s)

/-- Steps 5 and 6 begin; with nothing to build, step 7 follows at once (R434). -/
def State.afterDawn (s : State) : State :=
  let s := s.restoreJournal
  let s := (s.updStart fun x => { x with phase := 6, calibrating := false }).put Reg.Start.PHASE 6
  let s := s.gaugeWeights.gaugeFields
  if s.boot.debugOpen then s
  else if s.livePlacements.isEmpty then s.serve else s

/-- A router or edge-ring crossing that fails step 3 is removed from the route tables; the traffic takes a detour (R51, R298). -/
def State.dropCrossings (s : State) (l : List (Nat × Nat)) : State :=
  if l.isEmpty then s
  else (l.foldl (fun s e =>
    let s := s.updRouter e.1 fun t => { t with linksDown := if t.linksDown.contains e.2 then t.linksDown else e.2 :: t.linksDown }
    s.put (Reg.Router.LINK_UP e.1) (s.linkUpMask e.1)) s).writeDetours

/-- Whole-module dawn calibration ends: LOST fields that hold no work return as UNASSIGNED if they pass it and the self-test; fields and
stacks that fail are lost (R22, R51, R197, R433, R434). -/
def State.dawnModule (s : State) (failedFields failedTests failedStacks : List Nat) (crossings : List (Nat × Nat))
    (offsets : List (Nat × Nat × Nat)) : State :=
  if s.start.phase ≠ 4 then s
  else
    let s := s.dropCrossings crossings
    let s := s.forAll (computeFields.filter fun f => s.mayPower f && !s.holdsWork f) fun s f =>
      let x := s.field f
      let o := offsetsOf offsets f
      if failedFields.contains f || !offsetsPass o then
        if x.role == .lost then s.updField f fun x => { x with clock := .stopped }
        else if x.role == .active then
          (s.updField f fun x => { x with role := .lost, lostCause := some 7, clock := .stopped }).event
            { code := 0x0802, field := f, placement := placementByte x.placement, stages := s.stagesOf f
              detail := [(40, 7), (41, 2), (42, 0xFF), (43, 0xFF)] }
        else s.logicLost f 7
      else
        let s := s.calibrated f o
        -- a LOST field goes through self-test as well (R22, R449)
        if x.role == .lost && !failedTests.contains f then s.updField f fun x => { x with role := .unassigned, placement := none, lostCause := none }
        else s
    let s := s.forAll (List.range 48) fun s n =>
      if (s.stack n).st == .lost then s else if failedStacks.contains n then s.loseStack n 0
      else
        -- the lanes that the stack's own repair took: measured, a free value (R197, R206)
        let (k, s) := s.fresh
        (s.updStack n fun x => { x with st := .active }).put (Reg.Cloud.LANES_REPAIRED n) (k % 256)
    let s := s.put Reg.Cloud.STACKS_OK ((List.range 48).filter fun n => (s.stack n).st == .active).length
    let s := s.forAll computeFields State.restOff
    s.afterDawn

/-- The order that waited for a field's calibration ends: FIELD_RESET and CALIBRATE are answered OK (R403, R410). -/
def State.endTask (s : State) (f : Nat) : State :=
  let x := s.field f
  let s := s.updField f fun x => { x with task := 0, taskCmd := none }
  match x.taskCmd with
  | none => s
  | some (seq, src, op) => s.finalReply src seq op .ok

/-- One field's dawn calibration ends (R51, R58): reachable from the next boundary; its plan is loaded one boundary later; a field that
serves nothing goes off again. -/
def State.dawnField (s : State) (f : Nat) (failed : Bool) (o : Nat × Nat) : State :=
  let failed := failed || !offsetsPass o
  let x := s.field f
  if x.clock != .ramping && x.clock != .calibrating then s
  else if failed then
    let s := s.endTask f
    s.logicLost f 7
  else
    let s := s.calibrated f o
    let s := s.updField f fun x => { x with loadAt := if x.role == .active || x.role == .rebuild then some (s.tick.count + 2) else none }
    if x.task = 2 then s.banksTest f
    else
      let s := s.endTask f
      if x.role == .clearing || x.role == .unassigned then s.updField f fun x => { x with clock := .stopping true } else s

/-- DAWN_CALIBRATION_COMPLETE. -/
def opDawn (region : Option Nat) (failedFields failedTests failedStacks : List Nat) (crossings : List (Nat × Nat))
    (offsets : List (Nat × Nat × Nat)) (s : State) : State :=
  match region with
  | none => s.dawnModule failedFields failedTests failedStacks crossings offsets
  | some f => s.dawnField f (failedFields.contains f) (offsetsOf offsets f)

def execDawnCalibrationComplete (region : Option Nat) (failedFields : DawnFields) (failedStacks : DawnParts) (s : State) : Result :=
  .next (opDawn region failedFields.failed failedFields.tests failedStacks.lost failedStacks.crossings failedFields.offsets s)

/-! ### Overcast: completion of entry, and exit (R437, R438) -/

/-- Exit from Overcast (R438 steps 1-3): fields of role ACTIVE, REBUILD, or CLEARING in a running test wake; a field of another role under test
wakes too (DESIGN CHOICE, log entry 151). Before step 7 of start-up it goes on with start-up (R353, R448). -/
def State.leaveOvercast (s : State) : State :=
  let s := s.forAll (List.range 48) fun s n => s.updStack n fun x => { x with st := if x.st == .selfRefresh then .active else x.st }
  let s := s.gaugeCloud.updStart fun x => { x with target := some .active, lullOrdered := false, holdInLull := false }
  let s := s.startTicks
  if s.start.serving || s.start.phase = 6 then
    s.forAll (computeFields.filter fun f => s.mayPower f && ((s.field f).role == .active || (s.field f).role == .rebuild || s.start.testField == some f)) fun s f =>
      s.updField f fun x => { x with clock := .waking, wakeDeferred := 0 }
  else
    ((s.updStart fun x => { x with phase := 4, calibrating := true }).put Reg.Start.PHASE 4).wakeAll

/-- The release conditions of R351, R353 and R463 hold. -/
def State.released (s : State) : Bool :=
  !s.thermal.trip && s.power.refclkOk && (!s.thermal.flowLost || decide (10000 ≤ s.thermal.flowOkMs))

/-- OVERCAST_EXIT_COMPLETE: every placement has all its fields loaded (R438). -/
def opOvercastExit (s : State) : State :=
  let ready := s.livePlacements.all fun p => (s.fieldsOf p).all fun f => (s.field f).clock == .running && (s.field f).loadAt.isNone
  if s.start.power != .overcast || s.start.target != some .active || !ready || (!s.start.serving && s.start.phase ≠ 6) then s
  else if !s.start.serving then
    -- start-up was cut at step 4 or 5 by a trip; it goes on from step 6 (R448)
    ((s.updStart fun x => { x with target := none }).setPowerSt .active).afterDawn
  else
    let s := s.forAll s.livePlacements fun s p =>
      let s := match (s.plc p).image with
        | some i => s.flipAdapters p i
        | none => s
      let s := s.planInForce p (s.plc p).plan false
      s.carveAll p
    let s := s.updStart fun x => { x with journal := { x.journal with consumed := true }, target := none }
    let s := s.updThermal fun t => { t with flowLost := false }
    let s := s.replaceLeft
    ((s.setPowerSt .active).carryRequests).arrived

def execOvercastExitComplete (s : State) : Result := .next (opOvercastExit s)

/-- JOURNAL_WRITE_COMPLETE: entries read back; what waited for the journal goes on (R437, R439, R445). -/
def opJournalDone (unwritten : List Nat) (s : State) : State :=
  if !s.start.journal.running then s
  else
    let l := s.journalEntries fun n => !unwritten.contains n
    let s := s.updStart fun x => { x with journal := { x.journal with entries := l, complete := l.all (·.valid), running := false } }
    let s := s.storeLife
    match s.start.resetPending with
    | some (cause, hold) => s.moduleReset cause hold
    | none =>
      let standby := s.start.target == some .standby
      if s.start.target != some .overcast && !standby then s
      else
        let s := s.overcastReached
        if standby then s.enterStandby
        else if s.start.entryCause = 3 && s.power.inputFault = 0 && s.released then s.leaveOvercast
        else if s.start.powerCmd.isSome then s.arrived else s

def execJournalWriteComplete (unwritten : List Nat) (s : State) : Result := .next (opJournalDone unwritten s)

/-- INPUT_UV_CLEARED: 48-58 V for 1 s leads out of Overcast (R327, R436). -/
def opUvCleared (s : State) : State :=
  let s := (s.updPower fun p => { p with uv := false, inputFault := 0 }).put Reg.Pow.UV 0
  if s.start.power == .overcast && s.start.entryCause = 3 && s.start.target.isNone && s.released then s.leaveOvercast else s

def execInputUvCleared (s : State) : Result := .next (opUvCleared s)

/-! ### Main power lost and restored (R327, R436, R442) -/

/-- INPUT_LOCKOUT: the segments stop; no journal unless Overcast was reached (R327, R436). -/
def opLockout (vin : Nat) (s : State) : State :=
  let s := (s.updPower fun p => { p with vin := vin, mainOk := false, inputFault := 2 }).put Reg.Pow.VIN vin
  if s.start.power == .off || s.start.power == .standby then s
  else
    let lost := s.start.power != .overcast
    let s := s.updPower fun p => { p with inputLost := p.inputLost || lost }
    -- a journal under way is cut: entries without VALID end FAULT at restart (R446, R448)
    let s := s.updStart fun x => { x with journal := { x.journal with running := false }, resetPending := none }
    s.enterStandby

def execInputLockout (vin : Nat) (s : State) : Result := .next (opLockout vin s)

/-- MAIN_INPUT_RESTORED: a module reset with cause 4 (R436, R439). -/
def opMainRestored (s : State) : State :=
  if s.start.power != .standby || s.power.inputFault ≠ 2 then s
  else ((s.updPower fun p => { p with mainOk := true }).moduleReset 4 false)

def execMainInputRestored (s : State) : Result := .next (opMainRestored s)

/-! ### Reference clock, PERST_N (R463, R464) -/

/-- REFCLK_MAIN_LOSS: Lull is forced; Standby through Overcast with cause 4 (R463). -/
def opRefclkLoss (s : State) : State :=
  if !s.power.mainOk then s
  else (s.updPower fun p => { p with refclkOk := false }).goOvercast 4 true

def execRefclkMainLoss (s : State) : Result := .next (opRefclkLoss s)

/-- REFCLK_MAIN_RESTORED: present for 1 s; POWER_STATE 0 is no longer refused for it. -/
def execRefclkMainRestored (s : State) : Result := .next (s.updPower fun p => { p with refclkOk := true })

/-- A module reset is ordered: its journal first, or the journal under way; none where nothing runs (R439, R448). Later orders of the slot
are void (R400). -/
def State.orderReset (s : State) (cause : Nat) (hold : Bool) : State :=
  let s := s.updStart fun x => { x with resetPending := some (cause, hold) }
  if s.start.power == .standby || s.start.power == .off then s.moduleReset cause hold else s.beginJournal 1

/-- PERST_N_ASSERT: at least 100 µs begins a module reset; a shorter pulse is ignored (R464). -/
def opPerstAssert (micros straps : Nat) (s : State) : State :=
  if micros < 100 || s.start.power == .off then s
  else (s.updStart fun x => { x with perstHeld := true, straps := straps % 64 }).orderReset 1 false

def execPerstNAssert (micros straps : Nat) (s : State) : Result := .next (opPerstAssert micros straps s)

/-- PERST_N_RELEASE: start-up begins now, or when the journal ends (R464). -/
def execPerstNRelease (s : State) : Result := .next (s.updStart fun x => { x with perstHeld := false }).bootIfDue

/-! ### The Zenith's service (R27, R28, R440) -/

/-- Lull is forced and recorded (R27). -/
def State.watchdog (s : State) (why : Nat) : State :=
  let s := s.put Reg.Ceil.WATCHDOG_LULL 1
  (s.event { code := 0x0102, detail := [(40, why)] }).toLull

/-- WATCHDOG_LULL: four control slots in a row were missed, and no restart is declared. -/
def execWatchdogLull (s : State) : Result :=
  .next (if s.boot.restartWindow || (s.zenithServing && decide (s.boot.missedSlots < 4)) then s else s.watchdog 0)

def execRestartTimeout (s : State) : Result := .next (if s.boot.restartWindow then s.watchdog 1 else s)

/-- ZENITH_NOT_SERVICING: no control slot is serviced; a self-test under way is abandoned (R28, R449). -/
def opNotServicing (s : State) : State :=
  let s := s.updBoot fun b => { b with zenithUp := false }
  match s.start.testField with
  | some f => s.abandonTest f
  | none => s

def execZenithNotServicing (s : State) : Result := .next (opNotServicing s)

/-- ZENITH_STAGING_COMPLETE: the staged image is verified; the restart is declared and the ROM starts the copy, or SIGNATURE_INVALID
(R415). -/
def opStaged (ok : Bool) (s : State) : State :=
  match s.boot.staging with
  | none => s
  | some i =>
    let s := s.updBoot fun b => { b with staging := none }
    if !ok || !s.boot.passes i || !(s.boot.info i).whole then
      match s.start.restartCmd with
      | none => s
      | some (seq, src, op) => (s.updStart fun x => { x with restartCmd := none }).finalReply src seq op .signatureInvalid
    else
      let s := s.updBoot fun b => { b with preference := some i, restartWindow := true, romDone := false }
      (s.put Reg.Glob.ZENITH_RESTARTING 1).put Reg.Ceil.RESTART_WINDOW 1

def execZenithStagingComplete (ok : Bool) (s : State) : Result := .next (opStaged ok s)

/-- Record the events found while the Zenith did not serve, with the ticks of their detection (R374). -/
def State.recordLate (s : State) : State :=
  let l := s.host.late
  let s := s.updHost fun h => { h with late := [] }
  l.foldl (fun s e => (stageRuns 128 e.stages).foldl (fun s (run : List Nat × Bool) => s.recordEvent { e with stages := run.1, more := run.2 }) s) s

/-- ZENITH_RESUMED: service resumes; the final reply of a restart, the events, and the end of a watchdog Lull (R27, R440). -/
def opResumed (s : State) : State :=
  if s.start.power == .off || s.start.perstHeld then s
  else
    let s := if !s.boot.romDone then (if s.boot.restartWindow then s.romBoot false else s.romBoot true) else s
    if s.boot.recovery then s
    else
      let s := s.updBoot fun b => { b with zenithUp := true, restartWindow := false, missedSlots := 0 }
      let s := ((s.put Reg.Glob.ZENITH_RESTARTING 0).put Reg.Ceil.RESTART_WINDOW 0).put Reg.Ceil.WATCHDOG_LULL 0
      let s := match s.start.restartCmd with
        | none => s
        | some (seq, src, op) => (s.updStart fun x => { x with restartCmd := none }).finalReply src seq op .ok
      ((State.drainReplies (s.host.held.length + 1) s).recordLate).releaseLull

def execZenithResumed (s : State) : Result := .next (opResumed s)

end Sys2Proof.Machine
end

