-- ==== Sys2Proof/Machine/Thermal.lean ====
section
/-! DEFINITION. Cooling and thermal control: tray sensors, junction pairs, thermal resistances and the thermal cap (R345-R350), the thermal
stretch demand (R352), the Ceiling unit's trip (R353), the outlook (R354), fields switched off for heat (R357), and the life index (R358).
Temperatures are in 0.1 C. -/

namespace Sys2Proof.Machine

/-! ### Tray sensors (R345, R346) -/

/-- One read of a tray sensor on its counts of failures and good reads: lost from the third failure in a row to the tenth good read. -/
def trayCount (fails good : Nat) (ok : Bool) : Nat × Nat :=
  if !ok then (min 3 (fails + 1), 0)
  else if fails < 3 then (0, min 10 (good + 1))
  else if 9 ≤ good then (0, 10) else (fails, good + 1)

def trayOk (r : TrayRead) (lo hi : Int) : Bool := r.answered && r.valid && decide (lo ≤ r.raw) && decide (r.raw ≤ hi)

/-- A tray temperature in 0.1 C, rounded down (log entry 109). -/
def trayTemp (raw : Int) : Int := raw * 10 / 128

/-- A tray sensor is lost in this sample: reported with its address. -/
def State.trayLost (s : State) (was now addr : Nat) : State :=
  if was < 3 && now = 3 then (s.mark Reg.Therm.TRAY_SENSOR_LOST).event { code := 0x0218, detail := [(40, addr)] } else s

/-- The tray's three readings. -/
def State.readTray (s : State) (r : ThermalReads) : State :=
  let t := s.thermal
  let okI := trayOk r.inlet (-2560) 12800
  let okO := trayOk r.outlet (-2560) 12800
  let okF := trayOk r.flow 0 10000
  let i := trayCount t.inletFails t.inletGood okI
  let o := trayCount t.outletFails t.outletGood okO
  let f := trayCount t.flowFails t.flowGood okF
  let keep {α : Type} (fails : Nat) (ok : Bool) (old : Option α) (new : α) : Option α := if 3 ≤ fails then none else if ok then some new else old
  let s := s.updThermal fun t => { t with
    inletFails := i.1, inletGood := i.2, outletFails := o.1, outletGood := o.2, flowFails := f.1, flowGood := f.2
    trayInlet := keep i.1 okI t.trayInlet (trayTemp r.inlet.raw)
    trayOutlet := keep o.1 okO t.trayOutlet (trayTemp r.outlet.raw)
    trayFlow := keep f.1 okF t.trayFlow r.flow.raw.toNat }
  ((s.trayLost t.inletFails i.1 0x48).trayLost t.outletFails o.1 0x49).trayLost t.flowFails f.1 0x4C

/-- T_in: the highest of the readings that are not lost; with none the inlet is taken as at 52 C (R346). -/
def ThermalSt.inletTemp (t : ThermalSt) : Int :=
  match t.trayInlet.toList ++ t.couplingA.toList ++ t.couplingB.toList with
  | [] => 520
  | x :: xs => xs.foldl max x

/-- A signed 16-bit register value. -/
def int16 (v : Int) : Nat := (v % 65536).toNat
def lostOr (v : Option Int) : Nat := match v with
  | none => 0x8000
  | some x => int16 x
/-- Inlet, flow, and the reports of R350. -/
def State.coolant (s : State) : State :=
  let old := s.thermal
  let tin := old.inletTemp
  -- a flow sensor that is lost reads as 20 L/min; before its first reading the last value stands
  let flow := if 3 ≤ old.flowFails then 2000 else old.trayFlow.getD old.flow
  let s := s.updThermal fun t => { t with
    tIn := tin, flow := flow, flowOkMs := if 2000 ≤ flow then t.flowOkMs + 100 else 0
    inletSlope := (t.inletSlope ++ [tin]).drop (t.inletSlope.length + 1 - 101) }
  let s := (s.put Reg.Therm.INLET (int16 tin)).put Reg.Therm.OUTLET (lostOr s.thermal.trayOutlet)
  let s := s.put Reg.Therm.FLOW flow
  let s := if 480 < tin && old.tIn ≤ 480 then (s.mark Reg.Therm.INLET_HOT).event { code := 0x0211, detail := le2 42 (int16 tin) } else s
  if flow < 2000 && 2000 ≤ old.flow then (s.mark Reg.Therm.FLOW_LOW).event { code := 0x0212, detail := le2 42 flow } else s

/-! ### Junction pairs (R347) -/

/-- A reading is plausible: 0-125 C, and at most 20 K from the previous sample. -/
def plausible (old new : Option Int) : Option Int :=
  new.filter fun v => decide (0 ≤ v) && decide (v ≤ 1250) && (old.all fun o => decide ((v - o).natAbs ≤ 200))

/-- One sample of a pair: its new state, its control reading (none: at its limit), and what its field's limit is lowered by. -/
def Spot.sample (x : Spot) (a b : Option Int) : Spot × Option Int × Int :=
  let held (y : Spot) : Spot := { y with a := if a.isSome then a else x.a, b := if b.isSome then b else x.b }
  if x.lost then (held x, none, 0)
  else match plausible x.a a, plausible x.b b with
    | some u, some v =>
      let d : Int := (u - v).natAbs
      let diffs := (x.diffs ++ [d]).drop (x.diffs.length + 1 - 10)
      let far := decide (diffs.length = 10) && diffs.all (30 < ·)
      let ok := if d ≤ 30 then x.okRun + 1 else 0
      let sus := (x.suspect || far) && decide (ok < 100)
      (held { x with diffs := diffs, okRun := ok, suspect := sus }, some (max u v), if sus then diffs.foldl max 0 else 0)
    | some u, none => (held { x with diffs := [], okRun := 0 }, some (u + 50), 0)
    | none, some v => (held { x with diffs := [], okRun := 0 }, some (v + 50), 0)
    | none, none => (held { x with lost := true }, none, 0)

/-- Hot spots of a field: 8, or 4 in a service field. -/
def spotCount (f : Nat) : Nat := if Config.serviceFields.contains f then 4 else 8

/-- The junction control limit in force: the lower of host and BMC (R361, R399), and the guard: the higher. -/
def ThermalSt.limitNow (t : ThermalSt) : Nat := (t.bmcLimit.map fun b => min b t.tLim).getD t.tLim
def ThermalSt.guardNow (t : ThermalSt) : Nat := (t.bmcGuard.map fun b => max b t.guard).getD t.guard

/-- The pairs of one field: control readings, limit, SUSPECT and LOST. A field without readings is unpowered. -/
def State.readField (s : State) (r : ThermalReads) (f : Nat) : State :=
  let mine := r.spots.filter fun (h : HotSpotRead) => h.field = f && decide (h.spot < spotCount f)
  let base : Int := 10 * (s.thermal.limitNow : Int)
  if mine.isEmpty then
    if s.fields.has f then (s.updField f fun x => { x with control := none, atLimit := false }).put (Reg.FTherm.CONTROL f) 0x8000 else s
  else
    let p := placementByte (s.field f).placement
    let (s, ctl, low) := mine.foldl (fun (acc : State × List Int × Int) (h : HotSpotRead) =>
      let (s, ctl, low) := acc
      let old := (s.field f).spots.getD h.spot {}
      let (new, c, d) := old.sample h.a h.b
      let s := s.updField f fun x => { x with spots := x.spots.set h.spot new }
      let s := (s.put (Reg.FTherm.SENSOR_A f h.spot) (lostOr h.a)).put (Reg.FTherm.SENSOR_B f h.spot) (lostOr h.b)
      let s := if new.suspect && !old.suspect then
          (s.mark Reg.Therm.SENSOR_SUSPECT).event { code := 0x0216, field := f, placement := p, detail := [(40, h.spot)] } else s
      let s := if new.lost && !old.lost then
          (s.mark Reg.Therm.SENSOR_LOST).event { code := 0x0217, field := f, placement := p, detail := [(40, h.spot)] } else s
      (s, ctl ++ c.toList, max low d)) (s, [], 0)
    let x := s.field f
    let lim := base - low
    let c : Option Int := match ctl with
      | [] => none
      | v :: vs => some (vs.foldl max v)
    let anyLost := x.spots.any fun e => e.2.lost
    let bitsOf (g : Spot → Bool) : Nat := (x.spots.filter fun e => g e.2).foldl (fun m e => m + 2 ^ e.1) 0
    let s := s.updField f fun x => { x with control := c, limit := lim, atLimit := anyLost }
    let s := (s.put (Reg.FTherm.CONTROL f) (lostOr c)).put (Reg.FTherm.LIMIT f) (int16 lim)
    (s.put (Reg.FTherm.SUSPECT f) (bitsOf (·.suspect))).put (Reg.FTherm.LOST f) (bitsOf (·.lost))

/-! ### Thermal resistance and the thermal cap (R348, R349) -/

/-- The mean of the last samples, or the value before the first. -/
def meanOr (l : List Rat) (d : Rat) : Rat := if l.isEmpty then d else l.foldl (· + ·) 0 / ((l.length : Nat) : Int)

/-- Rθ_f in K/W and Rθ_m in K/W. -/
def FieldSt.rthNow (x : FieldSt) : Rat := meanOr x.rth (2 / 5)
def ThermalSt.rthModNow (t : ThermalSt) : Rat := meanOr t.rthMod (1 / 250)

def last10 (l : List Rat) (v : Rat) : List Rat := (l ++ [v]).drop (l.length + 1 - 10)
def kelvin (v : Int) : Rat := (v : Rat) / 10

/-- A field's power and resistance. -/
def State.sampleRth (s : State) (tin : Int) (e : Nat × Nat) : State :=
  let (f, p) := e
  let s := s.updField f fun x => { x with
    power := p
    rth := match x.control with
      | some c => if 50 ≤ p then last10 x.rth (kelvin (c - tin) / (p : Int)) else x.rth
      | none => x.rth }
  (s.put (Reg.FTherm.POWER f) p).put (Reg.FTherm.RTH f) ((s.field f).rthNow * 1000).floor.toNat

/-- T_j,max: the highest control reading. -/
def State.tjMax (s : State) : Option Int :=
  match s.fields.filterMap fun e => e.2.control with
  | [] => none
  | v :: vs => some (vs.foldl max v)

/-- The terms of C_th for an inlet temperature in 0.1 C and a module power (R349). A resistance of 0 or less bounds nothing. -/
def State.capTerms (s : State) (tin : Rat) (pm : Nat) : List Rat :=
  let t := s.thermal
  let g : Rat := ((10 * t.guardNow : Nat) : Int)
  let above (lim : Int) : Rat := ((lim : Rat) - tin - g) / 10
  let rm := t.rthModNow
  let module_ : List Rat := if rm ≤ 0 then [] else [above (10 * (t.limitNow : Int)) / rm]
  let field (x : FieldSt) : Option Rat :=
    if x.role != .active || x.power < 50 then none
    else if x.atLimit then some (pm : Int)
    else if x.rthNow ≤ 0 then none
    else some (((pm : Int) : Rat) * above x.limit / (x.rthNow * ((x.power : Int) : Rat)))
  let inlet : Rat := if tin ≤ 400 then 21000 else if tin ≤ 480 then 21000 - 1875 * (tin - 400) / 10 else 6000
  let flow : Rat :=
    if 2000 ≤ t.flow then 21000 else if t.flow < 1000 then 0 else 21 * (((t.flow : Int) : Rat) - 1000)
  module_ ++ s.fields.filterMap (fun e => field e.2) ++ [inlet, flow]

/-- C_th before its rise is limited, rounded down to 10 W. -/
def State.capNow (s : State) (tin : Rat) (pm : Nat) : Nat :=
  let m := (s.capTerms tin pm).foldl min 21000
  (m / 10).floor.toNat * 10

/-- C_th falls at once and rises by at most 200 W in 100 ms. -/
def State.setCth (s : State) (pm : Nat) : State :=
  let n := s.capNow s.thermal.tIn pm
  let n := if n ≤ s.thermal.cth then n else min n (s.thermal.cth + 200)
  ((s.updThermal fun t => { t with cth := n }).put Reg.Therm.THERMAL_CAP n).recap

/-! ### The thermal stretch demand (R352) -/

/-- A field's control reading lies above its limit. -/
def FieldSt.above (x : FieldSt) : Bool := x.control.any (x.limit < ·)
/-- A field lies at least 2 K below its limit. -/
def FieldSt.cool (x : FieldSt) : Bool := !x.atLimit && x.control.all fun c => decide (c + 20 ≤ x.limit)

/-- The fields that the table lists. -/
def State.fieldIds (s : State) : List Nat := allFields.filter s.fields.has

/-- Every 100 ms: a field above its limit raises the demand by one level, 1 s of cool samples lowers it; fields held at the usable limit are counted. -/
def State.thermalDemand (s : State) : State :=
  let hot := s.fields.any fun e => e.2.above
  let t := s.tick
  let run := if s.fields.all fun e => e.2.cool then s.thermal.coolRun + 1 else 0
  let lower := decide (11 ≤ run)
  let d := min s.usable (if hot then t.thermalDemand + 1 else if lower then t.thermalDemand - 1 else t.thermalDemand)
  let s := (s.updTick fun t => { t with thermalDemand := d }).put Reg.Therm.THERMAL_LEVEL d
  let s := s.updThermal fun x => { x with coolRun := if lower then 1 else run }
  s.forAll s.fieldIds fun s f =>
    let x := s.field f
    if x.above && decide (s.usable ≤ d) then
      let s := if x.heldRun = 0 then
          (s.mark Reg.Therm.THERMAL_HELD).event
            { code := 0x0214, field := f, placement := placementByte x.placement, detail := le2 42 (int16 (x.control.getD 0)) }
        else s
      s.updField f fun x => { x with heldRun := x.heldRun + 1 }
    else s.updField f fun x => { x with heldRun := 0 }

/-! ### Thermal cycles and the life index (R358) -/

/-- What one full cycle of a range adds: (ΔT / 40)^2.5 / 50,000, its root rounded down at 12 decimals (log entry 110). -/
def cycleWear (range : Nat) : Rat :=
  ((F32.isqrt (range ^ 5 * 400 * 10 ^ 24) : Nat) : Int) / (((400 ^ 3 * 10 ^ 12 * 50000 : Nat)) : Int)

/-- Close the cycles that the newest point of a residue (newest first) has closed: what is left, full ranges, half ranges. -/
def rainClose : Nat → List Int → List Int × List Nat × List Nat
  | 0, l => (l, [], [])
  | k + 1, z :: y :: x :: rest =>
    let new := (z - y).natAbs
    let old := (y - x).natAbs
    if new < old then (z :: y :: x :: rest, [], [])
    else match rest with
      | [] => ([z, y], [], [old])
      | _ =>
        let (l, full, half) := rainClose k (z :: rest)
        (l, old :: full, half)
  | _ + 1, l => (l, [], [])

/-- Take a temperature into the residue (oldest first): a reversal differs by 10 K or more. -/
def rainPoint (residue : List Int) (t : Int) : List Int :=
  match residue.reverse with
  | [] => [t]
  | [a] => if 100 ≤ (t - a).natAbs then [a, t] else [a]
  | b :: a :: rest =>
    if (decide (a < b) && decide (b ≤ t)) || (decide (b < a) && decide (t ≤ b)) then (t :: a :: rest).reverse
    else if 100 ≤ (t - b).natAbs then (t :: b :: a :: rest).reverse
    else residue

/-- A field's temperature is counted; a residue beyond 64 gives up its oldest range as a half cycle. -/
def FieldSt.wear (x : FieldSt) : FieldSt :=
  match x.control with
  | none => x
  | some t =>
    let (l, full, half) := rainClose 64 (rainPoint x.residue t).reverse
    let l := l.reverse
    let (l, half) := match l with
      | a :: b :: rest => if 64 < l.length then (b :: rest, half ++ [(b - a).natAbs]) else (l, half)
      | _ => (l, half)
    let sum (rs : List Nat) : Rat := (rs.map cycleWear).foldl (· + ·) 0
    { x with residue := l, lifeIndex := x.lifeIndex + sum full + sum half / 2, cycles := x.cycles + 2 * full.length + half.length }

/-- A life index in 1/10,000. -/
def lifeUnits (r : Rat) : Nat := (r * 10000).floor.toNat

/-- The life index of one field, its warnings and registers. -/
def State.ageField (s : State) (f : Nat) : State :=
  let old := (s.field f).lifeIndex
  let s := s.updField f FieldSt.wear
  let x := s.field f
  let n := lifeUnits x.lifeIndex
  let s := (s.put (Reg.FTherm.LIFE f) n).put (Reg.FTherm.CYCLES f) x.cycles
  let say (s : State) (code : Nat) (b : Fld) (at_ : Rat) : State :=
    if old < at_ && at_ ≤ x.lifeIndex then (s.mark b).event { code := code, field := f, placement := placementByte x.placement, detail := le2 44 n } else s
  say (say s 0x0219 Reg.Therm.LIFE_WARN (4 / 5)) 0x021A Reg.Therm.LIFE_LIMIT (9 / 10)

/-! ### THERMAL_SAMPLE -/

/-- A field with a measured value of a number of bits: no command carries the measurement, so it is a free value (R32, R341). -/
def State.gaugeFree (s : State) (x : Fld) : State :=
  let (n, s) := s.fresh
  s.put x (n % 2 ^ (x.hi - x.lo + 1))

/-- The telemetry that the BMC and the host read, refreshed every 100 ms: converters, auxiliary input, rail currents, stack temperatures. -/
def State.refresh (s : State) (modulePower : Nat) : State :=
  let s := s.updPower fun p => { p with p100 := modulePower }
  let s := (s.gaugeFree Reg.Pow.AUX_V).gaugeFree Reg.Pow.AUX_P
  let s := s.updPower fun p => { p with auxV := s.get Reg.Pow.AUX_V }
  let s := s.forAll s.power.segOn fun s n => ((s.gaugeFree (Reg.Pow.IOUT n)).gaugeFree (Reg.Pow.VOUT n)).gaugeFree (Reg.Pow.TEMP n)
  let s := s.forAll (s.fields.map Prod.fst) fun s f =>
    if (s.field f).on = 0 then s
    else ((s.gaugeFree (Reg.FPow.VLOG_I f)).gaugeFree (Reg.FPow.VMEM_I f)).gaugeFree (Reg.FPow.VLNK_I f)
  s.forAll (s.hbm.map Prod.fst) fun s n => if (s.stack n).st == .off then s else s.gaugeFree (Reg.Cloud.TEMP n)

/-- THERMAL_SAMPLE: the 100 ms loop of R345-R352 and R358. -/
def opThermal (r : ThermalReads) (s : State) : State :=
  if s.start.power == .off then s
  else
    let s := (s.readTray r).coolant
    let s := s.forAll allFields fun s f => s.readField r f
    let tin := s.thermal.tIn
    let s := r.fieldPower.foldl (fun s e => if e.1 < 88 then s.sampleRth tin e else s) s
    let s := s.put Reg.Therm.TJ_MAX (lostOr s.tjMax)
    let s := match s.tjMax with
      | some c => if 3000 ≤ r.modulePower then
          s.updThermal fun t => { t with rthMod := last10 t.rthMod (kelvin (c - tin) / (r.modulePower : Int)) } else s
      | none => s
    let s := s.put Reg.Therm.RTH_MOD (s.thermal.rthModNow * 100000).floor.toNat
    let s := (s.setCth r.modulePower).thermalDemand
    let s := (s.refresh r.modulePower).forAll s.fieldIds State.ageField
    s.put Reg.Therm.LIFE (lifeUnits ((s.fields.map fun e => e.2.lifeIndex).foldl max 0))

def execThermalSample (r : ThermalReads) (s : State) : Result := .next (opThermal r s)

/-! ### The Ceiling unit's trip (R353) -/

/-- The trip: pin, record, forced Lull, the journal and Overcast. A second one before release is counted (R353). -/
def State.tripNow (s : State) (junction : Bool) (reading : Int) : State :=
  if s.thermal.trip then s.updThermal fun t => { t with tripCount := t.tripCount + 1 }
  else
    let s := s.updThermal fun t => { t with trip := true, tripCount := t.tripCount + 1, coolMs := 0 }
    let s := (((s.put Reg.Ceil.TRIP 1).put Reg.Therm.THERMTRIP 1).mark Reg.Therm.THERM_TRIP).emit (.pin "THERMTRIP_N" true)
    let s := s.event { code := 0x0210, detail := (40, if junction then 1 else 0) :: le2 42 (int16 reading) }
    (s.platformEvent 34 1 0).goOvercast 2 false

/-- CEILING_THERMAL_SAMPLE: coupling thermistors and the highest raw junction reading, every 1 ms (R346, R353). It advances the module's
millisecond count (log entry 111). -/
def opCeiling (a b : Option Int) (j : Int) (s : State) : State :=
  if s.start.power == .off then s
  else
    let ms := s.power.msClock + 1
    let s := (s.updPower fun p => { p with msClock := ms }).put Reg.Glob.UPTIME_S (ms / 1000)
    let s := s.updThermal fun t => { t with couplingA := a, couplingB := b }
    let s := (s.put Reg.Therm.COUPLING_A (lostOr a)).put Reg.Therm.COUPLING_B (lostOr b)
    let inlet := match a.toList ++ b.toList with
      | [] => 520
      | x :: xs => xs.foldl max x
    -- two consecutive samples of one thermistor; with both lost the inlet is at 52 C (R346)
    let lost := a.isNone && b.isNone
    let hits (x : Option Int) (n : Nat) : Nat := if lost || x.any (520 ≤ ·) then min 2 (n + 1) else 0
    let hitA := hits a s.thermal.tripHits.1
    let hitB := hits b s.thermal.tripHits.2
    let hotJ := decide (1050 ≤ j)
    let hot := hotJ || decide (2 ≤ max hitA hitB)
    let was := s.thermal.hot
    let cool := decide (inlet < 450) && (s.start.power == .standby || decide (j < 850))
    let s := s.updThermal fun t => { t with tripHits := (hitA, hitB), hot := hot, coolMs := if cool then t.coolMs + 1 else 0 }
    if hot && !was then s.tripNow hotJ (if hotJ then j else inlet) else s

def execCeilingThermalSample (couplingA couplingB : Option Int) (junctionMax : Int) (s : State) : Result :=
  .next (opCeiling couplingA couplingB junctionMax s)

/-- TRIP_RELEASE: the inlet below 45 C and every junction below 85 C for 60 s; Overcast is left only by command or reset (R353). -/
def opTripRelease (s : State) : State :=
  if !s.thermal.trip then s
  else
    let s := (s.updThermal fun t => { t with trip := false }).put Reg.Ceil.TRIP 0
    ((s.put Reg.Therm.THERMTRIP 0).emit (.pin "THERMTRIP_N" false)).platformEvent 34 0 0

def execTripRelease (s : State) : Result := .next (opTripRelease s)

/-- FLOW_LOST: the flow stayed below 10 L/min for 5 s (R351). -/
def opFlowLost (flow : Nat) (s : State) : State :=
  if s.start.power != .active && s.start.power != .lull then s
  else
    let s := (s.updThermal fun t => { t with flowLost := true, flow := flow, flowOkMs := 0 }).mark Reg.Therm.FLOW_LOST
    (s.event { code := 0x0213, detail := le2 42 flow }).goOvercast 0 false

def execFlowLost (flow : Nat) (s : State) : Result := .next (opFlowLost flow s)

/-- FIELD_OFF_HEAT: an ACTIVE field with THERMAL_HELD for 10 s and a complete twin is moved; it then becomes UNASSIGNED and is switched off
(R166, R357). -/
def opFieldOffHeat (f : Nat) (s : State) : State :=
  let x := s.field f
  match x.placement with
  | none => s
  | some p =>
    let moving := (s.plc p).moves.any fun m => m.field = f
    if x.role != .active || x.lossPending || !s.thermal.switchOff || x.heldRun = 0 || (s.twinComplete f).isNone || moving
        || 3 ≤ (s.plc p).moves.length || s.aliasFull p f || (s.nearestClearing f).isNone then s
    else
      let (s, _) := s.beginMove p f true
      let s := s.mark Reg.Therm.FIELD_OFF_HEAT
      s.event { code := 0x0215, field := f, placement := p, stages := s.stagesOf f, detail := le2 42 (int16 (x.control.getD 0)) }

def execFieldOffHeat (field : Nat) (s : State) : Result := .next (opFieldOffHeat field s)

/-- LIFE_INDEX_STORE: every 10 min (R358). -/
def execLifeIndexStore (s : State) : Result := .next s.storeLife

/-! ### The outlook (R354) -/

/-- σ in 0.1 C per s: the newest inlet sample against the oldest of the last 10 s, 0 when negative. -/
def ThermalSt.slope (t : ThermalSt) : Rat :=
  match t.inletSlope, t.inletSlope.getLast? with
  | a :: _ :: _, some b => max 0 (((b - a : Int) : Rat) * 10 / (((t.inletSlope.length - 1 : Nat) : Int) : Rat))
  | _, _ => 0

/-- OUTLOOK_FORMATION: the allowed powers A_1 to A_20. -/
def opOutlook (s : State) : State :=
  let tin : Rat := s.thermal.tIn
  let a (i : Nat) : Rat := min ((s.power.capEff : Int) : Rat) ((s.capNow (tin + s.thermal.slope * (((i : Nat) : Int) : Rat) / 10) s.power.p100 : Nat) : Int)
  let l := (List.range 20).map fun i => a (i + 1)
  s.updThermal fun t => { t with outlook := l }

def execOutlookFormation (s : State) : Result := .next (opOutlook s)

/-- Weights of a least-squares fit of y to a constant and x. -/
def fitLine (l : List (Rat × Rat)) : Rat × Rat :=
  let n : Rat := ((l.length : Nat) : Int)
  let mx := (l.map Prod.fst).foldl (· + ·) 0 / n
  let my := (l.map Prod.snd).foldl (· + ·) 0 / n
  let sxx := (l.map fun e => (e.1 - mx) * (e.1 - mx)).foldl (· + ·) 0
  let sxy := (l.map fun e => (e.1 - mx) * (e.2 - my)).foldl (· + ·) 0
  let w := if sxx == 0 then 0 else sxy / sxx
  (my - w * mx, w)

/-- A list holds one value only. -/
def single (l : List Rat) : Bool := match l with
  | [] => true
  | x :: xs => xs.all (· == x)

/-- OUTLOOK_FIT: P_s, w_l and w_r from the last 10 s. A weight whose regressor took one value stands, and the others are fitted with it
held; collinear regressors leave one weight open: a free value (log entry 112). -/
def opFit (s : State) : State :=
  let t := s.thermal
  let l : List (Rat × Rat × Rat) := t.samples.map fun e => (((e.1 : Nat) : Int), e.2.1, ((e.2.2 : Nat) : Int))
  if l.length < 10000 then s.updThermal fun t => { t with ps := 3 * (s.power.capEff : Int) / 10, wl := 60, wr := 60 }
  else
    let oneL := single (l.map fun e => e.2.1)
    let oneR := single (l.map fun e => e.2.2)
    let fitR (s : State) (wl : Rat) : State :=
      let (ps, wr) := fitLine (l.map fun e => (e.2.2, e.1 - wl * e.2.1))
      s.updThermal fun t => { t with ps := ps, wl := wl, wr := if oneR then t.wr else wr }
    if oneL && oneR then
      let n : Rat := ((l.length : Nat) : Int)
      s.updThermal fun t => { t with ps := (l.map fun e => e.1 - t.wl * e.2.1 - t.wr * e.2.2).foldl (· + ·) 0 / n }
    else if oneL then fitR s t.wl
    else if oneR then
      let (ps, wl) := fitLine (l.map fun e => (e.2.1, e.1 - t.wr * e.2.2))
      s.updThermal fun t => { t with ps := ps, wl := wl }
    else
      -- x with what r explains of it taken out, against y likewise
      let (a, b) := fitLine (l.map fun e => (e.2.2, e.2.1))
      let rest := l.map fun e => (e.2.1 - a - b * e.2.2, e.1)
      if rest.all fun e => e.1 == 0 then
        let (n, s) := s.fresh
        fitR s ((n : Nat) : Int)
      else fitR s (fitLine rest).2

def execOutlookFit (s : State) : Result := .next (opFit s)

end Sys2Proof.Machine
end

