-- ==== Sys2Proof/Machine/Device.lean ====
section
/-! DEFINITION. The device, power, thermal, diagnostic and counter families of commands (R403, R404, R410, R411, R471), with the settings of
R60, R84, R301, R343 and R361, self-test (R449, R450), field reset and calibration (R439, R451), and the gauges of the tick block (R59). -/

namespace Sys2Proof.Machine

/-! ### Gauges of the tick block (R44, R55, R59) -/

/-- Tick count, stretch, band and clock frequency in MHz, rounded down. -/
def State.gaugeTick (s : State) : State :=
  let t := s.tick
  let s := s.put Reg.Tick.TCK_COUNT_LO (t.count % 2 ^ 32)
  let s := ((s.put Reg.Tick.USABLE s.usable).put Reg.Tick.COMMITTED t.committed).put Reg.Tick.LEVEL t.level
  (s.put Reg.Tick.BAND (bandOf t.level)).put Reg.Tick.FREQ_MHZ (480000 / (200 + t.level))

/-! ### Reading BAR0 (R380) -/

/-- The 32-bit value a read of BAR0 gives: fields of access WO and addresses without a register read 0 (R7, R380). -/
def State.readReg (s : State) (addr : Nat) : W32 :=
  let rows := Machine.rowsAt addr
  let seen := rows.foldl (fun (m : W32) r => if r.access == .wo then m else m ||| (⟨addr, r.hi, r.lo⟩ : Fld).mask) 0
  s.shown addr &&& seen

/-- Reading TCK_COUNT_LO latches the upper half of the count in TCK_COUNT_HI (R59). -/
def State.latchCount (s : State) : State := s.put Reg.Tick.TCK_COUNT_HI (s.tick.count / 2 ^ 32 % 2 ^ 32)

/-- A read of BAR0 by the host, with what it leaves behind (R59, R380). The opcode table has no row for a read. -/
def State.readBar (s : State) (addr : Nat) : W32 × State := (s.readReg addr, if addr = Reg.Tick.TCK_COUNT_LO.addr then s.latchCount else s)

/-- n bytes of BAR0 from an offset, read upward from it: a run that takes in TCK_COUNT_LO shows the upper half that belongs to it (R59). -/
def State.bar0Bytes (s : State) (offset n : Nat) : List Byte :=
  let s := if offset ≤ Reg.Tick.TCK_COUNT_LO.addr && Reg.Tick.TCK_COUNT_LO.addr < offset + n then s.latchCount else s
  (List.range n).map fun i =>
    let a := offset + i
    BitVec.ofNat 8 ((s.readReg (a / 4 * 4)).toNat / 2 ^ (8 * (a % 4)))

/-! ### DEVICE_INFO, MODULE_RESET, ZENITH_RESTART (R403, R432, R440) -/

/-- RESULT of a run of registers. -/
def State.regResult (s : State) (addrs : List Nat) : List (Nat × Nat × Nat) :=
  (List.range addrs.length).map fun i => (4 * i, 4, (s.readReg (addrs.getD i 0)).toNat)

/-- DEVICE_INFO: page 0 identity, 1 security registers, 2 certificates. -/
def opDeviceInfo (h : CmdHdr) (page : Nat) (s : State) : State :=
  s.ordered h 0x0101 fun s =>
    let page := if h.expert then page else 0
    let chain := Config.certificateChain
    s.checked h 0x0101 [(32, decide (page ≤ 2)), (16, page ≠ 2 || h.src == .bmc || decide (chain.length ≤ h.bufferLen))] fun s =>
      match page with
      | 0 => s.answerWith h 0x0101 .ok 0 (s.regResult [0, 4, 8, 12, 16, 20, 24, 28])
      | 1 => s.answerWith h 0x0101 .ok 0 (s.regResult [0x7C0000, 0x7C0004, 0x7C0008, 0x7C000C, 0x7C0010, 0x7C0014])
      | _ =>
        let res := [(0, 4, chain.length), (4, 64, leNat (sha512 (chain.take Config.deviceCertLen)))]
        if h.src == .bmc then s.answerWith h 0x0101 .ok 0 res else s.toBuffer h 0x0101 chain res

def execDeviceInfo (h : CmdHdr) (page : Nat) (s : State) : Result := .next (opDeviceInfo h page s)

/-- MODULE_RESET: OK is written before the reset; contrails are journalled first (R236, R403, R439). -/
def opModuleReset (h : CmdHdr) (hold : Nat) (s : State) : State :=
  s.ordered h 0x0102 fun s =>
    s.checked h 0x0102 [(32, !h.expert || decide (hold ≤ 1))] fun s =>
      (s.answer h 0x0102 .ok).orderReset (if h.src == .bmc then 2 else 3) (h.expert && hold == 1)

def execModuleReset (h : CmdHdr) (hold : Nat) (s : State) : Result := .next (opModuleReset h hold s)

/-- ZENITH_RESTART: an image is staged; BUSY during a journal or another restart (R403, R415, R440). -/
def opZenithRestart (h : CmdHdr) (image : Nat) (s : State) : State :=
  s.ordered h 0x0103 fun s =>
    s.checked h 0x0103 [(32, !h.expert || decide (image ≤ 1))] fun s =>
      if s.start.journal.running || s.start.restartCmd.isSome then s.answer h 0x0103 .busy
      else
        let i := if h.expert then image else s.boot.order.headD 0
        let s := s.updStart fun x => { x with restartCmd := some (h.seq, h.src, opOf h 0x0103) }
        (s.updBoot fun b => { b with staging := some i }).pend h 0x0103 []

def execZenithRestart (h : CmdHdr) (image : Nat) (s : State) : Result := .next (opZenithRestart h image s)

/-! ### POWER_STATE (R48, R403, R436, R471) -/

/-- The master whose order prevails, as DETAIL of SUPERSEDED (R391). -/
def winner : Src → Nat
  | .ceiling => 0 | .bmc => 1 | .host => 2 | .peer => 3

/-- A POWER_STATE order under way is superseded by a later one. -/
def State.supersedePower (s : State) (by_ : Src) : State :=
  match s.start.powerCmd with
  | none => s
  | some (seq, src, op) =>
    (s.updStart fun x => { x with powerCmd := none }).reply src { seq := seq, opcode := op, status := .superseded, final := true, detail := winner by_ }

/-- Carry out a POWER_STATE order; `owed`: PENDING was sent already. Answers NOT_PERMITTED and BUSY at once, and OK on arrival. -/
def State.applyPower (s : State) (h : CmdHdr) (want : Nat) (owed : Bool) : State :=
  let op := opOf h 0x0104
  let refuse (s : State) (st : Status) : State := s.finalReply h.src h.seq op st
  let take (s : State) : State :=
    let s := (s.supersedePower h.src).updStart fun x => { x with powerCmd := some (h.seq, h.src, op) }
    if owed then s else s.pend h 0x0104 []
  let leaving := s.start.target == some .overcast || s.start.target == some .standby
  match want, s.start.power with
  | 0, .active => if leaving then refuse s .busy else (take s).arrived
  | 0, .lull =>
    if leaving then refuse s .busy
    else ((take s).updStart fun x => { x with lullOrdered := false, holdInLull := false }).releaseLull
  | 0, .overcast => if !s.released then refuse s .notPermitted else if s.start.target.isSome then take s else (take s).leaveOvercast
  | 0, .standby => if !s.released then refuse s .notPermitted else (take s).leaveStandby
  | 1, .active => if leaving then refuse s .busy else ((take s).updStart fun x => { x with lullOrdered := true }).toLull
  | 1, .lull => (take s).arrived
  | 2, .overcast => (take s).arrived
  | 2, .active => (take s).goOvercast 0 false
  | 2, .lull => (take s).goOvercast 0 false
  | 3, .standby => (take s).arrived
  | 3, .overcast => (take s).enterStandby
  | 3, .active => (take s).goOvercast 4 true
  | 3, .lull => (take s).goOvercast 4 true
  | _, _ => refuse s .notPermitted

/-- Whether the control slot of tick apply_tick - 1 still lies ahead (R471). -/
def State.waitsFor (s : State) (h : CmdHdr) (applyTick : Nat) : Bool :=
  h.expert && s.tick.running && decide (s.tick.count + 1 < applyTick) && !unchanged 64 applyTick

/-- Hold an order until the control slot of tick apply_tick - 1. -/
def State.holdOrder (s : State) (h : CmdHdr) (op applyTick : Nat) (i : Instr) : State :=
  (s.updHost fun x => { x with deferred := x.deferred ++ [⟨i, applyTick, true⟩] }).pend h op []

def opPowerState (h : CmdHdr) (want applyTick : Nat) (s : State) : State :=
  s.ordered h 0x0104 fun s =>
    s.checked h 0x0104 [(32, decide (want ≤ 3))] fun s =>
      if s.waitsFor h applyTick then s.holdOrder h 0x0104 applyTick (.powerState h want applyTick)
      else s.applyPower h want false

def execPowerState (h : CmdHdr) (state applyTick : Nat) (s : State) : Result := .next (opPowerState h state applyTick s)

/-! ### FIELD_RESET, CALIBRATE, SELF_TEST (R403, R410, R439, R449-R451) -/

/-- A field's work is being moved, or it is the clearing of a move. -/
def State.inMove (s : State) (f : Nat) : Bool :=
  (s.field f).role == .rebuild || (s.field f).lossPending || (List.range 4).any fun p => (s.plc p).moves.any fun m => m.field = f

/-- Order a task on a field that is not ACTIVE: its clock is stopped first, or it is woken. -/
def State.beginTask (s : State) (f task : Nat) (cmd : Option (Nat × Src × Nat)) : State :=
  let s := s.updField f fun x => { x with task := task, taskCmd := cmd }
  if task = 1 then
    match (s.field f).clock with
    | .stopped => s.resetField f
    | _ => s.sendGust (stewardId f)
  else if (s.field f).clock == .stopped then s.sendGust (stewardId f) else s

/-- The expert form on an ACTIVE field: its work moves first (R166). -/
def State.taskAfterMove (s : State) (h : CmdHdr) (op f task : Nat) : State :=
  match (s.field f).placement with
  | none => s.answer h op .inService
  | some p =>
    if (s.twinComplete f).isNone then s.answer h op .inService
    else if (s.nearestClearing f).isNone || 3 ≤ (s.plc p).moves.length || s.aliasFull p f then s.answer h op .noResource
    else
      let (s, _) := s.beginMove p f true
      (s.updField f fun x => { x with task := task, taskCmd := some (h.seq, h.src, opOf h op) }).pend h op []

/-- FIELD_RESET and CALIBRATE. -/
def State.fieldReset (h : CmdHdr) (op f : Nat) (s : State) : State :=
  s.ordered h op fun s =>
    s.checked h op [(32, decide (f < 88))] fun s =>
      let r := (s.field f).role
      if r == .service || r == .lost then s.answer h op .notPermitted
      else if s.inMove f || (s.field f).task ≠ 0 then s.answer h op .busy
      else if r == .active then (if h.expert then s.taskAfterMove h op f 1 else s.answer h op .inService)
      else (s.pend h op []).beginTask f 1 (some (h.seq, h.src, opOf h op))

def execFieldReset (h : CmdHdr) (field : Nat) (s : State) : Result := .next (s.fieldReset h 0x0105 field)

def execCalibrate (h : CmdHdr) (field : Nat) (s : State) : Result := .next (s.fieldReset h 0x0802 field)

/-- A self-test takes the field. -/
def State.takeTest (s : State) (f : Nat) (cmd : Option (Nat × Src × Nat)) : State :=
  (s.updStart fun x => { x with testField := some f, testCmd := cmd }).put Reg.Start.TEST_FIELD f

/-- SELF_TEST: PENDING; its RESULT follows with SELF_TEST_COMPLETE. BUSY while another test runs, or while the ladder holds tests back. -/
def opSelfTest (h : CmdHdr) (f : Nat) (s : State) : State :=
  s.ordered h 0x0801 fun s =>
    s.checked h 0x0801 [(32, decide (f < 88))] fun s =>
      let r := (s.field f).role
      let cmd := some (h.seq, h.src, opOf h 0x0801)
      if r == .service then s.answer h 0x0801 .notPermitted
      else if r == .active && !h.expert then s.answer h 0x0801 .inService
      else if s.inMove f || (s.field f).task ≠ 0 || s.start.testField.isSome || s.power.ladder ≠ 0 then s.answer h 0x0801 .busy
      else if r == .active then
        let t := s.taskAfterMove h 0x0801 f 2
        if (t.field f).task = 2 then (t.updField f fun x => { x with taskCmd := none }).takeTest f cmd else t
      else ((s.pend h 0x0801 []).takeTest f cmd).beginTask f 2 none

def execSelfTest (h : CmdHdr) (field : Nat) (s : State) : Result := .next (opSelfTest h field s)

/-- The next CLEARING field after the one last tested. -/
def State.nextTest (s : State) : Option Nat :=
  let l := computeFields.filter fun f => (s.field f).role == .clearing && (s.field f).task = 0
  match l.find? (s.start.lastTested < ·) with
  | some f => some f
  | none => l.head?

/-- SELF_TEST_INTERVAL: the next CLEARING field is tested (R449). -/
def opTestInterval (s : State) : State :=
  if s.start.testInterval = 0 || s.start.testField.isSome || s.power.ladder ≠ 0 || !s.zenithServing then s
  else match s.nextTest with
    | none => s
    | some f => (s.takeTest f none).beginTask f 2 none

def execSelfTestInterval (s : State) : Result := .next (opTestInterval s)

/-- SELF_TEST_COMPLETE: a failing step of 0 is a pass; a CLEARING or UNASSIGNED field that fails is LOST with cause 7 (R450). The field's
logic goes off again (R356). -/
def opTestDone (step : Nat) (s : State) : State :=
  match s.start.testField with
  | none => s
  | some f =>
    let cmd := s.start.testCmd
    let s := s.updStart fun x => { x with testField := none, testCmd := none, lastTested := f }
    let s := (s.put Reg.Start.TEST_FIELD 0xFF).bump Reg.Start.TESTS_RUN
    let s := (s.put Reg.Start.LAST_STEP step).put Reg.Start.LAST_FIELD f
    let r := (s.field f).role
    let s := (s.updField f fun x => { x with task := 0, taskCmd := none, clock := if x.clock == .running then .stopping true else x.clock }).banksDown f
    let s := if step ≠ 0 && (r == .clearing || r == .unassigned) then s.loseField f 7 else s
    match cmd with
    | none => s
    | some (seq, src, op) =>
      s.reply src { seq := seq, opcode := op, status := .ok, final := true, result := [(0, 1, if step = 0 then 1 else 0), (2, 2, step)] }

def execSelfTestComplete (failingStep : Nat) (s : State) : Result := .next (opTestDone failingStep s)

/-! ### SET_STRETCH, SET_GRANTED, SET_CORE (R60, R84, R219, R301, R330) -/

def opSetStretch (h : CmdHdr) (committed warning release : Nat) (s : State) : State :=
  s.ordered h 0x0106 fun s =>
    let warn := if h.expert then setting 8 warning s.tick.vaneWarn else s.tick.vaneWarn
    let rel := if h.expert then setting 8 release s.tick.vaneRelease else s.tick.vaneRelease
    s.checked h 0x0106 [(32, inRange 8 committed 0 50), (33, decide (8 ≤ warn) && decide (warn ≤ 60)),
        (34, decide (warn + 10 ≤ rel) && decide (rel ≤ 100))] fun s =>
      let s := s.updTick fun t => { t with committed := setting 8 committed t.committed, vaneWarn := warn, vaneRelease := rel }
      s.gaugeTick.answer h 0x0106 .ok

def execSetStretch (h : CmdHdr) (committed vaneWarning vaneRelease : Nat) (s : State) : Result :=
  .next (opSetStretch h committed vaneWarning vaneRelease s)

/-- Order the granted share that host setting and ladder give: a lower one for the next boundary, a higher one lead + 1 ticks on (R219,
R330). -/
def State.orderGrant (s : State) (p : Nat) : State :=
  let x := s.plc p
  let want := min x.hostGrant (s.boundOf p)
  match x.grantOrder with
  | some (_, g) => if g = want then s else s.updPlc p fun y => { y with grantOrder := if want = y.grant then none else some (s.tick.count + (if want < y.grant then 1 else s.leadNow + 1), want) }
  | none => if want = x.grant then s else s.updPlc p fun y => { y with grantOrder := some (s.tick.count + (if want < y.grant then 1 else s.leadNow + 1), want) }

/-- Whether the ladder holds a host's share back (R399). -/
def State.grantStatus (s : State) (p : Nat) : Status := if s.boundOf p < (s.plc p).hostGrant then .limited else .ok
def State.grantReply (s : State) (h : CmdHdr) (p : Nat) : State :=
  let st := s.grantStatus p
  s.answerWith h 0x0107 st (if st == .limited then 6 else 0) []

/-- Store a host share and order it. -/
def State.applyGranted (s : State) (p share : Nat) : State :=
  (s.updPlc p fun x => { x with hostGrant := min (setting 8 share x.hostGrant) x.plan.sized }).orderGrant p

def opSetGranted (h : CmdHdr) (p share applyTick : Nat) (s : State) : State :=
  s.ordered h 0x0107 fun s =>
    s.checked h 0x0107 [(32, placementOk p)] fun s =>
      if !(s.plc p).live then s.answer h 0x0107 .notPermitted
      else s.checked h 0x0107 [(33, inRange 8 share 0 (s.plc p).plan.sized)] fun s =>
        if s.waitsFor h applyTick then s.holdOrder h 0x0107 applyTick (.setGranted h p share applyTick)
        else if s.tick.running then (s.applyGranted p share).grantReply h p
        else ((s.applyGranted p share).updHost fun x =>
          { x with deferred := x.deferred ++ [⟨.setGranted h p 0xFF 0, 0, true⟩] }).pend h 0x0107 []

def execSetGranted (h : CmdHdr) (placement share applyTick : Nat) (s : State) : Result := .next (opSetGranted h placement share applyTick s)

def opSetCore (h : CmdHdr) (scrub wait merge down : Nat) (s : State) : State :=
  s.ordered h 0x0108 fun s =>
    s.checked h 0x0108 [(32, inRange 8 scrub 0 4), (36, !h.expert || inRange 32 wait 256 65536), (40, !h.expert || inRange 8 merge 0 16),
        (42, !h.expert || inRange 16 down 16 1024)] fun s =>
      s.atBoundary h 0x0108 (.setCore h scrub wait merge down)

def execSetCore (h : CmdHdr) (scrub remoteWait mergeWindow linkDown : Nat) (s : State) : Result :=
  .next (opSetCore h scrub remoteWait mergeWindow linkDown s)

/-! ### SET_CAP, SET_BREAKER, SET_LEAD, SET_THERMAL (R326, R331, R335, R343, R361, R399) -/

/-- A source's cap is stored; the answer of R399 with C_eff. -/
def State.capReply (s : State) (h : CmdHdr) (value : Nat) : State :=
  let res := [(0, 4, s.power.capEff)]
  let other : Option (Nat × Nat) := if h.src == .bmc then some (s.power.hostCap, 2) else s.power.bmcCap.map fun c => (c, 1)
  match other.filter fun e => e.1 < value with
  | some e => s.answerWith h 0x0201 .superseded e.2 res
  | none =>
    if s.power.capEff < value then s.answerWith h 0x0201 .limited (if s.capOf.2 = 3 then 5 else 4) res
    else s.answerWith h 0x0201 .ok 0 res

def opSetCap (h : CmdHdr) (cap stored : Nat) (s : State) : State :=
  s.ordered h 0x0201 fun s =>
    if h.src == .bmc then
      if h.expert then s.answer h 0x0201 .notPermitted
      else s.checked h 0x0201 [(32, cap = 0 || inRange 32 cap 6000 21000)] fun s =>
        let s := s.updPower fun p => { p with bmcCap := if cap = 0 then none else if unchanged 32 cap then p.bmcCap else some cap }
        let s := s.recap
        s.capReply h (s.power.bmcCap.getD 0)
    else s.checked h 0x0201 [(32, inRange 32 cap 6000 21000), (36, !h.expert || stored = 0 || inRange 32 stored 6000 21000)] fun s =>
      let s := s.updPower fun p => { p with
        hostCap := setting 32 cap p.hostCap, hostSet := p.hostSet || !unchanged 32 cap
        storedCap := if h.expert && stored ≠ 0 then setting 32 stored p.storedCap else p.storedCap }
      let s := s.recap
      s.capReply h s.power.hostCap

def execSetCap (h : CmdHdr) (cap storedDefault : Nat) (s : State) : Result := .next (opSetCap h cap storedDefault s)

/-- The threshold of a source for a domain; the default of R325 stands as the host's. -/
def FieldSt.hostThreshold (x : FieldSt) (f d : Nat) : Nat := x.hostTh.getD d (defaultTh f d)
/-- The lowest of the bounds in force (R399). -/
def FieldSt.threshold (x : FieldSt) (f d : Nat) : Nat :=
  match x.bmcTh.find d with
  | some b => min b (x.hostThreshold f d)
  | none => x.hostThreshold f d

/-- The floor current of a domain in mA: the highest forecast of the last 1,000 ticks on the 12 V side for VLOG of a compute field; for any
other domain a measured current that no command carries: a free value (R326). -/
def State.floorMa (s : State) (f d : Nat) : Nat × State :=
  if d = 0 && !Config.serviceFields.contains f then
    let top := (s.power.forecastLog.filter fun e => e.2.1 = f && s.tick.count < e.1 + 1000).foldl (fun m e => max m e.2.2) 0
    (ceilDiv (top * (s.field f).vlogMv * 100) (92 * 12), s)
  else s.fresh

def opSetBreaker (h : CmdHdr) (f d th clear : Nat) (s : State) : State :=
  s.ordered h 0x0202 fun s =>
    if h.src == .bmc && h.expert && clear ≠ 0 && !unchanged 8 clear then s.answer h 0x0202 .notPermitted
    else
      let top := fusedMax f d
      s.checked h 0x0202 [(32, decide (f < 88)), (33, domainExists f d), (34, inRange 16 th (ceilDiv top 10) top), (36, !h.expert || inRange 8 clear 0 1)] fun s =>
        let (floor, s) := if unchanged 16 th then (0, s) else s.floorMa f d
        if !unchanged 16 th && 1000 * th < 11 * floor then s.badParam h 0x0202 34
        else
          let s := if h.expert && clear = 1 then s.updField f fun x => { x with powerRecord := 0 } else s
          let x := s.field f
          let other : Option (Nat × Nat) := if h.src == .bmc then some (x.hostThreshold f d, 2) else (x.bmcTh.find d).map fun b => (b, 1)
          if unchanged 16 th then s.answer h 0x0202 .ok
          else match other.filter fun e => e.1 < th with
            | some e =>
              let s := s.updHost fun y => { y with deferred := y.deferred ++ [⟨.setBreaker h f d th 0, s.tick.count + 1, false⟩] }
              s.answerWith h 0x0202 .superseded e.2 []
            | none => s.atBoundary h 0x0202 (.setBreaker h f d th 0)

def execSetBreaker (h : CmdHdr) (field domain threshold clear : Nat) (s : State) : Result :=
  .next (opSetBreaker h field domain threshold clear s)

/-- A breaker's threshold at its boundary, with its register. -/
def State.applyBreaker (s : State) (h : CmdHdr) (f d th : Nat) : State :=
  let s := s.updField f fun x => if h.src == .bmc then { x with bmcTh := x.bmcTh.set d th } else { x with hostTh := x.hostTh.set d th }
  let v := (s.field f).threshold f d
  s.put (match d with
    | 0 => Reg.FPow.VLOG_TH f
    | 1 => Reg.FPow.VMEM_TH f
    | 2 => Reg.FPow.VLNK_TH f
    | _ => Reg.FPow.VPHY_TH f) v

def opSetLead (h : CmdHdr) (lead : Nat) (s : State) : State :=
  s.ordered h 0x0203 fun s =>
    s.checked h 0x0203 [(32, inRange 8 lead 1 8)] fun s => s.atBoundary h 0x0203 (.setLead h lead)

def execSetLead (h : CmdHdr) (lead : Nat) (s : State) : Result := .next (opSetLead h lead s)

def opSetThermal (h : CmdHdr) (limit guard sw : Nat) (s : State) : State :=
  s.ordered h 0x0204 fun s =>
    if h.src == .bmc && h.expert && !unchanged 8 sw then s.answer h 0x0204 .notPermitted
    else s.checked h 0x0204 [(32, inRange 8 limit 80 100), (33, !h.expert || inRange 8 guard 1 10), (34, !h.expert || inRange 8 sw 0 1)] fun s =>
      let g := if h.expert then guard else 0xFF
      let t := s.thermal
      if h.src == .bmc then
        let s := s.updThermal fun t => { t with
          bmcLimit := if unchanged 8 limit then t.bmcLimit else some limit, bmcGuard := if unchanged 8 g then t.bmcGuard else some g }
        if (!unchanged 8 limit && t.tLim < limit) || (!unchanged 8 g && g < t.guard) then s.answerWith h 0x0204 .superseded 2 []
        else s.answer h 0x0204 .ok
      else
        let s := s.updThermal fun t => { t with
          tLim := setting 8 limit t.tLim, guard := setting 8 g t.guard
          switchOff := if h.expert && !unchanged 8 sw then sw == 1 else t.switchOff }
        if (!unchanged 8 limit && t.bmcLimit.any (· < limit)) || (!unchanged 8 g && t.bmcGuard.any (g < ·)) then s.answerWith h 0x0204 .superseded 1 []
        else s.answer h 0x0204 .ok

def execSetThermal (h : CmdHdr) (limit guard switchOff : Nat) (s : State) : Result := .next (opSetThermal h limit guard switchOff s)

/-- The device and power settings at their boundary. -/
def State.applyDevice (s : State) (i : Instr) : State :=
  match i with
  | .setCore h scrub wait merge down =>
    let s := { s with scrubWords := setting 8 scrub s.scrubWords }
    if !h.expert then s
    else { s with remoteWait := setting 32 wait s.remoteWait, mergeWindow := setting 8 merge s.mergeWindow, linkDownTh := setting 16 down s.linkDownTh }
  | .setLead _ lead => s.updPower fun p => { p with lead := setting 8 lead p.lead }
  | .setBreaker h f d th _ => s.applyBreaker h f d th
  | _ => s

/-! ### SNAPSHOT, CLEAR_COUNTERS, EVENT_MASK (R394, R410, R411) -/

/-- SNAPSHOT: the range is copied at the maintenance slot of this tick; without ticks, now (log entry 92). -/
def opSnapshot (h : CmdHdr) (offset length : Nat) (s : State) : State :=
  s.ordered h 0x0803 fun s =>
    s.checked h 0x0803 [(16, decide (length ≤ h.bufferLen)), (32, decide (offset ≤ 0x800000)),
        (36, decide (length ≤ 0x100000) && decide (offset + length ≤ 0x800000))] fun s =>
      let copy := if s.tick.running then none else some (s.bar0Bytes offset length)
      (s.updHost fun x => { x with snapshots := x.snapshots ++ [⟨h, offset, length, s.tick.count, copy⟩] }).pend h 0x0803 []

def execSnapshot (h : CmdHdr) (offset length : Nat) (s : State) : Result := .next (opSnapshot h offset length s)

/-- The maintenance slot's copy for the snapshots of the tick. -/
def State.takeSnapshots (s : State) : State :=
  let take (x : Snapshot) : Snapshot := if x.copy.isNone then { x with copy := some (s.bar0Bytes x.offset x.length) } else x
  s.updHost fun h => { h with snapshots := h.snapshots.map take }

/-- SNAPSHOT_COPY_COMPLETE: the oldest copy stands in BUFFER; its reply names the tick of the command. -/
def opSnapshotDone (s : State) : State :=
  match s.host.snapshots with
  | [] => s
  | x :: rest =>
    match x.copy with
    | none => s
    | some data =>
      let s := s.updHost fun h => { h with snapshots := rest }
      let r (st : Status) (inBuf : Bool) : Reply := { seq := x.header.seq, opcode := opOf x.header 0x0803, status := st, final := true, inBuffer := inBuf }
      if s.dmaOk x.header.buffer data.length then (s.emit (.buffer x.header.buffer data)).replyAt x.header.src (r .ok true) x.tick
      else (s.bump Reg.Ceil.DMA_BLOCKED).replyAt x.header.src (r .notPermitted false) x.tick

def execSnapshotCopyComplete (s : State) : Result := .next (opSnapshotDone s)

/-- Counters of a field window by offset: core, sequencer, arithmetic, repairs, KV, router, forecast, stratum corrections. -/
def fieldCounter (o : Nat) : Bool :=
  let core := (o - 0x4000) % 0x80
  let seq := (o - 0x5000) % 0x40
  (decide (0x4000 ≤ o) && decide (o < 0x5000) && decide (0x10 ≤ core) && decide (core ≤ 0x30))
    || (decide (0x5000 ≤ o) && decide (o < 0x5800) && decide (0x14 ≤ seq) && decide (seq ≤ 0x2C))
    || (decide (0x6000 ≤ o) && decide (o ≤ 0x6018)) || o == 0x7010 || (decide (0x80A0 ≤ o) && decide (o ≤ 0x80A8))
    || (decide (0x9004 ≤ o) && decide (o ≤ 0x901C)) || o == 0xA014 || o == 0xA018 || o == 0x8

/-- Counters of a block of CLEAR_COUNTERS. -/
def counterAt (block field addr : Nat) : Bool :=
  match block with
  | 0 => decide (0x50200 ≤ addr) && decide (addr ≤ 0x50228)
  | 1 => decide (0x100000 ≤ addr) && decide (addr < 0x680000) && fieldCounter (addr % 0x10000) && (field == 0xFF || field == (addr - 0x100000) / 0x10000)
  | 2 => addr == 0x70000C || (decide (0x700100 ≤ addr) && decide (addr < 0x700400) && decide (8 ≤ addr % 0x40) && decide (addr % 0x40 ≤ 0x1C))
  | 3 => (decide (0x780000 ≤ addr) && decide (addr < 0x780100) && decide (4 ≤ addr % 0x40) && decide (addr % 0x40 ≤ 0x18))
      || (decide (0x780400 ≤ addr) && decide (addr < 0x780500) && decide (8 ≤ addr % 0x20))
  | _ => (decide (0x740100 ≤ addr) && decide (addr < 0x740400) && (addr % 0x10 == 4 || addr % 0x10 == 8)) || (decide (0x740400 ≤ addr) && decide (addr ≤ 0x740410))

def opClearCounters (h : CmdHdr) (block field : Nat) (s : State) : State :=
  s.ordered h 0x0901 fun s =>
    let f := if h.expert then field else 0xFF
    s.checked h 0x0901 [(32, decide (block ≤ 4)), (33, f == 0xFF || (decide (f < 88) && block == 1))] fun s =>
      ({ s with regs := s.regs.filter fun e => !counterAt block f e.1
                windows := s.windows.filter fun e => !counterAt block f e.1 }).answer h 0x0901 .ok

def execClearCounters (h : CmdHdr) (block field : Nat) (s : State) : Result := .next (opClearCounters h block field s)

def opEventMask (h : CmdHdr) (mask : W32) (s : State) : State :=
  s.ordered h 0x0902 fun s =>
    (s.updHost fun x => { x with mask := if unchanged 32 mask.toNat then x.mask else mask }).answer h 0x0902 .ok

def execEventMask (h : CmdHdr) (mask : W32) (s : State) : Result := .next (opEventMask h mask s)

end Sys2Proof.Machine
end

