-- ==== Sys2Proof/Machine/Links.lean ====
section
/-! DEFINITION. The Obtik links: the link plan and its commands (R310, R311, R322), ports (R303, R320), sounding and the star chart (R312,
R313), module routes and the orders of peers (R314, R315), frames received (R305-R308), and the shared tick (R316-R319). -/

namespace Sys2Proof.Machine

/-! ### The link plan (R310, R311, R322) -/

/-- First faulty byte of a link plan (R310). -/
def planFault (p : LinkPlan) (chart : Bool) : List (Nat × Bool) :=
  let gs := p.groups
  let disjoint (i : Nat) : Bool := (List.range i).all fun j =>
    (gs.getD j ⟨0, 0, false⟩).ports &&& (gs.getD i ⟨0, 0, false⟩).ports == 0
  [(32, decide (1 ≤ p.modules) && decide (p.modules ≤ 64)), (33, decide (p.master ≤ 63)), (34, decide (p.mode ≤ 1)),
   (34, decide (p.modules < 9) || p.mode == 1), (32, decide (p.modules < 9) || chart), (36, decide (gs.length ≤ 6))]
    ++ ((List.range gs.length).flatMap fun i =>
      let g := gs.getD i ⟨0, 0, false⟩
      [(38 + 4 * i, decide (1 ≤ g.ports) && decide (g.ports < 4096) && disjoint i), (40 + 4 * i, decide (g.neighbour ≤ 63))])

/-- SET_LINK_PLAN: stored; in force at the next module or cold reset. -/
def opSetLinkPlan (h : CmdHdr) (plan : LinkPlan) (s : State) : State :=
  s.ordered h 0x0701 fun s =>
    s.checked h 0x0701 (planFault plan (!s.links.storedChart.isEmpty)) fun s =>
      (s.updLinks fun l => { l with storedPlan := plan, storedMaster := none }).answer h 0x0701 .ok

def execSetLinkPlan (h : CmdHdr) (plan : LinkPlan) (s : State) : Result := .next (opSetLinkPlan h plan s)

/-- SET_STAR_CHART: twelve expected peers, 0xFF absent; stored. -/
def opSetStarChart (h : CmdHdr) (entries : List (Nat × Nat)) (s : State) : State :=
  let entry (i : Nat) : Nat × Nat := entries.getD i (0xFF, 0xFF)
  let absent (e : Nat × Nat) : Bool := e.1 == 0xFF
  let fields := (List.range 12).flatMap fun i =>
    [(32 + 2 * i, absent (entry i) || decide ((entry i).1 ≤ 63)), (33 + 2 * i, absent (entry i) || decide ((entry i).2 ≤ 11))]
  let chart := (List.range 12).map fun i => if absent (entry i) then (0xFF, 0xFF) else entry i
  s.ordered h 0x0702 fun s =>
    s.checked h 0x0702 fields fun s =>
      (s.updLinks fun l => { l with storedChart := if chart.all absent then [] else chart }).answer h 0x0702 .ok

def execSetStarChart (h : CmdHdr) (entries : List (Nat × Nat)) (s : State) : Result := .next (opSetStarChart h entries s)

/-- SET_LINK_LIMITS. -/
def opSetLinkLimits (h : CmdHdr) (sounding portErrors : Nat) (s : State) : State :=
  s.ordered h 0x0705 fun s =>
    s.checked h 0x0705 [(32, inRange 8 sounding 1 120), (34, !h.expert || inRange 16 portErrors 1 1024)] fun s =>
      (s.updLinks fun l => { l with
        soundLimit := setting 8 sounding l.soundLimit
        errThreshold := if h.expert then setting 16 portErrors l.errThreshold else l.errThreshold }).answer
        h 0x0705 .ok

def execSetLinkLimits (h : CmdHdr) (sounding portErrors : Nat) (s : State) : Result := .next (opSetLinkLimits h sounding portErrors s)

/-! ### Checks of cross-module sends (R309) -/

/-- The check of R309 over every live placement, after a delay or the lag has changed: newly failing sends are reported. -/
def State.checkSends (s : State) : State :=
  let fails := s.livePlacements.flatMap fun p => s.linkFails s.links.targets p s.tick.period (s.plc p).plan.x
  let fresh := fails.filter fun c => !s.links.timingFails.contains c
  let s := s.updLinks fun l => { l with timingFails := fails }
  fresh.foldl (fun s c => (s.mark Reg.Link.ROUTE_TIMING).event { code := 0x0702, core := c, detail := le2 40 c }) s

/-! ### Ports (R303, R320) -/

/-- The Jetstream entries of a port that is down move to the port of its group with the least reservation, within 85 % of its bytes
per tick; the others are reported and their sends discarded (R309, R320). -/
def State.moveJet (s : State) (n : Nat) : State :=
  let others := ((s.groupOf n).map s.groupPorts).getD [] |>.filter s.isActive
  let reserved (s : State) (q : Nat) : Nat := reservedAt s.links.targets q
  (s.links.targets.filter fun e => e.2.channel == 1 && e.2.port == n).foldl (fun s e =>
    let best := others.foldl (fun (b : Option Nat) q => match b with
      | none => some q
      | some r => if reserved s q < reserved s r then some q else some r) none
    match best with
    | some q =>
      if reserveOk s.tick.period (reserved s q + e.2.bytes) then
        s.updLinks fun l => { l with targets := l.targets.set e.1 { e.2 with port := q } }
      else (s.mark Reg.Link.ROUTE_TIMING).event { code := 0x0702, core := e.2.source, detail := le2 40 e.2.source }
    | none => (s.mark Reg.Link.ROUTE_TIMING).event { code := 0x0702, core := e.2.source, detail := le2 40 e.2.source }) s

/-- The beacon port yields no beacon any more: the next eligible port, else holdover (R319). -/
def State.loseBeacon (s : State) (n : Nat) : State :=
  let s := s.updPort n fun p => { p with peerHops := 15 }
  if !s.following || s.links.beaconPort != some n then s
  else match s.bestBeacon with
    | some q => (s.updLinks fun l => { l with beaconPort := some q, hops := (s.port q).peerHops + 1 }).checkSends
    | none => (s.forcing State.enterHoldover).releaseLull

/-- A port leaves service and trains again from the start. -/
def State.retrain (s : State) (n : Nat) : State :=
  let s := s.updPort n fun p => { p with st := .down, trainFails := 0, lanes := 0, heldCause := 0, seen := false }
  let s := s.updLinks fun l => { l with newEntry := true }
  (s.moveJet n).checkSends.loseBeacon n

/-- PORT_DOWN: lock lost, too many uncorrectable codewords, or eight resends of one frame. -/
def opPortDown (n : Nat) (s : State) : State :=
  match (s.port n).st with
  | .off | .down => s
  | _ => ((s.event { code := 0x0703, detail := [(40, n)] }).retrain n).gaugeLinks

def execPortDown (port : Nat) (s : State) : Result := .next (opPortDown port s)

/-- PORT_TRAINED: lanes locked, FEC aligned, delay measured; the check of the peer begins. A port outside the plan stays OFF. -/
def opPortTrained (n delayNs lanes : Nat) (s : State) : State :=
  match (s.port n).st with
  | .down | .training =>
    let s := s.updPort n fun p => { p with st := .verifying, trainFails := 0, delayNs := delayNs, lanes := lanes, seen := false, heldCause := 0 }
    s.checkSends.gaugeLinks
  | _ => s

def execPortTrained (port delayNs lanes : Nat) (s : State) : Result := .next (opPortTrained port delayNs lanes s)

/-- PORT_TRAINING_TIMEOUT: the failure is counted; the port tries again, after three failures every 10 s. -/
def opTrainingTimeout (n : Nat) (s : State) : State :=
  match (s.port n).st with
  | .down | .training =>
    (s.updPort n fun p => { p with trainFails := p.trainFails + 1, st := if p.trainFails + 1 < 3 then .training else .down }).gaugeLinks
  | _ => s

def execPortTrainingTimeout (port : Nat) (s : State) : Result := .next (opTrainingTimeout port s)

/-- The counters of an Obtik port and of an Ethernet port return to 0. -/
def State.clearPort (s : State) (n : Nat) : State :=
  [Reg.Link.FEC_CORR n, Reg.Link.FEC_UNCORR n, Reg.Link.CRC_ERR n, Reg.Link.REPLAYS n, Reg.Link.JET_LOST n, Reg.Link.LINK_FILTER n].foldl
    (fun s f => s.put f 0) s
def State.clearEth (s : State) (n : Nat) : State :=
  [Reg.Eth.RX_FRAMES n, Reg.Eth.TX_FRAMES n, Reg.Eth.BAD_FRAME n, Reg.Eth.BAD_MESSAGE n, Reg.Eth.TX_CAP_DROP n, Reg.Eth.FEC_UNCORR n].foldl
    (fun s f => s.put f 0) s

/-- PORT_RESET (R320, R409, R447): the port trains again; the last ACTIVE port of its group by the expert form only. -/
def opPortReset (h : CmdHdr) (port : Nat) (s : State) : State :=
  s.ordered h 0x0703 fun s =>
    s.checked h 0x0703 [(32, decide (port < 12) || (decide (16 ≤ port) && decide (port < 20)))] fun s =>
      if 16 ≤ port then
        let n := port - 16
        ((s.updEth n fun x => { x with cap := 400 }).clearEth n |> opEthDown n).answer h 0x0703 .ok
      else
        let last := s.isActive port && ((s.groupOf port).map fun g => ((s.groupPorts g).filter s.isActive).length == 1).getD false
        if last && !h.expert then s.answer h 0x0703 .inService
        else
          let s := s.clearPort port
          let s := if s.planned port then s.retrain port else s
          s.gaugeLinks.answer h 0x0703 .ok

def execPortReset (h : CmdHdr) (port : Nat) (s : State) : Result := .next (opPortReset h port s)

/-! ### Learning the topology (R312, R313) -/

/-- Bytes 0-7 of the SHA-512 of the common block. -/
def planHash (p : LinkPlan) : Nat := leNat ((sha512 (leBytes 1 p.modules ++ leBytes 1 p.master ++ leBytes 1 p.mode ++ [0])).take 8)

/-- This module's adjacency entries: a neighbour of each group with an ACTIVE port. -/
def State.ownEdges (s : State) : List (Nat × Nat) :=
  (List.range s.links.plan.groups.length).filterMap fun g => (s.groupNeighbour g).map fun m => (s.start.moduleId, m)

/-- A port is held, with its cause and event (R321). -/
def State.holdPort (s : State) (n cause : Nat) : State :=
  let s := s.updPort n fun p => { p with st := .held, heldCause := cause }
  let p := s.port n
  let d := [(40, n), (41, p.peerPort), (42, p.peerModule)]
  match cause with
  | 1 => (s.mark Reg.Link.CABLE_MISMATCH).event { code := 0x0704, detail := d }
  | 3 => (s.mark Reg.Link.DUPLICATE_ID).event { code := 0x0707, detail := d }
  | 4 => (s.mark Reg.Link.PLAN_MISMATCH).event { code := 0x0708, detail := d }
  | _ => s

/-- A port carries traffic from now on: what its buffers hold is sent, and a flood starts. -/
def State.activate (s : State) (n : Nat) : State :=
  let s := s.updPort n fun p => { p with st := .active, heldCause := 0 }
  let s := s.updLinks fun l => { l with newEntry := true }
  [0, 2].foldl (fun s vc =>
    let s := ((s.port n).chan vc).replay.foldl (fun s f => s.emit (.obtik n f)) s
    s.pump 256 n vc) s

/-- The module every port of a group must see: the named neighbour, or the one its lowest trained port sees (R312). `final`: ports that
have seen none no longer count. -/
def State.wanted (s : State) (g : Nat) (final : Bool) : Option Nat :=
  let named := (s.links.plan.groups.getD g ⟨0, 0x3F, false⟩).neighbour
  if named ≠ 0x3F then some named
  else
    let trained (n : Nat) : Bool := match (s.port n).st with
      | .verifying | .active | .held => !final || (s.port n).seen
      | _ => false
    match (s.groupPorts g).find? trained with
    | some n => if (s.port n).seen then some (s.port n).peerModule else none
    | none => none

/-- The verdict on a VERIFYING port whose peer has been seen; the port stays where the rule still waits for another port. -/
def State.judge (final : Bool) (s : State) (n : Nat) : State :=
  let p := s.port n
  if p.st != .verifying || !p.seen then s
  else if s.links.plan.mode = 0 then
    match (s.groupOf n).bind fun g => s.wanted g final with
    | none => s
    | some m => if p.peerModule = m then s.activate n else s.holdPort n 5
  else
    let expected (q : Nat) : Nat × Nat := s.links.chart.getD q (0xFF, 0xFF)
    let seen (q : Nat) : Nat × Nat := ((s.port q).peerModule, (s.port q).peerPort)
    if seen n = expected n then s.activate n
    else match (List.range 12).find? fun q => q != n && expected q == seen n with
      | none => s.holdPort n 1
      | some q =>
        if !(s.port q).seen then (if final || !s.planned q then s.holdPort n 1 else s)
        else if (s.port q).st == .verifying && seen q == expected n then
          let same := s.groupOf n == s.groupOf q
            && (((s.groupOf n).map fun g => (s.links.plan.groups.getD g ⟨0, 0, false⟩).equiv).getD false)
          let d := [(40, n), (41, q), (42, p.peerModule)]
          if same then (((s.activate n).activate q).mark Reg.Link.SWAP_ACCEPTED).event { code := 0x0706, detail := d }
          else (((s.holdPort n 2).holdPort q 2).mark Reg.Link.SWAPPED).event { code := 0x0705, detail := d }
        else s.holdPort n 1

/-- Judge every port that can be judged. -/
def State.judgeAll (s : State) (final : Bool) : State := s.forAll s.plannedPorts (State.judge final)

/-- Sounding ends once every planned port is ACTIVE or HELD. -/
def State.soundingEnd (s : State) : State :=
  if s.plannedPorts.all fun n => match (s.port n).st with | .active | .held => true | _ => false then
    s.updLinks fun l => { l with soundingDone := true }
  else s

/-- SOUND: the peer is checked; an ACTIVE port's adjacency entries join the graph. -/
def opSound (n : Nat) (m : SoundMsg) (s : State) : State :=
  match (s.port n).st with
  | .verifying | .active | .held =>
    let first := (s.port n).st == .verifying
    let s := s.updPort n fun p => { p with peerModule := m.moduleId, peerPort := m.port, seen := true }
    let s :=
      if !first then s
      else if m.planHash ≠ planHash s.links.plan then s.holdPort n 4
      else if m.moduleId = s.start.moduleId then s.holdPort n 3
      else s.judgeAll false
    let s :=
      if !s.isActive n then s
      else
        let new := m.adjacency.filter fun e => !s.links.graph.contains e && decide (e.1 < 64) && decide (e.2 < 64)
        s.updLinks fun l => { l with graph := l.graph ++ new, newEntry := l.newEntry || !new.isEmpty }
    s.soundingEnd.gaugeLinks
  | _ => s

def execSound (port : Nat) (m : SoundMsg) (s : State) : Result := .next (opSound port m s)

/-- SOUND_TIMER: each ACTIVE, VERIFYING or HELD port sends SOUND with up to ten entries, in turn (R304, R312). -/
def opSoundTimer (s : State) : State :=
  let all := s.ownEdges ++ s.links.graph.filter fun e => !s.ownEdges.contains e
  let at_ := if all.length ≤ s.links.floodAt then 0 else s.links.floodAt
  let part := (all.drop at_).take 10
  let s := s.updLinks fun l => { l with floodAt := at_ + 10 }
  s.forAll (List.range 12) fun s n => match (s.port n).st with
    | .active | .verifying | .held =>
      s.emit (.obtikSound n { moduleId := s.start.moduleId, port := n, group := (s.groupOf n).getD 0xFF, starMode := s.links.plan.mode == 1
                              holdover := s.links.holdover, planHash := planHash s.links.plan, adjacency := part })
    | _ => s

def execSoundTimer (s : State) : Result := .next (opSoundTimer s)

/-! ### Routes (R314) -/

/-- Hops from a module to another over a graph's links, without passing `own`. -/
def hopsTo (edges : List (Nat × Nat)) (own target : Nat) : Nat → List Nat → List Nat → Nat → Option Nat
  | 0, _, _, _ => none
  | k + 1, frontier, seen, d =>
    if frontier.contains target then some d
    else
      let next := ((edges.flatMap fun e =>
        (if frontier.contains e.1 then [e.2] else []) ++ (if frontier.contains e.2 then [e.1] else [])).filter
          fun m => m != own && !seen.contains m).eraseDups
      if next.isEmpty then none else hopsTo edges own target k next (seen ++ next) (d + 1)

/-- The computed table: fewest hops, then more ACTIVE ports, then the lower group. In star-chart mode only the chart's own links are
known. -/
def State.computeRoutes (s : State) : Tbl (Nat × Bool) :=
  let own := s.start.moduleId
  let edges := if s.links.plan.mode = 1 then [] else s.links.graph
  let groups := (List.range s.links.plan.groups.length).filterMap fun g => (s.groupNeighbour g).map fun m => (g, m)
  let size (g : Nat) : Nat := ((s.groupPorts g).filter s.isActive).length
  (List.range 64).filterMap fun m =>
    if m = own then none else
    let ways := groups.filterMap fun (g, nb) => (hopsTo edges own m 64 [nb] [nb] 1).map fun d => (g, d)
    let best := ways.foldl (fun (b : Option (Nat × Nat)) w => match b with
      | none => some w
      | some v => if w.2 < v.2 || (w.2 = v.2 && decide (size v.1 < size w.1)) then some w else some v) none
    best.map fun w => (m, (w.1, true))

/-- A table comes into force at a boundary, or at once while no ticks run. -/
def State.planRoutes (s : State) (at_ : Nat) (ordered : Bool) (t : Tbl (Nat × Bool)) : State :=
  if s.tick.running || ordered then s.updLinks fun l => { l with nextRoutes := l.nextRoutes ++ [(at_, ordered, t)] }
  else s.updLinks fun l => { l with routes := t, routesFromOrder := false }

/-- The tick master: MASTER, or the lowest module ID reachable over ACTIVE ports (R316). -/
def State.findMaster (s : State) (t : Tbl (Nat × Bool)) : State :=
  let own := s.start.moduleId
  let m := if s.links.plan.master ≠ 0x3F then s.links.plan.master else (t.map Prod.fst).foldl min own
  s.updLinks fun l => { l with master := m, follower := m != own }

/-- A table's entries as orders carry them, and back. -/
def tableBytes (t : Tbl (Nat × Bool)) : List Nat := (List.range 64).map fun m => let e := t.getD m (7, false); e.1 + bit e.2 3
def tableOf (entries : List Nat) : Tbl (Nat × Bool) :=
  (List.range 64).filterMap fun m =>
    let e := entries.getD m 7
    if e = 7 then none else some (m, (e % 8, decide (8 ≤ e)))
/-- An entry is out of range: a group beyond 5 other than 7, or a reserved bit. -/
def routeEntryOk (e : Nat) : Bool := decide (e < 16) && (decide (e % 8 ≤ 5) || decide (e % 8 = 7))

/-- FLOOD_QUIET: routes and the tick master are computed; after sounding has ended, the master orders the table on every other module. -/
def opFloodQuiet (s : State) : State :=
  if s.links.plan.groups.isEmpty then s else
  let t := s.computeRoutes
  let s := (s.planRoutes (s.tick.count + 1) false t).findMaster t
  let late := s.links.soundingDone && s.links.newEntry
  let s := s.updLinks fun l => { l with newEntry := false }
  let s := if late && !s.links.follower then
      t.foldl (fun s e => s.sendOrder e.1 2 (s.tick.count + 1024) ((tableBytes t).map (BitVec.ofNat 8))) s
    else s
  s.gaugeLinks

def execFloodQuiet (s : State) : Result := .next (opFloodQuiet s)

/-- SOUNDING_TIME_LIMIT: what still waits is judged; absent ports are reported. -/
def opSoundingLimit (s : State) : State :=
  if s.links.soundingDone then s else
  let s := s.judgeAll true
  let absent := s.plannedPorts.filter fun n => match (s.port n).st with | .active | .held => false | _ => true
  let s := absent.foldl (fun s n => (s.mark Reg.Link.PORT_ABSENT).event { code := 0x0709, detail := [(40, n)] }) s
  (s.updLinks fun l => { l with soundingDone := true }).gaugeLinks

def execSoundingTimeLimit (s : State) : Result := .next (opSoundingLimit s)

/-! ### Orders (R315) -/

/-- ROUTE_TABLE from the host: it applies at the first boundary at or after apply_tick, and wins over peers. -/
def opRouteTable (h : CmdHdr) (applyTick : Nat) (entries : List Nat) (s : State) : State :=
  s.ordered h 0x0704 fun s =>
    s.checked h 0x0704 ((List.range 64).map fun i => (40 + i, routeEntryOk (entries.getD i 7))) fun s =>
      let s := s.updLinks fun l => { l with hostRoute := true }
      let d : Deferred := ⟨.routeTable h applyTick entries, max applyTick (s.tick.count + 1), !s.tick.running⟩
      let s := s.updHost fun x => { x with deferred := x.deferred ++ [d] }
      if s.tick.running then s.answer h 0x0704 .ok else s.pend h 0x0704 []

def execRouteTable (h : CmdHdr) (applyTick : Nat) (entries : List Nat) (s : State) : Result :=
  .next (opRouteTable h applyTick entries s)

/-- The host's table comes into force. -/
def State.applyRoutes (s : State) (entries : List Nat) : State :=
  (s.updLinks fun l => { l with routes := tableOf entries, routesFromOrder := true }).gaugeLinks

/-- A peer's order waits for the next control slot (R397). -/
def State.peerOrder (s : State) (o : PeerOrder) : State := s.updLinks fun l => { l with orders := l.orders ++ [o] }

def execTickMaster (srcModule master : Nat) (s : State) : Result := .next (s.peerOrder (.tickMaster srcModule master))
def execTickDemand (srcModule level usable : Nat) (forced : Bool) (s : State) : Result :=
  .next (s.peerOrder (.tickDemand srcModule level usable forced))
def execPeerRouteTable (srcModule applyTick : Nat) (entries : List Nat) (s : State) : Result :=
  .next (s.peerOrder (.routeTable srcModule applyTick entries))

/-- ORDERS_REFUSED: any other order of a peer is counted and answered NOT_PERMITTED. -/
def opOrdersRefused (srcModule code : Nat) (s : State) : State :=
  (s.bump Reg.Link.ORDERS_REFUSED).sendOrderReply srcModule code .notPermitted

def execOrdersRefused (srcModule _port code : Nat) (s : State) : Result := .next (opOrdersRefused srcModule code s)

/-- ORDER_REPLY: the answer to an order sent; the manual gives it no further effect. -/
def execOrderReply (_port _code _status : Nat) (s : State) : Result := .next s

/-- The control slot applies the peers' orders, in order of arrival; `void` answers every one SUPERSEDED (R315, R397, R400). -/
def State.applyPeers (s : State) (void : Bool) : State :=
  let orders := s.links.orders
  let host := s.links.hostRoute
  let routeSrc (o : PeerOrder) : Option Nat := match o with | .routeTable m _ _ => some m | _ => none
  let winner := (orders.filterMap routeSrc).foldl min 64
  let s := s.updLinks fun l => { l with orders := [], hostRoute := false }
  (orders.foldl (fun (acc : State × Bool) o =>
    let (s, taken) := acc
    match o with
    | .tickMaster m x =>
      if void then (s.sendOrderReply m 1 .superseded, taken)
      else if 63 < x then (s.sendOrderReply m 1 .badParameter, taken)
      else ((s.updLinks fun l => { l with storedMaster := some x }).sendOrderReply m 1 .ok, taken)
    | .tickDemand m lvl u f =>
      if void then (s.sendOrderReply m 3 .superseded, taken)
      else
        let keep (l : LinksSt) : List (Nat × Nat × Nat × Bool) := l.demands.filter fun d => d.1 != m
        ((s.updLinks fun l => { l with demands := keep l ++ [(m, lvl, u, f)] }).sendOrderReply m 3 .ok, taken)
    | .routeTable m at_ entries =>
      if void || host || m != winner || taken then (s.sendOrderReply m 2 .superseded, taken)
      else if !entries.all routeEntryOk then (s.sendOrderReply m 2 .badParameter, taken)
      else ((s.planRoutes (max at_ (s.tick.count + 1)) true (tableOf entries)).sendOrderReply m 2 .ok, true)) (s, false)).1

/-! ### Frames received (R305-R308) -/

/-- An ACK with the highest SEQ received in order; the credits are a free value: the manual gives no queue lengths. -/
def State.sendAckFrame (s : State) (n : Nat) : State :=
  let (c, s) := s.fresh
  let p := s.port n
  s.emit (.obtik n (linkFrame { type := 1, srcModule := s.start.moduleId }
    (leBytes 2 p.gust.rxSeq ++ leBytes 2 p.cloud.rxSeq ++ leBytes 2 (c % 65536) ++ leBytes 2 (c / 65536 % 65536))))

/-- An order frame for this module. -/
def State.takeOrder (s : State) (h : LinkHdr) (data : List Byte) : State :=
  let u (o n : Nat) : Nat := leNat ((data.drop o).take n)
  match u 0 2 with
  | 1 => s.peerOrder (.tickMaster h.srcModule (u 12 1))
  | 2 => s.peerOrder (.routeTable h.srcModule (u 4 8) ((List.range 64).map fun i => u (12 + i) 1))
  | 3 => s.peerOrder (.tickDemand h.srcModule (u 12 1) (u 13 1) (u 14 1 % 2 == 1))
  | c => opOrdersRefused h.srcModule c s

/-- A DATA frame for this module: filtered, or injected into the fabric by the port's engine (R308). -/
def State.inject (s : State) (n : Nat) (h : LinkHdr) (words : List Flit) : State :=
  let ok := s.links.inbound.any fun e => e.srcModule == h.srcModule && e.tag == h.tag && e.placement == h.placement
    && decide (e.destLo ≤ h.dest) && decide (h.dest ≤ e.destHi)
  if !ok then
    let s := s.bump (Reg.Link.LINK_FILTER n)
    if h.kind = 1 then s.linkStatus h 1 else s
  else
    let r : Route :=
      { dest := h.dest, addr := h.addr, vc := h.vc, tag := h.tag, placement := h.placement, mcast := false, drop := h.drop
        ackreq := h.ackreq, kind := h.kind, len := words.length - 1, src := engineOf n }
    let reply := leNat (((flitRead (words.headD 0)).1).take 4) % 2 ^ 20
    let s := if h.kind = 1 then
        s.updLinks fun l => { l with reads := l.reads ++ [⟨engineOf n, h.dest, h.addr, reply, h.srcModule, h.src⟩] }
      else s
    s.emit (.localPacket (engineOf n) { route := r.encode, crc := routeCrc r.encode, flits := words })

/-- A frame whose SEQ is right: carried in transit, or taken here (R314). -/
def State.carry (s : State) (n : Nat) (h : LinkHdr) (words : List Flit) : State :=
  if h.destModule ≠ s.start.moduleId then
    let on : Option State :=
      if h.hops = 0 || h.vc = 1 then none
      else if h.type = 5 then (s.choosePort h).map fun q => s.emit (.obtik q (frameOf { h with hops := h.hops - 1 } words))
      else
        let (t, ok) := s.sendLink { h with hops := h.hops - 1 } words
        if ok then some t else none
    match on with
    | some t => t
    | none =>
      let s := s.bump (Reg.Link.LINK_FILTER n)
      if h.type = 0 && h.kind = 1 then s.linkStatus h 1 else s
  else match h.type with
    | 0 => s.inject n h words
    | 3 => s.takeOrder h (words.flatMap fun w => (flitRead w).1)
    | _ => s

/-- A DATA, ORDER or ORDER_REPLY frame: order and duplicates of its channel, uncorrectable words, then its way (R305, R307). -/
def State.takeData (s : State) (n : Nat) (h : LinkHdr) (f : ObtikFrame) : State :=
  let (words, _, bad) := checkFlits f.words
  if h.type = 5 then s.carry n h words
  else if h.vc = 1 then
    if s.links.holdover then s else s.carry n { h with drop := h.drop || decide (0 < bad) } words
  else
    let c := (s.port n).chan h.vc
    if h.seq ≠ (c.rxSeq + 1) % 65536 then s.sendAckFrame n
    else if h.vc = 0 && 0 < bad then s
    else
      let s := (s.updPort n fun p => p.setChan h.vc { c with rxSeq := h.seq }).sendAckFrame n
      if bad = 0 then s.carry n h words
      else if h.kind = 2 then
        let q := linkFrame { h with kind := 3, addr := 0 } (leBytes 2 3 ++ leBytes 2 (h.len + 1) ++ leBytes 4 h.addr ++ List.replicate 24 0)
        s.carry n (LinkHdr.decode q.header) q.words
      else s.linkStatus h 3

/-- An ACK: frames covered leave the replay buffer, and the credits hold (R306, R307). -/
def State.takeAck (s : State) (n : Nat) (data : List Byte) : State :=
  let u (o : Nat) : Nat := leNat ((data.drop o).take 2)
  [(0, u 0, u 4), (2, u 2, u 6)].foldl (fun s (vc, seq, credit) =>
    let c := (s.port n).chan vc
    let rest := match c.replay.findIdx? fun f => (LinkHdr.decode f.header).seq == seq with
      | some i => c.replay.drop (i + 1)
      | none => c.replay
    let c := { c with credit := credit, replay := rest, resends := if rest.length < c.replay.length then 0 else c.resends }
    (s.updPort n fun p => p.setChan vc c).pump 256 n vc) s

/-- A BEACON: the peer's hops, and for a follower on this port the relayed word (R317, R318). -/
def State.takeBeacon (s : State) (n : Nat) (data : List Byte) : State :=
  let u (o k : Nat) : Nat := leNat ((data.drop o).take k)
  let word : W32 := BitVec.ofNat 32 (u 0 4)
  if !beaconGood word then s else
  let s := s.updPort n fun p => { p with peerHops := u 13 1 }
  if !s.following then s else
  let best := s.bestBeacon
  let was := s.links.hops
  let s := s.updLinks fun l => { l with beaconPort := best }
  if best != some n then s else
  let lull := word.getLsbD 23
  let s := s.forcing fun s => s.updLinks fun l =>
    { l with hops := u 13 1 + 1, relayWord := some (bits word.toNat 22 16, lull), relayTick := u 4 8 }
  let s := if was = s.links.hops then s else s.checkSends
  let s := s.watchForce
  if lull then s.toLull else s.releaseLull

/-- The SOUND message of a frame's word (R306). -/
def soundOf (data : List Byte) : SoundMsg :=
  let u (o k : Nat) : Nat := leNat ((data.drop o).take k)
  { moduleId := u 0 1, port := u 1 1, group := u 2 1, starMode := u 3 1 % 2 == 1, holdover := u 3 1 / 2 % 2 == 1, planHash := u 4 8
    adjacency := (List.range 10).map fun i => (u (12 + 2 * i) 1, u (13 + 2 * i) 1) }

/-- A frame at a port: bad ones are discarded and counted; until the check has passed only SOUND and ACK are taken (R304, R305, R429). -/
def opFrameIn (n : Nat) (f : ObtikFrame) (s : State) : State :=
  let st := (s.port n).st
  if st != .active && st != .verifying && st != .held then s
  else if frameBad f then s.bump (Reg.Link.CRC_ERR n)
  else
    let h := LinkHdr.decode f.header
    -- a one-word frame with an uncorrectable word is discarded like a Gust message (R297, R305)
    if (h.type = 1 || h.type = 2 || h.type = 4) && 0 < (checkFlits f.words).2.2 then s else
    match h.type with
    | 1 => s.takeAck n (frameData f)
    | 4 => opSound n (soundOf (frameData f)) s
    | 2 => if st == .active then (s.takeBeacon n (frameData f)).gaugeLinks else s
    | _ => if st == .active then s.takeData n h f else s

def execObtikDataFrame (port : Nat) (f : ObtikFrame) (s : State) : Result := .next (opFrameIn port f s)
def execObtikAckFrame (port : Nat) (f : ObtikFrame) (s : State) : Result := .next (opFrameIn port f s)
def execObtikBeaconFrame (port : Nat) (f : ObtikFrame) (s : State) : Result := .next (opFrameIn port f s)

/-- LINK_REPLAY_TIMEOUT: every frame from the oldest not acknowledged is sent again; the eighth resend of one takes the port down. -/
def opReplayTimeout (n vc : Nat) (s : State) : State :=
  let c := (s.port n).chan vc
  if !s.isActive n || c.replay.isEmpty then s
  else
    let s := c.replay.foldl (fun s f => s.emit (.obtik n f)) (s.count (Reg.Link.REPLAYS n) c.replay.length)
    let k := c.resends + 1
    let s := s.updPort n fun p => p.setChan vc { c with resends := if k < 8 then k else 0 }
    if k < 8 then s else opPortDown n s

def execLinkReplayTimeout (port channel : Nat) (s : State) : Result := .next (opReplayTimeout port channel s)

/-- MASTER_BEACON_TIMEOUT: no valid beacon on the beacon port for 3 ticks (R319). -/
def opBeaconTimeout (s : State) : State :=
  if !s.following then s
  else match s.links.beaconPort with
    | some n => (s.loseBeacon n).gaugeLinks
    | none => (s.forcing State.enterHoldover).releaseLull.gaugeLinks

def execMasterBeaconTimeout (s : State) : Result := .next (opBeaconTimeout s)

/-! ### What the ticks do (R314, R318, R320) -/

/-- A boundary: the port choice counts the ACTIVE ports, due tables come into force, and what a port that is down still holds leaves by
the new choice. -/
def State.linkBoundary (s : State) : State :=
  if s.links.plan.groups.isEmpty then s else
  let k := s.tick.count
  let due := s.links.nextRoutes.filter fun e => e.1 ≤ k
  let s := s.updLinks fun l => { l with choice := s.activePorts, nextRoutes := l.nextRoutes.filter fun e => k < e.1 }
  let s := due.foldl (fun s e => s.updLinks fun l => { l with routes := e.2.2, routesFromOrder := e.2.1 }) s
  let s := s.forAll (s.plannedPorts.filter fun n => !s.isActive n) fun s n =>
    [0, 2].foldl (fun s vc =>
      let c := (s.port n).chan vc
      let frames := c.replay ++ c.waiting
      let s := s.updPort n fun p => p.setChan vc { c with replay := [], waiting := [], resends := 0 }
      frames.foldl (fun s f =>
        let (t, ok) := s.sendLink (LinkHdr.decode f.header) f.words
        if ok then t else s.updPort n fun p => let c := p.chan vc; p.setChan vc { c with waiting := c.waiting ++ [f] }) s) s
  if due.isEmpty then s else s.gaugeLinks

/-- A follower sends its demand, usable limit and forced state to the master each tick (R318). -/
def State.sendDemand (s : State) : State :=
  if !s.following then s
  else
    let t := s.tick
    let lvl := max t.forced (max t.vaneDemand (max t.capDemand t.thermalDemand))
    let own := decide (0 < t.forced) && t.forced == lvl
    s.sendOrder s.links.master 3 0 (leBytes 1 lvl ++ leBytes 1 s.usable ++ leBytes 1 (bit own 0))

/-- The level the master sets for all: the largest demand, at most the lowest usable limit unless a module reports FORCED, whose level is
relayed as it is (R318). -/
def State.sharedLevel (s : State) (own : Nat) : Nat :=
  let ds := s.links.demands
  let want := ds.foldl (fun m d => max m d.2.1) own
  let usable := ds.foldl (fun m d => min m d.2.2.1) s.usable
  let forced := (ds.filter fun d => d.2.2.2).foldl (fun m d => max m d.2.1) 0
  max (min want usable) forced

end Sys2Proof.Machine
end

