-- ==== Sys2Proof/Machine/Host.lean ====
section
/-! DEFINITION. The host interface: writes to BAR0 by access code (R7, R380, R385), the judgement of the windows (R386), the command fetch
(R387, R388), the rings as the host consumes them (R390, R394), the interrupts (R395), and the host link (R379). -/

namespace Sys2Proof.Machine

/-- The host link and BAR0 work: the 54 V conversion is on and no domain of the north service field is off (R327, R377, R435). -/
def State.barOn (s : State) : Bool := s.start.power != .off && s.start.power != .standby && !s.serviceOff 2

/-! ### Interrupts (R395) -/

/-- Send a vector, or note it in the pending bits while its table entry is masked. -/
def State.sendVector (s : State) (v : Nat) : State :=
  if s.get (Reg.Msix.MASKED v) = 1 then s.put (Reg.Msix.PENDING v) 1 else (s.put (Reg.Msix.PENDING v) 0).emit (.msix v)

/-- Signal the vectors that are due: at most once per tick, or per idle control slot; held while the host link is not open. -/
def State.signal (s : State) : State :=
  if !s.host.linkUp then s
  else
    let due := [(0, s.host.sigReply), (1, s.host.sigEvent), (2, s.host.sigUrgent)]
    let s := s.updHost fun h => { h with sigReply := false, sigEvent := false, sigUrgent := false }
    due.foldl (fun s e => if e.2 then s.sendVector e.1 else s) s

/-- A vector whose pending bit is set leaves as its entry is unmasked. -/
def State.unmasked (s : State) : State :=
  s.forAll (List.range 8) fun s v =>
    if s.host.linkUp && s.get (Reg.Msix.PENDING v) = 1 && s.get (Reg.Msix.MASKED v) = 0 then s.sendVector v else s

/-! ### The rings (R390, R394) -/

/-- Write the queued event records that now have room, in order (R394). -/
def State.drainEvents : Nat → State → State
  | 0, s => s
  | k + 1, s =>
    match s.host.eventQueue with
    | [] => s
    | e :: rest => if s.eventRoom e.seq then State.drainEvents k ((s.updHost fun h => { h with eventQueue := rest }).writeEvent e) else s

/-- Write everything that now has room. -/
def State.drainRings (s : State) : State :=
  let s := State.drainReplies (s.host.held.length + 1) s
  State.drainEvents s.host.eventQueue.length s

/-- REPLY_RING_ROOM: the host has read up to `consumed`; held replies are written and fetch resumes. -/
def opReplyRoom (consumed : Nat) (s : State) : State :=
  let s := s.updHost fun h => { h with repliesConsumed := consumed }
  State.drainReplies (s.host.held.length + 1) s

def execReplyRingRoom (consumed : W32) (s : State) : Result := .next (opReplyRoom consumed.toNat s)

/-- EVENT_RING_ROOM: queued records are written. -/
def opEventRoom (consumed : Nat) (s : State) : State :=
  let s := s.updHost fun h => { h with eventsConsumed := consumed }
  State.drainEvents s.host.eventQueue.length s

def execEventRingRoom (consumed : W32) (s : State) : Result := .next (opEventRoom consumed.toNat s)

/-! ### Command fetch (R387, R388) -/

/-- Slots are read: at most 32, from FETCHED + 1 up to PRODUCED; held while RPL_FULL is 1. -/
def State.readSlots (s : State) : State :=
  let n := min 32 (seqAfter s.host.fetched s.host.produced)
  if s.get Reg.Hwin.RPL_FULL = 1 || s.host.reading ≠ 0 || n = 0 then s
  else (s.updHost fun h => { h with reading := n }).emit (.readSlots (seqNext s.host.fetched) n)

/-- COMMAND_HEADER_RETURN: the three host fields are taken, held records written, slots read. -/
def opHeader (produced replies events : Nat) (s : State) : State :=
  if !s.hostOpen then s
  else (opEventRoom events (opReplyRoom replies (s.updHost fun h => { h with produced := produced }))).readSlots

def execCommandHeaderReturn (produced repliesConsumed eventsConsumed : W32) (s : State) : Result :=
  .next (opHeader produced.toNat repliesConsumed.toNat eventsConsumed.toNat s)

/-- FETCHED moves to the next expected sequence number. -/
def State.fetchedNext (s : State) : State :=
  let n := seqNext s.host.fetched
  (s.updHost fun h => { h with fetched := n, staleRun := 0, staleOp := 0 }).put Reg.Hwin.FETCHED n

/-- COMMAND_SLOT_RETURN: a slot with the expected SEQ waits for the next control slot; a stale one is counted and read again, and the slots
read behind it are dropped. -/
def opSlot (p : CmdPacket) (s : State) : State :=
  if s.host.reading = 0 || !s.hostOpen then s
  else if p.seq = seqNext s.host.fetched then
    (s.fetchedNext.bump Reg.Evc.COMMANDS).updHost fun h => { h with reading := h.reading - 1, fetchedPkts := h.fetchedPkts ++ [(s.tick.count, p)] }
  else
    (s.bump Reg.Evc.SEQ_STALE).updHost fun h => { h with reading := 0, staleRun := h.staleRun + 1, staleOp := p.opcode }

def execCommandSlotReturn (pkt : CmdPacket) (s : State) : Result := .next (opSlot pkt s)

/-- SEQ_STALE_TIMEOUT: BAD_PARAMETER with DETAIL 4 for the expected SEQ, and the sequence moves on. -/
def opStale (s : State) : State :=
  if s.host.staleRun = 0 then s
  else
    let op := s.host.staleOp
    let s := s.fetchedNext
    s.reply .host { seq := s.host.fetched, opcode := op, status := .badParameter, final := true, detail := 4 }

def execSeqStaleTimeout (s : State) : Result := .next (opStale s)

/-! ### Windows and registers (R7, R380, R385, R386) -/

/-- The window and DMA-grant registers. -/
def rwlRegs : List Nat := windowRegs ++ dmaRegs 0 ++ dmaRegs 1 ++ dmaRegs 2 ++ dmaRegs 3

/-- The three windows are judged against the DMA windows, from the moment all of theirs are written; fetch begins at the first judgement
they pass (R386). -/
def State.judgeWindows (s : State) : State :=
  if s.host.fetching || !(windowRegs.all s.host.written.contains) then s
  else if s.windowsOk then
    ((s.updHost fun h => { h with fetching := true }).put Reg.Hwin.WINDOW_FAULT 0).put Reg.Hwin.FETCHING (bit s.host.linkUp 0)
  else s.put Reg.Hwin.WINDOW_FAULT 1

/-- A size field out of range voids the whole write (R385). -/
def sizeBad (addr v : Nat) : Bool := (addr == 0x50008 && decide (4 < v % 16)) || (addr == 0x50010 && decide (6 < v % 16))

/-- The bits of an access code in the register at an address. -/
def accessMask (addr : Nat) (a : Access) : W32 :=
  (rowsAt addr).foldl (fun m r => if r.access == a then m ||| (⟨addr, r.hi, r.lo⟩ : Fld).mask else m) 0

/-- HOST_WINDOW_WRITE: the first write sets and locks the register; a later one is ignored and counted. -/
def opWindowWrite (addr : Nat) (v : W32) (s : State) : State :=
  if !s.barOn || !rwlRegs.contains addr then s
  else if s.host.written.contains addr || sizeBad addr v.toNat then s.bump Reg.Evc.BAD_ACCESS
  else
    let s := s.setReg addr (v &&& accessMask addr .rwl)
    (s.updHost fun h => { h with written := h.written ++ [addr] }).judgeWindows

def execHostWindowWrite (addr : Nat) (value : W32) (s : State) : Result := .next (opWindowWrite addr value s)

/-- UNSUPPORTED_ACCESS: Unsupported Request, counted. -/
def opUnsupported (addr : Nat) (s : State) : State :=
  if !s.barOn then s else (s.bump Reg.Evc.BAD_ACCESS).emit (.unsupportedRequest addr)

def execUnsupportedAccess (addr _size : Nat) (s : State) : Result := .next (opUnsupported addr s)

/-- REGISTER_WRITE: by access code. Only RW1C bits and the MSI-X table take a value; RWL registers take the path of R385. -/
def opRegisterWrite (addr : Nat) (v : W32) (s : State) : State :=
  if !s.barOn then s
  else if addr % 4 ≠ 0 then opUnsupported addr s
  else if rwlRegs.contains addr then opWindowWrite addr v s
  else
    let clear := accessMask addr .rw1c
    let write := accessMask addr .rw
    if clear = 0 && write = 0 then s
    else
      let old := s.reg addr
      (s.setReg addr (((old &&& ~~~ (clear &&& v)) &&& ~~~ write) ||| (v &&& write))).unmasked

def execRegisterWrite (addr : Nat) (value : W32) (s : State) : Result := .next (opRegisterWrite addr value s)

/-! ### The host link (R379) -/

/-- HOST_LINK_DOWN: fetch stops, replies and events are held; the window registers keep their values and locks; serving goes on. The pending
bits are no part of the configuration space. -/
def opLinkDownHost (cause : LinkDownCause) (s : State) : State :=
  (s.updHost fun h => { h with linkUp := false, reading := 0, cfg := h.cfg.down cause }).put Reg.Hwin.FETCHING 0

def execHostLinkDown (cause : LinkDownCause) (s : State) : Result := .next (opLinkDownHost cause s)

/-- A link that had gone down has trained: one of the six rates, in 0.1 GT/s, and one of the three widths of R377. Which ones the two partners
negotiate is no command's operand: free values (log entry 150). -/
def State.trainHost (s : State) : State :=
  if s.host.cfg.link.isSome then s
  else
    let (r, s) := s.fresh
    let (w, s) := s.fresh
    s.updHost fun h => { h with cfg := { h.cfg with link := some ([25, 50, 80, 160, 320, 640].getD (r % 6) 640, [1, 2, 4].getD (w % 3) 4) } }

/-- A 32-bit word of the configuration header (R378). The offsets are those of a type 0 header (PRESUMED, log entry 150). -/
def CfgSpace.word (x : CfgSpace) (offset : Nat) : W32 :=
  match offset with
  | 0x00 => x.deviceId ++ x.vendorId
  | 0x04 => if x.busMaster then 4 else 0
  | 0x08 => x.classCode ++ x.revisionId
  | 0x10 => BitVec.ofNat 32 (bit x.bar0Wide 2 + bit x.bar0Prefetchable 3)
  | 0x2C => x.subsystemId ++ x.subsystemVendorId
  | 0x3C => BitVec.ofNat 32 (256 * x.interruptPin.toNat)
  | _ => 0

/-- BUS_MASTER_ENABLE in D0: fetch resumes from the next expected SEQ, held replies and events are written. -/
def opBusMaster (s : State) : State :=
  if !s.barOn then s
  else
    let s := (s.trainHost.updHost fun h => { h with linkUp := true, cfg := { h.cfg with busMaster := true, d3hot := false } }).judgeWindows
    (s.put Reg.Hwin.FETCHING (bit s.host.fetching 0)).drainRings

def execBusMasterEnable (s : State) : Result := .next (opBusMaster s)

end Sys2Proof.Machine
end

