-- ==== Sys2Proof/Machine/Pmbus.lean ====
section
/-! DEFINITION. The PMBus device of R339 and R340: pages, formats, status bits and SMBALERT#, and the alert response address. What PMBus 1.3
itself lays down (the bits of STATUS_WORD and STATUS_CML, how SMBALERT# ends) is PRESUMED, log entry 61. -/

namespace Sys2Proof.Machine

/-- The PMBus device answers in Active, Lull, Overcast and Standby (R425). -/
def State.pmAnswers (s : State) : Bool := s.start.power != .off && !s.boot.recovery

/-- A fault of communication: the CML bit of the page, SMBALERT#, and no data (R339). -/
def State.pmFault (s : State) (command b : Nat) : State :=
  let s := (s.updMgmt fun m => { m with statusCml := orAt m.statusCml m.page b }).setAlert true
  s.emit (.pmbusNack command)

/-- Invalid command, and invalid data: STATUS_CML[7] and [6]. -/
def cmlCommand : Nat := 7
def cmlData : Nat := 6

/-- A read on some pages: its bytes, or invalid command on another page. -/
def State.pmRead (s : State) (command : Nat) (onPage : Nat → Bool) (data : State → List Byte) : State :=
  if !s.pmAnswers then s
  else if onPage s.mgmt.page then s.emit (.pmbus command (data s)) else s.pmFault command cmlCommand

def anyPage (_ : Nat) : Bool := true
def realPage (p : Nat) : Bool := decide (p ≤ 23)
def segPage (p : Nat) : Bool := decide (2 ≤ p) && decide (p ≤ 23)
def inputPage (p : Nat) : Bool := decide (p ≤ 1)
def mainPage (p : Nat) : Bool := p == 0

/-- In Standby pages 2-23 read 0 (R425). -/
def State.pmQuiet (s : State) : Bool := s.start.power == .standby && segPage s.mgmt.page
def State.pmPaged (s : State) (data : List Byte) : List Byte := if s.pmQuiet then data.map fun _ => 0 else data

/-- LINEAR11 of n / d: the smallest exponent whose mantissa fits, the mantissa rounded down (log entry 98). -/
def linear11 (n d : Nat) : Nat :=
  let man (e : Nat) : Nat := n * 2 ^ 16 / (d * 2 ^ e)
  let e := ((List.range 32).find? fun e => man e ≤ 1023).getD 31
  (e + 16) % 32 * 2048 + man e % 2048

/-- The value of a LINEAR11 word in W; none where it is not a whole number of 0 or more. -/
def fromLinear11 (w : Nat) : Option Nat :=
  let m := w % 2048
  let e := w / 2048 % 32
  if 1024 ≤ m then none
  else if e < 16 then some (m * 2 ^ e)
  else if m % 2 ^ (32 - e) = 0 then some (m / 2 ^ (32 - e)) else none

/-- LINEAR16 with exponent -12 of a voltage in mV (R339). -/
def linear16 (mv : Nat) : Nat := mv * 4096 / 1000

def word (v : Nat) : List Byte := leBytes 2 v
/-- A block read: its length, then its characters. -/
def block (t : String) : List Byte := BitVec.ofNat 8 t.length :: t.toList.map fun c => BitVec.ofNat 8 c.toNat

/-! ### Status -/

def State.statusByte (s : State) (g : MgmtSt → Tbl Nat) : Nat := (g s.mgmt).getD s.mgmt.page 0
/-- A status byte, or 0 in Standby. -/
def State.statusData (s : State) (g : MgmtSt → Tbl Nat) : List Byte := s.pmPaged [BitVec.ofNat 8 (s.statusByte g)]

/-- STATUS_WORD of a page, from its status bytes and whether its converter is off. -/
def State.statusWord (s : State) : Nat :=
  let p := s.mgmt.page
  let v := s.statusByte (·.statusVout)
  let i := s.statusByte (·.statusIout)
  let n := s.statusByte (·.statusInput)
  let t := s.statusByte (·.statusTemp)
  let c := s.statusByte (·.statusCml)
  let off := segPage p && !s.power.segOn.contains (p - 2)
  bit (v ≠ 0) 15 + bit (i ≠ 0) 14 + bit (n ≠ 0) 13 + bit off 11 + bit off 6 + bit (i / 128 % 2 = 1) 4 + bit (n / 16 % 2 = 1) 3
    + bit (t ≠ 0) 2 + bit (c ≠ 0) 1

/-- Some status bit stands on some page. -/
def MgmtSt.faults (m : MgmtSt) : Bool :=
  [m.statusInput, m.statusIout, m.statusCml, m.statusTemp, m.statusVout].any fun t => t.any fun e => e.2 ≠ 0

/-! ### Commands -/

/-- PAGE: 0-23, or 0xFF for CLEAR_FAULTS. -/
def opPage (write : Option Nat) (s : State) : State :=
  if !s.pmAnswers then s
  else match write with
    | none => s.emit (.pmbus 0x00 [BitVec.ofNat 8 s.mgmt.page])
    | some p => if realPage p || p = 0xFF then s.updMgmt fun m => { m with page := p } else s.pmFault 0x00 cmlData

def execPage (write : Option Nat) (s : State) : Result := .next (opPage write s)

/-- CLEAR_FAULTS: the page's status bits, or those of every page. -/
def opClearFaults (s : State) : State :=
  if !s.pmAnswers then s
  else
    let clr (m : MgmtSt) (t : Tbl Nat) : Tbl Nat := if m.page = 0xFF then [] else t.del m.page
    let s := s.updMgmt fun m => { m with
      statusInput := clr m m.statusInput, statusIout := clr m m.statusIout, statusCml := clr m m.statusCml
      statusTemp := clr m m.statusTemp, statusVout := clr m m.statusVout }
    if s.mgmt.faults then s else s.setAlert false

def execClearFaults (s : State) : Result := .next (opClearFaults s)

def execCapability (s : State) : Result := .next (s.pmRead 0x19 anyPage fun _ => [0xB0])
def execVoutMode (s : State) : Result := .next (s.pmRead 0x20 segPage fun s => s.pmPaged [0x14])
def execStatusWord (s : State) : Result := .next (s.pmRead 0x79 realPage fun s => s.pmPaged (word s.statusWord))
def execStatusVout (s : State) : Result := .next (s.pmRead 0x7A realPage fun s => s.statusData (·.statusVout))
def execStatusIout (s : State) : Result := .next (s.pmRead 0x7B realPage fun s => s.statusData (·.statusIout))
def execStatusInput (s : State) : Result := .next (s.pmRead 0x7C realPage fun s => s.statusData (·.statusInput))
def execStatusTemperature (s : State) : Result := .next (s.pmRead 0x7D realPage fun s => s.statusData (·.statusTemp))
def execStatusCml (s : State) : Result := .next (s.pmRead 0x7E realPage fun s => s.statusData (·.statusCml))

/-- READ_VIN: the auxiliary input on page 1, else the main input, which feeds every segment. -/
def execReadVin (s : State) : Result :=
  .next (s.pmRead 0x88 realPage fun s => s.pmPaged (word (linear11 (if s.mgmt.page = 1 then s.power.auxV else s.power.vin) 1000)))

/-- READ_IIN: measured on the main input; the auxiliary and segment input currents no command carries: free values. -/
def opReadIin (s : State) : State :=
  if !s.pmAnswers then s
  else if !realPage s.mgmt.page then s.pmFault 0x89 cmlCommand
  else if s.pmQuiet then s.emit (.pmbus 0x89 (word 0))
  else if s.mgmt.page = 0 then s.emit (.pmbus 0x89 (word (linear11 s.power.iin 10)))
  else
    let (n, s) := s.fresh
    s.emit (.pmbus 0x89 (word (linear11 n 10)))

def execReadIin (s : State) : Result := .next (opReadIin s)

/-- A reading of the segment of the page, from its register. -/
def State.segReading (s : State) (g : Nat → Fld) : Nat := s.get (g (s.mgmt.page - 2))

def execReadVout (s : State) : Result := .next (s.pmRead 0x8B segPage fun s => s.pmPaged (word (linear16 (s.segReading Reg.Pow.VOUT))))
def execReadIout (s : State) : Result := .next (s.pmRead 0x8C segPage fun s => s.pmPaged (word (linear11 (s.segReading Reg.Pow.IOUT) 10)))
def execReadTemperature1 (s : State) : Result := .next (s.pmRead 0x8D segPage fun s => s.pmPaged (word (linear11 (s.segReading Reg.Pow.TEMP) 1)))
/-- READ_POUT: output voltage times output current. -/
def execReadPout (s : State) : Result :=
  .next (s.pmRead 0x96 segPage fun s => s.pmPaged (word (linear11 (s.segReading Reg.Pow.VOUT * s.segReading Reg.Pow.IOUT) 10000)))
/-- READ_PIN: the 100 ms average, main input or auxiliary. -/
def execReadPin (s : State) : Result :=
  .next (s.pmRead 0x97 inputPage fun s => word (if s.mgmt.page = 0 then linear11 s.power.p100 1 else linear11 (s.get Reg.Pow.AUX_P) 10))
def execPmbusRevision (s : State) : Result := .next (s.pmRead 0x98 anyPage fun _ => [0x33])
def execMfrId (s : State) : Result := .next (s.pmRead 0x99 anyPage fun _ => block "ILUNATH")
def execMfrModel (s : State) : Result := .next (s.pmRead 0x9A anyPage fun _ => block "YGN-2688-A")

/-- A BMC cap in W is stored: 0 clears it (R340, R343). -/
def State.setBmcCap (s : State) (w : Nat) : State := (s.updPower fun p => { p with bmcCap := if w = 0 then none else some w }).recap

/-- MFR_POWER_CAP: a write is a BMC order, applied in the next control slot (R397, R428); in Standby at once. -/
def opMfrPowerCap (write : Option Nat) (s : State) : State :=
  if !s.pmAnswers then s
  else if s.mgmt.page ≠ 0 then s.pmFault 0xD0 cmlCommand
  else match write with
    | none => s.emit (.pmbus 0xD0 (word (linear11 (s.power.bmcCap.getD 0) 1)))
    | some w => match (fromLinear11 (w % 65536)).filter fun n => n = 0 || (decide (6000 ≤ n) && decide (n ≤ 21000)) with
      | none => s.pmFault 0xD0 cmlData
      | some n =>
        if s.start.power == .standby then s.setBmcCap n
        else s.updHost fun h => { h with bmcQueue := h.bmcQueue ++ [.capWord n] }

def execMfrPowerCap (write : Option Nat) (s : State) : Result := .next (opMfrPowerCap write s)

def execMfrCapEffective (s : State) : Result := .next (s.pmRead 0xD1 mainPage fun s => word (linear11 s.power.capEff 1))
def execMfrLadder (s : State) : Result := .next (s.pmRead 0xD2 mainPage fun s => [BitVec.ofNat 8 s.power.ladder])
def execPmbusUnsupported (command : Nat) (s : State) : Result :=
  .next (if s.pmAnswers then s.pmFault command cmlCommand else s)

/-- SMBUS_ALERT_RESPONSE: while PWR_ALERT_N is asserted the device answers with its address and releases it (R339, R425). -/
def opAlertResponse (s : State) : State :=
  if s.pmAnswers && s.power.alert then (s.emit (.alertAddress 0x40)).setAlert false else s

def execSmbusAlertResponse (s : State) : Result := .next (opAlertResponse s)

end Sys2Proof.Machine
end

