-- ==== Sys2Proof/Machine/Mctp.lean ====
section
/-! DEFINITION. MCTP control messages, PLDM monitoring and SPDM attestation (R421, R422, R426, R427). Bindings: 0 PCI Express, 1 SMBus. Message
and error codes are those of the DMTF specifications that the rules name (PRESUMED, log entry 62). -/

namespace Sys2Proof.Machine

/-- An endpoint answers: SMBus with auxiliary power, PCI Express with its link up (R425, R426). -/
def State.mctpAnswers (s : State) (binding : Nat) : Bool :=
  s.start.power != .off && (binding == 1 || (binding == 0 && s.host.linkUp))

/-! ### MCTP control (R426) -/

/-- SET_ENDPOINT_ID: endpoint IDs 1-254. -/
def opSetEid (b eid : Nat) (s : State) : State :=
  if !s.mctpAnswers b then s
  else if 1 ≤ eid && eid ≤ 254 then (s.updMgmt fun m => { m with eid := m.eid.set b eid }).emit (.mctp b 0x01 [0, BitVec.ofNat 8 eid])
  else s.emit (.mctp b 0x01 [2, BitVec.ofNat 8 (s.mgmt.eid.getD b 0)])

def execSetEndpointId (binding eid : Nat) (s : State) : Result := .next (opSetEid binding eid s)

/-- An answer on a binding that answers. -/
def State.mctpSay (s : State) (b command : Nat) (data : List Byte) : State := if s.mctpAnswers b then s.emit (.mctp b command data) else s

def execGetEndpointId (binding : Nat) (s : State) : Result :=
  .next (s.mctpSay binding 0x02 [0, BitVec.ofNat 8 (s.mgmt.eid.getD binding 0)])

def execGetEndpointUuid (binding : Nat) (s : State) : Result := .next (s.mctpSay binding 0x03 (0 :: leBytes 16 Config.endpointUuid))

/-- Message types of a binding. -/
def messageTypes (b : Nat) : List Nat := if b = 0 then [0x00, 0x05] else [0x00, 0x01, 0x05, 0x7E]

/-- GET_MCTP_VERSION_SUPPORT: 1.3 for the base protocol and for each type of the binding; code 0x80 for any other type. -/
def execGetMctpVersionSupport (binding messageType : Nat) (s : State) : Result :=
  .next (s.mctpSay binding 0x04 (if messageType = 0xFF || (messageTypes binding).contains messageType then [0, 1, 1, 3] else [0x80]))

def execGetMessageTypeSupport (binding : Nat) (s : State) : Result :=
  let l := messageTypes binding
  .next (s.mctpSay binding 0x05 (0 :: BitVec.ofNat 8 l.length :: l.map (BitVec.ofNat 8)))

/-! ### PLDM (R427) -/

def State.pldmSay (s : State) (command : Nat) (data : List Byte) : State := if s.mctpAnswers 1 then s.emit (.pldm command data) else s

/-- PLDM_BASE_DISCOVERY: types 0 and 2. -/
def execPldmBaseDiscovery (command : Nat) (s : State) : Result :=
  .next (s.pldmSay command (if command = 4 then [0, 0x05] else [0]))

/-- Reading of a sensor, none: its source is lost; the outer none: no such sensor. -/
def State.sensor (s : State) (n : Nat) : Option (Option Nat) :=
  let temp (v : Nat) : Option Nat := if v = 0x8000 then none else some v
  match n with
  | 1 => some (temp (s.get Reg.Therm.INLET))
  | 2 => some (temp (s.get Reg.Therm.OUTLET))
  | 3 => some (if 3 ≤ s.thermal.flowFails then none else some (s.get Reg.Therm.FLOW))
  | 4 => some (temp (s.get Reg.Therm.TJ_MAX))
  | 5 => some (some (s.get Reg.Pow.PIN_10MS))
  | 6 => some (some (s.get Reg.Pow.CAP_EFF))
  | 7 => some (some (s.get Reg.Therm.LIFE))
  | 32 => some (some s.health.st)
  | 33 => some (some (s.get Reg.Glob.POWER_STATE))
  | 34 => some (some (bit s.thermal.trip 0))
  | _ => none

/-- PLDM_MONITORING_REQUEST: completion code, operational state (0 enabled, 3 unavailable), reading. -/
def execPldmMonitoringRequest (command sensor : Nat) (s : State) : Result :=
  .next (s.pldmSay command (match s.sensor sensor with
    | none => [0x80]
    | some none => 0 :: 3 :: leBytes 4 0
    | some (some v) => 0 :: 0 :: leBytes 4 v))

def execSetEventReceiver (eid : Nat) (s : State) : Result :=
  .next (if s.mctpAnswers 1 then (s.updMgmt fun m => { m with receiver := some eid }).emit (.pldm 0x04 [0]) else s)

/-- PLATFORM_EVENT_RETRY: unacknowledged messages are sent again, up to 10 times. -/
def opEventRetry (s : State) : State :=
  match s.mgmt.receiver with
  | none => s
  | some r =>
    let due := s.mgmt.events.filter fun e => e.2.2.2 ≤ 10
    let s := due.foldl (fun s e => s.emit (.platformEvent r e.1 e.2.1 e.2.2.1)) s
    s.updMgmt fun m => { m with events := due.map fun e => (e.1, e.2.1, e.2.2.1, e.2.2.2 + 1) }

def execPlatformEventRetry (s : State) : Result := .next (opEventRetry s)

/-- PLATFORM_EVENT_ACK: the oldest message is acknowledged. -/
def execPlatformEventAck (s : State) : Result := .next (s.updMgmt fun m => { m with events := m.events.drop 1 })

/-! ### SPDM (R421) -/

def spdmError : Nat := 0x7F
def errInvalid : Byte := 0x01
def errUnexpected : Byte := 0x04
def errUnspecified : Byte := 0x05
def errUnsupported : Byte := 0x07

def State.spdmSay (s : State) (b code : Nat) (data : List Byte) : State := s.emit (.spdm b code data)
def State.spdmFail (s : State) (b : Nat) (e : Byte) : State := s.spdmSay b spdmError [e]

/-- A request that needs the connection to have reached a stage; each binding has its own. -/
def State.spdmAt (s : State) (b stage : Nat) (k : State → State) : State :=
  if !s.mctpAnswers b then s
  else if s.mgmt.spdm.getD b 0 < stage then s.spdmFail b errUnexpected else k s

def State.spdmReach (s : State) (b stage : Nat) : State := s.updMgmt fun m => { m with spdm := m.spdm.set b stage }

/-- GET_VERSION: SPDM 1.2; the connection starts again. -/
def execGetVersion (binding : Nat) (s : State) : Result :=
  .next (s.spdmAt binding 0 fun s => (s.spdmReach binding 1).spdmSay binding 0x04 [1, 0x00, 0x12])

/-- GET_CAPABILITIES: CERT_CAP, CHAL_CAP, MEAS_CAP with signature. -/
def execGetCapabilities (binding : Nat) (s : State) : Result :=
  .next (s.spdmAt binding 1 fun s => (s.spdmReach binding 2).spdmSay binding 0x61 (leBytes 4 0x16))

/-- NEGOTIATE_ALGORITHMS: TPM_ALG_RSAPSS_4096 and TPM_ALG_SHA_512 only. -/
def execNegotiateAlgorithms (binding : Nat) (rsapss4096 sha512 : Bool) (s : State) : Result :=
  .next (s.spdmAt binding 2 fun s =>
    if rsapss4096 && sha512 then (s.spdmReach binding 3).spdmSay binding 0x63 (leBytes 4 0x40 ++ leBytes 4 0x04)
    else s.spdmFail binding errInvalid)

def chainDigest : List Byte := sha512 Config.certificateChain

def execGetDigests (binding : Nat) (s : State) : Result :=
  .next (s.spdmAt binding 3 fun s => s.spdmSay binding 0x01 (0x01 :: chainDigest))

/-- GET_CERTIFICATE: a portion of the chain of slot 0, its length and what remains. -/
def opGetCertificate (b slot offset length : Nat) (s : State) : State :=
  s.spdmAt b 3 fun s =>
    let chain := Config.certificateChain
    if slot ≠ 0 || chain.length ≤ offset then s.spdmFail b errInvalid
    else
      let part := (chain.drop offset).take length
      s.spdmSay b 0x02 (0 :: leBytes 2 part.length ++ leBytes 2 (chain.length - offset - part.length) ++ part)

def execGetCertificate (binding slot offset length : Nat) (s : State) : Result := .next (opGetCertificate binding slot offset length s)

/-- The responder's nonce: 32 bytes that no rule gives. -/
def State.spdmNonce (s : State) : List Byte × State :=
  let (n, s) := s.fresh
  (leBytes 32 n, s)

/-- CHALLENGE: signed by the identity key; with debug open ERROR Unspecified (R431). -/
def opChallenge (b slot : Nat) (nonce : List Byte) (s : State) : State :=
  s.spdmAt b 3 fun s =>
    if s.boot.debugOpen then s.spdmFail b errUnspecified
    else if slot ≠ 0 then s.spdmFail b errInvalid
    else
      let (mine, s) := s.spdmNonce
      let body := chainDigest ++ mine
      s.spdmSay b 0x03 (body ++ Config.identitySign (nonce ++ body))

def execChallenge (binding slot : Nat) (nonce : List Byte) (s : State) : Result := .next (opChallenge binding slot nonce s)

/-! ### Measurements (R422) -/

/-- A field of 64 B; with nothing behind it 0. -/
def hash64 (h : Option (List Byte)) : List Byte :=
  match h with
  | some x => (x ++ List.replicate 64 0).take 64
  | none => List.replicate 64 0

/-- The running boot image. -/
def BootSt.running (b : BootSt) : BootInfo := b.info b.bootImage

/-- The stratum configuration of measurement 7: link plan, star chart, airspace definitions, service addresses, default cap. -/
def State.stored (s : State) : List Nat :=
  let list (l : List Nat) : List Nat := l.length :: l
  let opt (o : Option Nat) : Nat := (o.map (· + 1)).getD 0
  let plan := s.links.storedPlan
  let x (a : Nat) := s.asp a
  [plan.modules, s.links.storedMaster.getD plan.master, plan.mode] ++ list (plan.groups.flatMap fun g => [g.ports, g.neighbour, bit g.equiv 0])
    ++ list (s.links.storedChart.flatMap fun e => [e.1, e.2])
    ++ ((List.range 8).flatMap fun a => [opt (x a).placement, (x a).slotShare, (x a).kvShare, (x a).cloudShare, (x a).powerShare, (x a).waitMax,
        (x a).waitLimit, (x a).contHold, (x a).contrailHold, (x a).pauseTtl, (x a).slots16k, (x a).slots32k, (x a).slots128k, (x a).pool, (x a).window,
        (x a).egressCap, (x a).temperature.toNat, (x a).topP.toNat, (x a).topK, (x a).minP.toNat])
    ++ ((List.range 8).flatMap fun a => list ((x a).addresses.flatMap fun e => [e.1, e.2.1, e.2.2]) ++ [opt (x a).ipv4, (x a).udpPort, (x a).vlan]
        ++ list ((x a).filters.flatMap fun e => [e.1, e.2]))
    ++ [s.power.storedCap]

/-- Blocks that are taken from state; block 7 is SHA-512 over the stored form. -/
def State.measurement (s : State) (i : Nat) : Option (List Byte) :=
  let b := s.boot
  if i = 1 then some Config.romDigest
  else if 2 ≤ i && i ≤ 5 then some (hash64 ((b.running.hashes.find? fun e => e.1 = i - 1).map Prod.snd))
  else if i = 6 then
    some ([b.counter, b.revoked, b.keySlot, b.bootImage, b.running.svn, bit b.debugOpen 0, bit b.wpOpen 0].map (BitVec.ofNat 8) ++ List.replicate 9 0)
  else if i = 7 then some (sha512 (Config.storedForm s.stored))
  else if 16 ≤ i && i < 24 then
    let x := s.asp (i - 16)
    let live := x.placement.bind fun p => if (s.plc p).live then (s.plc p).image else none
    let f (g : Image → Nat) : Nat := (live.map g).getD 0
    some (BitVec.ofNat 8 (x.placement.getD 0xFF) :: List.replicate 7 0 ++ leBytes 8 (f fun i => i.imageId) ++ leBytes 4 (f fun i => i.version)
      ++ List.replicate 4 0 ++ hash64 (live.map fun i => i.headerHash) ++ [0, 1, 2, 3].flatMap fun n => hash64 ((x.keys.find n).map sha512))
  else if 24 ≤ i && i < 28 then
    let x := s.plc (i - 24)
    let other := if x.imageState == .staged || x.imageState == .previous then x.staged else none
    some ([bit x.live 0, x.liveBank, x.imageState.code].map (BitVec.ofNat 8) ++ List.replicate 5 0
      ++ hash64 (if x.live then x.image.map fun i => i.headerHash else none) ++ hash64 (other.map fun i => i.headerHash))
  else none

/-- Indices of all blocks. -/
def measureIndices : List Nat := [1, 2, 3, 4, 5, 6, 7] ++ (List.range 8).map (· + 16) ++ (List.range 4).map (· + 24)

/-- One block: index, length, value. -/
def State.measureBlock (s : State) (i : Nat) : List Byte :=
  let v := (s.measurement i).getD []
  BitVec.ofNat 8 i :: leBytes 2 v.length ++ v

/-- GET_MEASUREMENTS: index 0 the number of blocks, 0xFF all of them, taken in one control slot. -/
def opMeasurements (b index : Nat) (signed : Bool) (nonce : List Byte) (s : State) : State :=
  s.spdmAt b 3 fun s =>
    if signed && s.boot.debugOpen then s.spdmFail b errUnspecified
    else if index ≠ 0 && index ≠ 0xFF && !measureIndices.contains index then s.spdmFail b errInvalid
    else
      let want := if index = 0 then [] else if index = 0xFF then measureIndices else [index]
      let body := (if index = 0 then BitVec.ofNat 8 measureIndices.length else BitVec.ofNat 8 want.length) :: want.flatMap s.measureBlock
      if signed then
        let (mine, s) := s.spdmNonce
        s.spdmSay b 0x60 (body ++ mine ++ Config.identitySign (nonce ++ body ++ mine))
      else s.spdmSay b 0x60 body

def execGetMeasurements (binding index : Nat) (signed : Bool) (nonce : List Byte) (s : State) : Result :=
  .next (opMeasurements binding index signed nonce s)

/-- Any other request: ERROR UnsupportedRequest, naming it. -/
def execSpdmUnsupportedRequest (binding code : Nat) (s : State) : Result :=
  .next (if s.mctpAnswers binding then s.spdmSay binding spdmError [errUnsupported, BitVec.ofNat 8 code] else s)

end Sys2Proof.Machine
end

