-- ==== Sys2Proof/Machine/Jtag.lean ====
section
/-! DEFINITION. The JTAG test access port (R430). -/

namespace Sys2Proof.Machine

/-- BYPASS: one register bit, captured as 0, between TDI and TDO. -/
def State.bypass (s : State) (tdi : List Bool) : State :=
  let s := s.updMgmt fun m => { m with tdo := tdi.getLastD m.tdo, extest := false }
  s.emit (.jtag ((false :: tdi).take tdi.length))

def execBypass (tdi : List Bool) (s : State) : Result := .next (s.bypass tdi)

/-- IDCODE 0x1268_8A93, least significant bit first. -/
def idcodeBits : List Bool := (List.range 32).map fun i => 0x12688A93 / 2 ^ i % 2 == 1

def execIdcode (s : State) : Result := .next ((s.updMgmt fun m => { m with extest := false }).emit (.jtag idcodeBits))

/-- SAMPLE/PRELOAD: the connector signals as they stand; they are held for EXTEST. -/
def execSamplePreload (pins : List Bool) (s : State) : Result :=
  .next ((s.updMgmt fun m => { m with scan := pins, extest := false }).emit (.jtag pins))

/-- EXTEST and FLASH_PROG are available in Standby and ROM recovery only. -/
def State.jtagFree (s : State) : Bool := s.start.power == .standby || s.boot.recovery

/-- EXTEST drives the connector signals; elsewhere it acts as BYPASS. -/
def execExtest (s : State) : Result :=
  .next (if s.jtagFree then (s.updMgmt fun m => { m with extest := true }).emit (.jtag s.mgmt.scan) else s.bypass [])

/-- FLASH_PROG writes a code area; without its conditions it acts as BYPASS. -/
def opFlashProg (image offset : Nat) (data : List Byte) (s : State) : State :=
  if s.jtagFree && s.boot.wpOpen && image ≤ 1 && offset + data.length ≤ 16777216 then
    let old := (s.boot.area image).bytes
    s.updBoot fun b => b.setArea image ⟨false, old.writeBytes offset data⟩
  else s.bypass []

def execFlashProg (image offset : Nat) (data : List Byte) (s : State) : Result := .next (opFlashProg image offset data s)

/-- DEBUG acts as BYPASS until a debug token has been accepted; then it acts on the debug unit, which the manual does not describe. -/
def execDebug (s : State) : Result := if s.boot.debugOpen then .refused .debugUnit else .next (s.bypass [])

end Sys2Proof.Machine
end

