-- ==== Sys2Proof/Machine/Trust.lean ====
section
/-! DEFINITION. The security family of host commands: publisher keys (R423, R424) and firmware updates (R419). -/

namespace Sys2Proof.Machine

/-- What the module reads from BUFFER. -/
def CmdHdr.read (h : CmdHdr) : List Byte := h.data.take h.bufferLen

/-- A key hash enrolled in an airspace. -/
def AirspaceSt.enrolled (x : AirspaceSt) (hash : List Byte) : Bool := x.keys.any fun e => sha512 e.2 == hash

/-- KEY_ENROL (R423). -/
def opKeyEnrol (h : CmdHdr) (a slot : Nat) (s : State) : State :=
  s.ordered h 0x0A01 fun s =>
    s.checked h 0x0A01 [(32, airspaceOk a), (33, decide (slot ≤ 3))] fun s =>
      if !s.dmaOk h.buffer h.bufferLen then (s.bump Reg.Ceil.DMA_BLOCKED).answer h 0x0A01 .notPermitted
      else
        let key := CmdHdr.read h
        let hash := sha512 key
        if (derModulus key).isNone then s.badParam h 0x0A01 8
        else if (s.asp a).keys.has slot then s.answer h 0x0A01 .busy
        else if (s.asp a).enrolled hash then s.badParam h 0x0A01 8
        else if (List.range 8).any fun b => b ≠ a && (s.asp b).enrolled hash then s.answer h 0x0A01 .notPermitted
        else ((s.updAsp a fun x => { x with keys := x.keys.set slot key }).gaugeKeys).answer h 0x0A01 .ok

def execKeyEnrol (h : CmdHdr) (airspace slot : Nat) (s : State) : Result := .next (opKeyEnrol h airspace slot s)

/-- KEY_REVOKE empties the slot at once, unless its key is in use (R424). -/
def opKeyRevoke (h : CmdHdr) (a slot : Nat) (s : State) : State :=
  s.ordered h 0x0A02 fun s =>
    s.checked h 0x0A02 [(32, airspaceOk a), (33, decide (slot ≤ 3))] fun s =>
      if s.keyInUse a slot then s.answer h 0x0A02 .busy
      else ((s.updAsp a fun x => { x with keys := x.keys.del slot }).gaugeKeys).answer h 0x0A02 .ok

def execKeyRevoke (h : CmdHdr) (airspace slot : Nat) (s : State) : Result := .next (opKeyRevoke h airspace slot s)

/-- FIRMWARE_UPDATE: the checks of R419 in order; then the code area is erased and written. -/
def opFirmwareUpdate (h : CmdHdr) (image : Nat) (s : State) : State :=
  s.ordered h 0x0A03 fun s =>
    s.checked h 0x0A03 [(16, decide (4096 ≤ h.bufferLen) && decide (h.bufferLen ≤ 16777216)), (32, decide (image ≤ 1))] fun s =>
      let data := CmdHdr.read h
      let i := bootInfoOf data
      if !s.dmaOk h.buffer h.bufferLen then (s.bump Reg.Ceil.DMA_BLOCKED).answer h 0x0A03 .notPermitted
      else if !s.boot.wpOpen then s.answer h 0x0A03 .notPermitted
      else if s.boot.update.isSome then s.answer h 0x0A03 .busy
      else if !s.boot.passes (1 - image) then s.answer h 0x0A03 .notPermitted
      else if !bootWellFormed data h.bufferLen then s.badParam h 0x0A03 8
      else if !s.boot.admits i || !i.whole then s.answer h 0x0A03 .signatureInvalid
      else
        let s := s.updBoot fun b => { b.setArea image ⟨false, []⟩ with update := some ⟨image, data, h.seq, opOf h 0x0A03⟩ }
        ((s.put Reg.Sec.UPDATING 1).put Reg.Sec.UPDATE_BYTES 0).pend h 0x0A03 []

def execFirmwareUpdate (h : CmdHdr) (image : Nat) (s : State) : Result := .next (opFirmwareUpdate h image s)

/-- FIRMWARE_WRITE_COMPLETE: read back and checked again; on success the preference names the image and fuses are asked for (R418). A write
that FLASH_WP_N meanwhile protects is blocked and counted, and its read-back fails (R429). -/
def opFirmwareDone (ok : Bool) (s : State) : State :=
  match s.boot.update with
  | none => s
  | some u =>
    let s := (s.updBoot fun b => { b with update := none }).put Reg.Sec.UPDATING 0
    let s := s.put Reg.Sec.UPDATE_BYTES u.data.length
    let wrote := s.boot.wpOpen
    let s := if wrote then s else s.flashBlocked
    if ok && wrote then
      let s := s.updBoot fun b => { b.setArea u.image ⟨false, Mem.writeBytes [] 0 u.data⟩ with preference := some u.image }
      s.askFuses.finalReply .host u.cmdSeq u.cmdOp .ok
    else
      (s.mark Reg.Sec.UPDATE_FAILED).reply .host { seq := u.cmdSeq, opcode := u.cmdOp, status := .badParameter, final := true, detail := 8 }

def execFirmwareWriteComplete (readBackOk : Bool) (s : State) : Result := .next (opFirmwareDone readBackOk s)

end Sys2Proof.Machine
end

