-- ==== Sys2Proof/Machine/Packet.lean ====
section
/-! DEFINITION. Command packets (R389, R401, R402): reading a packet as the command that its opcode names, the order of a command, and the
packets of the BMC channel (R428). -/

namespace Sys2Proof

/-! ### Reading a packet -/

/-- The basic opcode: bit 7 of the low byte marks the expert form (R401). -/
def CmdPacket.basic (p : CmdPacket) : Nat := if p.opcode / 128 % 2 = 1 then p.opcode - 128 else p.opcode
def CmdPacket.expert (p : CmdPacket) : Bool := p.opcode / 128 % 2 == 1

/-- n bytes of the packet from byte o, little-endian. -/
def CmdPacket.at (p : CmdPacket) (o n : Nat) : Nat := Machine.fieldAt p.params (o - 32) n

/-- A parameter that only the expert form carries: all one-bits in the basic form, which leaves a setting unchanged (R401, R402). -/
def CmdPacket.more (p : CmdPacket) (o n : Nat) : Nat := if p.expert then p.at o n else 2 ^ (8 * n) - 1

/-- What the packet carries beside its parameters. -/
def CmdPacket.header (p : CmdPacket) (src : Src) : CmdHdr := ⟨src, p.seq, p.expert, p.buffer, p.bufferLen, p.data⟩

/-- The link plan of SET_LINK_PLAN (R310, R409). -/
def CmdPacket.linkPlan (p : CmdPacket) : LinkPlan :=
  ⟨p.at 32 1, p.at 33 1, p.at 34 1, (List.range (p.at 36 1)).map fun i => ⟨p.at (38 + 4 * i) 2, p.at (40 + 4 * i) 1, p.at (41 + 4 * i) 1 % 2 == 1⟩⟩

/-- Device and power families (R403, R404). -/
def CmdPacket.device (p : CmdPacket) (h : CmdHdr) : Option Instr :=
  match p.basic with
  | 0x0101 => some (.deviceInfo h (p.more 32 1))
  | 0x0102 => some (.moduleReset h (p.more 32 1))
  | 0x0103 => some (.zenithRestart h (p.more 32 1))
  | 0x0104 => some (.powerState h (p.at 32 1) (p.more 40 8))
  | 0x0105 => some (.fieldReset h (p.at 32 1))
  | 0x0106 => some (.setStretch h (p.at 32 1) (p.more 33 1) (p.more 34 1))
  | 0x0107 => some (.setGranted h (p.at 32 1) (p.at 33 1) (p.more 40 8))
  | 0x0108 => some (.setCore h (p.at 32 1) (p.more 36 4) (p.more 40 1) (p.more 42 2))
  | 0x0201 => some (.setCap h (p.at 32 4) (p.more 36 4))
  | 0x0202 => some (.setBreaker h (p.at 32 1) (p.at 33 1) (p.at 34 2) (p.more 36 1))
  | 0x0203 => some (.setLead h (p.at 32 1))
  | 0x0204 => some (.setThermal h (p.at 32 1) (p.more 33 1) (p.more 34 1))
  | _ => none

/-- Weights, adapter and tuning families (R405, R407). -/
def CmdPacket.weights (p : CmdPacket) (h : CmdHdr) : Option Instr :=
  match p.basic with
  | 0x0301 => some (.install h (p.at 32 1) (p.at 33 1) (p.at 40 16) (p.more 56 4) (p.more 60 1))
  | 0x0302 => some (.installCancel h (p.at 32 1))
  | 0x0303 => some (.flip h (p.at 32 1) (p.more 34 2))
  | 0x0304 => some (.planLoad h (p.at 32 1) (p.more 34 2) (p.more 36 1) (p.more 37 1))
  | 0x0305 => some (.rebuild h (p.at 32 1) (p.at 33 1) (p.at 40 16) (p.more 56 4) (p.more 64 16))
  | 0x0306 => some (.repair h (p.at 32 1) (p.at 33 1) (p.at 40 16) (p.more 56 1) (p.more 60 4))
  | 0x0307 => some (.removePlacement h (p.at 32 1))
  | 0x0308 => some (.setWeights h (p.at 32 4) (p.more 36 1))
  | 0x0501 => some (.adapterLoad h (p.at 32 1) (p.at 33 1) (p.at 34 1) (p.at 40 16) (p.more 56 4))
  | 0x0502 => some (.adapterRemove h (p.at 32 1) (p.at 33 1) (p.at 34 1))
  | 0x0503 => some (.tuneStart h (p.at 32 1) (p.at 33 1) (p.at 34 1) (p.at 40 16) (p.more 56 4))
  | 0x0504 => some (.tuneStop h (p.at 32 1))
  | 0x0505 => some (.tuneCommit h (p.at 32 1))
  | 0x0506 => some (.tuneDiscard h (p.at 32 1))
  | _ => none

/-- Session family (R406). -/
def CmdPacket.session (p : CmdPacket) (h : CmdHdr) : Option Instr :=
  match p.basic with
  | 0x0401 => some (.sessionQuery h (p.at 32 4))
  | 0x0402 =>
    let further := if p.expert then (List.range (p.at 36 1)).map fun i => p.at (40 + 4 * i) 4 else []
    some (.sessionCancel h (p.at 32 4 :: further))
  | 0x0403 => some (.sessionPause h (p.at 32 4) (p.more 36 4))
  | 0x0404 => some (.sessionList h (p.at 32 1) (p.at 33 1) (p.more 34 2))
  | 0x0405 => some (.prefixUnregister h (p.at 32 1) (p.at 36 4))
  | 0x0406 => some (.setRound h (p.at 32 1) (p.at 34 2))
  | 0x0407 => some (.setSessionLimits h (p.at 32 1) (p.at 34 2) (p.more 36 2) (p.more 40 4) (p.more 44 4))
  | 0x0408 => some (.setSampling h (p.at 32 1) (p.at 36 4) (p.more 40 4) (p.more 44 2) (p.more 48 4))
  | 0x0409 => some (.setKv h (p.at 32 1) (p.at 36 4) (p.more 40 2) (p.more 42 2) (p.more 44 2) (p.more 46 2) (p.more 48 4))
  | _ => none

/-- Airspace, link, diagnostic, event and security families (R408-R412). -/
def CmdPacket.service (p : CmdPacket) (h : CmdHdr) : Option Instr :=
  match p.basic with
  | 0x0601 => some (.airspaceBind h (p.at 32 1) (p.at 33 1))
  | 0x0602 => some (.airspaceUnbind h (p.at 32 1))
  | 0x0603 => some (.airspaceReset h (p.at 32 1))
  | 0x0604 => some (.setShares h (p.at 32 1) (p.at 33 1) (p.more 34 1) (p.more 35 1) (p.more 36 1))
  | 0x0605 =>
    some (.setAddress h (p.at 32 1) (p.at 33 1) (p.at 40 16) (p.at 56 1) (p.more 58 2) (p.more 60 2) (p.more 62 1) (p.more 64 16))
  | 0x0606 => some (.setFilter h (p.at 32 1) (p.at 33 1))
  | 0x0607 => some (.setDestination h (p.at 32 1) (p.at 33 1) (p.at 34 1) (p.at 36 2) (p.at 40 16))
  | 0x0608 => some (.setEgress h (p.at 32 1) (p.at 34 2))
  | 0x0609 => some (.setEthPort h (p.at 32 1) (p.at 34 2) (p.more 36 2))
  | 0x0701 => some (.setLinkPlan h p.linkPlan)
  | 0x0702 => some (.setStarChart h ((List.range 12).map fun i => (p.at (32 + 2 * i) 1, p.at (33 + 2 * i) 1)))
  | 0x0703 => some (.portReset h (p.at 32 1))
  | 0x0704 => some (.routeTable h (p.at 32 8) ((List.range 64).map fun i => p.at (40 + i) 1))
  | 0x0705 => some (.setLinkLimits h (p.at 32 1) (p.more 34 2))
  | 0x0801 => some (.selfTest h (p.at 32 1))
  | 0x0802 => some (.calibrate h (p.at 32 1))
  | 0x0803 => some (.snapshot h (p.at 32 4) (p.at 36 4))
  | 0x0901 => some (.clearCounters h (p.at 32 1) (p.more 33 1))
  | 0x0902 => some (.eventMask h (BitVec.ofNat 32 (p.at 32 4)))
  | 0x0A01 => some (.keyEnrol h (p.at 32 1) (p.at 33 1))
  | 0x0A02 => some (.keyRevoke h (p.at 32 1) (p.at 33 1))
  | 0x0A03 => some (.firmwareUpdate h (p.at 32 1))
  | _ => none

/-- The command of a packet; none: an opcode outside the tables (R401). -/
def CmdPacket.order (p : CmdPacket) (src : Src) : Option Instr :=
  let h := p.header src
  (p.device h).or ((p.weights h).or ((p.session h).or (p.service h)))

/-- Offset of the first reserved byte that is not 0 (R8, R389, R392). -/
def CmdPacket.reservedFault (p : CmdPacket) : Option Nat :=
  (List.range 14).findSome? fun i => if p.reserved / 256 ^ i % 256 = 0 then none else some (if i < 2 then 2 + i else 18 + i)

/-- Reserved parameter bits of SET_LINK_PLAN: byte 35, and bits 7 to 1 of a group's flags, as (offset, in range). -/
def CmdPacket.planReserved (p : CmdPacket) : List (Nat × Bool) :=
  if p.basic ≠ 0x0701 then []
  else (35, p.at 35 1 == 0) :: (List.range (min 6 (p.at 36 1))).map fun i => (41 + 4 * i, decide (p.at (41 + 4 * i) 1 < 2))

/-- The first faulty byte that does not depend on the module's state. -/
def CmdPacket.fault (p : CmdPacket) (src : Src) : Option Nat :=
  match p.reservedFault with
  | some o => some o
  | none =>
    if src == .bmc && p.buffer ≠ 0 then some 8
    else if 16777216 < p.bufferLen then some 16
    else none

end Sys2Proof

namespace Sys2Proof.Machine

/-! ### Orders -/

/-- A command of the packet families, carried out. -/
def State.order (i : Instr) (s : State) : State :=
  match i with
  | .deviceInfo h page => opDeviceInfo h page s
  | .moduleReset h hold => opModuleReset h hold s
  | .zenithRestart h image => opZenithRestart h image s
  | .powerState h want at_ => opPowerState h want at_ s
  | .fieldReset h f => s.fieldReset h 0x0105 f
  | .setStretch h c w r => opSetStretch h c w r s
  | .setGranted h p share at_ => opSetGranted h p share at_ s
  | .setCore h a b c d => opSetCore h a b c d s
  | .setCap h cap stored => opSetCap h cap stored s
  | .setBreaker h f d th clear => opSetBreaker h f d th clear s
  | .setLead h lead => opSetLead h lead s
  | .setThermal h limit guard sw => opSetThermal h limit guard sw s
  | .install h p a src limit older => opInstall h p a src limit older s
  | .installCancel h p => opInstallCancel h p s
  | .flip h p limit => opFlip h p limit s
  | .planLoad h p period sized replay => opPlanLoad h p period sized replay s
  | .rebuild h p a src limit fields => opRebuild h p a src limit fields s
  | .repair h p a src field slot => opRepair h p a src field slot s
  | .removePlacement h p => opRemove h p s
  | .setWeights h rollback twin => opSetWeights h rollback twin s
  | .adapterLoad h p a id src limit => opAdapterLoad h p a id src limit s
  | .adapterRemove h p a id => opAdapterRemove h p a id s
  | .tuneStart h p a id src limit => opTuneStart h p a id src limit s
  | .tuneStop h p => opTuneStop h p s
  | .tuneCommit h p => opTuneCommit h p s
  | .tuneDiscard h p => opTuneDiscard h p s
  | .sessionQuery h n => opSessionQuery h n s
  | .sessionCancel h l => opSessionCancel h l s
  | .sessionPause h n ttl => opSessionPause h n ttl s
  | .sessionList h a mask first => opSessionList h a mask first s
  | .prefixUnregister h a x => opPrefixUnregister h a x s
  | .setRound h p r => opSetRound h p r s
  | .setSessionLimits h a l w c k => opSessionLimits h a l w c k s
  | .setSampling h a t p k m => opSetSampling h a t p k m s
  | .setKv h a t x y z pool w => opSetKv h a t x y z pool w s
  | .airspaceBind h a p => opBind h a p s
  | .airspaceUnbind h a => opUnbind h a s
  | .airspaceReset h a => opAirspaceReset h a s
  | .setShares h a x y z w => opSetShares h a x y z w s
  | .setAddress h a i addr len u v d x => opSetAddress h a i addr len u v d x s
  | .setFilter h a n => opSetFilter h a n s
  | .setDestination h a e p u addr => opSetDestination h a e p u addr s
  | .setEgress h a cap => opSetEgress h a cap s
  | .setEthPort h p mtu cap => opSetEthPort h p mtu cap s
  | .setLinkPlan h plan => opSetLinkPlan h plan s
  | .setStarChart h l => opSetStarChart h l s
  | .portReset h p => opPortReset h p s
  | .routeTable h at_ l => opRouteTable h at_ l s
  | .setLinkLimits h x y => opSetLinkLimits h x y s
  | .selfTest h f => opSelfTest h f s
  | .calibrate h f => s.fieldReset h 0x0802 f
  | .snapshot h o n => opSnapshot h o n s
  | .clearCounters h b f => opClearCounters h b f s
  | .eventMask h m => opEventMask h m s
  | .keyEnrol h a n => opKeyEnrol h a n s
  | .keyRevoke h a n => opKeyRevoke h a n s
  | .firmwareUpdate h i => opFirmwareUpdate h i s
  | _ => s

/-- Insert a check by its offset, behind those at or before it. -/
def insertCheck (x : Nat × Bool) : List (Nat × Bool) → List (Nat × Bool)
  | [] => [x]
  | y :: ys => if y.1 ≤ x.1 then y :: insertCheck x ys else x :: y :: ys

/-- A packet is applied: unknown opcode, faulty field, or its command's rule. -/
def State.applyPacket (s : State) (src : Src) (p : CmdPacket) : State :=
  let h := p.header src
  match p.order src with
  | none => s.reply src { seq := p.seq, opcode := p.opcode, status := .badOpcode, final := true }
  | some i =>
    match p.fault src with
    | some o => s.badParam h p.basic o
    | none =>
      -- a reserved bit of SET_LINK_PLAN takes its place among the faults of the plan
      if p.planReserved.all (·.2) then s.order i
      else match firstBad (p.planReserved.foldl (fun l x => insertCheck x l) (planFault p.linkPlan (!s.links.storedChart.isEmpty))) with
        | some o => s.badParam h p.basic o
        | none => s.order i

/-! ### The BMC channel (R428) -/

/-- BMC_COMMAND: a packet whose opcode is not permitted is answered at once; others wait for the control slot, and in Standby POWER_STATE and
DEVICE_INFO are carried out at once. -/
def opBmcCommand (p : CmdPacket) (s : State) : State :=
  if s.start.power == .off || s.boot.recovery then s
  else if !s.mayOrder (p.header .bmc) p.basic then
    s.reply .bmc { seq := p.seq, opcode := p.opcode, status := .notPermitted, final := true }
  else if s.start.power == .standby then s.applyPacket .bmc p
  else s.updHost fun x => { x with bmcQueue := x.bmcQueue ++ [.packet p] }

def execBmcCommand (pkt : CmdPacket) (s : State) : Result := .next (opBmcCommand pkt s)

end Sys2Proof.Machine
end

