-- ==== Sys2Proof/Machine/Rows.lean ====
section
/-! DEFINITION. What a boundary does to the sessions: the traversals that end (R213, R218, R224, R228, R237, R256), rounds and lanes
(R214, R215), the words the steward learnt to be uncorrectable (R366), stalls (R367), and the row tables of the coming tick
(R90, R212, R213, R271). -/

namespace Sys2Proof.Machine

/-! ### Slots in a tick (R212) -/

/-- The phase that a stage serves in tick k. -/
def PlacementSt.phaseAt (x : PlacementSt) (k stage : Nat) : Nat := (((k : Int) - stage - x.bL) % (x.ns : Int)).toNat

/-- The current round of a phase. -/
def PlacementSt.phase (x : PlacementSt) (ph : Nat) : Phase :=
  x.phases.getD ph { start := x.bL + ph, r := x.round, depth := x.plan.maxDepth }

/-- The session whose traversal a stage computes in decode row `lane` in tick k. -/
def State.rowSession (s : State) (p k stage lane : Nat) : Option Nat :=
  let x := s.plc p
  let ph := x.phaseAt k stage
  match x.lanes.find (slotIx ph lane) with
  | none => none
  | some l =>
    let d := s.sess l.session
    if d.placement = p && d.lane == some lane && d.phase == some ph && d.inSlot && decide (l.from_ + stage ≤ k) && decide (d.enterAt + stage ≤ k)
        && decide (lane < (x.phase ph).depth) then some l.session else none

/-! ### Dropped rows of the tick that ends (R41, R47, R92) -/

/-- A prefill position was dropped: its booking is spoilt from there on. -/
def State.spoil (s : State) (n pos : Nat) : State :=
  let start := (s.sess n).pos
  let hit (x : PlacementSt) (b : Booking) : Booking :=
    let a := x.bookingStart start b
    if b.session == n && decide (a ≤ pos) && decide (pos < a + b.rows) then { b with spoilt := some (min (b.spoilt.getD b.rows) (pos - a)) } else b
  s.updPlc (s.sess n).placement fun x => { x with ledger := x.ledger.map (hit x) }

/-- Note the traversals that some core dropped. -/
def State.noteDrops (s : State) : State :=
  s.cores.foldl (fun s e =>
    let s := (e.2.decRows.filter fun r => r.2.valid && r.2.drop).foldl (fun s r =>
      s.updSess r.2.session fun d => if d.st == .draining then d else { d with travDropped := true }) s
    (e.2.preRows.filter fun r => r.2.valid && r.2.drop && r.2.session < 4096).foldl (fun s r => s.spoil r.2.session r.2.pos) s) s

/-! ### Words found uncorrectable (R366) -/

/-- The core and word that programs name for a physical word (R80). -/
def State.namedWord (s : State) (c lin : Nat) : Nat × Nat :=
  match (s.field (coreField c)).absMap.find? fun e => e.2.2.1 == coreNum c && e.2.2.2 == segOf lin with
  | some (dead, seg, _, _) => (32 * coreField c + dead, 2048 * seg + lin % 2048)
  | none => (c, lin)

/-- The version slot of a placement that holds a segment of a core: ID, owner and slot. -/
def PlacementSt.slotAt (x : PlacementSt) (c seg : Nat) : Option (Nat × Nat × AdapterSlot) :=
  x.adapters.findSome? fun e => (e.2.slotA.toList ++ e.2.slotB.toList).findSome? fun v =>
    if v.cores.any fun q => q.1 = c && decide (q.2.1 ≤ seg) && decide (seg < q.2.1 + q.2.2.1) then some (e.1, e.2.owner, v) else none

/-- A version slot is loaded again from its backing copy; without one the version is lost, and its sessions end FAULT (R366). -/
def State.reloadVersion (s : State) (p id owner : Nat) (v : AdapterSlot) : State :=
  match s.readPages owner v.backing ((v.cores.map fun q => 32 * q.2.2.2).foldl (· + ·) 0) with
  | some bytes => s.fillSlot v.cores bytes
  | none =>
    let s := s.event { code := 0x0307, placement := p, airspace := owner, detail := [(40, id), (42, v.version % 256), (43, v.version / 256)] }
    let mine := s.sessIds.filter fun n =>
      let d := s.sess n
      d.placement = p && d.adapterId == some id && d.adapterVersion = v.version && (d.st.promises || d.st == .draining)
    (s.forAll mine fun s n => s.endSession n 5).releaseVersion p id v.version

/-- The session whose region holds a word of a core, and whether the word is of its block map. -/
def State.regionAt (s : State) (c lin : Nat) : Option (Nat × Bool) :=
  s.sessIds.findSome? fun n => (s.sess n).regions.findSome? fun r =>
    let (split, _) := s.kvShare c
    let map := mapWords r.2.2.1 split
    if r.1 = c && decide (r.2.1 ≤ lin) && decide (lin < r.2.1 + map + mapEntries r.2.2.1 split * s.kvBlock c) then some (n, decide (lin < r.2.1 + map)) else none

/-- The page identity of an airspace whose slot holds a word of a core. -/
def State.pageAt (s : State) (c lin : Nat) : Option (Nat × Nat) :=
  (List.range 8).findSome? fun a => (s.asp a).carvings.findSome? fun cv =>
    if cv.core ≠ c then none
    else (cv.pageSlots.findSome? fun ps => if ps.1 ≤ lin && lin < ps.1 + 4 * s.kvBlock c then ps.2 else none).map fun id => (a, id)

/-- The session whose sampling block holds a word of a core. -/
def State.blockAt (s : State) (c lin : Nat) : Option Nat :=
  s.sessIds.find? fun n =>
    let d := s.sess n
    match d.phase, d.lane with
    | some ph, some l =>
      let b := (s.core c).sampleBlk ((s.plc d.placement).blockOf (slotIx ph l))
      (s.sampleCores d.placement).contains c && decide (b ≤ lin) && decide (lin < b + 18)
    | _, _ => false

/-- One word that an uncorrectable read found, by what it holds. -/
def State.reloadWord (s : State) (c lin : Nat) : State :=
  if (s.core c).tags.getD (segOf lin) 0xF = 8 then s else
  let f := coreField c
  let s := s.updCore c fun k => { k with reloads := without k.reloads lin }
  let (c', lin') := s.namedWord c lin
  match (s.field f).placement with
  | none => s
  | some p =>
    match (s.plc p).slotAt c' (segOf lin') with
    | some (id, owner, v) => s.reloadVersion p id owner v
    | none =>
      match s.regionAt c' lin' with
      | some (n, true) => s.writeMaps n
      | some (n, false) => s.loseKv n
      | none =>
        match s.pageAt c' lin' with
        | some (a, id) =>
          let l := ((s.asp a).prefixes.filter fun e => e.2.st != .free && e.2.pages.contains id).map Prod.fst
          let s := s.forAll l fun s e => s.dropPrefix a e (some f)
          -- a page that came back from the Cloudbank has no entry (R203)
          s.forAll (s.sessIds.filter fun n => (s.sess n).airspace = a && (s.sess n).pages.contains id) State.loseKv
        | none =>
          match s.blockAt c' lin' with
          | some n => s.writeSampling n
          | none => s

/-- Every word that the tick's reads found uncorrectable. -/
def State.settleWords (s : State) : State :=
  s.cores.foldl (fun s e => e.2.reloads.foldl (fun s lin => s.reloadWord e.1 lin) s) s

/-- Adapters, block maps and sampling blocks of a placement are put where its cores now stand (R80, R166). -/
def State.refill (s : State) (p : Nat) : State :=
  let s := (s.plc p).adapters.foldl (fun s e =>
    (e.2.slotA.toList ++ e.2.slotB.toList).foldl (fun s v => s.reloadVersion p e.1 e.2.owner v) s) s
  s.forAll (s.sessIds.filter fun n => (s.sess n).placement = p && !(s.sess n).regions.isEmpty) fun s n => (s.writeMaps n).writeSampling n

/-! ### Tokens (R213, R224, R228, R235, R255) -/

/-- The end reason of the token produced from an input position; 0: the session goes on (R228). -/
def Desc.endOf (d : Desc) (input tok idx : Nat) : Nat :=
  let stop := match d.sampling with
    | some x => x.stopIds.contains tok
    | none => false
  if stop then 1 else if d.limitAsked ≠ 0 && idx = d.limitAsked then 2 else if input + 1 = classLen d.cls then 3 else 0

/-- A token is released at boundary k: its record, the history, the marks, and the end where one applies. -/
def State.releaseToken (s : State) (k n tok : Nat) : State :=
  let d := s.sess n
  let idx := d.delivered + 1
  let b := d.bound (s.plc d.placement).ns idx
  let late := decide (b < k)
  let beyond := decide (480 * promiseNs (b - d.clearBoundary) d.clearPeriod d.committed < s.tick.wall480 - d.clearWall)
  let s := s.push n 0 (bit d.rebuiltMark 0 + bit late 1 + bit beyond 2) 0 tok idx
  let s := if late && !d.faultDelayed then s.bump (Reg.Ses.FAULT_DELAYED d.airspace) else s
  let s := if beyond && !d.stretchExceeded then s.bump (Reg.Ses.STRETCH_EXCEEDED d.airspace) else s
  let s := s.updSess n fun d => { d with
    st := .decode, history := d.history ++ [tok], pos := d.pos + 1, kvFill := d.pos + 1, pendingTok := tok, delivered := idx
    rebuilt := d.rebuilt || d.rebuiltMark, rebuiltMark := false, faultDelayed := d.faultDelayed || late
    stretchExceeded := d.stretchExceeded || beyond, delayTicks := max d.delayTicks (k - b)
    sampled := none, travDropped := false, rebuilding := false, gapDue := false, gapSent := false }
  match d.endOf d.pos tok idx with
  | 0 => s
  | r => (s.updSess n fun e => { e with cancelLate := s.cancelAsked n }).endSession n r

/-- The GAP record of a traversal that would have released a token; in a stall only the first (R256, R367). -/
def State.pushGap (s : State) (n : Nat) : State :=
  let d := s.sess n
  if d.stalled && d.gapSent then s
  else (s.push n 2 0 0 (d.history.length - 1) (d.delivered + 1)).updSess n fun d => { d with gapSent := d.stalled }

/-- A registration's first T positions stand in every stage (R192). -/
def State.noteWritten (s : State) (k n : Nat) : State :=
  let d := s.sess n
  match d.registering with
  | none => s
  | some e =>
    let pe := (s.asp d.airspace).prefixes.getD e {}
    if pe.st == .filling && pe.due.isNone && decide (pe.tokens ≤ d.pos) then
      s.updAsp d.airspace fun x => { x with prefixes := x.prefixes.set e { pe with due := some k } }
    else s

/-- The traversal of a slot ends at boundary k. -/
def State.endTraversal (s : State) (k n : Nat) : State :=
  let d := s.sess n
  let token := decide (d.pos + 1 = d.history.length)
  let again (s : State) : State := s.updSess n fun d => { d with travDropped := false, stalled := false, gapDue := false, sampled := none }
  if d.gapDue then again (s.pushGap n)
  else if d.travDropped || (token && d.sampled.isNone) then again (if token then s.pushGap n else s)
  else if token then match d.sampled with
    | some tok => (s.releaseToken k n tok).noteWritten k n
    | none => s
  else (s.updSess n fun d => { d with pos := d.pos + 1, kvFill := d.pos + 1, sampled := none, gapSent := false }).noteWritten k n

/-- Every slot whose traversal ends at boundary k, in ascending placement, phase and lane. -/
def State.endTraversals (s : State) (k : Nat) : State :=
  s.forAll (List.range 4) fun s p =>
    let x := s.plc p
    if !x.live then s else
    let due := x.lanes.filter fun e => x.enters (e.1 / 16) k && decide (e.2.from_ + x.ns ≤ k)
    due.foldl (fun s e =>
      let d := s.sess e.2.session
      if d.lane != some (e.1 % 16) || d.phase != some (e.1 / 16) || d.placement ≠ p then s
      else if d.gapDue then s.endTraversal k e.2.session
      else if d.inSlot && d.st != .draining && decide (d.enterAt + x.ns ≤ k) then s.endTraversal k e.2.session
      else s) s

/-- Book positions from the session's next one up to its last from boundary k on (R218, R237). -/
def State.bookAgain (s : State) (k n : Nat) : State :=
  let d := s.sess n
  let s := s.unbook n
  let x := s.plc d.placement
  -- without room for any row the session is booked at the first boundary that has it
  if x.qpBook = 0 then s
  else
    let cap (l : List Booking) (t : Nat) : Nat := x.qpBook - ((l.filter fun b => b.tick = t).foldl (fun m b => m + b.rows) 0)
    match bookRows n cap (d.history.length + x.ledger.length + 2) k (d.history.length - d.pos) x.ledger with
    | none => s
    | some (_, l) => s.updPlc d.placement fun x => { x with ledger := l }

/-- A booking's rows have left the last stage at boundary k. -/
def State.endBooking (s : State) (k p : Nat) (b : Booking) : State :=
  if !(s.plc p).ledger.contains b then s
  else
    let s := s.updPlc p fun x => { x with ledger := x.ledger.filter (· ≠ b) }
    let n := b.session
    let d := s.sess n
    if d.st != .prefill || b.void then s
    else
      let last := decide (d.history.length ≤ d.pos + b.rows)
      let good := min (b.spoilt.getD b.rows) b.rows
      match last, d.sampled with
      | false, _ =>
        let s := s.updSess n fun d => { d with pos := d.pos + good, kvFill := d.pos + good }
        (if good = b.rows then s else s.bookAgain k n).noteWritten k n
      | true, some tok =>
        if good = b.rows then
          let s := s.updSess n fun d => { d with pos := d.history.length - 1, enterAt := max d.r0 k }
          (s.releaseToken k n tok).noteWritten k n
        else
          let s := s.updSess n fun d => { d with pos := d.pos + good, kvFill := d.pos + good, sampled := none }
          (s.pushGap n).bookAgain k n
      | true, none =>
        let good := min good (b.rows - 1)
        let s := s.updSess n fun d => { d with pos := d.pos + good, kvFill := d.pos + good }
        (s.pushGap n).bookAgain k n

/-- The bookings that end at boundary k, oldest first (R218). -/
def State.endBookings (s : State) (k : Nat) : State :=
  s.forAll (List.range 4) fun s p =>
    let x := s.plc p
    let due := x.ledger.filter fun b => b.tick + x.ns ≤ k
    let ticks := sortNat ((due.map (·.tick)).foldl (fun l t => if l.contains t then l else t :: l) [])
    ticks.foldl (fun s t => (due.filter (·.tick = t)).foldl (fun s b => s.endBooking k p b) s) s

/-- Stalled sessions at boundary k: what they have under way is lost (R367). -/
def State.markStalls (s : State) (k : Nat) : State :=
  let s := s.forAll s.sessIds fun s n =>
    let d := s.sess n
    if (d.st == .prefill || d.st == .decode) && s.stalledAt d.placement k then
      if d.lane.isSome && decide (d.r0 ≤ k) && d.inSlot then s.updSess n fun d => { d with stalled := true, travDropped := true }
      else s.updSess n fun d => { d with stalled := true }
    else if d.stalled && !d.travDropped then s.updSess n fun d => { d with stalled := false, gapSent := false }
    else s
  s.forAll (List.range 4) fun s p =>
    if !s.stalledAt p k then s
    else s.updPlc p fun x => { x with ledger := x.ledger.map fun b =>
      if b.tick ≤ k && k < b.tick + x.ns then { b with spoilt := some 0 } else b }

/-- A field of the placement has cores whose absorption is not complete. -/
def State.absorbing (s : State) (p : Nat) : Bool :=
  computeFields.any fun f => (s.field f).placement == some p && !(s.field f).absorb.isEmpty

/-- A session whose region was too small for a rebuild takes one that holds every block, when one is free (R195, log entry 143). -/
def State.regainRegion (s : State) (n : Nat) : State :=
  let d := s.sess n
  if !d.regions.isEmpty then s
  else match s.regionClass d.placement d.airspace d.cls [] with
    | some c' => s.takeRegions n c' []
    | none => s

/-- Sessions whose KV is lost are prefilled again: in slot mode from the next entry of their lane, in wave mode by rows booked from the
boundary at which absorption or re-placement completes (R237). A session in wave mode that still has positions to compute and none booked is booked. -/
def State.rebuildKv (s : State) (k : Nat) : State :=
  s.forAll (s.sessIds.filter fun n => (s.sess n).st == .prefill || ((s.sess n).st == .queued && (s.sess n).rebuilding)) fun s n =>
    let again := (s.sess n).rebuilding && (s.sess n).pos = 0
    let s := if again then s.regainRegion n else s
    let d := s.sess n
    let wait := again && (s.stalledAt d.placement k || s.absorbing d.placement
      || (d.regions.isEmpty && !(s.kvCores d.placement).isEmpty))
    if d.slotMode then (if wait then s.updSess n fun d => { d with enterAt := max d.enterAt (k + 1) } else s)
    else if wait || ((s.plc d.placement).ledger.any fun b => b.session = n && !b.void) then s
    else s.bookAgain k n

/-! ### Rounds (R214, R215, R230, R231) -/

/-- The depth of a round of a phase that begins at boundary b under a depth limit: R215, and never below a lane that is still held. -/
def PlacementSt.depthFrom (x : PlacementSt) (limit ph b : Nat) : Nat :=
  let top := (x.lanes.filter fun e => e.1 / 16 = ph && e.2.from_ ≤ b).foldl (fun m e => max m (e.1 % 16 + 1)) 1
  max top (min x.plan.maxDepth limit)

/-- A phase's round begins at boundary k: lanes of sessions that have ended are free again, draining sessions end or pause, the depth is
taken. While the Zenith does not serve, the assignment is held unchanged (R28). -/
def State.beginRound (s : State) (k p ph : Nat) : State :=
  let mine (x : PlacementSt) : Tbl Lane := x.lanes.filter fun e => e.1 / 16 = ph
  let held := s.zenithServing
  let s := if !held then s else
    (mine (s.plc p)).foldl (fun s e =>
      let n := e.2.session
      let d := s.sess n
      let own := d.lane == some (e.1 % 16) && d.phase == some ph && d.placement = p
      let gone (s : State) : State := s.updPlc p fun x => { x with lanes := x.lanes.del e.1 }
      if k ≤ e.2.from_ then s
      else if !own then gone s
      else if d.st == .draining && d.drainPause && !d.cancelLatched then
        -- the copies of a registration end first (R205)
        (if d.registering.isSome then s else gone (s.becomePaused n))
      else if d.st == .draining then gone (s.endSession n 4)
      else s) s
  let x := s.plc p
  let depth := x.depthFrom (s.power.depthAt (k - s.leadNow - 1)) ph k
  s.updPlc p fun x => { x with phases := x.phases.set ph ⟨k, x.round, depth⟩ }

/-- The phases whose round begins at boundary k. -/
def State.rounds (s : State) (k : Nat) : State :=
  s.forAll (List.range 4) fun s p =>
    let x := s.plc p
    if !x.live then s
    else s.forAll (List.range x.ns) fun s ph =>
      let due := match x.phases.find ph with
        | none => decide (x.bL + ph ≤ k)
        | some c => decide (c.start + c.r * x.ns ≤ k)
      if x.enters ph k && due then s.beginRound k p ph else s

/-- QUEUED sessions whose lane's round begins, or whose first booked row enters stage 0, are in PREFILL (R210). -/
def State.beginPrefills (s : State) (k : Nat) : State :=
  s.forAll (s.sessIds.filter fun n => (s.sess n).st == .queued) fun s n =>
    let d := s.sess n
    if d.slotMode then (if d.r0 ≤ k then s.updSess n fun d => { d with st := .prefill, enterAt := d.r0 } else s)
    else if (s.plc d.placement).ledger.any fun b => b.session = n && !b.void && b.tick ≤ k then s.updSess n fun d => { d with st := .prefill }
    else s

/-! ### Row tables (R90) -/

/-- A core begins tick k: its field had a beacon, its clock runs, and it executes (R47, R57, R77). -/
def State.begins (s : State) (c : Nat) : Bool :=
  let x := s.field (coreField c)
  let k := s.core c
  x.beaconOk && x.clock == .running && !x.lossPending && (k.state == .serving || k.state == .absorbing)

/-- A session's row in a core. -/
def State.rowOfSession (s : State) (c n pos : Nat) (slot : Nat) (drop : Bool) : Row :=
  let d := s.sess n
  let k := s.core c
  let (split, _) := s.kvShare c
  let version := d.adapterId.bind fun id => ((s.plc d.placement).adapters.find id).bind fun e => e.slotOf d.adapterVersion
  let seg := version.bind fun v => v.cores.find? fun q => q.1 = c
  let row : Row := { valid := true, drop := drop, airspace := d.airspace, session := n, token := d.history.getD pos 0, pos := pos, kvFill := pos }
  let row := match seg with
    | some q => { row with adapterBase := 2048 * q.2.1, adapterValid := true }
    | none => row
  let row := if (s.sampleCores d.placement).contains c then { row with sampleBlk := k.sampleBlk ((s.plc d.placement).blockOf slot) } else row
  match d.regions.find? fun r => r.1 = c with
  | some r => { row with kvBase := s.kvBaseOf r, kvSize := mapEntries r.2.2.1 split * s.kvBlock c, blockMap := r.2.1 }
  | none => row

/-- The decode rows of a core in tick k. -/
def State.decodeRows (s : State) (p c k : Nat) : Tbl Row :=
  let stage := (s.core c).stage
  let ph := (s.plc p).phaseAt k stage
  (List.range 16).filterMap fun v => (s.rowSession p k stage v).map fun n =>
    (v, s.rowOfSession c n (s.sess n).pos (slotIx ph v) ((s.sess n).st == .draining || !s.begins c))

/-- The prefill rows of a core in tick k: what was booked for tick k − stage, in booking order (R218). -/
def State.prefillRows (s : State) (p c k : Nat) : List Row :=
  let x := s.plc p
  let stage := (s.core c).stage
  (x.ledger.filter fun b => b.tick + stage = k && !b.void && (s.sess b.session).st == .prefill).flatMap fun b =>
    let d := s.sess b.session
    let slot := match d.phase, d.lane with
      | some ph, some l => slotIx ph l
      | _, _ => 0
    (List.range b.rows).map fun i =>
      s.rowOfSession c b.session (x.bookingStart d.pos b + i) slot (b.spoilt.any (· ≤ i) || !s.begins c)

/-! ### Tuning rows (R265, R269, R271) -/

/-- Records of a data set from byte o of its pages: tokens and TARGET_FROM of records `first` to `first + n − 1`; none: a record is not
readable or out of range (R269). -/
def readRecords (byte4 : Nat → Nat) (seqMax vocab : Nat) : Nat → Nat → Nat → Nat → Option (List (List Nat × Nat))
  | 0, _, _, _ => some []
  | fuel + 1, o, skip, n =>
    let len := byte4 o
    let next := o + ceilDiv (8 + 4 * len) 32 * 32
    if n = 0 then some []
    else if skip = 0 then
      let from_ := byte4 (o + 4)
      let toks := (List.range (min len seqMax)).map fun i => byte4 (o + 8 + 4 * i)
      if len < 2 || seqMax < len || len < from_ + 2 || !toks.all (· < vocab) then none
      else (readRecords byte4 seqMax vocab fuel next 0 (n - 1)).map fun l => (toks, from_) :: l
    else if len < 2 || seqMax < len then none
    else readRecords byte4 seqMax vocab fuel next (skip - 1) n

/-- The 4-byte value at a byte of an airspace's data pages from a page on. -/
def State.dataWord (s : State) (a page o : Nat) : Nat :=
  match s.cloudPage (s.asp a).stripes (page + o / 65536) with
  | none => 0
  | some (st, base) => (s.stack st).mem.le (base + o % 65536) 4

/-- The batch of a job's running step: sequences ((t − 1) · BATCH + j) mod SEQ_COUNT (R269). -/
def State.stepBatch (s : State) (p : Nat) : Option (List (List Nat × Nat)) :=
  let j := (s.plc p).tune
  let vocab := match (s.plc p).image with
    | some i => i.vocab
    | none => 0
  let one (i : Nat) : Option (List (List Nat × Nat)) :=
    readRecords (s.dataWord j.airspace j.dataPage) j.seqMax vocab (j.seqCount + 1) 0 ((j.step * j.batch + i) % max 1 j.seqCount) 1
  (List.range j.batch).foldl (fun acc i => match acc, one i with
    | some l, some r => some (l ++ r)
    | _, _ => none) (some [])

/-- The tokens of a batch in order: sequence, position, token. -/
def batchTokens (l : List (List Nat × Nat)) : List (Nat × Nat × Nat) :=
  (List.range l.length).flatMap fun j =>
    let ts := (l.getD j ([], 0)).1
    (List.range ts.length).map fun i => (j, i, ts.getD i 0)

/-- The tuning rows of a core whose stage has a cell in the tick: the next tokens of its direction, in token order. -/
def State.tuningRows (s : State) (p c : Nat) : List Row :=
  let j := (s.plc p).tune
  let stage := (s.core c).stage
  match j.assigned.find? (·.1 = stage), j.cellRows.find? (·.1 = stage), s.stepBatch p with
  | some (_, back), some (_, n), some batch =>
    let at_ := if back then j.bwd.getD stage 0 else j.fwd.getD stage 0
    let (split, _) := s.kvShare c
    let slots := match (s.asp j.airspace).carvings.find? fun cv => cv.core = c with
      | some cv => cv.slots.filter fun (e : Nat × Nat × Option Nat) => e.2.2 == some (4096 + p)
      | none => ([] : List (Nat × Nat × Option Nat))
    let area := j.areas.find? fun q => q.1 = c
    (((batchTokens batch).drop at_).take n).map fun t =>
      let row : Row := { valid := true, drop := !s.begins c, airspace := j.airspace, session := 4096 + p, token := t.2.2, pos := t.2.1, kvFill := t.2.1 }
      let row := match area with
        | some q => { row with adapterBase := q.2.1, adapterValid := true }
        | none => row
      match slots[t.1]? with
      | some e => { row with kvBase := e.2.1 + mapWords e.1 split, kvSize := mapEntries e.1 split * s.kvBlock c, blockMap := e.2.1 }
      | none => row
  | _, _, _ => []

/-- Rows numbered from 0. -/
def numbered (l : List Row) : Tbl Row := (List.range l.length).filterMap fun i => (l[i]?).map fun r => (i, r)

/-- A core whose failure is not absorbed yet still has rows, all of them dropped; once absorbed, and on a core without a stage, there are
none (R81). -/
def State.hasRows (s : State) (c : Nat) : Bool :=
  let k := s.core c
  k.stage ≠ 0x3FF && (k.state != .failed || ((s.field (coreField c)).absorb.any fun a => a.core = coreNum c))

/-- The row tables of tick k in every core. -/
def State.writeRows (s : State) (k : Nat) : State :=
  let clear (e : Nat × CoreSt) : Nat × CoreSt := (e.1, { e.2 with decRows := [], preRows := [], dropped := false })
  let s := { s with cores := s.cores.map clear }
  s.forAll (List.range 4) fun s p =>
    if !(s.plc p).live || s.stalledAt p k then s
    else s.forAll ((s.coresOfPlacement p).filter s.hasRows) fun s c =>
      let dec := s.decodeRows p c k
      let pre := s.prefillRows p c k
      let pre := if pre.isEmpty then s.tuningRows p c else pre
      s.updCore c fun x => { x with decRows := dec, preRows := numbered pre }

end Sys2Proof.Machine
end

