-- ==== Sys2Proof/Machine/Control.lean ====
section
/-! DEFINITION. The control slot: orders of the BMC, the host and the peers in their order (R397, R400, R471), clearances and retries (R221),
the stretch level (R53, R54, R56), the load forecast (R329, R330), and tuning cells (R265, R266, R269); and the idle control slot (R388). -/

namespace Sys2Proof.Machine

/-! ### Orders (R397, R400, R471) -/

/-- A packet of the channel that an earlier order of the slot made void: SUPERSEDED, with the winner's number (R391, R400). -/
def State.voidPacket (s : State) (src : Src) (p : CmdPacket) (by_ : Nat) : State :=
  s.reply src { seq := p.seq, opcode := p.opcode, status := .superseded, final := true, detail := by_ }

/-- An order that waits for its apply_tick (R471), and its source. -/
def Deferred.timed (d : Deferred) : Option Src :=
  match d.order with
  | .powerState h _ _ => some h.src
  | .setGranted h _ _ at_ => if at_ = 0 then none else some h.src
  | _ => none

/-- The control slot of apply_tick − 1 has come, or ticks have stopped. -/
def State.timedDue (s : State) (d : Deferred) : Bool := !s.tick.running || decide (d.applyTick ≤ s.tick.count + 1)

/-- Carry out an order whose apply_tick has come. -/
def State.applyTimed (s : State) (d : Deferred) : State :=
  match d.order with
  | .powerState h want _ => s.applyPower h want true
  | .setGranted h p share _ =>
    if !(s.plc p).live then s.answer h 0x0107 .notPermitted
    -- the sized share may have fallen since the order was taken (R12, R60)
    else if !inRange 8 share 0 (s.plc p).plan.sized then s.badParam h 0x0107 33
    else
      let s := s.applyGranted p share
      if s.tick.running then s.grantReply h p
      else s.updHost fun x => { x with deferred := x.deferred ++ [⟨.setGranted h p 0xFF 0, 0, true⟩] }
  | _ => s

/-- The same, made void. -/
def State.voidTimed (s : State) (d : Deferred) (by_ : Nat) : State :=
  match d.order with
  | .powerState h _ _ => s.answerWith h 0x0104 .superseded by_ []
  | .setGranted h _ _ _ => s.answerWith h 0x0107 .superseded by_ []
  | _ => s

/-- What the slot applies: a timed order, a packet, or a cap written over PMBus. -/
inductive SlotOrder where
  | timed (d : Deferred)
  | packet (p : CmdPacket)
  | capWord (w : Nat)
deriving DecidableEq, Repr

/-- A packet that will commit the tuning result of a placement. -/
def State.commits (s : State) (src : Src) (p : Nat) (o : SlotOrder) : Bool :=
  match o with
  | .packet q => (match q.order src with
    | some (.tuneCommit _ x) => x == p
    | _ => false) && (q.fault src).isNone && (s.plc p).tune.hasResult
  | _ => false

/-- A packet that orders a module reset. -/
def resets (src : Src) (o : SlotOrder) : Bool :=
  match o with
  | .packet q => (match q.order src with | some (.moduleReset ..) => true | _ => false)
  | _ => false

/-- One order of a source; `rest` is what follows from the same source: a discard loses against a commit of the slot (R277). -/
def State.applyOne (s : State) (src : Src) (rest : List SlotOrder) (o : SlotOrder) : State :=
  match o with
  | .timed d => s.applyTimed d
  | .capWord w => s.setBmcCap w
  | .packet q =>
    match q.order src with
    | some (.tuneDiscard h p) =>
      if (q.fault src).isNone && (rest.takeWhile fun x => !resets src x).any (s.commits src p) then s.answerWith h 0x0506 .superseded 2 []
      else s.applyPacket src q
    | _ => s.applyPacket src q

/-- The orders of one source in order of arrival. `void` is the source whose module reset voids everything that follows in this slot. -/
def State.applyOrders (src : Src) : List SlotOrder → State × Option Nat → State × Option Nat
  | [], acc => acc
  | o :: rest, (s, some w) =>
    State.applyOrders src rest (match o with
      | .timed d => s.voidTimed d w
      | .packet q => s.voidPacket src q w
      | .capWord _ => s, some w)
  | o :: rest, (s, none) =>
    let had := s.start.resetPending.isSome
    let s := s.applyOne src rest o
    State.applyOrders src rest (s, if s.start.resetPending.isSome && !had then some (winner src) else none)

/-- Take the due timed orders of a source out of the deferred list. -/
def State.takeTimed (s : State) (src : Src) : List SlotOrder × State :=
  let mine (d : Deferred) : Bool := d.timed == some src && s.timedDue d
  ((s.host.deferred.filter mine).map .timed, s.updHost fun x => { x with deferred := x.deferred.filter fun d => !mine d })

/-- What the BMC has ordered since the last slot. -/
def State.takeBmc (s : State) : List SlotOrder × State :=
  (s.host.bmcQueue.map fun o => match o with | .packet p => .packet p | .capWord w => .capWord w, s.updHost fun x => { x with bmcQueue := [] })

/-- The host commands that are present: in a running tick those whose data was there at its start (R388). -/
def State.takeHost (s : State) : List SlotOrder × State :=
  let here (e : Nat × CmdPacket) : Bool := !s.tick.running || decide (e.1 < s.tick.count)
  ((s.host.fetchedPkts.filter here).map fun e => .packet e.2, s.updHost fun x => { x with fetchedPkts := x.fetchedPkts.filter fun e => !here e })

/-- Steps 2 to 4 of R397. -/
def State.orders (s : State) : State :=
  let (t1, s) := s.takeTimed .bmc
  let (b, s) := s.takeBmc
  let (s, void) := State.applyOrders .bmc (t1 ++ b) (s, none)
  let (t2, s) := s.takeTimed .host
  let (h, s) := s.takeHost
  let (s, void) := State.applyOrders .host (t2 ++ h) (s, void)
  s.applyPeers void.isSome

/-! ### Stream requests (R221, R397 step 5) -/

/-- Requests received in earlier ticks, in the order of R221. -/
def State.dueRequests (s : State) : List Request :=
  ((List.range 8).flatMap fun a => (s.asp a).received.filter fun r => r.kind < 3 && r.receipt < s.tick.count).foldl (fun l r => insertReq r l) []

/-- Clearance requests for the first time, then the retries. -/
def State.requests (s : State) : State :=
  let l := s.dueRequests
  let s := s.forAll (List.range 8) fun s a => s.updAsp a fun x => { x with received := x.received.filter fun r => !l.contains r }
  (l.foldl State.firstTry s).retries

/-! ### The stretch level (R53, R54, R56, R318) -/

/-- The vane demand: one level above the level in force while a field reports; at the usable limit the reporting field is taken out of
service, LOST with cause 5, and the demand is withdrawn (R53). -/
def State.vaneDemand (s : State) : State :=
  match computeFields.filter fun f => (s.field f).vaneReport && (s.field f).clock == .running with
  | [] => s
  | f :: _ =>
    if s.usable ≤ s.tick.level && s.usable ≤ s.tick.vaneDemand then
      let s := ((s.updField f fun x => { x with vaneReport := false }).loseField f 5)
      (s.updTick fun t => { t with vaneDemand := 0 }).put Reg.Tick.VANE_HELD 0
    else (s.updTick fun t => { t with vaneDemand := t.level + 1 }).put Reg.Tick.VANE_HELD 1

/-- The level this module demands: the largest of the demands, never above the usable limit (R56). -/
def State.ownLevel (s : State) : Nat := min s.usable (max s.tick.vaneDemand (max s.tick.capDemand s.tick.thermalDemand))

/-- Compute fields whose rails follow the band. -/
def State.railed (s : State) : List Nat := computeFields.filter fun f => (s.field f).clock == .running

def State.setZenith (s : State) (n : Nat) (raised : Bool) : State := s.updTick fun t => { t with zenith := n, raiseOrdered := raised }

/-- One step of the ordered level; a decrease into a band with a higher floor waits for the rails (R54). -/
def State.stepLevel (s : State) (want : Nat) : State :=
  let cur := s.tick.zenith
  if cur < want then s.setZenith (cur + 1) false
  else if want < cur then
    if bandOf (cur - 1) = bandOf cur then s.setZenith (cur - 1) false
    else if !s.tick.raiseOrdered then
      (s.forAll s.railed fun s f => (s.updField f fun x => { x with settled := false }).sendGust (stewardId f)).setZenith cur true
    else if s.railed.all fun f => (s.field f).settled then s.setZenith (cur - 1) false
    else s
  else s.setZenith cur false

/-- The Zenith orders its level. -/
def State.orderLevel (s : State) : State :=
  let own := s.ownLevel
  s.forcing fun s => s.stepLevel (if s.links.follower then own else s.sharedLevel own)

/-! ### The forecast (R329, R330) -/

/-- The depth of the phase that a stage serves in a coming tick. -/
def State.depthIn (s : State) (p tick stage : Nat) : Nat :=
  let x := s.plc p
  let ph := x.phaseAt tick stage
  let cur := x.phase ph
  let b := cur.start + cur.r * x.ns
  if tick < b + stage then cur.depth else x.depthFrom (s.power.depthAt (b - s.leadNow - 1)) ph b

/-- Prefill rows that a coming tick may run. -/
def State.rowsIn (s : State) (p tick : Nat) : Nat :=
  let x := s.plc p
  if x.slotMode then 0
  else match x.grantOrder with
    | some (b, g) => if b ≤ tick then max x.qp (x.plan.qp.getD g 0) else x.qp
    | none => x.qp

/-- The stewards' forecast words for tick count + lead; the levels of the last 1,000 ticks are kept (R326). -/
def State.sendForecasts (s : State) : State :=
  let lead := s.leadNow
  let tick := s.tick.count + lead
  let s := s.updPower fun p => { p with forecastLog := p.forecastLog.filter fun e => s.tick.count < e.1 + 1000 }
  s.forAll (computeFields.filter fun f => (s.field f).on % 2 = 1 || (s.field f).clock == .waking) fun s f =>
    let x := s.field f
    let (depth, rows, idle) : Nat × Nat × Bool := match x.placement with
      | none => (0, 0, false)
      | some p =>
        if !(s.plc p).live then (0, 0, false)
        else (((s.stagesOf f).map (s.depthIn p tick)).foldl max 0, s.rowsIn p tick,
          (s.plc p).tune.st == .running && decide (0 < (s.plc p).plan.qtIdle))
    let w := x.forecastOf lead depth rows idle
    let top := max (bits w.toNat 23 16) (max (bits w.toNat 15 8) (bits w.toNat 7 0))
    (s.updPower fun p => { p with forecastLog := p.forecastLog ++ [(tick, f, top)] }).emit (.forecast f w)

/-! ### Tuning cells (R265, R266, R269, R271) -/

/-- No prefill row of a stage in a tick. -/
def PlacementSt.cellShared (x : PlacementSt) (tick stage : Nat) : Bool := !(x.ledger.any fun b => b.tick + stage = tick && !b.void)

/-- In addition no decode row: no lane of the phase that the stage serves is held. -/
def State.cellIdle (s : State) (p tick stage : Nat) : Bool :=
  let x := s.plc p
  let ph := x.phaseAt tick stage
  !(x.lanes.any fun e => e.1 / 16 = ph && decide (e.2.from_ + stage ≤ tick) && (s.sess e.2.session).lane == some (e.1 % 16))

/-- Q_t of the shared window at the granted share in force. -/
def State.qtNow (s : State) (p : Nat) : Nat :=
  let x := s.plc p
  if x.grant = x.plan.sized then x.plan.qtShared
  else match (s.coresOfPlacement p).map fun c => s.tuneRows c (48 + x.plan.d) (x.plan.c * x.grant / 100) with
    | [] => 0
    | n :: ns => ns.foldl min n

/-- Rows that a stage has under way in this tick in a direction. -/
def TuneJob.underWay (j : TuneJob) (stage : Nat) (back : Bool) : Nat :=
  if j.assigned.contains (stage, back) then ((j.cellRows.find? fun e => e.1 = stage).map Prod.snd).getD 0 else 0

/-- Rows of a stage whose staged inputs are complete and that have not begun. -/
def TuneJob.forwardReady (j : TuneJob) (stage : Nat) : Nat :=
  (if stage = 0 then j.total else j.fwd.getD (stage - 1) 0) - j.fwd.getD stage 0 - j.underWay stage false
def TuneJob.backwardReady (j : TuneJob) (ns stage : Nat) : Nat :=
  if j.fwd.getD (ns - 1) 0 < j.total then 0
  else (if stage + 1 = ns then j.total else j.bwd.getD (stage + 1) 0) - j.bwd.getD stage 0 - j.underWay stage true

/-- The cells of the coming tick, in ascending stage order. -/
def State.chooseCells (s : State) (p : Nat) : List (Nat × Bool × Nat) :=
  let x := s.plc p
  let j := x.tune
  let tick := s.tick.count + 1
  let qt := s.qtNow p
  (List.range x.ns).filterMap fun st =>
    if !x.cellShared tick st then none
    else
      let q := min 128 (if s.cellIdle p tick st then x.plan.qtIdle else qt)
      let f := min q (j.forwardReady st)
      let b := min q (j.backwardReady x.ns st)
      if 0 < f then some (st, false, f) else if 0 < b then some (st, true, b) else none

/-- The step's batch is read from the data pages: its tokens and its targets. -/
def State.openStep (s : State) (p : Nat) (batch : List (List Nat × Nat)) : State :=
  let ns := (s.plc p).ns
  s.updPlc p fun x => { x with tune := { x.tune with
    total := (batch.map fun e => e.1.length).foldl (· + ·) 0
    targets := (batch.map fun e => e.1.length - 1 - e.2).foldl (· + ·) 0
    fwd := List.replicate ns 0, bwd := List.replicate ns 0 } }

/-- The outlook and the ladder leave room for tuning (R266, R337). -/
def State.tuneRoom (s : State) (a : Nat) : Bool := s.power.ladder == 0 && (List.range 20).all fun i => s.stepOk a (i + 1) 0 0

/-- Step 6 of R397: the cells of the coming tick. A data set that cannot be read fails the job. -/
def State.assignCells (s : State) : State :=
  s.forAll (List.range 4) fun s p =>
    let s := s.updPlc p fun x => { x with tune := { x.tune with nextCells := [] } }
    let x := s.plc p
    let j := x.tune
    if j.st != .running || j.optimising || !x.live || x.suspended.isSome || s.stalledAt p (s.tick.count + 1) || !s.tuneRoom j.airspace then s
    else
      let take (s : State) : State := s.updPlc p fun x => { x with tune := { x.tune with nextCells := s.chooseCells p } }
      if !j.fwd.isEmpty then take s
      else match s.stepBatch p with
        | none => s.failTune p
        | some batch => take (s.openStep p batch)

/-! ### The slot -/

/-- What every control slot ends with: the registers of the session and link state, the header read of the host's ring (R388). -/
def State.endSlot (s : State) : State :=
  let s := s.evalHealth.gaugeSessions.gaugeLanes.gaugeKv.gaugeCloud.gaugeKeys
  let carried := (List.range 8).any fun a => (s.asp a).waiting.any (·.carried)
  let s := s.put Reg.Start.CARRY_PENDING (bit carried 0)
  if s.hostOpen then s.emit .readHeader else s

/-- The control slot of a running tick. Its orders, its clearances and what the Zenith decides on its own (R397). -/
def State.serveSlot (s : State) : State :=
  let s := (s.updTick fun t => { t with slotDone := true }).recordLate
  let s := if computeFields.any fun f => (s.field f).lossPending then s.handleLosses else s
  let s := s.orders.requests
  let s := (s.orderAbsorption.forAll computeFields State.repairTiles).finishTunes
  let s := s.vaneDemand.recap
  let s := s.forAll s.livePlacements State.orderGrant
  (s.orderLevel.sendDemand.assignCells).endSlot

/-- Packets that routers hold since a guard cycle enter them in cycle 8, the first one after the guard (R38). -/
def State.afterGuard (s : State) : State :=
  s.forAll (allFields.filter fun u => !(s.router u).held.isEmpty) fun s u =>
    let l := (s.router u).held
    l.foldl (fun s e => s.enterRouter u e.1 (s.tick.count * s.tick.period + 8) e.2) (s.updRouter u fun r => { r with held := [] })

/-- CONTROL_SLOT: the stewards' forecasts go out in every tick; the Zenith's part once, while it serves (R27, R28). -/
def opControlSlot (s : State) : State :=
  if !s.tick.running then s
  else
    let s := s.afterGuard
    if !s.zenithServing then s.sendForecasts
    else if s.tick.slotDone then s
    else s.serveSlot.sendForecasts

def execControlSlot (s : State) : Result := .next (opControlSlot s)

/-- IDLE_CONTROL_SLOT: every 100 µs while no ticks run: orders and commands, no clearance (R388, R397). -/
def opIdleSlot (s : State) : State :=
  if s.tick.running then s
  else
    let s := s.bootIfDue
    if !s.zenithServing then s
    else
      let s := s.recordLate
      let s := if s.start.serving && (computeFields.any fun f => (s.field f).lossPending) then s.handleLosses else s
      (s.orders.recap.endSlot).signal

def execIdleControlSlot (s : State) : Result := .next (opIdleSlot s)

end Sys2Proof.Machine
end

