-- ==== Sys2Proof/Machine/Tick.lean ====
section
/-! DEFINITION. The tick boundary: what a tick leaves when it ends (R92, R213, R218, R254, R271), egress (R253, R254, R261), latches (R230), every change that takes
effect at a boundary (R30), the start of the new tick (R49, R54, R90), and the grid of Lull (R48). -/

namespace Sys2Proof.Machine

/-! ### The tick that ends -/

/-- Descriptors whose state has been ENDED since a boundary are FREE from this one (R229, R234). -/
def State.freeEnded (s : State) : State :=
  s.forAll (s.sessIds.filter fun n => (s.sess n).st == .ended && (s.sess n).endPending && (s.sess n).endSeen) State.freeSession

/-- A tuning row of a placement was dropped in the tick that ends (R275). -/
def State.tuneDropped (s : State) (p : Nat) : Bool :=
  s.cores.any fun e => e.2.preRows.any fun r => r.2.valid && r.2.drop && r.2.session == 4096 + p

/-- Add the rows that the tick's cells ran to the stages' counts. -/
def TuneJob.advance (j : TuneJob) : TuneJob :=
  let add (back : Bool) (l : List Nat) : List Nat := (List.range l.length).map fun st => l.getD st 0 + j.underWay st back
  let fwd := add false j.fwd
  let bwd := add true j.bwd
  { j with fwd := fwd, bwd := bwd, assigned := [], cellRows := [], optimising := j.optimising || (decide (0 < j.total) && bwd.getD 0 0 == j.total) }

/-- The tuning cells of the tick that ends: counted; dropped rows repeat the step; when every row has passed backward, the optimiser step
follows (R266, R274, R275, R278). -/
def State.endCells (s : State) : State :=
  s.forAll (List.range 4) fun s p =>
    let j := (s.plc p).tune
    if j.assigned.isEmpty then s
    else
      let s := s.count (Reg.Tune.CELLS p) j.assigned.length
      if s.tuneDropped p then s.repeatTune p
      else s.updPlc p fun x => { x with tune := x.tune.advance }

/-- What the tick computed, judged as it ends. -/
def State.endTick (s : State) (k : Nat) : State :=
  let s := s.freeEnded.noteDrops.settleWords.endCells
  (((s.endTraversals k).endBookings k).settleLosses k).settleTunes

/-! ### Egress (R253, R254, R256, R261) -/

/-- Tokens that a tick brings to every bucket: the cap in Gb/s over the tick's length, at most 64 KiB held (R261). -/
def State.fillBuckets (s : State) : State :=
  let ns480 := tickNs480 s.tick.period s.tick.level
  s.forAll (List.range 8) fun s a => s.updAsp a fun x => { x with bucket := min 65536 (x.bucket + x.egressCap * ns480 / 3840) }

/-- Insert a record by its descriptor index, behind those of the same session. -/
def insertRec (r : Rec) : List Rec → List Rec
  | [] => [r]
  | x :: xs => if x.handle % 4096 ≤ r.handle % 4096 then x :: insertRec r xs else r :: x :: xs

/-- The batch of one destination leaves, and is kept for 4,096 ticks (R254, R257). -/
def State.releaseBatch (s : State) (a dest : Nat) (l : List Rec) : State :=
  match (s.asp a).dests.find dest with
  | none => s
  | some e =>
    let n := seqNext e.batchSeq
    let b : Batch := { dest := dest, seq := n, tick := s.tick.count, records := l.foldl (fun o r => insertRec r o) [] }
    let s := s.updAsp a fun x => { x with dests := x.dests.set dest { e with batchSeq := n }, batches := x.batches ++ [b] }
    (s.bump (Reg.Eth.BATCHES a)).sendBatch a b false

/-- Every step batch of the tick, in ascending airspace and destination. -/
def State.releaseBatches (s : State) : State :=
  let recs := s.records
  let s := { s with records := [] }
  s.forAll (List.range 8) fun s a =>
    let mine := recs.filter fun r => r.1 = a
    let dests := sortNat (mine.foldl (fun (l : List Nat) r => if l.contains r.2.1 then l else r.2.1 :: l) [])
    let s := s.forAll dests fun s d => s.releaseBatch a d ((mine.filter fun r => r.2.1 = d).map fun r => r.2.2)
    s.updAsp a fun x => { x with batches := x.batches.filter fun b => s.tick.count ≤ b.tick + 4096 }

/-- The acknowledgements that are due; each is remembered as its request's answer (R250, R251). -/
def State.releaseAcks (s : State) (k : Nat) : State :=
  let l := s.acks
  l.foldl (fun s m => (s.sendAck m k).noteAnswer m) { s with acks := [] }

/-- Dynamic entries that no descriptor names are free again, with the batches kept for their use (R253, R254). -/
def State.freeDests (s : State) : State :=
  s.forAll (List.range 8) fun s a =>
    let kept (n : Nat) : Bool := n < 16 || s.destNamed a n || s.lateRecords.any (fun r => r.1 = a && r.2.1 = n)
    let s := s.updAsp a fun x => { x with dests := x.dests.filter fun e => kept e.1, batches := x.batches.filter fun b => kept b.dest }
    s.put (Reg.Eth.DESTS a) (s.asp a).dests.length

/-! ### Orders that take effect at the boundary (R30, R388, R393) -/

/-- The command that an order answers to, and its basic opcode. -/
def orderKey : Instr → Option (CmdHdr × Nat)
  | .setGranted h _ _ _ => some (h, 0x0107)
  | .setCore h _ _ _ _ => some (h, 0x0108)
  | .setBreaker h _ _ _ _ => some (h, 0x0202)
  | .setLead h _ => some (h, 0x0203)
  | .removePlacement h _ => some (h, 0x0307)
  | .sessionCancel h _ => some (h, 0x0402)
  | .sessionPause h _ _ => some (h, 0x0403)
  | .prefixUnregister h _ _ => some (h, 0x0405)
  | .setRound h _ _ => some (h, 0x0406)
  | .setSessionLimits h _ _ _ _ _ => some (h, 0x0407)
  | .setSampling h _ _ _ _ _ => some (h, 0x0408)
  | .setKv h _ _ _ _ _ _ _ => some (h, 0x0409)
  | .tuneCommit h _ => some (h, 0x0505)
  | .airspaceBind h _ _ => some (h, 0x0601)
  | .airspaceUnbind h _ => some (h, 0x0602)
  | .airspaceReset h _ => some (h, 0x0603)
  | .setShares h _ _ _ _ _ => some (h, 0x0604)
  | .setAddress h _ _ _ _ _ _ _ _ => some (h, 0x0605)
  | .setFilter h _ _ => some (h, 0x0606)
  | .setDestination h _ _ _ _ _ => some (h, 0x0607)
  | .setEgress h _ _ => some (h, 0x0608)
  | .setEthPort h _ _ _ => some (h, 0x0609)
  | .routeTable h _ _ => some (h, 0x0704)
  | _ => none

/-- The final reply that an order still owes. -/
def State.settle (s : State) (d : Deferred) (st : Status) : State :=
  match orderKey d.order with
  | some (h, op) => if d.owed then s.answer h op st else s
  | none => s

/-- Cancels and pauses that were ordered while no ticks ran: asked now, latched with the others (R388, R406). -/
def State.lateLatch (s : State) (d : Deferred) : State :=
  match d.order with
  | .sessionCancel h l => (l.foldl State.askCancel s).answerWith h 0x0402 .ok 0 (s.cancelResult l)
  | .sessionPause h handle ttl =>
    match s.named handle with
    | none => s.settle d .badParameter
    | some n =>
      let st := (s.sess n).pauseStatus
      if st != .ok then s.settle d st else (s.askPause n (if h.expert && !unchanged 32 ttl then ttl else 0)).settle d .ok
  | _ => s

/-- An order takes effect. -/
def State.takeEffect (s : State) (d : Deferred) : State :=
  match d.order with
  | .setCore .. | .setLead .. | .setBreaker .. => (s.applyDevice d.order).settle d .ok
  | .setGranted h p _ _ => s.grantReply h p
  | .removePlacement _ p => (s.removePlacement p).settle d .ok
  | .tuneCommit _ p =>
    match s.commitTune p with
    | some t => t.settle d .ok
    | none => s.settle d .noResource
  | .routeTable _ _ entries => (s.applyRoutes entries).settle d .ok
  | i => (s.applySetting i).settle d .ok

/-- Orders of sessions, which latch. -/
def Deferred.latches (d : Deferred) : Bool :=
  match d.order with
  | .sessionCancel .. | .sessionPause .. => true
  | _ => false

/-- Take out of the deferred list what is due at boundary k. -/
def State.takeDue (s : State) (k : Nat) (which : Deferred → Bool) : List Deferred × State :=
  let due (d : Deferred) : Bool := d.timed.isNone && decide (d.applyTick ≤ k) && which d
  (s.host.deferred.filter due, s.updHost fun x => { x with deferred := x.deferred.filter fun d => !due d })

/-! ### Changes that the module itself has ready for the boundary -/

/-- A granted share that is due: a higher one at its tick, a lower one once no booked row that has not left the last stage needs the
higher (R219, R330). -/
def State.applyGrant (s : State) (k p : Nat) : State :=
  let x := s.plc p
  match x.grantOrder with
  | none => s
  | some (b, g) =>
    let need := (x.ledger.filter fun e => k < e.tick + x.ns).all fun e => x.booked e.tick ≤ x.plan.qp.getD g 0
    if k < b || (g < x.grant && !need) then s
    else s.updPlc p fun y => { y with grant := g, grantOrder := none }

/-- A woken field loads its plan one boundary after its calibration (R58). -/
def State.loadWoken (s : State) (f : Nat) : State :=
  let x := s.field f
  match x.role, x.placement with
  | .active, some p =>
    let s := s.loadField f (s.plc p).liveBank
    s.updField f fun x => { x with
      loadAt := none, absMap := [], forecastLearn := 1024, absorb := x.failed.map fun n => ⟨n, s.tick.count, some s.tick.count⟩ }
  | _, _ => s.updField f fun x => { x with loadAt := none }

/-- What a steward applies to its rails: a trim raise of 10 mV (R52), and after an increase of the level by the Zenith's own demand the
floor of the lower band (R54). `level` is the level of the tick that ends. -/
def State.stewardRails (s : State) (level f : Nat) : State :=
  let s := if (s.field f).trimRaise then
      let s := s.updField f fun x => { x with trim := x.trim + 10, trimRaise := false }
      (s.put (Reg.FPow.TRIM_MV f) (s.field f).trim).writeSetPoint f (s.field f).railBand
    else s
  -- bands of a higher number have lower floors
  let b := bandOf (min level s.tick.zenith)
  if !s.tick.raiseOrdered && (s.field f).railBand < b then s.writeSetPoint f b else s

/-- Segment tags that a core was given take force; tag 0xF frees the segment (R72). -/
def CoreSt.applyTags (k : CoreSt) : CoreSt :=
  { k with
    tags := k.nextTags.foldl (fun t g => if g.2 = 0xF then t.del g.1 else t.set g.1 g.2) k.tags
    nextTags := [] }

/-- Fields whose absorption or move takes effect now have their adapters, block maps and sampling blocks filled again. -/
def State.relocations (s : State) (k : Nat) : State :=
  let moved := (List.range 4).filter fun p => (s.plc p).moves.any (s.moveDone k)
  let fs := computeFields.filter fun f => (s.field f).absorb.any fun a => a.ordered.isSome
  let hit := (List.range 4).filter fun p => moved.contains p || fs.any fun f => (s.field f).placement == some p
  let s := (s.finishMoves k).forAll fs State.absorbField
  s.forAll hit State.refill

/-- Flips and plan loads whose drain is over take effect (R30, R36, R162). -/
def State.takeDrains (s : State) : State := s.forAll (List.range 4) State.completeDrain

/-- Every steward recomputes its equalisation delays when the level changes (R45). -/
def State.equaliseAll (s : State) (was : Nat) : State :=
  if s.tick.level = was then s
  else s.forAll (computeFields.filter fun f => (s.field f).clock == .running) fun s f => s.updField f fun x => x.equalise s.tick.level

/-- Every change that takes effect at boundary k beside the orders (R30). -/
def State.takeChanges (s : State) (k level : Nat) : State :=
  let s := (s.forAll (List.range 4) State.takeSuspension).takeChosen.equaliseAll level
  let s := s.forAll s.livePlacements (fun s p => s.applyGrant k p)
  let s := s.forAll (computeFields.filter fun f => (s.field f).loadAt.any (· ≤ k)) State.loadWoken
  let s := s.relocations k
  let s := s.stops.wakes
  let s := s.forAll computeFields fun s f =>
    if (s.field f).clock == .running then ((s.learnForecast f).stewardRails level f).updField f fun x => { x with patches := x.patches ++ x.nextPatches, nextPatches := [] }
    else s
  let s := { s with cores := s.cores.map fun (e : Nat × CoreSt) => (e.1, e.2.applyTags) }
  let s := s.forAll allFields State.swapTables
  let s := s.forAll (List.range 8) fun s a => s.updAsp a AirspaceSt.purgePages
  let s := (s.holdPauses.readyPrefixes k).adaptersCurrent k
  let s := (((s.markStalls k).rounds k).takeDrains.rebuildKv k).beginPrefills k
  s.linkBoundary

/-! ### The tick that begins -/

/-- The cells chosen in the control slot are those of this tick (R266). -/
def State.beginCells (s : State) : State :=
  s.forAll (List.range 4) fun s p => s.updPlc p fun x => { x with tune := { x.tune with
    assigned := x.tune.nextCells.map fun c => (c.1, c.2.1), cellRows := x.tune.nextCells.map fun c => (c.1, c.2.2), nextCells := [] } }

/-- Every sequencer stands at the opening guard again; what Jetstream has delivered stays (R37, R39, R110). -/
def State.beginSeqs (s : State) : State :=
  { s with cores := s.cores.map fun (e : Nat × CoreSt) =>
      (e.1, { e.2 with written := [], partials := [], seq := { arrived := e.2.seq.arrived.map fun w => (w.1, 0), dropWords := e.2.seq.dropWords } }) }

/-- Forced ticks are counted, FORCED and its event follow the level in force (R56). -/
def State.countForced (s : State) : State :=
  let s := s.forcing id
  let s := if s.usable < s.tick.level then s.bump Reg.Ceil.FORCED_TICKS else s
  if s.get Reg.Tick.FORCED = 1 then s.bump Reg.Evc.STRETCH_FORCED else s

/-- END records of this boundary's state changes join the batch of the tick; the descriptors are free at the next boundary, unless the
continuation hold keeps them (R229, R234). -/
def State.foldEnds (s : State) : State :=
  let s := { s with records := s.records ++ s.lateRecords, lateRecords := [] }
  s.forAll (s.sessIds.filter fun n => (s.sess n).endPending) fun s n =>
    s.updSess n fun d =>
      if 1 ≤ d.endReason && d.endReason ≤ 3 && 0 < (s.asp d.airspace).contHold then { d with endPending := false, endSeen := false }
      else { d with endSeen := true }

/-- The registers that a boundary sets (R59, R174, R206, R207, R240). -/
def State.gaugeBoundary (s : State) : State :=
  s.gaugeTick.gaugeSessions.gaugeLanes.gaugeKv.gaugeCloud.gaugeWeights.gaugeFields.gaugePlan.gaugeDrain

/-- A boundary that runs: tick k − 1 ends, tick k begins at a level. -/
def State.runTick (s : State) (next : Nat) : State :=
  let k := s.nextCount
  let level := s.tick.level
  let s := if s.power.ladder = 0 then s else match s.start.testField with
    | some f => s.abandonTest f
    | none => s
  let s := (s.endTick k).fillBuckets.releaseBatches
  let (l, s) := s.takeDue k Deferred.latches
  let s := ((l.foldl State.lateLatch s).latchAll k).releaseAcks k
  let (l, s) := s.takeDue k fun d => !d.latches
  let s := l.foldl State.takeEffect s
  let missed := if s.tick.slotDone || !s.tick.started || !s.tick.running then 0 else s.boot.missedSlots + 1
  let s := (s.updBoot fun b => { b with missedSlots := if b.restartWindow then 0 else missed }).updTick fun t => { t with
    count := k, level := next, started := true, running := true, slotDone := false }
  let s := (s.takeChanges k level).beginCells.beginSeqs
  let s := s.forAll (List.range 8) fun s a => s.updAsp a AirspaceSt.settlePages
  (((s.writeRows k).countForced.watchForce).foldEnds.freeDests).gaugeBoundary.signal

/-! ### Lull (R48) -/

/-- Stacks of one state go to another: between accesses in Lull they are in power-down (R197). -/
def State.stacksTo (s : State) (old new : StackState) : State :=
  { s with hbm := s.hbm.map fun (e : Nat × StackSt) => (e.1, if e.2.st == old then { e.2 with st := new } else e.2) }

/-- Ticks stop: tick k was the last one that ran. Entry to Overcast or Standby goes on from here (R436). -/
def State.stopTicks (s : State) : State :=
  let s := s.updTick fun t => { t with running := false, lullAsked := false, lullLate := false, lullEndAsked := false }
  let s := (s.put Reg.Tick.RUNNING 0).put Reg.Tick.LULL 1
  if s.start.target == some .overcast || s.start.target == some .standby then (s.setPowerSt .lull).beginOvercast
  else if s.start.power == .active then
    let s := ((s.setPowerSt .lull).stacksTo .active .powerDown).gaugeCloud
    if s.lullCause then s.arrived else s.updTick fun t => { t with lullEndAsked := true }
  else s

/-- Ticks run again from this boundary, at the level of the word that it has (R48). During the exit from Overcast the power state follows with its completion (R438). -/
def State.restartTicks (s : State) : State :=
  let late := s.tick.lullLate
  let level := s.levelToCome
  let s := s.updTick fun t => { t with running := true, lullEndAsked := false, lullAsked := late, lullLate := false, slotDone := true }
  let s := (s.put Reg.Tick.RUNNING 1).put Reg.Tick.LULL 0
  let s := if s.start.power == .lull then (((s.setPowerSt .active).stacksTo .powerDown .active).gaugeCloud).arrived else s
  s.runTick level

/-- One point of the origin's P-cycle grid. -/
def opBoundary (s : State) : State :=
  if s.start.power == .off || s.start.power == .standby then s
  else
    let s := s.updTick fun t => { t with wall480 := t.wall480 + tickNs480 t.period t.level, wordEmitted := false }
    if s.tick.running then
      let s := s.takeSnapshots
      if s.tick.lullAsked then s.stopTicks
      else
        let late := s.tick.lullLate
        (s.updTick fun t => { t with lullAsked := late, lullLate := false }).runTick s.levelToCome
    else if s.tick.lullEndAsked then s.restartTicks
    else if s.tick.lullLate then s.updTick fun t => { t with lullEndAsked := true, lullLate := false }
    else s

def execTickBoundary (s : State) : Result := .next (opBoundary s)

end Sys2Proof.Machine
end

