-- ==== Sys2Proof/Machine/Dispatch.lean ====
section
/-! DEFINITION. The dispatch: one arm per command of the table, each one direct call of its meaning. -/

namespace Sys2Proof.Machine

def exec (i : Instr) (s : State) : Host.Outcome State Fault Refusal :=
  match i with
 | .tickBoundary => Sys2Proof.Machine.execTickBoundary s
 | .controlSlot => Sys2Proof.Machine.execControlSlot s
 | .idleControlSlot => Sys2Proof.Machine.execIdleControlSlot s
 | .waitLimitTimeout airspace request => Sys2Proof.Machine.execWaitLimitTimeout airspace request s
 | .wakeAbandoned field => Sys2Proof.Machine.execWakeAbandoned field s
 | .seqStaleTimeout => Sys2Proof.Machine.execSeqStaleTimeout s
 | .commandHeaderReturn produced repliesConsumed eventsConsumed => Sys2Proof.Machine.execCommandHeaderReturn produced repliesConsumed eventsConsumed s
 | .commandSlotReturn pkt => Sys2Proof.Machine.execCommandSlotReturn pkt s
 | .replyRingRoom consumed => Sys2Proof.Machine.execReplyRingRoom consumed s
 | .eventRingRoom consumed => Sys2Proof.Machine.execEventRingRoom consumed s
 | .hostWindowWrite addr value => Sys2Proof.Machine.execHostWindowWrite addr value s
 | .registerWrite addr value => Sys2Proof.Machine.execRegisterWrite addr value s
 | .unsupportedAccess addr size => Sys2Proof.Machine.execUnsupportedAccess addr size s
 | .hostLinkDown cause => Sys2Proof.Machine.execHostLinkDown cause s
 | .busMasterEnable => Sys2Proof.Machine.execBusMasterEnable s
 | .deviceInfo h page => Sys2Proof.Machine.execDeviceInfo h page s
 | .moduleReset h hold => Sys2Proof.Machine.execModuleReset h hold s
 | .zenithRestart h image => Sys2Proof.Machine.execZenithRestart h image s
 | .powerState h state applyTick => Sys2Proof.Machine.execPowerState h state applyTick s
 | .fieldReset h field => Sys2Proof.Machine.execFieldReset h field s
 | .setStretch h committed vaneWarning vaneRelease => Sys2Proof.Machine.execSetStretch h committed vaneWarning vaneRelease s
 | .setGranted h placement share applyTick => Sys2Proof.Machine.execSetGranted h placement share applyTick s
 | .setCore h scrub remoteWait mergeWindow linkDown => Sys2Proof.Machine.execSetCore h scrub remoteWait mergeWindow linkDown s
 | .setCap h cap storedDefault => Sys2Proof.Machine.execSetCap h cap storedDefault s
 | .setBreaker h field domain threshold clear => Sys2Proof.Machine.execSetBreaker h field domain threshold clear s
 | .setLead h lead => Sys2Proof.Machine.execSetLead h lead s
 | .setThermal h limit guard switchOff => Sys2Proof.Machine.execSetThermal h limit guard switchOff s
 | .install h placement airspace source timeLimit older => Sys2Proof.Machine.execInstall h placement airspace source timeLimit older s
 | .installCancel h placement => Sys2Proof.Machine.execInstallCancel h placement s
 | .flip h placement drain => Sys2Proof.Machine.execFlip h placement drain s
 | .planLoad h placement period sized replay => Sys2Proof.Machine.execPlanLoad h placement period sized replay s
 | .rebuild h placement airspace source timeLimit fields => Sys2Proof.Machine.execRebuild h placement airspace source timeLimit fields s
 | .repair h placement airspace source field slot => Sys2Proof.Machine.execRepair h placement airspace source field slot s
 | .removePlacement h placement => Sys2Proof.Machine.execRemovePlacement h placement s
 | .setWeights h rollback twinProtection => Sys2Proof.Machine.execSetWeights h rollback twinProtection s
 | .sessionQuery h handle => Sys2Proof.Machine.execSessionQuery h handle s
 | .sessionCancel h handles => Sys2Proof.Machine.execSessionCancel h handles s
 | .sessionPause h handle ttl => Sys2Proof.Machine.execSessionPause h handle ttl s
 | .sessionList h airspace mask first => Sys2Proof.Machine.execSessionList h airspace mask first s
 | .prefixUnregister h airspace prefixHandle => Sys2Proof.Machine.execPrefixUnregister h airspace prefixHandle s
 | .setRound h placement round => Sys2Proof.Machine.execSetRound h placement round s
 | .setSessionLimits h airspace waitList waitLimit contHold contrailHold => Sys2Proof.Machine.execSetSessionLimits h airspace waitList waitLimit contHold contrailHold s
 | .setSampling h airspace temperature topP topK minP => Sys2Proof.Machine.execSetSampling h airspace temperature topP topK minP s
 | .setKv h airspace ttl slots16k slots32k slots128k pool window => Sys2Proof.Machine.execSetKv h airspace ttl slots16k slots32k slots128k pool window s
 | .adapterLoad h placement airspace adapter source timeLimit => Sys2Proof.Machine.execAdapterLoad h placement airspace adapter source timeLimit s
 | .adapterRemove h placement airspace adapter => Sys2Proof.Machine.execAdapterRemove h placement airspace adapter s
 | .tuneStart h placement airspace adapter source timeLimit => Sys2Proof.Machine.execTuneStart h placement airspace adapter source timeLimit s
 | .tuneStop h placement => Sys2Proof.Machine.execTuneStop h placement s
 | .tuneCommit h placement => Sys2Proof.Machine.execTuneCommit h placement s
 | .tuneDiscard h placement => Sys2Proof.Machine.execTuneDiscard h placement s
 | .airspaceBind h airspace placement => Sys2Proof.Machine.execAirspaceBind h airspace placement s
 | .airspaceUnbind h airspace => Sys2Proof.Machine.execAirspaceUnbind h airspace s
 | .airspaceReset h airspace => Sys2Proof.Machine.execAirspaceReset h airspace s
 | .setShares h airspace slot kv cloud power => Sys2Proof.Machine.execSetShares h airspace slot kv cloud power s
 | .setAddress h airspace index address prefixLen udpPort vlan dhcp ipv4 => Sys2Proof.Machine.execSetAddress h airspace index address prefixLen udpPort vlan dhcp ipv4 s
 | .setFilter h airspace count => Sys2Proof.Machine.execSetFilter h airspace count s
 | .setDestination h airspace entry port udpPort address => Sys2Proof.Machine.execSetDestination h airspace entry port udpPort address s
 | .setEgress h airspace cap => Sys2Proof.Machine.execSetEgress h airspace cap s
 | .setEthPort h port mtu cap => Sys2Proof.Machine.execSetEthPort h port mtu cap s
 | .setLinkPlan h plan => Sys2Proof.Machine.execSetLinkPlan h plan s
 | .setStarChart h entries => Sys2Proof.Machine.execSetStarChart h entries s
 | .portReset h port => Sys2Proof.Machine.execPortReset h port s
 | .routeTable h applyTick entries => Sys2Proof.Machine.execRouteTable h applyTick entries s
 | .setLinkLimits h sounding portErrors => Sys2Proof.Machine.execSetLinkLimits h sounding portErrors s
 | .selfTest h field => Sys2Proof.Machine.execSelfTest h field s
 | .calibrate h field => Sys2Proof.Machine.execCalibrate h field s
 | .snapshot h offset length => Sys2Proof.Machine.execSnapshot h offset length s
 | .snapshotCopyComplete => Sys2Proof.Machine.execSnapshotCopyComplete s
 | .clearCounters h block field => Sys2Proof.Machine.execClearCounters h block field s
 | .eventMask h mask => Sys2Proof.Machine.execEventMask h mask s
 | .keyEnrol h airspace slot => Sys2Proof.Machine.execKeyEnrol h airspace slot s
 | .keyRevoke h airspace slot => Sys2Proof.Machine.execKeyRevoke h airspace slot s
 | .firmwareUpdate h image => Sys2Proof.Machine.execFirmwareUpdate h image s
 | .firmwareWriteComplete readBackOk => Sys2Proof.Machine.execFirmwareWriteComplete readBackOk s
 | .bmcCommand pkt => Sys2Proof.Machine.execBmcCommand pkt s
 | .decodeStart core => Sys2Proof.Machine.execDecodeStart core s
 | .prefillStart core => Sys2Proof.Machine.execPrefillStart core s
 | .prefillIssueStop core => Sys2Proof.Machine.execPrefillIssueStop core s
 | .decodeAbandon core => Sys2Proof.Machine.execDecodeAbandon core s
 | .replayStart core => Sys2Proof.Machine.execReplayStart core s
 | .exchangeFence core => Sys2Proof.Machine.execExchangeFence core s
 | .exchQueueTransfer core => Sys2Proof.Machine.execExchQueueTransfer core s
 | .maintenanceSlot field vanes selfCheckFailed => Sys2Proof.Machine.execMaintenanceSlot field vanes selfCheckFailed s
 | .closingGuard core => Sys2Proof.Machine.execClosingGuard core s
 | .tuningCell core backward => Sys2Proof.Machine.execTuningCell core backward s
 | .optimiserStep core => Sys2Proof.Machine.execOptimiserStep core s
 | .descriptorIssue core => Sys2Proof.Machine.execDescriptorIssue core s
 | .endProgram core d => Sys2Proof.Machine.execEndProgram core d s
 | .waitCycle core d => Sys2Proof.Machine.execWaitCycle core d s
 | .waitCycleExpiry core => Sys2Proof.Machine.execWaitCycleExpiry core s
 | .branchOnTrouble core d => Sys2Proof.Machine.execBranchOnTrouble core d s
 | .matvec core d => Sys2Proof.Machine.execMatvec core d s
 | .matvecT core d => Sys2Proof.Machine.execMatvecT core d s
 | .halo core d => Sys2Proof.Machine.execHalo core d s
 | .send core d => Sys2Proof.Machine.execSend core d s
 | .recv core d => Sys2Proof.Machine.execRecv core d s
 | .recvDeadline core => Sys2Proof.Machine.execRecvDeadline core s
 | .reduce core d => Sys2Proof.Machine.execReduce core d s
 | .gather core d => Sys2Proof.Machine.execGather core d s
 | .scatter core d => Sys2Proof.Machine.execScatter core d s
 | .norm core d => Sys2Proof.Machine.execNorm core d s
 | .act core d => Sys2Proof.Machine.execAct core d s
 | .glu core d => Sys2Proof.Machine.execGlu core d s
 | .rope core d => Sys2Proof.Machine.execRope core d s
 | .quant core d => Sys2Proof.Machine.execQuant core d s
 | .check core d => Sys2Proof.Machine.execCheck core d s
 | .vec core d => Sys2Proof.Machine.execVec core d s
 | .copy core d => Sys2Proof.Machine.execCopy core d s
 | .score core d => Sys2Proof.Machine.execScore core d s
 | .softmaxOnline core d => Sys2Proof.Machine.execSoftmaxOnline core d s
 | .value core d => Sys2Proof.Machine.execValue core d s
 | .kvAppend core d => Sys2Proof.Machine.execKvAppend core d s
 | .gate core d => Sys2Proof.Machine.execGate core d s
 | .dispatch core d => Sys2Proof.Machine.execDispatch core d s
 | .combine core d => Sys2Proof.Machine.execCombine core d s
 | .embed core d => Sys2Proof.Machine.execEmbed core d s
 | .logits core d => Sys2Proof.Machine.execLogits core d s
 | .sample core d => Sys2Proof.Machine.execSample core d s
 | .stateScan core d => Sys2Proof.Machine.execStateScan core d s
 | .cloudMove core d => Sys2Proof.Machine.execCloudMove core d s
 | .cloudMoveComplete core ok => Sys2Proof.Machine.execCloudMoveComplete core ok s
 | .bankInitComplete core bank => Sys2Proof.Machine.execBankInitComplete core bank s
 | .vaneLimit field => Sys2Proof.Machine.execVaneLimit field s
 | .vaneTrimLower field => Sys2Proof.Machine.execVaneTrimLower field s
 | .vaneDemandWithdraw => Sys2Proof.Machine.execVaneDemandWithdraw s
 | .coreLost field core condition => Sys2Proof.Machine.execCoreLost field core condition s
 | .railSettled field => Sys2Proof.Machine.execRailSettled field s
 | .vlogRaiseOrder field => Sys2Proof.Machine.execVlogRaiseOrder field s
 | .stewardStopOrder field powerOff => Sys2Proof.Machine.execStewardStopOrder field powerOff s
 | .stewardWakeOrder field => Sys2Proof.Machine.execStewardWakeOrder field s
 | .routeTableWrite router w => Sys2Proof.Machine.execRouteTableWrite router w s
 | .gustResend message => Sys2Proof.Machine.execGustResend message s
 | .beaconEmit => Sys2Proof.Machine.execBeaconEmit s
 | .beaconArrival field primary redundant => Sys2Proof.Machine.execBeaconArrival field primary redundant s
 | .beaconLossLimit field => Sys2Proof.Machine.execBeaconLossLimit field s
 | .periodHoldRelease => Sys2Proof.Machine.execPeriodHoldRelease s
 | .jetstreamArrival core cycle pkt => Sys2Proof.Machine.execJetstreamArrival core cycle pkt s
 | .routerPacketEntry router port cycle pkt => Sys2Proof.Machine.execRouterPacketEntry router port cycle pkt s
 | .fabricWrite core pkt => Sys2Proof.Machine.execFabricWrite core pkt s
 | .fabricRead core pkt => Sys2Proof.Machine.execFabricRead core pkt s
 | .fabricDataReply core pkt => Sys2Proof.Machine.execFabricDataReply core pkt s
 | .fabricStatusReply core pkt => Sys2Proof.Machine.execFabricStatusReply core pkt s
 | .remoteWaitTimeout core address => Sys2Proof.Machine.execRemoteWaitTimeout core address s
 | .linkDown router port => Sys2Proof.Machine.execLinkDown router port s
 | .detourComputed => Sys2Proof.Machine.execDetourComputed s
 | .forecastWord field word => Sys2Proof.Machine.execForecastWord field word s
 | .forecastMiss field window => Sys2Proof.Machine.execForecastMiss field window s
 | .powerLimitExceeded power vin => Sys2Proof.Machine.execPowerLimitExceeded power vin s
 | .forcedStretchRelease => Sys2Proof.Machine.execForcedStretchRelease s
 | .ceilingPowerLull => Sys2Proof.Machine.execCeilingPowerLull s
 | .powerLullRelease => Sys2Proof.Machine.execPowerLullRelease s
 | .ladderEvaluation p1 p10 vin iin => Sys2Proof.Machine.execLadderEvaluation p1 p10 vin iin s
 | .breakerTrip field domain => Sys2Proof.Machine.execBreakerTrip field domain s
 | .segmentTrip segment => Sys2Proof.Machine.execSegmentTrip segment s
 | .uvWarn vin => Sys2Proof.Machine.execUvWarn vin s
 | .inputUv vin => Sys2Proof.Machine.execInputUv vin s
 | .inputUvCleared => Sys2Proof.Machine.execInputUvCleared s
 | .inputLockout vin => Sys2Proof.Machine.execInputLockout vin s
 | .mainInputRestored => Sys2Proof.Machine.execMainInputRestored s
 | .mainInputReady => Sys2Proof.Machine.execMainInputReady s
 | .auxInputApplied straps => Sys2Proof.Machine.execAuxInputApplied straps s
 | .auxInputLost => Sys2Proof.Machine.execAuxInputLost s
 | .refclkMainLoss => Sys2Proof.Machine.execRefclkMainLoss s
 | .perstNAssert micros straps => Sys2Proof.Machine.execPerstNAssert micros straps s
 | .perstNRelease => Sys2Proof.Machine.execPerstNRelease s
 | .dawnCalibrationComplete region failedFields failedStacks => Sys2Proof.Machine.execDawnCalibrationComplete region failedFields failedStacks s
 | .placementBuilt placement => Sys2Proof.Machine.execPlacementBuilt placement s
 | .journalWriteComplete unwritten => Sys2Proof.Machine.execJournalWriteComplete unwritten s
 | .overcastExitComplete => Sys2Proof.Machine.execOvercastExitComplete s
 | .watchdogLull => Sys2Proof.Machine.execWatchdogLull s
 | .restartTimeout => Sys2Proof.Machine.execRestartTimeout s
 | .zenithStagingComplete ok => Sys2Proof.Machine.execZenithStagingComplete ok s
 | .zenithResumed => Sys2Proof.Machine.execZenithResumed s
 | .thermalSample r => Sys2Proof.Machine.execThermalSample r s
 | .ceilingThermalSample couplingA couplingB junctionMax => Sys2Proof.Machine.execCeilingThermalSample couplingA couplingB junctionMax s
 | .tripRelease => Sys2Proof.Machine.execTripRelease s
 | .flowLost flow => Sys2Proof.Machine.execFlowLost flow s
 | .fieldOffHeat field => Sys2Proof.Machine.execFieldOffHeat field s
 | .outlookFormation => Sys2Proof.Machine.execOutlookFormation s
 | .outlookFit => Sys2Proof.Machine.execOutlookFit s
 | .lifeIndexStore => Sys2Proof.Machine.execLifeIndexStore s
 | .imageChunk m => Sys2Proof.Machine.execImageChunk m s
 | .chunkAssemblyTimeout transfer chunk => Sys2Proof.Machine.execChunkAssemblyTimeout transfer chunk s
 | .chunkWritten transfer chunk => Sys2Proof.Machine.execChunkWritten transfer chunk s
 | .fieldReadbackComplete placement field badChunks => Sys2Proof.Machine.execFieldReadbackComplete placement field badChunks s
 | .installTimeout placement => Sys2Proof.Machine.execInstallTimeout placement s
 | .flipDrainComplete placement => Sys2Proof.Machine.execFlipDrainComplete placement s
 | .flipDrainTimeout placement => Sys2Proof.Machine.execFlipDrainTimeout placement s
 | .rollbackHoldExpiry placement => Sys2Proof.Machine.execRollbackHoldExpiry placement s
 | .mirrorCopyComplete field verified => Sys2Proof.Machine.execMirrorCopyComplete field verified s
 | .twinCopyComplete field verified => Sys2Proof.Machine.execTwinCopyComplete field verified s
 | .stratumScrub field bank page finding => Sys2Proof.Machine.execStratumScrub field bank page finding s
 | .tilePatchComplete field tile => Sys2Proof.Machine.execTilePatchComplete field tile s
 | .stackLost stack cause => Sys2Proof.Machine.execStackLost stack cause s
 | .pauseCopyComplete session => Sys2Proof.Machine.execPauseCopyComplete session s
 | .copyBackComplete session ok => Sys2Proof.Machine.execCopyBackComplete session ok s
 | .pauseTtlExpiry session => Sys2Proof.Machine.execPauseTtlExpiry session s
 | .continuationHoldExpiry session => Sys2Proof.Machine.execContinuationHoldExpiry session s
 | .contrailHoldExpiry session => Sys2Proof.Machine.execContrailHoldExpiry session s
 | .prefixPageCopyComplete airspace entry => Sys2Proof.Machine.execPrefixPageCopyComplete airspace entry s
 | .prefixCowComplete session => Sys2Proof.Machine.execPrefixCowComplete session s
 | .openMsg c p => Sys2Proof.Machine.execOpenMsg c p s
 | .openAssemblyTimeout airspace addr port seq => Sys2Proof.Machine.execOpenAssemblyTimeout airspace addr port seq s
 | .continueMsg c p => Sys2Proof.Machine.execContinueMsg c p s
 | .cancel c targetSeq => Sys2Proof.Machine.execCancel c targetSeq s
 | .pause c ttl => Sys2Proof.Machine.execPause c ttl s
 | .resume c => Sys2Proof.Machine.execResume c s
 | .retransmit c dest mode fromSeq toSeq => Sys2Proof.Machine.execRetransmit c dest mode fromSeq toSeq s
 | .ethernetFrame f => Sys2Proof.Machine.execEthernetFrame f s
 | .ethLinkDown port => Sys2Proof.Machine.execEthLinkDown port s
 | .dhcpv6LeaseEnd airspace => Sys2Proof.Machine.execDhcpv6LeaseEnd airspace s
 | .portTrained port delayNs lanes => Sys2Proof.Machine.execPortTrained port delayNs lanes s
 | .portTrainingTimeout port => Sys2Proof.Machine.execPortTrainingTimeout port s
 | .portDown port => Sys2Proof.Machine.execPortDown port s
 | .soundTimer => Sys2Proof.Machine.execSoundTimer s
 | .sound port m => Sys2Proof.Machine.execSound port m s
 | .floodQuiet => Sys2Proof.Machine.execFloodQuiet s
 | .soundingTimeLimit => Sys2Proof.Machine.execSoundingTimeLimit s
 | .obtikDataFrame port f => Sys2Proof.Machine.execObtikDataFrame port f s
 | .obtikAckFrame port f => Sys2Proof.Machine.execObtikAckFrame port f s
 | .linkReplayTimeout port channel => Sys2Proof.Machine.execLinkReplayTimeout port channel s
 | .obtikBeaconFrame port f => Sys2Proof.Machine.execObtikBeaconFrame port f s
 | .masterBeaconTimeout => Sys2Proof.Machine.execMasterBeaconTimeout s
 | .tickMaster srcModule master => Sys2Proof.Machine.execTickMaster srcModule master s
 | .tickDemand srcModule level usable forced => Sys2Proof.Machine.execTickDemand srcModule level usable forced s
 | .peerRouteTable srcModule applyTick entries => Sys2Proof.Machine.execPeerRouteTable srcModule applyTick entries s
 | .orderReply port code status => Sys2Proof.Machine.execOrderReply port code status s
 | .page write => Sys2Proof.Machine.execPage write s
 | .clearFaults => Sys2Proof.Machine.execClearFaults s
 | .capability => Sys2Proof.Machine.execCapability s
 | .voutMode => Sys2Proof.Machine.execVoutMode s
 | .statusWord => Sys2Proof.Machine.execStatusWord s
 | .statusVout => Sys2Proof.Machine.execStatusVout s
 | .statusIout => Sys2Proof.Machine.execStatusIout s
 | .statusInput => Sys2Proof.Machine.execStatusInput s
 | .statusTemperature => Sys2Proof.Machine.execStatusTemperature s
 | .statusCml => Sys2Proof.Machine.execStatusCml s
 | .readVin => Sys2Proof.Machine.execReadVin s
 | .readIin => Sys2Proof.Machine.execReadIin s
 | .readVout => Sys2Proof.Machine.execReadVout s
 | .readIout => Sys2Proof.Machine.execReadIout s
 | .readTemperature1 => Sys2Proof.Machine.execReadTemperature1 s
 | .readPout => Sys2Proof.Machine.execReadPout s
 | .readPin => Sys2Proof.Machine.execReadPin s
 | .pmbusRevision => Sys2Proof.Machine.execPmbusRevision s
 | .mfrId => Sys2Proof.Machine.execMfrId s
 | .mfrModel => Sys2Proof.Machine.execMfrModel s
 | .mfrPowerCap write => Sys2Proof.Machine.execMfrPowerCap write s
 | .mfrCapEffective => Sys2Proof.Machine.execMfrCapEffective s
 | .mfrLadder => Sys2Proof.Machine.execMfrLadder s
 | .pmbusUnsupported command => Sys2Proof.Machine.execPmbusUnsupported command s
 | .smbusAlertResponse => Sys2Proof.Machine.execSmbusAlertResponse s
 | .setEndpointId binding eid => Sys2Proof.Machine.execSetEndpointId binding eid s
 | .getEndpointId binding => Sys2Proof.Machine.execGetEndpointId binding s
 | .getEndpointUuid binding => Sys2Proof.Machine.execGetEndpointUuid binding s
 | .getMctpVersionSupport binding messageType => Sys2Proof.Machine.execGetMctpVersionSupport binding messageType s
 | .getMessageTypeSupport binding => Sys2Proof.Machine.execGetMessageTypeSupport binding s
 | .pldmBaseDiscovery command => Sys2Proof.Machine.execPldmBaseDiscovery command s
 | .pldmMonitoringRequest command sensor => Sys2Proof.Machine.execPldmMonitoringRequest command sensor s
 | .setEventReceiver eid => Sys2Proof.Machine.execSetEventReceiver eid s
 | .platformEventRetry => Sys2Proof.Machine.execPlatformEventRetry s
 | .getVersion binding => Sys2Proof.Machine.execGetVersion binding s
 | .getCapabilities binding => Sys2Proof.Machine.execGetCapabilities binding s
 | .negotiateAlgorithms binding rsapss4096 sha512 => Sys2Proof.Machine.execNegotiateAlgorithms binding rsapss4096 sha512 s
 | .getDigests binding => Sys2Proof.Machine.execGetDigests binding s
 | .getCertificate binding slot offset length => Sys2Proof.Machine.execGetCertificate binding slot offset length s
 | .challenge binding slot nonce => Sys2Proof.Machine.execChallenge binding slot nonce s
 | .getMeasurements binding index signed nonce => Sys2Proof.Machine.execGetMeasurements binding index signed nonce s
 | .spdmUnsupportedRequest binding code => Sys2Proof.Machine.execSpdmUnsupportedRequest binding code s
 | .bypass tdi => Sys2Proof.Machine.execBypass tdi s
 | .idcode => Sys2Proof.Machine.execIdcode s
 | .samplePreload pins => Sys2Proof.Machine.execSamplePreload pins s
 | .extest => Sys2Proof.Machine.execExtest s
 | .flashProg image offset data => Sys2Proof.Machine.execFlashProg image offset data s
 | .debug => Sys2Proof.Machine.execDebug s
 | .debugToken serial slot token signature => Sys2Proof.Machine.execDebugToken serial slot token signature s
 | .selfTestInterval => Sys2Proof.Machine.execSelfTestInterval s
 | .selfTestComplete failingStep => Sys2Proof.Machine.execSelfTestComplete failingStep s
 | .zenithNotServicing => Sys2Proof.Machine.execZenithNotServicing s
 | .ethLinkUp port => Sys2Proof.Machine.execEthLinkUp port s
 | .refclkMainRestored => Sys2Proof.Machine.execRefclkMainRestored s
 | .flashWpNChange released => Sys2Proof.Machine.execFlashWpNChange released s
 | .ordersRefused srcModule port code => Sys2Proof.Machine.execOrdersRefused srcModule port code s
 | .platformEventAck => Sys2Proof.Machine.execPlatformEventAck s

end Sys2Proof.Machine
end

