-- ==== Sys2Proof/Machine/Encode.lean ====
section
/-! DEFINITION. Command packets written out (R389, R401, R402): for every command of the packet families its opcode, its parameters with the
offset and length that R402 gives each, and the packet that spells it. -/

namespace Sys2Proof

/-- Parameters as (byte offset in the packet, length, value). -/
abbrev Layout := List (Nat × Nat × Nat)

/-- The parameter bytes 32-255 of a packet: each field little-endian at its offset, 0 elsewhere (R9, R402). -/
def paramBytes (l : Layout) : List Byte :=
  (List.range 224).map fun i =>
    match l.find? fun e => decide (e.1 ≤ 32 + i) && decide (32 + i < e.1 + e.2.1) with
    | some e => BitVec.ofNat 8 (e.2.2 / 256 ^ (32 + i - e.1))
    | none => 0

/-- Header, opcode, the parameters of the basic form, and those that the expert form adds. -/
structure PacketForm where
  header : CmdHdr
  opcode : Nat
  basic : Layout
  added : Layout
deriving DecidableEq, Repr

/-- Entries of a list as fields of one length, from an offset on, one stride apart. -/
def entryFields (o stride n : Nat) (l : List Nat) : Layout := (List.range l.length).map fun i => (o + stride * i, n, l.getD i 0)

/-- Device and power families (R403, R404). -/
def Instr.deviceForm : Instr → Option PacketForm
  | .deviceInfo h pg => some ⟨h, 0x0101, [], [(32, 1, pg)]⟩
  | .moduleReset h hold => some ⟨h, 0x0102, [], [(32, 1, hold)]⟩
  | .zenithRestart h image => some ⟨h, 0x0103, [], [(32, 1, image)]⟩
  | .powerState h st at_ => some ⟨h, 0x0104, [(32, 1, st)], [(40, 8, at_)]⟩
  | .fieldReset h f => some ⟨h, 0x0105, [(32, 1, f)], []⟩
  | .setStretch h c w r => some ⟨h, 0x0106, [(32, 1, c)], [(33, 1, w), (34, 1, r)]⟩
  | .setGranted h p share at_ => some ⟨h, 0x0107, [(32, 1, p), (33, 1, share)], [(40, 8, at_)]⟩
  | .setCore h a b c d => some ⟨h, 0x0108, [(32, 1, a)], [(36, 4, b), (40, 1, c), (42, 2, d)]⟩
  | .setCap h cap stored => some ⟨h, 0x0201, [(32, 4, cap)], [(36, 4, stored)]⟩
  | .setBreaker h f d th clear => some ⟨h, 0x0202, [(32, 1, f), (33, 1, d), (34, 2, th)], [(36, 1, clear)]⟩
  | .setLead h lead => some ⟨h, 0x0203, [(32, 1, lead)], []⟩
  | .setThermal h limit guard sw => some ⟨h, 0x0204, [(32, 1, limit)], [(33, 1, guard), (34, 1, sw)]⟩
  | _ => none

/-- Weights, adapter and tuning families (R405, R407). -/
def Instr.weightsForm : Instr → Option PacketForm
  | .install h p a src limit older => some ⟨h, 0x0301, [(32, 1, p), (33, 1, a), (40, 16, src)], [(56, 4, limit), (60, 1, older)]⟩
  | .installCancel h p => some ⟨h, 0x0302, [(32, 1, p)], []⟩
  | .flip h p limit => some ⟨h, 0x0303, [(32, 1, p)], [(34, 2, limit)]⟩
  | .planLoad h p period sized replay => some ⟨h, 0x0304, [(32, 1, p)], [(34, 2, period), (36, 1, sized), (37, 1, replay)]⟩
  | .rebuild h p a src limit fields => some ⟨h, 0x0305, [(32, 1, p), (33, 1, a), (40, 16, src)], [(56, 4, limit), (64, 16, fields)]⟩
  | .repair h p a src field slot => some ⟨h, 0x0306, [(32, 1, p), (33, 1, a), (40, 16, src)], [(56, 1, field), (60, 4, slot)]⟩
  | .removePlacement h p => some ⟨h, 0x0307, [(32, 1, p)], []⟩
  | .setWeights h rollback twin => some ⟨h, 0x0308, [(32, 4, rollback)], [(36, 1, twin)]⟩
  | .adapterLoad h p a id src limit => some ⟨h, 0x0501, [(32, 1, p), (33, 1, a), (34, 1, id), (40, 16, src)], [(56, 4, limit)]⟩
  | .adapterRemove h p a id => some ⟨h, 0x0502, [(32, 1, p), (33, 1, a), (34, 1, id)], []⟩
  | .tuneStart h p a id src limit => some ⟨h, 0x0503, [(32, 1, p), (33, 1, a), (34, 1, id), (40, 16, src)], [(56, 4, limit)]⟩
  | .tuneStop h p => some ⟨h, 0x0504, [(32, 1, p)], []⟩
  | .tuneCommit h p => some ⟨h, 0x0505, [(32, 1, p)], []⟩
  | .tuneDiscard h p => some ⟨h, 0x0506, [(32, 1, p)], []⟩
  | _ => none

/-- Session family (R406). The first handle of SESSION_CANCEL stands in the basic form, the further ones behind their count. -/
def Instr.sessionForm : Instr → Option PacketForm
  | .sessionQuery h n => some ⟨h, 0x0401, [(32, 4, n)], []⟩
  | .sessionCancel h l => some ⟨h, 0x0402, [(32, 4, l.headD 0)], if h.expert then (36, 1, l.length - 1) :: entryFields 40 4 4 l.tail else []⟩
  | .sessionPause h n ttl => some ⟨h, 0x0403, [(32, 4, n)], [(36, 4, ttl)]⟩
  | .sessionList h a mask first => some ⟨h, 0x0404, [(32, 1, a), (33, 1, mask)], [(34, 2, first)]⟩
  | .prefixUnregister h a x => some ⟨h, 0x0405, [(32, 1, a), (36, 4, x)], []⟩
  | .setRound h p r => some ⟨h, 0x0406, [(32, 1, p), (34, 2, r)], []⟩
  | .setSessionLimits h a l w c k => some ⟨h, 0x0407, [(32, 1, a), (34, 2, l)], [(36, 2, w), (40, 4, c), (44, 4, k)]⟩
  | .setSampling h a t p k m => some ⟨h, 0x0408, [(32, 1, a), (36, 4, t)], [(40, 4, p), (44, 2, k), (48, 4, m)]⟩
  | .setKv h a t x y z pool w =>
    some ⟨h, 0x0409, [(32, 1, a), (36, 4, t)], [(40, 2, x), (42, 2, y), (44, 2, z), (46, 2, pool), (48, 4, w)]⟩
  | _ => none

/-- The fields of a link plan (R310, R409): 4 bytes a group. -/
def planFields (p : LinkPlan) : Layout :=
  [(32, 1, p.modules), (33, 1, p.master), (34, 1, p.mode), (36, 1, p.groups.length)] ++ entryFields 38 4 2 (p.groups.map (·.ports))
    ++ entryFields 40 4 1 (p.groups.map (·.neighbour)) ++ entryFields 41 4 1 (p.groups.map fun g => if g.equiv then 1 else 0)

/-- Airspace, link, diagnostic, event and security families (R408-R412). -/
def Instr.serviceForm : Instr → Option PacketForm
  | .airspaceBind h a p => some ⟨h, 0x0601, [(32, 1, a), (33, 1, p)], []⟩
  | .airspaceUnbind h a => some ⟨h, 0x0602, [(32, 1, a)], []⟩
  | .airspaceReset h a => some ⟨h, 0x0603, [(32, 1, a)], []⟩
  | .setShares h a x y z w => some ⟨h, 0x0604, [(32, 1, a), (33, 1, x)], [(34, 1, y), (35, 1, z), (36, 1, w)]⟩
  | .setAddress h a i addr len u v d x =>
    some ⟨h, 0x0605, [(32, 1, a), (33, 1, i), (40, 16, addr), (56, 1, len)], [(58, 2, u), (60, 2, v), (62, 1, d), (64, 16, x)]⟩
  | .setFilter h a n => some ⟨h, 0x0606, [(32, 1, a), (33, 1, n)], []⟩
  | .setDestination h a e p u addr => some ⟨h, 0x0607, [(32, 1, a), (33, 1, e), (34, 1, p), (36, 2, u), (40, 16, addr)], []⟩
  | .setEgress h a cap => some ⟨h, 0x0608, [(32, 1, a), (34, 2, cap)], []⟩
  | .setEthPort h p mtu cap => some ⟨h, 0x0609, [(32, 1, p), (34, 2, mtu)], [(36, 2, cap)]⟩
  | .setLinkPlan h plan => some ⟨h, 0x0701, planFields plan, []⟩
  | .setStarChart h l => some ⟨h, 0x0702, entryFields 32 2 1 (l.map Prod.fst) ++ entryFields 33 2 1 (l.map Prod.snd), []⟩
  | .portReset h p => some ⟨h, 0x0703, [(32, 1, p)], []⟩
  | .routeTable h at_ l => some ⟨h, 0x0704, (32, 8, at_) :: entryFields 40 1 1 l, []⟩
  | .setLinkLimits h x y => some ⟨h, 0x0705, [(32, 1, x)], [(34, 2, y)]⟩
  | .selfTest h f => some ⟨h, 0x0801, [(32, 1, f)], []⟩
  | .calibrate h f => some ⟨h, 0x0802, [(32, 1, f)], []⟩
  | .snapshot h o n => some ⟨h, 0x0803, [(32, 4, o), (36, 4, n)], []⟩
  | .clearCounters h b f => some ⟨h, 0x0901, [(32, 1, b)], [(33, 1, f)]⟩
  | .eventMask h m => some ⟨h, 0x0902, [(32, 4, m.toNat)], []⟩
  | .keyEnrol h a n => some ⟨h, 0x0A01, [(32, 1, a), (33, 1, n)], []⟩
  | .keyRevoke h a n => some ⟨h, 0x0A02, [(32, 1, a), (33, 1, n)], []⟩
  | .firmwareUpdate h i => some ⟨h, 0x0A03, [(32, 1, i)], []⟩
  | _ => none

/-- The form of a command of the packet families. -/
def Instr.form (i : Instr) : Option PacketForm := i.deviceForm.or (i.weightsForm.or (i.sessionForm.or i.serviceForm))

/-- Every value fits its field; what the basic form leaves out is all ones, which leaves a setting unchanged (R401, R402). -/
def PacketForm.fits (f : PacketForm) : Bool :=
  (f.basic ++ f.added).all (fun e => decide (e.2.2 < 256 ^ e.2.1)) && (f.header.expert || f.added.all fun e => e.2.2 == 256 ^ e.2.1 - 1)

/-- Lists of a command as long as its packet carries them: at most 46 groups, 12 chart entries, 64 table entries, and 1 or, in the expert
form, 1 to 54 handles. -/
def Instr.listsFit : Instr → Bool
  | .setLinkPlan _ p => decide (p.groups.length ≤ 46)
  | .setStarChart _ l => l.length == 12
  | .routeTable _ _ l => l.length == 64
  | .sessionCancel h l => if h.expert then decide (1 ≤ l.length) && decide (l.length ≤ 54) else l.length == 1
  | _ => true

/-- The packet that spells a form. -/
def PacketForm.packet (f : PacketForm) : CmdPacket :=
  ⟨if f.header.expert then f.opcode + 128 else f.opcode, f.header.seq, 0, f.header.buffer, f.header.bufferLen,
    paramBytes (if f.header.expert then f.basic ++ f.added else f.basic), f.header.data⟩

end Sys2Proof
end

