-- ==== Sys2Proof/Safety.lean ====
section
/-! DEFINITION. The terms in which claims about the block are made: what it means that a command was answered, and that a step changed
nothing but what it names. -/

namespace Sys2Proof.Machine

/-- A reply without its ring number, which it gets when it is written. -/
def Reply.unnumbered (r : Reply) : Reply := { r with num := 0 }

/-- The replies in what left the module, oldest first. -/
def repliesIn : List Out → List Reply
  | [] => []
  | .reply r :: l => r.unnumbered :: repliesIn l
  | _ :: l => repliesIn l

/-- The BMC's replies in what left the module, oldest first. -/
def bmcRepliesIn : List Out → List Reply
  | [] => []
  | .bmcReply r :: l => r.unnumbered :: bmcRepliesIn l
  | _ :: l => bmcRepliesIn l

/-- Every answer given to a source so far: the host's are written to its ring or wait for room there (R390), the BMC's go back on its
channel (R428). -/
def State.answersTo (s : State) : Src → List Reply
  | .host => repliesIn s.out ++ s.host.held.map Reply.unnumbered
  | .bmc => bmcRepliesIn s.out
  | _ => []

/-- The registers an answer moves: the counters REFUSED and SUPERSEDED, and REPLY_SEQ with RPL_FULL (R390, R396). -/
def answerRegs : List Nat := [Reg.Evc.REFUSED.addr, Reg.Evc.SUPERSEDED.addr, Reg.Hwin.REPLY_SEQ.addr, Reg.Hwin.RPL_FULL.addr]

/-- `t` is `s` with one more answer to `src`, stamped with the running tick, and nothing else changed: only the reply bookkeeping
of the host interface and the four registers above may differ. -/
structure Answered (s t : State) (src : Src) (r : Reply) : Prop where
  given : t.answersTo src = s.answersTo src ++ [{ r with num := 0, tick := s.tick.count }]
  others : ∀ o : Src, o ≠ src → t.answersTo o = s.answersTo o
  out : s.out <+: t.out
  frame : t = { s with
    regs := t.regs
    out := t.out
    host := { s.host with held := t.host.held, replyNum := t.host.replyNum, sigReply := t.host.sigReply } }
  regs : ∀ a, a ∉ answerRegs → t.reg a = s.reg a

/-- The event records in what left the module, oldest first. -/
def eventsIn : List Out → List Event
  | [] => []
  | .event e :: l => e :: eventsIn l
  | _ :: l => eventsIn l

/-- Every event record written so far, and those that wait for room behind them (R394). -/
def State.eventsGiven (s : State) : List Event := eventsIn s.out ++ s.host.eventQueue

/-- The registers that writing waiting records moves: REPLY_SEQ with RPL_FULL, and EVENT_SEQ (R390, R394). -/
def ringRegs : List Nat := [Reg.Hwin.REPLY_SEQ.addr, Reg.Hwin.RPL_FULL.addr, Reg.Hwin.EVENT_SEQ.addr]

/-- `t` is `s` after records that waited were written to the two rings as there was room: no answer and no event record is lost, changed or
moved past another, and nothing else differs. -/
structure RingsWritten (s t : State) : Prop where
  answers : ∀ o : Src, t.answersTo o = s.answersTo o
  events : t.eventsGiven = s.eventsGiven
  out : s.out <+: t.out
  frame : t = { s with
    regs := t.regs
    out := t.out
    host := { s.host with
      held := t.host.held
      replyNum := t.host.replyNum
      sigReply := t.host.sigReply
      eventQueue := t.host.eventQueue
      sigEvent := t.host.sigEvent
      sigUrgent := t.host.sigUrgent } }
  regs : ∀ a, a ∉ ringRegs → t.reg a = s.reg a

/-- `t` is `s` but for link state, registers, event bookkeeping and what left the module; every answer stands. -/
structure LinksMoved (s t : State) : Prop where
  frame : t = { s with links := t.links, regs := t.regs, host := t.host, out := t.out }
  out : s.out <+: t.out
  answers : ∀ o : Src, t.answersTo o = s.answersTo o

/-- The final reply of a command with a status and nothing in RESULT. -/
def finalOf (h : CmdHdr) (op : Nat) (st : Status) : Reply := { seq := h.seq, opcode := opOf h op, status := st, final := true }

/-- The PENDING reply of a command. -/
def pendingOf (h : CmdHdr) (op : Nat) : Reply := { seq := h.seq, opcode := opOf h op, status := .pending, final := false }

/-- BAD_PARAMETER with the byte offset of the faulty field (R391). -/
def badFieldOf (h : CmdHdr) (op offset : Nat) : Reply :=
  { seq := h.seq, opcode := opOf h op, status := .badParameter, final := true, detail := offset }

/-- The outcome is a next state that is `e` with one more answer. -/
def Gives (o : Host.Outcome State Fault Refusal) (e : State) (src : Src) (r : Reply) : Prop := ∃ t, o = .next t ∧ Answered e t src r

/-- The outcome accepts an order that takes effect at the next boundary (R30, R388): it stands last in the deferred list; answered OK while
ticks run, and PENDING, with the final reply owed, while none do. Nothing else changes. -/
def Books (o : Host.Outcome State Fault Refusal) (s : State) (h : CmdHdr) (op : Nat) (i : Instr) : Prop :=
  Gives o { s with host := { s.host with deferred := s.host.deferred ++ [⟨i, s.tick.count + 1, !s.tick.running⟩] } } h.src
    (if s.tick.running then finalOf h op .ok else pendingOf h op)

/-- The same for an order that is answered PENDING in every case. -/
def BooksPending (o : Host.Outcome State Fault Refusal) (s : State) (h : CmdHdr) (op : Nat) (i : Instr) : Prop :=
  Gives o { s with host := { s.host with deferred := s.host.deferred ++ [⟨i, s.tick.count + 1, true⟩] } } h.src (pendingOf h op)

/-- The outcome refuses a command with a status, and nothing else changes. -/
def Refuses (o : Host.Outcome State Fault Refusal) (s : State) (h : CmdHdr) (op : Nat) (st : Status) : Prop := Gives o s h.src (finalOf h op st)

/-- The outcome refuses a command with BAD_PARAMETER at an offset, and nothing else changes. -/
def BadField (o : Host.Outcome State Fault Refusal) (s : State) (h : CmdHdr) (op offset : Nat) : Prop := Gives o s h.src (badFieldOf h op offset)

/-- A setting of w bits that a command carries: all ones, which leaves the stored one, or in its range (R402). -/
def Setting (w v lo hi : Nat) : Prop := v = 2 ^ w - 1 ∨ (lo ≤ v ∧ v ≤ hi)

/-- The setting after the command (R402). -/
def picked (w v old : Nat) : Nat := if v = 2 ^ w - 1 then old else v

/-- A field of the expert form, which the basic form does not have (R401). -/
def Expert (h : CmdHdr) (p : Prop) : Prop := h.expert = true → p

/-- The fields of a command are judged in order, each by its condition: the first that fails is answered BAD_PARAMETER with its byte offset, with
nothing else changed; where none fails the rest of the rule holds (R12, R391). -/
def InOrder (o : Host.Outcome State Fault Refusal) (s : State) (h : CmdHdr) (op : Nat) : List (Nat × Prop) → Prop → Prop
  | [], good => good
  | (offset, ok) :: rest, good => (¬ok → BadField o s h op offset) ∧ (ok → InOrder o s h op rest good)

/-- An event of a code is recorded: it stands in the ring or its queue, unless its family is masked or the queue was full, and while the Zenith does
not serve it waits for that (R374, R394). -/
def Reported (s t : State) (code : Nat) : Prop :=
  if s.zenithServing then
    eventMasked s.host.mask code = true ∨ t.get Reg.Hwin.EVT_OVERFLOW = 1 ∨ ∃ l, t.eventsGiven = s.eventsGiven ++ l ∧ ∃ e ∈ l, e.code = code
  else ∃ l, t.host.late = s.host.late ++ l ∧ ∃ e ∈ l, e.code = code

/-! ### Power states and resets -/

/-- An order that waited gets its final reply; where none waited nothing changes. -/
def Told (s t : State) (cmd : Option (Nat × Src × Nat)) (st : Status) (detail : Nat) : Prop :=
  match cmd with
  | none => t = s
  | some (seq, src, op) => Answered s t src { seq := seq, opcode := op, status := st, final := true, detail := detail }

/-- A Lull reaches the origin's next word, or the one after it where that word has begun (R48). -/
def TickSt.calledToLull (t : TickSt) : TickSt :=
  if t.running then (if t.wordEmitted then { t with lullLate := true } else { t with lullAsked := true })
  else if t.wordEmitted && t.lullEndAsked then { t with lullLate := true } else { t with lullEndAsked := false, lullLate := false }

/-- `t` is `s` with the end of Lull asked for, where no cause of it is left (R48, R436). -/
def LullReleased (s t : State) : Prop :=
  (s.lullCause = true → t = s)
  ∧ (s.lullCause = false → s.tick.running = true →
    t = { s with tick := { s.tick with lullAsked := s.tick.lullAsked && s.tick.wordEmitted, lullLate := false } })
  ∧ (s.lullCause = false → s.tick.running = false →
    if s.start.power = .lull ∨ (s.start.power = .overcast ∧ s.start.target = some .active) then
      t = { s with tick := if s.tick.wordEmitted then { s.tick with lullLate := true } else { s.tick with lullEndAsked := true } }
    else t = s)

/-- `t` is `s` with a journal of the descriptors in use begun, none of them valid yet, unless one is being written (R236, R444). -/
def JournalBegun (s t : State) (cause : Nat) : Prop :=
  if s.start.journal.running then t = s
  else
    t = { s with start := { s.start with journal := t.start.journal }, regs := t.regs }
    ∧ (let j := t.start.journal
      j.generation = s.start.journal.generation + 1 ∧ j.tick = s.tick.count ∧ j.cause = cause ∧ j.complete = false ∧ j.consumed = false
      ∧ j.running = true ∧ (∀ e ∈ j.entries, e.valid = false ∧ e.desc = s.sess e.index)
      ∧ ∀ n ∈ s.sessIds, (s.sess n).st ≠ .free → ∃ e ∈ j.entries, e.index = n)
    ∧ ∀ a, a ≠ Reg.Start.JOURNAL_GEN_LO.addr → a ≠ Reg.Start.JOURNAL_GEN_HI.addr → t.reg a = s.reg a

/-- `t` is `s` with the way to Overcast, or through it to Standby, begun (R436, R437): from Active through Lull; from Lull the sessions are carried over
and the journal begins. A way already begun keeps its cause and may go on to Standby; in any other power state nothing changes. -/
def LeavingBegun (s t : State) (cause : Nat) (standby : Bool) : Prop :=
  let begun := s.start.target = some .overcast ∨ s.start.target = some .standby
  let on : Bool := standby || s.start.target == some .standby
  let start : StartSt := { s.start with
    target := some (if on then .standby else .overcast), entryCause := if begun then s.start.entryCause else cause, entryStandby := on }
  if s.start.power ≠ .active ∧ s.start.power ≠ .lull then t = s
  else if begun then t = { s with start := start }
  else if s.tick.running then t = { s with start := start, tick := s.tick.calledToLull }
  else
    t.start = { start with journal := t.start.journal } ∧ t.start.journal.running = true ∧ t.tick = s.tick ∧ t.fields = s.fields
    ∧ t.thermal = s.thermal ∧ t.power = s.power
    ∧ ∀ n, (t.sess n).st = .free ∨ (t.sess n).st = .paused ∨ (t.sess n).st = .ended

/-- `t` is `s` in Standby (R435, R436): the conversion is off and what stood in the scratchpads and stacks is gone, the BMC's bounds are none, and an order
that waited is answered OK; sessions, placements, settings and stored state stand. -/
structure StandbyReached (s t : State) : Prop where
  start : t.start = { s.start with target := none, phase := 0, serving := false, power := .standby, powerCmd := none }
  tick : t.tick = { s.tick with running := false, lullAsked := false, lullLate := false, lullEndAsked := false }
  gone : t.cores = [] ∧ t.hbm = []
  power : t.power = { s.power with segOn := [], bmcCap := none, capEff := t.power.capEff }
  thermal : t.thermal = { s.thermal with bmcLimit := none, bmcGuard := none }
  fields : ∀ f, f < 88 → s.fields.has f = true → t.field f = { s.field f with on := 0, clock := .stopped }
  host : t.host = { s.host with
    linkUp := false, fetching := false, cfg := t.host.cfg, held := t.host.held, replyNum := t.host.replyNum, sigReply := t.host.sigReply }
  answer : ∀ seq src op, s.start.powerCmd = some (seq, src, op) → src = .host ∨ src = .bmc →
    t.answersTo src = s.answersTo src ++ [{ seq := seq, opcode := op, status := .ok, final := true, tick := s.tick.count }]
  quiet : s.start.powerCmd = none → ∀ o : Src, t.answersTo o = s.answersTo o
  out : s.out <+: t.out
  frame : t = { s with
    start := t.start, tick := t.tick, cores := [], hbm := [], power := t.power, thermal := t.thermal, fields := t.fields, host := t.host, regs := t.regs
    mgmt := t.mgmt, out := t.out }

/-- `t` is `s` after a cold reset (`cold`) or a module reset (R439, R447): the run-time state is gone, the stored state stands, and start-up is at its
step 1; of a cold reset nothing of the BMC's bounds is left. -/
structure ResetTaken (s t : State) (cold hold : Bool) (cause straps : Nat) : Prop where
  gone : t.cores = [] ∧ t.sessions = [] ∧ t.hbm = [] ∧ t.transfers = [] ∧ t.assemblies = [] ∧ t.records = [] ∧ t.tick = {}
  start : t.start = {
    power := .standby, phase := 1, resetCause := cause, straps := straps, moduleId := straps, perstHeld := s.start.perstHeld
    carry := s.start.carry, testInterval := s.start.testInterval, lastTested := s.start.lastTested
    journal := { s.start.journal with running := false }, holdInLull := hold }
  caps : t.power.storedCap = s.power.storedCap ∧ t.power.hostCap = s.power.storedCap ∧ t.power.hostSet = false
    ∧ t.power.bmcCap = if cold then none else s.power.bmcCap
  limits : t.thermal.tLim = s.thermal.tLim ∧ t.thermal.guard = s.thermal.guard ∧ t.thermal.switchOff = s.thermal.switchOff
    ∧ t.thermal.bmcLimit = (if cold then none else s.thermal.bmcLimit) ∧ t.thermal.bmcGuard = if cold then none else s.thermal.bmcGuard
  stored : t.rollbackHold = s.rollbackHold ∧ t.twinProtection = s.twinProtection ∧ t.links.storedPlan = s.links.storedPlan
    ∧ t.boot.preference = s.boot.preference ∧ ∀ a, t.asp a = (s.asp a).kept
  fields : ∀ f, (t.field f).powerRecord = (s.field f).powerRecord ∧ (t.field f).lifeIndex = (s.field f).storedLife
  -- an installation under way gives up what it had claimed
  images : s.transfers = [] → (∀ p, t.plc p = { (s.plc p).kept with twinNone := (t.plc p).twinNone }) ∧ ∀ f, t.field f = (s.field f).kept
  -- an update that is cut leaves its area without an image
  cut : ∀ u, s.boot.update = some u → t.boot.update = none ∧ (if u.image = 0 then t.boot.area0 else t.boot.area1) = ⟨false, []⟩
  queue : t.pending = s.pending ∧ s.out <+: t.out

/-! ### The PMBus device -/

/-- `t` is `s` after a fault of communication: the page's STATUS_CML bit, SMBALERT#, no data, and nothing else (R339). -/
def PmFaulted (s t : State) (command b : Nat) : Prop :=
  t = { s with
    mgmt := { s.mgmt with statusCml := t.mgmt.statusCml }, power := { s.power with alert := true }, regs := t.regs
    out := s.out ++ (if s.power.alert then [] else [.pin "PWR_ALERT_N" true]) ++ [.pmbusNack command] }
  ∧ t.mgmt.statusCml.getD s.mgmt.page 0 = s.mgmt.statusCml.getD s.mgmt.page 0 ||| 2 ^ b
  ∧ (∀ p, p ≠ s.mgmt.page → t.mgmt.statusCml.getD p 0 = s.mgmt.statusCml.getD p 0)
  ∧ (s.power.alert = false → t.get Reg.Pow.ALERT = 1) ∧ ∀ a, a ≠ Reg.Pow.ALERT.addr → t.reg a = s.reg a

/-- The PMBus device answers (R425): with its auxiliary input, and not in ROM recovery. -/
def State.pmServes (s : State) : Prop := s.start.power ≠ .off ∧ s.boot.recovery = false

/-- A read command: its bytes on the pages it has, a fault of communication on another (STATUS_CML[7]), and silence while the device does not
answer; a read changes nothing (R339, R340, R425). -/
def PmReads (i : Instr) (s : State) (command : Nat) (onPage : Prop) (data : List Byte) : Prop :=
  (¬s.pmServes → exec i s = .next s)
  ∧ (s.pmServes → onPage → exec i s = .next (s.emit (.pmbus command data)))
  ∧ (s.pmServes → ¬onPage → ∃ t, exec i s = .next t ∧ PmFaulted s t command 7)

/-- What a page gives: in Standby pages 2-23 read 0 (R425). -/
def State.paged (s : State) (data : List Byte) : List Byte :=
  if s.start.power = .standby ∧ 2 ≤ s.mgmt.page ∧ s.mgmt.page ≤ 23 then data.map fun _ => 0 else data

/-! ### Links -/

/-- A follower may take its beacon from port k: ACTIVE, delayed at most 560 ns, its peer at most 7 hops from the master (R317). -/
def State.beaconOk (s : State) (k : Nat) : Prop := k < 12 ∧ (s.port k).st = .active ∧ (s.port k).delayNs ≤ 560 ∧ (s.port k).peerHops ≤ 7

/-- Port q is the one to take the beacon from, port n aside: the fewest hops, a tie to the lower number (R317). -/
def State.beaconFrom (s : State) (n q : Nat) : Prop :=
  q ≠ n ∧ s.beaconOk q ∧ ∀ k, k ≠ n → s.beaconOk k → (s.port q).peerHops < (s.port k).peerHops ∨ ((s.port q).peerHops = (s.port k).peerHops ∧ q ≤ k)

/-- `t` is `s` in holdover (R319): the follower's level is its own from here on, it takes no beacon, and MASTER_LOST is reported; its count, the level in
force and everything but link state and the tick's demand stand. -/
structure InHoldover (s t : State) : Prop where
  links : t.links.holdover = true ∧ t.links.beaconPort = none ∧ t.links.relayWord = none
  tick : t.tick = { s.tick with
    zenith := s.tick.level, lullAsked := t.tick.lullAsked, lullLate := t.tick.lullLate, lullEndAsked := t.tick.lullEndAsked }
  lost : t.get Reg.Link.MASTER_LOST = 1 ∧ Reported s t 0x070A
  frame : LinksMoved { s with tick := t.tick } t

/-- Port n yields no beacon any more (R319): a follower that took it from there goes on with the next eligible port, in holdover without one;
otherwise nothing of the shared tick changes. -/
structure BeaconLost (s t : State) (n : Nat) : Prop where
  stay : s.following = false ∨ s.links.beaconPort ≠ some n →
    t.links.beaconPort = s.links.beaconPort ∧ t.links.holdover = s.links.holdover ∧ LinksMoved s t
  next : s.following = true → s.links.beaconPort = some n → (∃ k, k ≠ n ∧ s.beaconOk k) → t.links.holdover = false ∧ LinksMoved s t
    ∧ ∃ q, s.beaconFrom n q ∧ t.links.beaconPort = some q ∧ t.links.hops = (s.port q).peerHops + 1
  alone : s.following = true → s.links.beaconPort = some n → (∀ k, k ≠ n → ¬s.beaconOk k) → InHoldover s t

/-- `t` is `s` with port n down, to train from the start (R303, R320): a new flood begins, and the other ports and the plan stand. -/
structure PortFallen (s t : State) (n : Nat) : Prop where
  port : t.port n = { s.port n with st := .down, trainFails := 0, lanes := 0, heldCause := 0, seen := false, peerHops := 15 }
  others : ∀ m, m ≠ n → t.port m = s.port m
  plan : t.links.plan = s.links.plan ∧ t.links.routes = s.links.routes ∧ t.links.graph = s.links.graph
  flood : t.links.newEntry = true
  beacon : BeaconLost s t n

/-- A frame joins a channel of port q: it waits behind the others, and where the port is ACTIVE with a credit and room in the replay buffer, the oldest
that waits is sent with the next SEQ and kept for an acknowledgement (R307). -/
def FrameJoined (s t : State) (q vc : Nat) (f : ObtikFrame) : Prop :=
  let c := (s.port q).chan vc
  t = { s with links := { s.links with ports := t.links.ports }, out := t.out } ∧ (∀ m, m ≠ q → t.port m = s.port m)
  ∧ ∀ g rest, c.waiting ++ [f] = g :: rest →
    if (s.port q).st = .active ∧ c.replay.length < min 256 c.credit then
      let sent := withSeq g ((c.txSeq + 1) % 65536)
      t.out = s.out ++ [.obtik q sent]
      ∧ t.port q = (s.port q).setChan vc { c with txSeq := (c.txSeq + 1) % 65536, waiting := rest, replay := c.replay ++ [sent] }
    else t.out = s.out ∧ t.port q = (s.port q).setChan vc { c with waiting := c.waiting ++ [f] }

/-- `t` is `s` after port n acknowledged what it has received in order; its credits are free values (R306, R307). -/
def AckSent (s t : State) (n : Nat) : Prop :=
  ∃ x y, t = { s with freeUses := s.freeUses + 1, out := s.out ++ [.obtik n (linkFrame { type := 1, srcModule := s.start.moduleId }
    (leBytes 2 (s.port n).gust.rxSeq ++ leBytes 2 (s.port n).cloud.rxSeq ++ leBytes 2 x ++ leBytes 2 y))] }

/-- The sender of a frame is told a STATUS (1 REFUSED, 3 ERROR) on the Cloud channel, where a port leads to its module (R282, R305, R314). -/
def StatusSent (s t : State) (x : LinkHdr) (status : Nat) : Prop :=
  let f := linkFrame
    { type := 0, vc := 2, destModule := x.srcModule, srcModule := s.start.moduleId, dest := x.src, src := x.dest, tag := x.tag
      placement := x.placement, kind := 3 } (leBytes 2 status ++ leBytes 2 (x.len + 1) ++ leBytes 4 x.addr ++ List.replicate 24 0)
  let y := LinkHdr.decode f.header
  (s.choosePort y = none → t = s) ∧ ∀ q, s.choosePort y = some q → FrameJoined s t q 2 (frameOf y f.words)

/-- What a frame taken at port n does (R308, R314, R315): for this module a DATA frame that the inbound table admits enters the fabric by the port's
engine, an order waits for the control slot, and the answer to an order does nothing; for another module the frame goes on with one hop less. A DATA
frame not admitted, and one that cannot go on, is counted, and a READ among them is answered REFUSED. -/
def FrameCarried (s t : State) (n : Nat) (x : LinkHdr) (words : List Flit) : Prop :=
  let stopped : Prop :=
    let u := s.bump (Reg.Link.LINK_FILTER n)
    if x.type = 0 ∧ x.kind = 1 then StatusSent u t x 1 else t = u
  let admitted : Prop := ∃ e ∈ s.links.inbound,
    e.srcModule = x.srcModule ∧ e.tag = x.tag ∧ e.placement = x.placement ∧ e.destLo ≤ x.dest ∧ x.dest ≤ e.destHi
  let data := words.flatMap fun w => (flitRead w).1
  let byte (i : Nat) : Nat := leNat ((data.drop i).take 1)
  let waits (o : PeerOrder) : Prop := t = { s with links := { s.links with orders := s.links.orders ++ [o] } }
  let on : LinkHdr := { x with hops := x.hops - 1 }
  let route : Route :=
    { dest := x.dest, addr := x.addr, vc := x.vc, tag := x.tag, placement := x.placement, mcast := false, drop := x.drop, ackreq := x.ackreq
      kind := x.kind, len := words.length - 1, src := engineOf n }
  (x.destModule = s.start.moduleId →
    (x.type = 0 → (¬admitted → stopped)
      ∧ (admitted → t = { s with
          links := { s.links with reads := if x.kind = 1 then
              s.links.reads ++ [⟨engineOf n, x.dest, x.addr, leNat (((flitRead (words.headD 0)).1).take 4) % 2 ^ 20, x.srcModule, x.src⟩]
            else s.links.reads }
          out := s.out ++ [.localPacket (engineOf n) { route := route.encode, crc := routeCrc route.encode, flits := words }] }))
    ∧ (x.type = 3 →
      let code := leNat (data.take 2)
      (code = 1 → waits (.tickMaster x.srcModule (byte 12)))
      ∧ (code = 2 → waits (.routeTable x.srcModule (leNat ((data.drop 4).take 8)) ((List.range 64).map fun i => byte (12 + i))))
      ∧ (code = 3 → waits (.tickDemand x.srcModule (byte 12) (byte 13) (byte 14 % 2 == 1)))
      ∧ (code = 0 ∨ 3 < code → exec (.ordersRefused x.srcModule n code) s = .next t))
    ∧ (x.type = 5 → t = s))
  ∧ (x.destModule ≠ s.start.moduleId →
    (x.hops = 0 ∨ x.vc = 1 ∨ s.choosePort on = none → stopped)
    ∧ (0 < x.hops → x.vc ≠ 1 → ∀ q, s.choosePort on = some q →
      if x.type = 5 then t = { s with out := s.out ++ [.obtik q (frameOf on words)] } else FrameJoined s t q x.vc (frameOf on words)))

/-! ### Operations of a core's program -/

/-- Nothing in core c's scratchpad stands in an operation's way: every bank up, no check symbol wrong, no redirection to a failed core's segments
(R79), and no earlier write of a higher rank in the operation's cycle (R68). -/
structure OpReady (s : State) (c : Nat) : Prop where
  banks : ∀ b, b < 16 → (s.core c).bankUp b = true
  clean : (s.core c).scErr = []
  own : (s.core c).deputyOf = none ∨ ((s.core c).seq.prog ≠ 2 ∧ (s.core c).seq.prog ≠ 3)
  first : ∀ e ∈ (s.core c).written, e.2.1 = (s.core c).seq.wrCycle → (s.core c).seq.wrRank ≤ e.2.2

/-- Operand o of row v is the range of `len` words from linear address `a` on, and may be used (R88, R89). -/
def Operand (s : State) (c v o len a : Nat) : Prop := resolve o (s.row c v) v = some a ∧ faulty o (s.row c v) a len = false

/-- n words of core c's scratchpad from a linear address. -/
def State.wordsAt (s : State) (c a n : Nat) : List Byte := (s.core c).mem.bytes (32 * a) (32 * n)

/-- n groups of a format that stand at a linear address. -/
def State.groupsAt (s : State) (c a : Nat) (f : Fmt) (n : Nat) : List (List W32) := (groupsOf f n (s.wordsAt c a (n * f.words))).1

/-- n input groups of a format that stand at a linear address, as the MAC array takes them (R118). -/
def State.inputsAt (s : State) (c a : Nat) (f : Fmt) (n : Nat) : List (List Int × Int) :=
  (List.range n).map fun g =>
    let x := inputConvert f (((s.wordsAt c a (n * f.words)).drop (32 * f.words * g)).take (32 * f.words))
    (x.1, x.2.1)

/-- The counters that an operation of core c may move: those of its field's arithmetic and stratum (R76, R140, R207), and the core's own. -/
def opCounters (c : Nat) : List Nat :=
  let f := coreField c
  [Reg.Arith.NAN_IN f, Reg.Arith.SCALE_CLAMP f, Reg.Arith.WSCALE_NAN f, Reg.Arith.RESCALE_BUMP f, Reg.Arith.SAT_TOTAL f, Reg.Arith.UNDERFLOW_TOTAL f,
   Reg.Arith.TROUBLED_GROUPS f, Reg.Kv.KV_SAT f, Reg.FGen.STRATUM_CORR f, Reg.Core.STRATUM_UNCORR f (coreNum c), Reg.Core.WRITE_COLLIDE f (coreNum c),
   Reg.Seq.TROUBLE_ACCEPTED f (coreNum c)].map Fld.addr

/-- `t` is `s` but for core c's scratchpad, the record of what was written in the tick, the counters of its operations, and the notes its field
keeps of weight scales of NaN and of tiles found uncorrectable; the latter only where `tiles` holds. -/
structure Touched (s t : State) (c : Nat) (tiles : Prop) : Prop where
  frame : t = { s with cores := t.cores, regs := t.regs, fields := t.fields }
  others : ∀ n, n ≠ c → t.core n = s.core n
  core : t.core c = { s.core c with mem := (t.core c).mem, written := (t.core c).written, tileErrors := (t.core c).tileErrors }
  fields : ∀ f, f ≠ coreField c → t.field f = s.field f
  field : t.field (coreField c)
    = { s.field (coreField c) with nanRead := (t.field (coreField c)).nanRead, unpatched := (t.field (coreField c)).unpatched }
  kept : ¬tiles → (t.core c).tileErrors = (s.core c).tileErrors ∧ (t.field (coreField c)).unpatched = (s.field (coreField c)).unpatched
  regs : ∀ q, q ∉ opCounters c → t.reg q = s.reg q

/-- `t` is `s` after the bytes were written into core c's scratchpad from a linear address on: they stand there, every other byte of it is
unchanged, and beyond it only what `Touched` names may differ. -/
structure Wrote (s t : State) (c : Nat) (tiles : Prop) (a : Nat) (bs : List Byte) : Prop extends Touched s t c tiles where
  bytes : (t.core c).mem.bytes (32 * a) bs.length = bs
  rest : ∀ x, (x < 32 * a ∨ 32 * a + bs.length ≤ x) → (t.core c).mem.read x = (s.core c).mem.read x

/-- The tile that core c's crossbar read delivers: a patch first, else the live bank's; what is uncorrectable contributes nothing (R76, R169). -/
def State.tileSeen (s : State) (c t : Nat) : Tile :=
  let b := s.liveBankOf (coreField c)
  match tilePlace b.mem t with
  | none => ⟨[], 0, 4, false⟩
  | some (slot, half, width) =>
    match (s.field (coreField c)).patches.find? fun p => p.tile == t with
    | some p => ⟨p.slot, half, width, true⟩
    | none => ⟨slotBytes b.mem slot, half, width, decide (b.err.getD slot 0 < 2)⟩

/-- What core c puts on its fabric port to write the bytes at a word address of an endpoint: WRITE packets of at most 64 words (R281, R294). -/
def State.wordPackets (s : State) (c dest addr vc tag : Nat) (mcast drop : Bool) (bs : List Byte) : List Out :=
  (List.range ((bs.length / 32 + 63) / 64)).map fun i => .localPacket c (packetOf
    { dest := dest, addr := addr + 64 * i, vc := vc, tag := tag, placement := s.placementOf c, mcast := mcast, drop := drop, ackreq := false
      kind := 0, len := 0, src := c } ((bs.drop (2048 * i)).take 2048))

/-- The words that row v of a descriptor waits for (R89, R102, R105). -/
def State.wordsDue (s : State) (c : Nat) (d : W256) (v : Nat) : List Nat := rangeWords (awaited d (s.row c v) v)

/-- `z` is `y` once a waiting operation completes with what arrived by cycle `at_` (R92, R105, R109): its rows that arrived with the row-drop bit are
dropped; a REDUCE forms its results row by row, written by the move unit in the cycle before they are readable; the words waited for are consumed,
and the operation stands among those that have completed. -/
def WaitDone (c : Nat) (y : State) (w : RecvWait) (at_ : Nat) (z : State) : Prop :=
  let rows := y.activeRows c w.d
  let ready := if dOp w.d = 0x22 then at_ + y.reduceTail c w.d else at_
  ∃ s1 s2 : State, s1 = { y with cores := s1.cores } ∧ (∀ k, k ≠ c → s1.core k = y.core k)
    ∧ s1.core c = { y.core c with
        decRows := (s1.core c).decRows, preRows := (s1.core c).preRows, seq := { (y.core c).seq with wrRank := 4, wrCycle := ready - 1 } }
    ∧ (∀ u, s1.row c u
        = { y.row c u with drop := (y.row c u).drop || (rows.contains u && (y.wordsDue c w.d u).any (y.core c).seq.dropWords.contains) })
    ∧ s2 = (if dOp w.d = 0x22 then rows.foldl (reduceRow c w.d) s1 else s1)
    ∧ z = { s2 with cores := z.cores } ∧ (∀ k, k ≠ c → z.core k = s2.core k)
    ∧ z.core c = { s2.core c with seq := { (s2.core c).seq with
        arrived := (y.core c).seq.arrived.filter fun e => !rows.any fun u => (y.wordsDue c w.d u).contains e.1
        dropWords := (y.core c).seq.dropWords.filter fun x => !rows.any fun u => (y.wordsDue c w.d u).contains x
        waits := (y.core c).seq.waits.filter (· != w)
        flights := (z.core c).seq.flights } }
    ∧ ∃ f : Flight, (z.core c).seq.flights = (y.core c).seq.flights ++ [f] ∧ f.unit = 4 ∧ f.start = w.start ∧ f.ready = ready

/-- A core with every row it works on marked dropped (R41). -/
def CoreSt.marked (k : CoreSt) : CoreSt :=
  { k with
    dropped := true
    decRows := k.decRows.map fun e => (e.1, { e.2 with drop := true })
    preRows := k.preRows.map fun e => (e.1, { e.2 with drop := true }) }

/-- A sequencer that has given up its program. -/
def SeqSt.stopped (q : SeqSt) : SeqSt := { q with prog := 0, waits := [], ending := false, waitUntil := none }

/-- A sequencer at the first descriptor of a program, which issues 2 cycles after `cycle` (R93). -/
def SeqSt.atProgram (q : SeqSt) (prog base cycle : Nat) : SeqSt :=
  { q with prog := prog, pc := base, cycle := cycle + 2, waits := [], ending := false, waitUntil := none }

/-- A sequencer at the start of what a core runs after decode: a tuning program in an assigned cell, else prefill, where there is one (R96, R265). -/
def State.afterDecode (s : State) (c : Nat) (q : SeqSt) : SeqSt :=
  let k := s.core c
  let q := { q with prefillDue := false }
  let start := max (48 + (s.planOf c).d + k.extension) q.cycle
  let run (prog : Nat) (x : Prog) : SeqSt := if x.len = 0 then q else q.atProgram prog x.base start
  match s.cellOf c with
  | some true => run 8 k.tuneBwd
  | some false => run 7 k.tuneFwd
  | none => run 4 k.prefill

/-- The block that entry e of row v's block map names, if it is listed and valid (R182, R188). -/
def State.blockOf (s : State) (c v e : Nat) : Option Nat :=
  let m := (s.row c v).blockMap
  let w := leNat (((s.wordsAt c (m + 1 + e / 8) 1).drop (e % 8 * 4)).take 4)
  if (mapHead (s.wordsAt c m 1)).entries ≤ e || w / 2 ^ 31 % 2 = 0 then none else some (w % 2 ^ 20)

end Sys2Proof.Machine
end

