-- ==== Sys2Proof/Certificates/Slice0/Obligations.lean ====
section
/-! DEFINITION. The statements about the model, for the provers. Each cites the rules of the manual that it says, by number; a clause that
rests on a choice of the model names its entry of the assumption log. -/

section
open Sys2Proof Sys2Proof.Machine

/-- A step takes the command at the front of the queue and runs it on the state with the rest of the queue; with an empty queue the block
idles, which is the model's choice (assumption log 1). No word spells a command: the opcode table gives no row bits. -/
def Obligations.StepRunsTheFrontCommand : Prop :=
  (∀ (s : State) (c : Instr) (rest : List Instr), s.pending = c :: rest → step s = exec c { s with pending := rest })
  ∧ (∀ s : State, s.pending = [] → step s = .next s)
  ∧ ∀ (s : State) (n w : Nat), decodeTableWord n w = none ∧ s.withFetchWord n w = s

/-- Every command but one ends in a next state, in every state and with every operand; DEBUG does until a debug token has been accepted, and
then stops by name, for the manual does not describe the debug unit (R430, R431). -/
def Obligations.EveryCommandEndsInANextState : Prop :=
  ∀ (s : State) (c : Instr), (c ≠ .debug → ∃ t, exec c s = .next t)
    ∧ (s.boot.debugOpen = false → ∃ t, exec .debug s = .next t)
    ∧ (s.boot.debugOpen = true → exec .debug s = .refused .debugUnit)

/-- No command changes the queue of waiting commands: each is taken from it by the step alone, first in, first out. -/
def Obligations.CommandsLeaveTheQueueAlone : Prop :=
  ∀ (s t : State) (c : Instr), exec c s = .next t → t.pending = s.pending

/-- R417: the boot ROM boots an image under a slot that is not revoked, or stays in recovery; every step from a state in which some slot is not revoked
leads to such a state; no step takes a burnt revocation bit or counter bit back (R418). -/
def Obligations.AKeySlotAlwaysRemains : Prop :=
  (∀ (s : State) (full : Bool),
    let b := (s.romBoot full).boot
    (b.recovery = true ∧ b.zenithUp = false)
      ∨ (b.zenithUp = true ∧ b.revokedSlot b.keySlot = false ∧ b.keySlot = (s.boot.info b.bootImage).keySlot))
  ∧ ∀ s t : State, step s = .next t → s.boot.revoked % 16 ≠ 15 →
    t.boot.revoked % 16 ≠ 15 ∧ s.boot.counter ≤ t.boot.counter ∧ s.boot.revoked &&& t.boot.revoked = s.boot.revoked

/-- R1, R49, R34, R55, R175, R343, R361, R417, R435: at reset the module is Off with its factory settings: no placement is live, no airspace
bound, no key enrolled, no session open, every stratum bank empty, the tick count 0 and not running, the period 4,800 cycles, and a key slot
left to boot under; nothing waits in the queue. -/
def Obligations.ResetIsTheFactoryModule : Prop :=
  let s := State.reset
  s.pending = [] ∧ s.out = [] ∧ s.start.power = .off ∧ s.tick.running = false ∧ s.tick.count = 0 ∧ s.tick.period = 4800
  ∧ s.tick.level = 0 ∧ s.tick.committed = 16 ∧ s.tick.vaneWarn = 20 ∧ s.tick.vaneRelease = 45
  ∧ s.power.hostCap = 15000 ∧ s.power.bmcCap = none ∧ s.power.lead = 2 ∧ s.thermal.tLim = 95 ∧ s.thermal.guard = 3 ∧ s.thermal.switchOff = true
  ∧ s.rollbackHold = 0 ∧ s.twinProtection = true ∧ s.boot.revoked % 16 ≠ 15
  ∧ (∀ p, (s.plc p).live = false ∧ (s.plc p).image = none ∧ (s.plc p).imageState = .empty)
  ∧ (∀ a, (s.asp a).placement = none ∧ (s.asp a).keys = [] ∧ (s.asp a).prefixes = [])
  ∧ (∀ n, (s.sess n).st = .free)
  ∧ (∀ f, ((s.field f).bank0.st = .empty ∧ (s.field f).bank1.st = .empty) ∧ (s.field f).bank0.mem = [] ∧ (s.field f).bank1.mem = [])
  ∧ (∀ f, f ∈ Config.serviceFields → (s.field f).role = .service) ∧ (∀ f, f ∈ Config.factoryClearings → (s.field f).role = .clearing)
  ∧ ∀ n, (s.core n).mem.wf = true

/-- R387, R388: with the link up and fetch running, the header's three fields are taken, records that waited are written as there is room, and
then up to 32 slots are read, from FETCHED + 1 up to PRODUCED, unless RPL_FULL is 1 or slots are being read. A slot whose SEQ is the expected
one joins the commands that wait for the control slot, with the tick it came in, and moves FETCHED and COMMANDS; any other is counted stale
and is read again, and with none being read nothing is taken. After its time a stale slot is answered BAD_PARAMETER with DETAIL 4 and the sequence moves on. Nothing else changes.
R379, R390, R394: the host's counts of consumed records are taken, and what has room is written in order, no answer and no event record
lost; a link that goes down ends the reads in flight, returns the configuration header to what that cause leaves, and clears FETCHING; bus
mastering in D0 brings the link back, fetch resumes where it stood (windows all written and not yet passed are judged), and records that
waited are written. Nothing else changes. The rate and
width of a link that trains are free values (log entry 150). -/
def Obligations.CommandRingsKeepSequenceAndAnswers : Prop :=
  (∀ (s : State) (p : CmdPacket) (a b c : W32),
     let next := if 0xFFFFFFFF ≤ s.host.fetched then 1 else s.host.fetched + 1
     (s.host.linkUp = true → s.host.fetching = true → ∃ u, RingsWritten { s with host := { s.host with
           produced := a.toNat, repliesConsumed := b.toNat, eventsConsumed := c.toNat } } u
         ∧ let n := min 32 (seqAfter s.host.fetched a.toNat)
           exec (.commandHeaderReturn a b c) s = .next (if u.get Reg.Hwin.RPL_FULL = 1 ∨ s.host.reading ≠ 0 ∨ n = 0 then u
             else { u with host := { u.host with reading := n }, out := u.out ++ [.readSlots next n] }))
     ∧ (s.host.linkUp = true → s.host.fetching = true → s.host.reading ≠ 0 → p.seq = next →
         ∃ t, exec (.commandSlotReturn p) s = .next t ∧ t.host = { s.host with
           fetched := next, staleRun := 0, staleOp := 0, reading := s.host.reading - 1
           fetchedPkts := s.host.fetchedPkts ++ [(s.tick.count, p)] }
         ∧ t = { s with host := t.host, regs := t.regs } ∧ (next < 2 ^ 32 → t.get Reg.Hwin.FETCHED = next)
         ∧ t.get Reg.Evc.COMMANDS = min (s.get Reg.Evc.COMMANDS + 1) (2 ^ 32 - 1)
         ∧ ∀ r, r ≠ Reg.Hwin.FETCHED.addr → r ≠ Reg.Evc.COMMANDS.addr → t.reg r = s.reg r)
     ∧ (s.host.linkUp = true → s.host.fetching = true → s.host.reading ≠ 0 → p.seq ≠ next →
         ∃ t, exec (.commandSlotReturn p) s = .next t ∧ t.host = { s.host with
           reading := 0, staleRun := s.host.staleRun + 1, staleOp := p.opcode }
         ∧ t = { s with host := t.host, regs := t.regs } ∧ t.get Reg.Evc.SEQ_STALE = min (s.get Reg.Evc.SEQ_STALE + 1) (2 ^ 32 - 1)
         ∧ ∀ r, r ≠ Reg.Evc.SEQ_STALE.addr → t.reg r = s.reg r)
     ∧ (s.host.linkUp = false ∨ s.host.fetching = false → exec (.commandHeaderReturn a b c) s = .next s ∧ exec (.commandSlotReturn p) s = .next s)
     ∧ (s.host.reading = 0 → exec (.commandSlotReturn p) s = .next s)
     ∧ (s.host.staleRun ≠ 0 → Gives (exec .seqStaleTimeout s)
         (State.put { s with host := { s.host with fetched := next, staleRun := 0, staleOp := 0 } } Reg.Hwin.FETCHED next) .host
         { seq := next, opcode := s.host.staleOp, status := .badParameter, final := true, detail := 4 })
     ∧ (s.host.staleRun = 0 → exec .seqStaleTimeout s = .next s))
  ∧ (∀ (s : State) (n : W32) (cause : LinkDownCause),
       (∃ t, exec (.replyRingRoom n) s = .next t ∧ RingsWritten { s with host := { s.host with repliesConsumed := n.toNat } } t
         ∧ t.host.eventQueue = s.host.eventQueue ∧ ∃ l, s.host.held = l ++ t.host.held)
       ∧ (∃ t, exec (.eventRingRoom n) s = .next t ∧ RingsWritten { s with host := { s.host with eventsConsumed := n.toNat } } t
         ∧ t.host.held = s.host.held ∧ ∃ l, s.host.eventQueue = l ++ t.host.eventQueue)
       ∧ (exec (.hostLinkDown cause) s = .next (State.put { s with host := { s.host with
           linkUp := false, reading := 0, cfg := s.host.cfg.down cause } } Reg.Hwin.FETCHING 0))
       ∧ (s.barOn = true → ∃ link uses, (s.host.cfg.link.isSome = true → link = s.host.cfg.link ∧ uses = s.freeUses)
         ∧ (∃ r w, link = some (r, w) ∧ (s.host.cfg.link = none → r ∈ [25, 50, 80, 160, 320, 640] ∧ w ∈ [1, 2, 4]))
         ∧ let u : State := { s with freeUses := uses, host := { s.host with
             linkUp := true, cfg := { s.host.cfg with link := link, busMaster := true, d3hot := false } } }
           (s.host.fetching = true ∨ (∃ a ∈ windowRegs, a ∉ s.host.written) → u.judgeWindows = u)
           ∧ ∃ t, exec .busMasterEnable s = .next t
             ∧ RingsWritten (u.judgeWindows.put Reg.Hwin.FETCHING (if u.judgeWindows.host.fetching = true then 1 else 0)) t)
       ∧ (s.barOn = false → exec .busMasterEnable s = .next s))

/-- R380 (and R7, R385): an access of a wrong size or alignment gets Unsupported Request and is counted; an address without a register, and
every reserved bit, reads 0 and ignores writes. The first write of a window register sets and locks it, and the windows are judged; a later write, or one with a size out of
range, is ignored and counted; a write of one to a write-one-to-clear bit clears it, a read-write bit takes the value written, and a write to a
read-only register does nothing. While BAR0 does not answer, a write changes nothing. -/
def Obligations.RegisterWritesFollowAccessCodes : Prop :=
  ∀ (s : State) (a size : Nat) (v : W32),
    (s.barOn = false → exec (.hostWindowWrite a v) s = .next s ∧ exec (.registerWrite a v) s = .next s ∧ exec (.unsupportedAccess a size) s = .next s)
    ∧ (s.barOn = true →
    (let tooBig : Prop := (a = 0x50008 ∧ 4 < v.toNat % 16) ∨ (a = 0x50010 ∧ 6 < v.toNat % 16)
     (a ∈ rwlRegs → a ∉ s.host.written → ¬tooBig → ∃ u : State, exec (.hostWindowWrite a v) s = .next u.judgeWindows ∧ u.reg a = v &&& accessMask a .rwl
        ∧ (∀ r, r ≠ a → u.reg r = s.reg r) ∧ u = { s with host := { s.host with written := s.host.written ++ [a] }, regs := u.regs })
     ∧ (a ∈ rwlRegs → (a ∈ s.host.written ∨ tooBig) → ∃ t, exec (.hostWindowWrite a v) s = .next t ∧ t = { s with regs := t.regs }
        ∧ (∀ r, r ≠ Reg.Evc.BAD_ACCESS.addr → t.reg r = s.reg r)
        ∧ t.get Reg.Evc.BAD_ACCESS = min (s.get Reg.Evc.BAD_ACCESS + 1) (2 ^ 32 - 1)))
    ∧ (a ∉ rwlRegs → exec (.hostWindowWrite a v) s = .next s)
    ∧ (a % 4 = 0 → a ∈ rwlRegs → exec (.registerWrite a v) s = exec (.hostWindowWrite a v) s)
    ∧ (a % 4 = 0 → a ∉ rwlRegs → accessMask a .rw1c = 0 → accessMask a .rw = 0 → exec (.registerWrite a v) s = .next s)
    ∧ (a % 4 = 0 → a ∉ rwlRegs → ¬(accessMask a .rw1c = 0 ∧ accessMask a .rw = 0) →
      ∃ t, exec (.registerWrite a v) s = .next t ∧ t = { s with out := t.out, regs := t.regs }
        ∧ t.reg a = ((s.reg a &&& ~~~(accessMask a .rw1c &&& v)) &&& ~~~(accessMask a .rw)) ||| (v &&& accessMask a .rw)
        ∧ ∀ r, r ≠ a → (∀ n, n < 8 → (Reg.Msix.PENDING n).addr ≠ r) → t.reg r = s.reg r)
    ∧ (let unsupported (o : Host.Outcome State Fault Refusal) : Prop := ∃ t, o = .next t
          ∧ t = { s with out := s.out ++ [.unsupportedRequest a], regs := t.regs } ∧ (∀ r, r ≠ Reg.Evc.BAD_ACCESS.addr → t.reg r = s.reg r)
          ∧ t.get Reg.Evc.BAD_ACCESS = min (s.get Reg.Evc.BAD_ACCESS + 1) (2 ^ 32 - 1)
       unsupported (exec (.unsupportedAccess a size) s) ∧ (a % 4 ≠ 0 → unsupported (exec (.registerWrite a v) s)))
    ∧ (rowsAt a = [] → s.readReg a = 0 ∧ (a % 4 = 0 → exec (.registerWrite a v) s = .next s))
    ∧ ∀ i, (∀ r ∈ rowsAt a, i < r.lo ∨ max r.lo r.hi < i) → (s.readReg a).getLsbD i = false
        ∧ (a % 4 = 0 → a ∉ rwlRegs → ∀ t, exec (.registerWrite a v) s = .next t → (t.reg a).getLsbD i = (s.reg a).getLsbD i))

/-- R428: the BMC's packet with a permitted opcode waits for the control slot, any other is answered NOT_PERMITTED at once, in each case with
nothing else changed.
R398, R428: a command of the packet families whose source is the BMC and whose opcode is none of its six is answered NOT_PERMITTED and has
no other effect, whatever its operands and the state. -/
def Obligations.BmcChannelAdmitsSixCommands : Prop :=
  (∀ (s : State) (p : CmdPacket), s.start.power ≠ .off → s.boot.recovery = false → s.start.power ≠ .standby →
     (p.basic ∈ [0x0101, 0x0102, 0x0104, 0x0201, 0x0202, 0x0204] →
       exec (.bmcCommand p) s = .next { s with host := { s.host with bmcQueue := s.host.bmcQueue ++ [.packet p] } })
     ∧ (p.basic ∉ [0x0101, 0x0102, 0x0104, 0x0201, 0x0202, 0x0204] →
       Gives (exec (.bmcCommand p) s) s .bmc { seq := p.seq, opcode := p.opcode, status := .notPermitted, final := true }))
  ∧ (∀ (s : State) (i : Instr) (f : PacketForm), i.form = some f → f.header.src = .bmc →
       f.opcode ∉ [0x0101, 0x0102, 0x0104, 0x0201, 0x0202, 0x0204] → Refuses (exec i s) s f.header f.opcode .notPermitted)

/-- R389, R401, R402: a packet written out from a command by the parameter tables reads back as that command, for every command of the
packet families, in basic and expert form, with every operand at every value its field holds. -/
def Obligations.PacketsSpellTheirCommands : Prop :=
  ∀ (i : Instr) (f : PacketForm), i.form = some f → f.fits = true → i.listsFit = true → f.packet.order f.header.src = some i

/-- R388, R397: what the control slot applies for a packet is the command it spells: carried out by the same rule as the command itself. -/
def Obligations.PacketsAreCarriedOutAsTheirCommands : Prop :=
  ∀ (s : State) (i : Instr) (f : PacketForm), i.form = some f → f.fits = true → i.listsFit = true → f.header.src = .host →
    f.header.bufferLen ≤ 16777216 → exec i s = .next (s.applyPacket .host f.packet)

/-- R49 (and R10, R46, R48, R54): the tick count is 0 at the first boundary that runs after a reset and one more at each later one, modulo
2^64, or the relayed count of the tick master; it stands while ticks do not run. A boundary that runs begins the next tick at the level of
its word: the ordered one, or after a Lull the level in force when it ended; a Lull that was asked stops the ticks and, from Active with nothing further ordered, ends in the Lull state; a module that is off or in Standby has no
boundary. -/
def Obligations.BoundariesCountOrStop : Prop :=
  ∀ (s : State),
    (∀ cold windows cause, (s.afterReset cold windows cause).tick.started = false)
    ∧ ((s.start.power = .off ∨ s.start.power = .standby) → exec .tickBoundary s = .next s)
    ∧ (s.start.power ≠ .off → s.start.power ≠ .standby →
      let later := s.tick.wall480 + s.tick.period * (200 + s.tick.level)
      ((s.tick.running = true ∧ s.tick.lullAsked = false) ∨ (s.tick.running = false ∧ s.tick.lullEndAsked = true) →
        ∃ t, exec .tickBoundary s = .next t ∧ t.tick.running = true ∧ t.tick.started = true
          ∧ (s.tick.running = true ∨ s.following = true → t.tick.level = s.nextLevel)
          ∧ (s.tick.running = false → s.following = false → t.tick.level = s.tick.level)
          ∧ (s.following = false → t.tick.count = if s.tick.started then (s.tick.count + 1) % 2 ^ 64 else 0)
          ∧ (s.following = true → s.tick.count < s.links.relayTick → t.tick.count = s.links.relayTick % 2 ^ 64)
          ∧ t.tick.wall480 = later ∧ t.tick.slotDone = false ∧ t.get Reg.Tick.TCK_COUNT_LO = t.tick.count % 2 ^ 32)
      ∧ (s.tick.running = true → s.tick.lullAsked = true → ∃ t, exec .tickBoundary s = .next t ∧ t.tick.running = false ∧ t.tick.count = s.tick.count)
      ∧ (s.tick.running = true → s.tick.lullAsked = true → s.start.power = .active → s.start.target = none →
        ∃ t, exec .tickBoundary s = .next t ∧ t.tick.running = false ∧ t.tick.count = s.tick.count ∧ t.tick.wall480 = later
          ∧ t.start.power = .lull ∧ t.get Reg.Tick.LULL = 1 ∧ t.get Reg.Tick.RUNNING = 0 ∧ t.sessions = s.sessions ∧ t.fields = s.fields
          ∧ t.placements = s.placements)
      ∧ (s.tick.running = false → s.tick.lullEndAsked = false → ∃ t, exec .tickBoundary s = .next t ∧ t = { s with tick := t.tick }
        ∧ t.tick.running = false ∧ t.tick.count = s.tick.count ∧ t.tick.lullEndAsked = s.tick.lullLate ∧ t.tick.lullLate = false))

/-- R27, R28, R388: the stewards' forecasts go out in a control slot whether or not the Zenith serves; a slot is served once a tick, and then
reads the header of an open command ring; with nothing waiting an idle slot recomputes the cap and the health, reads that header, and moves
nothing else, and nothing at all while the Zenith does not serve; there is no idle slot while ticks run and no control slot while none do.
Packets that a router has held since a guard enter it first in every control slot (R38). -/
def Obligations.ControlSlotsServeOnce : Prop :=
  ∀ (s : State),
    let u := s.afterGuard
    let quiet : Prop := s.host.deferred = [] ∧ s.host.bmcQueue = [] ∧ s.host.fetchedPkts = [] ∧ s.links.orders = []
    let forecasts (t : State) : Prop := ∀ f ∈ computeFields, (t.field f).on % 2 = 1 → ∃ w, Out.forecast f w ∈ t.out
    ((∀ f, (s.router f).held = []) → u = s)
    ∧ (s.tick.running = true → s.zenithServing = false → ∃ t, exec .controlSlot s = .next t
      ∧ t = { u with power := { u.power with forecastLog := t.power.forecastLog }, out := t.out } ∧ u.out <+: t.out ∧ forecasts t)
    ∧ (s.tick.running = true → s.zenithServing = true → s.tick.slotDone = true → exec .controlSlot s = .next u)
    ∧ (s.tick.running = true → s.zenithServing = true → s.tick.slotDone = false → quiet →
      ∃ t, exec .controlSlot s = .next t ∧ t.tick.slotDone = true ∧ t.tick.count = s.tick.count ∧ t.tick.running = true ∧ forecasts t
        ∧ (t.hostOpen = true → Out.readHeader ∈ t.out))
    ∧ (s.tick.running = false → exec .controlSlot s = .next s)
    ∧ (s.tick.running = true → exec .idleControlSlot s = .next s)
    ∧ (s.tick.running = false → (s.boot.romDone = true ∨ s.start.power = .off ∨ s.start.perstHeld = true) → s.zenithServing = false →
      exec .idleControlSlot s = .next s)
    ∧ (s.tick.running = false → s.boot.romDone = true → s.zenithServing = true → quiet → s.host.late = [] →
      (s.start.serving = false ∨ ∀ f ∈ computeFields, (s.field f).lossPending = false) →
      ∃ t, exec .idleControlSlot s = .next t
        ∧ t.power.capEff = min s.power.hostCap (min (s.power.bmcCap.getD s.power.hostCap) (min s.thermal.cth
          (if s.power.vins = [] then s.power.hostCap else 95 * 420 * (s.power.vins.foldl (· + ·) 0 / s.power.vins.length) / 100000)))
        ∧ (s.hostOpen = true → Out.readHeader ∈ t.out)
        ∧ t = { s with
            power := { s.power with capEff := t.power.capEff }, links := { s.links with hostRoute := false }
            health := t.health, regs := t.regs, mgmt := t.mgmt, out := t.out, host := t.host }
        ∧ t.answersTo .host = s.answersTo .host)

/-- R12, R60, R361, R388, R394, R399, R402, R411: SET_STRETCH, SET_THERMAL, EVENT_MASK and CLEAR_COUNTERS judge their fields in order, then store or clear
at once, and change nothing else beside the registers that show the settings (that the first two do not wait for a boundary is the model's
reading, assumption log 56). A thermal limit above the bound of the other source, or a guard below it, is stored and answered SUPERSEDED; the
source BMC stores its own two bounds and may not order the switch-off.
R12, R60, R219, R325, R326, R399, R471: SET_GRANTED judges its fields; of a live placement it stores the share, orders the lower of it and the
ladder's bound (a lower one for the next boundary, a higher one after the lead) and is answered in the control slot, LIMITED where the ladder
bounds it, PENDING while no ticks run, and held for an apply_tick of the expert form, where it is judged and acts again. SET_BREAKER of a threshold in
range, not below 1.1 times the domain's floor current, is booked, SUPERSEDED where the other source's is lower, and stored at its
boundary, when the register shows the lower of the two; its expert form clears the power record. The floor of VLOG is the highest forecast of
the last 1,000 ticks, that of another domain a value that the manual leaves open. -/
def Obligations.ControlSlotSettingsTakeEffect : Prop :=
  (∀ (s : State) (h : CmdHdr),
     (h.src = .host → ∀ c w r,
       let warn := if h.expert then picked 8 w s.tick.vaneWarn else s.tick.vaneWarn
       let rel := if h.expert then picked 8 r s.tick.vaneRelease else s.tick.vaneRelease
       InOrder (exec (.setStretch h c w r) s) s h 0x0106 [(32, Setting 8 c 0 50), (33, 8 ≤ warn ∧ warn ≤ 60), (34, warn + 10 ≤ rel ∧ rel ≤ 100)]
         (∃ e, Gives (exec (.setStretch h c w r) s) e .host (finalOf h 0x0106 .ok)
           ∧ e = { s with regs := e.regs, tick := { s.tick with committed := picked 8 c s.tick.committed, vaneWarn := warn, vaneRelease := rel } }
           ∧ e.get Reg.Tick.COMMITTED = picked 8 c s.tick.committed % 128
           ∧ ∀ a, a ∉ [Reg.Tick.TCK_COUNT_LO.addr, Reg.Tick.USABLE.addr, Reg.Tick.COMMITTED.addr, Reg.Tick.LEVEL.addr, Reg.Tick.BAND.addr,
               Reg.Tick.FREQ_MHZ.addr] → e.reg a = s.reg a))
     ∧ (∀ l g sw,
       let op := 0x0204
       let o := exec (.setThermal h l g sw) s
       let t := s.thermal
       let fields : List (Nat × Prop) := [(32, Setting 8 l 80 100), (33, Expert h (Setting 8 g 1 10)), (34, Expert h (Setting 8 sw 0 1))]
       let behind (limit guard : Option Nat) : Prop :=
         (l ≠ 255 ∧ ∃ b, limit = some b ∧ b < l) ∨ (h.expert = true ∧ g ≠ 255 ∧ ∃ b, guard = some b ∧ g < b)
       let ends (e : State) (p : Prop) (who : Nat) : Prop :=
         (p → Gives o e h.src { finalOf h op .superseded with detail := who }) ∧ (¬p → Gives o e h.src (finalOf h op .ok))
       (h.src = .host → InOrder o s h op fields
         (ends { s with thermal := { t with
             tLim := picked 8 l t.tLim
             guard := if h.expert then picked 8 g t.guard else t.guard
             switchOff := if h.expert ∧ sw ≠ 255 then sw == 1 else t.switchOff } } (behind t.bmcLimit t.bmcGuard) 1))
       ∧ (h.src = .bmc → s.start.power ≠ .standby →
         if h.expert = true ∧ sw ≠ 255 then Refuses o s h op .notPermitted
         else InOrder o s h op fields
           (ends { s with thermal := { t with
               bmcLimit := if l = 255 then t.bmcLimit else some l
               bmcGuard := if h.expert ∧ g ≠ 255 then some g else t.bmcGuard } } (behind (some t.tLim) (some t.guard)) 2)))
     ∧ (h.src = .host → ∀ m : W32, Gives (exec (.eventMask h m) s)
         { s with host := { s.host with mask := if m = 0xFFFFFFFF then s.host.mask else m } } .host (finalOf h 0x0902 .ok))
     ∧ (h.src = .host → ∀ b field,
       let f := if h.expert then field else 0xFF
       InOrder (exec (.clearCounters h b field) s) s h 0x0901 [(32, b ≤ 4), (33, f = 0xFF ∨ (f < 88 ∧ b = 1))]
         (∃ e, Gives (exec (.clearCounters h b field) s) e .host (finalOf h 0x0901 .ok) ∧ e = { s with regs := e.regs, windows := e.windows }
           ∧ ∀ a, e.reg a = (if counterAt b f a then resetAt a else s.reg a) ∧ e.shown a = if counterAt b f a then resetAt a else s.shown a)))
  ∧ (∀ (s : State) (h : CmdHdr),
       let granted (o : Host.Outcome State Fault Refusal) (p share : Nat) (owed : Bool) : Prop :=
         let x := s.plc p
         let new := min (picked 8 share x.hostGrant) x.plan.sized
         let bound := s.power.shareBound.getD p 100
         let want := min new bound
         ∃ e, e = { s with placements := e.placements } ∧ (∀ q, q ≠ p → e.plc q = s.plc q)
           ∧ e.plc p = { x with hostGrant := new, grantOrder := (e.plc p).grantOrder }
           ∧ (e.plc p).grantOrder = (if x.grantOrder.map Prod.snd = some want then x.grantOrder
               else if want = x.grant then none else some (s.tick.count + (if want < x.grant then 1 else s.leadNow + 1), want))
           ∧ (s.tick.running = true → new ≤ bound → Gives o e .host (finalOf h 0x0107 .ok))
           ∧ (s.tick.running = true → bound < new → Gives o e .host { finalOf h 0x0107 .limited with detail := 6 })
           ∧ (s.tick.running = false →
             let v := { e with host := { e.host with deferred := e.host.deferred ++ [⟨.setGranted h p 0xFF 0, 0, true⟩] } }
             if owed then o = .next v else Gives o v .host (pendingOf h 0x0107))
       (h.src = .host → ∀ p share at_,
         let o := exec (.setGranted h p share at_) s
         let again : Host.Outcome State Fault Refusal := .next (s.applyTimed ⟨.setGranted h p share at_, at_, true⟩)
         let waits : Prop := h.expert = true ∧ s.tick.running = true ∧ s.tick.count + 1 < at_ ∧ at_ ≠ 2 ^ 64 - 1
         InOrder o s h 0x0107 [(32, p < 4)]
           (((s.plc p).live = false → Refuses o s h 0x0107 .notPermitted)
           ∧ ((s.plc p).live = true → InOrder o s h 0x0107 [(33, Setting 8 share 0 (s.plc p).plan.sized)]
             ((waits → Gives o { s with host := { s.host with
                 deferred := s.host.deferred ++ [⟨.setGranted h p share at_, at_, true⟩] } } .host (pendingOf h 0x0107))
             ∧ (¬waits → granted o p share false))))
         ∧ ((s.plc p).live = false → Refuses again s h 0x0107 .notPermitted)
         ∧ ((s.plc p).live = true → InOrder again s h 0x0107 [(33, Setting 8 share 0 (s.plc p).plan.sized)] (granted again p share true))
         -- the reply that was owed while no ticks ran
         ∧ Gives (.next (s.takeEffect ⟨.setGranted h p 0xFF 0, 0, true⟩)) s .host (if s.power.shareBound.getD p 100 < (s.plc p).hostGrant
             then { finalOf h 0x0107 .limited with detail := 6 } else finalOf h 0x0107 .ok))
       ∧ (h.src = .host ∨ (h.src = .bmc ∧ s.start.power ≠ .standby) → ∀ f d th clear,
         let o := exec (.setBreaker h f d th clear) s
         let x := s.field f
         let top := fusedMax f d
         let cleared (u : State) : State := if h.expert = true ∧ clear = 1 then u.updField f fun x => { x with powerRecord := 0 } else u
         if h.src = .bmc ∧ h.expert = true ∧ clear ≠ 0 ∧ clear ≠ 255 then Refuses o s h 0x0202 .notPermitted
         else InOrder o s h 0x0202
           [(32, f < 88), (33, domainExists f d = true), (34, Setting 16 th ((top + 9) / 10) top), (36, Expert h (Setting 8 clear 0 1))]
           ((th = 65535 → Gives o (cleared s) h.src (finalOf h 0x0202 .ok))
           ∧ (th ≠ 65535 → ∃ floor u,
             (d = 0 ∧ f ∈ computeFields → u = s ∧ ∃ high, floor = ceilDiv (high * x.vlogMv * 100) (92 * 12)
               ∧ (∀ e ∈ s.power.forecastLog, e.2.1 = f → s.tick.count < e.1 + 1000 → e.2.2 ≤ high)
               ∧ (high = 0 ∨ ∃ e ∈ s.power.forecastLog, e.2.1 = f ∧ s.tick.count < e.1 + 1000 ∧ e.2.2 = high))
             ∧ (¬(d = 0 ∧ f ∈ computeFields) → floor = Config.freeNat s.freeUses ∧ u = { s with freeUses := s.freeUses + 1 })
             ∧ (1000 * th < 11 * floor → BadField o u h 0x0202 34)
             ∧ (11 * floor ≤ 1000 * th →
               let other : Option Nat := if h.src = .bmc then some (x.hostTh.getD d (defaultTh f d)) else x.bmcTh.find d
               let e := cleared u
               if ∃ b, other = some b ∧ b < th then
                 Gives o { e with host := { e.host with deferred := e.host.deferred ++ [⟨.setBreaker h f d th 0, s.tick.count + 1, false⟩] } } h.src
                   { finalOf h 0x0202 .superseded with detail := if h.src = .bmc then 2 else 1 }
               else Books o e h 0x0202 (.setBreaker h f d th 0)))))
       ∧ ∀ f d th, ∃ t, s.takeEffect ⟨.setBreaker h f d th 0, s.tick.count + 1, false⟩ = t ∧ t = { s with fields := t.fields, regs := t.regs }
           ∧ (h.src ≠ .bmc → t.field f = { s.field f with hostTh := (s.field f).hostTh.set d th })
           ∧ (h.src = .bmc → t.field f = { s.field f with bmcTh := (s.field f).bmcTh.set d th })
           ∧ (∀ g, g ≠ f → t.field g = s.field g)
           ∧ (let shows : Fld := if d = 0 then Reg.FPow.VLOG_TH f else if d = 1 then Reg.FPow.VMEM_TH f else if d = 2 then Reg.FPow.VLNK_TH f
               else Reg.FPow.VPHY_TH f
             let host := (t.field f).hostTh.getD d (defaultTh f d)
             t.get shows = min host (((t.field f).bmcTh.find d).getD host) % 256 ∧ ∀ a, a ≠ shows.addr → t.reg a = s.reg a))

/-- R190, R192-R194, R201-R204, R206, R209, R211, R228, R229, R234: the pause record is complete when its copy is; a copy-back that is done puts the copied blocks
into the session's region, counts, and frees the pause pages; one that fails counts a line of one of them, frees them and gives up region, pages and registration; a kept
copy ends by its time with its pages and a record; a continuation hold ends in FREE with the next generation and no spare contrail slot, a contrail hold in ENDED for
reason 6 with its END record; a partial prefix page is copied once, and a copy-on-write puts the page's blocks into private ones and gives its hold back. Holds change at
the next boundary. Where nothing of the kind is under way nothing changes.
R58, R221, R252, R332: a request that waits past the wait limit is refused with TIMEOUT, its acknowledgement due at the next boundary,
unless it was carried over a reset or its copy-back runs; a wake that stays short of headroom is given up, its field as before the wake,
marked and reported, and the command that asked for it ends with NO_RESOURCE (log entry 96). -/
def Obligations.WaitsAndHoldsEndAtTheirLimits : Prop :=
  (∀ (s : State) (n : Nat),
     let d := s.sess n
     let x := s.asp d.airspace
     let only (t : State) : Prop := ∀ m, m ≠ n → t.sess m = s.sess m
     let others (t : State) (a : Nat) : Prop := ∀ b, b ≠ a → t.asp b = s.asp b
     let regsBut (t : State) (l : List Nat) : Prop := ∀ k, k ∉ l → t.reg k = s.reg k
     let counted (t : State) (f : Fld) (v : Nat) : Prop := t.get f = min (s.get f + v) (2 ^ (f.hi - f.lo + 1) - 1)
     -- the pause record goes: its pages, and its holds where it has taken them
     let dropped (y : AirspaceSt) : AirspaceSt := match d.pauseRec with
       | none => y
       | some r => { y with
           cloudPages := y.cloudPages.filter fun p => !r.pages.contains p
           pageDue := y.pageDue ++ (if d.kvHeld then r.links.map fun p => (p, false) else []) }
     let bare (e : Desc) : Desc := if d.pauseRec = none then e else { e with pauseRec := none, kvHeld := false, copyBack := false }
     -- region, pages and registration go
     let released (y : AirspaceSt) : AirspaceSt := { y with
       prefixes := match d.registering with
         | none => y.prefixes
         | some e => y.prefixes.set e { generation := (y.prefixes.getD e {}).generation % 0xFFFFFF + 1 }
       pageDue := y.pageDue ++ (d.pages ++ d.cowPage.toList).map fun p => (p, false)
       carvings := y.carvings.map fun cv => { cv with slots := cv.slots.map fun e => if e.2.2 == some n then (e.1, e.2.1, none) else e } }
     let without (e : Desc) : Desc :=
       { e with registering := none, regions := [], pages := [], cowPage := none, cowLeft := 0, failedPause := false, kvLost := false }
     let plain (c : Nat) : Prop := (s.field (coreField c)).absMap = []
     -- a core whose memory changes at nothing but the bytes given
     let writes (t : State) (c a : Nat) (bs : List Byte) : Prop := (t.core c).mem.bytes a bs.length = bs
       ∧ (∀ k, (k < a ∨ a + bs.length ≤ k) → (t.core c).mem.read k = (s.core c).mem.read k) ∧ ∀ k, k ≠ c → t.core k = s.core k
     (∀ r, d.st = .paused → d.pauseRec = some r → r.copying = true → ∃ t, exec (.pauseCopyComplete n) s = .next t ∧ t = { s with sessions := t.sessions }
         ∧ only t ∧ t.sess n = { d with pauseRec := some { r with copying := false } })
     ∧ (((∀ r, d.pauseRec = some r → r.copying = false) ∨ d.st ≠ .paused) → exec (.pauseCopyComplete n) s = .next s)
     ∧ ((d.pauseRec = none ∨ d.copyBack = false) → ∀ b, exec (.copyBackComplete n b) s = .next s)
     ∧ (∀ r, d.pauseRec = some r → d.copyBack = true →
       (∃ t, exec (.copyBackComplete n true) s = .next t ∧ only t ∧ t.sess n = bare d ∧ others t d.airspace ∧ t.asp d.airspace = dropped x
         ∧ t = { s with sessions := t.sessions, airspaces := t.airspaces, cores := t.cores, regs := t.regs }
         ∧ counted t Reg.Cloud.RESUME_COPIES 1 ∧ regsBut t [Reg.Cloud.RESUME_COPIES.addr]
         ∧ ((∀ g ∈ d.regions, (s.field (coreField g.1)).absMap = []) → ∀ k, (∀ g ∈ d.regions, g.1 ≠ k) → t.core k = s.core k)
         ∧ (∀ g, d.regions = [g] → plain g.1 → r.copied = [] → d.registering = none → d.cls = g.2.2.1 →
           4 * d.pages.length ≤ mapEntries d.cls (s.kvShare g.1).1 →
           let at_ := 32 * s.kvBaseOf g
           let size := 32 * (s.privateBlocks d g.1 r.kvFill * s.kvBlock g.1)
           (t.core g.1).mem.bytes at_ size = (r.bytes.getD g.1 []).bytes 0 size
           ∧ ∀ k, (k < 32 * g.2.1 ∨ at_ + size ≤ k) → (t.core g.1).mem.read k = (s.core g.1).mem.read k))
       ∧ (let recent (k : Nat) : List Nat := (s.stack k).badLines.filter fun t => s.tick.wall480 < t + 480 * 10 ^ 9
         (∀ k, (recent k).length < 15) → ∃ t, exec (.copyBackComplete n false) s = .next t ∧ only t ∧ t.sess n = bare (without d) ∧ others t d.airspace
           ∧ t.asp d.airspace = dropped (released x)
           ∧ t = { s with sessions := t.sessions, airspaces := t.airspaces, regs := t.regs, hbm := t.hbm, freeUses := s.freeUses + 1 }
           ∧ t.get Reg.Cloud.UNCORR = 1 ∧ regsBut t (Reg.Cloud.UNCORR.addr :: (List.range 48).map fun k => (Reg.Cloud.UNCORR_LINES k).addr)
           ∧ ∀ k, t.stack k = s.stack k ∨ ((∃ p ∈ r.pages, ∃ o, s.cloudPage x.stripes p = some (k, o))
             ∧ t.stack k = { s.stack k with badLines := recent k ++ [s.tick.wall480] } ∧ counted t (Reg.Cloud.UNCORR_LINES k) 1)))
     ∧ (d.st = .paused → d.kvHeld = true → d.copyBack = false →
       ∃ u, exec (.pauseTtlExpiry n) s
           = .next (u.event { code := 0x0402, placement := d.placement, airspace := d.airspace, detail := le4 44 (handleOf n d) })
         ∧ only u ∧ u.sess n = bare d ∧ others u d.airspace ∧ u.asp d.airspace = dropped x
         ∧ u = { s with sessions := u.sessions, airspaces := u.airspaces, regs := u.regs } ∧ counted u Reg.Cloud.EXPIRED_COUNT 1
         ∧ u.get Reg.Cloud.KV_EXPIRED = 1 ∧ regsBut u [Reg.Cloud.EXPIRED_COUNT.addr, Reg.Cloud.KV_EXPIRED.addr])
     ∧ ((d.st ≠ .paused ∨ d.kvHeld = false ∨ d.copyBack = true) → exec (.pauseTtlExpiry n) s = .next s)
     ∧ (d.st = .ended → ∃ t, exec (.continuationHoldExpiry n) s = .next t ∧ t = { s with sessions := t.sessions, hbm := t.hbm } ∧ only t
         ∧ t.sess n = { generation := if d.generation ≥ 1048575 then 1 else d.generation + 1 }
         ∧ ∀ k, t.stack k = { s.stack k with spares := (s.stack k).spares.filter fun j => j.2 ≠ n })
     ∧ (d.st ≠ .ended → exec (.continuationHoldExpiry n) s = .next s)
     ∧ (d.st = .paused → ∃ t, exec (.contrailHoldExpiry n) s = .next t ∧ only t
         ∧ t.sess n = { bare (without d) with
             st := .ended, endReason := 6, endPending := true, kvHeld := false, rebuilding := false, sampled := none, travDropped := false, latch := 0
             drainPause := false, cancelLatched := false, pauseLatched := false, lane := none, phase := none }
         ∧ others t d.airspace ∧ t.asp d.airspace = dropped (released x)
         ∧ (∀ p, p ≠ d.placement → t.plc p = s.plc p)
         ∧ t.plc d.placement = { s.plc d.placement with
             ledger := (s.plc d.placement).ledger.filter fun b => b.session ≠ n
             lanes := (s.plc d.placement).lanes.filter fun e => e.2.session ≠ n || e.2.from_ ≤ s.tick.count }
         ∧ t = { s with
             sessions := t.sessions, airspaces := t.airspaces, placements := t.placements
             lateRecords := s.lateRecords ++ [(d.airspace, d.dest, ⟨handleOf n d, d.delivered, 1, d.marks, 6, d.delayTicks⟩)] })
     ∧ (d.st ≠ .paused → exec (.contrailHoldExpiry n) s = .next s)
     ∧ (∀ a e, let pe := (s.asp a).prefixes.getD e {}
       (pe.registrant = none ∨ pe.st ≠ .filling ∨ pe.tokens % 256 = 0 ∨ pe.copied = true → exec (.prefixPageCopyComplete a e) s = .next s)
       ∧ (pe.registrant = some n → pe.st = .filling → pe.tokens % 256 ≠ 0 → pe.copied = false → ∃ t, exec (.prefixPageCopyComplete a e) s = .next t
         ∧ t = { s with airspaces := t.airspaces, cores := t.cores, regs := t.regs } ∧ others t a
         ∧ t.asp a = { s.asp a with prefixes := (s.asp a).prefixes.set e { pe with copied := true } }
         ∧ regsBut t (d.regions.map fun g => (Reg.Kv.KV_COW (coreField g.1)).addr)
         ∧ ((∀ g ∈ d.regions, (s.field (coreField g.1)).absMap = []) → ∀ k, (∀ g ∈ d.regions, g.1 ≠ k) → t.core k = s.core k)
         ∧ ∀ g, d.regions = [g] →
           let blocks := ceilDiv (pe.tokens % 256) 64
           let slot := s.pageInCore a (pe.tokens / 256) (pe.pages.getD (pe.tokens / 256) 0) g
           (slot = none → t.cores = s.cores ∧ t.regs = s.regs)
           ∧ ∀ b, slot = some b → counted t (Reg.Kv.KV_COW (coreField g.1)) blocks
             ∧ (plain g.1 → writes t g.1 (32 * b) ((s.core g.1).mem.bytes (32 * s.kvBaseOf g) (32 * (blocks * s.kvBlock g.1))))))
     ∧ (d.cowPage = none → exec (.prefixCowComplete n) s = .next s)
     ∧ (∀ id, d.cowPage = some id → ∃ t, exec (.prefixCowComplete n) s = .next t ∧ only t ∧ t.sess n = { d with cowPage := none, cowLeft := 0 }
         ∧ t = { s with sessions := t.sessions, airspaces := t.airspaces, cores := t.cores, regs := t.regs } ∧ others t d.airspace
         ∧ t.asp d.airspace = { x with pageDue := x.pageDue ++ [(id, false)] }
         ∧ regsBut t (d.regions.map fun g => (Reg.Kv.KV_COW (coreField g.1)).addr)
         ∧ ((∀ g ∈ d.regions, (s.field (coreField g.1)).absMap = []) → ∀ k, (∀ g ∈ d.regions, g.1 ≠ k) → t.core k = s.core k)
         ∧ ∀ g, d.regions = [g] →
           let blocks := ceilDiv (min d.cowLeft (4 * s.kvBlock g.1)) (max 1 (s.kvBlock g.1))
           let slot := s.pageInCore d.airspace d.pages.length id g
           let own := (s.ownPages n).head?.bind fun own => s.pageInCore d.airspace d.pages.length own g
           (slot = none → t.cores = s.cores ∧ t.regs = s.regs)
           ∧ ∀ b, slot = some b → counted t (Reg.Kv.KV_COW (coreField g.1)) blocks
             ∧ (plain g.1 → writes t g.1 (32 * own.getD (s.kvBaseOf g)) ((s.core g.1).mem.bytes (32 * b) (32 * (blocks * s.kvBlock g.1))))))
  ∧ (∀ (s : State),
       (∀ a id r, (s.asp a).waiting.find? (fun w => w.id = id) = some r →
         (r.carried = false → (∀ n, s.namedBy a r.client.handle = some n → (s.sess n).copyBack = false) →
           ∃ t, exec (.waitLimitTimeout a id) s = .next t ∧ (t.asp a).waiting = (s.asp a).waiting.filter (fun w => w.id ≠ id)
           ∧ t.acks = s.acks ++ [{ client := r.client, status := .timeout, handle := r.client.handle }]
           ∧ t = { s with airspaces := t.airspaces, acks := t.acks, regs := t.regs } ∧ (∀ b, b ≠ a → t.asp b = s.asp b)
           ∧ t.asp a = { s.asp a with waiting := (t.asp a).waiting }
           ∧ ∀ q, q ≠ (Reg.Ses.REFUSED r.client.airspace).addr → t.reg q = s.reg q)
         ∧ (r.carried = true ∨ (∃ n, s.namedBy a r.client.handle = some n ∧ (s.sess n).copyBack = true) → exec (.waitLimitTimeout a id) s = .next s))
       ∧ (∀ a id, (∀ w ∈ (s.asp a).waiting, w.id ≠ id) → exec (.waitLimitTimeout a id) s = .next s)
       ∧ ∀ f, let asleep : FieldSt := { s.field f with clock := .stopped, wakeDeferred := 0, wakeForRebuild := false, task := 0, taskCmd := none }
         ((s.field f).clock ≠ .waking → exec (.wakeAbandoned f) s = .next s)
         ∧ ((s.field f).clock = .waking → ∃ t, exec (.wakeAbandoned f) s = .next t ∧ t.field f = asleep
           ∧ (∀ g, g ≠ f → t.field g = s.field g) ∧ t.get Reg.Pow.WAKE_ABANDONED = 1
           ∧ t = { s with fields := t.fields, regs := t.regs, host := t.host, out := t.out, start := t.start }
           ∧ (s.start.testField ≠ some f → t.start = s.start) ∧ (s.start.testField = some f → t.start.testField = none)
           ∧ ((s.field f).taskCmd = none → ∀ o : Src, t.answersTo o = s.answersTo o)
           ∧ (∀ n op, (s.field f).taskCmd = some (n, .host, op) → t.answersTo .host = s.answersTo .host
             ++ [{ seq := n, opcode := op, status := .noResource, final := true, tick := s.tick.count }])))

/-- R12, R30, R243, R253, R386, R388, R391, R402: each of these settings, with every parameter all ones (unchanged) or in its range, is accepted for the next boundary:
answered OK while ticks run and PENDING while none do, and nothing else changes in the control slot. The first parameter that is not in its range is
answered BAD_PARAMETER with its offset; a buffer outside the DMA windows is NOT_PERMITTED and counted; a destination that a descriptor names is BUSY; an address of another airspace is refused. -/
def Obligations.BoundarySettingsAreBooked : Prop :=
  ∀ (s : State) (h : CmdHdr), h.src = .host →
    let checks (op : Nat) (i : Instr) (fields : List (Nat × Prop)) : Prop := InOrder (exec i s) s h op fields (Books (exec i s) s h op i)
    (∀ scrub wait merge down, checks 0x0108 (.setCore h scrub wait merge down) [(32, Setting 8 scrub 0 4), (36, Expert h (Setting 32 wait 256 65536)),
      (40, Expert h (Setting 8 merge 0 16)), (42, Expert h (Setting 16 down 16 1024))])
    ∧ (∀ lead, checks 0x0203 (.setLead h lead) [(32, Setting 8 lead 1 8)])
    ∧ (∀ p round, checks 0x0406 (.setRound h p round) [(32, p < 4), (34, Setting 16 round 1 256)])
    ∧ (∀ a list limit cont contrail, checks 0x0407 (.setSessionLimits h a list limit cont contrail) [(32, a < 8), (34, Setting 16 list 0 1024),
      (36, Expert h (Setting 16 limit 0 600)), (40, Expert h (Setting 32 cont 0 86400)), (44, Expert h (Setting 32 contrail 1 604800))])
    ∧ (∀ a temperature topP topK minP,
      let f32 (v : Nat) (ok : W32 → Bool) : Prop := v = 2 ^ 32 - 1 ∨ ok (BitVec.ofNat 32 v) = true
      checks 0x0408 (.setSampling h a temperature topP topK minP) [(32, a < 8), (36, f32 temperature temperatureOk), (40, Expert h (f32 topP topPOk)),
        (44, Expert h (Setting 16 topK 0 1024)), (48, Expert h (f32 minP minPOk))])
    ∧ (∀ a cap, checks 0x0608 (.setEgress h a cap) [(32, a < 8), (34, Setting 16 cap 1 1600)])
    ∧ (∀ n mtu cap, checks 0x0609 (.setEthPort h n mtu cap) [(32, n ≤ 3), (34, Setting 16 mtu 1500 9216), (36, Expert h (Setting 16 cap 1 400))])
    ∧ (∀ a entry port udp address,
      let i : Instr := .setDestination h a entry port udp address
      let known : Prop := (s.asp a).dests.has entry = true
      let named : Prop := ∃ n ∈ s.sessIds, (s.sess n).st ≠ .free ∧ (s.sess n).airspace = a ∧ (s.sess n).dest = entry
      InOrder (exec i s) s h 0x0607 [(32, a < 8), (33, entry ≤ 15), (34, (known ∧ port = 255) ∨ port ≤ 3), (36, known ∨ udp ≠ 65535),
        (40, known ∨ address ≠ 2 ^ 128 - 1)]
        ((named → Refuses (exec i s) s h 0x0607 .busy) ∧ (¬named → Books (exec i s) s h 0x0607 i)))
    ∧ (∀ a count,
      let i : Instr := .setFilter h a count
      let blocked : Prop := 0 < count ∧ s.dmaOk h.buffer (17 * count) = false
      let entry (j : Nat) : Nat × Nat := (leNat ((h.data.drop (17 * j)).take 16), leNat ((h.data.drop (17 * j + 16)).take 1))
      let sound : Prop := ∀ j, j < count → (entry j).2 ≤ 128 ∧ (isV4 (entry j).1 = true → 96 ≤ (entry j).2)
      InOrder (exec i s) s h 0x0606 [(16, 17 * count ≤ h.bufferLen), (32, a < 8), (33, count ≤ 16)]
        ((blocked → Gives (exec i s) (s.bump Reg.Ceil.DMA_BLOCKED) .host (finalOf h 0x0606 .notPermitted))
        ∧ (¬blocked → ¬sound → BadField (exec i s) s h 0x0606 8) ∧ (¬blocked → sound → Books (exec i s) s h 0x0606 i)))
    ∧ (∀ a index address len udp vlan dhcp ipv4,
      -- the addresses as the orders accepted before leave them, with the airspace's own after this one
      let t := s.foreseenAddresses
      let y := (t.asp a).setAddress h index address len udp vlan dhcp ipv4
      let entry := y.addresses.getD index (0, 64)
      let taken (v : Nat) : Prop := ∃ b, b < 8 ∧ b ≠ a ∧ ((∃ e ∈ (t.asp b).addresses, e.2.1 = v) ∨ (t.asp b).ipv4 = some v ∨ (t.asp b).lease = some v)
      checks 0x0605 (.setAddress h a index address len udp vlan dhcp ipv4) [(32, a < 8), (33, index ≤ 3),
        (40, ¬taken entry.1 ∧ y.addresses.length + (if y.dhcp = true then 1 else 0) ≤ 4),
        (56, entry.1 = 0 ∨ (entry.2 ≤ 128 ∧ (isV4 entry.1 = true → 96 ≤ entry.2))),
        (58, Expert h (Setting 16 udp 1024 65535)), (60, Expert h (Setting 16 vlan 0 4094)), (62, Expert h (Setting 8 dhcp 0 1)),
        (64, Expert h (ipv4 = 2 ^ 128 - 1 ∨ ipv4 = 0 ∨ (isV4 ipv4 = true ∧ ¬taken ipv4)))])

/-- R12, R388, R391: a parameter outside its range is answered BAD_PARAMETER with the byte offset of the first such field, and nothing else
changes; the source BMC is answered NOT_PERMITTED (R398, R428). -/
def Obligations.FaultyParametersAreNamed : Prop :=
  ∀ (s : State) (h : CmdHdr) (v w : Nat), h.src = .host →
    (v ≠ 255 → (v < 1 ∨ 8 < v) → BadField (exec (.setLead h v) s) s h 0x0203 32)
    ∧ (4 ≤ v → BadField (exec (.setRound h v w) s) s h 0x0406 32)
    ∧ (w < 4 → v ≠ 65535 → (v < 1 ∨ 256 < v) → BadField (exec (.setRound h w v) s) s h 0x0406 34)
    ∧ (8 ≤ v → BadField (exec (.setEgress h v w) s) s h 0x0608 32)
    ∧ (w < 8 → v ≠ 65535 → (v < 1 ∨ 1600 < v) → BadField (exec (.setEgress h w v) s) s h 0x0608 34)
    ∧ (4 ≤ v → ∀ cap, BadField (exec (.setEthPort h v w cap) s) s h 0x0609 32)
    ∧ (v ≠ 255 → 50 < v → ∀ warn release, BadField (exec (.setStretch h v warn release) s) s h 0x0106 32)
    ∧ (88 ≤ v → BadField (exec (.fieldReset h v) s) s h 0x0105 32 ∧ BadField (exec (.calibrate h v) s) s h 0x0802 32
      ∧ BadField (exec (.selfTest h v) s) s h 0x0801 32)
    ∧ (4 ≤ v → BadField (exec (.powerState h v w) s) s h 0x0104 32)
    ∧ ∀ b : CmdHdr, b.src = .bmc → Refuses (exec (.setLead b v) s) s b 0x0203 .notPermitted ∧ Refuses (exec (.setEgress b v w) s) s b 0x0608 .notPermitted
      ∧ Refuses (exec (.fieldReset b v) s) s b 0x0105 .notPermitted

/-- R208, R241, R243, R253, R261, R263, R301: what a booked setting does when it takes effect at its boundary (`State.takeEffect`, which the boundary runs on
every due order): the parameter that is all ones leaves its setting, every other one is stored, the basic form stores only the settings it
names, and nothing else of the module changes but the registers that show it. An order that still owes its final reply is then answered OK. -/
def Obligations.SettingsTakeEffectAsOrdered : Prop :=
  ∀ (s : State) (h : CmdHdr) (k : Nat),
    let f32 (v : Nat) (old : W32) : W32 := if v = 2 ^ 32 - 1 then old else BitVec.ofNat 32 v
    let ofAsp (i : Instr) (a : Nat) (x : AirspaceSt) : Prop :=
      ∃ t, s.takeEffect ⟨i, k, false⟩ = t ∧ t = { s with airspaces := t.airspaces } ∧ (∀ b, b ≠ a → t.asp b = s.asp b) ∧ t.asp a = x
    (∀ lead, s.takeEffect ⟨.setLead h lead, k, false⟩ = { s with power := { s.power with lead := picked 8 lead s.power.lead } })
    ∧ (∀ scrub wait merge down, s.takeEffect ⟨.setCore h scrub wait merge down, k, false⟩ =
        if h.expert then { s with
          scrubWords := picked 8 scrub s.scrubWords, remoteWait := picked 32 wait s.remoteWait, mergeWindow := picked 8 merge s.mergeWindow
          linkDownTh := picked 16 down s.linkDownTh }
        else { s with scrubWords := picked 8 scrub s.scrubWords })
    ∧ (∀ p round, ∃ t, s.takeEffect ⟨.setRound h p round, k, false⟩ = t ∧ t = { s with placements := t.placements }
        ∧ t.plc p = { s.plc p with round := picked 16 round (s.plc p).round } ∧ ∀ q, q ≠ p → t.plc q = s.plc q)
    ∧ (∀ a cap, ofAsp (.setEgress h a cap) a { s.asp a with egressCap := picked 16 cap (s.asp a).egressCap })
    ∧ (∀ a list limit cont contrail, ofAsp (.setSessionLimits h a list limit cont contrail) a
        (if h.expert then { s.asp a with
              waitMax := picked 16 list (s.asp a).waitMax, waitLimit := picked 16 limit (s.asp a).waitLimit
              contHold := picked 32 cont (s.asp a).contHold, contrailHold := picked 32 contrail (s.asp a).contrailHold }
            else { s.asp a with waitMax := picked 16 list (s.asp a).waitMax }))
    ∧ (∀ a temperature topP topK minP, ofAsp (.setSampling h a temperature topP topK minP) a
        (if h.expert then { s.asp a with
              temperature := f32 temperature (s.asp a).temperature, topP := f32 topP (s.asp a).topP, topK := picked 16 topK (s.asp a).topK
              minP := f32 minP (s.asp a).minP }
            else { s.asp a with temperature := f32 temperature (s.asp a).temperature }))
    ∧ (∀ a entry port udp address,
        ∃ t, s.takeEffect ⟨.setDestination h a entry port udp address, k, false⟩ = t
        ∧ t = { s with airspaces := t.airspaces } ∧ (∀ b, b ≠ a → t.asp b = s.asp b)
        ∧ t.asp a = { s.asp a with dests := (t.asp a).dests, batches := (s.asp a).batches.filter fun b => b.dest != entry }
        ∧ (∃ d, (t.asp a).dests.find entry = some d ∧ d.batchSeq = 0
          ∧ (∀ old, (s.asp a).dests.find entry = some old → d = { old with
              eth := picked 8 port old.eth, udpPort := picked 16 udp old.udpPort, addr := picked 128 address old.addr, batchSeq := 0 })
          ∧ ((s.asp a).dests.find entry = none → port ≠ 255 → udp ≠ 65535 → address ≠ 2 ^ 128 - 1 → d.eth = port ∧ d.udpPort = udp ∧ d.addr = address))
        ∧ ∀ e, e ≠ entry → (t.asp a).dests.find e = (s.asp a).dests.find e)
    ∧ (∀ n mtu cap, ∃ t, s.takeEffect ⟨.setEthPort h n mtu cap, k, false⟩ = t ∧ t = { s with eth := t.eth, regs := t.regs }
        ∧ (∀ m, m ≠ n → t.ethPort m = s.ethPort m) ∧ (∀ a, a ≠ (Reg.Eth.MTU n).addr → t.reg a = s.reg a)
        ∧ t.get (Reg.Eth.MTU n) = (t.ethPort n).mtu % 65536
        ∧ t.ethPort n = { s.ethPort n with
            mtu := picked 16 mtu (s.ethPort n).mtu, cap := if h.expert then picked 16 cap (s.ethPort n).cap else (s.ethPort n).cap })
    ∧ (∀ a count, ofAsp (.setFilter h a count) a { s.asp a with filters := (List.range count).map fun j =>
        (leNat ((h.data.drop (17 * j)).take 16), leNat ((h.data.drop (17 * j + 16)).take 1)) })
    ∧ (∀ a index address len udp vlan dhcp ipv4, ∃ t, s.takeEffect ⟨.setAddress h a index address len udp vlan dhcp ipv4, k, false⟩ = t
        ∧ t = { s with airspaces := t.airspaces, regs := t.regs } ∧ (∀ b, b ≠ a → t.asp b = s.asp b)
        ∧ (∀ r, r ≠ (Reg.Eth.UDP_PORT a).addr → r ≠ (Reg.Eth.VLAN a).addr → t.reg r = s.reg r)
        ∧ t.get (Reg.Eth.UDP_PORT a) = (t.asp a).udpPort % 65536 ∧ t.get (Reg.Eth.VLAN a) = (t.asp a).vlan % 4096
        ∧ (let x := s.asp a
          let addr := picked 128 address (x.addresses.getD index (0, 64)).1
          let on : Bool := if dhcp = 255 then x.dhcp else dhcp == 1
          (addr ≠ 0 → (t.asp a).addresses = x.addresses.set index (addr, picked 8 len (x.addresses.getD index (0, 64)).2))
          ∧ (addr = 0 → (t.asp a).addresses = x.addresses.del index)
          ∧ (h.expert = false → t.asp a = { x with addresses := (t.asp a).addresses })
          ∧ (h.expert = true → t.asp a = { x with
              addresses := (t.asp a).addresses, udpPort := picked 16 udp x.udpPort, vlan := picked 16 vlan x.vlan, dhcp := on
              lease := if on = true then x.lease else none
              ipv4 := if ipv4 = 2 ^ 128 - 1 then x.ipv4 else if ipv4 = 0 then none else some ipv4 })))
    ∧ (h.src = .host → ∀ lead, Gives (.next (s.takeEffect ⟨.setLead h lead, k, true⟩))
        { s with power := { s.power with lead := picked 8 lead s.power.lead } } .host (finalOf h 0x0203 .ok))

/-- R12, R335, R343, R391, R399, R402: SET_CAP stores the cap of its source, of the host (its expert form also the stored default cap) or of the BMC (0
clears it; it has no expert form); C_eff becomes the lowest of the host cap, the BMC cap, the thermal cap and the input-current term over the
10 ms average of the input voltage, and CAP_SRC names the first term that is the lowest. The answer is SUPERSEDED naming the other source
where its cap is lower, LIMITED naming the computed bound where one alone is lower, else OK, each with C_eff in RESULT. -/
def Obligations.EffectiveCapIsTheLowestBound : Prop :=
  ∀ (s : State) (h : CmdHdr) (cap stored : Nat),
    let o := exec (.setCap h cap stored) s
    let vins := s.power.vins
    let input : Option Nat := if vins = [] then none else some (95 * 420 * (vins.foldl (· + ·) 0 / vins.length) / 100000)
    -- the answer to a source whose cap is now v, where the host's is `host`, the BMC's `bmc`, and the other source's `other`
    let judged (host : Nat) (set : Bool) (bmc : Option Nat) (keep v : Nat) (other : Option Nat) (who : Nat) : Prop :=
      let c := min host (min (bmc.getD host) (min s.thermal.cth (input.getD host)))
      let src := if c = host then (if set then 0 else 4) else if bmc = some c then 1 else if c = s.thermal.cth then 2 else 3
      ∃ e, e = { s with
          regs := e.regs, power := { s.power with hostCap := host, hostSet := set, bmcCap := bmc, storedCap := keep, capEff := c } }
        ∧ e.get Reg.Pow.CAP_EFF = c % 2 ^ 32 ∧ e.get Reg.Pow.CAP_SRC = src
        ∧ (∀ a, a ≠ Reg.Pow.CAP_EFF.addr → a ≠ Reg.Pow.CAP_SRC.addr → e.reg a = s.reg a)
        ∧ ((∃ b, other = some b ∧ b < v) → Gives o e h.src { finalOf h 0x0201 .superseded with detail := who, result := [(0, 4, c)] })
        ∧ (¬(∃ b, other = some b ∧ b < v) → c < v →
            Gives o e h.src { finalOf h 0x0201 .limited with detail := if src = 3 then 5 else 4, result := [(0, 4, c)] })
        ∧ (¬(∃ b, other = some b ∧ b < v) → ¬c < v → Gives o e h.src { finalOf h 0x0201 .ok with result := [(0, 4, c)] })
    (h.src = .host → InOrder o s h 0x0201 [(32, Setting 32 cap 6000 21000), (36, Expert h (stored = 0 ∨ Setting 32 stored 6000 21000))]
      (let host := picked 32 cap s.power.hostCap
      judged host (s.power.hostSet || decide (cap ≠ 2 ^ 32 - 1)) s.power.bmcCap
        (if h.expert = true ∧ stored ≠ 0 then picked 32 stored s.power.storedCap else s.power.storedCap) host s.power.bmcCap 1))
    ∧ (h.src = .bmc → s.start.power ≠ .standby →
      if h.expert = true then Refuses o s h 0x0201 .notPermitted
      else InOrder o s h 0x0201 [(32, cap = 0 ∨ Setting 32 cap 6000 21000)]
        (let bmc : Option Nat := if cap = 0 then none else if cap = 2 ^ 32 - 1 then s.power.bmcCap else some cap
        judged s.power.hostCap s.power.hostSet bmc s.power.storedCap (bmc.getD 0) (some s.power.hostCap) 2))

/-- R382, R386, R403, R410, R420: DEVICE_INFO answers host and BMC with the identity registers, the security registers, or the certificate chain (to the
BMC its length and hash alone); SNAPSHOT keeps a range of BAR0, copied at the maintenance slot, or at once where no ticks run (the model's
choice, assumption log 92), and its completion writes it to the buffer under the tick of the command. A buffer outside the DMA windows is
counted and answered NOT_PERMITTED. None of them changes anything else.
R23, R166, R391, R393, R410, R449, R450: SELF_TEST of a field that is not ACTIVE is answered PENDING, takes the field and shows it in TEST_FIELD, and a field at
rest is woken; an ACTIVE field's work moves to its twin first (expert form), where that can be done. The interval takes the next CLEARING field in
the same way. A completed test is counted and shown, takes the field's logic down and is answered OK with its RESULT; a CLEARING or UNASSIGNED
field that fails is found lost with cause 7. -/
def Obligations.InformationAndSelfTestsComplete : Prop :=
  (∀ (s : State) (h : CmdHdr),
     (h.src = .host ∨ h.src = .bmc → ∀ page,
       let o := exec (.deviceInfo h page) s
       let p := if h.expert then page else 0
       let chain := Config.certificateChain
       let shows (l : List Nat) : Prop := Gives o s h.src { finalOf h 0x0101 .ok with
         result := (List.range l.length).map fun i => (4 * i, 4, (s.readReg (l.getD i 0)).toNat) }
       let hash : List (Nat × Nat × Nat) := [(0, 4, chain.length), (4, 64, leNat (sha512 (chain.take Config.deviceCertLen)))]
       InOrder o s h 0x0101 [(32, p ≤ 2), (16, p = 2 → h.src = .host → chain.length ≤ h.bufferLen)]
         ((p = 0 → shows [0x00, 0x04, 0x08, 0x0C, 0x10, 0x14, 0x18, 0x1C])
         ∧ (p = 1 → shows [0x7C0000, 0x7C0004, 0x7C0008, 0x7C000C, 0x7C0010, 0x7C0014])
         ∧ (p = 2 → h.src = .bmc → Gives o s .bmc { finalOf h 0x0101 .ok with result := hash })
         ∧ (p = 2 → h.src = .host →
           if s.dmaOk h.buffer chain.length = true then
             Gives o (s.emit (.buffer h.buffer chain)) .host { finalOf h 0x0101 .ok with inBuffer := true, result := hash }
           else Gives o (s.bump Reg.Ceil.DMA_BLOCKED) .host (finalOf h 0x0101 .notPermitted))))
     ∧ (h.src = .host → ∀ offset n,
       InOrder (exec (.snapshot h offset n) s) s h 0x0803
         [(16, n ≤ h.bufferLen), (32, offset ≤ 0x800000), (36, n ≤ 0x100000 ∧ offset + n ≤ 0x800000)]
         (∃ copy : Option (List Byte),
           Gives (exec (.snapshot h offset n) s)
             { s with host := { s.host with snapshots := s.host.snapshots ++ [⟨h, offset, n, s.tick.count, copy⟩] } } .host (pendingOf h 0x0803)
           ∧ (s.tick.running = true → copy = none)
           ∧ (s.tick.running = false → ∃ b : List Byte, copy = some b ∧ b.length = n
             ∧ ((Reg.Tick.TCK_COUNT_LO.addr < offset ∨ offset + n ≤ Reg.Tick.TCK_COUNT_LO.addr) → ∀ i, i < n →
               b.getD i 0 = BitVec.ofNat 8 ((s.readReg ((offset + i) / 4 * 4)).toNat / 2 ^ (8 * ((offset + i) % 4)))))))
     ∧ ((s.host.snapshots = [] ∨ (∃ x rest, s.host.snapshots = x :: rest ∧ x.copy = none)) → exec .snapshotCopyComplete s = .next s)
     ∧ (∀ x rest data, s.host.snapshots = x :: rest → x.copy = some data → x.header = h → h.src = .host →
       let put := s.dmaOk h.buffer data.length
       ∃ t, exec .snapshotCopyComplete s = .next t
         ∧ t.answersTo .host = s.answersTo .host
           ++ [{ finalOf h 0x0803 (if put then .ok else .notPermitted) with inBuffer := put, tick := x.tick }]
         ∧ (∀ a, a ∉ answerRegs → a ≠ Reg.Ceil.DMA_BLOCKED.addr → t.reg a = s.reg a)
         ∧ (put = true → t.get Reg.Ceil.DMA_BLOCKED = s.get Reg.Ceil.DMA_BLOCKED ∧ s.out ++ [.buffer h.buffer data] <+: t.out)
         ∧ (put = false → t.get Reg.Ceil.DMA_BLOCKED = min (s.get Reg.Ceil.DMA_BLOCKED + 1)
             (2 ^ (Reg.Ceil.DMA_BLOCKED.hi - Reg.Ceil.DMA_BLOCKED.lo + 1) - 1) ∧ s.out <+: t.out ∧ ∀ a b, .buffer a b ∈ t.out → .buffer a b ∈ s.out)
         ∧ t = { s with
             regs := t.regs, out := t.out
             host := { s.host with snapshots := rest, held := t.host.held, replyNum := t.host.replyNum, sigReply := t.host.sigReply } }))
  ∧ (∀ (s : State) (h : CmdHdr) (f : Nat),
       let x := s.field f
       -- the field is woken where it is at rest
       let woken (t : State) (g : Nat) : Prop := if (s.field g).clock = .stopped then
           t.gust = s.gust ++ [(s.nextRequest, stewardId g)] ∧ t.nextRequest = s.nextRequest + 1 ∧ .gust s.nextRequest (stewardId g) ∈ t.out
         else t.gust = s.gust ∧ t.nextRequest = s.nextRequest
       (h.src = .host →
         let o := exec (.selfTest h f) s
         let busy : Prop := s.inMove f = true ∨ x.task ≠ 0 ∨ s.start.testField ≠ none ∨ s.power.ladder ≠ 0
         let shut : Prop := x.role = .active ∧ h.expert = false
         let cmd := some (h.seq, Src.host, opOf h 0x0801)
         InOrder o s h 0x0801 [(32, f < 88)]
           ((x.role = .service → Refuses o s h 0x0801 .notPermitted)
           ∧ (shut → Refuses o s h 0x0801 .inService)
           ∧ (x.role ≠ .service → ¬shut → busy → Refuses o s h 0x0801 .busy)
           ∧ (x.role ≠ .service → x.role ≠ .active → ¬busy → ∃ t, o = .next t
             ∧ t.field f = { x with task := 2, taskCmd := none } ∧ (∀ g, g ≠ f → t.field g = s.field g)
             ∧ t.get Reg.Start.TEST_FIELD = f ∧ (∀ a, a ∉ answerRegs → a ≠ Reg.Start.TEST_FIELD.addr → t.reg a = s.reg a)
             ∧ woken t f
             ∧ t.answersTo .host = s.answersTo .host ++ [{ pendingOf h 0x0801 with tick := s.tick.count }]
             ∧ t = { s with
                 fields := t.fields, regs := t.regs, out := t.out, gust := t.gust, nextRequest := t.nextRequest
                 start := { s.start with testField := some f, testCmd := cmd }
                 host := { s.host with held := t.host.held, replyNum := t.host.replyNum, sigReply := t.host.sigReply } })
           ∧ (x.role = .active → h.expert = true → ¬busy →
             (x.placement = none ∨ s.twinComplete f = none → Refuses o s h 0x0801 .inService)
             ∧ (∀ p, x.placement = some p → s.twinComplete f ≠ none →
               if s.nearestClearing f = none ∨ 3 ≤ (s.plc p).moves.length ∨ s.aliasFull p f = true then Refuses o s h 0x0801 .noResource
               else ∃ e m : State, m = (s.beginMove p f true).1 ∧ Gives o e .host (pendingOf h 0x0801)
                 ∧ e.field f = { m.field f with task := 2, taskCmd := none } ∧ (∀ g, g ≠ f → e.field g = m.field g)
                 ∧ e.get Reg.Start.TEST_FIELD = f ∧ (∀ a, a ≠ Reg.Start.TEST_FIELD.addr → e.reg a = m.reg a)
                 ∧ e = { m with fields := e.fields, regs := e.regs, start := { m.start with testField := some f, testCmd := cmd } }))))
       ∧ (let held : Prop := s.start.testInterval = 0 ∨ s.start.testField ≠ none ∨ s.power.ladder ≠ 0 ∨ s.zenithServing = false
         (held ∨ s.nextTest = none → exec .selfTestInterval s = .next s)
         ∧ (¬held → ∀ g, s.nextTest = some g →
           (s.field g).role = .clearing ∧ g < 88 ∧ ∃ t, exec .selfTestInterval s = .next t
             ∧ t.field g = { s.field g with task := 2, taskCmd := none } ∧ (∀ y, y ≠ g → t.field y = s.field y)
             ∧ t.get Reg.Start.TEST_FIELD = g ∧ (∀ a, a ≠ Reg.Start.TEST_FIELD.addr → t.reg a = s.reg a) ∧ woken t g
             ∧ t = { s with
                 fields := t.fields, regs := t.regs, out := t.out, gust := t.gust, nextRequest := t.nextRequest
                 start := { s.start with testField := some g, testCmd := none } }))
       ∧ (s.start.testField = none → ∀ step, exec (.selfTestComplete step) s = .next s)
       ∧ (s.start.testField = some f → ∀ step,
         let fails : Prop := step ≠ 0 ∧ (x.role = .clearing ∨ x.role = .unassigned) ∧ x.lossPending = false
         ∃ t, exec (.selfTestComplete step) s = .next t
           ∧ t.start = { s.start with testField := none, testCmd := none, lastTested := f }
           ∧ t.get Reg.Start.TEST_FIELD = 0xFF ∧ t.get Reg.Start.TESTS_RUN = min (s.get Reg.Start.TESTS_RUN + 1) (2 ^ 32 - 1)
           ∧ t.get Reg.Start.LAST_STEP = step % 65536 ∧ t.get Reg.Start.LAST_FIELD = f % 256
           ∧ (∀ a, a ∉ answerRegs → a ∉ [Reg.Start.TEST_FIELD.addr, Reg.Start.TESTS_RUN.addr, Reg.Start.LAST_STEP.addr] → t.reg a = s.reg a)
           ∧ (let y : FieldSt := { x with task := 0, taskCmd := none, clock := if x.clock = .running then .stopping true else x.clock }
             (fails → t.field f = { y with
               lossPending := true, lossAt := s.tick.count, lostCause := some 7, absorb := [], patches := [] })
             ∧ (¬fails → t.field f = y))
           ∧ (∀ g, g ≠ f → t.field g = s.field g)
           ∧ (∀ c, coreField c ≠ f → t.core c = s.core c)
           ∧ (∀ c, coreField c = f → s.cores.has c = true → (t.core c).bankOn = 0 ∧ (t.core c).mem = [])
           ∧ t = { s with
               start := t.start, fields := t.fields, cores := t.cores, regs := t.regs, windows := t.windows, out := t.out
               host := { s.host with held := t.host.held, replyNum := t.host.replyNum, sigReply := t.host.sigReply } }
           ∧ (s.start.testCmd = none → t.host = s.host ∧ t.out = s.out)
           ∧ (∀ seq op, s.start.testCmd = some (seq, .host, op) → t.answersTo .host = s.answersTo .host
             ++ [{ seq := seq, opcode := op, status := .ok, final := true, tick := s.tick.count, result := [(0, 1, if step = 0 then 1 else 0), (2, 2, step)] }])))

/-- R433, R435, R436, R439, R447, R462-R464: auxiliary power brings the module out of Off into step 1 of start-up by a cold reset, its loss back to
Off; main power starts conversion, ticks and calibration, or with the thermal trip standing leaves the module in Overcast; a lockout is Standby, and
its end a module reset; PERST_N for 100 µs orders a module reset, journal first, which begins at its release; the loss of the reference clock
leads to Standby through Overcast; the clock's return and the flash protection input are followed. Each event that finds nothing to do changes
nothing. -/
def Obligations.PowerInputsDriveStartUp : Prop :=
  ∀ (s : State) (straps micros vin : Nat) (b : Bool),
    let off : Prop := s.start.power = .off
    let standby : Prop := s.start.power = .standby
    -- the boot ROM has no run to make now
    let booted : Prop := s.boot.romDone = true ∨ off ∨ s.start.perstHeld = true
    (off → ∃ t, exec (.auxInputApplied straps) s = .next t ∧ ResetTaken s t true false 0 (straps % 64)
      ∧ t.boot.counter = s.boot.counter ∧ t.boot.revoked = s.boot.revoked ∧ t.boot.romDone = false)
    ∧ (¬off → exec (.auxInputApplied straps) s = .next s)
    ∧ (¬off → ∃ t r : State, exec .auxInputLost s = .next t ∧ ResetTaken s r true false s.start.resetCause s.start.straps
      ∧ t.start = { r.start with power := .off, phase := 0 }
      ∧ t.power = { r.power with
          inputLost := s.power.inputLost || s.start.power == .active || s.start.power == .lull, auxOk := false, mainOk := false, alert := false }
      ∧ t = { r with start := t.start, power := t.power, regs := t.regs, out := t.out }
      ∧ (s.thermal.trip = true → .pin "THERMTRIP_N" false ∈ t.out))
    ∧ (off → exec .auxInputLost s = .next s)
    ∧ (¬booted → exec .mainInputReady s = exec .mainInputReady (s.romBoot true))
    ∧ (booted → s.zenithServing = false ∨ s.boot.recovery = true ∨ (s.start.phase ≠ 1 ∧ s.start.phase ≠ 2) →
      exec .mainInputReady s = .next { s with power := { s.power with mainOk := true } })
    ∧ (booted → s.zenithServing = true → s.boot.recovery = false → s.start.phase = 1 ∨ s.start.phase = 2 → ∃ t, exec .mainInputReady s = .next t
      ∧ t.power = { s.power with mainOk := true, segOn := (List.range 22).filter fun n => !s.power.segTripped.contains n }
      ∧ (∀ n, n < 48 → t.stack n = { s.stack n with st := .training })
      ∧ (∀ f, f < 88 → ∃ on : Nat, (t.field f).on = on
        ∧ ∀ d, d < 4 → on.testBit d = (decide ((d = 2 ∨ (d = 3 ∧ isHomeSite f = true)) ∨ (d < 2 ∧ f ∈ Config.serviceFields)) && !(s.field f).tripped.testBit d))
      ∧ t = { s with power := t.power, hbm := t.hbm, fields := t.fields, start := t.start, tick := t.tick, regs := t.regs, mgmt := t.mgmt, out := t.out }
      ∧ (s.thermal.trip = true → t.start = { s.start with phase := 3, power := .overcast } ∧ t.tick = s.tick
        ∧ ∀ f, (t.field f).clock = (s.field f).clock)
      ∧ (s.thermal.trip = false → t.start = { s.start with phase := 4, calibrating := true, power := .active }
        ∧ t.tick = { s.tick with lullEndAsked := true }
        ∧ ∀ f ∈ computeFields, if (s.field f).powerRecord = 0 ∧ s.holdsWork f = false then (t.field f).clock = .waking
          else (t.field f).clock = (s.field f).clock))
    ∧ (micros < 100 ∨ off → exec (.perstNAssert micros straps) s = .next s)
    ∧ (100 ≤ micros → ¬off →
      let y : State := { s with start := { s.start with perstHeld := true, straps := straps % 64, resetPending := some (1, false) } }
      ∃ t, exec (.perstNAssert micros straps) s = .next t ∧ (¬standby → JournalBegun y t 1) ∧ (standby → ResetTaken y t false false 1 (straps % 64)))
    ∧ (s.boot.romDone = true ∨ off → exec .perstNRelease s = .next { s with start := { s.start with perstHeld := false } })
    ∧ (s.boot.romDone = false → ¬off → ∃ t, exec .perstNRelease s = .next t
      ∧ t = { s with start := { s.start with perstHeld := false }, boot := t.boot, regs := t.regs } ∧ t.boot.romDone = true)
    ∧ (off ∨ standby → ∃ t, exec (.inputLockout vin) s = .next t
      ∧ t = { s with power := { s.power with vin := vin, mainOk := false, inputFault := 2 }, regs := t.regs }
      ∧ ∀ a, a ≠ Reg.Pow.VIN.addr → t.reg a = s.reg a)
    ∧ (¬off → ¬standby → ∃ t, exec (.inputLockout vin) s = .next t ∧ StandbyReached { s with
        regs := (s.put Reg.Pow.VIN vin).regs
        power := { s.power with vin := vin, mainOk := false, inputFault := 2, inputLost := s.power.inputLost || s.start.power != .overcast }
        start := { s.start with journal := { s.start.journal with running := false }, resetPending := none } } t)
    ∧ (¬(standby ∧ s.power.inputFault = 2) → exec .mainInputRestored s = .next s)
    ∧ (standby → s.power.inputFault = 2 → ∃ t, exec .mainInputRestored s = .next t ∧ ResetTaken s t false false 4 s.start.straps ∧ t.power.mainOk = true)
    ∧ (s.power.mainOk = false → exec .refclkMainLoss s = .next s)
    ∧ (s.power.mainOk = true → ∃ t, exec .refclkMainLoss s = .next t ∧ LeavingBegun { s with power := { s.power with refclkOk := false } } t 4 true)
    ∧ exec .refclkMainRestored s = .next { s with power := { s.power with refclkOk := true } }
    ∧ (∃ t, exec (.flashWpNChange b) s = .next t ∧ t = { s with boot := { s.boot with wpOpen := b }, regs := t.regs }
      ∧ t.get Reg.Sec.WP_OPEN = b.toNat ∧ t.get Reg.Ceil.WP_OPEN = b.toNat
      ∧ ∀ a, a ≠ Reg.Sec.WP_OPEN.addr → a ≠ Reg.Ceil.WP_OPEN.addr → t.reg a = s.reg a)

/-- R22, R45, R51, R58, R403, R410, R434, R436-R439, R445, R449: a field whose calibration finds a branch within 62 cycles holds its offsets and runs, and what it
serves loads its plan two boundaries later; one that fails is lost; the order that waited is answered. At start-up every field that was powered
passes or is lost, a LOST field without work returns as UNASSIGNED where it passes the self-test too, stacks that fail are lost, and start-up goes on. A
placement of step 6 is noted as built, and the last one starts serving. Of a written journal the entries that were read back and have a place are valid,
and it lets a pending reset or the entry to Overcast or Standby go on. Overcast ends when every placement has its fields loaded; the end of an undervoltage is recorded, and leads out of an Overcast that it caused. -/
def Obligations.StartUpCompletionsAct : Prop :=
  ∀ (s : State) (f p : Nat) (u fails untested dead : List Nat) (cross : List (Nat × Nat)) (offsets : List (Nat × Nat × Nat)),
    let x := s.field f
    let o := offsetsOf offsets f
    let bad : Prop := f ∈ fails ∨ (5000 * 62 < 12 * o.1 ∧ 5000 * 62 < 12 * o.2)
    let dawn := exec (.dawnCalibrationComplete (some f) ⟨fails, untested, offsets⟩ ⟨dead, cross⟩) s
    let all := exec (.dawnCalibrationComplete none ⟨fails, untested, offsets⟩ ⟨dead, cross⟩) s
    let ready : Prop := ∀ q, q < 4 → (s.plc q).live = true → ∀ g ∈ s.fieldsOf q, (s.field g).clock = .running ∧ (s.field g).loadAt = none
    (∀ a b l, offsetsOf ((f, a, b) :: l) f = (a / 10 * 10, b / 10 * 10))
    ∧ (x.clock ≠ .ramping ∧ x.clock ≠ .calibrating → dawn = .next s)
    ∧ (x.clock = .ramping ∨ x.clock = .calibrating → f ∈ computeFields → ¬bad → ∃ t, dawn = .next t
      ∧ (t.field f).offsetPrimary = some o.1 ∧ (t.field f).offsetRedundant = some o.2 ∧ (t.field f).trim ≤ 100 ∧ (t.field f).role = x.role
      ∧ (t.field f).clock = (if x.task ≠ 2 ∧ (x.role = .clearing ∨ x.role = .unassigned) then .stopping true else .running)
      ∧ (t.field f).loadAt = (if x.role = .active ∨ x.role = .rebuild then some (s.tick.count + 2) else none)
      ∧ (t.field f).task = (if x.task = 2 then 2 else 0)
      ∧ (x.task = 2 → ∀ c ∈ coresOf f, (t.core c).state = .test ∧ (t.core c).bankOn = 0xFFFF ∧ (t.core c).mem = [])
      ∧ (∀ g, g ≠ f → ∃ r, t.field g = { s.field g with router := r }) ∧ t.sessions = s.sessions ∧ t.tick = s.tick
      ∧ (x.task = 2 ∨ x.taskCmd = none → ∀ o : Src, t.answersTo o = s.answersTo o)
      ∧ (∀ seq op, x.task ≠ 2 → x.taskCmd = some (seq, .host, op) → t.answersTo .host = s.answersTo .host
        ++ [{ seq := seq, opcode := op, status := .ok, final := true, tick := s.tick.count }]))
    ∧ (x.clock = .ramping ∨ x.clock = .calibrating → f ∈ computeFields → bad → x.role ≠ .service → ∃ t, dawn = .next t
      ∧ (t.field f).clock = .stopped ∧ (t.field f).task = 0 ∧ (t.field f).on.testBit 0 = false ∧ (t.field f).on.testBit 1 = false
      ∧ (x.role ≠ .lost → x.lossPending = false → (t.field f).lossPending = true ∧ (t.field f).lostCause = some 7)
      ∧ (∀ g, g ≠ f → t.field g = s.field g) ∧ t.sessions = s.sessions ∧ t.tick = s.tick
      ∧ (∀ seq op, x.taskCmd = some (seq, .host, op) → t.answersTo .host = s.answersTo .host
        ++ [{ seq := seq, opcode := op, status := .ok, final := true, tick := s.tick.count }]))
    ∧ (s.start.phase ≠ 4 → all = .next s)
    ∧ (s.start.phase = 4 → s.livePlacements = [] → ∃ t, all = .next t ∧ t.start.calibrating = false
      ∧ (if s.boot.debugOpen = true then t.start.phase = 6 else t.start.serving = true ∧ t.start.phase = 0 ∧ t.start.power = .active)
      ∧ (f ∈ computeFields → (s.field f).powerRecord = 0 →
        (bad → x.role ≠ .lost → x.role ≠ .active → x.lossPending = false → (t.field f).lossPending = true ∧ (t.field f).lostCause = some 7)
        ∧ (bad → x.role = .active → (t.field f).role = .lost ∧ (t.field f).lostCause = some 7)
        ∧ (¬bad → x.role = .lost → (t.field f).role = if f ∈ untested then .lost else .unassigned)
        ∧ (¬bad → x.role = .clearing ∨ x.role = .unassigned → (t.field f).role = x.role ∧ (t.field f).offsetPrimary = some o.1))
      ∧ (∀ n, n < 48 → (t.stack n).st = .lost ↔ ((s.stack n).st = .lost ∨ n ∈ dead)))
    ∧ (s.start.phase = 4 → s.livePlacements ≠ [] → ∃ t, all = .next t ∧ t.start.calibrating = false ∧ t.start.phase = 6 ∧ t.start.serving = s.start.serving)
    ∧ (¬(s.start.phase = 6 ∧ (s.plc p).live = true ∧ p ∉ s.start.built ∧ s.boot.debugOpen = false) → exec (.placementBuilt p) s = .next s)
    ∧ (s.start.phase = 6 → (s.plc p).live = true → p ∉ s.start.built → s.boot.debugOpen = false →
      ∃ t, exec (.placementBuilt p) s = .next t ∧ t.start.built = s.start.built ++ [p]
        ∧ (if ∀ q ∈ s.livePlacements, q = p ∨ q ∈ s.start.built then t.start.serving = true ∧ t.start.power = .active ∧ t.start.phase = 0
          else t.start = { s.start with built := s.start.built ++ [p] }))
    ∧ (s.start.journal.running = false → exec (.journalWriteComplete u) s = .next s)
    ∧ (s.start.journal.running = true → ∃ t j : State, exec (.journalWriteComplete u) s = .next t
      -- the journal is complete, and life indices are stored with it (R358)
      ∧ j = { s with fields := j.fields, start := { s.start with journal := { s.start.journal with
          entries := j.start.journal.entries, complete := j.start.journal.complete, running := false } } }
      ∧ (∀ e ∈ j.start.journal.entries, (e.valid = true ↔ (e.index ∉ u ∧ 262144 ≤ e.offset ∧ e.offset + e.length ≤ 25165824))
        ∧ e.desc = s.sess e.index ∧ (s.sess e.index).st ≠ .free)
      ∧ (j.start.journal.complete = true ↔ ∀ e ∈ j.start.journal.entries, e.valid = true)
      ∧ (∀ g, j.field g = { s.field g with storedLife := (s.field g).lifeIndex, storedResidue := (s.field g).residue })
      ∧ (∀ cause hold, s.start.resetPending = some (cause, hold) → ResetTaken j t false hold cause s.start.straps)
      ∧ (s.start.resetPending = none → s.start.target ≠ some .overcast → s.start.target ≠ some .standby → t = j)
      ∧ (s.start.resetPending = none → s.start.target = some .overcast ∨ s.start.target = some .standby →
        -- scratchpads are lost, and what is left of a core is that it has failed
        (∀ e ∈ t.cores, e.2.state = .failed ∧ e.2.mem = []) ∧ t.sessions = s.sessions ∧ t.tick.running = (t.tick.running && s.tick.running)
        ∧ (s.start.target = some .standby → t.start.power = .standby ∧ t.cores = [] ∧ t.hbm = [])
        ∧ (s.start.target = some .overcast → t.start.power = .overcast
          ∧ (s.start.entryCause = 3 → s.power.inputFault = 0 → s.released = true → t.start.target = some .active ∧ t.tick.lullEndAsked = true)
          ∧ (¬(s.start.entryCause = 3 ∧ s.power.inputFault = 0 ∧ s.released = true) → t.start.target = none ∧ t.start.powerCmd = none
            ∧ ∀ n, n < 48 → (t.stack n).st = .lost ∨ (t.stack n).st = .off ∨ (t.stack n).st = .selfRefresh))))
    ∧ (s.start.power ≠ .overcast ∨ s.start.target ≠ some .active ∨ ¬ready ∨ (s.start.serving = false ∧ s.start.phase ≠ 6) →
      exec .overcastExitComplete s = .next s)
    ∧ (s.start.power = .overcast → s.start.target = some .active → ready → s.start.serving = true →
      ∃ t, exec .overcastExitComplete s = .next t ∧ t.start.power = .active ∧ t.start.target = none ∧ t.start.powerCmd = none
        ∧ t.start.journal = { s.start.journal with consumed := true } ∧ t.thermal.flowLost = false
        ∧ ∀ seq op, s.start.powerCmd = some (seq, .host, op) →
          { seq := seq, opcode := op, status := .ok, final := true, tick := s.tick.count } ∈ t.answersTo .host)
    ∧ (s.start.power = .overcast → s.start.target = some .active → ready → s.start.serving = false → s.start.phase = 6 →
      ∃ t, exec .overcastExitComplete s = .next t ∧ t.start.power = .active ∧ t.start.target = none ∧ t.start.calibrating = false
        ∧ (s.boot.debugOpen = true ∨ s.livePlacements ≠ [] → t.start.phase = 6) ∧ (s.boot.debugOpen = false → s.livePlacements = [] → t.start.serving = true))
    ∧ (∃ t c : State, exec .inputUvCleared s = .next t
      ∧ c = { s with power := { s.power with uv := false, inputFault := 0 }, regs := c.regs }
      ∧ c.get Reg.Pow.UV = 0 ∧ (∀ a, a ≠ Reg.Pow.UV.addr → c.reg a = s.reg a)
      ∧ (if s.start.power = .overcast ∧ s.start.entryCause = 3 ∧ s.start.target = none ∧ s.released = true then
          t.start.target = some .active ∧ t.tick.lullEndAsked = true ∧ ∀ n, n < 48 → (t.stack n).st ≠ .selfRefresh
        else t = c))

/-- R27, R28, R403, R415, R428, R439, R440, R449: MODULE_RESET of the host or the BMC is answered OK and leaves its journal under way, or where nothing runs
takes place at once; ZENITH_RESTART is PENDING with an image staged; a verified image opens the restart window, a failed one is SIGNATURE_INVALID; service
resumes with the final reply, after the boot ROM where that has not run; a Zenith that stops serving abandons a self-test; missed slots and a late
restart force Lull and set WATCHDOG_LULL. Each event that finds nothing to do changes nothing. -/
def Obligations.ResetAndRestartCommandsComplete : Prop :=
  ∀ (s : State) (h : CmdHdr),
    (h.src = .host ∨ (h.src = .bmc ∧ s.start.power ≠ .standby) → ∀ hold,
      InOrder (exec (.moduleReset h hold) s) s h 0x0102 [(32, Expert h (hold ≤ 1))]
        (let cause := if h.src = .bmc then 2 else 3
        let held : Bool := h.expert && hold == 1
        ∃ a t : State, Answered s a h.src (finalOf h 0x0102 .ok) ∧ exec (.moduleReset h hold) s = .next t
          ∧ (let y : State := { a with start := { a.start with resetPending := some (cause, held) } }
            (s.start.power ≠ .standby → s.start.power ≠ .off → JournalBegun y t 1)
            ∧ (s.start.power = .standby ∨ s.start.power = .off → ResetTaken y t false held cause s.start.straps))))
    ∧ (h.src = .host → ∀ i,
      InOrder (exec (.zenithRestart h i) s) s h 0x0103 [(32, Expert h (i ≤ 1))]
        ((s.start.journal.running = true ∨ s.start.restartCmd ≠ none → Refuses (exec (.zenithRestart h i) s) s h 0x0103 .busy)
        ∧ (s.start.journal.running = false → s.start.restartCmd = none → Gives (exec (.zenithRestart h i) s) { s with
            start := { s.start with restartCmd := some (h.seq, .host, opOf h 0x0103) }
            boot := { s.boot with staging := some (if h.expert then i else s.boot.order.headD 0) } } .host (pendingOf h 0x0103))))
    ∧ (s.boot.staging = none → ∀ ok, exec (.zenithStagingComplete ok) s = .next s)
    ∧ (∀ i ok, s.boot.staging = some i →
      if ok = true ∧ s.boot.passes i = true ∧ (s.boot.info i).whole = true then
        ∃ t, exec (.zenithStagingComplete ok) s = .next t
        ∧ t = { s with regs := t.regs, boot := { s.boot with staging := none, preference := some i, restartWindow := true, romDone := false } }
        ∧ t.get Reg.Glob.ZENITH_RESTARTING = 1 ∧ t.get Reg.Ceil.RESTART_WINDOW = 1
        ∧ ∀ a, a ≠ Reg.Glob.ZENITH_RESTARTING.addr → a ≠ Reg.Ceil.RESTART_WINDOW.addr → t.reg a = s.reg a
      else ∃ t, exec (.zenithStagingComplete ok) s = .next t
        ∧ Told { s with start := { s.start with restartCmd := none }, boot := { s.boot with staging := none } } t s.start.restartCmd .signatureInvalid 0)
    ∧ (s.start.power = .off ∨ s.start.perstHeld = true → exec .zenithResumed s = .next s)
    ∧ (s.start.power ≠ .off → s.start.perstHeld = false → s.boot.romDone = false →
      ∃ y : State, y = { s with boot := y.boot, regs := y.regs } ∧ y.boot.romDone = true ∧ y.boot.recovery = s.boot.chosen.isNone
        ∧ (y.boot.recovery = true → exec .zenithResumed s = .next y) ∧ (y.boot.recovery = false → exec .zenithResumed s = exec .zenithResumed y))
    ∧ (s.start.power ≠ .off → s.start.perstHeld = false → s.boot.romDone = true → s.boot.recovery = true → exec .zenithResumed s = .next s)
    ∧ (s.start.power ≠ .off → s.start.perstHeld = false → s.boot.romDone = true → s.boot.recovery = false →
      ∃ t, exec .zenithResumed s = .next t ∧ t.boot = { s.boot with zenithUp := true, restartWindow := false, missedSlots := 0 }
      ∧ t.get Reg.Glob.ZENITH_RESTARTING = 0 ∧ t.get Reg.Ceil.RESTART_WINDOW = 0 ∧ t.get Reg.Ceil.WATCHDOG_LULL = 0
      ∧ t.start = { s.start with restartCmd := none } ∧ t.host.late = []
      ∧ (∀ seq op, s.start.restartCmd = some (seq, .host, op) → t.answersTo .host = s.answersTo .host
        ++ [{ seq := seq, opcode := op, status := .ok, final := true, tick := s.tick.count }])
      ∧ (s.start.restartCmd = none → ∀ o : Src, t.answersTo o = s.answersTo o)
      ∧ ∃ y : State, y = { s with boot := t.boot, start := t.start, regs := t.regs, host := t.host, out := t.out } ∧ LullReleased y t)
    ∧ (s.start.testField = none → exec .zenithNotServicing s = .next { s with boot := { s.boot with zenithUp := false } })
    ∧ (∀ f, s.start.testField = some f → ∃ t, exec .zenithNotServicing s = .next t ∧ t.boot = { s.boot with zenithUp := false }
      ∧ t.start = { s.start with testField := none, testCmd := none } ∧ t.get Reg.Start.TEST_FIELD = 0xFF
      ∧ t.field f = { s.field f with task := 0, taskCmd := none } ∧ (∀ g, g ≠ f → t.field g = s.field g)
      ∧ (∀ c, coreField c ≠ f → t.core c = s.core c)
      ∧ t = { s with boot := t.boot, start := t.start, fields := t.fields, cores := t.cores, regs := t.regs, host := t.host, out := t.out }
      ∧ (∀ seq op, s.start.testCmd = some (seq, .host, op) → t.answersTo .host = s.answersTo .host
        ++ [{ seq := seq, opcode := op, status := .busy, final := true, tick := s.tick.count }])
      ∧ (s.start.testCmd = none → ∀ o : Src, t.answersTo o = s.answersTo o))
    ∧ (let watched (o : Host.Outcome State Fault Refusal) : Prop := ∃ t, o = .next t ∧ t.get Reg.Ceil.WATCHDOG_LULL = 1 ∧ Reported s t 0x0102
        ∧ (∀ o : Src, t.answersTo o = s.answersTo o)
        ∧ t = { s with tick := s.tick.calledToLull, regs := t.regs, host := t.host, out := t.out }
      let late : Prop := s.boot.restartWindow = false ∧ (s.zenithServing = false ∨ 4 ≤ s.boot.missedSlots)
      (late → watched (exec .watchdogLull s)) ∧ (¬late → exec .watchdogLull s = .next s)
      ∧ (s.boot.restartWindow = true → watched (exec .restartTimeout s)) ∧ (s.boot.restartWindow = false → exec .restartTimeout s = .next s))

/-- R48, R351, R353, R391, R403, R428, R436, R437, R471: POWER_STATE of the host or the BMC, given at once or at its apply_tick: an order for the state that stands is
answered PENDING and OK; Lull and Overcast are asked for from Active and reach the origin with the next words; Active ends a Lull, or begins the
exit from Overcast or Standby, refused before release, and BUSY on the way to either; Standby is reached through Overcast; a state that cannot be
reached from the present one is NOT_PERMITTED. An order under way is SUPERSEDED by the next. -/
def Obligations.PowerStateOrdersAct : Prop :=
  ∀ (s : State) (h : CmdHdr) (w k : Nat), h.src = .host ∨ h.src = .bmc →
    let op := 0x0104
    let cmd := some (h.seq, h.src, opOf h op)
    let leaving : Prop := s.start.target = some .overcast ∨ s.start.target = some .standby
    let free : Prop := s.thermal.trip = false ∧ s.power.refclkOk = true ∧ (s.thermal.flowLost = true → 10000 ≤ s.thermal.flowOkMs)
    -- the outcome of an order; `owed`: its PENDING reply was given before
    let acts (o : Host.Outcome State Fault Refusal) (owed : Bool) : Prop :=
      -- the state once the order is taken
      let taken (y : State) : Prop := ∃ a b : State,
        Told { s with start := { s.start with powerCmd := none } } a s.start.powerCmd .superseded (if h.src = .bmc then 1 else 2)
        ∧ b = { a with start := { s.start with powerCmd := cmd } }
        ∧ (if owed then y = b else Answered b y h.src (pendingOf h op))
      let goes (p : State → State → Prop) : Prop := ∃ y t : State, taken y ∧ o = .next t ∧ p y t
      let arrives : Prop := goes fun y t => Told { y with start := { y.start with powerCmd := none } } t cmd .ok 0
      let power := s.start.power
      (w = 0 → power = .active ∨ power = .lull → leaving → Refuses o s h op .busy)
      ∧ (w = 0 → power = .active → ¬leaving → arrives)
      ∧ (w = 0 → power = .lull → ¬leaving → goes fun y t => LullReleased { y with start := { y.start with lullOrdered := false, holdInLull := false } } t)
      ∧ (w = 0 → power = .overcast ∨ power = .standby → ¬free → Refuses o s h op .notPermitted)
      ∧ (w = 0 → power = .overcast → free → s.start.target ≠ none → goes fun y t => t = y)
      ∧ (w = 0 → power = .overcast → free → s.start.target = none → goes fun y t =>
        t.tick = { y.tick with lullEndAsked := true } ∧ (∀ n, n < 48 → (t.stack n).st ≠ .selfRefresh)
        ∧ (let on : Bool := s.start.serving || s.start.phase == 6
          t.start = { y.start with
            target := some .active, lullOrdered := false, holdInLull := false
            phase := if on then y.start.phase else 4, calibrating := y.start.calibrating || !on }
          ∧ ∀ f ∈ computeFields, (t.field f).clock = (if (s.field f).powerRecord = 0 ∧ (if on then (s.field f).role = .active ∨ (s.field f).role = .rebuild
              ∨ s.start.testField = some f else s.holdsWork f = false) then .waking else (s.field f).clock))
        ∧ t = { y with tick := t.tick, hbm := t.hbm, start := t.start, fields := t.fields, regs := t.regs })
      ∧ (w = 0 → power = .standby → free → goes fun y t => t.start.phase = 2 ∧ t.start.power = .standby ∧ t.start.target = some .active
        ∧ t.start.powerCmd = cmd ∧ t.boot = y.boot ∧ t.sessions = [] ∧ t.cores = [] ∧ t.hbm = [] ∧ t.tick = {} ∧ t.host.written = y.host.written)
      ∧ (w = 1 → power = .active → leaving → Refuses o s h op .busy)
      ∧ (w = 1 → power = .active → ¬leaving → goes fun y t =>
        t = { y with start := { y.start with lullOrdered := true }, tick := y.tick.calledToLull })
      ∧ ((w = 1 ∧ power = .lull) ∨ (w = 2 ∧ power = .overcast) ∨ (w = 3 ∧ power = .standby) → arrives)
      ∧ (w = 2 → power = .active ∨ power = .lull → goes fun y t => LeavingBegun y t 0 false)
      ∧ (w = 3 → power = .active ∨ power = .lull → goes fun y t => LeavingBegun y t 4 true)
      ∧ (w = 3 → power = .overcast → goes StandbyReached)
      ∧ ((w = 1 ∧ (power = .overcast ∨ power = .standby)) ∨ (w = 2 ∧ power = .standby) ∨ power = .off → Refuses o s h op .notPermitted)
    let waits : Prop := h.expert = true ∧ s.tick.running = true ∧ s.tick.count + 1 < k ∧ k ≠ 2 ^ 64 - 1
    InOrder (exec (.powerState h w k) s) s h op [(32, w ≤ 3)]
      ((waits → Gives (exec (.powerState h w k) s) { s with host := { s.host with
          deferred := s.host.deferred ++ [⟨.powerState h w k, k, true⟩] } } h.src (pendingOf h op))
      ∧ (¬waits → acts (exec (.powerState h w k) s) false))
    ∧ (w ≤ 3 → acts (.next (s.applyTimed ⟨.powerState h w k, k, true⟩)) true)

/-- R54-R56, R329, R330, R335-R337: what the Ceiling unit and the power manager do at their events: measured power and voltage are kept and shown; above the limit
one more forced level above the level in force, released one level at a time; Lull forced and released, the third within 10 s held and reported;
the ladder's one action for each evaluation, engaging in its order and releasing in reverse; a site's forecast taken, or 240 A
over the tick where its check bits fail; a missed forecast counted, reported and learnt again. -/
def Obligations.PowerManagementEventsAct : Prop :=
  ∀ (s : State) (p vin p10 iin f w : Nat) (word : W32),
    let limit := min 22000 (420 * vin / 1000)
    let measured : PowerMgr := { s.power with p1 := p, vin := vin, uv := decide (vin < 47000) }
    (p ≤ limit → ∃ t, exec (.powerLimitExceeded p vin) s = .next t ∧ t = { s with power := measured, regs := t.regs })
    ∧ (limit < p → ∃ t, exec (.powerLimitExceeded p vin) s = .next t ∧ t.power = measured
      ∧ t.tick.forced = max s.tick.forced (min 100 (s.tick.level + 1)) ∧ t.tick.level = s.tick.level
      ∧ t = { s with power := measured, tick := t.tick, links := t.links, regs := t.regs, host := t.host, out := t.out }
      ∧ (s.following = false → t.tick = { s.tick with forced := t.tick.forced } ∧ t.links = s.links)
      ∧ (s.usable < t.tick.forced → s.get Reg.Tick.FORCED = 0 → Reported s t 0x0208))
    ∧ (∃ t, exec .forcedStretchRelease s = .next t
      ∧ t = { s with tick := { s.tick with forced := t.tick.forced }, regs := t.regs, host := t.host, out := t.out }
      ∧ let n := min s.tick.forced s.tick.level - 1
        t.tick.forced = if n ≤ s.tick.zenith then 0 else n)
    ∧ (let recent := (s.power.powerLulls.filter fun t => s.power.msClock < t + 10000) ++ [s.power.msClock]
      ∃ t, exec .ceilingPowerLull s = .next t ∧ t.get Reg.Pow.CEILING_LULL = 1
      ∧ t = { s with
          tick := s.tick.calledToLull, regs := t.regs, host := t.host, out := t.out
          power := { s.power with powerLulls := recent, lullUntil := true, powerLullHeld := s.power.powerLullHeld || decide (3 ≤ recent.length) } }
      ∧ (3 ≤ recent.length → t.get Reg.Pow.POWER_LULL = 1 ∧ Reported s t 0x0207) ∧ (recent.length < 3 → t.host = s.host ∧ t.out = s.out))
    ∧ (s.power.powerLullHeld = false → ∃ t y : State, exec .powerLullRelease s = .next t
      ∧ y = { s with power := { s.power with lullUntil := false }, regs := y.regs } ∧ y.get Reg.Pow.CEILING_LULL = 0
      ∧ (∀ a, a ≠ Reg.Pow.CEILING_LULL.addr → y.reg a = s.reg a) ∧ LullReleased y t)
    ∧ (s.power.powerLullHeld = true → exec .powerLullRelease s = .next s)
    ∧ (∃ t, exec (.ladderEvaluation p p10 vin iin) s = .next t
      ∧ t = { s with
          power := t.power, regs := t.regs, thermal := { s.thermal with samples := t.thermal.samples }
          tick := { s.tick with capDemand := t.tick.capDemand }, mgmt := t.mgmt, host := t.host, out := t.out }
      ∧ (∀ o : Src, t.answersTo o = s.answersTo o)
      ∧ t.thermal.samples.length ≤ 10000 ∧ (t.thermal.samples.getLast?.map Prod.fst) = some p
      ∧ (let c := t.power.capEff
        let q := s.power
        let x := t.power
        let live := s.livePlacements
        let bound (l : Nat) : Nat := q.shareBound.getD l 100
        let shares : Prop := ∃ l ∈ live, bound l ≠ 0
        let depth := min q.depthLimit s.topDepth
        let n := q.releaseMs + 1
        let demand := s.tick.capDemand
        -- what the evaluation may set: the ladder's step, the depth limit, the demand, the time of release
        let sets (step depth demand ms : Nat) : Prop :=
          x.ladder = step ∧ x.depthLimit = depth ∧ t.tick.capDemand = demand ∧ x.releaseMs = ms
        let same : Prop := x.shareBound = q.shareBound
        let up : Prop := 97 * c < 100 * p
        let down : Prop := 100 * p < 94 * c
        x.p1 = p ∧ x.p10 = p10 ∧ x.vin = vin ∧ x.iin = iin ∧ x.vins = (q.vins ++ [vin]).drop (q.vins.length - 9)
        ∧ x = { q with
            p1 := p, p10 := p10, vin := vin, iin := iin, uv := decide (vin < 47000), vins := x.vins, capEff := c, ladder := x.ladder
            shareBound := x.shareBound, depthLimit := x.depthLimit, depthLog := x.depthLog, releaseMs := x.releaseMs, alert := x.alert }
        ∧ c = min q.hostCap (min (q.bmcCap.getD q.hostCap) (min s.thermal.cth (95 * 420 * (x.vins.foldl (· + ·) 0 / x.vins.length) / 100000)))
        ∧ (¬up → ¬down → sets q.ladder q.depthLimit demand 0 ∧ same)
        ∧ (up → q.ladder = 0 → sets 1 q.depthLimit demand 0 ∧ same)
        ∧ (up → q.ladder ≠ 0 → p ≤ c → sets q.ladder q.depthLimit demand 0 ∧ same)
        ∧ (up → q.ladder ≠ 0 → c < p → shares → sets (max 2 q.ladder) q.depthLimit demand 0
          ∧ ∀ l ∈ live, x.shareBound.getD l 100 = min (s.plc l).hostGrant (bound l) - 5)
        ∧ (up → q.ladder ≠ 0 → c < p → ¬shares → 1 < depth → sets (max 3 q.ladder) (depth - 1) demand 0 ∧ same)
        ∧ (up → q.ladder ≠ 0 → c < p → ¬shares → ¬1 < depth → demand < s.usable → sets 4 q.depthLimit (demand + 1) 0 ∧ same)
        ∧ (up → q.ladder ≠ 0 → c < p → ¬shares → ¬1 < depth → ¬demand < s.usable → sets 5 q.depthLimit demand 0 ∧ same
          ∧ (q.ladder ≠ 5 → t.get Reg.Pow.CAP_HELD = 1 ∧ x.alert = true ∧ Reported s t 0x0206))
        ∧ (down → q.ladder = 0 → sets 0 q.depthLimit demand 0 ∧ same)
        ∧ (down → q.ladder ≠ 0 → 0 < demand → n < 10 → sets q.ladder q.depthLimit demand n ∧ same)
        ∧ (down → q.ladder ≠ 0 → 0 < demand → 10 ≤ n →
          sets (if 1 < demand then 4 else if q.depthLimit ≠ 16 then 3 else if q.shareBound ≠ [] then 2 else 1) q.depthLimit (demand - 1) 0 ∧ same)
        ∧ (down → q.ladder ≠ 0 → demand = 0 → n < 100 → sets q.ladder q.depthLimit 0 n ∧ same)
        ∧ (down → q.ladder ≠ 0 → demand = 0 → 100 ≤ n → q.depthLimit ≠ 16 → same
          ∧ (if s.topDepth ≤ q.depthLimit + 1 then sets (if q.shareBound = [] then 1 else 2) 16 0 0 else sets 3 (q.depthLimit + 1) 0 0))
        ∧ (down → q.ladder ≠ 0 → demand = 0 → 100 ≤ n → q.depthLimit = 16 → q.shareBound ≠ [] →
          if ∀ l ∈ live, (s.plc l).plan.sized ≤ bound l + 5 then sets 1 16 0 0 ∧ x.shareBound = []
          else sets 2 16 0 0 ∧ ∀ l ∈ live, x.shareBound.getD l 100 = min (s.plc l).plan.sized (bound l + 5))
        ∧ (down → q.ladder ≠ 0 → demand = 0 → 100 ≤ n → q.depthLimit = 16 → q.shareBound = [] → sets 0 16 0 0 ∧ same)))
    ∧ (∃ t, exec (.forecastWord f word) s = .next t ∧ t = { s with fields := t.fields, regs := t.regs } ∧ (∀ g, g ≠ f → t.field g = s.field g)
      ∧ (forecastGood word = true → t.field f = { s.field f with forecast := word, forecastBad := false }
        ∧ t.get (Reg.FPow.FC_LOW f) = bits word.toNat 23 16 ∧ t.get (Reg.FPow.FC_MID f) = bits word.toNat 15 8
        ∧ t.get (Reg.FPow.FC_DEC f) = bits word.toNat 7 0)
      ∧ (forecastGood word = false → t.field f = { s.field f with forecast := 0x00F0F0F0, forecastBad := true } ∧ t.get Reg.Pow.FORECAST_BAD = 1))
    ∧ (∃ t, exec (.forecastMiss f w) s = .next t ∧ t.field f = { s.field f with forecastLearn := 1024 } ∧ (∀ g, g ≠ f → t.field g = s.field g)
      ∧ t.get Reg.Pow.FORECAST_MISS = 1 ∧ Reported s t 0x020A ∧ (∀ o : Src, t.answersTo o = s.answersTo o)
      ∧ t = { s with fields := t.fields, regs := t.regs, host := t.host, out := t.out })

/-- R323, R324, R325, R327, R328, R436: a low input is recorded and reported, and below 45 V the entry to Overcast with cause 3 begins; a tripped breaker is recorded and
reported and takes what its domain feeds: the logic or stratum of a compute field, the router links, the stacks homed there, the functions of a service
field; a tripped segment takes every compute field that it feeds, and with its partner off too the links, stacks and service domains of both.
A domain or segment that does not exist, or a segment tripped before, changes nothing. -/
def Obligations.InputFaultsAndTripsAct : Prop :=
  ∀ (s : State) (vin f d n : Nat),
    (∃ t, exec (.uvWarn vin) s = .next t ∧ t.power = { s.power with uv := true, vin := vin, alert := true }
      ∧ (t.mgmt.statusInput.getD 0 0).testBit 5 = true ∧ t.get Reg.Pow.UV = 1 ∧ t.get Reg.Pow.UV_WARN = 1 ∧ Reported s t 0x0205
      ∧ t = { s with power := t.power, mgmt := { s.mgmt with statusInput := t.mgmt.statusInput }, regs := t.regs, host := t.host, out := t.out }
      ∧ ∀ o : Src, t.answersTo o = s.answersTo o)
    ∧ (∃ t y : State, exec (.inputUv vin) s = .next t
      ∧ y.power = { s.power with uv := true, vin := vin, inputFault := max 1 s.power.inputFault, alert := true }
      ∧ (y.mgmt.statusInput.getD 0 0).testBit 4 = true ∧ y.get Reg.Pow.UV = 1 ∧ y.get Reg.Pow.INPUT_UV = 1 ∧ Reported s y 0x0203
      ∧ y = { s with power := y.power, mgmt := { s.mgmt with statusInput := y.mgmt.statusInput }, regs := y.regs, host := y.host, out := y.out }
      ∧ (∀ o : Src, y.answersTo o = s.answersTo o) ∧ LeavingBegun y t 3 false)
    ∧ (let exists_ : Prop := f < 88 ∧ (d < 3 ∨ (d = 3 ∧ isHomeSite f = true))
      let x := s.field f
      (¬exists_ → exec (.breakerTrip f d) s = .next s)
      ∧ (exists_ → ∃ t, exec (.breakerTrip f d) s = .next t
        ∧ (t.field f).powerRecord = x.powerRecord ||| 2 ^ d ∧ (t.field f).tripped = x.tripped ||| 2 ^ d ∧ (t.field f).on.testBit d = false
        ∧ t.get Reg.Pow.BREAKER_TRIP = 1 ∧ t.power.alert = true ∧ (t.mgmt.statusIout.getD (f / 4 + 2) 0).testBit 5 = true
        -- a compute field: its logic is off and its work is to move
        ∧ (f ∉ Config.serviceFields → d < 3 → (t.field f).clock = .stopped ∧ (t.field f).on.testBit 0 = false ∧ (t.field f).on.testBit 1 = false
          ∧ (x.role ≠ .lost → x.role ≠ .service → (t.field f).lossPending = true)
          ∧ (x.role ≠ .lost → x.role ≠ .service → x.lossPending = false → (t.field f).lostCause = some 2))
        ∧ (d < 2 → f ∉ Config.serviceFields → ∀ g, g ≠ f → t.field g = s.field g)
        ∧ (d = 2 → (t.router f).linksDown = [0, 1, 2, 3, 4, 5])
        ∧ (d = 3 → ∀ m, m < 48 → stackHome m = f → (t.stack m).st = .lost)
        ∧ (d < 2 → t.sessions = s.sessions)
        ∧ (d = 3 → f ∉ Config.serviceFields → (t.field f).role = x.role ∧ (t.field f).lossPending = x.lossPending ∧ (t.field f).clock = x.clock)
        ∧ (f = 2 → t.host.linkUp = false ∧ t.host.fetching = false)
        ∧ (f = 43 → ∀ q, q < 4 → (t.ethPort q).linkUp = false)
        ∧ (f = 85 → ∀ q, q < 6 → (t.port q).st = .off) ∧ (f = 44 → ∀ q, 6 ≤ q → q < 12 → (t.port q).st = .off)
        ∧ Reported s t 0x0201))
    ∧ (22 ≤ n ∨ n ∈ s.power.segTripped → exec (.segmentTrip n) s = .next s)
    ∧ (n < 22 → n ∉ s.power.segTripped → ∃ t, exec (.segmentTrip n) s = .next t
      ∧ t.power.segTripped = s.power.segTripped ++ [n] ∧ n ∉ t.power.segOn ∧ t.get (Reg.Pow.TRIPPED n) = 1 ∧ t.get (Reg.Pow.ON n) = 0
      ∧ t.get Reg.Pow.SEGMENT_TRIP = 1 ∧ t.power.alert = true ∧ (t.mgmt.statusIout.getD (n + 2) 0).testBit 7 = true ∧ Reported s t 0x0202
      ∧ (∀ g, g / 4 = n → g ∉ Config.serviceFields → (t.field g).clock = .stopped ∧ (t.field g).powerRecord.testBit 4 = true
        ∧ (t.field g).on.testBit 0 = false ∧ (t.field g).on.testBit 1 = false
        ∧ ((s.field g).role ≠ .lost → (s.field g).role ≠ .service → (t.field g).lossPending = true))
      ∧ ((n ^^^ 1) ∉ s.power.segTripped → (∀ g, g / 4 ≠ n → t.field g = s.field g) ∧ t.sessions = s.sessions)
      ∧ ((n ^^^ 1) ∈ s.power.segTripped → ∀ g, g / 4 = n ∨ g / 4 = (n ^^^ 1) →
        (t.router g).linksDown = [0, 1, 2, 3, 4, 5] ∧ (t.field g).on.testBit 2 = false
        ∧ (isHomeSite g = true → ∀ m, m < 48 → stackHome m = g → (t.stack m).st = .lost)
        ∧ (g ∈ Config.serviceFields → (t.field g).on.testBit 0 = false ∧ (t.field g).on.testBit 1 = false)))

/-- R239, R386, R406: SESSION_QUERY writes the descriptor that the handle names, as it then reads, SESSION_LIST the handles of the airspace's sessions
in the states the mask selects, ascending, as many as the buffer takes, with the counts and the index to go on from; a buffer outside the DMA
windows is NOT_PERMITTED and counted; nothing else changes.
R193, R204, R230, R231, R388, R406: while ticks run a cancel or a pause is marked on the sessions named, for the next boundary, and each handle has its
status; a pause asked of a session that is paused, or beside a cancel, changes nothing; without ticks both wait for the boundary and act there in
the same way. At the boundary a marked cancel ends a session that holds no lane or is at its round boundary, and drains the others. A prefix that is
READY is unregistered at the boundary, one that is FILLING is busy, one already RETIRING not permitted. Other sessions stay as they are. -/
def Obligations.SessionCommandsActOnTheSessionsNamed : Prop :=
  (∀ (s : State) (h : CmdHdr), h.src = .host →
     -- bytes into the buffer, with a final reply, where the DMA windows take them
     let writes (o : Host.Outcome State Fault Refusal) (op : Nat) (b : List Byte) (res : List (Nat × Nat × Nat)) : Prop :=
       if s.dmaOk h.buffer b.length = true then Gives o (s.emit (.buffer h.buffer b)) .host { finalOf h op .ok with inBuffer := true, result := res }
       else Gives o (s.bump Reg.Ceil.DMA_BLOCKED) .host (finalOf h op .notPermitted)
     (∀ handle, InOrder (exec (.sessionQuery h handle) s) s h 0x0401
       [(16, 1024 ≤ h.bufferLen), (32, (s.sess (handle % 4096)).st ≠ .free ∧ (s.sess (handle % 4096)).generation = handle / 4096)]
       (let b := descBytes (handle % 4096) (s.shownDesc (handle % 4096))
       b.length = 1024 ∧ writes (exec (.sessionQuery h handle) s) 0x0401 b []))
     ∧ (∀ a mask first,
       let o := exec (.sessionList h a mask first) s
       let from_ := if h.expert = true ∧ first ≠ 65535 then first else 0
       InOrder o s h 0x0404 [(32, a < 8), (33, mask < 128), (34, Expert h (Setting 16 first 0 4095))]
         (∃ l : List Nat, (∀ n, n ∈ l ↔ from_ ≤ n ∧ n ∈ s.sessIds ∧ (s.shownDesc n).st ≠ .free ∧ (s.sess n).airspace = a
             ∧ mask / 2 ^ (s.shownDesc n).st.code % 2 = 1)
           ∧ l.Pairwise (· ≤ ·)
           ∧ (let w := l.take (h.bufferLen / 4)
             let res := [(0, 4, w.length), (4, 4, l.length),
               (8, 2, if l.length ≤ h.bufferLen / 4 then 0xFFFF else (w.getLast?.map (· + 1)).getD from_)]
             (w ≠ [] → writes o 0x0404 (w.flatMap fun n => leBytes 4 (handleOf n (s.sess n))) res)
             ∧ (w = [] → Gives o s .host { finalOf h 0x0404 .ok with result := res })))))
  ∧ (∀ (s : State) (h : CmdHdr), h.src = .host →
       (∀ l : List Nat,
         let marks (o : Host.Outcome State Fault Refusal) : Prop := ∃ e res, Gives o e .host { finalOf h 0x0402 .ok with result := res }
           ∧ e = { s with sessions := e.sessions }
           ∧ (∀ n, (∃ x ∈ l, s.named x = some n) → e.sess n = { s.sess n with latch := 1 })
           ∧ (∀ n, (∀ x ∈ l, s.named x ≠ some n) → e.sess n = s.sess n)
           ∧ res.length = l.length ∧ ∀ i x, l[i]? = some x → res[i]? = some (2 * i, 2, if s.named x = none then 0x102 else 0)
         marks (.next (s.lateLatch ⟨.sessionCancel h l, s.tick.count + 1, true⟩))
         ∧ InOrder (exec (.sessionCancel h l) s) s h 0x0402 [(36, 1 ≤ l.length ∧ l.length ≤ 32 ∧ Expert h (2 ≤ l.length))]
           ((s.tick.running = true → marks (exec (.sessionCancel h l) s))
           ∧ (s.tick.running = false → BooksPending (exec (.sessionCancel h l) s) s h 0x0402 (.sessionCancel h l))))
       ∧ (∀ n k,
         let d := s.sess n
         let t := s.latchCancel n k
         let drains : Prop := (d.st = .prefill ∨ d.st = .decode) ∧ d.holdsLane k = true ∧ s.atRound n k = false
         (drains → (t.sess n).st = .draining ∧ (t.sess n).endReason = 4 ∧ (t.sess n).cancelLatched = true)
         ∧ (¬drains → d.st = .queued ∨ d.st = .paused ∨ d.st = .prefill ∨ d.st = .decode →
           (t.sess n).st = .ended ∧ (t.sess n).endReason = 4 ∧ (t.sess n).endPending = true ∧ (t.sess n).lane = none)
         ∧ (d.st = .draining → t.sess n = { d with cancelLatched := true })
         ∧ (d.st = .ended ∨ d.st = .free → t = s)
         ∧ ∀ m, m ≠ n → t.sess m = s.sess m)
       ∧ (∀ handle ttl,
         let o := exec (.sessionPause h handle ttl) s
         let n := handle % 4096
         let d := s.sess n
         let asks (r : Host.Outcome State Fault Refusal) : Prop := ∃ e, Gives r e .host (finalOf h 0x0403 .ok)
           ∧ e = { s with sessions := e.sessions } ∧ (∀ m, m ≠ n → e.sess m = s.sess m)
           ∧ (d.st = .decode → d.latch ≠ 1 → e.sess n = { d with
               latch := 2, pauseTtl := if h.expert = true ∧ ttl ≠ 2 ^ 32 - 1 ∧ ttl ≠ 0 then ttl else (s.asp d.airspace).pauseTtl })
           ∧ (d.st = .paused ∨ d.latch = 1 → e.sess n = d)
         let late : Host.Outcome State Fault Refusal := .next (s.lateLatch ⟨.sessionPause h handle ttl, s.tick.count + 1, true⟩)
         InOrder o s h 0x0403 [(32, s.named handle = some n), (36, Expert h (Setting 32 ttl 1 86400))]
           ((d.st = .queued ∨ d.st = .prefill ∨ d.st = .draining → Refuses o s h 0x0403 .busy)
           ∧ (d.st = .ended → Refuses o s h 0x0403 .notPermitted)
           ∧ (d.st = .decode ∨ d.st = .paused → (s.tick.running = true → asks o)
             ∧ (s.tick.running = false → BooksPending o s h 0x0403 (.sessionPause h handle ttl))))
         ∧ (s.named handle = none → Refuses late s h 0x0403 .badParameter)
         ∧ (s.named handle = some n → (d.st = .queued ∨ d.st = .prefill ∨ d.st = .draining → Refuses late s h 0x0403 .busy)
           ∧ (d.st = .ended → Refuses late s h 0x0403 .notPermitted) ∧ (d.st = .decode ∨ d.st = .paused → asks late)))
       ∧ (∀ a handle,
         let o := exec (.prefixUnregister h a handle) s
         let pe := (s.asp a).prefixes.getD (handle % 256) {}
         InOrder o s h 0x0405 [(32, a < 8), (36, pe.generation = handle / 256 ∧ pe.st ≠ .free)]
           ((pe.st = .ready → Books o s h 0x0405 (.prefixUnregister h a handle))
           ∧ (pe.st = .filling → Refuses o s h 0x0405 .busy)
           ∧ (pe.st = .retiring → Refuses o s h 0x0405 .notPermitted))
         ∧ (let t := s.takeEffect ⟨.prefixUnregister h a handle, s.tick.count + 1, false⟩
           (pe.generation = handle / 256 ∧ pe.st = .ready → t = { s with airspaces := t.airspaces } ∧ (∀ b, b ≠ a → t.asp b = s.asp b)
             ∧ t.asp a = { s.asp a with
                 prefixes := (s.asp a).prefixes.set (handle % 256) { pe with st := .retiring }
                 pageDue := (s.asp a).pageDue ++ pe.pages.map fun g => (g, false) })
           ∧ (¬(pe.generation = handle / 256 ∧ pe.st = .ready) → t = s))))

/-- R186, R199, R208, R211, R241, R400, R408: binding, unbinding, shares and KV settings are judged against the state that the orders accepted before leave, and
accepted for the next boundary where nothing that is held would move, every sum fits and the carving fits (NO_RESOURCE where it does not), an
airspace reset in every case; binding elsewhere is not permitted, unbinding with a descriptor in use is busy. Nothing changes in the control
slot. At the boundary the settings are stored; a reset ends every session of the airspace, and no other. -/
def Obligations.AirspaceOrdersAreBooked : Prop :=
  ∀ (s : State) (h : CmdHdr) (a : Nat), h.src = .host →
    let t := s.foreseen
    let x := t.asp a
    let k := s.tick.count + 1
    let others (p : Nat) (g : AirspaceSt → Nat) : Nat := (((t.boundTo p).filter (· != a)).map fun b => g (t.asp b)).sum
    -- what would move with a's segments
    let moves (p : Nat) : Prop := (t.plc p).live = true ∧ ∃ b ∈ t.boundTo p, a ≤ b ∧ t.kvInUse b = true
    let carves (i : Instr) (op : Nat) (u : Option State) : Prop :=
      (u ≠ none → Books (exec i s) s h op i) ∧ (u = none → Refuses (exec i s) s h op .noResource)
    (s.host.deferred = [] → t = s)
    ∧ (∀ p,
      let i : Instr := .airspaceBind h a p
      InOrder (exec i s) s h 0x0601 [(32, a < 8), (33, p < 4)]
        ((∀ q, x.placement = some q → Refuses (exec i s) s h 0x0601 (if q = p then .ok else .notPermitted))
        ∧ (x.placement = none →
          let fits : Prop := others p (·.slotShare) + x.slotShare ≤ 100 ∧ others p (·.kvShare) + x.kvShare ≤ 100
          (¬fits → BadField (exec i s) s h 0x0601 33)
          ∧ (fits → moves p → Refuses (exec i s) s h 0x0601 .busy)
          ∧ (fits → ¬moves p → carves i 0x0601 (t.applyBind a p))))
      ∧ (∀ u, s.applyBind a p = some u → s.takeEffect ⟨i, k, false⟩ = u ∧ (u.asp a).placement = some p
        ∧ u.sessions = s.sessions ∧ u.fields = s.fields ∧ u.placements = s.placements)
      ∧ (s.applyBind a p = none → s.takeEffect ⟨i, k, false⟩ = s))
    ∧ (let i : Instr := .airspaceUnbind h a
      InOrder (exec i s) s h 0x0602 [(32, a < 8)]
        (let held : Prop := (∃ n ∈ s.sessIds, (s.sess n).st ≠ .free ∧ (s.sess n).airspace = a)
          ∨ ∃ p, x.placement = some p ∧ (t.plc p).live = true ∧ ∃ b ∈ t.boundTo p, a < b ∧ t.kvInUse b = true
        (held → Refuses (exec i s) s h 0x0602 .busy) ∧ (¬held → Books (exec i s) s h 0x0602 i))
      ∧ (∀ u, s.applyUnbind a = some u → s.takeEffect ⟨i, k, false⟩ = u ∧ (u.asp a).placement = none
        ∧ ((s.asp a).placement ≠ none → (u.asp a).carvings = [] ∧ (u.asp a).stripes = [] ∧ (u.asp a).cloudPages = []))
      ∧ (s.applyUnbind a = none → s.takeEffect ⟨i, k, false⟩ = s))
    ∧ (InOrder (exec (.airspaceReset h a) s) s h 0x0603 [(32, a < 8)] (BooksPending (exec (.airspaceReset h a) s) s h 0x0603 (.airspaceReset h a))
      ∧ (let u := s.takeEffect ⟨.airspaceReset h a, k, false⟩
        (∀ n, (s.sess n).airspace = a → (s.sess n).st ≠ .free → (u.sess n).st = .ended ∧ (u.sess n).endReason = 7 ∧ (u.sess n).endPending = true)
        ∧ ∀ n, (s.sess n).airspace ≠ a → u.sess n = s.sess n))
    ∧ (∀ slot kv cloud power,
      let i : Instr := .setShares h a slot kv cloud power
      let new (v old : Nat) : Nat := if h.expert then picked 8 v old else old
      let slot1 := picked 8 slot x.slotShare
      let cloud1 := new cloud x.cloudShare
      let held : Prop := ∃ p, x.placement = some p ∧
        ((slot1 < x.slotShare ∧ slot1 * (t.plc p).ns * (t.plc p).plan.maxDepth / 100 < t.lanesOf p a)
        ∨ (new kv x.kvShare ≠ x.kvShare ∧ moves p)
        ∨ (cloud1 ≠ x.cloudShare ∧ (x.cloudPages ≠ [] ∨ (∃ e ∈ t.cores, ∃ q ∈ e.2.cloud, q.airspace = a)
          ∨ ((t.plc p).tune.st ≠ .none ∧ (t.plc p).tune.airspace = a))))
      InOrder (exec i s) s h 0x0604 [(32, a < 8),
          (33, Setting 8 slot 0 100 ∧ ∀ p, x.placement = some p → others p (·.slotShare) + slot1 ≤ 100),
          (34, Expert h (Setting 8 kv 0 100) ∧ ∀ p, x.placement = some p → others p (·.kvShare) + new kv x.kvShare ≤ 100),
          (35, Expert h (Setting 8 cloud 0 16) ∧ ((List.range 8).map fun b => if b = a then cloud1 else (t.asp b).cloudShare).sum ≤ 16),
          (36, Expert h (Setting 8 power 0 100))]
        ((held → Refuses (exec i s) s h 0x0604 .busy) ∧ (¬held → carves i 0x0604 (t.applyShares h a slot kv cloud power)))
      ∧ (∀ u, s.applyShares h a slot kv cloud power = some u → s.takeEffect ⟨i, k, false⟩ = u
        ∧ (u.asp a).slotShare = picked 8 slot (s.asp a).slotShare ∧ (u.asp a).kvShare = new kv (s.asp a).kvShare
        ∧ (u.asp a).cloudShare = new cloud (s.asp a).cloudShare ∧ (u.asp a).powerShare = new power (s.asp a).powerShare)
      ∧ (s.applyShares h a slot kv cloud power = none → s.takeEffect ⟨i, k, false⟩ = s))
    ∧ (∀ ttl k16 k32 k128 pool window,
      let i : Instr := .setKv h a ttl k16 k32 k128 pool window
      let new (w v old : Nat) : Nat := if h.expert then picked w v old else old
      let win := new 32 window x.window
      let moved : Prop := ¬(new 16 k16 x.slots16k = x.slots16k ∧ new 16 k32 x.slots32k = x.slots32k ∧ new 16 k128 x.slots128k = x.slots128k
        ∧ new 16 pool x.pool = x.pool)
      let short : Prop := win ≠ x.window ∧ t.pagesTotal x.stripes < win
      let held : Prop := (moved ∧ t.kvInUse a = true) ∨ ∃ g ∈ x.cloudPages, g < win
      InOrder (exec i s) s h 0x0409 [(32, a < 8), (36, Setting 32 ttl 1 86400), (40, Expert h (Setting 16 k16 0 4096)),
          (42, Expert h (Setting 16 k32 0 4096)), (44, Expert h (Setting 16 k128 0 4096)),
          (46, Expert h (Setting 16 pool 0 8192
            ∧ ∀ p, x.placement = some p → ∀ c ∈ t.kvCores p, picked 16 pool x.pool % (t.kvShare c).1 = 0)),
          (48, Expert h (Setting 32 window 0 2097152))]
        ((short → Refuses (exec i s) s h 0x0409 .noResource)
        ∧ (¬short → held → Refuses (exec i s) s h 0x0409 .busy)
        ∧ (¬short → ¬held → carves i 0x0409 (t.applyKv h a ttl k16 k32 k128 pool window)))
      ∧ (∀ u, s.applyKv h a ttl k16 k32 k128 pool window = some u → s.takeEffect ⟨i, k, false⟩ = u
        ∧ (let y := s.asp a
          let z := u.asp a
          z.pauseTtl = picked 32 ttl y.pauseTtl ∧ z.slots16k = new 16 k16 y.slots16k ∧ z.slots32k = new 16 k32 y.slots32k
          ∧ z.slots128k = new 16 k128 y.slots128k ∧ z.pool = new 16 pool y.pool ∧ z.window = new 32 window y.window))
      ∧ (s.applyKv h a ttl k16 k32 k128 pool window = none → s.takeEffect ⟨i, k, false⟩ = s))

/-- R345-R350, R352, R358: a sample reads the tray's sensors, one being lost at the third bad read and back at the tenth good one, and takes the highest inlet
temperature that is not lost, with none 52 C, and a lost flow as 20 L/min; a hot spot's reading is the higher of its pair, one that is implausible being left out, and a
field's the highest of its spots, with its limit lowered by a suspect pair; resistances are the means of ten samples; C_th is the lowest of its terms, in steps of 10 W,
falls at once and rises by at most 200 W; a field above its limit raises the stretch demand by one level up to the usable limit, and 1 s of cool samples lowers it by one;
fields held there are counted and each field's cycles are. The readings that no command carries are free values (log entries 109, 110 name what the
manual leaves open here). An Off module takes no sample. The life index and its residue are stored as they stand.
R48, R166, R346, R351, R353, R354, R357: two samples in a row of one thermistor at 52 C, of both lost ones, or a junction at 105 C trip once: the pin, the record and
the way to Overcast; a later one is counted; the release takes the pin back; lost flow is recorded and leads to Overcast, with the journal's cause 0 (entry 76);
a held field with a complete twin is moved to the nearest clearing; the outlook's 20 powers are the lower of the effective cap and the cap at the inlet
temperature to come, and its fit, from 10 s of samples on, leaves no error that a constant or a regressor that varied could take away, a weight whose regressor did not vary
standing as it was. -/
def Obligations.ThermalSamplesTripsAndOutlookAct : Prop :=
  (-- R347, a pair: a reading in range and within 20 K of the last
   (∀ old new v, plausible old new = some v ↔ new = some v ∧ 0 ≤ v ∧ v ≤ 1250 ∧ ∀ o, old = some o → (v - o).natAbs ≤ 200)
   ∧ (∀ (x : Spot) a b,
     let (y, c, low) := x.sample a b
     (x.lost = true → y.lost = true ∧ c = none ∧ low = 0)
     ∧ (x.lost = false → ∀ u v, plausible x.a a = some u → plausible x.b b = some v →
       c = some (max u v) ∧ y.lost = false ∧ y.okRun = (if (u - v).natAbs ≤ 30 then x.okRun + 1 else 0)
       ∧ y.diffs = (x.diffs ++ [((u - v).natAbs : Int)]).drop (x.diffs.length + 1 - 10)
       ∧ (y.suspect = true ↔ (x.suspect = true ∨ (y.diffs.length = 10 ∧ ∀ d ∈ y.diffs, 30 < d)) ∧ y.okRun < 100)
       ∧ (y.suspect = false → low = 0) ∧ (y.suspect = true → low = y.diffs.foldl max 0))
     ∧ (x.lost = false → ∀ u, plausible x.a a = some u → plausible x.b b = none → c = some (u + 50) ∧ low = 0 ∧ y.lost = false ∧ y.suspect = x.suspect)
     ∧ (x.lost = false → ∀ v, plausible x.a a = none → plausible x.b b = some v → c = some (v + 50) ∧ low = 0 ∧ y.lost = false ∧ y.suspect = x.suspect)
     ∧ (x.lost = false → plausible x.a a = none → plausible x.b b = none → c = none ∧ low = 0 ∧ y.lost = true))
   -- R349, the thermal cap: no term is exceeded, the lowest is reached but for the rounding
   ∧ (∀ (s : State) (tin : Rat) (pm : Nat),
     let n := s.capNow tin pm
     let t := s.thermal
     let above (lim : Int) : Rat := ((lim : Rat) - tin - ((10 * t.guardNow : Nat) : Int)) / 10
     let f : Rat := (t.flow : Int)
     let below (v : Rat) : Prop := n = 0 ∨ ((n : Int) : Rat) ≤ v
     n % 10 = 0 ∧ n ≤ 21000 ∧ ((21000 < n + 10) ∨ ∃ v ∈ s.capTerms tin pm, v < ((n : Int) : Rat) + 10)
     ∧ (0 < t.rthModNow → below (above (10 * (t.limitNow : Int)) / t.rthModNow))
     ∧ (∀ e ∈ s.fields, e.2.role = .active → 50 ≤ e.2.power → (e.2.atLimit = true → below ((pm : Int) : Rat))
       ∧ (e.2.atLimit = false → 0 < e.2.rthNow → below (((pm : Int) : Rat) * above e.2.limit / (e.2.rthNow * ((e.2.power : Int) : Rat)))))
     ∧ (400 < tin → tin ≤ 480 → below (21000 - 1875 * (tin - 400) / 10)) ∧ (480 < tin → below 6000)
     ∧ (t.flow < 1000 → n = 0) ∧ (1000 ≤ t.flow → t.flow < 2000 → below (21000 * (f / 100 - 10) / 10)))
   ∧ ∀ (s : State) (r : ThermalReads),
     (s.start.power = .off → exec (.thermalSample r) s = .next s)
     ∧ (s.start.power ≠ .off → ∃ t, exec (.thermalSample r) s = .next t
       ∧ t = { s with
           thermal := t.thermal, fields := t.fields, regs := t.regs, host := t.host, out := t.out, freeUses := t.freeUses
           power := { s.power with p100 := r.modulePower, auxV := t.power.auxV, capEff := t.power.capEff }
           tick := { s.tick with thermalDemand := t.tick.thermalDemand } }
       ∧ t.answersTo .host = s.answersTo .host
       ∧ (let x := s.thermal
         let y := t.thermal
         let ok (z : TrayRead) (lo hi : Int) : Prop := z.answered = true ∧ z.valid = true ∧ lo ≤ z.raw ∧ z.raw ≤ hi
         let reads (good : Prop) (fails run fails' run' : Nat) : Prop :=
           (¬good → fails' = min 3 (fails + 1) ∧ run' = 0)
           ∧ (good → fails < 3 → fails' = 0 ∧ run' = min 10 (run + 1))
           ∧ (good → 3 ≤ fails → 9 ≤ run → fails' = 0 ∧ run' = 10) ∧ (good → 3 ≤ fails → run < 9 → fails' = fails ∧ run' = run + 1)
         let value {α : Type} (good : Prop) (fails' : Nat) (old now : Option α) (v : α) : Prop :=
           (3 ≤ fails' → now = none) ∧ (fails' < 3 → good → now = some v) ∧ (fails' < 3 → ¬good → now = old)
         let hot := y.trayInlet.toList ++ x.couplingA.toList ++ x.couplingB.toList
         reads (ok r.inlet (-2560) 12800) x.inletFails x.inletGood y.inletFails y.inletGood
         ∧ reads (ok r.outlet (-2560) 12800) x.outletFails x.outletGood y.outletFails y.outletGood
         ∧ reads (ok r.flow 0 10000) x.flowFails x.flowGood y.flowFails y.flowGood
         ∧ value (ok r.inlet (-2560) 12800) y.inletFails x.trayInlet y.trayInlet (r.inlet.raw * 10 / 128)
         ∧ value (ok r.outlet (-2560) 12800) y.outletFails x.trayOutlet y.trayOutlet (r.outlet.raw * 10 / 128)
         ∧ value (ok r.flow 0 10000) y.flowFails x.trayFlow y.trayFlow r.flow.raw.toNat
         ∧ (((x.inletFails < 3 ∧ y.inletFails = 3) ∨ (x.outletFails < 3 ∧ y.outletFails = 3) ∨ (x.flowFails < 3 ∧ y.flowFails = 3)) →
           t.get Reg.Therm.TRAY_SENSOR_LOST = 1)
         ∧ (hot = [] → y.tIn = 520) ∧ (hot ≠ [] → y.tIn ∈ hot ∧ ∀ v ∈ hot, v ≤ y.tIn)
         ∧ y.flow = (if 3 ≤ y.flowFails then 2000 else y.trayFlow.getD x.flow) ∧ y.flowOkMs = (if 2000 ≤ y.flow then x.flowOkMs + 100 else 0)
         ∧ (480 < y.tIn → x.tIn ≤ 480 → t.get Reg.Therm.INLET_HOT = 1) ∧ (y.flow < 2000 → 2000 ≤ x.flow → t.get Reg.Therm.FLOW_LOW = 1)
         ∧ y.inletSlope = (x.inletSlope ++ [y.tIn]).drop (x.inletSlope.length + 1 - 101)
         ∧ y.rthMod = (match t.tjMax with
           | some c => if 3000 ≤ r.modulePower then last10 x.rthMod (kelvin (c - y.tIn) / (r.modulePower : Int)) else x.rthMod
           | none => x.rthMod)
         ∧ (let n := t.capNow y.tIn r.modulePower
           y.cth = (if n ≤ x.cth then n else min n (x.cth + 200)) ∧ t.get Reg.Therm.THERMAL_CAP = y.cth % 2 ^ (Reg.Therm.THERMAL_CAP.hi - Reg.Therm.THERMAL_CAP.lo + 1))
         ∧ y = { x with
             inletFails := y.inletFails, outletFails := y.outletFails, flowFails := y.flowFails, inletGood := y.inletGood, outletGood := y.outletGood
             flowGood := y.flowGood, trayInlet := y.trayInlet, trayOutlet := y.trayOutlet, trayFlow := y.trayFlow, tIn := y.tIn, flow := y.flow
             flowOkMs := y.flowOkMs, inletSlope := y.inletSlope, rthMod := y.rthMod, cth := y.cth, coolRun := y.coolRun })
       -- hot spots
       ∧ (∀ f, f < 88 →
         let mine := r.spots.filter fun h => h.field = f && decide (h.spot < spotCount f)
         let got (h : HotSpotRead) := ((s.field f).spots.getD h.spot {}).sample h.a h.b
         let x := t.field f
         let base : Int := 10 * (s.thermal.limitNow : Int)
         (mine = [] → s.fields.has f = true → x.control = none ∧ x.atLimit = false ∧ x.spots = (s.field f).spots ∧ x.limit = (s.field f).limit)
         ∧ (mine ≠ [] → (mine.map HotSpotRead.spot).Nodup →
           (∀ h ∈ mine, x.spots.getD h.spot {} = (got h).1)
           ∧ (∀ k, (∀ h ∈ mine, h.spot ≠ k) → x.spots.getD k {} = (s.field f).spots.getD k {})
           ∧ (∀ h ∈ mine, ∀ v, (got h).2.1 = some v → ∃ c, x.control = some c ∧ v ≤ c)
           ∧ (∀ c, x.control = some c → ∃ h ∈ mine, (got h).2.1 = some c)
           ∧ (∀ h ∈ mine, x.limit ≤ base - (got h).2.2) ∧ (x.limit = base ∨ ∃ h ∈ mine, x.limit = base - (got h).2.2)
           ∧ (x.atLimit = true ↔ ∃ e ∈ x.spots, e.2.lost = true))
         ∧ (∀ P, r.fieldPower.filter (fun e => e.1 = f) = [(f, P)] → x.power = P
           ∧ x.rth = (match x.control with
             | some c => if 50 ≤ P then last10 (s.field f).rth (kelvin (c - t.thermal.tIn) / (P : Int)) else (s.field f).rth
             | none => (s.field f).rth)))
       -- the stretch demand
       ∧ (let d := t.tick.thermalDemand
         let hot : Prop := ∃ e ∈ t.fields, ∃ c, e.2.control = some c ∧ e.2.limit < c
         let cool : Prop := ∀ e ∈ t.fields, e.2.atLimit = false ∧ ∀ c, e.2.control = some c → c + 20 ≤ e.2.limit
         (hot → d = min s.usable (s.tick.thermalDemand + 1))
         ∧ (¬hot → cool → 10 ≤ s.thermal.coolRun → d = min s.usable (s.tick.thermalDemand - 1))
         ∧ (¬hot → (¬cool ∨ s.thermal.coolRun < 10) → d = min s.usable s.tick.thermalDemand)
         ∧ (¬cool → t.thermal.coolRun = 0) ∧ (cool → t.thermal.coolRun = if 10 ≤ s.thermal.coolRun then 1 else s.thermal.coolRun + 1)
         ∧ (∀ f, f < 88 → t.fields.has f = true →
           (t.field f).heldRun = (if (t.field f).above && decide (s.usable ≤ d) then (s.field f).heldRun + 1 else 0)
           ∧ let w := { s.field f with control := (t.field f).control }.wear
             (t.field f).residue = w.residue ∧ (t.field f).lifeIndex = w.lifeIndex ∧ (t.field f).cycles = w.cycles)))
     ∧ (∃ t, exec .lifeIndexStore s = .next t ∧ t = { s with fields := t.fields }
         ∧ ∀ f, t.field f = { s.field f with storedLife := (s.field f).lifeIndex, storedResidue := (s.field f).residue }))
  ∧ (∀ (s : State),
       -- the way to Overcast
       (let straight : Prop := s.start.target ≠ some .overcast ∧ s.start.target ≠ some .standby
        ∀ cause sb,
         ((s.start.power ≠ .active ∧ s.start.power ≠ .lull) → s.goOvercast cause sb = s)
         ∧ ((s.start.power = .active ∨ s.start.power = .lull) →
           let target : PowerSt := if sb = true ∨ s.start.target = some .standby then .standby else .overcast
           ∃ u : State, u = { s with start := { s.start with target := some target, entryCause := u.start.entryCause, entryStandby := decide (target = .standby) } }
             ∧ (¬straight → s.goOvercast cause sb = u ∧ u.start.entryCause = s.start.entryCause)
             ∧ (straight → u.start.entryCause = cause ∧ (s.tick.running = true → s.goOvercast cause sb = u.askLull)
               ∧ (s.tick.running = false → s.goOvercast cause sb = u.beginOvercast))))
       ∧ (∀ a b j, s.start.power = .off → exec (.ceilingThermalSample a b j) s = .next s)
       ∧ (∀ a b j, s.start.power ≠ .off →
         let lost : Prop := a = none ∧ b = none
         let hit (x : Option Int) (n n' : Nat) : Prop := ((lost ∨ ∃ v, x = some v ∧ 520 ≤ v) → n' = min 2 (n + 1)) ∧ (¬lost → (∀ v, x = some v → v < 520) → n' = 0)
         let inlet (v : Int) : Prop := (lost → v = 520) ∧ (¬lost → v ∈ a.toList ++ b.toList ∧ ∀ x ∈ a.toList ++ b.toList, x ≤ v)
         let reading (v : Int) : Prop := (1050 ≤ j → v = j) ∧ (j < 1050 → inlet v)
         let o := exec (.ceilingThermalSample a b j) s
         ∃ u hitA hitB v, hit a s.thermal.tripHits.1 hitA ∧ hit b s.thermal.tripHits.2 hitB ∧ reading v
           ∧ (let hot : Prop := 1050 ≤ j ∨ hitA = 2 ∨ hitB = 2
             u = { s with
               power := { s.power with msClock := s.power.msClock + 1 }, regs := u.regs
               thermal := { s.thermal with couplingA := a, couplingB := b, tripHits := (hitA, hitB), hot := u.thermal.hot, coolMs := u.thermal.coolMs } }
             ∧ (u.thermal.hot = true ↔ hot)
             ∧ (∃ i, inlet i ∧ u.thermal.coolMs = if i < 450 ∧ (s.start.power = .standby ∨ j < 850) then s.thermal.coolMs + 1 else 0)
             ∧ (¬(hot ∧ s.thermal.hot = false) → o = .next u)
             ∧ (hot → s.thermal.hot = false → s.thermal.trip = true → o = .next { u with thermal := { u.thermal with tripCount := s.thermal.tripCount + 1 } })
             ∧ (hot → s.thermal.hot = false → s.thermal.trip = false → ∃ (w e z : State),
               w = { u with
                 thermal := { u.thermal with trip := true, tripCount := s.thermal.tripCount + 1, coolMs := 0 }, regs := w.regs
                 out := s.out ++ [.pin "THERMTRIP_N" true] }
               ∧ w.get Reg.Ceil.TRIP = 1 ∧ w.get Reg.Therm.THERMTRIP = 1 ∧ w.get Reg.Therm.THERM_TRIP = 1
               ∧ e = w.event { code := 0x0210, detail := (40, if 1050 ≤ j then 1 else 0) :: le2 42 (int16 v) }
               ∧ z = e.platformEvent 34 1 0 ∧ o = .next (z.goOvercast 2 false))))
       ∧ (s.thermal.trip = false → exec .tripRelease s = .next s)
       ∧ (s.thermal.trip = true → ∃ u : State, exec .tripRelease s = .next (u.platformEvent 34 0 0)
           ∧ u = { s with thermal := { s.thermal with trip := false }, regs := u.regs, out := s.out ++ [.pin "THERMTRIP_N" false] }
           ∧ u.get Reg.Ceil.TRIP = 0 ∧ u.get Reg.Therm.THERMTRIP = 0)
       ∧ (∀ w, s.start.power ≠ .active → s.start.power ≠ .lull → exec (.flowLost w) s = .next s)
       ∧ (∀ w, (s.start.power = .active ∨ s.start.power = .lull) → ∃ u : State,
         u = { s with thermal := { s.thermal with flowLost := true, flow := w, flowOkMs := 0 }, regs := u.regs } ∧ u.get Reg.Therm.FLOW_LOST = 1
         ∧ exec (.flowLost w) s = .next ((u.event { code := 0x0213, detail := le2 42 w }).goOvercast 0 false))
       -- a field held at its limit
       ∧ (∀ f,
         let x := s.field f
         let ready (p c h : Nat) : Prop := x.placement = some p ∧ x.role = .active ∧ x.lossPending = false ∧ s.thermal.switchOff = true ∧ x.heldRun ≠ 0
           ∧ s.twinComplete f = some h ∧ (∀ m ∈ (s.plc p).moves, m.field ≠ f) ∧ (s.plc p).moves.length < 3 ∧ s.aliasFull p f = false ∧ s.nearestClearing f = some c
         ((∀ p c h, ¬ready p c h) → exec (.fieldOffHeat f) s = .next s)
         ∧ (∀ p c h, ready p c h → ∃ t, exec (.fieldOffHeat f) s = .next t ∧ t.get Reg.Therm.FIELD_OFF_HEAT = 1
           ∧ (t.plc p).moves = (s.plc p).moves ++ [⟨f, c, some h, false, true, s.tick.count + 1, none⟩] ∧ (∀ q, q ≠ p → t.plc q = s.plc q)
           ∧ (t.field c).placement = some p ∧ ((t.field c).bank (s.plc p).liveBank).cycles = ((s.field c).bank (s.plc p).liveBank).cycles + 1
           ∧ (s.start.testField ≠ some c → (t.field c).role = .rebuild ∧ t.cores = s.cores ∧ t.answersTo .host = s.answersTo .host)
           ∧ (s.start.testField = some c → (t.field c).role = (s.field c).role ∧ (t.field c).chosen = true ∧ t.start.testField = none)
           ∧ (∀ g, g ≠ c → t.field g = s.field g) ∧ t.sessions = s.sessions ∧ t.airspaces = s.airspaces))
       -- the outlook
       ∧ exec .outlookFormation s = .next { s with thermal := { s.thermal with
           outlook := (List.range 20).map fun i => min ((s.power.capEff : Int) : Rat)
             ((s.capNow ((s.thermal.tIn : Rat) + s.thermal.slope * ((i + 1 : Nat) : Int) / 10) s.power.p100 : Nat) : Int) } }
       ∧ 0 ≤ s.thermal.slope
       ∧ (s.thermal.samples.length < 10000 → exec .outlookFit s
           = .next { s with thermal := { s.thermal with ps := 3 * (s.power.capEff : Int) / 10, wl := 60, wr := 60 } })
       ∧ (10000 ≤ s.thermal.samples.length → ∃ t, exec .outlookFit s = .next t
           ∧ t = { s with thermal := { s.thermal with ps := t.thermal.ps, wl := t.thermal.wl, wr := t.thermal.wr }, freeUses := t.freeUses }
           ∧ (let l := s.thermal.samples
             let lanes (e : Nat × Rat × Nat) : Rat := e.2.1
             let rows (e : Nat × Rat × Nat) : Rat := ((e.2.2 : Nat) : Int)
             let err (e : Nat × Rat × Nat) : Rat := (((e.1 : Nat) : Int) : Rat) - t.thermal.ps - t.thermal.wl * lanes e - t.thermal.wr * rows e
             let constant (g : Nat × Rat × Nat → Rat) : Prop := ∀ d ∈ l, ∀ e ∈ l, g d = g e
             (l.map err).sum = 0
             ∧ (¬constant lanes → (l.map fun e => err e * lanes e).sum = 0) ∧ (¬constant rows → (l.map fun e => err e * rows e).sum = 0)
             ∧ (constant lanes → t.thermal.wl = s.thermal.wl) ∧ (constant rows → t.thermal.wr = s.thermal.wr))))

/-- R159, R167, R169, R172, R175, R259, R270, R405, R407: INSTALL, REBUILD, REPAIR, ADAPTER_LOAD and TUNE_START are PENDING with the number of a new
transfer in RESULT, which stands last in the list for the source named, with the time limit asked or 600 s, and takes nothing yet; the placement shows the
installation or the tuning job and otherwise stays as it is. What is already under way makes them BUSY; a binding to another placement, another owner, a
placement that is not live, and nothing to bring make them NOT_PERMITTED. -/
def Obligations.TransfersOpenUnderANumber : Prop :=
  ∀ (s : State) (h : CmdHdr) (p a source limit : Nat), h.src = .host → p < 4 → a < 8 →
    let n := s.nextTransfer
    let inLimit : Prop := h.expert = false ∨ limit = 2 ^ 32 - 1 ∨ (60 ≤ limit ∧ limit ≤ 86400)
    let elsewhere : Prop := ∃ q, (s.asp a).placement = some q ∧ q ≠ p
    let opens (o : Host.Outcome State Fault Refusal) (op time : Nat) (x : PlacementSt) (more : Transfer → Prop) : Prop :=
      ∃ e y, Gives o e .host { pendingOf h op with result := [(0, 2, n)] }
        ∧ e = { s with placements := e.placements, regs := e.regs, transfers := s.transfers ++ [y], nextTransfer := e.nextTransfer }
        ∧ e.nextTransfer = (if n ≥ 65535 then 1 else n + 1)
        ∧ y.number = n ∧ y.placement = p ∧ y.airspace = a ∧ y.source = source ∧ y.timeLimit = time ∧ y.leading = none ∧ y.image = none ∧ y.done = []
        ∧ y.cmdSeq = h.seq ∧ y.cmdSrc = .host ∧ y.cmdOp = opOf h op ∧ more y
        ∧ (e.plc p = { x with twinNone := (e.plc p).twinNone })
        ∧ ∀ q, q ≠ p → e.plc q = { s.plc q with twinNone := (e.plc q).twinNone }
    let x := s.plc p
    let time := if h.expert = true ∧ limit ≠ 2 ^ 32 - 1 then limit else 600
    (∀ older, inLimit → (h.expert = false ∨ older ≤ 1) → let o := exec (.install h p a source limit older) s;
        let busy : Prop := s.installing p = true ∨ x.drain ≠ none ∨ x.moves ≠ []
        (busy → Refuses o s h 0x0301 .busy) ∧ (¬busy → elsewhere → Refuses o s h 0x0301 .notPermitted)
        ∧ (¬busy → ¬elsewhere → opens o 0x0301 time { x with imageState := .installing } fun y =>
            y.kind = 0 ∧ y.older = (h.expert && older == 1)))
    ∧ (∀ fields, inLimit → let o := exec (.rebuild h p a source limit fields) s;
        let named := if h.expert = true ∧ fields ≠ 2 ^ 128 - 1 then bitmapFields fields else s.rebuildable p
        let busy : Prop := s.installing p = true ∨ x.drain ≠ none
        (¬(∀ f ∈ named, f ∈ s.rebuildable p) → BadField o s h 0x0305 64)
        ∧ ((∀ f ∈ named, f ∈ s.rebuildable p) → (busy → Refuses o s h 0x0305 .busy)
          ∧ (¬busy → elsewhere ∨ named = [] → Refuses o s h 0x0305 .notPermitted)
          ∧ (¬busy → ¬elsewhere → named ≠ [] → opens o 0x0305 time x fun y => y.kind = 1 ∧ y.fields = named)))
    ∧ (∀ f slot, (h.expert = false ∨ f = 255 ∨ f < 88) → let o := exec (.repair h p a source f slot) s;
        let sel := if h.expert = true ∧ f ≠ 255 then x.repairsAsked.filter fun e => e.1 = f && (slot = 2 ^ 32 - 1 || e.2.1 = slot) else x.repairsAsked
        let busy : Prop := ∃ t ∈ s.transfers, t.placement = p ∧ t.kind = 2
        (busy → Refuses o s h 0x0306 .busy) ∧ (¬busy → elsewhere ∨ sel = [] → Refuses o s h 0x0306 .notPermitted)
        ∧ (¬busy → ¬elsewhere → sel ≠ [] → opens o 0x0306 600 x fun y => y.kind = 2 ∧ y.repairs = sel))
    ∧ (∀ id, id < 64 → inLimit → let o := exec (.adapterLoad h p a id source limit) s;
        let other : Prop := ∃ e, x.adapters.find id = some e ∧ e.owner ≠ a
        let busy : Prop := (∃ e, x.adapters.find id = some e ∧ e.slotA ≠ none ∧ e.slotB ≠ none) ∨ s.tuneHolds p id = true
          ∨ ∃ t ∈ s.transfers, t.placement = p ∧ t.kind = 3 ∧ t.adapter = id
        (x.live = false ∨ elsewhere ∨ other → Refuses o s h 0x0501 .notPermitted)
        ∧ (x.live = true → ¬elsewhere → ¬other → (busy → Refuses o s h 0x0501 .busy)
          ∧ (¬busy → opens o 0x0501 time x fun y => y.kind = 3 ∧ y.adapter = id ∧ y.slot = none)))
    ∧ (∀ id, id < 64 → inLimit → let o := exec (.tuneStart h p a id source limit) s;
        let j := x.tune
        let busy : Prop := j.st = .loading ∨ j.st = .running ∨ ((j.st = .done ∨ j.st = .stopped) ∧ j.held = true)
        let other : Prop := ∃ e, x.adapters.find id = some e ∧ e.owner ≠ a
        let full : Prop := ∃ e, x.adapters.find id = some e ∧ ((e.slotA ≠ none ∧ e.slotB ≠ none) ∨ e.retiring = true)
        (x.live = false ∨ x.plan.tuning = false ∨ elsewhere → Refuses o s h 0x0503 .notPermitted)
        ∧ (x.live = true → x.plan.tuning = true → ¬elsewhere → (busy → Refuses o s h 0x0503 .busy)
          ∧ (¬busy → other → Refuses o s h 0x0503 .notPermitted) ∧ (¬busy → ¬other → full → Refuses o s h 0x0503 .busy)
          ∧ (¬busy → ¬other → ¬full → opens o 0x0503 time
              { x with tune := { st := .loading, airspace := a, adapter := id, cmdSeq := h.seq, cmdSrc := .host, cmdOp := opOf h 0x0503, held := true } }
              fun y => y.kind = 4 ∧ y.adapter = id)))

/-- R21, R159, R160, R163, R172, R175, R260, R276, R277, R400, R405, R407: INSTALL_CANCEL ends the installation as SUPERSEDED and its banks are EMPTY; SET_WEIGHTS
stores the hold and the twin protection; a removal is booked unless an airspace is bound or something is under way; ADAPTER_REMOVE retires the ID of
its owner, which goes once nothing is pinned to its versions; TUNE_STOP marks the running job; a held result is committed at a boundary or given
up, a commit of the same control slot winning, and nothing without one. -/
def Obligations.WeightAndTuningOrdersAct : Prop :=
  ∀ (s : State) (h : CmdHdr) (p : Nat), h.src = .host → p < 4 →
    let x := s.plc p
    let rest (e : State) (y : PlacementSt) : Prop := e.plc p = { y with twinNone := (e.plc p).twinNone }
      ∧ ∀ q, q ≠ p → e.plc q = { s.plc q with twinNone := (e.plc q).twinNone }
    let o := exec (.installCancel h p) s
    ((∀ t ∈ s.transfers, t.placement = p → t.kind ≠ 0) → Refuses o s h 0x0302 .ok)
    ∧ (∀ t, s.transfers.find? (fun t => t.placement = p && t.kind = 0) = some t → t.cmdSrc = .host →
      ∃ u, o = .next u ∧ u.transfers = s.transfers.filter (fun y => y.number ≠ t.number) ∧ u.cores = s.cores ∧ u.sessions = s.sessions
        ∧ u.answersTo .host = s.answersTo .host ++ [{ finalOf h 0x0302 .ok with tick := s.tick.count },
            { seq := t.cmdSeq, opcode := t.cmdOp, status := .superseded, final := true, tick := s.tick.count }]
        ∧ (t.image = none → rest u { x with imageState := s.heldState p } ∧ u.fields = s.fields)
        ∧ (∀ i, t.image = some i → rest u { x with imageState := .empty, staged := none, stagedAt := [] }
          ∧ (x.live = false ∨ s.twinProtection = false → ∀ r ∈ i.fields, r.role = 1 → let f := x.partSite r.field;
              (((s.field f).bank x.stagedBank).st = .installing ∨ ((s.field f).bank x.stagedBank).st = .staged) →
                ((u.field f).bank x.stagedBank).st = .empty ∧ ((u.field f).bank x.stagedBank).mem = [])))
    ∧ (∀ hold twin, hold ≤ 86400 ∨ hold = 2 ^ 32 - 1 → h.expert = false ∨ twin ≤ 1 ∨ twin = 255 →
        let on := if h.expert = true ∧ twin ≠ 255 then decide (twin = 1) else s.twinProtection
        ∃ e, Gives (exec (.setWeights h hold twin) s) e .host (finalOf h 0x0308 .ok)
          ∧ e.rollbackHold = (if hold = 2 ^ 32 - 1 then s.rollbackHold else hold) ∧ e.twinProtection = on
          ∧ e = { s with rollbackHold := e.rollbackHold, twinProtection := on, regs := e.regs, placements := e.placements, fields := e.fields
                         host := e.host, out := e.out }
          ∧ (∀ q, e.plc q = { s.plc q with twinNone := (e.plc q).twinNone })
          ∧ (on = s.twinProtection → e.fields = s.fields ∧ e.host = s.host ∧ e.out = s.out)
          ∧ (s.twinProtection = true → on = false → ∀ q, q < 4 → ∀ f ∈ s.fieldsOf q, (e.field f).twinHolder = none ∧ (e.field f).twinOf = none))
    ∧ ((s.boundTo p ≠ [] → Refuses (exec (.removePlacement h p) s) s h 0x0307 .notPermitted)
      ∧ (s.boundTo p = [] → let busy : Prop := s.installing p = true ∨ x.drain ≠ none ∨ x.moves ≠ [];
        (busy → Refuses (exec (.removePlacement h p) s) s h 0x0307 .busy)
        ∧ (¬busy → Books (exec (.removePlacement h p) s) s h 0x0307 (.removePlacement h p))))
    ∧ (∀ a id, a < 8 → id < 64 → let o := exec (.adapterRemove h p a id) s;
      (x.adapters.find id = none → Refuses o s h 0x0502 .noResource)
      ∧ (∀ y, x.adapters.find id = some y → y.owner ≠ a → Refuses o s h 0x0502 .notPermitted)
      ∧ (∀ y, x.adapters = [(id, y)] → y.owner = a → s.tuneHolds p id = false → (∀ q, q ≠ p → (s.plc q).adapters = []) →
        let vs := y.slotA.toList ++ y.slotB.toList
        ((∀ v ∈ vs, s.pinned p id v.version = true) → vs ≠ [] → ∃ e, Gives o e .host (finalOf h 0x0502 .ok) ∧ e = { s with placements := e.placements }
          ∧ e.plc p = { x with adapters := [(id, { y with retiring := true })] } ∧ ∀ q, q ≠ p → e.plc q = s.plc q)
        ∧ ((∀ v ∈ vs, s.pinned p id v.version = false ∧ v.atBoundary = none) → (vs.map AdapterSlot.version).Nodup → ∃ e, Gives o e .host (finalOf h 0x0502 .ok)
          ∧ e = { s with placements := e.placements, airspaces := e.airspaces, cores := e.cores }
          ∧ e.plc p = { x with adapters := [] } ∧ (∀ q, q ≠ p → e.plc q = s.plc q)
          ∧ (∀ c, e.core c = { s.core c with nextTags := (e.core c).nextTags })
          ∧ (∀ b, b ≠ a → e.asp b = s.asp b)
          ∧ e.asp a = { s.asp a with cloudPages := (s.asp a).cloudPages.filter fun n => !(vs.any fun v => v.backing.contains n) })))
    ∧ (x.tune.st = .running → ∃ e, Gives (exec (.tuneStop h p) s) e .host (finalOf h 0x0504 .ok) ∧ e = { s with placements := e.placements }
        ∧ e.plc p = { x with tune := { x.tune with stopping := true } } ∧ ∀ q, q ≠ p → e.plc q = s.plc q)
    ∧ (x.tune.st ≠ .running → Refuses (exec (.tuneStop h p) s) s h 0x0504 .notPermitted)
    ∧ (let held : Prop := (x.tune.st = .done ∨ x.tune.st = .stopped) ∧ x.tune.held = true
      let committing : Prop := ∃ d ∈ s.host.deferred, ∃ g, d.order = .tuneCommit g p
      (held → BooksPending (exec (.tuneCommit h p) s) s h 0x0505 (.tuneCommit h p))
      ∧ (¬held → Refuses (exec (.tuneCommit h p) s) s h 0x0505 .notPermitted)
      ∧ (committing → Gives (exec (.tuneDiscard h p) s) s .host { finalOf h 0x0506 .superseded with detail := 2 })
      ∧ (¬committing → held → ∃ e, Gives (exec (.tuneDiscard h p) s) e .host (finalOf h 0x0506 .ok)
          ∧ e = { s with placements := e.placements, regs := e.regs, cores := e.cores }
          ∧ e.plc p = { x with tune := { x.tune with held := false, areas := [] } } ∧ (∀ q, q ≠ p → e.plc q = s.plc q)
          ∧ (∀ c, e.core c = { s.core c with nextTags := (e.core c).nextTags })
          ∧ ∀ q ∈ x.tune.areas, ∀ g ∈ tuneSlotSegs q, (g, 0xF) ∈ (e.core q.1).nextTags)
      ∧ (¬committing → ¬held → Refuses (exec (.tuneDiscard h p) s) s h 0x0506 .notPermitted))

/-- R26, R30, R36, R162, R163, R175, R405: FLIP with an image staged, and PLAN_LOAD with figures that pass the checks, are PENDING with a drain (30 s, or the
expert flip's limit) that may complete from the next boundary on, ordered from the stewards of the fields; a longer period is held; a plan that fails
its checks is BAD_PARAMETER; a flip without an image is not permitted, a second drain busy. A drain that runs out is answered TIMEOUT with everything else as
it was; one that is not due stays, and so does every drain but at the start of a tick; a due plan load comes into force with its answer, also by the
release of its held period. The end of the rollback hold drops the previous image. -/
def Obligations.DrainsBeginAndEnd : Prop :=
  ∀ (s : State) (h : CmdHdr) (p : Nat), h.src = .host → p < 4 →
    let x := s.plc p
    let begins (o : Host.Outcome State Fault Refusal) (op req limit : Nat) (flip : Bool) (plan : Option Plan) : Prop :=
      ∃ e, Gives o e .host (pendingOf h op)
        ∧ e = { s with placements := e.placements, regs := e.regs, nextRequest := e.nextRequest, gust := e.gust, out := e.out }
        ∧ s.out <+: e.out ∧ (∀ q : Src, e.answersTo q = s.answersTo q)
        ∧ e.gust.map Prod.snd = s.gust.map Prod.snd ++ (s.fieldsOf p).map stewardId
        ∧ (∀ q, q ≠ p → e.plc q = s.plc q)
        ∧ e.plc p = { x with drain := some {
            isFlip := flip, cmdSeq := h.seq, cmdSrc := .host, cmdOp := opOf h op, from_ := s.tick.count + 1, limit := limit, newPlan := plan
            periodRequest := req, heldPeriod := if s.tick.period < s.periodWith p req then some (s.periodWith p req) else none } }
    (∀ l, (h.expert = false ∨ l = 65535 ∨ (1 ≤ l ∧ l ≤ 3600)) →
      let busy : Prop := x.drain ≠ none ∨ x.moves ≠ []
      let may : Prop := (x.imageState = .staged ∨ (x.imageState = .previous ∧ 0 < x.holdLeft)) ∧ x.staged ≠ none
      (busy → Refuses (exec (.flip h p l) s) s h 0x0303 .busy)
      ∧ (¬busy → ¬may → Refuses (exec (.flip h p l) s) s h 0x0303 .notPermitted)
      ∧ (∀ i, ¬busy → may → x.staged = some i →
          begins (exec (.flip h p l) s) 0x0303 i.period (if h.expert = true ∧ l ≠ 65535 then l else 30) true none))
    ∧ (∀ period sized replay, (h.expert = false ∨ ((period = 65535 ∨ (period ≤ 48000 ∧ period % 8 = 0)) ∧ (sized = 255 ∨ sized ≤ 60)
          ∧ (replay = 255 ∨ (2 ≤ replay ∧ replay ≤ 20)))) →
      let o := exec (.planLoad h p period sized replay) s
      let busy : Prop := x.drain ≠ none ∨ x.moves ≠ [] ∨ s.installing p = true
      (x.live = false ∨ (x.image = none ∧ ¬busy) → Refuses o s h 0x0304 .notPermitted)
      ∧ (x.live = true → busy → Refuses o s h 0x0304 .busy)
      ∧ (∀ i, x.live = true → ¬busy → x.image = some i →
        let share := if h.expert = true ∧ sized ≠ 255 then sized else i.prefillPct
        let rr := if h.expert = true ∧ replay ≠ 255 then replay else i.rrPct
        let own : Prop := h.expert = false ∨ (sized = 255 ∧ replay = 255)
        let need := planPeriod i.decodeLen share i.exchange i.absorb rr
        (need = none → (own → BadField o s h 0x0304 32) ∧ (¬own → BadField o s h 0x0304 36))
        ∧ ∀ k, need = some k → let req := if h.expert = true ∧ period ≠ 65535 then period else k;
          (own → k ≠ i.period → BadField o s h 0x0304 32)
          ∧ (¬(own ∧ k ≠ i.period) → (req < k → BadField o s h 0x0304 34)
            ∧ (k ≤ req → let good := s.planOk p i i.decodeLen i.exchange i.absorb (computeWindow i.decodeLen share) req
              (good = false → BadField o s h 0x0304 32)
              ∧ (good = true → begins o 0x0304 req 30 false (some (s.makePlan p i share rr req)))))))
    ∧ (∀ d, x.drain = some d → d.cmdSrc = .host →
      ∃ e, Gives (exec (.flipDrainTimeout p) s) e .host { seq := d.cmdSeq, opcode := d.cmdOp, status := .timeout, final := true }
        ∧ e = { s with placements := e.placements, regs := e.regs } ∧ e.plc p = { x with drain := none } ∧ ∀ q, q ≠ p → e.plc q = s.plc q)
    ∧ (x.drain = none → exec (.flipDrainTimeout p) s = .next s)
    ∧ (let open_ : Prop := s.tick.running = true ∧ s.tick.started = true ∧ s.tick.slotDone = false
      let due (d : Drain) : Prop := d.from_ ≤ s.tick.count ∧ s.oldSessions p = [] ∧ (d.heldPeriod = none ∨ s.promisesElsewhere p = false)
      (¬open_ → exec (.flipDrainComplete p) s = .next s ∧ exec .periodHoldRelease s = .next s)
      ∧ ((∀ d, x.drain = some d → ¬due d) → exec (.flipDrainComplete p) s = .next s)
      ∧ ((∀ q, q < 4 → ∀ d, (s.plc q).drain = some d → d.heldPeriod = none) → exec .periodHoldRelease s = .next s)
      ∧ (∀ d plan i, open_ → x.drain = some d → due d → d.cmdSrc = .host → d.isFlip = false → d.newPlan = some plan → x.image = some i →
        ∃ t, exec (.flipDrainComplete p) s = .next t ∧ (t.plc p).drain = none ∧ (t.plc p).plan = plan ∧ (t.plc p).hostGrant = plan.sized
          ∧ (t.plc p).bL = x.bL ∧ (t.plc p).phases = x.phases ∧ (t.plc p).lanes = x.lanes ∧ (t.plc p).ledger = x.ledger
          ∧ t.tick = { s.tick with period := t.periodOf } ∧ t.sessions = s.sessions
          ∧ (d.heldPeriod ≠ none → (∀ q, q < 4 → q ≠ p → ∀ e, (s.plc q).drain = some e → e.heldPeriod = none) → exec .periodHoldRelease s = .next t)
          ∧ t.answersTo .host = s.answersTo .host ++ [{ seq := d.cmdSeq, opcode := d.cmdOp, status := .ok, final := true, tick := s.tick.count }]))
    ∧ (x.imageState ≠ .previous → exec (.rollbackHoldExpiry p) s = .next s)
    ∧ (x.imageState = .previous → ∃ t, exec (.rollbackHoldExpiry p) s = .next t
        ∧ (t.plc p) = { x with imageState := .empty, staged := none, stagedAt := [], holdLeft := 0, twinNone := (t.plc p).twinNone }
        ∧ t.cores = s.cores ∧ t.sessions = s.sessions ∧ t.airspaces = s.airspaces
        ∧ ∀ i r, x.staged = some i → r ∈ i.fields → r.role = 1 → s.twinProtection = false → let f := x.partSite r.field;
          ((s.field f).bank x.stagedBank).st = .previous → ((t.field f).bank x.stagedBank).st = .empty ∧ ((t.field f).bank x.stagedBank).mem = []
          ∧ ∀ g, (∀ r ∈ i.fields, x.partSite r.field ≠ g) → t.field g = s.field g)

/-- R30, R36, R162, R212, R214: when the drain of a flip is due at the start of a tick, the pointer switches at that boundary: the staged bank and its image are
live, the old one stands by, the placement serves from this boundary on with its first rounds beginning, the period is that of the live placements and
the last answer is OK; where the new plan fails its checks everything but the drain stays as it was and the answer is BAD_PARAMETER. -/
def Obligations.AFlipSwitchesTheBankOrLeavesAll : Prop :=
  ∀ (s : State) (p : Nat) (d : Drain) (i : Image), p < 4 →
    let x := s.plc p
    let a (st : Status) : Reply := { seq := d.cmdSeq, opcode := d.cmdOp, status := st, final := true }
    s.tick.running = true → s.tick.started = true → s.tick.slotDone = false → x.drain = some d → d.isFlip = true → d.cmdSrc = .host → x.staged = some i →
    d.from_ ≤ s.tick.count → s.oldSessions p = [] → (d.heldPeriod = none ∨ s.promisesElsewhere p = false) →
    (∃ t, exec (.flipDrainComplete p) s = .next t ∧ (t.plc p).drain = none ∧ (t.plc p).live = true ∧ (t.plc p).liveBank = x.stagedBank
      ∧ (t.plc p).stagedBank = x.liveBank ∧ (t.plc p).image = some i ∧ (t.plc p).servingAt = some s.tick.count ∧ (t.plc p).suspended = none
      ∧ (t.plc p).moved = x.stagedAt ∧ (t.plc p).bL = s.tick.count ∧ (t.plc p).lanes = [] ∧ (t.plc p).ledger = []
      ∧ (t.plc p).hostGrant = (t.plc p).plan.sized ∧ (t.plc p).plan.required = i.period
      ∧ ((t.plc p).imageState = .empty ∨ (t.plc p).imageState = .previous)
      ∧ t.tick = { s.tick with period := t.periodOf }
      ∧ (t.answersTo .host).getLast? = some { a .ok with tick := s.tick.count })
    ∨ (∃ e t, Gives (.next t) e .host (a .badParameter)
      ∧ e = { s with placements := e.placements, regs := e.regs } ∧ e.plc p = { x with drain := none } ∧ (∀ q, q ≠ p → e.plc q = s.plc q)
      ∧ exec (.flipDrainComplete p) s = .next (t.forAll allFields State.swapTables))

/-- R265, R274, R275: a tuning program starts in an assigned cell that is free, in the direction assigned; the optimiser step brings every
parameter of a core's slot on by one Adam step with stochastic rounding and clears its gradient, once per step and core of a running job, and the last core
ends the step. -/
def Obligations.TuningRunsInItsCells : Prop :=
  ∀ (s : State) (c : Nat) (b : Bool),
    let k := s.core c
    let q := k.seq
    let only (t : State) : Prop := ∀ n, n ≠ c → t.core n = s.core n
    let x := if b then k.tuneBwd else k.tuneFwd
    ((s.coreRuns c = false ∨ q.prog ≠ 0 ∨ s.cellOf c ≠ some b ∨ x.len = 0) → exec (.tuningCell c b) s = .next s)
    ∧ (s.coreRuns c = true → q.prog = 0 → s.cellOf c = some b → x.len ≠ 0 →
      let drained := q.flights.foldl (fun m f => max m f.ready) q.cycle
      let idle := k.decRows.all fun e => !e.2.valid
      ∃ t, exec (.tuningCell c b) s = .next t ∧ t = { s with cores := t.cores } ∧ only t ∧ t.core c = { k with seq := (t.core c).seq }
        ∧ (t.core c).seq = q.atProgram (if b then 8 else 7) x.base (if idle then drained else max (48 + (s.planOf c).d + k.extension) drained))
    ∧ (∀ p slot work n, (s.field (coreField c)).placement = some p → (s.plc p).tune.areas.find? (fun e => e.1 == c) = some (c, slot, work, n) →
      let j := (s.plc p).tune
      ((j.optimising = false ∨ c ∈ j.optimised ∨ j.st ≠ .running) → exec (.optimiserStep c) s = .next s)
      ∧ (j.optimising = true → c ∉ j.optimised → j.st = .running → 
        let b1t := F32.mul k.b1t j.beta1
        let b2t := F32.mul k.b2t j.beta2
        let a : Adam :=
          { beta1 := j.beta1, beta2 := j.beta2, c1 := F32.sub F32.one b1t, c2 := F32.sub F32.one b2t,
            invN := F32.div F32.one (F32.ofNat j.targets), lr := j.lr, eps := j.eps, decay := j.decay }
        let last : Prop := ∀ e ∈ j.areas, e.1 = c ∨ e.1 ∈ j.optimised
        let word (m : Mem) (o i : Nat) : W32 := BitVec.ofNat 32 (m.le (32 * work + 2 * n + 4 * (o * n + i)) 4)
        ∃ t, exec (.optimiserStep c) s = .next t ∧ only t ∧ (∀ q, q ≠ p → t.plc q = s.plc q)
          ∧ t = { s with cores := t.cores, placements := t.placements, regs := t.regs, freeUses := t.freeUses }
          ∧ t.core c = { k with mem := (t.core c).mem, b1t := b1t, b2t := b2t, seq := { q with prog := 9 } }
          ∧ ((32 * slot + 2 * n ≤ 32 * work ∨ 32 * work + 14 * n ≤ 32 * slot) → ∀ i, i < n →
              let r := adamStep a (F32.ofBf16 (k.mem.le (32 * work + 2 * i) 2)) (word k.mem 1 i) (word k.mem 2 i) (word k.mem 0 i)
              let u := (philox (j.step + 1) i 1 c (j.seed.toNat % 2 ^ 32) (j.seed.toNat / 2 ^ 32)).headD 0
              word (t.core c).mem 1 i = r.1 ∧ word (t.core c).mem 2 i = r.2.1 ∧ word (t.core c).mem 0 i = r.2.2
              ∧ (t.core c).mem.le (32 * slot + 2 * i) 2 = narrowElem .bf16 r.2.2 0 (some (u.toNat % 65536))
              ∧ (t.core c).mem.le (32 * work + 2 * i) 2 = 0)
          ∧ (∀ y, (y < 32 * slot ∨ 32 * slot + 2 * n ≤ y) → (y < 32 * work ∨ 32 * work + 14 * n ≤ y) → (t.core c).mem.read y = k.mem.read y)
          ∧ (¬last → t.freeUses = s.freeUses ∧ t.regs = s.regs ∧ (t.plc p) = { s.plc p with tune := { j with optimised := c :: j.optimised } })
          ∧ (last → t.get (Reg.Tune.STEP p) = (j.step + 1) % 2 ^ 32
            ∧ (∀ r, r ≠ (Reg.Tune.STEP p).addr → r ≠ (Reg.Tune.LOSS p).addr → t.reg r = s.reg r)
            ∧ t.plc p = { s.plc p with tune := { j with
                loss := (t.plc p).tune.loss, optimised := [], optimising := false, step := j.step + 1, repeats := 0, fwd := [], bwd := []
                st := if j.steps ≤ j.step + 1 then .done else if j.stopping then .stopped else .running } })))
    ∧ ((∀ p, (s.field (coreField c)).placement = some p → (s.plc p).tune.areas.find? (fun e => e.1 == c) = none) → exec (.optimiserStep c) s = .next s)

/-- R31, R144, R153, R159, R160, R246, R259-R261: an acknowledgement is charged to its airspace's bucket, and dropped and counted where that is short
(that it leaves by the lowest-numbered port whose link is up, and what a cap below the link's rate drops, is the model's: log entry 124).
What arrives for a transfer: a stray fragment is answered RESEND, one that does not fit BAD_PARAMETER, one before the leading part or beyond 64 assemblies RESEND_BUSY, a
chunk already taken so; a good one is kept until its chunk is whole, which then waits for its hash, a full field queue refusing it; a leading part whose signature no key
of the airspace gives ends the transfer; an assembly that runs out is discarded; a chunk whose leaf is wrong is discarded and counted, a right one stands in its bank at its
place or in the package's store; a field read back keeps its leaves and is STAGED, the last one stages the image and answers OK; mismatched chunks are asked for again, the
third time the transfer ends, and so it does without its key or out of time. -/
def Obligations.ChunksAreCheckedAndWritten : Prop :=
  ∀ (s : State),
    let ack (s : State) (y : Transfer) (result chunk done : Nat) : State := s.sendChunkAck y.airspace y.source y.number result chunk done
    let sent (t e : State) : Prop := t.out = e.out ∧ ∀ a, t.asp a = e.asp a
    let ends (t : State) (y : Transfer) (st : Status) : Prop := t.transfers = s.transfers.filter (fun z => z.number ≠ y.number) ∧ t.sessions = s.sessions
      ∧ t.answersTo .host = s.answersTo .host ++ [{ seq := y.cmdSeq, opcode := y.cmdOp, status := st, final := true, tick := s.tick.count }]
    (∀ a src num r c d,
      let u := s.sendChunkAck a src num r c d
      let x := s.asp a
      let cost := frameBytes 40 (isV4 src) (x.vlan ≠ 0)
      let o : Out := .chunkAck src num r c d
      (∀ n, s.egressPort 0 = some n → cost ≤ x.bucket →
        u = { s with airspaces := u.airspaces, regs := u.regs, out := u.out } ∧ u.asp a = { x with bucket := x.bucket - cost } ∧ (∀ b, b ≠ a → u.asp b = s.asp b)
        ∧ (400 ≤ (s.ethPort n).cap → u.out = s.out ++ [o] ∧ ∀ k, k ≠ (Reg.Eth.TX_FRAMES n).addr → u.reg k = s.reg k)
        ∧ (u.out = s.out ++ [o] ∨ (u.out = s.out ∧ u.get (Reg.Eth.TX_CAP_DROP n) ≠ 0)))
      ∧ (∀ n, s.egressPort 0 = some n → x.bucket < cost → u = { s with regs := u.regs } ∧ u.get (Reg.Eth.CAP_DROP a) ≠ 0
        ∧ ∀ k, k ≠ (Reg.Eth.CAP_DROP a).addr → u.reg k = s.reg k)
      ∧ (s.egressPort 0 = none → u = s))
    -- fragments
    ∧ (∀ m : ChunkMsg, (∀ y ∈ s.transfers, y.number = m.transfer → y.airspace = m.airspace → y.source ≠ m.source) →
      exec (.imageChunk m) s = .next (s.sendChunkAck m.airspace m.source m.transfer 5 m.chunk 0))
    ∧ (∀ (m : ChunkMsg) y, s.transfers.find? (fun t => t.number = m.transfer && t.airspace = m.airspace && t.source = m.source) = some y →
      let lead : Prop := m.chunk = ackLead
      let fits : Prop := m.offset % 1024 = 0 ∧ 1024 ≤ m.data.length ∧ m.data.length ≤ 8192 ∧ m.data.length % 1024 = 0
        ∧ (lead ∨ ((y.leading = none ∨ y.wants m.chunk = true) ∧ m.offset + m.data.length ≤ chunkBytes))
      let taken : Prop := (lead ∧ y.leading ≠ none) ∨ m.chunk ∈ y.done ∨ ∃ e ∈ s.chunkStore, e.1 = y.number ∧ e.2.1 = m.chunk
      let o := exec (.imageChunk m) s
      let old := s.assemblies.find? fun x => x.transfer = y.number && x.chunk = m.chunk
      let x : Assembly := old.getD ⟨y.number, m.chunk, []⟩
      let now : Assembly := { x with fragments := (x.fragments.filter fun e => e.1 ≠ m.offset) ++ [(m.offset, m.data)] }
      let left := s.assemblies.filter fun x => !(x.transfer = y.number && x.chunk = m.chunk)
      (¬fits → o = .next (s.badField ⟨m.airspace, m.source, 0, 0, 0, 0, 2 ^ 48 ≤ m.source⟩))
      ∧ (fits → ¬lead → y.leading = none → o = .next (ack s y 2 m.chunk y.done.length))
      ∧ (fits → lead ∨ y.leading ≠ none →
        (taken → o = .next (ack s y 3 m.chunk y.done.length))
        ∧ (¬taken → old = none → 64 ≤ s.assemblies.length → o = .next (ack s y 2 m.chunk y.done.length))
        ∧ (¬taken → old ≠ none ∨ s.assemblies.length < 64 →
          (now.whole = none → o = .next { s with assemblies := left ++ [now] })
          ∧ (∀ data, now.whole = some data → ¬lead → let u := { s with assemblies := left };
            (2 ≤ y.kind → o = .next { u with chunkStore := s.chunkStore ++ [(y.number, m.chunk, data)] })
            ∧ (y.kind ≤ 1 → s.queueOf y m.chunk = none → o = .next (ack u y 2 m.chunk y.done.length))
            ∧ (∀ f, y.kind ≤ 1 → s.queueOf y m.chunk = some f →
              (16 ≤ (s.field f).writeQueue.length → o = .next (ack u y 2 m.chunk y.done.length))
              ∧ ((s.field f).writeQueue.length < 16 → ∃ t, o = .next t
                ∧ t = { u with chunkStore := s.chunkStore ++ [(y.number, m.chunk, data)], fields := t.fields } ∧ (∀ g, g ≠ f → t.field g = s.field g)
                ∧ t.field f = { s.field f with writeQueue := (s.field f).writeQueue ++ [m.chunk] })))
          ∧ (∀ l, now.whole = some l → lead → y.cmdSrc = .host → headerFits (l.take 512) (if y.kind ≤ 2 then 0 else y.kind - 2) = true → zeroAt l 1024 4096 = true →
              (∀ k, s.keyOf y.airspace (bytesAt (l.take 512) 176 64) = some k → verifyWith k.2 (l.take 512) (bytesAt l 512 512) = false) →
              ∃ t, o = .next t ∧ ends t y .signatureInvalid))))
    ∧ (∀ n c, ((∀ y ∈ s.transfers, y.number ≠ n) ∨ (∀ x ∈ s.assemblies, x.transfer = n → x.chunk ≠ c) → exec (.chunkAssemblyTimeout n c) s = .next s)
      ∧ (∀ y, s.transfers.find? (fun t => t.number = n) = some y → (∃ x ∈ s.assemblies, x.transfer = n ∧ x.chunk = c) → exec (.chunkAssemblyTimeout n c) s =
          .next (ack { s with assemblies := s.assemblies.filter fun x => !(x.transfer = n && x.chunk = c) } y 2 c y.done.length)))
    -- hashing and writing
    ∧ (∀ num n, (∀ y ∈ s.transfers, y.number ≠ num) ∨ (∀ e ∈ s.chunkStore, e.1 = num → e.2.1 ≠ n) → exec (.chunkWritten num n) s = .next s)
    ∧ (∀ num n y data, s.transfers.find? (fun t => t.number = num) = some y → s.chunkStore.find? (fun e => e.1 = num && e.2.1 = n) = some (num, n, data) →
      let store := s.chunkStore.filter fun e => !(e.1 = num && e.2.1 = n)
      let key := s.keyOf y.airspace (bytesAt (y.leading.getD []) 176 64)
      let o := exec (.chunkWritten num n) s
      let found (t : State) : Option Transfer := t.transfers.find? fun t => t.number = num
      (key = none → y.cmdSrc = .host → ∃ t, o = .next t ∧ ends t y .signatureInvalid)
      ∧ (key ≠ none → leafOf n data ≠ y.leaf n → ∃ t, o = .next t ∧ t.chunkStore = store ∧ found t = some { y with mismatched := y.mismatched + 1 }
        ∧ t = { s with fields := t.fields, transfers := t.transfers, chunkStore := store, regs := t.regs, out := t.out, airspaces := t.airspaces }
        ∧ sent t (ack s y 1 n y.done.length) ∧ ∀ g, t.field g = { s.field g with writeQueue := (t.field g).writeQueue })
      ∧ (∀ i r site bank, key ≠ none → leafOf n data = y.leaf n → y.kind ≤ 1 → y.image = some i → i.recOf n = some r →
        s.chunkTarget y r = some (site, bank) → bank < 2 →
        let b := (s.field site).bank bank
        let at_ := chunkBytes * (n - r.firstChunk)
        let good := tailOk r n data
        ∃ t, o = .next t
          ∧ t = { s with fields := t.fields, transfers := t.transfers, chunkStore := store, regs := t.regs, out := t.out, airspaces := t.airspaces }
          ∧ (∀ g, g ≠ site → t.field g = s.field g) ∧ (t.field site).bank (1 - bank) = (s.field site).bank (1 - bank)
          ∧ t.field site = { s.field site with bank0 := (t.field site).bank0, bank1 := (t.field site).bank1, writeQueue := without (s.field site).writeQueue n }
          ∧ (good = false → (t.field site).bank bank = b ∧ t.transfers = s.transfers ∧ sent t (ack s y 1 n y.done.length))
          ∧ (good = true → (t.field site).bank bank = { b with mem := b.mem.writeBytes at_ (data.take (r.regionBytes - at_)) }
            ∧ found t = some { y with done := y.done ++ [n] } ∧ sent t (ack s y 0 n (y.done.length + 1))))
      ∧ (key ≠ none → leafOf n data = y.leaf n → (y.kind = 3 ∨ y.kind = 4) → y.done.length + 1 < y.total → ∃ t, o = .next t
        ∧ found t = some { y with done := y.done ++ [n] } ∧ sent t (ack s y 0 n (y.done.length + 1)) ∧ t.chunkStore = s.chunkStore
        ∧ t = { s with fields := t.fields, transfers := t.transfers, regs := t.regs, out := t.out, airspaces := t.airspaces }))
    -- reading back
    ∧ (∀ p, (∀ y ∈ s.transfers, y.placement = p → 2 ≤ y.kind ∨ y.image = none) → ∀ f bad, exec (.fieldReadbackComplete p f bad) s = .next s)
    ∧ (∀ p f y i r bank, s.transfers.find? (fun t => t.placement = p && t.kind ≤ 1) = some y → s.transfers.find? (fun t => t.number = y.number) = some y →
      y.kind = 0 → y.image = some i → i.fields.find? (fun q => q.role = 1 && q.field = f) = some r →
      (∀ q ∈ i.fields, q.role = 1 → q.field ≠ f → ∀ w, s.chunkTarget y q = some w → w.1 ≠ f) → s.chunkTarget y r = some (f, bank) → bank < 2 →
      let key := s.keyOf y.airspace i.keyHash
      let in_ : Prop := ∀ k, k < r.chunks → r.firstChunk + k ∈ y.done
      (key = none → y.cmdSrc = .host → ∀ bad, ∃ t, exec (.fieldReadbackComplete p f bad) s = .next t ∧ ends t y .signatureInvalid)
      ∧ (key ≠ none → f ∈ y.readBack ∨ ¬in_ → ∀ bad, exec (.fieldReadbackComplete p f bad) s = .next s)
      ∧ (key ≠ none → f ∉ y.readBack → in_ →
        (let last : Prop := ∀ q ∈ i.fields, q.role = 1 → q.field = f ∨ q.field ∈ y.readBack
          ∃ t, exec (.fieldReadbackComplete p f []) s = .next t ∧ ((t.field f).bank bank).st = .staged ∧ ((t.field f).bank bank).leaves = i.leavesOf r
          ∧ ((t.field f).bank bank).mem = ((s.field f).bank bank).mem ∧ t.cores = s.cores ∧ t.sessions = s.sessions
          ∧ (¬last → t = { s with fields := t.fields, transfers := t.transfers } ∧ (∀ g, g ≠ f → t.field g = s.field g)
            ∧ t.transfers.find? (fun t => t.number = y.number) = some { y with readBack := y.readBack ++ [f] })
          ∧ (last → y.cmdSrc = .host → ends t y .ok ∧ (t.plc p).imageState = .staged ∧ (t.plc p).staged = some i))
        ∧ (∀ bad : List Nat, bad ≠ [] →
          let fails (n : Nat) : Nat := ((y.readFails.find? fun e => e.1 = n).map Prod.snd).getD 0 + 1
          let done := y.done.filter fun n => !bad.contains n
          ((∀ n ∈ bad, fails n < 3) → ∃ t, exec (.fieldReadbackComplete p f bad) s = .next t
            ∧ t = { s with transfers := t.transfers, chunkStore := t.chunkStore, regs := t.regs, out := t.out, airspaces := t.airspaces }
            ∧ t.transfers.find? (fun z => z.number = y.number) = some { y with
                done := done, readFails := (y.readFails.filter fun e => !bad.contains e.1) ++ bad.map fun n => (n, fails n) }
            ∧ sent t (bad.foldl (fun u n => ack u y 4 n done.length) s))
          ∧ (y.cmdSrc = .host → (∃ n ∈ bad, 3 ≤ fails n) → ∃ t, exec (.fieldReadbackComplete p f bad) s = .next t ∧ ends t y .noResource))))
    -- time
    ∧ (∀ p, (∀ y ∈ s.transfers, y.placement ≠ p) → exec (.installTimeout p) s = .next s)
    ∧ (∀ p y, s.transfers.find? (fun t => t.placement = p) = some y → y.cmdSrc = .host → ∃ t, exec (.installTimeout p) s = .next t
      ∧ ends t y .timeout
      ∧ (y.kind = 0 → y.image = none → (t.plc p).imageState = s.heldState p ∧ t.fields = s.fields ∧ t.cores = s.cores)
      ∧ (y.kind = 1 → (s.plc p).moves ≠ [] → (t.plc p).suspended ≠ none ∨ (t.plc p).suspendDue ≠ none))

/-- R77, R81, R82, R165-R169, R201, R206, R368, R372: a core reported lost is failed in order, reported, and as the third of its field takes the field, unless the field is lost or
its work is moving; a lost stack is marked and reported once; a scrubbed page moves the pointer, a correctable word is counted in a live bank and rewritten in
another, an uncorrectable one drops its tiles in a live bank, loses the field outside them, and leaves a staged bank INCOMPLETE; a tile is
patched from the twin while there is room; a mirror whose copy passes its leaves is complete; a move's copy stands in the clearing, whose plan is loaded, or
goes on from the image. -/
def Obligations.LossesAndCopiesAct : Prop :=
  ∀ (s : State) (f : Nat), f < 88 →
    let x := s.field f
    let only (t : State) : Prop := ∀ g, g ≠ f → t.field g = s.field g
    let counted (t : State) (c : Fld) : Prop := t.get c = min (s.get c + 1) (2 ^ (c.hi - c.lo + 1) - 1)
    let lost (t : State) (cause : Nat) : Prop := (t.field f).lossPending = true ∧ (t.field f).lostCause = some cause ∧ (t.field f).lossAt = s.tick.count
    (∀ n cond, n < 32 →
      let c := 32 * f + n
      let known : Prop := (s.core c).state = .failed
      let failed := if (s.core c).state = .failed then x.failed else x.failed ++ [n]
      let order := if (s.core c).state = .failed then (s.core c).failOrder else min (x.failed.length + 1) 3
      let ignored : Prop := x.lossPending = true ∨ x.role = .lost ∨ ∃ p m, p < 4 ∧ m ∈ (s.plc p).moves ∧ m.field = f
      let report : Event :=
        { code := 0x0801, placement := placementByte x.placement, field := f, core := n,
          stages := if (s.core c).stage = 0x3FF then [] else [(s.core c).stage], detail := [(40, cond), (41, order)] ++ le4 44 (s.toRebuild [c]) }
      ∃ t, exec (.coreLost f n cond) s = .next t ∧ (t.core c).state = .failed ∧ (t.core c).failOrder = order ∧ (t.field f).failed = failed
        ∧ (known → (t.core c).mem = (s.core c).mem)
        ∧ (ignored → t = { s with fields := t.fields, cores := t.cores } ∧ only t ∧ ∀ k, k ≠ c → t.core k = s.core k)
        ∧ (¬ignored → ∃ (u v : State), v = u.event report
            ∧ (failed.length < 3 → t = v ∧ (t.field f).lossPending = false) ∧ (3 ≤ failed.length → x.role ≠ .service → lost t 0)
            ∧ (s.sessionsIn [c] = [] → (∀ a, a < 8 → (s.asp a).prefixes = []) →
                u = { s with fields := u.fields, cores := u.cores, placements := u.placements } ∧ only u ∧ (∀ k, k ≠ c → u.core k = s.core k)
                ∧ ∀ p, u.plc p = { s.plc p with tune := { (s.plc p).tune with hit := (u.plc p).tune.hit } }))
        ∧ (¬known → (∀ a ∈ (t.field f).absorb, a.tick = s.tick.count ∧ a.ordered = none)
          ∧ (failed.length < 3 ∨ ignored → (t.field f).absorb.map Absorb.core = x.absorb.map Absorb.core ++ [n])))
    ∧ (∀ st cause, ((s.stack st).st = .lost → exec (.stackLost st cause) s = .next s)
      ∧ ((s.stack st).st ≠ .lost → ∃ u : State, exec (.stackLost st cause) s = .next (u.event { code := 0x0807, detail := [(40, st), (41, cause)] })
          ∧ u.get Reg.Cloud.STACK_LOST = 1 ∧ (u.stack st).st = .lost ∧ (u.stack st).spares = []
          ∧ ((∀ n ∈ s.sessIds, (s.sess n).pauseRec = none ∧ (s.sess n).copyA = none ∧ (s.sess n).copyB = none) →
              u = { s with hbm := u.hbm, regs := u.regs, sessions := u.sessions } ∧ (∀ k, k ≠ st → u.stack k = s.stack k)
              ∧ u.stack st = { s.stack st with st := .lost, spares := [] } ∧ ∀ n, u.sess n = s.sess n)))
    ∧ (∀ bank page, bank < 2 → page < 1572864 →
      let next := (1572864 * bank + page + 1) % 3145728
      let b := x.bank bank
      let live : Prop := x.role = .active ∧ (∃ p, x.placement = some p ∧ (s.plc p).liveBank = bank) ∧ page < 1564672
      let quiet (t : State) : Prop := only t ∧ t = { s with fields := t.fields, regs := t.regs }
      let pointer (t : State) : Prop := t.get (Reg.Stratum.SCRUB_PAGE f) = next ∧ (t.field f).scrubPage = next
      (∃ t, exec (.stratumScrub f bank page 0) s = .next t ∧ quiet t ∧ pointer t ∧ t.field f = { x with scrubPage := next }
        ∧ ∀ a, a ≠ (Reg.Stratum.SCRUB_PAGE f).addr → t.reg a = s.reg a)
      ∧ (∃ t, exec (.stratumScrub f bank page 1) s = .next t ∧ quiet t ∧ pointer t
        ∧ (live → t.field f = { x with scrubPage := next } ∧ counted t (Reg.FGen.STRATUM_CORR f))
        ∧ (¬live → (t.field f).bank (1 - bank) = x.bank (1 - bank) ∧ (t.field f).bank bank = { b with
              err := b.err.filter fun e => !(e.2 = 1 && (slotsIn b.mem (4096 * page) (4096 * page + 4096)).contains e.1) }
          ∧ ∀ a, a ≠ (Reg.Stratum.SCRUB_PAGE f).addr → t.reg a = s.reg a))
      ∧ (∀ w, let slots := slotsIn b.mem (4096 * page + 32 * w) (4096 * page + 32 * w + 32); let base := bankPairBase b.mem
        (live → slots = [] → x.lossPending = false → ∃ t, exec (.stratumScrub f bank page (2 + w)) s = .next t ∧ pointer t ∧ lost t 1 ∧ only t
            ∧ t = { s with fields := t.fields, regs := t.regs, cores := t.cores, windows := t.windows } ∧ ∀ k, coreField k ≠ f → t.core k = s.core k)
        ∧ (∀ slot l, live → slots = slot :: l → ∃ t, exec (.stratumScrub f bank page (2 + w)) s = .next t ∧ quiet t ∧ pointer t
            ∧ ((t.field f).bank bank) = { b with err := b.err.set slot 2 }
            ∧ (∀ k, k ∈ (t.field f).unpatched ↔ k ∈ x.unpatched ∨ ((∀ e ∈ x.patches, e.tile ≠ k)
                ∧ (if slot < base then k = slot else k = base + 2 * (slot - base) ∨ k = base + 2 * (slot - base) + 1))))
        ∧ (¬live → b.st = .staged → ∃ t, exec (.stratumScrub f bank page (2 + w)) s = .next t ∧ only t ∧ pointer t
            ∧ t = { s with fields := t.fields, regs := t.regs, placements := t.placements }
            ∧ (t.field f).bank bank = { b with st := .incomplete }
            ∧ ∀ p, p < 4 → (s.plc p).stagedBank = bank → s.holdsPart p f = true → (s.plc p).imageState = .staged → (t.plc p).imageState = .incomplete)
        ∧ (∀ g, ¬live → b.st = .twin → x.twinOf = some g → page < 1564672 → ∃ t, exec (.stratumScrub f bank page (2 + w)) s = .next t ∧ quiet t ∧ pointer t
            ∧ ((t.field f).bank bank).mem = b.mem.writeBytes (4096 * page) ((s.liveBankOf g).mem.bytes (4096 * page) 4096))))
    ∧ (∀ tile, (s.twinComplete f = none ∨ tile ∉ x.unpatched ∨ 8 ≤ x.patches.length + x.nextPatches.length ∨ tilePlace (s.liveBankOf f).mem tile = none) →
        exec (.tilePatchComplete f tile) s = .next s)
    ∧ (∀ tile h slot half w, s.twinComplete f = some h → tilePlace (s.liveBankOf f).mem tile = some (slot, half, w) →
      x.patches.length + x.nextPatches.length < 8 → tile ∈ x.unpatched →
      ∃ t, exec (.tilePatchComplete f tile) s = .next t ∧ only t ∧ t = { s with fields := t.fields, regs := t.regs } ∧ counted t (Reg.Stratum.STRATUM_REPAIR f)
        ∧ (∀ a, a ≠ (Reg.Stratum.STRATUM_REPAIR f).addr → t.reg a = s.reg a)
        ∧ t.field f = { x with
            nextPatches := x.nextPatches ++ [⟨tile, slotBytes (s.standby h).mem slot⟩], unpatched := x.unpatched.filter (· ≠ tile) })
    ∧ ((x.twinOf = none ∨ (s.standby f).st ≠ .twinBuilding) → ∀ b, exec (.mirrorCopyComplete f b) s = .next s)
    ∧ exec (.mirrorCopyComplete f false) s = .next s
    ∧ (∀ g, x.twinOf = some g → (s.standby f).st = .twinBuilding → ∃ t, exec (.mirrorCopyComplete f true) s = .next t ∧ only t
        ∧ t = { s with fields := t.fields } ∧ (t.field f).bank (1 - s.standbyNo f) = x.bank (1 - s.standbyNo f)
        ∧ t.standby f = { s.standby f with
            st := .twin, mem := (s.liveBankOf g).mem.filter (fun e => decide (e.1 < 6408896512)), err := (s.liveBankOf g).err, leaves := (s.liveBankOf g).leaves })
    ∧ ((∀ p, p < 4 → ∀ m ∈ (s.plc p).moves, m.clearing ≠ f ∧ m.field ≠ f) → ∀ b, exec (.twinCopyComplete f b) s = .next s)
    ∧ (∀ p m, (List.range 4).find? (fun q => (s.plc q).moves.any fun m => m.clearing = f || m.field = f) = some p →
      (s.plc p).moves.find? (fun m => m.clearing = f || m.field = f) = some m →
      (m.holder = none ∨ m.fromImage = true ∨ m.activeAt ≠ none → ∀ b, exec (.twinCopyComplete f b) s = .next s)
      ∧ (∀ h, m.holder = some h → m.fromImage = false → m.activeAt = none → m.clearing < 88 → (s.plc p).liveBank < 2 →
        let others (t : State) : Prop := ∀ q, q ≠ p → t.plc q = s.plc q
        (∃ t, exec (.twinCopyComplete f true) s = .next t
          ∧ (t.plc p).moves = (s.plc p).moves.map (fun y => if y.field = m.field then { y with activeAt := some (s.tick.count + 1) } else y)
          ∧ (m.field, m.clearing) ∈ (t.plc p).moved ∧ ((t.field m.clearing).bank (s.plc p).liveBank).mem = (s.standby h).mem
          ∧ ((t.field m.clearing).bank (s.plc p).liveBank).leaves = (s.standby h).leaves ∧ ((t.field m.clearing).bank (s.plc p).liveBank).st = .empty
          ∧ t.sessions = s.sessions ∧ t.airspaces = s.airspaces ∧ others t ∧ ∀ k, coreField k ≠ m.clearing → t.core k = s.core k)
        ∧ (∃ (u : State) (i : Event), exec (.twinCopyComplete f false) s = .next (u.event i) ∧ i.code = 0x0302 ∧ i.placement = p ∧ i.field = m.field
          ∧ (u.plc p).moves = (s.plc p).moves.map (fun y => if y.field = m.field then { y with fromImage := true, holder := none } else y)
          ∧ m.field ∈ (u.plc p).rebuildAsked ∧ others u ∧ u = { s with placements := u.placements })))

/-- R245, R247-R251: a part of a request is kept until all parts are in, and a whole OPEN, CONTINUE, CANCEL, PAUSE or RESUME is received under a new
number with its receipt tick and remembered, the last 4,096 being so; while boundaries are not served a queue of 1,024 bounds what waits, and what is
beyond it is dropped and counted. A field out of range, a part that does not fit its request and tokens that do not cover the prompt exactly once are
answered BAD_PARAMETER and end the assembly, a 65th assembly BUSY, one that runs out of time TIMEOUT, counted; a remembered request is answered again
and counted, or not at all while no answer has been released. -/
def Obligations.RequestsAreReceivedOnce : Prop :=
  ∀ (s : State) (c : Client),
    let a := c.airspace
    let x := s.asp a
    let note (k : Client) : Remembered := { addr := k.addr, port := k.port, seq := k.seq, answer := none, at_ := s.tick.wall480 }
    let noted (k : Client) (l : List Remembered) : Prop :=
      let old := (s.asp k.airspace).answers.filter fun r => !(r.is k)
      ∃ kept, kept <:+ old ∧ kept.length = min old.length 4095 ∧ l = kept ++ [note k]
    let only (k : Client) (t : State) : Prop := ∀ b, b ≠ k.airspace → t.asp b = s.asp b
    let left (k : Client) (drop : Bool) : List OpenAssembly :=
      if drop then (s.asp k.airspace).assemblies.filter fun y => !(y.is k) else (s.asp k.airspace).assemblies
    let received (k : Client) (o : Host.Outcome State Fault Refusal) (r : Request) (drop : Bool) : Prop :=
      let full : Prop := s.queueing = true ∧ 1024 ≤ x.received.length
      (full → ∃ u : State, o = .next (u.bump (Reg.Eth.QUEUE_DROP a)) ∧ u = { s with airspaces := u.airspaces } ∧ only c u
        ∧ u.asp a = { x with assemblies := left k drop })
      ∧ (¬full → ∃ t, o = .next t ∧ t = { s with airspaces := t.airspaces, nextRequest := s.nextRequest + 1 } ∧ only c t ∧ noted k (t.asp a).answers
        ∧ t.asp a = { x with
            received := x.received ++ [{ r with id := s.nextRequest, receipt := s.tick.count }]
            answers := (t.asp a).answers
            assemblies := left k drop })
    let answered (k : Client) (u : State) (o : Host.Outcome State Fault Refusal) (st : Status) (drop : Bool) : Prop :=
      let b := k.airspace
      ∃ t, o = .next t ∧ t = { u with airspaces := t.airspaces, acks := s.acks ++ [{ client := k, status := st, handle := k.handle }] }
        ∧ only k t ∧ noted k (t.asp b).answers ∧ t.asp b = { s.asp b with answers := (t.asp b).answers, assemblies := left k drop }
    let base (kind : Nat) : Request := { id := 0, kind := kind, receipt := 0, client := c, part0 := none, tokens := [] }
    let parts (k : Client) (isContinue : Bool) (p : OpenPart) (o : Host.Outcome State Fault Refusal) : Prop :=
      let asm := x.assemblies.find? fun y => y.is c
      let had := (asm.map (·.parts)).getD []
      let bad : Prop := partOk p isContinue = false ∨ p.parts ≤ p.part ∨ ∃ q ∈ had, q.parts ≠ p.parts
      let now := if had.any (fun q => q.part = p.part) then had else had ++ [p]
      let first := now.find? fun q => q.part = 0
      let covers (z : OpenPart) (ts : List Nat) : Prop := coverTokens (now.length + 1) z.promptLen now [] = some ts
      let crowded : Prop := asm = none ∧ 1 < p.parts ∧ 64 ≤ x.assemblies.length
      (bad → answered k s o .badParameter true)
      ∧ (¬bad → crowded → answered k s o .busy false)
      ∧ (¬bad → ¬crowded → now.length < p.parts → ∃ t, o = .next t ∧ t = { s with airspaces := t.airspaces } ∧ only c t
        ∧ t.asp a = { x with assemblies := left c true ++ [⟨k, isContinue, now⟩] })
      ∧ (¬bad → ¬crowded → p.parts ≤ now.length →
        (∀ z ts, first = some z → covers z ts →
          received k o { base (if isContinue then 1 else 0) with client := k, part0 := some { z with tokens := [] }, tokens := ts } true)
        ∧ ((∀ z, first = some z → ∀ ts, ¬covers z ts) → answered k s o .badParameter true))
    (s.remembered c = none →
      (∀ p : OpenPart, parts { c with handle := 0 } false p (exec (.openMsg c p) s) ∧ parts c true p (exec (.continueMsg c p) s))
      ∧ (∀ n, received c (exec (.cancel c n) s) { base 3 with targetSeq := n } false)
      ∧ (∀ ttl, ttl ≤ 86400 → received c (exec (.pause c ttl) s) { base 4 with ttl := ttl } false)
      ∧ (∀ ttl, 86400 < ttl → answered c s (exec (.pause c ttl) s) .badParameter false)
      ∧ received c (exec (.resume c) s) (base 2) false)
    -- the tokens received are those of the parts, each at its index and no index left out
    ∧ (∀ n (ps : List OpenPart) T ts, coverTokens n T ps [] = some ts → ts.length = T
      ∧ ∀ q ∈ ps, ∀ i, i < q.tokens.length → ts[q.tokenFirst + i]? = q.tokens[i]?)
    ∧ (∀ (p : OpenPart), p.tokenFirst = 0 → coverTokens 2 p.tokens.length [p] [] = some p.tokens)
    -- a request with a remembered key
    ∧ (∀ r, s.remembered c = some r →
      let again (o : Host.Outcome State Fault Refusal) : Prop :=
        (r.answer = none → o = .next s)
        ∧ ∀ m, r.answer = some m → o = .next ((s.bump (Reg.Eth.DUPLICATES a)).sendAck m s.tick.count)
      again (exec (.resume c) s) ∧ (∀ n, again (exec (.cancel c n) s) ∧ again (exec (.pause c n) s))
      ∧ (∀ p, again (exec (.openMsg c p) s) ∧ again (exec (.continueMsg c p) s)) ∧ ∀ d m lo hi, again (exec (.retransmit c d m lo hi) s))
    -- 100 ms after the first part
    ∧ (let mine (y : OpenAssembly) : Prop := y.client.addr = c.addr ∧ y.client.port = c.port ∧ y.client.seq = c.seq
      (∀ y, x.assemblies.find? (fun y => y.client.addr = c.addr && y.client.port = c.port && y.client.seq = c.seq) = some y →
        answered y.client (s.bump (Reg.Eth.QUEUE_DROP a)) (exec (.openAssemblyTimeout a c.addr c.port c.seq) s) .timeout true)
      ∧ ((∀ y ∈ x.assemblies, ¬mine y) → exec (.openAssemblyTimeout a c.addr c.port c.seq) s = .next s))

/-- R31, R242-R246, R253, R254, R257, R258, R261, R262, R368: what leaves an airspace goes by its port, or by the lowest-numbered one whose link is up
where that is down; it is charged to the airspace's bucket and dropped and counted where that is short, or where the port's cap, if it is below the
link's rate, finds it in excess (how it does is the model's: log entry 124). A frame is counted, and dropped and counted, answered (by a frame as long
as its request: the model's, log entry 124), taken as a lease, filtered or carried out as its checks and its message's type say, a message that does
not fit its type being answered BAD_PARAMETER; a port that loses its lock is down, reported once, and up again as it comes; the end of a lease takes its address. A RETRANSMIT of batches is answered BAD_PARAMETER without a
destination or with more than 256, NOT_PERMITTED from another address; the batches kept leave again, each in its parts, and the answer is OK only if none is missing; history goes out in
order; no other cap than those drops any of it. -/
def Obligations.PortsAndRetransmissionsAct : Prop :=
  ∀ (s : State),
    (∀ a port cost o,
      let u := s.sendFrame a port cost o
      ((∀ n, ((s.ethPort port).linkUp = true ∧ n = port) ∨ ((s.ethPort port).linkUp = false ∧ n < 4 ∧ (s.ethPort n).linkUp = true
          ∧ ∀ m, m < n → (s.ethPort m).linkUp = false) →
        (((s.asp a).bucket < cost → u = s.bump (Reg.Eth.CAP_DROP a))
        ∧ (cost ≤ (s.asp a).bucket → ∃ v : State, v = { s with airspaces := v.airspaces } ∧ v.asp a = { s.asp a with bucket := (s.asp a).bucket - cost }
          ∧ (∀ b, b ≠ a → v.asp b = s.asp b)
          ∧ (400 ≤ (s.ethPort n).cap → u = (v.bump (Reg.Eth.TX_FRAMES n)).emit o)
          ∧ (u = (v.bump (Reg.Eth.TX_FRAMES n)).emit o ∨ u = v.bump (Reg.Eth.TX_CAP_DROP n)))))
      ∧ ((s.ethPort port).linkUp = false → (∀ n, n < 4 → (s.ethPort n).linkUp = false) → u = s)))
    ∧ (∀ f : Frame,
      let o := exec (.ethernetFrame f) s
      let s1 := s.bump (Reg.Eth.RX_FRAMES f.port)
      let bad : Prop := o = .next (s1.bump (Reg.Eth.BAD_FRAME f.port))
      let shut : Prop := (s.ethPort f.port).mtu < f.length ∨ f.fcsOk = false ∨ f.fragment = true ∨ f.extensionOrOptions = true
      let lease (a : Nat) : Prop := s.reaches f a = true ∧ f.dstPort = 546 ∧ (s.asp a).dhcp = true ∧ linkLocal f.port a = f.dstAddr
      let open_ : Prop := f.pause = false ∧ ¬shut ∧ f.echo = none ∧ f.udpChecksumOk = some true
      (f.pause = true → o = .next s1)
      ∧ (f.pause = false → shut → bad)
      ∧ (∀ code, f.pause = false → ¬shut → f.echo = some code →
        ((∀ a, a < 8 → s.reaches f a = true → s.owns f.port a f.dstAddr = false) → bad)
        ∧ (∀ a, a < 8 → s.reaches f a = true → s.owns f.port a f.dstAddr = true →
          (∀ b, b < a → s.reaches f b = true → s.owns f.port b f.dstAddr = false) →
          o = .next (s1.sendFrame a f.port (max 64 f.length) (.echoReply f.port code))))
      ∧ (f.pause = false → f.echo = none → f.udpChecksumOk ≠ some true → bad)
      -- a DHCPv6 message to an airspace that asks for an address
      ∧ (∀ a, open_ → a < 8 → lease a → (∀ b, b < a → ¬lease b) →
        let held (addr : Nat) : Prop := ∃ b, b < 8 ∧ b ≠ a ∧ ((∃ e ∈ (s.asp b).addresses, e.2.1 = addr) ∨ (s.asp b).lease = some addr)
        (dhcpAddress f.payload = none → o = .next s1)
        ∧ (∀ addr, dhcpAddress f.payload = some addr → (held addr → o = .next s1)
          ∧ (¬held addr → ∃ t, o = .next t ∧ t = { s1 with airspaces := t.airspaces } ∧ t.asp a = { s.asp a with lease := some addr }
            ∧ ∀ b, b ≠ a → t.asp b = s.asp b)))
      ∧ (open_ → (∀ b, b < 8 → ¬lease b) →
        let at_ := s.airspaceAt f.port f.dstAddr f.dstPort
        ((∀ a, at_ = some a → s.reaches f a = false) → bad)
        ∧ (∀ a, at_ = some a → s.reaches f a = true →
          let filters := (s.asp a).filters
          let b := f.payload
          let c : Client := ⟨a, f.srcAddr, f.srcPort, f.port, msgAt b 8 4, msgAt b 12 4, !isV4 f.srcAddr⟩
          let type := msgAt b 3 1
          let outside : Prop := filters ≠ [] ∧ ∀ p ∈ filters, inPrefix f.srcAddr p = false
          let header : Prop := 24 ≤ b.length ∧ msgAt b 0 2 = 0x5456 ∧ msgAt b 2 1 = 1 ∧ 1 ≤ type ∧ type ≤ 7 ∧ msgAt b 4 2 = b.length ∧ msgAt b 6 2 ≤ 1
          let named : Prop := type ≠ 1 ∧ type ≠ 7 ∧ (type = 6 → msgAt b 26 1 ≠ 0)
          let plain : Prop := msgAt b 16 8 = 0 ∧ (named ∨ c.handle = 0)
          -- the length does not fit the type, or a field is out of its range
          let misfit : Prop := (type ≤ 2 ∧ readOpenPart b = none) ∨ ((type = 3 ∨ type = 4) ∧ b.length ≠ 28) ∨ (type = 5 ∧ b.length ≠ 24)
            ∨ (type = 6 ∧ (b.length ≠ 36 ∨ msgAt b 27 1 ≠ 0))
            ∨ (type = 7 ∧ (msgAt b 26 2 ≠ 0 ∨ msgAt b 38 2 ≠ 0 ∨ b.length ≠ 40 + msgAt b 36 2))
          (outside → o = .next (s1.bump (Reg.Eth.FILTERED a)))
          ∧ (¬outside → ¬header → o = .next (s1.bump (Reg.Eth.BAD_MESSAGE f.port)))
          ∧ (¬outside → header → (¬plain ∨ misfit) →
            (∀ r, s1.remembered c = some r → o = .next (s1.duplicate c r))
            ∧ (s1.remembered c = none → o = .next ((s1.remember c).ackLater { client := c, status := .badParameter, handle := c.handle })))
          ∧ (¬outside → header → plain → ¬misfit →
            (∀ p, readOpenPart b = some p → (type = 1 → o = exec (.openMsg c p) s1) ∧ (type = 2 → o = exec (.continueMsg c p) s1))
            ∧ (type = 3 → o = exec (.cancel c (msgAt b 24 4)) s1)
            ∧ (type = 4 → o = exec (.pause c (msgAt b 24 4)) s1)
            ∧ (type = 5 → o = exec (.resume c) s1)
            ∧ (type = 6 → o = exec (.retransmit c (msgAt b 24 2) (msgAt b 26 1) (msgAt b 28 4) (msgAt b 32 4)) s1)
            ∧ (type = 7 → o = exec (.imageChunk ⟨a, f.srcAddr, msgAt b 24 2, msgAt b 28 4, msgAt b 32 4, b.drop 40⟩) s1)))))
    ∧ (∀ n, (s.ethPort n).linkUp = false → exec (.ethLinkDown n) s = .next s)
    ∧ (∀ n, let change (t : State) (v : Bool) : Prop := t = { s with eth := t.eth, regs := t.regs }
          ∧ t.ethPort n = { s.ethPort n with linkUp := v, fecLock := v } ∧ (∀ m, m ≠ n → t.ethPort m = s.ethPort m)
          ∧ t.get (Reg.Eth.LINK_UP n) = v.toNat ∧ t.get (Reg.Eth.FEC_LOCK n) = v.toNat ∧ ∀ k, k ≠ (Reg.Eth.LINK_UP n).addr → t.reg k = s.reg k
        ((s.ethPort n).linkUp = true → ∃ u, exec (.ethLinkDown n) s = .next (u.event { code := 0x070B, detail := [(40, n)] }) ∧ change u false)
        ∧ ∃ t, exec (.ethLinkUp n) s = .next t ∧ change t true)
    ∧ (∀ a, ∃ t, exec (.dhcpv6LeaseEnd a) s = .next t ∧ t = { s with airspaces := t.airspaces } ∧ t.asp a = { s.asp a with lease := none }
        ∧ ∀ b, b ≠ a → t.asp b = s.asp b)
    ∧ (∀ (c : Client), s.remembered c = none →
      let a := c.airspace
      let x := s.asp a
      let tagged : Bool := x.vlan ≠ 0
      let answer (st : Status) : AckMsg := { client := c, status := st, handle := c.handle }
      -- what is due leaves in order, and all of it where the links and the bucket let it; a cost beside each datagram
      let ends (dest mode lo hi : Nat) (l : List (Nat × Nat × Out)) (st : Status) : Prop :=
        let due := l ++ [(c.eth, frameBytes 88 (isV4 c.addr) tagged, .ack (answer st) s.tick.count)]
        ∃ t l', exec (.retransmit c dest mode lo hi) s = .next t ∧ t = { s with airspaces := t.airspaces, regs := t.regs, out := s.out ++ l' }
          ∧ l'.Sublist (due.map fun e => e.2.2)
          ∧ ((∃ n, n < 4 ∧ (s.ethPort n).linkUp = true) → (∀ n, 400 ≤ (s.ethPort n).cap) → (due.map fun e => e.2.1).sum ≤ x.bucket →
            l' = due.map (fun e => e.2.2) ∧ (t.asp a).bucket = x.bucket - (due.map fun e => e.2.1).sum)
          ∧ (t.asp a).answers.getLast? = some { addr := c.addr, port := c.port, seq := c.seq, answer := some (answer st), at_ := s.tick.wall480 }
          ∧ (∀ b, b ≠ a → t.asp b = s.asp b)
          ∧ t.asp a = { x with bucket := (t.asp a).bucket, answers := (t.asp a).answers }
      -- a batch leaves in the parts that its port's MTU allows
      let cut (e : Dest) (b : Batch) : List Out :=
        let l := pieces (s.partRoom e.eth 16 (isV4 e.addr)) (b.records.length + 1) b.records
        (List.range l.length).map fun i => .stepBatch a { b with records := l.getD i [], part := i, parts := l.length } true
      let cost (e : Dest) : Out → Nat
        | .stepBatch _ b _ => frameBytes (32 + 16 * b.records.length) (isV4 e.addr) tagged
        | _ => 0
      let tooLong (lo hi : Nat) : Prop := lo = 0 ∨ hi = 0 ∨ 256 ≤ seqAfter lo hi
      (∀ dest lo hi, x.dests.find dest = none → ends dest 0 lo hi [] .badParameter)
      ∧ (∀ dest e lo hi, x.dests.find dest = some e →
        (tooLong lo hi → ends dest 0 lo hi [] .badParameter)
        ∧ (¬tooLong lo hi → e.addr ≠ c.addr → ends dest 0 lo hi [] .notPermitted)
        ∧ (¬tooLong lo hi → e.addr = c.addr →
          let kept := x.batches.filter fun b => b.dest = dest && inSeq lo hi b.seq && decide (s.tick.count ≤ b.tick + 4096)
          ends dest 0 lo hi ((kept.flatMap (cut e)).map fun o => (e.eth, cost e o, o))
            (if kept.length = seqAfter lo hi + 1 then .ok else .noResource)))
      ∧ (∀ dest mode lo hi, 2 ≤ mode → ends dest mode lo hi [] .badParameter)
      ∧ (∀ dest lo hi, s.start.power ≠ .active → s.start.power ≠ .lull → exec (.retransmit c dest 1 lo hi) s = .next s)
      ∧ (∀ dest lo hi, (s.start.power = .active ∨ s.start.power = .lull) →
        (s.namedBy a c.handle = none → ends dest 1 lo hi [] .badParameter)
        ∧ (∀ n, s.namedBy a c.handle = some n →
          let h := (s.sess n).history
          ((hi < lo ∨ h.length ≤ hi ∨ 65536 ≤ hi - lo) → ends dest 1 lo hi [] .badParameter)
          ∧ (lo ≤ hi → hi < h.length → hi - lo < 65536 →
            let room := s.partRoom c.eth 3 (isV4 c.addr)
            let toks := (h.drop lo).take (hi - lo + 1)
            let l := pieces room (toks.length + 1) toks
            ends dest 1 lo hi ((List.range l.length).map fun i =>
              let ts := l.getD i []
              (c.eth, frameBytes (32 + 3 * ts.length) (isV4 c.addr) tagged, .history c c.handle (lo + room * i) ts)) .ok))))

/-- R310, R311, R320, R322: the fields of a link plan, a star chart, link limits and a PORT_RESET are judged in order. A plan or a chart is stored for
the next reset and changes nothing in force; limits are set. PORT_RESET clears a port's counters and takes a planned one down to train again, the
last ACTIVE port of its group in the expert form only, and takes an Ethernet port down with its cap at 400. The host's ROUTE_TABLE waits for the
first boundary at or after apply_tick, where its entries come into force. Nothing else changes. -/
def Obligations.LinkSettingsComplete : Prop :=
  ∀ (s : State) (h : CmdHdr), h.src = .host →
    (∀ plan : LinkPlan,
      let o := exec (.setLinkPlan h plan) s
      let group (i : Nat) : LinkGroup := plan.groups.getD i ⟨0, 0, false⟩
      InOrder o s h 0x0701 ([(32, 1 ≤ plan.modules ∧ plan.modules ≤ 64), (33, plan.master ≤ 63), (34, plan.mode ≤ 1),
          (34, 9 ≤ plan.modules → plan.mode = 1), (32, 9 ≤ plan.modules → s.links.storedChart ≠ []), (36, plan.groups.length ≤ 6)]
        ++ (List.range plan.groups.length).flatMap fun i =>
          [(38 + 4 * i, 1 ≤ (group i).ports ∧ (group i).ports < 4096 ∧ ∀ j, j < i → (group j).ports &&& (group i).ports = 0),
           (40 + 4 * i, (group i).neighbour ≤ 63)])
        (Gives o { s with links := { s.links with storedPlan := plan, storedMaster := none } } .host (finalOf h 0x0701 .ok)))
    ∧ (∀ chart : List (Nat × Nat),
      let o := exec (.setStarChart h chart) s
      let entry (i : Nat) : Nat × Nat := chart.getD i (0xFF, 0xFF)
      let stored := (List.range 12).map fun i => if (entry i).1 = 0xFF then (0xFF, 0xFF) else entry i
      InOrder o s h 0x0702 ((List.range 12).flatMap fun i =>
          [(32 + 2 * i, (entry i).1 = 0xFF ∨ (entry i).1 ≤ 63), (33 + 2 * i, (entry i).1 = 0xFF ∨ (entry i).2 ≤ 11)])
        (Gives o { s with links := { s.links with storedChart := if stored = List.replicate 12 (0xFF, 0xFF) then [] else stored } } .host
          (finalOf h 0x0702 .ok)))
    ∧ (∀ limit errors,
      let o := exec (.setLinkLimits h limit errors) s
      InOrder o s h 0x0705 [(32, Setting 8 limit 1 120), (34, Expert h (Setting 16 errors 1 1024))]
        (Gives o { s with links := { s.links with
            soundLimit := picked 8 limit s.links.soundLimit
            errThreshold := if h.expert then picked 16 errors s.links.errThreshold else s.links.errThreshold } } .host (finalOf h 0x0705 .ok)))
    ∧ (∀ n,
      let o := exec (.portReset h n) s
      let last : Prop := (s.port n).st = .active ∧ ∃ g, s.groupOf n = some g
        ∧ ∀ m, m < 12 → m ≠ n → s.groupOf m = some g → (s.port m).st ≠ .active
      InOrder o s h 0x0703 [(32, n < 12 ∨ (16 ≤ n ∧ n < 20))]
        ((n < 12 → last → h.expert = false → Refuses o s h 0x0703 .inService)
        ∧ (n < 12 → ¬(last ∧ h.expert = false) → ∃ u, Gives o u .host (finalOf h 0x0703 .ok)
          ∧ (∀ f ∈ [Reg.Link.FEC_CORR n, Reg.Link.FEC_UNCORR n, Reg.Link.CRC_ERR n, Reg.Link.REPLAYS n, Reg.Link.JET_LOST n,
              Reg.Link.LINK_FILTER n], u.get f = 0)
          ∧ (s.planned n = true → PortFallen s u n) ∧ (s.planned n = false → u = { s with regs := u.regs }))
        ∧ (∀ k, k < 4 → n = 16 + k → ∃ u, Gives o u .host (finalOf h 0x0703 .ok)
          ∧ u = { s with eth := u.eth, regs := u.regs, host := u.host, out := u.out }
          ∧ u.ethPort k = { s.ethPort k with
              cap := 400, linkUp := false, fecLock := (s.ethPort k).fecLock && !(s.ethPort k).linkUp }
          ∧ (∀ f ∈ [Reg.Eth.RX_FRAMES k, Reg.Eth.TX_FRAMES k, Reg.Eth.BAD_FRAME k, Reg.Eth.BAD_MESSAGE k, Reg.Eth.TX_CAP_DROP k,
              Reg.Eth.FEC_UNCORR k], u.get f = 0)
          ∧ ((s.ethPort k).linkUp = true → u.get (Reg.Eth.LINK_UP k) = 0 ∧ u.get (Reg.Eth.FEC_LOCK k) = 0 ∧ Reported s u 0x070B)
          ∧ ∀ m, m ≠ k → u.ethPort m = s.ethPort m)))
    ∧ (∀ at_ (l : List Nat),
      let o := exec (.routeTable h at_ l) s
      InOrder o s h 0x0704 ((List.range 64).map fun i => (40 + i, l.getD i 7 < 16 ∧ l.getD i 7 % 8 ≠ 6))
        (Gives o { s with
          links := { s.links with hostRoute := true }
          host := { s.host with deferred := s.host.deferred ++ [⟨.routeTable h at_ l, max at_ (s.tick.count + 1), !s.tick.running⟩] } } .host
          (if s.tick.running then finalOf h 0x0704 .ok else pendingOf h 0x0704))
      ∧ (let t := s.takeEffect ⟨.routeTable h at_ l, max at_ (s.tick.count + 1), false⟩
        t = { s with links := { s.links with routes := t.links.routes, routesFromOrder := true }, regs := t.regs }
        ∧ ∀ m, m < 64 →
          t.links.routes.getD m (7, false) = (if l.getD m 7 = 7 then (7, false) else (l.getD m 7 % 8, decide (8 ≤ l.getD m 7)))
          ∧ t.get (Reg.Link.GROUP_2 m) = l.getD m 7 % 8 ∧ (l.getD m 7 < 16 → t.get (Reg.Link.VALID m) = l.getD m 7 / 8)))

/-- R303, R304, R319, R320, R321: a port that trains waits for the check of its peer, a failed training is counted and tried again, every 10 s after
three failures, and a port that loses lock is reported, goes down and trains from the start. A follower whose beacon port goes down takes the next
eligible one, and without one enters holdover at the level in force. A port in another state, OFF among them, takes no notice. -/
def Obligations.PortsTrainAndFall : Prop :=
  ∀ (s : State) (n : Nat),
    let keeps (t : State) : Prop := LinksMoved s t ∧ (∀ m, m ≠ n → t.port m = s.port m) ∧ t.links = { s.links with
      ports := t.links.ports, timingFails := t.links.timingFails }
    let trains : Prop := (s.port n).st = .down ∨ (s.port n).st = .training
    (∀ delay lanes,
      (trains → ∃ t, exec (.portTrained n delay lanes) s = .next t ∧ keeps t ∧ t.port n = { s.port n with
        st := .verifying, trainFails := 0, delayNs := delay, lanes := lanes, seen := false, heldCause := 0 })
      ∧ (¬trains → exec (.portTrained n delay lanes) s = .next s))
    ∧ (trains → ∃ t, exec (.portTrainingTimeout n) s = .next t ∧ keeps t ∧ t = { s with links := t.links, regs := t.regs }
      ∧ t.port n = { s.port n with
          trainFails := (s.port n).trainFails + 1, st := if (s.port n).trainFails + 1 < 3 then .training else .down })
    ∧ (¬trains → exec (.portTrainingTimeout n) s = .next s)
    ∧ ((s.port n).st ≠ .off → (s.port n).st ≠ .down → ∃ t, exec (.portDown n) s = .next t ∧ PortFallen s t n ∧ Reported s t 0x0703)
    ∧ ((s.port n).st = .off ∨ (s.port n).st = .down → exec (.portDown n) s = .next s)

/-- R304, R306, R312, R313, R321: each port that is ACTIVE, VERIFYING or HELD sends SOUND with the module's identity and up to ten adjacency entries, in
turn. The peer that a SOUND shows is recorded. A VERIFYING port that sees another plan is HELD with cause 4, its own module ID with cause 3. In
sounding mode the module its group must see makes it ACTIVE and another is cause 5; in star-chart mode the chart's peer makes it ACTIVE, two swapped
ports of one equivalent group both go ACTIVE and other swapped ports are both HELD with cause 2, and any other peer is cause 1. An ACTIVE port's
adjacency entries join the graph. Sounding ends once every planned port is ACTIVE or HELD, or at its time limit, where what has been seen is judged and
the rest is reported absent. Only link state moves. -/
def Obligations.SoundingChecksThePeer : Prop :=
  ∀ (s : State),
    let speaks (n : Nat) : Prop := (s.port n).st = .active ∨ (s.port n).st = .verifying ∨ (s.port n).st = .held
    let all := s.ownEdges ++ s.links.graph.filter fun e => !s.ownEdges.contains e
    let from_ := if all.length ≤ s.links.floodAt then 0 else s.links.floodAt
    let speakers := (List.range 12).filter fun n => (s.port n).st == .active || (s.port n).st == .verifying || (s.port n).st == .held
    let sound (n : Nat) : SoundMsg :=
      { moduleId := s.start.moduleId, port := n, group := (s.groupOf n).getD 0xFF, starMode := s.links.plan.mode == 1
        holdover := s.links.holdover, planHash := planHash s.links.plan, adjacency := (all.drop from_).take 10 }
    exec .soundTimer s = .next { s with
      links := { s.links with floodAt := from_ + 10 }, out := s.out ++ speakers.map fun n => .obtikSound n (sound n) }
    ∧ (∀ (n : Nat) (m : SoundMsg), ¬speaks n → exec (.sound n m) s = .next s)
    ∧ (∀ (n : Nat) (m : SoundMsg), speaks n → ∃ t, exec (.sound n m) s = .next t ∧ LinksMoved s t
      ∧ (t.port n).peerModule = m.moduleId ∧ (t.port n).peerPort = m.port ∧ (t.port n).seen = true ∧ t.links.plan = s.links.plan
      ∧ ((s.port n).st ≠ .verifying →
        t.port n = { s.port n with peerModule := m.moduleId, peerPort := m.port, seen := true } ∧ ∀ k, k ≠ n → t.port k = s.port k)
      ∧ ((t.port n).st ≠ .active → t.links.graph = s.links.graph)
      ∧ ((t.port n).st = .active → t.links.graph = s.links.graph
        ++ m.adjacency.filter fun e => !s.links.graph.contains e && decide (e.1 < 64) && decide (e.2 < 64))
      ∧ (t.links.soundingDone = true ↔ s.links.soundingDone = true ∨ ∀ k, k < 12 → t.planned k = true →
        (t.port k).st = .active ∨ (t.port k).st = .held)
      -- the check of a VERIFYING port
      ∧ (let held (k c : Nat) : Prop := (t.port k).st = .held ∧ (t.port k).heldCause = c
        let active (k : Nat) : Prop := (t.port k).st = .active ∧ (t.port k).heldCause = 0 ∧ t.links.newEntry = true
        (s.port n).st = .verifying →
        (m.planHash ≠ planHash s.links.plan → held n 4 ∧ t.get Reg.Link.PLAN_MISMATCH = 1 ∧ Reported s t 0x0708)
        ∧ (m.planHash = planHash s.links.plan → m.moduleId = s.start.moduleId →
          held n 3 ∧ t.get Reg.Link.DUPLICATE_ID = 1 ∧ Reported s t 0x0707)
        ∧ (m.planHash = planHash s.links.plan → m.moduleId ≠ s.start.moduleId → s.planned n = true → s.links.plan.mode = 0 →
          ∀ g, s.groupOf n = some g →
            let named := (s.links.plan.groups.getD g ⟨0, 0x3F, false⟩).neighbour
            let sees (x : Nat) : Prop := if m.moduleId = x then active n else held n 5
            (named ≠ 0x3F → sees named)
            ∧ (named = 0x3F → ∀ k, k < 12 → s.groupOf k = some g → speaks k → (∀ q, q < k → s.groupOf q = some g → ¬speaks q) →
              (k = n → active n) ∧ (k ≠ n → (s.port k).seen = true → sees (s.port k).peerModule)
              ∧ (k ≠ n → (s.port k).seen = false → (t.port n).st = .verifying)))
        ∧ (m.planHash = planHash s.links.plan → m.moduleId ≠ s.start.moduleId → s.planned n = true → s.links.plan.mode ≠ 0 →
          let expects (q : Nat) : Nat × Nat := s.links.chart.getD q (0xFF, 0xFF)
          let peer : Nat × Nat := (m.moduleId, m.port)
          (peer = expects n → active n)
          ∧ (peer ≠ expects n → (∀ q, q < 12 → q ≠ n → expects q ≠ peer) → held n 1 ∧ t.get Reg.Link.CABLE_MISMATCH = 1 ∧ Reported s t 0x0704)
          ∧ (peer ≠ expects n → ∀ q, q < 12 → q ≠ n → expects q = peer → (∀ k, k < 12 → k ≠ q → expects k ≠ peer) →
            (∀ k, k < 12 → k ≠ n → expects k ≠ expects n) →
            let swapped : Prop := (s.port q).seen = true ∧ (s.port q).st = .verifying ∧ ((s.port q).peerModule, (s.port q).peerPort) = expects n
            let equivalent : Prop := ∃ g, s.groupOf n = some g ∧ s.groupOf q = some g ∧ (s.links.plan.groups.getD g ⟨0, 0, false⟩).equiv = true
            (swapped → equivalent → active n ∧ active q ∧ t.get Reg.Link.SWAP_ACCEPTED = 1 ∧ Reported s t 0x0706)
            ∧ (swapped → ¬equivalent → held n 2 ∧ held q 2 ∧ t.get Reg.Link.SWAPPED = 1 ∧ Reported s t 0x0705)
            ∧ (¬swapped → (s.port q).seen = true ∨ s.planned q = false → held n 1 ∧ t.get Reg.Link.CABLE_MISMATCH = 1)
            ∧ ((s.port q).seen = false → s.planned q = true → (t.port n).st = .verifying)))))
    ∧ (s.links.soundingDone = true → exec .soundingTimeLimit s = .next s)
    ∧ (s.links.soundingDone = false → ∃ t, exec .soundingTimeLimit s = .next t ∧ t.links.soundingDone = true ∧ LinksMoved s t
      ∧ ∀ n, s.planned n = true →
        ((s.port n).st = .verifying → (s.port n).seen = true → (t.port n).st = .active ∨ (t.port n).st = .held)
        ∧ ((s.port n).st ≠ .verifying ∨ (s.port n).seen = false → (t.port n).st = (s.port n).st)
        ∧ ((t.port n).st ≠ .active → (t.port n).st ≠ .held → t.get Reg.Link.PORT_ABSENT = 1 ∧ Reported s t 0x0709))

/-- R314, R316, R317, R319: once the flood is quiet the routes are computed, in force at the next boundary while ticks run and at once while none do,
and the tick master is the plan's, or the lowest module ID reached; after sounding the master orders its table on the modules it reaches. A frame takes
the port of its entry's group that its endpoints and its module choose. A follower whose beacon port falls silent takes another eligible port, and
enters holdover at the level in force where there is none. Only link state and the tick's demand move.
R315, R397, R400: an order of a peer waits for the control slot, whatever it holds; any other order code is counted, answered NOT_PERMITTED, and
changes nothing else; an answer to an order sent changes nothing. In the slot a TICK_MASTER is stored for the next reset, a TICK_DEMAND replaces what
its module asked for before, and of several route tables the lowest module's is taken, the host's before any; a module may lose its orders to a reset.
Each order is answered, and none stays. -/
def Obligations.LinkGraphRoutesAndPeerOrdersAct : Prop :=
  (∀ (s : State),
     (s.links.plan.groups ≠ [] → ∃ t, exec .floodQuiet s = .next t ∧ t.links.newEntry = false
       ∧ (s.tick.running = false → t.links.routes = s.computeRoutes ∧ t.links.routesFromOrder = false)
       ∧ (s.tick.running = true → t.links.routes = s.links.routes
         ∧ t.links.nextRoutes = s.links.nextRoutes ++ [(s.tick.count + 1, false, s.computeRoutes)])
       ∧ (s.links.plan.master ≠ 0x3F → t.links.master = s.links.plan.master)
       ∧ (s.links.plan.master = 0x3F → t.links.master = (s.computeRoutes.map Prod.fst).foldl min s.start.moduleId)
       ∧ t.links.follower = (t.links.master != s.start.moduleId) ∧ LinksMoved s t
       ∧ (s.links.soundingDone = false ∨ s.links.newEntry = false ∨ t.links.follower = true →
         t = { s with links := t.links, regs := t.regs } ∧ t.links.ports = s.links.ports)
       ∧ (s.links.soundingDone = true → s.links.newEntry = true → t.links.follower = false → ∃ y : State,
         y = { s with links := { y.links with ports := s.links.ports } } ∧ t = { (s.computeRoutes.foldl (fun u e =>
           u.sendOrder e.1 2 (s.tick.count + 1024) ((tableBytes s.computeRoutes).map (BitVec.ofNat 8))) y) with regs := t.regs }))
     ∧ (s.links.plan.groups = [] → exec .floodQuiet s = .next s)
     -- the port choice
     ∧ (∀ x : LinkHdr,
       let e := s.links.routes.getD x.destModule (7, false)
       let ports := (List.range 12).filter fun n => s.groupOf n == some e.1 && if s.tick.running then s.links.choice.contains n else s.isActive n
       (e.2 = false ∨ 5 < e.1 ∨ ports = [] → s.choosePort x = none)
       ∧ (e.2 = true → e.1 ≤ 5 → ports ≠ [] → s.choosePort x = ports[(x.src ^^^ x.dest ^^^ x.destModule) % ports.length]?))
     ∧ (s.following = false → exec .masterBeaconTimeout s = .next s)
     ∧ (s.following = true → ∃ t, exec .masterBeaconTimeout s = .next t
       ∧ (∀ n, s.links.beaconPort = some n →
         BeaconLost s t n ∧ t.port n = { s.port n with peerHops := 15 } ∧ ∀ m, m ≠ n → t.port m = s.port m)
       ∧ (s.links.beaconPort = none → InHoldover s t ∧ t.links.ports = s.links.ports)))
  ∧ (∀ (s : State) (m k : Nat),
       (∀ x, exec (.tickMaster m x) s = .next { s with links := { s.links with orders := s.links.orders ++ [.tickMaster m x] } })
       ∧ (∀ l u f, exec (.tickDemand m l u f) s = .next { s with links := { s.links with orders := s.links.orders ++ [.tickDemand m l u f] } })
       ∧ (∀ at_ e, exec (.peerRouteTable m at_ e) s = .next { s with links := { s.links with orders := s.links.orders ++ [.routeTable m at_ e] } })
       ∧ (∀ c st, exec (.orderReply k c st) s = .next s)
       ∧ (∀ c, ∃ t y : State, exec (.ordersRefused m k c) s = .next t ∧ y = { s with regs := y.regs }
           ∧ y.get Reg.Link.ORDERS_REFUSED = min (s.get Reg.Link.ORDERS_REFUSED + 1) (2 ^ 32 - 1)
           ∧ (∀ a, a ≠ Reg.Link.ORDERS_REFUSED.addr → y.reg a = s.reg a) ∧ t = y.sendOrderReply m c .notPermitted)
       ∧ (let quiet (t : State) : Prop := t.links.orders = [] ∧ t.links.hostRoute = false
           ∧ t = { s with links := t.links, out := t.out } ∧ t.links.ports = s.links.ports ∧ s.out <+: t.out
         quiet (s.applyPeers false) ∧ quiet (s.applyPeers true)
         ∧ (s.applyPeers true).links = { s.links with orders := [], hostRoute := false }
         ∧ ∀ o, s.links.orders = [o] →
           let clear := s.updLinks fun l => { l with orders := [], hostRoute := false }
           let set (g : LinksSt → LinksSt) (c : Nat) (st : Status) : State := (clear.updLinks g).sendOrderReply m c st
           (∀ x, o = .tickMaster m x → s.applyPeers false
             = if x ≤ 63 then set (fun l => { l with storedMaster := some x }) 1 .ok else set id 1 .badParameter)
           ∧ (∀ l u f, o = .tickDemand m l u f → s.applyPeers false
             = set (fun x => { x with demands := (x.demands.filter fun d => d.1 != m) ++ [(m, l, u, f)] }) 3 .ok)
           ∧ (∀ at_ e, m < 64 → o = .routeTable m at_ e → s.applyPeers false =
             if s.links.hostRoute then set id 2 .superseded
             else if ∀ b ∈ e, b < 16 ∧ b % 8 ≠ 6 then
               set (fun l => { l with nextRoutes := l.nextRoutes ++ [(max at_ (s.tick.count + 1), true, tableOf e)] }) 2 .ok
             else set id 2 .badParameter))
       ∧ (∀ a b at_ bt e d, a < b → b < 64 → s.links.hostRoute = false → (∀ i ∈ e, i < 16 ∧ i % 8 ≠ 6) →
         (s.links.orders = [.routeTable a at_ e, .routeTable b bt d] ∨ s.links.orders = [.routeTable b bt d, .routeTable a at_ e]) →
         (s.applyPeers false).links.nextRoutes = s.links.nextRoutes ++ [(max at_ (s.tick.count + 1), true, tableOf e)]))

/-- R304-R308, R314, R317-R319: a frame at a port that has not trained is not taken, one with a bad CRC or a reserved value is discarded and counted, and
until the check has passed only SOUND and ACK are taken. A Gust or Cloud frame out of order is acknowledged again and discarded, one in order moves
the receive sequence and goes its way; an uncorrectable word discards a Gust or a one-word frame, sets DROP on Jetstream, and makes a Cloud frame a
STATUS ERROR. An acknowledgement empties the replay buffer up to its SEQ and gives credits. A beacon gives the peer's hops and, on a follower's beacon
port, the level, the count and the Lull relayed. An expired replay timer sends the buffer again; the eighth time takes the port down. -/
def Obligations.ObtikFramesFollowTheChannels : Prop :=
  ∀ (s : State) (n : Nat) (f : ObtikFrame),
    let x := LinkHdr.decode f.header
    let p := s.port n
    let words := (checkFlits f.words).1
    let bad := (checkFlits f.words).2.2
    let data := f.words.flatMap fun w => (flitRead w).1
    let u (o k : Nat) : Nat := leNat ((data.drop o).take k)
    let alone (t : State) : Prop := ∀ k, k ≠ n → t.port k = s.port k
    let checking : Prop := p.st = .verifying ∨ p.st = .held
    (∀ i ∈ [Instr.obtikDataFrame n f, .obtikAckFrame n f, .obtikBeaconFrame n f],
      (p.st ≠ .active → ¬checking → exec i s = .next s)
      ∧ (p.st = .active ∨ checking → frameBad f = true → exec i s = .next (s.bump (Reg.Link.CRC_ERR n)))
      ∧ (frameBad f = false → x.type = 1 ∨ x.type = 2 ∨ x.type = 4 → 0 < bad → exec i s = .next s)
      ∧ (frameBad f = false → checking → x.type ≠ 1 → x.type ≠ 4 → exec i s = .next s)
      ∧ (frameBad f = false → p.st = .active ∨ checking → x.type = 4 → bad = 0 → exec i s = exec (.sound n
          { moduleId := u 0 1, port := u 1 1, group := u 2 1, starMode := u 3 1 % 2 == 1, holdover := u 3 1 / 2 % 2 == 1, planHash := u 4 8
            adjacency := (List.range 10).map fun i => (u (12 + 2 * i) 1, u (13 + 2 * i) 1) }) s)
      -- DATA, orders and their answers
      ∧ (frameBad f = false → p.st = .active → x.type = 5 → ∃ t, exec i s = .next t ∧ FrameCarried s t n x words)
      ∧ (frameBad f = false → p.st = .active → x.type = 0 ∨ x.type = 3 →
        let c := p.chan x.vc
        let inOrder : Prop := x.seq = (c.rxSeq + 1) % 65536
        let taken (y : State) : Prop := ∃ z : State,
          z = { s with links := { s.links with ports := z.links.ports } } ∧ z.port n = p.setChan x.vc { c with rxSeq := x.seq } ∧ alone z ∧ AckSent z y n
        (x.vc = 1 → s.links.holdover = true → exec i s = .next s)
        ∧ (x.vc = 1 → s.links.holdover = false → ∃ t, exec i s = .next t ∧ FrameCarried s t n { x with drop := x.drop || decide (0 < bad) } words)
        ∧ (x.vc ≠ 1 → ¬inOrder → ∃ t, exec i s = .next t ∧ AckSent s t n)
        ∧ (x.vc = 0 → inOrder → 0 < bad → exec i s = .next s)
        ∧ (x.vc ≠ 1 → inOrder → bad = 0 → ∃ y t, taken y ∧ exec i s = .next t ∧ FrameCarried y t n x words)
        ∧ (x.vc = 2 → inOrder → 0 < bad → x.kind ≠ 2 → ∃ y t, taken y ∧ exec i s = .next t ∧ StatusSent y t x 3)
        ∧ (x.vc = 2 → inOrder → 0 < bad → x.kind = 2 →
          let e := linkFrame { x with kind := 3, addr := 0 } (leBytes 2 3 ++ leBytes 2 (x.len + 1) ++ leBytes 4 x.addr ++ List.replicate 24 0)
          ∃ y t, taken y ∧ exec i s = .next t ∧ FrameCarried y t n (LinkHdr.decode e.header) e.words))
      -- acknowledgements: what is covered leaves, then what waits is sent as credits and room allow
      ∧ (frameBad f = false → p.st = .active ∨ checking → x.type = 1 → bad = 0 → ∃ t, exec i s = .next t
        ∧ t = { s with links := { s.links with ports := t.links.ports }, out := t.out } ∧ alone t
        ∧ (let left (c : LinkChan) (seq : Nat) : List ObtikFrame := match c.replay.findIdx? fun g => (LinkHdr.decode g.header).seq == seq with
            | some k => c.replay.drop (k + 1)
            | none => c.replay
          let goes (c : LinkChan) (seq credit : Nat) : Nat := if p.st = .active then min 256 credit - (left c seq).length else 0
          let sent (c : LinkChan) (seq credit : Nat) : List ObtikFrame :=
            (c.waiting.take (goes c seq credit)).mapIdx fun k g => withSeq g ((c.txSeq + 1 + k) % 65536)
          let after (c : LinkChan) (seq credit : Nat) : LinkChan := { c with
            credit := credit, replay := left c seq ++ sent c seq credit, waiting := c.waiting.drop (goes c seq credit)
            resends := if (left c seq).length < c.replay.length then 0 else c.resends
            txSeq := if sent c seq credit = [] then c.txSeq else (c.txSeq + (sent c seq credit).length) % 65536 }
          t.port n = { p with gust := after p.gust (u 0 2) (u 4 2), cloud := after p.cloud (u 2 2) (u 6 2) }
          ∧ t.out = s.out ++ (sent p.gust (u 0 2) (u 4 2) ++ sent p.cloud (u 2 2) (u 6 2)).map (Out.obtik n)))
      -- beacons
      ∧ (frameBad f = false → p.st = .active → x.type = 2 → bad = 0 → ∃ t, exec i s = .next t
        ∧ (beaconGood (BitVec.ofNat 32 (u 0 4)) = false → t = { s with regs := t.regs })
        ∧ (beaconGood (BitVec.ofNat 32 (u 0 4)) = true → t.port n = { p with peerHops := u 13 1 } ∧ alone t
          ∧ (s.following = false → t = { s with links := { s.links with ports := t.links.ports }, regs := t.regs })
          ∧ (s.following = true →
            let eligible (k : Nat) : Prop := k < 12 ∧ (t.port k).st = .active ∧ (t.port k).delayNs ≤ 560 ∧ (t.port k).peerHops ≤ 7
            let best (q : Nat) : Prop := eligible q ∧ ∀ k, eligible k →
              (t.port q).peerHops < (t.port k).peerHops ∨ ((t.port q).peerHops = (t.port k).peerHops ∧ q ≤ k)
            let level := bits (u 0 4) 22 16
            let lull := (u 0 4).testBit 23
            let unheard : Prop := level < s.tick.forced ∧ ∃ at_ was, s.links.forceAt = some (at_, was) ∧ level ≤ was ∧ at_ + 8 ≤ s.tick.count
            (∀ q, best q → q ≠ n → t = { s with links := { s.links with ports := t.links.ports, beaconPort := some q }, regs := t.regs })
            ∧ ((∀ q, ¬eligible q) → t = { s with links := { s.links with ports := t.links.ports, beaconPort := none }, regs := t.regs })
            ∧ (best n → t.links.hops = u 13 1 + 1 ∧ t.links.relayTick = u 4 8 ∧ LinksMoved { s with tick := t.tick } t
              ∧ t.tick = { s.tick with zenith := t.tick.zenith, lullAsked := t.tick.lullAsked, lullLate := t.tick.lullLate,
                                       lullEndAsked := t.tick.lullEndAsked }
              ∧ (¬unheard → t.links.beaconPort = some n ∧ t.links.holdover = false ∧ t.links.relayWord = some (level, lull)
                ∧ (lull = true → t.tick = s.tick.calledToLull) ∧ (lull = false → ∃ y z : State,
                  y = { s with links := t.links, regs := y.regs, host := t.host, out := t.out } ∧ LullReleased y z ∧ t = { z with regs := t.regs }))
              ∧ (unheard → t.links.holdover = true ∧ t.links.beaconPort = none ∧ t.links.relayWord = none ∧ t.tick.zenith = s.tick.level
                ∧ t.get Reg.Link.MASTER_LOST = 1 ∧ Reported s t 0x070A))))))
    ∧ (∀ vc, vc = 0 ∨ vc = 2 →
      let c := p.chan vc
      let again (y : State) (k : Nat) : Prop := y.out = s.out ++ c.replay.map (Out.obtik n) ∧ y.port n = p.setChan vc { c with resends := k } ∧ alone y
        ∧ y.get (Reg.Link.REPLAYS n) = min (s.get (Reg.Link.REPLAYS n) + c.replay.length) (2 ^ 32 - 1)
        ∧ y = { s with out := y.out, regs := y.regs, links := { s.links with ports := y.links.ports } }
        ∧ ∀ a, a ≠ (Reg.Link.REPLAYS n).addr → y.reg a = s.reg a
      (p.st ≠ .active ∨ c.replay = [] → exec (.linkReplayTimeout n vc) s = .next s)
      ∧ (p.st = .active → c.replay ≠ [] → c.resends + 1 < 8 → ∃ t, exec (.linkReplayTimeout n vc) s = .next t ∧ again t (c.resends + 1))
      ∧ (p.st = .active → c.replay ≠ [] → 8 ≤ c.resends + 1 → ∃ y t, again y 0 ∧ exec (.linkReplayTimeout n vc) s = .next t ∧ PortFallen y t n
        ∧ Reported y t 0x0703))

/-- R419, R423, R424: an enrolled key stands in its slot, a used slot is busy and a key enrolled elsewhere not permitted; a revoked one is
gone unless its key is in use; an update of an image whose checks pass erases its area and is pending; its completion stores the image
and prefers it, or reports the failure, as does a write that protection blocks; the other area is untouched throughout. A buffer outside the
DMA windows is blocked, counted and NOT_PERMITTED. -/
def Obligations.KeysAndFirmwareAreChecked : Prop :=
  ∀ (s : State) (h : CmdHdr), h.src = .host →
    (∀ a slot, a < 8 → slot < 4 → s.dmaOk h.buffer h.bufferLen = true → (derModulus (CmdHdr.read h)).isSome = true →
      let free : Prop := (s.asp a).keys.has slot = false
      let mine : Prop := ∃ e ∈ (s.asp a).keys, sha512 e.2 = sha512 (CmdHdr.read h)
      let others : Prop := ∃ b, b < 8 ∧ b ≠ a ∧ ∃ e ∈ (s.asp b).keys, sha512 e.2 = sha512 (CmdHdr.read h)
      (free → ¬mine → ¬others → ∃ e, Gives (exec (.keyEnrol h a slot) s) e .host (finalOf h 0x0A01 .ok)
        ∧ e = { s with airspaces := e.airspaces, regs := e.regs } ∧ (∀ b, b ≠ a → e.asp b = s.asp b)
        ∧ e.asp a = { s.asp a with keys := (s.asp a).keys.set slot (CmdHdr.read h) })
      ∧ (¬free → Refuses (exec (.keyEnrol h a slot) s) s h 0x0A01 .busy)
      ∧ (free → mine → BadField (exec (.keyEnrol h a slot) s) s h 0x0A01 8)
      ∧ (free → ¬mine → others → Refuses (exec (.keyEnrol h a slot) s) s h 0x0A01 .notPermitted))
    ∧ (∀ a slot, a < 8 → slot < 4 → s.dmaOk h.buffer h.bufferLen = true → derModulus (CmdHdr.read h) = none →
      BadField (exec (.keyEnrol h a slot) s) s h 0x0A01 8)
    ∧ (∀ a slot, a < 8 → slot < 4 → s.dmaOk h.buffer h.bufferLen = false →
      Gives (exec (.keyEnrol h a slot) s) (s.bump Reg.Ceil.DMA_BLOCKED) .host (finalOf h 0x0A01 .notPermitted))
    ∧ (∀ a slot, a < 8 → slot < 4 →
      (s.keyInUse a slot = false → ∃ e, Gives (exec (.keyRevoke h a slot) s) e .host (finalOf h 0x0A02 .ok)
        ∧ e = { s with airspaces := e.airspaces, regs := e.regs } ∧ (∀ b, b ≠ a → e.asp b = s.asp b)
        ∧ e.asp a = { s.asp a with keys := (s.asp a).keys.del slot })
      ∧ (s.keyInUse a slot = true → Refuses (exec (.keyRevoke h a slot) s) s h 0x0A02 .busy))
    ∧ (∀ image, image < 2 → 4096 ≤ h.bufferLen → h.bufferLen ≤ 16777216 → s.dmaOk h.buffer h.bufferLen = true →
      let data := CmdHdr.read h
      (s.boot.wpOpen = false → Refuses (exec (.firmwareUpdate h image) s) s h 0x0A03 .notPermitted)
      ∧ (s.boot.wpOpen = true → s.boot.update.isSome = true → Refuses (exec (.firmwareUpdate h image) s) s h 0x0A03 .busy)
      ∧ (s.boot.wpOpen = true → s.boot.update = none → s.boot.passes (1 - image) = false →
        Refuses (exec (.firmwareUpdate h image) s) s h 0x0A03 .notPermitted)
      ∧ (s.boot.wpOpen = true → s.boot.update = none → s.boot.passes (1 - image) = true → bootWellFormed data h.bufferLen = true →
        if s.boot.admits (bootInfoOf data) = true ∧ (bootInfoOf data).whole = true then
        ∃ e, Gives (exec (.firmwareUpdate h image) s) e .host (pendingOf h 0x0A03) ∧ e = { s with boot := e.boot, regs := e.regs }
          ∧ e.boot.area image = ⟨false, []⟩ ∧ e.boot.area (1 - image) = s.boot.area (1 - image)
          ∧ e.boot.update = some ⟨image, data, h.seq, opOf h 0x0A03⟩ ∧ e.boot.counter = s.boot.counter ∧ e.boot.revoked = s.boot.revoked
        else Refuses (exec (.firmwareUpdate h image) s) s h 0x0A03 .signatureInvalid)
      ∧ (s.boot.wpOpen = true → s.boot.update = none → s.boot.passes (1 - image) = true → bootWellFormed data h.bufferLen = false →
        BadField (exec (.firmwareUpdate h image) s) s h 0x0A03 8))
    ∧ (∀ u, s.boot.update = some u → u.image < 2 →
      (s.boot.wpOpen = true → ∃ e, Gives (exec (.firmwareWriteComplete true) s) e .host { seq := u.cmdSeq, opcode := u.cmdOp, status := .ok, final := true }
        ∧ e = { s with boot := e.boot, regs := e.regs } ∧ e.boot.area u.image = ⟨false, Mem.writeBytes [] 0 u.data⟩
        ∧ e.boot.area (1 - u.image) = s.boot.area (1 - u.image) ∧ e.boot.preference = some u.image ∧ e.boot.update = none
        ∧ e.boot.counter = s.boot.counter)
      ∧ (s.boot.wpOpen = true → ∃ e, Gives (exec (.firmwareWriteComplete false) s) e .host
          { seq := u.cmdSeq, opcode := u.cmdOp, status := .badParameter, final := true, detail := 8 }
        ∧ e = { s with boot := { s.boot with update := none }, regs := e.regs } ∧ e.get Reg.Sec.UPDATE_FAILED = 1)
      ∧ (s.boot.wpOpen = false → ∀ ok, ∃ e, Gives (exec (.firmwareWriteComplete ok) s) e .host
          { seq := u.cmdSeq, opcode := u.cmdOp, status := .badParameter, final := true, detail := 8 }
        ∧ e = { s with boot := { s.boot with update := none, flashBlocked := s.boot.flashBlocked + 1 }, regs := e.regs }
        ∧ e.get Reg.Sec.UPDATE_FAILED = 1 ∧ e.get Reg.Sec.FLASH_BLOCKED = 1))
    ∧ (∀ ok, s.boot.update = none → exec (.firmwareWriteComplete ok) s = .next s)

/-- R404, R439, R451: FIELD_RESET and CALIBRATE of a field that serves nothing are pending with the field's task begun; on a stopped field the
reset clears its failed cores and every core of it at once; SERVICE and LOST fields and fields in a move are refused, an ACTIVE field in the
basic form and, in the expert form, where its twin copy is not complete; where it is, and a clearing is free, its work moves first. -/
def Obligations.FieldTasksBegin : Prop :=
  ∀ (s : State) (h : CmdHdr) (f : Nat), h.src = .host →
    let orders : List (Nat × Instr) := [(0x0105, .fieldReset h f), (0x0802, .calibrate h f)]
    ∀ op c, (op, c) ∈ orders → (88 ≤ f → BadField (exec c s) s h op 32) ∧ (f < 88 →
      (((s.field f).role = .clearing ∨ (s.field f).role = .unassigned) → (s.field f).task = 0 → s.inMove f = false →
        ∃ t, exec c s = .next t ∧ (t.field f).task = 1 ∧ (t.field f).taskCmd = some (h.seq, .host, opOf h op)
          ∧ (∀ g, g ≠ f → t.field g = s.field g) ∧ (∀ n, coreField n ≠ f → t.core n = s.core n)
          ∧ ((s.field f).clock = .stopped → (t.field f).failed = [] ∧ ∀ n, coreField n = f → t.core n = {})
          ∧ ((s.field f).clock ≠ .stopped → t.cores = s.cores)
          ∧ Out.gust s.nextRequest (stewardId f) ∈ t.out ∧ t.gust = s.gust ++ [(s.nextRequest, stewardId f)]
          ∧ t = { s with
              fields := t.fields, cores := t.cores, regs := t.regs, windows := t.windows, out := t.out, gust := t.gust, nextRequest := s.nextRequest + 1
              host := { s.host with held := t.host.held, replyNum := t.host.replyNum, sigReply := t.host.sigReply } }
          ∧ t.answersTo .host = s.answersTo .host ++ [{ pendingOf h op with tick := s.tick.count }])
      ∧ ((s.field f).role = .service ∨ (s.field f).role = .lost → Refuses (exec c s) s h op .notPermitted)
      ∧ ((s.field f).role ≠ .service → (s.field f).role ≠ .lost → (s.inMove f = true ∨ (s.field f).task ≠ 0) → Refuses (exec c s) s h op .busy)
      ∧ ((s.field f).role = .active → s.inMove f = false → (s.field f).task = 0 → h.expert = false → Refuses (exec c s) s h op .inService)
      ∧ ((s.field f).role = .active → s.inMove f = false → (s.field f).task = 0 → (s.field f).placement = none → Refuses (exec c s) s h op .inService)
      ∧ (∀ p, (s.field f).role = .active → s.inMove f = false → (s.field f).task = 0 → h.expert = true → (s.field f).placement = some p →
        (s.twinComplete f = none → Refuses (exec c s) s h op .inService)
        ∧ (s.twinComplete f ≠ none → (s.nearestClearing f = none ∨ 3 ≤ (s.plc p).moves.length ∨ s.aliasFull p f = true) →
          Refuses (exec c s) s h op .noResource)
        ∧ (s.twinComplete f ≠ none → s.nearestClearing f ≠ none → (s.plc p).moves.length < 3 → s.aliasFull p f = false →
          Gives (exec c s) ((s.beginMove p f true).1.updField f fun x => { x with task := 1, taskCmd := some (h.seq, .host, opOf h op) }) .host
            (pendingOf h op))))

/-- R52, R53, R54, R57, R58, R69: what each report and order of a field's steward does, on its own field alone.
R52, R57, R70, R77, R383: in the maintenance slot of a running field of the wafer the vanes' lowest margin is kept and its runs counted, a
core whose self-check fails is failed in order, and the tick, the sessions and every other field stay as they are; the Zenith's copy of the
field window is refreshed, alone for a service field and for the snapshot of a field that stops; a field at rest or LOST has no slot. -/
def Obligations.StewardsActOnTheirFieldAlone : Prop :=
  (∀ (s : State) (f : Nat), f < 88 →
     let x := s.field f
     let only (t : State) : Prop := ∀ g, g ≠ f → t.field g = s.field g
     let heard (t : State) : Prop := (∀ e ∈ t.gust, e ∈ s.gust) ∧ ∀ e ∈ s.gust, e.2 ≠ stewardId f → e ∈ t.gust ∨ ∃ y ∈ s.gust, y.2 = stewardId f ∧ y.1 = e.1
     (∃ t, exec (.vaneLimit f) s = .next t ∧ t.field f = { x with vaneReport := true } ∧ only t
       ∧ t = { s with fields := t.fields, host := t.host, regs := t.regs, out := t.out })
     ∧ (∃ t, exec (.vaneTrimLower f) s = .next t ∧ only t ∧ t = { s with fields := t.fields, regs := t.regs }
       ∧ t.field f = { x with trim := x.trim - 10, vlogMv := min (bandFloor x.railBand + (x.trim - 10)) (bandCeil x.railBand) })
     ∧ (∃ t, exec .vaneDemandWithdraw s = .next t ∧ t = { s with tick := { s.tick with vaneDemand := s.tick.vaneDemand - 1 }, regs := t.regs }
       ∧ t.get Reg.Tick.VANE_HELD = if 1 < s.tick.vaneDemand then 1 else 0)
     ∧ (∃ t, exec (.railSettled f) s = .next t ∧ t = { s with fields := t.fields } ∧ t.field f = { x with settled := true } ∧ only t)
     ∧ (∃ t, exec (.vlogRaiseOrder f) s = .next t ∧ t = { s with fields := t.fields, gust := t.gust, regs := t.regs } ∧ only t ∧ heard t
       ∧ t.field f = { x with
           settled := false
           railBand := bandOf (s.tick.zenith - 1)
           vlogMv := min (bandFloor (bandOf (s.tick.zenith - 1)) + x.trim) (bandCeil (bandOf (s.tick.zenith - 1))) })
     ∧ (∀ off, ∃ t, exec (.stewardStopOrder f off) s = .next t ∧ t = { s with fields := t.fields, gust := t.gust } ∧ only t ∧ heard t
       ∧ t.field f = { x with clock := if x.clock = .running then .stopping off else x.clock })
     ∧ (∃ t, exec (.stewardWakeOrder f) s = .next t ∧ t = { s with fields := t.fields, gust := t.gust } ∧ only t ∧ heard t
       ∧ (x.clock = .stopped → t.field f = { x with clock := .waking, wakeDeferred := 0 }) ∧ (x.clock ≠ .stopped → t.field f = x))
     ∧ (∀ c b, b < 16 → ∃ t, exec (.bankInitComplete c b) s = .next t ∧ t = { s with cores := t.cores } ∧ (∀ n, n ≠ c → t.core n = s.core n)
       ∧ (t.core c).bankInit.getLsbD b = false ∧ (∀ k, k ≠ b → (t.core c).bankInit.getLsbD k = (s.core c).bankInit.getLsbD k)
       ∧ t.core c = { s.core c with bankInit := (t.core c).bankInit }))
  ∧ (∀ (s : State) (f : Nat) (vanes bad : List Nat), f < 88 →
       let x := s.field f
       let stopping : Prop := ∃ off, x.clock = .gated off
       (s.tick.running = false ∨ x.role = .lost → exec (.maintenanceSlot f vanes bad) s = .next s)
       ∧ (s.tick.running = true → x.role ≠ .lost → x.role = .service ∨ stopping → exec (.maintenanceSlot f vanes bad) s = .next (s.copyWindow f))
       ∧ (x.role ≠ .service → ¬stopping → x.clock ≠ .running → exec (.maintenanceSlot f vanes bad) s = .next s)
       ∧ (s.tick.running = true → x.clock = .running → x.role ≠ .service → x.role ≠ .lost →
           ∃ t, exec (.maintenanceSlot f vanes bad) s = .next t ∧ (∀ g, g ≠ f → t.field g = s.field g)
           ∧ t = { s with fields := t.fields, cores := t.cores, regs := t.regs, windows := t.windows, host := t.host, out := t.out }
           ∧ (∀ n, coreField n ≠ f → t.core n = s.core n)
           ∧ (∀ n ∈ bad, n < 32 → (t.core (32 * f + n)).state = .failed)
           ∧ (vanes = [] → (t.field f).margin = x.margin ∧ (t.field f).goodRun = x.goodRun)
           ∧ (∀ v vs, vanes = v :: vs → (t.field f).margin = vs.foldl min v
             ∧ (t.field f).goodRun = (if s.tick.vaneRelease ≤ vs.foldl min v then x.goodRun + 1 else 0)
             ∧ (t.field f).trim = x.trim)))

/-- R45, R46, R47, R317: the origin's word carries the level and number of the coming boundary and goes to the wafer; a field takes the primary
branch, else the redundant one with the loss of the primary counted, else it misses the tick; a branch is taken within one cycle of its
calibrated offset, with its check bits right and the offset at most 62 cycles at level 0; a word whose number disagrees with the steward's own
count is counted; after three missed ticks the field is lost with cause 4. -/
def Obligations.BeaconsReachTheFields : Prop :=
  ∀ (s : State) (f : Nat),
    let x := s.field f
    let usable (o : Option Nat) (b : Option BeaconRx) : Prop := ∃ ps r, o = some ps ∧ b = some r ∧ 12 * ps ≤ 62 * 5000
      ∧ -1 ≤ r.edgeError ∧ r.edgeError ≤ 1 ∧ beaconGood r.word = true
    let taken (r : BeaconRx) : FieldSt := { x with
      beaconOk := true, beaconMiss := 0
      tickMismatch := if r.word.toNat % 65536 = s.nextCount % 65536 then x.tickMismatch else x.tickMismatch + 1 }
    let only (t : State) : Prop := ∀ g, g ≠ f → t.field g = s.field g
    (∃ t w l, exec .beaconEmit s = .next t ∧ t = { s with tick := { s.tick with wordEmitted := true }, out := s.out ++ .beacon w :: l }
      ∧ w = beaconWord s.following (if s.tick.running = true then s.tick.lullAsked else !s.tick.lullEndAsked)
          (if s.tick.running = true ∨ s.following = true then s.nextLevel else s.tick.level) s.nextCount
      ∧ ∀ o ∈ l, ∃ n g, o = .obtik n g ∧ (s.port n).st = .active)
    ∧ (∀ a b, usable x.offsetPrimary (some a) →
      ∃ t, exec (.beaconArrival f (some a) b) s = .next t ∧ t = { s with fields := t.fields } ∧ only t ∧ t.field f = taken a)
    ∧ (∀ a b, ¬usable x.offsetPrimary a → usable x.offsetRedundant (some b) →
      ∃ t, exec (.beaconArrival f a (some b)) s = .next t ∧ t = { s with fields := t.fields, regs := t.regs } ∧ only t ∧ t.field f = taken b
        ∧ t.get Reg.Tick.BEACON_ALT = 1)
    ∧ (∀ a b, ¬usable x.offsetPrimary a → ¬usable x.offsetRedundant b → ∃ t, exec (.beaconArrival f a b) s = .next t ∧ only t
        ∧ t.field f = { x with beaconOk := false, beaconMiss := x.beaconMiss + 1 } ∧ t.get Reg.Tick.BEACON_LOST = 1
        ∧ t = { s with fields := t.fields, regs := t.regs, host := t.host, out := t.out })
    ∧ (x.role ≠ .lost → x.role ≠ .service → x.lossPending = false →
      ∃ t, exec (.beaconLossLimit f) s = .next t ∧ (t.field f).lossPending = true ∧ (t.field f).lostCause = some 4
        ∧ (t.field f).lossAt = s.tick.count ∧ only t ∧ t = { s with fields := t.fields, cores := t.cores, windows := t.windows }
        ∧ (∀ n, coreField n ≠ f → t.core n = s.core n))
    ∧ (x.role = .lost ∨ x.role = .service ∨ x.lossPending = true → exec (.beaconLossLimit f) s = .next s)

/-- R38, R281, R284, R287, R288, R290, R297, R298: a packet that comes in a guard waits; one with a corrupt route word is discarded and counted;
one for a core at a site that the tables hold unreachable is counted; a good one leaves by the port of the table, unchanged; a table write
fills the inactive copy, and a bad port or one that breaks the west-first rule is refused; a lost link is kept and reported once; a message
not acknowledged is sent again; detours wait in every router's inactive copy. -/
def Obligations.RoutersForwardByTheirTables : Prop :=
  ∀ (s : State) (u : Nat), u < 88 →
    let only (t : State) : Prop := ∀ g, g ≠ u → t.field g = s.field g
    (∀ port cycle p, s.inGuard cycle = true → ∃ t, exec (.routerPacketEntry u port cycle p) s = .next t ∧ t = { s with fields := t.fields }
        ∧ only t ∧ t.router u = { s.router u with held := (s.router u).held ++ [(port, p)] })
    ∧ (∀ port cycle p, s.inGuard cycle = false → routeCrc p.route ≠ p.crc →
        exec (.routerPacketEntry u port cycle p) s = .next (s.bump (Reg.Router.ROUTE_CORRUPT u)))
    ∧ (∀ port cycle (p : Packet) d, s.inGuard cycle = false → routeCrc p.route = p.crc → (Route.decode p.route).reserved = false →
        (checkFlits p.flits).2 = (0, 0) → (Route.decode p.route).mcast = false →
        ((Route.decode p.route).kind = 0 ∨ (Route.decode p.route).kind = 4) → (1 ≤ port ∧ port ≤ 4) →
        s.reachSite (Route.decode p.route).dest = some d → d ≠ u →
        (((s.router u).act.site d).2 = true →
          let out := (s.router u).act.port u d
          out ≠ 7 → out ∉ (s.router u).linksDown → ∃ t q, exec (.routerPacketEntry u port cycle p) s = .next t
            ∧ t = { s with fields := t.fields, out := s.out ++ [.packet u out q] } ∧ q.flits = (checkFlits p.flits).1
            ∧ Route.decode q.route = Route.decode p.route ∧ only t
            ∧ (t.router u).act = (s.router u).act ∧ (t.router u).shadow = (s.router u).shadow)
        ∧ (((s.router u).act.site d).2 = false → (Route.decode p.route).dest < 2816 → (Route.decode p.route).ackreq = false →
          exec (.routerPacketEntry u port cycle p) s = .next (s.bump (Reg.Router.UNREACHABLE u))))
    ∧ (∀ d port reach, 7 < port ∨ s.breaksWestFirst u d port = true → exec (.routeTableWrite u (.site d port reach)) s
        = .next { s with out := s.out ++ [.gustStatus u .badParameter] })
    ∧ (∀ w, (∀ d port reach, w = .site d port reach → port ≤ 7 ∧ s.breaksWestFirst u d port = false) →
        ∃ t, exec (.routeTableWrite u w) s = .next t ∧ t = { s with fields := t.fields } ∧ only t
        ∧ t.router u = { s.router u with swapPending := true, shadow := (t.router u).shadow }
        ∧ (∀ d port reach, w = .site d port reach →
          (t.router u).shadow = { (s.router u).shadow with sites := (s.router u).shadow.sites.set d (port, reach) })
        ∧ (∀ i a b valid p, w = .aliasEntry i a b valid p →
          (t.router u).shadow = { (s.router u).shadow with aliases := (s.router u).shadow.aliases.set i (a, b, valid, p) })
        ∧ (∀ i ports cores, w = .group i ports cores →
          (t.router u).shadow = { (s.router u).shadow with groups := (s.router u).shadow.groups.set i (ports, cores) })
        ∧ (∀ p mask on, w = .filter p mask on →
          (t.router u).shadow = { (s.router u).shadow with filterPlacement := p, filterMask := mask, filterOn := on }))
    ∧ (∀ port, port ∉ (s.router u).linksDown → ∃ t, exec (.linkDown u port) s = .next t
        ∧ (t.router u).linksDown = port :: (s.router u).linksDown ∧ only t
        ∧ t = { s with fields := t.fields, regs := t.regs, host := t.host, out := t.out })
    ∧ (∀ port, port ∈ (s.router u).linksDown → exec (.linkDown u port) s = .next s)
    ∧ (∀ m e, s.gust.find? (fun y => y.1 = m) = some e → exec (.gustResend m) s = .next { s with out := s.out ++ [.gust e.1 e.2] })
    ∧ (∀ m, (∀ e ∈ s.gust, e.1 ≠ m) → exec (.gustResend m) s = .next s)
    ∧ (∃ t, exec .detourComputed s = .next t ∧ (t.router u).act = (s.router u).act ∧ (t.router u).swapPending = true
        ∧ ((∀ v ∈ allFields, s.routerLost v = false) →
          t = { s with fields := t.fields, gust := t.gust, nextRequest := t.nextRequest, regs := t.regs, host := t.host, out := t.out }))

/-- R39, R71-R73, R282, R296: a remote write or read of words that the core's tags admit, within its wait limit, has its effect and its reply,
any other is counted FILTER or REMOTE_BUSY and has none; a reply ends its request and writes its words; a Jetstream packet in time is written,
a late one counted; a read without an answer ends as BUSY. Each acts on the one core; what comes to a link engine goes to its port (R308). -/
def Obligations.CoresAnswerTheFabric : Prop :=
  ∀ (s : State) (c : Nat) (p : Packet),
    (∀ n cycle waited, portOfEngine c = some n → exec (.fabricWrite c ⟨cycle, waited, p⟩) s = .next (s.engineSend n p)
      ∧ exec (.fabricRead c ⟨cycle, waited, p⟩) s = .next (s.engineSend n p) ∧ exec (.jetstreamArrival c cycle p) s = .next (s.engineSend n p)
      ∧ exec (.fabricDataReply c ⟨cycle, waited, p⟩) s = .next (s.engineReply n p) ∧ exec (.fabricStatusReply c p) s = .next (s.engineReply n p))
    ∧ (portOfEngine c = none → (s.core c).state ≠ .failed →
    let r := Route.decode p.route
    let lin := linLocal r.addr
    let up : Prop := (s.core c).bankUp (lin / 57344) = true
    let others (t : State) : Prop := ∀ n, n ≠ c → t.core n = s.core n
    -- no operation of the core waits for words, and no other requester writes the word in the cycle
    let quiet (cycle : Nat) : Prop := (s.core c).seq.waits = [] ∧ (s.core c).seq.ending = false
      ∧ ∀ e ∈ (s.core c).written, ¬(e.1 = lin ∧ e.2.1 = cycle)
    let kept (t : State) : Prop := ∀ a, (a < 32 * lin ∨ 32 * lin + 32 ≤ a) → (t.core c).mem.read a = (s.core c).mem.read a
    (∀ cycle waited, s.remoteRangeOk r c (r.len + 1) = true → waited ≤ s.remoteWait → r.len = 0 → (packetData p).length = 32 → quiet cycle →
      ∃ t, exec (.fabricWrite c ⟨cycle, waited, p⟩) s = .next t ∧ t = { s with cores := t.cores, out := t.out } ∧ others t
        ∧ (t.core c).word lin = packetData p ∧ (lin, cycle) ∈ (t.core c).seq.arrived ∧ kept t
        ∧ (r.ackreq = false → t.out = s.out) ∧ (r.ackreq = true → ∃ q, t.out = s.out ++ [.localPacket c q]))
    ∧ (∀ cycle waited, s.remoteRangeOk r c (r.len + 1) = false → r.ackreq = false →
        exec (.fabricWrite c ⟨cycle, waited, p⟩) s = .next (s.bump (Reg.Core.FILTER (coreField c) (coreNum c))))
    ∧ (∀ cycle waited, s.remoteRangeOk r c (r.len + 1) = true → s.remoteWait < waited → r.ackreq = false →
        exec (.fabricWrite c ⟨cycle, waited, p⟩) s = .next (s.bump (Reg.Core.REMOTE_BUSY (coreField c) (coreNum c))))
    ∧ (∀ cycle waited, readWordsOf p = 1 →
        (s.remoteRangeOk r c 1 = true → waited ≤ s.remoteWait → (s.core c).scErr.getD lin 0 = 0 →
          ∃ q, exec (.fabricRead c ⟨cycle, waited, p⟩) s = .next { s with out := s.out ++ [.localPacket c q] } ∧ q.flits = [flitOf ((s.core c).word lin)])
        ∧ (s.remoteRangeOk r c 1 = false → ∃ q, exec (.fabricRead c ⟨cycle, waited, p⟩) s
            = .next ((s.bump (Reg.Core.FILTER (coreField c) (coreNum c))).emit (.localPacket c q)))
        ∧ (s.remoteRangeOk r c 1 = true → s.remoteWait < waited → ∃ q, exec (.fabricRead c ⟨cycle, waited, p⟩) s
            = .next ((s.bump (Reg.Core.REMOTE_BUSY (coreField c) (coreNum c))).emit (.localPacket c q))))
    ∧ (r.len = 0 → up → p.flits.length = 1 → (checkFlits p.flits).2 = (0, 0) → r.drop = false → ∀ cycle waited,
        (quiet cycle → ∃ t, exec (.fabricDataReply c ⟨cycle, waited, p⟩) s = .next t ∧ t = { s with cores := t.cores } ∧ others t
          ∧ (t.core c).word lin = (flitRead (p.flits.headD 0)).1 ∧ (∀ q ∈ (t.core c).remote, ¬(q.dest = r.src ∧ q.reply = r.addr)) ∧ kept t)
        ∧ (quiet cycle → cycle + 67 ≤ s.tick.period → ∃ t, exec (.jetstreamArrival c cycle p) s = .next t ∧ t = { s with cores := t.cores }
          ∧ others t ∧ (t.core c).word lin = (flitRead (p.flits.headD 0)).1 ∧ (lin, cycle) ∈ (t.core c).seq.arrived ∧ kept t)
        ∧ (s.tick.period < cycle + 67 → ∃ t, exec (.jetstreamArrival c cycle p) s = .next t ∧ t = { s with regs := t.regs }
          ∧ t.get Reg.Tick.LATE_JET = 1))
    ∧ (∃ t, exec (.fabricStatusReply c p) s = .next t ∧ t = { s with cores := t.cores } ∧ others t
        ∧ let named := leNat (((packetData p).drop 4).take 4)
          t.core c = { s.core c with remote := (s.core c).remote.filter fun q => !(q.addr == named || (q.reply == named && q.dest == r.src)) })
    ∧ (∀ addr, (∃ q ∈ (s.core c).remote, q.addr = addr) → ∃ t, exec (.remoteWaitTimeout c addr) s = .next t
        ∧ t = { s with cores := t.cores, regs := t.regs } ∧ others t
        ∧ t.core c = { s.core c with remote := (s.core c).remote.filter fun q => !(q.addr == addr) }
        ∧ ∀ a, a ≠ (Reg.Core.REMOTE_BUSY (coreField c) (coreNum c)).addr → t.reg a = s.reg a)
    ∧ (∀ addr, (∀ q ∈ (s.core c).remote, q.addr ≠ addr) → exec (.remoteWaitTimeout c addr) s = .next s))

/-- R88, R89, R91, R92, R102, R106, R125-R139: each operation of the vector unit and COPY completes, working on its valid rows in ascending order.
Where nothing in the scratchpad stands in its way a row's result, computed from the operands as they stood, is written to DST, and nothing
else changes beside counters; a row whose DST is faulty writes nothing, is dropped and is counted ADDR_FAULT. STATE_SCAN's recurrence, which the manual
leaves open, is the free function of the configuration. -/
def Obligations.VectorOperationsWriteTheirResults : Prop :=
  ∀ (s : State) (c v a b t : Nat) (d : W256),
    let len := 8 * dCount d
    let ops : List (Instr × (Nat → W256 → State → Nat → State) × Nat) :=
      [(.norm c d, normRow, len), (.act c d, actRow, len), (.glu c d, gluRow, len), (.rope c d, ropeRow, len),
       (.quant c d, quantRow, dCount d * (dDstFmt d).words), (.check c d, checkRow, 1), (.vec c d, vecRow, len), (.copy c d, copyRow, dCount d),
       (.gate c d, gateRow, 3), (.combine c d, combineRow, len), (.stateScan c d, stateScanRow, len)]
    (∀ i row words, (i, row, words) ∈ ops → exec i s = .next (((List.range (dRows d)).filter fun r => (s.row c r).valid).foldl (row c d) s)
      ∧ (resolve (dDst d) (s.row c v) v = some t → faulty (dDst d) (s.row c v) t words = true → let z := row c d s v
          (z.core c).mem = (s.core c).mem ∧ (z.row c v).drop = true ∧ z.get (Reg.Seq.ADDR_FAULT (coreField c) (coreNum c)) ≠ 0
          ∧ (∀ k, k ≠ c → z.core k = s.core k) ∧ z = { s with cores := z.cores, regs := z.regs, freeUses := z.freeUses }))
    ∧ (OpReady s c →
      let n := dCount d
      let f := dSrcFmt d
      let src (k : Nat) : Prop := Operand s c v (dSrcA d) k a
      let srcB (k : Nat) : Prop := Operand s c v (dSrcB d) k b
      let dst (k : Nat) : Prop := Operand s c v (dDst d) k t
      let x := s.groupsAt c a f n
      let table := actTable (s.core c).actStore (dP0 d % 32)
      let at_ (l : List (List W32)) (g e : Nat) : W32 := wordAt (l.getD g []) e
      let form (k : Nat) (r : Nat → Nat → W32) : List Byte := ((List.range k).map fun g => (List.range 64).map (r g)).flatMap wordsBytes
      let writes (row : Nat → W256 → State → Nat → State) (bs : List Byte) : Prop := Wrote s (row c d s v) c False t bs
      (src (n * f.words) → dst (8 * n) → writes actRow ((x.map fun g => g.map table).flatMap wordsBytes))
      ∧ (src (n * f.words) → srcB (8 * n) → dst (8 * n) →
          writes gluRow ((zipGroups (fun p q => F32.mul (table p) q) x (s.groupsAt c b .fp32 n)).flatMap wordsBytes)
          ∧ (dP0 d % 2 = 0 → writes normRow ((normRms x (s.groupsAt c b .fp32 n) (BitVec.ofNat 32 (dP1 d))).flatMap wordsBytes)))
      ∧ (src (n * f.words) → dst (8 * n) → bits (dP0 d) 3 0 ≠ 7 → (bits (dP0 d) 3 0 ≠ 4 → srcB (8 * n)) → writes vecRow (form n fun g e =>
          vecElem (bits (dP0 d) 3 0) (BitVec.ofNat 32 (dP1 d)) (at_ x g e) (at_ (s.groupsAt c b .fp32 n) g e) (at_ (s.groupsAt c t .fp32 n) g e)))
      ∧ (let per := bits (dP2 d) 9 0 / 64; let len := (8 * ((n + per - 1) / per) + 31) / 32;
          src (n * f.words) → srcB len → dst (8 * n) → bits (dP0 d) 3 0 = 7 → writes vecRow
            (form n fun g e => F32.div (at_ x g e) (statL (s.wordsAt c b len) (g / per))))
      ∧ (src (n * f.words) → srcB (16 * n) → dst (8 * n) → dP0 d % 2 = 1 → writes normRow
          ((normLayer x ((s.groupsAt c b .fp32 (2 * n)).take n) ((s.groupsAt c b .fp32 (2 * n)).drop n) (BitVec.ofNat 32 (dP1 d))).flatMap wordsBytes))
      ∧ (src (n * f.words) → dst (8 * n) → writes ropeRow (form n fun g e =>
          let i := 64 * g + e
          let h := bits (dP0 d) 9 0
          ropeElem ((x.flatten.drop (i / h * h)).take h) (bits (dP2 d) 9 0) (BitVec.ofNat 32 (dP1 d)) (s.row c v).pos (i % h)))
      ∧ (src (8 * n) → dst (n * (dDstFmt d).words) → writes quantRow ((List.range n).flatMap fun g =>
          let y := (s.groupsAt c a .fp32 n).getD g []
          let us := if dSr d then some (s.random c v g (dP1 d)) else none
          (if dP0 d % 2 = 1 then requantGroup (dDstFmt d) y (s.wordsAt c (t + g * (dDstFmt d).words) (dDstFmt d).words) us
            else quantGroup (dDstFmt d) y us).1))
      ∧ (src (8 * n) → srcB (n * (dDstFmt d).words) → dst 1 → writes checkRow (troubleWord (dP0 d) ((List.range n).map fun g =>
          checkGroup (dDstFmt d) ((s.groupsAt c a .fp32 n).getD g [])
            (((s.wordsAt c b (n * (dDstFmt d).words)).drop (32 * (dDstFmt d).words * g)).take (32 * (dDstFmt d).words)))))
      ∧ (src n → dst n → writes copyRow (s.wordsAt c a n))
      ∧ (src (n * f.words) → dst 3 → writes gateRow (choiceEntry (gateChoices (bits (dP0 d) 8 8) (bits (dP0 d) 4 0 + 1) x)))
      ∧ (src (8 * ((bits (dP0 d) 3 0 + 1) * n)) → srcB 3 → dst (8 * n) → writes combineRow (form n fun g i =>
          let sum := (List.range (bits (dP0 d) 3 0 + 1)).foldl (fun acc j => F32.add acc (F32.mul (choiceWeight (s.wordsAt c b 3) j)
            (at_ (s.groupsAt c a .fp32 ((bits (dP0 d) 3 0 + 1) * n)) (j * n + g) i))) 0
          if dAcc d then F32.add (at_ (s.groupsAt c t .fp32 n) g i) sum else sum))
      ∧ (src (8 * n) → srcB (8 * n) → dst (8 * n) → writes stateScanRow (form n fun i e => Config.stateScan (bits (dP0 d) 1 0)
          (at_ (s.groupsAt c t .fp32 n) i e) (at_ (s.groupsAt c a .fp32 n) i e) (at_ (s.groupsAt c b .fp32 n) i e))))

/-- R75, R76, R91, R104, R119-R124, R145, R169: MATVEC, LOGITS, MATVEC_T, EMBED and HALO complete, working on their valid rows in ascending order. On a
row where nothing in the scratchpad stands in the way MATVEC and LOGITS sum the tiles of each output block in ascending order as the
crossbar delivers them (a patch before the live bank; an uncorrectable one contributing nothing), MATVEC_T those of the transposed product; EMBED reads
the row's token out of its tiles (zero outside its range), HALO sums its factors; under ACC a finished result of the first three is added to DST;
nothing else changes beside counters and the notes of bad tiles. -/
def Obligations.TileOperationsSumInOrder : Prop :=
  ∀ (s : State) (c v a b t : Nat) (d : W256),
    let rows (g : State → Nat → State) : Host.Outcome State Fault Refusal :=
      .next (((List.range (dRows d)).filter fun r => (s.row c r).valid).foldl g s)
    exec (.matvec c d) s = rows (matvecRow c d) ∧ exec (.logits c d) s = rows (logitsRow c d) ∧ exec (.matvecT c d) s = rows (matvecTRow c d)
    ∧ exec (.embed c d) s = rows (embedRow c d) ∧ exec (.halo c d) s = rows (haloRow c d)
    ∧ (OpReady s c →
      let n := dCount d
      let f := dSrcFmt d
      let ib := bits (dP1 d) 11 0
      let tile := s.tileSeen c
      let zero : List W32 × Cnt := (List.replicate 64 0, {})
      let writes (row : Nat → W256 → State → Nat → State) (bs : List Byte) : Prop :=
        Wrote s (row c d s v) c ((s.liveBankOf (coreField c)).err ≠ []) t bs
      let added (out : List (List W32)) : List (List W32) := if dAcc d then (List.range out.length).map fun g => (List.range 64).map fun e =>
        (F32.addSat (wordAt ((s.groupsAt c t .fp32 out.length).getD g []) e) (wordAt (out.getD g []) e)).1 else out
      let blocks (xs : List (List Int × Int)) (base : Nat) : List (List W32) := (List.range (n / ib)).map fun ob =>
        ((List.range ib).foldl (fun acc i => accumTile acc (tile (base + ob * ib + i)) (xs.getD i ([], 0)).1 (xs.getD i ([], 0)).2) zero).1
      (Operand s c v (dSrcA d) (ib * f.words) a →
        (∀ bases, (bits (dP1 d) 20 20 = 1 → Operand s c v (dSrcB d) 3 b) →
          bases = choiceBases d (if bits (dP1 d) 20 20 = 1 then s.wordsAt c b 3 else []) → Operand s c v (dDst d) (8 * (bases.length * (n / ib))) t →
          writes matvecRow ((added (bases.flatMap (blocks (s.inputsAt c a f ib)))).flatMap wordsBytes)
          ∧ writes logitsRow
            ((beyondVocab (s.vocabOf c) (bits (dP2 d) 17 0) (added (bases.flatMap (blocks (s.inputsAt c a f ib))))).flatMap wordsBytes)))
      ∧ (Operand s c v (dSrcA d) (n / ib * f.words) a → Operand s c v (dDst d) (8 * ib) t → writes matvecTRow
        ((added ((List.range ib).map fun i => ((List.range (n / ib)).foldl (fun acc ob =>
          accumTileT acc (tile (bits (dP0 d) 21 0 + ob * ib + i)) ((s.inputsAt c a f (n / ib)).getD ob ([], 0)).1
            ((s.inputsAt c a f (n / ib)).getD ob ([], 0)).2) zero).1)).flatMap wordsBytes))
      ∧ (Operand s c v (dDst d) (8 * n) t → let tok := (s.row c v).token; let first := bits (dP1 d) 17 0;
          (tok < first ∨ first + bits (dP2 d) 17 0 ≤ tok → writes embedRow (List.replicate (256 * n) 0))
          ∧ (first ≤ tok → tok < first + bits (dP2 d) 17 0 → writes embedRow (((List.range n).map fun g => (List.range 64).map fun j =>
              ((tile (bits (dP0 d) 21 0 + (tok - first) / 64 * n + g)).weight ((tok - first) % 64) j).1).flatMap wordsBytes)))
      ∧ (let r := bits (dP0 d) 6 0; let fac := s.wordsAt c b ((2 * r * 64 * n + 31) / 32); let half : Prop := dFmt d = 5;
          Operand s c v (dSrcB d) ((2 * r * 64 * n + 31) / 32) b →
          (bits (dP0 d) 8 8 = 0 → Operand s c v (dSrcA d) (4 * n) a →
            let z := (List.range r).map (haloDown (s.wordsAt c a (4 * n)) fac (64 * n) r)
            (half → Operand s c v (dDst d) ((2 * r + 31) / 32) t → Wrote s (haloRow c d s v) c False t (bf16Bytes z))
            ∧ (¬half → Operand s c v (dDst d) ((4 * r + 31) / 32) t → Wrote s (haloRow c d s v) c False t (wordsBytes z)))
          ∧ (bits (dP0 d) 8 8 = 1 → Operand s c v (dSrcA d) ((2 * r + 31) / 32) a →
            let up (g : Fmt) : List W32 := (List.range (64 * n)).map fun i =>
              haloUp (s.wordsAt c a ((2 * r + 31) / 32)) fac r i (wordAt (s.groupsAt c t g n).flatten i)
            (¬half → Operand s c v (dDst d) (8 * n) t → Wrote s (haloRow c d s v) c False t (wordsBytes (up .fp32)))
            ∧ (half → Operand s c v (dDst d) (4 * n) t → Wrote s (haloRow c d s v) c False t (bf16Bytes (up .bf16))))))

/-- R91, R92, R107, R180-R184, R188, R189, R225, R226: SCORE, VALUE, SOFTMAX_ONLINE, KV_APPEND and SAMPLE complete, working on their valid rows in ascending
order. On a row where nothing in the scratchpad stands in the way SCORE and VALUE work over the blocks that the row's map lists, from the first
windowed one on, a missing block scoring minus infinity or contributing nothing, and a listed block that is not in its place drops the row;
SOFTMAX_ONLINE writes weights in a narrow format and statistics; KV_APPEND writes the row's new keys, values and scales at its position in the block of that
position and nowhere else, nothing where another core holds the page, and drops the row where the entry is not its own; SAMPLE's LOCAL phase writes
the core's candidates, its FINAL phase the token, which it gives to the session of a row that is not dropped. -/
def Obligations.AttentionFollowsTheBlockMap : Prop :=
  ∀ (s : State) (c v a t : Nat) (d : W256),
    let rows (g : State → Nat → State) : Host.Outcome State Fault Refusal :=
      .next (((List.range (dRows d)).filter fun r => (s.row c r).valid).foldl g s)
    exec (.score c d) s = rows (scoreRow c d) ∧ exec (.softmaxOnline c d) s = rows (softmaxRow c d) ∧ exec (.value c d) s = rows (valueRow c d)
    ∧ exec (.kvAppend c d) s = rows (kvAppendRow c d) ∧ exec (.sample c d) s = rows (sampleRow c d)
    ∧ (OpReady s c →
      let n := dCount d
      let tb := kvTb (dP0 d)
      let w := kvOmega (dP0 d)
      let g := bits (dP0 d) 4 0 + 1
      let r := s.row c v
      let h := mapHead (s.wordsAt c r.blockMap 1)
      let len := blockWords (s.kvHeadsOf c tb w) tb w
      let sub (e : Nat) : List Byte := s.wordsAt c (e + bits (dSrcB d) 19 0) (headWords tb w)
      let windowed := decide (bits (dP0 d) 11 11 = 1)
      let first (win : Nat) : Nat := firstEntry windowed win r.pos
      let writes (row : Nat → W256 → State → Nat → State) (bs : List Byte) : Prop := Wrote s (row c d s v) c False t bs
      let drops (row : Nat → W256 → State → Nat → State) : Prop :=
        ((row c d s v).row c v).drop = true ∧ (row c d s v).get (Reg.Seq.ADDR_FAULT (coreField c) (coreNum c)) ≠ 0
      (r.blockMap + 1 + h.entries / 8 < scratchWords →
        (∀ win, (∃ b x, b < n ∧ s.blockOf c v (first win + b) = some x ∧ s.entryOk c v x len = false) →
          (win = bits (dP1 d) 17 0 → drops scoreRow) ∧ (win = ((s.stageRec c).map StageRec.window).getD 0 → drops valueRow))
        ∧ ((∀ e x, s.blockOf c v e = some x → s.entryOk c v x len = true ∧ x + bits (dSrcB d) 19 0 + headWords tb w ≤ scratchWords) →
          (Operand s c v (dSrcA d) (g * tb * (dSrcFmt d).words) a → Operand s c v (dDst d) (8 * (n * g)) t →
            let win := bits (dP1 d) 17 0
            writes scoreRow (((List.range n).flatMap fun b => (List.range g).map fun q => (List.range 64).map fun i =>
              match s.blockOf c v (first win + b) with
              | none => F32.negInf
              | some x => if maskedPos r windowed win (kvPosition h (first win + b) i) then F32.negInf
                else (scoreOf (sub x) tb w (((s.inputsAt c a (dSrcFmt d) (g * tb)).drop (q * tb)).take tb) (BitVec.ofNat 32 (dP2 d)) i).1).flatMap wordsBytes))
          ∧ (Operand s c v (dSrcA d) (n * g * (dSrcFmt d).words) a → Operand s c v (dDst d) (8 * (g * tb)) t →
            let win := ((s.stageRec c).map StageRec.window).getD 0
            writes valueRow (((List.range (g * tb)).map fun k => (List.range 64).map fun j => (List.range n).foldl (fun acc b =>
              match s.blockOf c v (first win + b) with
              | none => acc
              | some x => F32.add acc (valueTerm (sub x) tb w (k % tb) j ((s.inputsAt c a (dSrcFmt d) (n * g)).getD (b * g + k / tb) ([], 0)).1
                  ((s.inputsAt c a (dSrcFmt d) (n * g)).getD (b * g + k / tb) ([], 0)).2).1) 0).flatMap wordsBytes))))
      ∧ (let gs := bits (dP1 d) 4 0 + 1; let f := dDstFmt d;
          f ≠ .fp32 → Operand s c v (dSrcA d) (8 * (n * gs)) a → Operand s c v (dDst d) (n * gs * f.words) t →
          ∀ u, Operand s c v (dP0 d) ((8 * gs + 31) / 32) u →
          let heads := (List.range gs).map fun q => softmaxHead f ((List.range n).map fun b => (s.groupsAt c a .fp32 (n * gs)).getD (b * gs + q) [])
          let z := softmaxRow c d s v
          Touched s z c False
          ∧ ((u + (8 * gs + 31) / 32 ≤ t ∨ t + n * gs * f.words ≤ u) →
              z.wordsAt c t (n * gs * f.words) = (List.range n).flatMap (fun b => heads.flatMap fun q => q.1.getD b []))
          ∧ (z.core c).mem.bytes (32 * u) (8 * gs) = heads.flatMap (fun q => leBytes 4 q.2.1.toNat ++ leBytes 4 q.2.2.1.toNat)
          ∧ ∀ y, (y < 32 * t ∨ 32 * (t + n * gs * f.words) ≤ y) → (y < 32 * u ∨ 32 * u + 8 * gs ≤ y) → (z.core c).mem.read y = (s.core c).mem.read y)
      ∧ (let page := r.kvFill / 256; let e := 4 * (page / h.split) + r.kvFill / 64 % 4; let i := r.kvFill % 64; let z := kvAppendRow c d s v;
          let entry := leNat (((s.wordsAt c (r.blockMap + 1 + e / 8) 1).drop (e % 8 * 4)).take 4); let x := entry % 2 ^ 20;
          r.blockMap + 1 + e / 8 < scratchWords →
          (page % h.split ≠ h.share → z = s)
          ∧ (page % h.split = h.share → entry / 2 ^ 30 ≠ 2 ∨ s.entryOk c v x len = false → drops kvAppendRow ∧ (z.core c).mem = (s.core c).mem)
          ∧ (∀ b, page % h.split = h.share → entry / 2 ^ 30 = 2 → s.entryOk c v x len = true → x + len ≤ scratchWords →
            bits (dDst d) 19 0 + n * headWords tb w ≤ len → Operand s c v (dSrcA d) (8 * (n * tb)) a → Operand s c v (dSrcB d) (8 * (n * tb)) b →
            let new (src q m j : Nat) := kvGroup w ((s.groupsAt c src .fp32 (n * tb)).getD (q * tb + m) [])
              (if dSr d then some (s.random c v (2 * tb * q + j + m) (dP1 d)) else none)
            let lo := x + bits (dDst d) 19 0
            let block (y : State) (q : Nat) : List Byte := y.wordsAt c (lo + q * headWords tb w) (headWords tb w)
            Touched s z c False
            ∧ (∀ y, (y < 32 * lo ∨ 32 * (lo + n * headWords tb w) ≤ y) → (z.core c).mem.read y = (s.core c).mem.read y)
            ∧ (∀ q m k, q < n → m < tb → k < 2 →
              headCodes (block z q) tb w false i m = (new a q m 0).1 ∧ headCodes (block z q) tb w true i m = (new b q m tb).1
              ∧ headScale (block z q) tb w false i (2 * m + k) = (new a q m 0).2.1.getD k 0
              ∧ headScale (block z q) tb w true i (2 * m + k) = (new b q m tb).2.1.getD k 0)
            ∧ (∀ q m k j side, q < n → m < tb → k < 2 → j < 64 → j ≠ i →
              headCodes (block z q) tb w side j m = headCodes (block s q) tb w side j m
              ∧ headScale (block z q) tb w side j (2 * m + k) = headScale (block s q) tb w side j (2 * m + k))))
      ∧ (dP0 d % 2 = 0 → r.sampleBlk + 18 ≤ scratchWords → let slots := bits (dP1 d) 10 0
          Operand s c v (dSrcA d) (8 * n) a → Operand s c v (dDst d) (1 + (slots + 3) / 4) t →
          let y := readSampling (s.wordsAt c r.sampleBlk 18)
          let slice := (List.range n).filterMap fun g => (s.sliceBase c v (a + 8 * g)).map fun base =>
            (base, (List.range 64).map fun e => tempered y (biased y (base + e) (wordAt ((s.groupsAt c a .fp32 n).getD g []) e)))
          let cands := slice.flatMap fun g => (List.range 64).map fun e => (wordAt g.2 e, g.1 + e)
          let m := (cands.map Prod.fst).foldl F32.maxW F32.negInf
          let sum := if m = F32.negInf then 0 else rowSum (slice.map fun g => g.2.map fun z => F32.exp (F32.sub z m))
          writes sampleRow (candidateRecord m sum c slots (topK (min (keepCount y) slots) cands)))
      ∧ (dP0 d % 2 = 1 → r.sampleBlk + 18 ≤ scratchWords → let words := 1 + (bits (dP1 d) 10 0 + 3) / 4;
          Operand s c v (dSrcA d) (n * words) a → Operand s c v (dDst d) 1 t →
          let tok := drawToken (readSampling (s.wordsAt c r.sampleBlk 18)) (r.pos + 1)
            ((List.range n).map fun i => readRecord (((s.wordsAt c a (n * words)).drop (32 * words * i)).take (32 * words)))
          let z := sampleRow c d s v
          Wrote s { z with sessions := s.sessions } c False t (leBytes 4 tok ++ List.replicate 28 0)
          ∧ z.sess r.session = (if !r.drop && decide (r.pos + 1 = (s.sess r.session).history.length) then { s.sess r.session with sampled := some tok }
              else s.sess r.session)
          ∧ ∀ k, k ≠ r.session → z.sess k = s.sess k))

/-- R91, R92, R98, R102, R103, R105, R109, R291, R294: SEND, SCATTER and DISPATCH put a row's words on the fabric as WRITE packets of at most 64 words with the
range's one tag and the row's drop bit; GATHER asks for its pieces by READ packets; a range of several tags is not sent and drops its row. An EXCH send
waits in the queue of 32, and a full queue drops its rows. RECV, REDUCE and GATHER complete once every word of every row has arrived, and wait
otherwise; at a deadline the rows with words missing are dropped and counted RECV_MISS (under REDUCE every row), and the operation completes; a faulty
range drops its row. A REDUCE combines its own partial with its children's in order, an absent child's partial being neutral; the root writes the result and
may broadcast it, another node sends it to its parent.
R91, R108, R199, R200: CLOUD_MOVE hands a row's transfer to the core's queue where the local range has the airspace's tag, and is counted and
refused otherwise; the first transfer of the queue, completing with every page present and inside the window, moves its words one way and changes
nothing else; one outside it is counted and moves none, and neither does one that failed; the steward reports which to the Zenith. -/
def Obligations.MovesAndCloudTransfersComplete : Prop :=
  (∀ (s : State) (c v a b t : Nat) (d : W256),
     let n := dCount d
     let r := s.row c v
     let act := (List.range (dRows d)).filter fun r => (s.row c r).valid
     let rows (g : State → Nat → State) : Host.Outcome State Fault Refusal := .next (act.foldl g s)
     let others (y z : State) : Prop := ∀ k, k ≠ c → z.core k = y.core k
     let miss := (Reg.Seq.RECV_MISS (coreField c) (coreNum c))
     let k := bits (dP1 d) 5 0 + 1
     let listWords := (4 * k + 31) / 32
     let addr (i : Nat) : Nat := (addressList (s.wordsAt c b listWords) k).getD i 0
     let lone (z : State) : Prop := (z.row c v).drop = true ∧ (z.core c).mem = (s.core c).mem ∧ others s z
     (dExch d = false → exec (.send c d) s = rows (sendRow c d)) ∧ exec (.scatter c d) s = rows (scatterRow c d) ∧ exec (.dispatch c d) s = rows (dispatchRow c d)
     ∧ exec (.recv c d) s = .next (s.awaitWords c d (bits (dP0 d) 15 0)) ∧ exec (.reduce c d) s = .next (s.awaitWords c d 0xFFFF)
     ∧ exec (.gather c d) s = .next ((act.foldl (gatherRow c d) s).awaitWords c d 0xFFFF)
     ∧ (dExch d = true → (s.core c).seq.exch.length < 32 → ∃ z, exec (.send c d) s = .next z ∧ z = { s with cores := z.cores } ∧ others s z
         ∧ z.core c = { s.core c with seq := { (s.core c).seq with exch := (s.core c).seq.exch ++ [((s.core c).seq.prog, d)] } })
     ∧ (dExch d = true → 32 ≤ (s.core c).seq.exch.length → ∃ z, exec (.send c d) s = .next z ∧ z = { s with cores := z.cores, regs := z.regs } ∧ others s z
         ∧ (∀ u, z.row c u = { s.row c u with drop := (s.row c u).drop || act.contains u }) ∧ (z.core c).seq = { (s.core c).seq with exchOverflow := true }
         ∧ (z.core c).mem = (s.core c).mem ∧ z.get miss ≠ 0 ∧ ∀ q, q ≠ miss.addr → z.reg q = s.reg q)
     ∧ (OpReady s c →
       (Operand s c v (dSrcA d) n a →
         let g := s.sendTarget c d
         (∀ tag, (s.core c).rangeTag a n = some tag → sendRow c d s v
           = { s with out := s.out ++ s.wordPackets c g.dest (g.addr + v * n) g.vc tag g.mcast r.drop (s.wordsAt c a n) })
         ∧ ((s.core c).rangeTag a n = none → lone (sendRow c d s v) ∧ (sendRow c d s v).out = s.out)
         ∧ (∀ tag m ids, (s.core c).rangeTag a n = some tag → Operand s c v (dSrcB d) 3 b → Operand s c v (dP0 d) 512 m →
           ids = ((List.range 16).map (choiceId (s.wordsAt c b 3))).filter (· ≠ 0xFFFF) → (∀ x ∈ ids, x < 4096) →
           let e (x : Nat) : Nat := leNat (((s.wordsAt c (m + x / 8) 1).drop (4 * (x % 8))).take 4)
           let sent (x : Nat) : List Out :=
             s.wordPackets c (bits (e x) 31 20) (bits (e x) 19 0 + v * n) 1 tag false r.drop (s.wordsAt c a n)
           dispatchRow c d s v = { s with out := s.out ++ ids.flatMap sent }))
       ∧ (∀ f row words, (f, row, words) ∈ [(dSrcA d, sendRow, n), (dSrcA d, scatterRow, n * k), (dDst d, gatherRow, n * k), (dSrcA d, dispatchRow, n)] →
           resolve f r v = some a → faulty f r a words = true → lone (row c d s v) ∧ (row c d s v).out = s.out
             ∧ (row c d s v).get (Reg.Seq.ADDR_FAULT (coreField c) (coreNum c)) ≠ 0)
       ∧ (Operand s c v (dP0 d) listWords b →
         (Operand s c v (dSrcA d) (n * k) a →
           (∀ tag : Nat → Nat, (∀ i, i < k → (s.core c).rangeTag (a + n * i) n = some (tag i)) →
             let piece (i : Nat) : List Out :=
               s.wordPackets c (bits (addr i) 31 20) (bits (addr i) 19 0) 1 (tag i) false r.drop (s.wordsAt c (a + n * i) n)
             scatterRow c d s v = { s with out := s.out ++ (List.range k).flatMap piece })
           ∧ ((∃ i, i < k ∧ (s.core c).rangeTag (a + n * i) n = none) → lone (scatterRow c d s v)))
         ∧ (Operand s c v (dDst d) (n * k) t →
           (∀ tag : Nat → Nat, (∀ i, i < k → (s.core c).rangeTag (t + n * i) n = some (tag i)) →
             let z := gatherRow c d s v
             let parts := (List.range k).flatMap fun i => (List.range ((n + 63) / 64)).map fun j =>
               (tag i, bits (addr i) 31 20, bits (addr i) 19 0 + 64 * j, min 64 (n - 64 * j), localOf (t + n * i + 64 * j))
             z = { s with cores := z.cores, out := z.out } ∧ others s z
             ∧ z.core c = { s.core c with remote := (s.core c).remote ++ parts.map fun p => ⟨p.2.1, p.2.2.1, p.2.2.2.1, p.2.2.2.2⟩ }
             ∧ z.out = s.out ++ parts.map fun p => .localPacket c (packetOf
                 { dest := p.2.1, addr := p.2.2.1, vc := 1, tag := p.1, placement := s.placementOf c, mcast := false, drop := false, ackreq := false
                   kind := 1, len := 0, src := c } (leBytes 4 p.2.2.2.2 ++ leBytes 2 p.2.2.2.1 ++ List.replicate 26 0)))
           ∧ ((∃ i, i < k ∧ (s.core c).rangeTag (t + n * i) n = none) → (gatherRow c d s v).row c v = { r with drop := true }
               ∧ ((gatherRow c d s v).core c).mem = (s.core c).mem)))
       ∧ (∀ m, Operand s c v (dSrcA d) (8 * n) a → let children := bits (dP0 d) 15 12; dOp d = 0x22 →
           children = 0 ∨ Operand s c v (dP1 d) (8 * n * children) m →
           let per := s.lseGroups c
           let late (i : Nat) : Bool := (List.range (8 * n)).any fun w => !((s.core c).seq.arrived.any fun e => e.1 = m + 8 * n * i + w)
           let acc := (List.range children).foldl (fun acc i => combineGroups (bits (dP0 d) 17 16) per acc
             (if late i then missingChild (bits (dP0 d) 17 16) per n else s.groupsAt c (m + 8 * n * i) .fp32 n)) (s.groupsAt c a .fp32 n)
           let out := acc.flatMap wordsBytes
           let z := reduceRow c d s v
           out.length = 256 * n →
           let parent := bits (dP0 d) 11 0
           (parent ≠ 0xFFF → (∀ tag, (s.core c).rangeTag a (8 * n) = some tag → z = { s with regs := z.regs, out := z.out } ∧ (∀ q, q ∉ opCounters c → z.reg q = s.reg q)
               ∧ z.out = s.out ++ s.wordPackets c parent (localOf (s.childSlot parent c v n)) 1 tag false r.drop out)
             ∧ ((s.core c).rangeTag a (8 * n) = none → lone z ∧ z.out = s.out))
           ∧ (parent = 0xFFF → Operand s c v (dDst d) (8 * n) t →
             (bits (dP0 d) 18 18 = 0 → Wrote s z c False t out)
             ∧ (bits (dP0 d) 18 18 = 1 → ∀ tag, (s.core c).rangeTag t (8 * n) = some tag → Wrote s { z with out := s.out } c False t out
                 ∧ let members := ((s.mcastGroup c (bits (dP2 d) 11 0)).map Prod.snd).getD []
                   let dests := members.filter fun m => decide (m ≠ s.nominalCore (s.field (coreField c)).placement c)
                   let at_ (m : Nat) : Nat := (s.memberDst c v n m).getD t
                   z.out = s.out ++ (if dests.all fun m => at_ m = t then
                       s.wordPackets c (1024 * s.placementOf c + bits (dP2 d) 11 0) (localOf t) 1 tag true r.drop out
                     else dests.flatMap fun m => s.wordPackets c m (localOf (at_ m)) 1 tag false r.drop out)))))
     ∧ (s.inbox c = c → ∀ deadline,
       let o := awaitedOperand d
       let bad (u : Nat) : Prop := o.2 ≠ 0 ∧ ∃ x, resolve o.1 (s.row c u) u = some x ∧ faulty o.1 (s.row c u) x o.2 = true
       let there : Prop := ∀ u ∈ act, ∀ w ∈ s.wordsDue c d u, ∃ e ∈ (s.core c).seq.arrived, e.1 = w
       let w : RecvWait := ⟨d, deadline, (s.core c).seq.cycle - 1⟩
       let z := s.awaitWords c d deadline
       ((∀ u ∈ act, ¬bad u) → ¬there → z = { s with cores := z.cores } ∧ others s z
         ∧ z.core c = { s.core c with seq := { (s.core c).seq with waits := (s.core c).seq.waits ++ [w] } })
       ∧ ((∀ u ∈ act, ¬bad u) → there → WaitDone c s w (max w.start (s.lastArrival c d)) z)
       ∧ ∀ u ∈ act, bad u → (z.row c u).drop = true ∧ z.get (Reg.Seq.ADDR_FAULT (coreField c) (coreNum c)) ≠ 0)
     ∧ ((s.core c).seq.firstDue = none → exec (.recvDeadline c) s = .next s)
     ∧ (∀ w, s.inbox c = c → (s.core c).seq.firstDue = some w →
       let mine := s.activeRows c w.d
       let late := mine.filter fun u => (s.wordsDue c w.d u).any fun x => !((s.core c).seq.arrived.any fun e => e.1 = x)
       let gone := if dOp w.d = 0x22 ∧ late ≠ [] then mine else late
       ∃ y z, y = { s with cores := y.cores, regs := (s.count miss late.length).regs } ∧ others s y
         ∧ y.core c = { s.core c with decRows := (y.core c).decRows, preRows := (y.core c).preRows }
         ∧ (∀ u, y.row c u = { s.row c u with drop := (s.row c u).drop || gone.contains u })
         ∧ WaitDone c y w (max w.start (if dOp w.d = 0x21 then w.deadline else (s.core c).seq.cycle)) z
         ∧ exec (.recvDeadline c) s = .next (z.tryEnd c) ∧ ((s.core c).seq.ending = false → z.tryEnd c = z)))
  ∧ (∀ (s : State) (c : Nat),
       (∀ v a (d : W256), exec (.cloudMove c d) s = .next (((List.range (dRows d)).filter fun r => (s.row c r).valid).foldl (cloudMoveRow c d) s)
         ∧ (let words := 64 * dCount d; let toCloud := decide (bits (dP1 d) 0 0 = 0); let z := cloudMoveRow c d s v;
           let o := if toCloud && bits (dSrcA d) 31 30 ≠ 3 then dSrcA d else dDst d
           (Operand s c v o words a →
             ((s.core c).rangeTag a words = some (bits (dP1 d) 3 1) → z = { s with cores := z.cores } ∧ (∀ k, k ≠ c → z.core k = s.core k)
               ∧ z.core c = { s.core c with cloud := (s.core c).cloud ++ [⟨bits (dP1 d) 3 1, toCloud, a, dP0 d, words⟩] })
             ∧ ((s.core c).rangeTag a words ≠ some (bits (dP1 d) 3 1) → z = s.bump (Reg.Core.FILTER (coreField c) (coreNum c))))
           ∧ (resolve o (s.row c v) v = some a → faulty o (s.row c v) a words = true → (z.row c v).drop = true ∧ (z.core c).cloud = (s.core c).cloud
             ∧ z.get (Reg.Seq.ADDR_FAULT (coreField c) (coreNum c)) ≠ 0)))
       ∧ (∀ x rest, (s.core c).cloud = x :: rest → let sp := s.asp x.airspace;
         let place (i : Nat) := s.cloudPage sp.stripes ((x.cloudWord + i) / 2048)
         let off (i base : Nat) : Nat := base + (x.cloudWord + i) % 2048 * 32
         let others (z : State) : Prop := ∀ k, k ≠ c → z.core k = s.core k
         let inside : Prop := ∀ i, i < x.words → (x.cloudWord + i) / 2048 < sp.window ∧ place i ≠ none
         (inside → sp.stripes.Nodup → x.toCloud = true → ∃ z, exec (.cloudMoveComplete c true) s = .next z
           ∧ z = { s with cores := z.cores, hbm := z.hbm, out := s.out ++ [.moveReport c true] } ∧ others z ∧ z.core c = { s.core c with cloud := rest }
           ∧ (∀ i st base, i < x.words → place i = some (st, base) → (z.stack st).mem.bytes (off i base) 32 = s.wordsAt c (x.localWord + i) 1)
           ∧ ∀ st, z.stack st = { s.stack st with mem := (z.stack st).mem } ∧ ∀ y,
               (∀ i base, i < x.words → place i = some (st, base) → y < off i base ∨ off i base + 32 ≤ y) → (z.stack st).mem.read y = (s.stack st).mem.read y)
         ∧ (inside → x.toCloud = false → (∀ b, b < 16 → (s.core c).bankUp b = true) → x.localWord + x.words ≤ scratchWords →
           ∃ z, exec (.cloudMoveComplete c true) s = .next z ∧ z = { s with cores := z.cores, out := s.out ++ [.moveReport c true] } ∧ others z
             ∧ z.core c = { s.core c with cloud := rest, mem := (z.core c).mem, scErr := (z.core c).scErr }
             ∧ (∀ i st base, i < x.words → place i = some (st, base) → z.wordsAt c (x.localWord + i) 1 = (s.stack st).mem.bytes (off i base) 32)
             ∧ ∀ y, (y < 32 * x.localWord ∨ 32 * (x.localWord + x.words) ≤ y) → (z.core c).mem.read y = (s.core c).mem.read y)
         ∧ (∀ ok, ¬inside ∨ ok = false → ∃ z, exec (.cloudMoveComplete c ok) s = .next z
             ∧ z = { s with cores := z.cores, regs := z.regs, out := s.out ++ [.moveReport c false] } ∧ others z ∧ z.core c = { s.core c with cloud := rest }
             ∧ (inside → z.regs = s.regs) ∧ (¬inside → z.regs = (s.bump (Reg.Core.FILTER (coreField c) (coreNum c))).regs)))
       ∧ ((s.core c).cloud = [] → ∀ ok, exec (.cloudMoveComplete c ok) s = .next s))

/-- R40, R41, R96-R101, R138, R265, R275: when each program of the tick begins, ends, waits, is cut or is abandoned, on its own core alone. A program whose
END waits ends with its last wait; one still running at its limit is abandoned, counted, its place recorded and every row dropped; two overruns at
the fence within 16 ticks fail the core; a queued send of the smallest OFFSET transfers first. -/
def Obligations.ProgramsRunInTheTick : Prop :=
  ∀ (s : State) (c : Nat) (d : W256),
    let k := s.core c
    let q := k.seq
    let pl := s.planOf c
    let f := coreField c
    let others (z : State) : Prop := ∀ n, n ≠ c → z.core n = s.core n
    let becomes (i : Instr) (seq : SeqSt) : Prop := ∃ z, exec i s = .next z ∧ z = { s with cores := z.cores } ∧ others z ∧ z.core c = { k with seq := seq }
    let limit := 48 + pl.d + k.extension
    let running (ps : List Nat) (cycle : Nat) (p : Nat) : Prop :=
      (q.prog = p ∧ p ∈ ps) ∨ (q.prog ∉ ps ∧ q.ended.1 = p ∧ p ∈ ps ∧ cycle < q.ended.2)
    let left (p : Nat) (z : State) : Prop :=
      z.get (Reg.Seq.ABANDON_PROG f (coreNum c)) = p % 16 ∧ z.get (Reg.Seq.ABANDON_PC f (coreNum c)) = q.pc % 4096
      ∧ z.get (Reg.Core.OVERRUN f (coreNum c)) ≠ 0 ∧ z.get Reg.Evc.OVERRUNS ≠ 0 ∧ z.get Reg.Tick.OVERRUN = 1
      ∧ ∀ a, a ∉ [Reg.Seq.ABANDON_PROG f (coreNum c), Reg.Seq.ABANDON_PC f (coreNum c), Reg.Core.OVERRUN f (coreNum c), Reg.Evc.OVERRUNS,
          Reg.Tick.OVERRUN].map Fld.addr → z.reg a = s.reg a
    let halted (p : Nat) : SeqSt := if q.prog = p then q.stopped else q
    -- the starts
    (s.coreRuns c = true → (0 < k.decode.len → becomes (.decodeStart c) { q.atProgram 1 k.decode.base 48 with decodeDone := false })
      ∧ (q.prog = 0 → becomes (.prefillStart c) (s.afterDecode c q))
      ∧ (1 ≤ q.prog → q.prog ≤ 3 → becomes (.prefillStart c) { q with prefillDue := true })
      ∧ (4 ≤ q.prog → exec (.prefillStart c) s = .next s))
    ∧ (s.coreRuns c = false ∨ k.decode.len = 0 → exec (.decodeStart c) s = .next s)
    ∧ (s.coreRuns c = false → exec (.prefillStart c) s = .next s)
    -- END
    ∧ (q.waits ≠ [] → becomes (.endProgram c d) { q with ending := true })
    ∧ (q.waits = [] → let t := q.flights.foldl (fun m x => max m x.ready) q.cycle;
        let y := if q.prog = 1 then s.streamShare c else s
        let e : SeqSt := { q with ended := (q.prog, t), ending := false, decodeDone := q.decodeDone || decide (q.prog ≤ 3) }
        let idle : SeqSt := { e with prog := 0, cycle := t, waitUntil := none }
        let next := if q.prog = 1 ∧ 0 < k.areaA.len then e.atProgram 2 k.areaA.base t
          else if (q.prog = 1 ∨ q.prog = 2) ∧ 0 < k.areaB.len then e.atProgram 3 k.areaB.base t
          else if q.prefillDue then s.afterDecode c idle else idle
        (q.prog = 1 → k.absShare = [] → y = s)
        ∧ ∃ z, exec (.endProgram c d) s = .next z ∧ z = { y with cores := z.cores } ∧ (∀ n, n ≠ c → z.core n = y.core n)
          ∧ z.core c = { y.core c with seq := next })
    -- waits for a cycle
    ∧ (let target := bits (dP0 d) 15 0 + (if bits (dP0 d) 16 16 = 1 then q.cycle else 0);
        (q.cycle < target → becomes (.waitCycle c d) { q with waitUntil := some target }) ∧ (target ≤ q.cycle → exec (.waitCycle c d) s = .next s))
    ∧ (∀ x, q.waitUntil = some x → becomes (.waitCycleExpiry c) { q with waitUntil := none, cycle := max q.cycle x })
    ∧ (q.waitUntil = none → exec (.waitCycleExpiry c) s = .next s)
    -- trouble and replay
    ∧ (OpReady s c → (∀ v ∈ s.activeRows c d, ∃ a, Operand s c v (dSrcA d) 1 a) →
        let found : Prop := ∃ v ∈ s.activeRows c d, (s.row c v).drop = false ∧ ∃ a, Operand s c v (dSrcA d) 1 a ∧ 0 < leNat ((s.wordsAt c a 1).take 2)
        let counts (z : State) (x : Fld) : Prop := z.get x ≠ 0 ∧ ∀ r, r ≠ x.addr → z.reg r = s.reg r
        (¬found → exec (.branchOnTrouble c d) s = .next s)
        ∧ (found → q.armed = none → q.replayed = false → ∃ z, exec (.branchOnTrouble c d) s = .next z ∧ z = { s with cores := z.cores, regs := z.regs }
          ∧ others z ∧ counts z (Reg.Seq.TROUBLE f (coreNum c))
          ∧ z.core c = { k with seq := { q with
              armed := some (bits (dP0 d) 11 0, bits (dP0 d) 31 16, decide (dP1 d % 2 = 1), q.prefillRows), lastEntry := some (bits (dP0 d) 11 0) } })
        ∧ (found → q.armed ≠ none ∨ q.replayed = true → ∃ z, exec (.branchOnTrouble c d) s = .next z ∧ z = { s with regs := z.regs }
          ∧ counts z (Reg.Seq.TROUBLE_ACCEPTED f (coreNum c))))
    ∧ (∀ entry len stage pre, q.armed = some (entry, len, stage, pre) → let start := 48 + pl.c + (if stage then s.stageExt c else s.extOf c);
        (start + len ≤ s.tick.period - 64 - pl.x → ∃ z, exec (.replayStart c) s = .next z ∧ z = { s with cores := z.cores, regs := z.regs } ∧ others z
          ∧ z.get (Reg.Seq.REPLAY_RUN f (coreNum c)) ≠ 0 ∧ (∀ r, r ≠ (Reg.Seq.REPLAY_RUN f (coreNum c)).addr → z.reg r = s.reg r)
          ∧ z.core c = { k with seq := { q.atProgram 5 (k.replay.base + entry) start with replayed := true, preReplay := pre, armed := none } })
        ∧ (s.tick.period - 64 - pl.x < start + len → ∃ z, exec (.replayStart c) s = .next z ∧ z = { s with cores := z.cores, regs := z.regs } ∧ others z
          ∧ z.get (Reg.Seq.REPLAY_SKIPPED f (coreNum c)) ≠ 0 ∧ z.get Reg.Evc.REPLAY_SKIPPED ≠ 0 ∧ z.get Reg.Tick.REPLAY_SKIPPED = 1
          ∧ z.core c = { k with seq := { q with armed := none } }))
    ∧ (q.armed = none → exec (.replayStart c) s = .next s)
    -- cut and abandoned programs
    ∧ (∀ p, running [1, 2, 3] limit p → ∃ z, exec (.decodeAbandon c) s = .next z ∧ z = { s with cores := z.cores, regs := z.regs } ∧ others z ∧ left p z
        ∧ z.core c = { k.marked with seq :=
            let e : SeqSt := { halted p with ended := (0, 0), cycle := if (halted p).prog = 0 then limit else q.cycle }
            if e.prog = 0 ∧ q.prefillDue = true then s.afterDecode c e else e })
    ∧ (∀ p, running [1, 2, 3, 4, 5, 7, 8] (s.tick.period - 64 - pl.x) p → let ticks := (s.tick.count :: k.overrunTicks).take 16;
        let e : SeqSt := { halted p with ended := (0, 0) }
        let two := decide (2 ≤ (ticks.filter fun t => s.tick.count < t + 16).length)
        (two = false ∨ k.state = .failed → ∃ z, exec (.exchangeFence c) s = .next z ∧ z = { s with cores := z.cores, regs := z.regs } ∧ others z ∧ left p z
          ∧ z.core c = { k.marked with seq := e, overrunTicks := ticks })
        ∧ (two = true → k.state ≠ .failed → ∃ z, exec (.exchangeFence c) s = .next z ∧ z = { s with cores := z.cores, regs := z.regs, fields := z.fields }
          ∧ others z ∧ left p z ∧ (∀ g, g ≠ f → z.field g = s.field g)
          ∧ z.core c = { k.marked with
              state := .failed, failOrder := min ((s.field f).failed.length + 1) 3, overrunTicks := ticks
              seq := { e.stopped with exch := [], prefillDue := false, armed := none } }
          ∧ z.field f = { s.field f with failed := (s.field f).failed ++ [coreNum c], absorb := (z.field f).absorb }
          ∧ (z.field f).absorb.map Absorb.core = (s.field f).absorb.map Absorb.core ++ [coreNum c]
          ∧ ∀ a ∈ (z.field f).absorb, a.tick = s.tick.count ∧ a.ordered = none))
    ∧ ((∀ p, ¬running [1, 2, 3] limit p) → exec (.decodeAbandon c) s = .next s)
    ∧ ((∀ p, ¬running [1, 2, 3, 4, 5, 7, 8] (s.tick.period - 64 - pl.x) p) → exec (.exchangeFence c) s = .next s)
    ∧ (running [6] (s.tick.period - 8) 6 → ∃ z, exec (.closingGuard c) s = .next z ∧ z = { s with cores := z.cores, regs := z.regs } ∧ others z
        ∧ left 6 z ∧ z.core c = { k with seq := { halted 6 with ended := (0, 0) } })
    ∧ (¬running [6] (s.tick.period - 8) 6 → exec (.closingGuard c) s = .next s)
    ∧ (let cutRows (z : State) : Prop := others z ∧ (z.core c).seq.prog = 0 ∧ (z.core c).seq.waits = [] ∧ (z.core c).seq.waitUntil = none
          ∧ ∀ v, (k.preRows.getD v {}).valid = true → ((z.core c).preRows.getD v {}).drop = true
        let n := (k.preRows.filter fun e => e.2.valid).length
        (q.prog = 4 → q.ending = false → s.inbox c = c → ∃ z, exec (.prefillIssueStop c) s = .next z ∧ z = { s with cores := z.cores, regs := z.regs }
          ∧ cutRows z ∧ z.get (Reg.Seq.PREFILL_CUT f (coreNum c)) ≠ 0 ∧ (∀ r, r ≠ (Reg.Seq.PREFILL_CUT f (coreNum c)).addr → z.reg r = s.reg r)
          ∧ z.core c = { k with preRows := (z.core c).preRows, seq := (z.core c).seq } ∧ (z.core c).seq.flights = q.flights
          ∧ (z.core c).seq.exch = q.exch ∧ (z.core c).seq.armed = q.armed
          ∧ ((k.preRows.map Prod.fst).Nodup → ∀ v, (k.preRows.getD v {}).valid = false → (z.core c).preRows.getD v {} = k.preRows.getD v {}))
        ∧ (∀ p, q.prog = 7 ∨ q.prog = 8 → q.ending = false → s.inbox c = c → (s.field f).placement = some p → let j := (s.plc p).tune;
          (k.preRows.map Prod.fst).Nodup →
          ∃ z, exec (.prefillIssueStop c) s = .next z ∧ z = { s with cores := z.cores, regs := z.regs, placements := z.placements }
          ∧ (z.core c).seq.prog = 0 ∧ (∀ v, (k.preRows.getD v {}).valid = true → ((z.core c).preRows.getD v {}).drop = true)
          ∧ (∀ m, m ≠ c → z.core m = { s.core m with mem := (z.core m).mem })
          ∧ (∀ e ∈ j.areas, ∀ y, 32 * e.2.2.1 ≤ y → y < 32 * e.2.2.1 + 2 * e.2.2.2 → (z.core e.1).mem.read y = 0)
          ∧ (∀ m y, (∀ e ∈ j.areas, e.1 = m → y < 32 * e.2.2.1 ∨ 32 * e.2.2.1 + 2 * e.2.2.2 ≤ y) → (z.core m).mem.read y = (s.core m).mem.read y)
          ∧ (z.get (Reg.Tune.STEP_REPEATED p) ≠ 0)
          ∧ (∀ r, r ≠ (Reg.Tune.TUNE_CUT p).addr → r ≠ (Reg.Tune.STEP_REPEATED p).addr → z.reg r = s.reg r)
          ∧ (∀ x, x ≠ p → z.plc x = s.plc x)
          ∧ z.plc p = { s.plc p with tune := { j with
              repeats := j.repeats + 1, totalRepeats := j.totalRepeats + 1, optimising := false, fwd := [], bwd := [], cellRows := [], assigned := []
              nextCells := [], optimised := [], st := if 3 ≤ j.repeats + 1 then .failed else j.st, cut := j.cut + n } })
        ∧ (q.ending = true ∨ (q.prog ≠ 4 ∧ q.prog ≠ 7 ∧ q.prog ≠ 8) → exec (.prefillIssueStop c) s = .next s))
    -- the exchange
    ∧ (q.exch = [] → exec (.exchQueueTransfer c) s = .next s)
    ∧ (q.exch ≠ [] → ∃ e y z, e ∈ q.exch ∧ (∀ x ∈ q.exch, bits (dP1 e.2) 15 0 ≤ bits (dP1 x.2) 15 0)
        ∧ q.exch.find? (fun x => bits (dP1 x.2) 15 0 = bits (dP1 e.2) 15 0) = some e
        ∧ y = { s with cores := y.cores } ∧ others y ∧ y.core c = { k with seq := { q with exch := q.exch.erase e, prog := e.1 } }
        ∧ exec (.exchQueueTransfer c) s = .next z ∧ z = { (y.activeRows c e.2).foldl (sendRow c e.2) y with cores := z.cores }
        ∧ (∀ n, n ≠ c → z.core n = ((y.activeRows c e.2).foldl (sendRow c e.2) y).core n)
        ∧ z.core c = { ((y.activeRows c e.2).foldl (sendRow c e.2) y).core c with
            seq := { (((y.activeRows c e.2).foldl (sendRow c e.2) y).core c).seq with prog := 0 } })

/-- R41, R63, R64, R85, R93, R96, R102: the next descriptor of a running program, if its check symbols are right or correctable, is issued: the program counter
moves on, timing alone is kept in the sequencer, and then the operation that the descriptor's code names is carried out as that operation's own command;
a corrected descriptor is counted and waits for the steward; an uncorrectable one stops the program as an overrun and waits for the steward, and two
such within 16 ticks fail the core; nothing issues while no program runs, while one waits, and while an operation that waits for words holds the
ranges. -/
def Obligations.IssueCarriesOutTheDescriptor : Prop :=
  ∀ (s : State) (c : Nat),
    let k := s.core c
    let q := k.seq
    let f := coreField c
    let d := k.code.getD q.pc 0
    let held : Prop := ∃ w ∈ q.waits, dSync d = true ∨ overlaps (s.opRanges c d).1 (s.opRanges c w.d).2 = true
      ∨ overlaps (s.opRanges c d).2 ((s.opRanges c w.d).1 ++ (s.opRanges c w.d).2) = true
    let others (z : State) : Prop := ∀ n, n ≠ c → z.core n = s.core n
    let ops : List (Nat × Instr) :=
      [(0x01, .endProgram c d), (0x02, .waitCycle c d), (0x03, .branchOnTrouble c d), (0x10, .matvec c d), (0x11, .matvecT c d), (0x12, .halo c d),
       (0x20, .send c d), (0x21, .recv c d), (0x22, .reduce c d), (0x23, .gather c d), (0x24, .scatter c d), (0x30, .norm c d), (0x31, .act c d),
       (0x32, .glu c d), (0x33, .rope c d), (0x34, .quant c d), (0x35, .check c d), (0x36, .vec c d), (0x37, .copy c d), (0x40, .score c d),
       (0x41, .softmaxOnline c d), (0x42, .value c d), (0x43, .kvAppend c d), (0x50, .gate c d), (0x51, .dispatch c d), (0x52, .combine c d),
       (0x60, .embed c d), (0x61, .logits c d), (0x62, .sample c d), (0x70, .stateScan c d), (0x78, .cloudMove c d)]
    (q.prog ≠ 0 → q.ending = false → q.waitUntil = none →
      (k.codeErr.getD q.pc 0 ≠ 2 → ¬held → ∃ y, y = { s with cores := y.cores, regs := y.regs } ∧ others y
        ∧ y.core c = { k with
            repairs := if k.codeErr.getD q.pc 0 = 1 then q.pc :: k.repairs else k.repairs
            seq := { q with
              pc := q.pc + 1, cycle := (y.core c).seq.cycle, flights := (y.core c).seq.flights, macEnd := (y.core c).seq.macEnd
              wrRank := (y.core c).seq.wrRank, wrCycle := (y.core c).seq.wrCycle } }
        ∧ y.regs = (if k.codeErr.getD q.pc 0 = 1 then s.bump (Reg.Core.SC_CORR f (coreNum c)) else s).regs
        ∧ q.cycle ≤ (y.core c).seq.cycle ∧ (dSync d = true → ∀ x ∈ q.flights, x.ready ≤ (y.core c).seq.cycle)
        ∧ (∀ x ∈ q.flights, overlaps (s.opRanges c d).1 x.writes = true ∨ overlaps (s.opRanges c d).2 (x.reads ++ x.writes) = true →
            x.ready ≤ (y.core c).seq.cycle)
        ∧ ∀ op i, (op, i) ∈ ops → dOp d = op → exec (.descriptorIssue c) s = exec i y)
      ∧ (k.codeErr.getD q.pc 0 ≠ 2 → held → exec (.descriptorIssue c) s = .next s)
      ∧ (k.codeErr.getD q.pc 0 = 2 → let ticks := (s.tick.count :: k.overrunTicks).take 16;
        let two := decide (2 ≤ (ticks.filter fun t => s.tick.count < t + 16).length)
        ∃ z, exec (.descriptorIssue c) s = .next z ∧ z = { s with cores := z.cores, regs := z.regs, fields := z.fields } ∧ others z
          ∧ (z.core c).repairs = q.pc :: k.repairs ∧ (z.core c).seq.prog = 0 ∧ (z.core c).dropped = true ∧ (z.core c).mem = k.mem
          ∧ (z.core c).decRows = k.marked.decRows ∧ (z.core c).preRows = k.marked.preRows ∧ (z.core c).overrunTicks = ticks
          ∧ (z.core c).state = (if two then .failed else k.state)
          ∧ z.get (Reg.Seq.ABANDON_PC f (coreNum c)) = q.pc % 4096 ∧ z.get (Reg.Core.OVERRUN f (coreNum c)) ≠ 0
          ∧ ((two = false ∨ k.state = .failed) → z.fields = s.fields)))
    ∧ (q.prog = 0 ∨ q.ending = true ∨ q.waitUntil ≠ none → exec (.descriptorIssue c) s = .next s)

/-- R340, R425: CAPABILITY, PMBUS_REVISION, MFR_ID and MFR_MODEL read their constants on any page, VOUT_MODE 0x14 on pages 2-23, where Standby reads
0; a read on a page that the command does not have is a fault of communication; a read changes nothing in the module, and nothing answers without
auxiliary input or in ROM recovery.
R339, R340, R425: the status commands read the page's status byte on pages 0-23; STATUS_WORD sums them up, bit 15 output voltage, bit 14 output
current, bit 13 input, bits 11 and 6 a converter that is off, bit 4 IOUT_OC_FAULT, bit 3 VIN_UV_FAULT, bit 2 temperature, bit 1 communication, the
others 0 (the bits are the model's, assumption log 61).
R339, R340, R425: each reading answers on the pages that have it, in LINEAR11 or LINEAR16, from what the module measured, and 0 on pages 2-23 in
Standby; MFR_CAP_EFFECTIVE and MFR_LADDER give the cap in force and the ladder position. Nothing in the module changes (an input current of a page
other than 0 is a free value, assumption log 60, and moves the model's own counter). -/
def Obligations.PmbusReadsComplete : Prop :=
  (∀ s : State,
     PmReads .capability s 0x19 True [0xB0]
     ∧ PmReads .pmbusRevision s 0x98 True [0x33]
     ∧ PmReads .mfrId s 0x99 True [7, 0x49, 0x4C, 0x55, 0x4E, 0x41, 0x54, 0x48]
     ∧ PmReads .mfrModel s 0x9A True [10, 0x59, 0x47, 0x4E, 0x2D, 0x32, 0x36, 0x38, 0x38, 0x2D, 0x41]
     ∧ PmReads .voutMode s 0x20 (2 ≤ s.mgmt.page ∧ s.mgmt.page ≤ 23) (s.paged [0x14]))
  ∧ (∀ s : State,
       let p := s.mgmt.page
       let byte (t : Tbl Nat) : List Byte := s.paged [BitVec.ofNat 8 (t.getD p 0)]
       let m := s.mgmt
       PmReads .statusVout s 0x7A (p ≤ 23) (byte m.statusVout)
       ∧ PmReads .statusIout s 0x7B (p ≤ 23) (byte m.statusIout)
       ∧ PmReads .statusInput s 0x7C (p ≤ 23) (byte m.statusInput)
       ∧ PmReads .statusTemperature s 0x7D (p ≤ 23) (byte m.statusTemp)
       ∧ PmReads .statusCml s 0x7E (p ≤ 23) (byte m.statusCml)
       ∧ ∃ w : Nat, PmReads .statusWord s 0x79 (p ≤ 23) (s.paged (leBytes 2 w)) ∧ w < 65536
           ∧ (w.testBit 15 = true ↔ m.statusVout.getD p 0 ≠ 0)
           ∧ (w.testBit 14 = true ↔ m.statusIout.getD p 0 ≠ 0)
           ∧ (w.testBit 13 = true ↔ m.statusInput.getD p 0 ≠ 0)
           ∧ (w.testBit 11 = true ↔ 2 ≤ p ∧ p ≤ 23 ∧ p - 2 ∉ s.power.segOn)
           ∧ w.testBit 6 = w.testBit 11
           ∧ w.testBit 4 = (m.statusIout.getD p 0).testBit 7
           ∧ w.testBit 3 = (m.statusInput.getD p 0).testBit 4
           ∧ (w.testBit 2 = true ↔ m.statusTemp.getD p 0 ≠ 0)
           ∧ (w.testBit 1 = true ↔ m.statusCml.getD p 0 ≠ 0)
           ∧ ∀ i ∈ [0, 5, 7, 8, 9, 10, 12], w.testBit i = false)
  ∧ (∀ s : State,
       let p := s.mgmt.page
       let seg : Prop := 2 ≤ p ∧ p ≤ 23
       let say (n d : Nat) : List Byte := leBytes 2 (linear11 n d)
       let volt := s.get (Reg.Pow.VOUT (p - 2))
       let amp := s.get (Reg.Pow.IOUT (p - 2))
       PmReads .readVin s 0x88 (p ≤ 23) (s.paged (say (if p = 1 then s.power.auxV else s.power.vin) 1000))
       ∧ (p = 0 ∨ 23 < p → PmReads .readIin s 0x89 (p = 0) (say s.power.iin 10))
       ∧ (seg → s.start.power = .standby → PmReads .readIin s 0x89 True [0, 0])
       ∧ (1 ≤ p → p ≤ 23 → ¬(seg ∧ s.start.power = .standby) → (¬s.pmServes → exec .readIin s = .next s)
         ∧ (s.pmServes → ∃ n, exec .readIin s = .next { s with freeUses := s.freeUses + 1, out := s.out ++ [.pmbus 0x89 (say n 10)] }))
       ∧ PmReads .readVout s 0x8B seg (s.paged (leBytes 2 (volt * 4096 / 1000)))
       ∧ PmReads .readIout s 0x8C seg (s.paged (say amp 10))
       ∧ PmReads .readTemperature1 s 0x8D seg (s.paged (say (s.get (Reg.Pow.TEMP (p - 2))) 1))
       ∧ PmReads .readPout s 0x96 seg (s.paged (say (volt * amp) 10000))
       ∧ PmReads .readPin s 0x97 (p ≤ 1) (if p = 0 then say s.power.p100 1 else say (s.get Reg.Pow.AUX_P) 10)
       ∧ PmReads .mfrCapEffective s 0xD1 (p = 0) (say s.power.capEff 1)
       ∧ PmReads .mfrLadder s 0xD2 (p = 0) [BitVec.ofNat 8 s.power.ladder])

/-- R339: LINEAR11 of n / d in W, read back by its definition (mantissa times 2 to the exponent), is within one unit of its last place
below n / d, and its mantissa is as long as it can be. -/
def Obligations.LinearElevenIsNearestBelow : Prop :=
  ∀ n d : Nat, 0 < d → n < 1024 * 2 ^ 15 * d →
    let w := linear11 n d
    let e := (w / 2048 + 16) % 32
    let m := w % 2048
    w < 65536 ∧ m ≤ 1023 ∧ m * 2 ^ e * d ≤ n * 2 ^ 16 ∧ n * 2 ^ 16 < (m + 1) * 2 ^ e * d ∧ (e = 0 ∨ 512 ≤ m)

/-- R339, R340, R343, R397, R425: PAGE reads the page and selects pages 0-23 or all of them, any other being invalid data; CLEAR_FAULTS empties the
page's status bits, all of them on page 0xFF, and releases SMBALERT# when none is left; MFR_POWER_CAP on page 0 reads the BMC's cap, and a write of 0
or of 6,000-21,000 W waits for the control slot, in Standby acts at once, any other value is invalid data; the alert response gives the address and
releases PWR_ALERT_N; an unlisted command, and a page that has no such command, is a fault of communication. Nothing answers without auxiliary input
or in ROM recovery. -/
def Obligations.PmbusWritesComplete : Prop :=
  ∀ (s : State) (n : Nat),
    let p := s.mgmt.page
    let faults (i : Instr) (command b : Nat) : Prop := ∃ t, exec i s = .next t ∧ PmFaulted s t command b
    (¬s.pmServes → ∀ i ∈ [Instr.page none, .page (some n), .clearFaults, .mfrPowerCap none, .mfrPowerCap (some n), .smbusAlertResponse,
      .pmbusUnsupported n], exec i s = .next s)
    ∧ (s.pmServes →
      PmReads (.page none) s 0x00 True [BitVec.ofNat 8 p]
      ∧ ((n ≤ 23 ∨ n = 0xFF) → exec (.page (some n)) s = .next { s with mgmt := { s.mgmt with page := n } })
      ∧ (23 < n → n ≠ 0xFF → faults (.page (some n)) 0x00 6)
      ∧ (∃ t, exec .clearFaults s = .next t
        ∧ (∀ q, q = p ∨ p = 0xFF →
            t.mgmt.statusInput.find q = none ∧ t.mgmt.statusIout.find q = none ∧ t.mgmt.statusCml.find q = none
            ∧ t.mgmt.statusTemp.find q = none ∧ t.mgmt.statusVout.find q = none)
        ∧ (∀ q, q ≠ p → p ≠ 0xFF →
            t.mgmt.statusInput.find q = s.mgmt.statusInput.find q ∧ t.mgmt.statusIout.find q = s.mgmt.statusIout.find q
            ∧ t.mgmt.statusCml.find q = s.mgmt.statusCml.find q ∧ t.mgmt.statusTemp.find q = s.mgmt.statusTemp.find q
            ∧ t.mgmt.statusVout.find q = s.mgmt.statusVout.find q)
        ∧ t.mgmt = { s.mgmt with
            statusInput := t.mgmt.statusInput, statusIout := t.mgmt.statusIout, statusCml := t.mgmt.statusCml, statusTemp := t.mgmt.statusTemp
            statusVout := t.mgmt.statusVout }
        ∧ (let left : Prop := ∃ l ∈ [t.mgmt.statusInput, t.mgmt.statusIout, t.mgmt.statusCml, t.mgmt.statusTemp, t.mgmt.statusVout],
            ∃ e ∈ l, e.2 ≠ 0
          (left ∨ s.power.alert = false → t = { s with mgmt := t.mgmt })
          ∧ (¬left → s.power.alert = true → t.get Reg.Pow.ALERT = 0 ∧ (∀ a, a ≠ Reg.Pow.ALERT.addr → t.reg a = s.reg a)
            ∧ t = { s with mgmt := t.mgmt, power := { s.power with alert := false }, regs := t.regs, out := s.out ++ [.pin "PWR_ALERT_N" false] })))
      ∧ PmReads (.mfrPowerCap none) s 0xD0 (p = 0) (leBytes 2 (linear11 (s.power.bmcCap.getD 0) 1))
      ∧ (n < 65536 →
        -- what the word says in W, where that is a whole number of 0 or more
        let watts : Option Nat := fromLinear11 n
        let fits (w : Nat) : Prop := w = 0 ∨ (6000 ≤ w ∧ w ≤ 21000)
        (p ≠ 0 → faults (.mfrPowerCap (some n)) 0xD0 7)
        ∧ (p = 0 → (∀ w, watts = some w → ¬fits w) → faults (.mfrPowerCap (some n)) 0xD0 6)
        ∧ (∀ w, p = 0 → watts = some w → fits w →
          (s.start.power ≠ .standby → exec (.mfrPowerCap (some n)) s
            = .next { s with host := { s.host with bmcQueue := s.host.bmcQueue ++ [.capWord w] } })
          ∧ (s.start.power = .standby → ∃ t, exec (.mfrPowerCap (some n)) s = .next t ∧ t.get Reg.Pow.CAP_EFF = t.power.capEff % 2 ^ 32
            ∧ t.power = { s.power with bmcCap := if w = 0 then none else some w, capEff := t.power.capEff }
            ∧ t = { s with power := t.power, regs := t.regs }
            ∧ ∀ a, a ≠ Reg.Pow.CAP_EFF.addr → a ≠ Reg.Pow.CAP_SRC.addr → t.reg a = s.reg a)))
      ∧ (s.power.alert = true → ∃ t, exec .smbusAlertResponse s = .next t ∧ t.get Reg.Pow.ALERT = 0
        ∧ (∀ a, a ≠ Reg.Pow.ALERT.addr → t.reg a = s.reg a)
        ∧ t = { s with
            power := { s.power with alert := false }, regs := t.regs, out := s.out ++ [.alertAddress 0x40, .pin "PWR_ALERT_N" false] })
      ∧ (s.power.alert = false → exec .smbusAlertResponse s = .next s)
      ∧ faults (.pmbusUnsupported n) n 7)
    ∧ (∀ w < 65536, ∀ v, fromLinear11 w = some v ↔ w % 2048 < 1024 ∧
        let e := w / 2048
        if e < 16 then v = w % 2048 * 2 ^ e else v * 2 ^ (32 - e) = w % 2048)

/-- R421, R425-R427: a binding that does not answer (SMBus without auxiliary input, PCI Express without its link, any other) takes no MCTP, PLDM or
SPDM request. On one that does the five control commands are answered, Set Endpoint ID 1-254 alone changing anything, the binding's endpoint ID, any
other ID being refused; message types 0x00, 0x01, 0x05 and 0x7E on SMBus and 0x00 and 0x05 on PCI Express, another type's version refused. The message
and completion codes are DMTF's (assumption log 62).
R427: over SMBus PLDM answers discovery (types 0 and 2) and the readings of its ten sensors without any effect; a lost source (a temperature of
0x8000, a flow missed three times) reads unavailable, and another sensor does not exist; the event receiver set by SetEventReceiver gets every
unacknowledged message again at a retry, at most ten times, and an acknowledgement removes the oldest. -/
def Obligations.MctpAndPldmRequestsComplete : Prop :=
  (∀ (s : State) (b eid typ : Nat),
     let answers (b : Nat) : Prop := s.start.power ≠ .off ∧ (b = 1 ∨ (b = 0 ∧ s.host.linkUp = true))
     (¬answers b → ∀ i : Instr, (i ∈ [.setEndpointId b eid, .getEndpointId b, .getEndpointUuid b, .getMctpVersionSupport b typ, .getMessageTypeSupport b,
         .getVersion b, .getCapabilities b, .getDigests b, .spdmUnsupportedRequest b typ]
       ∨ (∃ x y, i = .negotiateAlgorithms b x y) ∨ (∃ x y z, i = .getCertificate b x y z) ∨ (∃ x y, i = .challenge b x y)
       ∨ (∃ x y z, i = .getMeasurements b x y z)
       ∨ (b = 1 ∧ (i = .pldmBaseDiscovery typ ∨ i = .setEventReceiver eid ∨ ∃ x, i = .pldmMonitoringRequest x typ))) → exec i s = .next s)
     ∧ (answers b →
       let types : List Byte := if b = 0 then [0x00, 0x05] else [0x00, 0x01, 0x05, 0x7E]
       (1 ≤ eid → eid ≤ 254 → ∃ t, exec (.setEndpointId b eid) s = .next t
           ∧ t = { s with mgmt := { s.mgmt with eid := t.mgmt.eid }, out := s.out ++ [.mctp b 0x01 [0, BitVec.ofNat 8 eid]] }
           ∧ t.mgmt.eid.getD b 0 = eid ∧ ∀ o, o ≠ b → t.mgmt.eid.getD o 0 = s.mgmt.eid.getD o 0)
       ∧ (eid = 0 ∨ 254 < eid → exec (.setEndpointId b eid) s = .next (s.emit (.mctp b 0x01 [2, BitVec.ofNat 8 (s.mgmt.eid.getD b 0)])))
       ∧ exec (.getEndpointId b) s = .next (s.emit (.mctp b 0x02 [0, BitVec.ofNat 8 (s.mgmt.eid.getD b 0)]))
       ∧ exec (.getEndpointUuid b) s = .next (s.emit (.mctp b 0x03 (0 :: leBytes 16 Config.endpointUuid)))
       ∧ (typ < 256 → exec (.getMctpVersionSupport b typ) s
           = .next (s.emit (.mctp b 0x04 (if typ = 0xFF ∨ BitVec.ofNat 8 typ ∈ types then [0, 1, 1, 3] else [0x80]))))
       ∧ exec (.getMessageTypeSupport b) s = .next (s.emit (.mctp b 0x05 (0 :: BitVec.ofNat 8 types.length :: types)))))
  ∧ (∀ (s : State) (c n r : Nat),
       (s.start.power ≠ .off →
         let asks (n : Nat) (d : List Byte) : Prop := exec (.pldmMonitoringRequest c n) s = .next (s.emit (.pldm c d))
         let reads (n : Nat) (v : Nat) : Prop := asks n (0 :: 0 :: leBytes 4 v)
         let lost (n : Nat) : Prop := asks n (0 :: 3 :: leBytes 4 0)
         let warm (n : Nat) (f : Fld) : Prop := if s.get f = 0x8000 then lost n else reads n (s.get f)
         exec (.pldmBaseDiscovery c) s = .next (s.emit (.pldm c (if c = 4 then [0, 0x05] else [0])))
         ∧ warm 1 Reg.Therm.INLET ∧ warm 2 Reg.Therm.OUTLET ∧ (if 3 ≤ s.thermal.flowFails then lost 3 else reads 3 (s.get Reg.Therm.FLOW))
         ∧ warm 4 Reg.Therm.TJ_MAX ∧ reads 5 (s.get Reg.Pow.PIN_10MS) ∧ reads 6 (s.get Reg.Pow.CAP_EFF) ∧ reads 7 (s.get Reg.Therm.LIFE)
         ∧ reads 32 s.health.st ∧ reads 33 (s.get Reg.Glob.POWER_STATE) ∧ reads 34 (if s.thermal.trip then 1 else 0)
         ∧ (n ∉ [1, 2, 3, 4, 5, 6, 7, 32, 33, 34] → asks n [0x80])
         ∧ exec (.setEventReceiver r) s = .next { s with mgmt := { s.mgmt with receiver := some r }, out := s.out ++ [.pldm 0x04 [0]] })
       ∧ (s.mgmt.receiver = none → exec .platformEventRetry s = .next s)
       ∧ (s.mgmt.receiver = some r →
         let due := s.mgmt.events.filter fun e => e.2.2.2 ≤ 10
         exec .platformEventRetry s = .next { s with
           out := s.out ++ due.map fun e => .platformEvent r e.1 e.2.1 e.2.2.1
           mgmt := { s.mgmt with events := due.map fun e => (e.1, e.2.1, e.2.2.1, e.2.2.2 + 1) } })
       ∧ exec .platformEventAck s = .next { s with mgmt := { s.mgmt with events := s.mgmt.events.tail } })

/-- R421: each binding keeps its own SPDM connection. GET_VERSION starts it, GET_CAPABILITIES and NEGOTIATE_ALGORITHMS (both algorithms
or none) advance it, and a request out of this order is answered ERROR UnexpectedRequest and changes nothing (the order and the codes
are DSP0274's, assumption log 62). No request moves the other binding's connection.
R420-R422, R431: on an established connection GET_DIGESTS gives the digest of slot 0, GET_CERTIFICATE a portion of the chain of slot 0 with what
remains, CHALLENGE a signature over the nonce and the answer, GET_MEASUREMENTS the number of blocks, one block or all of them, signed where asked; a
slot other than 0, an offset beyond the chain and a block that does not exist are errors. Blocks 1 to 5 are digests of the boot ROM and the running
image's components, 6 the security state, 7 a digest of what is stored, 16 to 23 the airspaces, 24 to 27 the placements. While debug is open CHALLENGE
and signed measurements are answered ERROR Unspecified; any other request ERROR UnsupportedRequest. Only the model's own counter of free values may
move (the responder's nonce, assumption log 62). -/
def Obligations.SpdmConversationGivesEvidence : Prop :=
  (∀ (s : State) (b : Nat) (rsa sha : Bool), s.start.power ≠ .off → (b = 1 ∨ (b = 0 ∧ s.host.linkUp = true)) →
     let stage := s.mgmt.spdm.getD b 0
     let error (e : Byte) : Host.Outcome State Fault Refusal := .next (s.emit (.spdm b 0x7F [e]))
     let moves (o : Host.Outcome State Fault Refusal) (k code : Nat) (d : List Byte) : Prop := ∃ t, o = .next t
       ∧ t = { s with mgmt := { s.mgmt with spdm := t.mgmt.spdm }, out := s.out ++ [.spdm b code d] }
       ∧ t.mgmt.spdm.getD b 0 = k ∧ ∀ o, o ≠ b → t.mgmt.spdm.getD o 0 = s.mgmt.spdm.getD o 0
     moves (exec (.getVersion b) s) 1 0x04 [1, 0x00, 0x12]
     ∧ (1 ≤ stage → moves (exec (.getCapabilities b) s) 2 0x61 (leBytes 4 0x16))
     ∧ (stage < 1 → exec (.getCapabilities b) s = error 0x04)
     ∧ (2 ≤ stage → rsa = true → sha = true → moves (exec (.negotiateAlgorithms b rsa sha) s) 3 0x63 (leBytes 4 0x40 ++ leBytes 4 0x04))
     ∧ (2 ≤ stage → ¬(rsa = true ∧ sha = true) → exec (.negotiateAlgorithms b rsa sha) s = error 0x01)
     ∧ (stage < 2 → exec (.negotiateAlgorithms b rsa sha) s = error 0x04)
     ∧ (stage < 3 → ∀ slot offset length index nonce signed,
         exec (.getDigests b) s = error 0x04 ∧ exec (.getCertificate b slot offset length) s = error 0x04
         ∧ exec (.challenge b slot nonce) s = error 0x04 ∧ exec (.getMeasurements b index signed nonce) s = error 0x04))
  ∧ (∀ (s : State) (b slot offset length i code : Nat) (nonce : List Byte), s.start.power ≠ .off → (b = 1 ∨ (b = 0 ∧ s.host.linkUp = true)) →
       let chain := Config.certificateChain
       let tells (o : Host.Outcome State Fault Refusal) (code : Nat) (d : List Byte) : Prop := o = .next (s.emit (.spdm b code d))
       let fails (o : Host.Outcome State Fault Refusal) (e : Byte) : Prop := tells o 0x7F [e]
       -- an answer with the responder's nonce behind it and a signature over both nonces
       let signs (o : Host.Outcome State Fault Refusal) (code : Nat) (body : List Byte) : Prop := ∃ mine : List Byte, mine.length = 32
         ∧ o = .next { s with
             freeUses := s.freeUses + 1, out := s.out ++ [.spdm b code (body ++ mine ++ Config.identitySign (nonce ++ (body ++ mine)))] }
       let challenge := exec (.challenge b slot nonce) s
       let certificate := exec (.getCertificate b slot offset length) s
       let measures (i : Nat) := exec (.getMeasurements b i false nonce) s
       let full (h : Option (List Byte)) : List Byte := ((h.getD []) ++ List.replicate 64 0).take 64
       let running := s.boot.info s.boot.bootImage
       let flag (x : Bool) : Byte := if x then 1 else 0
       tells (exec (.spdmUnsupportedRequest b code) s) 0x7F [0x07, BitVec.ofNat 8 code]
       ∧ (3 ≤ s.mgmt.spdm.getD b 0 →
         tells (exec (.getDigests b) s) 0x01 (0x01 :: sha512 chain)
         ∧ (slot ≠ 0 ∨ chain.length ≤ offset → fails certificate 0x01)
         ∧ (slot = 0 → offset < chain.length → ∃ part rest, part ++ rest = chain.drop offset ∧ part.length = min length (chain.length - offset)
           ∧ tells certificate 0x02 (0 :: leBytes 2 part.length ++ leBytes 2 rest.length ++ part))
         ∧ (s.boot.debugOpen = true → fails challenge 0x05 ∧ fails (exec (.getMeasurements b i true nonce) s) 0x05)
         ∧ (s.boot.debugOpen = false → (slot ≠ 0 → fails challenge 0x01) ∧ (slot = 0 → signs challenge 0x03 (sha512 chain)))
         -- the blocks
         ∧ (let blocks : List Nat := [1, 2, 3, 4, 5, 6, 7, 16, 17, 18, 19, 20, 21, 22, 23, 24, 25, 26, 27]
           ∃ value : Nat → List Byte,
             let body (want : List Nat) : List Byte := BitVec.ofNat 8 want.length :: want.flatMap fun k =>
               BitVec.ofNat 8 k :: leBytes 2 (value k).length ++ value k
             let answer : List Byte := if i = 0 then [19] else if i = 0xFF then body blocks else body [i]
             (i ≠ 0 → i ≠ 0xFF → i ∉ blocks → fails (measures i) 0x01
               ∧ (s.boot.debugOpen = false → fails (exec (.getMeasurements b i true nonce) s) 0x01))
             ∧ (i = 0 ∨ i = 0xFF ∨ i ∈ blocks → tells (measures i) 0x60 answer
               ∧ (s.boot.debugOpen = false → signs (exec (.getMeasurements b i true nonce) s) 0x60 answer))
             ∧ value 1 = Config.romDigest
             ∧ (∀ k, 2 ≤ k → k ≤ 5 → value k = full ((running.hashes.find? fun e => e.1 = k - 1).map Prod.snd))
             ∧ value 6 = [BitVec.ofNat 8 s.boot.counter, BitVec.ofNat 8 s.boot.revoked, BitVec.ofNat 8 s.boot.keySlot, BitVec.ofNat 8 s.boot.bootImage,
                 BitVec.ofNat 8 running.svn, flag s.boot.debugOpen, flag s.boot.wpOpen] ++ List.replicate 9 0
             ∧ value 7 = sha512 (Config.storedForm s.stored)
             ∧ (∀ a, a < 8 →
               let x := s.asp a
               let live := x.placement.bind fun p => if (s.plc p).live then (s.plc p).image else none
               value (16 + a) = BitVec.ofNat 8 (x.placement.getD 0xFF) :: List.replicate 7 0 ++ leBytes 8 ((live.map (·.imageId)).getD 0)
                 ++ leBytes 4 ((live.map (·.version)).getD 0) ++ List.replicate 4 0 ++ full (live.map (·.headerHash))
                 ++ full ((x.keys.find 0).map sha512) ++ full ((x.keys.find 1).map sha512) ++ full ((x.keys.find 2).map sha512)
                 ++ full ((x.keys.find 3).map sha512))
             ∧ (∀ p, p < 4 →
               let y := s.plc p
               value (24 + p) = [flag y.live, BitVec.ofNat 8 y.liveBank, BitVec.ofNat 8 y.imageState.code] ++ List.replicate 5 0
                 ++ full (if y.live then y.image.map (·.headerHash) else none)
                 ++ full (if y.imageState = .staged ∨ y.imageState = .previous then y.staged.map (·.headerHash) else none)))))

/-- R430, R431: IDCODE, BYPASS and SAMPLE/PRELOAD always; EXTEST drives the preloaded signals in Standby and ROM recovery; FLASH_PROG writes a
code area there with FLASH_WP_N released, as far as the device reaches; otherwise these, and DEBUG without an accepted token, act as BYPASS. A token for
this module, signed under an unrevoked slot and given before the boot ROM has run after a cold reset, opens debug; any other does nothing. -/
def Obligations.TestPortInstructionsComplete : Prop :=
  ∀ (s : State) (tdi pins : List Bool) (image offset slot : Nat) (serial : W64) (data token sig : List Byte),
    let free := s.start.power = .standby ∨ s.boot.recovery = true
    let asBypass : Host.Outcome State Fault Refusal := .next ({ s with mgmt := { s.mgmt with extest := false } }.emit (.jtag []))
    exec .idcode s = .next { s with
        mgmt := { s.mgmt with extest := false }, out := s.out ++ [.jtag ((List.range 32).map fun i => (0x12688A93#32).getLsbD i)] }
    ∧ exec (.bypass []) s = asBypass
    ∧ (∀ b, exec (.bypass (tdi ++ [b])) s = .next { s with
        mgmt := { s.mgmt with tdo := b, extest := false }, out := s.out ++ [.jtag (false :: tdi)] })
    ∧ exec (.samplePreload pins) s = .next { s with mgmt := { s.mgmt with scan := pins, extest := false }, out := s.out ++ [.jtag pins] }
    ∧ (free → exec .extest s = .next { s with mgmt := { s.mgmt with extest := true }, out := s.out ++ [.jtag s.mgmt.scan] })
    ∧ (¬free → exec .extest s = asBypass)
    ∧ (¬free ∨ s.boot.wpOpen = false ∨ 1 < image ∨ 16777216 < offset + data.length → exec (.flashProg image offset data) s = asBypass)
    ∧ (free → s.boot.wpOpen = true → offset + data.length ≤ 16777216 →
        exec (.flashProg 0 offset data) s
          = .next { s with boot := { s.boot with area0 := ⟨false, s.boot.area0.bytes.writeBytes offset data⟩ } }
        ∧ exec (.flashProg 1 offset data) s
          = .next { s with boot := { s.boot with area1 := ⟨false, s.boot.area1.bytes.writeBytes offset data⟩ } })
    ∧ (s.boot.debugOpen = false → exec .debug s = asBypass)
    ∧ (let accepted : Prop := s.start.power ≠ .off ∧ s.boot.romDone = false ∧ s.start.resetCause = 0 ∧ serial = Config.serial ∧ slot < 4
          ∧ s.boot.revokedSlot slot = false ∧ Config.debugSigned slot token sig = true;
        (accepted → ∃ t, exec (.debugToken serial slot token sig) s = .next t ∧ t.get Reg.Sec.DEBUG_OPEN = 1
          ∧ t = { s with boot := { s.boot with debugOpen := true }, regs := t.regs } ∧ ∀ a, a ≠ Reg.Sec.DEBUG_OPEN.addr → t.reg a = s.reg a)
        ∧ (¬accepted → exec (.debugToken serial slot token sig) s = .next s))

end
end

