-- ==== Sys2Proof/Laws/State.lean ====
section
/-! SUPPORT. What every named update of State does to every field: one lemma per field and update, so that no proof unfolds a record
update. -/

namespace Sys2Proof.Machine

variable (s : State)

/-! ### setReg -/

@[simp] theorem State.setReg_regs (a : Nat) (v : W32) : (s.setReg a v).regs = s.regs.set a v := rfl
@[simp] theorem State.setReg_windows (a : Nat) (v : W32) : (s.setReg a v).windows = s.windows := rfl
@[simp] theorem State.setReg_tick (a : Nat) (v : W32) : (s.setReg a v).tick = s.tick := rfl
@[simp] theorem State.setReg_start (a : Nat) (v : W32) : (s.setReg a v).start = s.start := rfl
@[simp] theorem State.setReg_power (a : Nat) (v : W32) : (s.setReg a v).power = s.power := rfl
@[simp] theorem State.setReg_thermal (a : Nat) (v : W32) : (s.setReg a v).thermal = s.thermal := rfl
@[simp] theorem State.setReg_fields (a : Nat) (v : W32) : (s.setReg a v).fields = s.fields := rfl
@[simp] theorem State.setReg_cores (a : Nat) (v : W32) : (s.setReg a v).cores = s.cores := rfl
@[simp] theorem State.setReg_placements (a : Nat) (v : W32) : (s.setReg a v).placements = s.placements := rfl
@[simp] theorem State.setReg_airspaces (a : Nat) (v : W32) : (s.setReg a v).airspaces = s.airspaces := rfl
@[simp] theorem State.setReg_sessions (a : Nat) (v : W32) : (s.setReg a v).sessions = s.sessions := rfl
@[simp] theorem State.setReg_hbm (a : Nat) (v : W32) : (s.setReg a v).hbm = s.hbm := rfl
@[simp] theorem State.setReg_eth (a : Nat) (v : W32) : (s.setReg a v).eth = s.eth := rfl
@[simp] theorem State.setReg_links (a : Nat) (v : W32) : (s.setReg a v).links = s.links := rfl
@[simp] theorem State.setReg_transfers (a : Nat) (v : W32) : (s.setReg a v).transfers = s.transfers := rfl
@[simp] theorem State.setReg_assemblies (a : Nat) (v : W32) : (s.setReg a v).assemblies = s.assemblies := rfl
@[simp] theorem State.setReg_nextTransfer (a : Nat) (v : W32) : (s.setReg a v).nextTransfer = s.nextTransfer := rfl
@[simp] theorem State.setReg_chunkStore (a : Nat) (v : W32) : (s.setReg a v).chunkStore = s.chunkStore := rfl
@[simp] theorem State.setReg_host (a : Nat) (v : W32) : (s.setReg a v).host = s.host := rfl
@[simp] theorem State.setReg_mgmt (a : Nat) (v : W32) : (s.setReg a v).mgmt = s.mgmt := rfl
@[simp] theorem State.setReg_boot (a : Nat) (v : W32) : (s.setReg a v).boot = s.boot := rfl
@[simp] theorem State.setReg_health (a : Nat) (v : W32) : (s.setReg a v).health = s.health := rfl
@[simp] theorem State.setReg_scrubWords (a : Nat) (v : W32) : (s.setReg a v).scrubWords = s.scrubWords := rfl
@[simp] theorem State.setReg_remoteWait (a : Nat) (v : W32) : (s.setReg a v).remoteWait = s.remoteWait := rfl
@[simp] theorem State.setReg_mergeWindow (a : Nat) (v : W32) : (s.setReg a v).mergeWindow = s.mergeWindow := rfl
@[simp] theorem State.setReg_linkDownTh (a : Nat) (v : W32) : (s.setReg a v).linkDownTh = s.linkDownTh := rfl
@[simp] theorem State.setReg_rollbackHold (a : Nat) (v : W32) : (s.setReg a v).rollbackHold = s.rollbackHold := rfl
@[simp] theorem State.setReg_twinProtection (a : Nat) (v : W32) : (s.setReg a v).twinProtection = s.twinProtection := rfl
@[simp] theorem State.setReg_gust (a : Nat) (v : W32) : (s.setReg a v).gust = s.gust := rfl
@[simp] theorem State.setReg_nextRequest (a : Nat) (v : W32) : (s.setReg a v).nextRequest = s.nextRequest := rfl
@[simp] theorem State.setReg_freeUses (a : Nat) (v : W32) : (s.setReg a v).freeUses = s.freeUses := rfl
@[simp] theorem State.setReg_records (a : Nat) (v : W32) : (s.setReg a v).records = s.records := rfl
@[simp] theorem State.setReg_lateRecords (a : Nat) (v : W32) : (s.setReg a v).lateRecords = s.lateRecords := rfl
@[simp] theorem State.setReg_acks (a : Nat) (v : W32) : (s.setReg a v).acks = s.acks := rfl
@[simp] theorem State.setReg_out (a : Nat) (v : W32) : (s.setReg a v).out = s.out := rfl
@[simp] theorem State.setReg_pending (a : Nat) (v : W32) : (s.setReg a v).pending = s.pending := rfl

/-! ### put -/

@[simp] theorem State.put_windows (f : Fld) (v : Nat) : (s.put f v).windows = s.windows := rfl
@[simp] theorem State.put_tick (f : Fld) (v : Nat) : (s.put f v).tick = s.tick := rfl
@[simp] theorem State.put_start (f : Fld) (v : Nat) : (s.put f v).start = s.start := rfl
@[simp] theorem State.put_power (f : Fld) (v : Nat) : (s.put f v).power = s.power := rfl
@[simp] theorem State.put_thermal (f : Fld) (v : Nat) : (s.put f v).thermal = s.thermal := rfl
@[simp] theorem State.put_fields (f : Fld) (v : Nat) : (s.put f v).fields = s.fields := rfl
@[simp] theorem State.put_cores (f : Fld) (v : Nat) : (s.put f v).cores = s.cores := rfl
@[simp] theorem State.put_placements (f : Fld) (v : Nat) : (s.put f v).placements = s.placements := rfl
@[simp] theorem State.put_airspaces (f : Fld) (v : Nat) : (s.put f v).airspaces = s.airspaces := rfl
@[simp] theorem State.put_sessions (f : Fld) (v : Nat) : (s.put f v).sessions = s.sessions := rfl
@[simp] theorem State.put_hbm (f : Fld) (v : Nat) : (s.put f v).hbm = s.hbm := rfl
@[simp] theorem State.put_eth (f : Fld) (v : Nat) : (s.put f v).eth = s.eth := rfl
@[simp] theorem State.put_links (f : Fld) (v : Nat) : (s.put f v).links = s.links := rfl
@[simp] theorem State.put_transfers (f : Fld) (v : Nat) : (s.put f v).transfers = s.transfers := rfl
@[simp] theorem State.put_assemblies (f : Fld) (v : Nat) : (s.put f v).assemblies = s.assemblies := rfl
@[simp] theorem State.put_nextTransfer (f : Fld) (v : Nat) : (s.put f v).nextTransfer = s.nextTransfer := rfl
@[simp] theorem State.put_chunkStore (f : Fld) (v : Nat) : (s.put f v).chunkStore = s.chunkStore := rfl
@[simp] theorem State.put_host (f : Fld) (v : Nat) : (s.put f v).host = s.host := rfl
@[simp] theorem State.put_mgmt (f : Fld) (v : Nat) : (s.put f v).mgmt = s.mgmt := rfl
@[simp] theorem State.put_boot (f : Fld) (v : Nat) : (s.put f v).boot = s.boot := rfl
@[simp] theorem State.put_health (f : Fld) (v : Nat) : (s.put f v).health = s.health := rfl
@[simp] theorem State.put_scrubWords (f : Fld) (v : Nat) : (s.put f v).scrubWords = s.scrubWords := rfl
@[simp] theorem State.put_remoteWait (f : Fld) (v : Nat) : (s.put f v).remoteWait = s.remoteWait := rfl
@[simp] theorem State.put_mergeWindow (f : Fld) (v : Nat) : (s.put f v).mergeWindow = s.mergeWindow := rfl
@[simp] theorem State.put_linkDownTh (f : Fld) (v : Nat) : (s.put f v).linkDownTh = s.linkDownTh := rfl
@[simp] theorem State.put_rollbackHold (f : Fld) (v : Nat) : (s.put f v).rollbackHold = s.rollbackHold := rfl
@[simp] theorem State.put_twinProtection (f : Fld) (v : Nat) : (s.put f v).twinProtection = s.twinProtection := rfl
@[simp] theorem State.put_gust (f : Fld) (v : Nat) : (s.put f v).gust = s.gust := rfl
@[simp] theorem State.put_nextRequest (f : Fld) (v : Nat) : (s.put f v).nextRequest = s.nextRequest := rfl
@[simp] theorem State.put_freeUses (f : Fld) (v : Nat) : (s.put f v).freeUses = s.freeUses := rfl
@[simp] theorem State.put_records (f : Fld) (v : Nat) : (s.put f v).records = s.records := rfl
@[simp] theorem State.put_lateRecords (f : Fld) (v : Nat) : (s.put f v).lateRecords = s.lateRecords := rfl
@[simp] theorem State.put_acks (f : Fld) (v : Nat) : (s.put f v).acks = s.acks := rfl
@[simp] theorem State.put_out (f : Fld) (v : Nat) : (s.put f v).out = s.out := rfl
@[simp] theorem State.put_pending (f : Fld) (v : Nat) : (s.put f v).pending = s.pending := rfl

/-! ### count -/

@[simp] theorem State.count_windows (f : Fld) (n : Nat) : (s.count f n).windows = s.windows := rfl
@[simp] theorem State.count_tick (f : Fld) (n : Nat) : (s.count f n).tick = s.tick := rfl
@[simp] theorem State.count_start (f : Fld) (n : Nat) : (s.count f n).start = s.start := rfl
@[simp] theorem State.count_power (f : Fld) (n : Nat) : (s.count f n).power = s.power := rfl
@[simp] theorem State.count_thermal (f : Fld) (n : Nat) : (s.count f n).thermal = s.thermal := rfl
@[simp] theorem State.count_fields (f : Fld) (n : Nat) : (s.count f n).fields = s.fields := rfl
@[simp] theorem State.count_cores (f : Fld) (n : Nat) : (s.count f n).cores = s.cores := rfl
@[simp] theorem State.count_placements (f : Fld) (n : Nat) : (s.count f n).placements = s.placements := rfl
@[simp] theorem State.count_airspaces (f : Fld) (n : Nat) : (s.count f n).airspaces = s.airspaces := rfl
@[simp] theorem State.count_sessions (f : Fld) (n : Nat) : (s.count f n).sessions = s.sessions := rfl
@[simp] theorem State.count_hbm (f : Fld) (n : Nat) : (s.count f n).hbm = s.hbm := rfl
@[simp] theorem State.count_eth (f : Fld) (n : Nat) : (s.count f n).eth = s.eth := rfl
@[simp] theorem State.count_links (f : Fld) (n : Nat) : (s.count f n).links = s.links := rfl
@[simp] theorem State.count_transfers (f : Fld) (n : Nat) : (s.count f n).transfers = s.transfers := rfl
@[simp] theorem State.count_assemblies (f : Fld) (n : Nat) : (s.count f n).assemblies = s.assemblies := rfl
@[simp] theorem State.count_nextTransfer (f : Fld) (n : Nat) : (s.count f n).nextTransfer = s.nextTransfer := rfl
@[simp] theorem State.count_chunkStore (f : Fld) (n : Nat) : (s.count f n).chunkStore = s.chunkStore := rfl
@[simp] theorem State.count_host (f : Fld) (n : Nat) : (s.count f n).host = s.host := rfl
@[simp] theorem State.count_mgmt (f : Fld) (n : Nat) : (s.count f n).mgmt = s.mgmt := rfl
@[simp] theorem State.count_boot (f : Fld) (n : Nat) : (s.count f n).boot = s.boot := rfl
@[simp] theorem State.count_health (f : Fld) (n : Nat) : (s.count f n).health = s.health := rfl
@[simp] theorem State.count_scrubWords (f : Fld) (n : Nat) : (s.count f n).scrubWords = s.scrubWords := rfl
@[simp] theorem State.count_remoteWait (f : Fld) (n : Nat) : (s.count f n).remoteWait = s.remoteWait := rfl
@[simp] theorem State.count_mergeWindow (f : Fld) (n : Nat) : (s.count f n).mergeWindow = s.mergeWindow := rfl
@[simp] theorem State.count_linkDownTh (f : Fld) (n : Nat) : (s.count f n).linkDownTh = s.linkDownTh := rfl
@[simp] theorem State.count_rollbackHold (f : Fld) (n : Nat) : (s.count f n).rollbackHold = s.rollbackHold := rfl
@[simp] theorem State.count_twinProtection (f : Fld) (n : Nat) : (s.count f n).twinProtection = s.twinProtection := rfl
@[simp] theorem State.count_gust (f : Fld) (n : Nat) : (s.count f n).gust = s.gust := rfl
@[simp] theorem State.count_nextRequest (f : Fld) (n : Nat) : (s.count f n).nextRequest = s.nextRequest := rfl
@[simp] theorem State.count_freeUses (f : Fld) (n : Nat) : (s.count f n).freeUses = s.freeUses := rfl
@[simp] theorem State.count_records (f : Fld) (n : Nat) : (s.count f n).records = s.records := rfl
@[simp] theorem State.count_lateRecords (f : Fld) (n : Nat) : (s.count f n).lateRecords = s.lateRecords := rfl
@[simp] theorem State.count_acks (f : Fld) (n : Nat) : (s.count f n).acks = s.acks := rfl
@[simp] theorem State.count_out (f : Fld) (n : Nat) : (s.count f n).out = s.out := rfl
@[simp] theorem State.count_pending (f : Fld) (n : Nat) : (s.count f n).pending = s.pending := rfl

/-! ### bump -/

@[simp] theorem State.bump_windows (f : Fld) : (s.bump f).windows = s.windows := rfl
@[simp] theorem State.bump_tick (f : Fld) : (s.bump f).tick = s.tick := rfl
@[simp] theorem State.bump_start (f : Fld) : (s.bump f).start = s.start := rfl
@[simp] theorem State.bump_power (f : Fld) : (s.bump f).power = s.power := rfl
@[simp] theorem State.bump_thermal (f : Fld) : (s.bump f).thermal = s.thermal := rfl
@[simp] theorem State.bump_fields (f : Fld) : (s.bump f).fields = s.fields := rfl
@[simp] theorem State.bump_cores (f : Fld) : (s.bump f).cores = s.cores := rfl
@[simp] theorem State.bump_placements (f : Fld) : (s.bump f).placements = s.placements := rfl
@[simp] theorem State.bump_airspaces (f : Fld) : (s.bump f).airspaces = s.airspaces := rfl
@[simp] theorem State.bump_sessions (f : Fld) : (s.bump f).sessions = s.sessions := rfl
@[simp] theorem State.bump_hbm (f : Fld) : (s.bump f).hbm = s.hbm := rfl
@[simp] theorem State.bump_eth (f : Fld) : (s.bump f).eth = s.eth := rfl
@[simp] theorem State.bump_links (f : Fld) : (s.bump f).links = s.links := rfl
@[simp] theorem State.bump_transfers (f : Fld) : (s.bump f).transfers = s.transfers := rfl
@[simp] theorem State.bump_assemblies (f : Fld) : (s.bump f).assemblies = s.assemblies := rfl
@[simp] theorem State.bump_nextTransfer (f : Fld) : (s.bump f).nextTransfer = s.nextTransfer := rfl
@[simp] theorem State.bump_chunkStore (f : Fld) : (s.bump f).chunkStore = s.chunkStore := rfl
@[simp] theorem State.bump_host (f : Fld) : (s.bump f).host = s.host := rfl
@[simp] theorem State.bump_mgmt (f : Fld) : (s.bump f).mgmt = s.mgmt := rfl
@[simp] theorem State.bump_boot (f : Fld) : (s.bump f).boot = s.boot := rfl
@[simp] theorem State.bump_health (f : Fld) : (s.bump f).health = s.health := rfl
@[simp] theorem State.bump_scrubWords (f : Fld) : (s.bump f).scrubWords = s.scrubWords := rfl
@[simp] theorem State.bump_remoteWait (f : Fld) : (s.bump f).remoteWait = s.remoteWait := rfl
@[simp] theorem State.bump_mergeWindow (f : Fld) : (s.bump f).mergeWindow = s.mergeWindow := rfl
@[simp] theorem State.bump_linkDownTh (f : Fld) : (s.bump f).linkDownTh = s.linkDownTh := rfl
@[simp] theorem State.bump_rollbackHold (f : Fld) : (s.bump f).rollbackHold = s.rollbackHold := rfl
@[simp] theorem State.bump_twinProtection (f : Fld) : (s.bump f).twinProtection = s.twinProtection := rfl
@[simp] theorem State.bump_gust (f : Fld) : (s.bump f).gust = s.gust := rfl
@[simp] theorem State.bump_nextRequest (f : Fld) : (s.bump f).nextRequest = s.nextRequest := rfl
@[simp] theorem State.bump_freeUses (f : Fld) : (s.bump f).freeUses = s.freeUses := rfl
@[simp] theorem State.bump_records (f : Fld) : (s.bump f).records = s.records := rfl
@[simp] theorem State.bump_lateRecords (f : Fld) : (s.bump f).lateRecords = s.lateRecords := rfl
@[simp] theorem State.bump_acks (f : Fld) : (s.bump f).acks = s.acks := rfl
@[simp] theorem State.bump_out (f : Fld) : (s.bump f).out = s.out := rfl
@[simp] theorem State.bump_pending (f : Fld) : (s.bump f).pending = s.pending := rfl

/-! ### mark -/

@[simp] theorem State.mark_windows (f : Fld) : (s.mark f).windows = s.windows := rfl
@[simp] theorem State.mark_tick (f : Fld) : (s.mark f).tick = s.tick := rfl
@[simp] theorem State.mark_start (f : Fld) : (s.mark f).start = s.start := rfl
@[simp] theorem State.mark_power (f : Fld) : (s.mark f).power = s.power := rfl
@[simp] theorem State.mark_thermal (f : Fld) : (s.mark f).thermal = s.thermal := rfl
@[simp] theorem State.mark_fields (f : Fld) : (s.mark f).fields = s.fields := rfl
@[simp] theorem State.mark_cores (f : Fld) : (s.mark f).cores = s.cores := rfl
@[simp] theorem State.mark_placements (f : Fld) : (s.mark f).placements = s.placements := rfl
@[simp] theorem State.mark_airspaces (f : Fld) : (s.mark f).airspaces = s.airspaces := rfl
@[simp] theorem State.mark_sessions (f : Fld) : (s.mark f).sessions = s.sessions := rfl
@[simp] theorem State.mark_hbm (f : Fld) : (s.mark f).hbm = s.hbm := rfl
@[simp] theorem State.mark_eth (f : Fld) : (s.mark f).eth = s.eth := rfl
@[simp] theorem State.mark_links (f : Fld) : (s.mark f).links = s.links := rfl
@[simp] theorem State.mark_transfers (f : Fld) : (s.mark f).transfers = s.transfers := rfl
@[simp] theorem State.mark_assemblies (f : Fld) : (s.mark f).assemblies = s.assemblies := rfl
@[simp] theorem State.mark_nextTransfer (f : Fld) : (s.mark f).nextTransfer = s.nextTransfer := rfl
@[simp] theorem State.mark_chunkStore (f : Fld) : (s.mark f).chunkStore = s.chunkStore := rfl
@[simp] theorem State.mark_host (f : Fld) : (s.mark f).host = s.host := rfl
@[simp] theorem State.mark_mgmt (f : Fld) : (s.mark f).mgmt = s.mgmt := rfl
@[simp] theorem State.mark_boot (f : Fld) : (s.mark f).boot = s.boot := rfl
@[simp] theorem State.mark_health (f : Fld) : (s.mark f).health = s.health := rfl
@[simp] theorem State.mark_scrubWords (f : Fld) : (s.mark f).scrubWords = s.scrubWords := rfl
@[simp] theorem State.mark_remoteWait (f : Fld) : (s.mark f).remoteWait = s.remoteWait := rfl
@[simp] theorem State.mark_mergeWindow (f : Fld) : (s.mark f).mergeWindow = s.mergeWindow := rfl
@[simp] theorem State.mark_linkDownTh (f : Fld) : (s.mark f).linkDownTh = s.linkDownTh := rfl
@[simp] theorem State.mark_rollbackHold (f : Fld) : (s.mark f).rollbackHold = s.rollbackHold := rfl
@[simp] theorem State.mark_twinProtection (f : Fld) : (s.mark f).twinProtection = s.twinProtection := rfl
@[simp] theorem State.mark_gust (f : Fld) : (s.mark f).gust = s.gust := rfl
@[simp] theorem State.mark_nextRequest (f : Fld) : (s.mark f).nextRequest = s.nextRequest := rfl
@[simp] theorem State.mark_freeUses (f : Fld) : (s.mark f).freeUses = s.freeUses := rfl
@[simp] theorem State.mark_records (f : Fld) : (s.mark f).records = s.records := rfl
@[simp] theorem State.mark_lateRecords (f : Fld) : (s.mark f).lateRecords = s.lateRecords := rfl
@[simp] theorem State.mark_acks (f : Fld) : (s.mark f).acks = s.acks := rfl
@[simp] theorem State.mark_out (f : Fld) : (s.mark f).out = s.out := rfl
@[simp] theorem State.mark_pending (f : Fld) : (s.mark f).pending = s.pending := rfl

/-! ### setField -/

@[simp] theorem State.setField_regs (f : Nat) (v : FieldSt) : (s.setField f v).regs = s.regs := rfl
@[simp] theorem State.setField_windows (f : Nat) (v : FieldSt) : (s.setField f v).windows = s.windows := rfl
@[simp] theorem State.setField_tick (f : Nat) (v : FieldSt) : (s.setField f v).tick = s.tick := rfl
@[simp] theorem State.setField_start (f : Nat) (v : FieldSt) : (s.setField f v).start = s.start := rfl
@[simp] theorem State.setField_power (f : Nat) (v : FieldSt) : (s.setField f v).power = s.power := rfl
@[simp] theorem State.setField_thermal (f : Nat) (v : FieldSt) : (s.setField f v).thermal = s.thermal := rfl
@[simp] theorem State.setField_fields (f : Nat) (v : FieldSt) : (s.setField f v).fields = s.fields.set f v := rfl
@[simp] theorem State.setField_cores (f : Nat) (v : FieldSt) : (s.setField f v).cores = s.cores := rfl
@[simp] theorem State.setField_placements (f : Nat) (v : FieldSt) : (s.setField f v).placements = s.placements := rfl
@[simp] theorem State.setField_airspaces (f : Nat) (v : FieldSt) : (s.setField f v).airspaces = s.airspaces := rfl
@[simp] theorem State.setField_sessions (f : Nat) (v : FieldSt) : (s.setField f v).sessions = s.sessions := rfl
@[simp] theorem State.setField_hbm (f : Nat) (v : FieldSt) : (s.setField f v).hbm = s.hbm := rfl
@[simp] theorem State.setField_eth (f : Nat) (v : FieldSt) : (s.setField f v).eth = s.eth := rfl
@[simp] theorem State.setField_links (f : Nat) (v : FieldSt) : (s.setField f v).links = s.links := rfl
@[simp] theorem State.setField_transfers (f : Nat) (v : FieldSt) : (s.setField f v).transfers = s.transfers := rfl
@[simp] theorem State.setField_assemblies (f : Nat) (v : FieldSt) : (s.setField f v).assemblies = s.assemblies := rfl
@[simp] theorem State.setField_nextTransfer (f : Nat) (v : FieldSt) : (s.setField f v).nextTransfer = s.nextTransfer := rfl
@[simp] theorem State.setField_chunkStore (f : Nat) (v : FieldSt) : (s.setField f v).chunkStore = s.chunkStore := rfl
@[simp] theorem State.setField_host (f : Nat) (v : FieldSt) : (s.setField f v).host = s.host := rfl
@[simp] theorem State.setField_mgmt (f : Nat) (v : FieldSt) : (s.setField f v).mgmt = s.mgmt := rfl
@[simp] theorem State.setField_boot (f : Nat) (v : FieldSt) : (s.setField f v).boot = s.boot := rfl
@[simp] theorem State.setField_health (f : Nat) (v : FieldSt) : (s.setField f v).health = s.health := rfl
@[simp] theorem State.setField_scrubWords (f : Nat) (v : FieldSt) : (s.setField f v).scrubWords = s.scrubWords := rfl
@[simp] theorem State.setField_remoteWait (f : Nat) (v : FieldSt) : (s.setField f v).remoteWait = s.remoteWait := rfl
@[simp] theorem State.setField_mergeWindow (f : Nat) (v : FieldSt) : (s.setField f v).mergeWindow = s.mergeWindow := rfl
@[simp] theorem State.setField_linkDownTh (f : Nat) (v : FieldSt) : (s.setField f v).linkDownTh = s.linkDownTh := rfl
@[simp] theorem State.setField_rollbackHold (f : Nat) (v : FieldSt) : (s.setField f v).rollbackHold = s.rollbackHold := rfl
@[simp] theorem State.setField_twinProtection (f : Nat) (v : FieldSt) : (s.setField f v).twinProtection = s.twinProtection := rfl
@[simp] theorem State.setField_gust (f : Nat) (v : FieldSt) : (s.setField f v).gust = s.gust := rfl
@[simp] theorem State.setField_nextRequest (f : Nat) (v : FieldSt) : (s.setField f v).nextRequest = s.nextRequest := rfl
@[simp] theorem State.setField_freeUses (f : Nat) (v : FieldSt) : (s.setField f v).freeUses = s.freeUses := rfl
@[simp] theorem State.setField_records (f : Nat) (v : FieldSt) : (s.setField f v).records = s.records := rfl
@[simp] theorem State.setField_lateRecords (f : Nat) (v : FieldSt) : (s.setField f v).lateRecords = s.lateRecords := rfl
@[simp] theorem State.setField_acks (f : Nat) (v : FieldSt) : (s.setField f v).acks = s.acks := rfl
@[simp] theorem State.setField_out (f : Nat) (v : FieldSt) : (s.setField f v).out = s.out := rfl
@[simp] theorem State.setField_pending (f : Nat) (v : FieldSt) : (s.setField f v).pending = s.pending := rfl

/-! ### updField -/

@[simp] theorem State.updField_regs (f : Nat) (g : FieldSt → FieldSt) : (s.updField f g).regs = s.regs := rfl
@[simp] theorem State.updField_windows (f : Nat) (g : FieldSt → FieldSt) : (s.updField f g).windows = s.windows := rfl
@[simp] theorem State.updField_tick (f : Nat) (g : FieldSt → FieldSt) : (s.updField f g).tick = s.tick := rfl
@[simp] theorem State.updField_start (f : Nat) (g : FieldSt → FieldSt) : (s.updField f g).start = s.start := rfl
@[simp] theorem State.updField_power (f : Nat) (g : FieldSt → FieldSt) : (s.updField f g).power = s.power := rfl
@[simp] theorem State.updField_thermal (f : Nat) (g : FieldSt → FieldSt) : (s.updField f g).thermal = s.thermal := rfl
@[simp] theorem State.updField_fields (f : Nat) (g : FieldSt → FieldSt) : (s.updField f g).fields = s.fields.set f (g (s.field f)) := rfl
@[simp] theorem State.updField_cores (f : Nat) (g : FieldSt → FieldSt) : (s.updField f g).cores = s.cores := rfl
@[simp] theorem State.updField_placements (f : Nat) (g : FieldSt → FieldSt) : (s.updField f g).placements = s.placements := rfl
@[simp] theorem State.updField_airspaces (f : Nat) (g : FieldSt → FieldSt) : (s.updField f g).airspaces = s.airspaces := rfl
@[simp] theorem State.updField_sessions (f : Nat) (g : FieldSt → FieldSt) : (s.updField f g).sessions = s.sessions := rfl
@[simp] theorem State.updField_hbm (f : Nat) (g : FieldSt → FieldSt) : (s.updField f g).hbm = s.hbm := rfl
@[simp] theorem State.updField_eth (f : Nat) (g : FieldSt → FieldSt) : (s.updField f g).eth = s.eth := rfl
@[simp] theorem State.updField_links (f : Nat) (g : FieldSt → FieldSt) : (s.updField f g).links = s.links := rfl
@[simp] theorem State.updField_transfers (f : Nat) (g : FieldSt → FieldSt) : (s.updField f g).transfers = s.transfers := rfl
@[simp] theorem State.updField_assemblies (f : Nat) (g : FieldSt → FieldSt) : (s.updField f g).assemblies = s.assemblies := rfl
@[simp] theorem State.updField_nextTransfer (f : Nat) (g : FieldSt → FieldSt) : (s.updField f g).nextTransfer = s.nextTransfer := rfl
@[simp] theorem State.updField_chunkStore (f : Nat) (g : FieldSt → FieldSt) : (s.updField f g).chunkStore = s.chunkStore := rfl
@[simp] theorem State.updField_host (f : Nat) (g : FieldSt → FieldSt) : (s.updField f g).host = s.host := rfl
@[simp] theorem State.updField_mgmt (f : Nat) (g : FieldSt → FieldSt) : (s.updField f g).mgmt = s.mgmt := rfl
@[simp] theorem State.updField_boot (f : Nat) (g : FieldSt → FieldSt) : (s.updField f g).boot = s.boot := rfl
@[simp] theorem State.updField_health (f : Nat) (g : FieldSt → FieldSt) : (s.updField f g).health = s.health := rfl
@[simp] theorem State.updField_scrubWords (f : Nat) (g : FieldSt → FieldSt) : (s.updField f g).scrubWords = s.scrubWords := rfl
@[simp] theorem State.updField_remoteWait (f : Nat) (g : FieldSt → FieldSt) : (s.updField f g).remoteWait = s.remoteWait := rfl
@[simp] theorem State.updField_mergeWindow (f : Nat) (g : FieldSt → FieldSt) : (s.updField f g).mergeWindow = s.mergeWindow := rfl
@[simp] theorem State.updField_linkDownTh (f : Nat) (g : FieldSt → FieldSt) : (s.updField f g).linkDownTh = s.linkDownTh := rfl
@[simp] theorem State.updField_rollbackHold (f : Nat) (g : FieldSt → FieldSt) : (s.updField f g).rollbackHold = s.rollbackHold := rfl
@[simp] theorem State.updField_twinProtection (f : Nat) (g : FieldSt → FieldSt) : (s.updField f g).twinProtection = s.twinProtection := rfl
@[simp] theorem State.updField_gust (f : Nat) (g : FieldSt → FieldSt) : (s.updField f g).gust = s.gust := rfl
@[simp] theorem State.updField_nextRequest (f : Nat) (g : FieldSt → FieldSt) : (s.updField f g).nextRequest = s.nextRequest := rfl
@[simp] theorem State.updField_freeUses (f : Nat) (g : FieldSt → FieldSt) : (s.updField f g).freeUses = s.freeUses := rfl
@[simp] theorem State.updField_records (f : Nat) (g : FieldSt → FieldSt) : (s.updField f g).records = s.records := rfl
@[simp] theorem State.updField_lateRecords (f : Nat) (g : FieldSt → FieldSt) : (s.updField f g).lateRecords = s.lateRecords := rfl
@[simp] theorem State.updField_acks (f : Nat) (g : FieldSt → FieldSt) : (s.updField f g).acks = s.acks := rfl
@[simp] theorem State.updField_out (f : Nat) (g : FieldSt → FieldSt) : (s.updField f g).out = s.out := rfl
@[simp] theorem State.updField_pending (f : Nat) (g : FieldSt → FieldSt) : (s.updField f g).pending = s.pending := rfl

/-! ### setCoreSt -/

@[simp] theorem State.setCoreSt_regs (n : Nat) (v : CoreSt) : (s.setCoreSt n v).regs = s.regs := rfl
@[simp] theorem State.setCoreSt_windows (n : Nat) (v : CoreSt) : (s.setCoreSt n v).windows = s.windows := rfl
@[simp] theorem State.setCoreSt_tick (n : Nat) (v : CoreSt) : (s.setCoreSt n v).tick = s.tick := rfl
@[simp] theorem State.setCoreSt_start (n : Nat) (v : CoreSt) : (s.setCoreSt n v).start = s.start := rfl
@[simp] theorem State.setCoreSt_power (n : Nat) (v : CoreSt) : (s.setCoreSt n v).power = s.power := rfl
@[simp] theorem State.setCoreSt_thermal (n : Nat) (v : CoreSt) : (s.setCoreSt n v).thermal = s.thermal := rfl
@[simp] theorem State.setCoreSt_fields (n : Nat) (v : CoreSt) : (s.setCoreSt n v).fields = s.fields := rfl
@[simp] theorem State.setCoreSt_cores (n : Nat) (v : CoreSt) : (s.setCoreSt n v).cores = s.cores.set n v := rfl
@[simp] theorem State.setCoreSt_placements (n : Nat) (v : CoreSt) : (s.setCoreSt n v).placements = s.placements := rfl
@[simp] theorem State.setCoreSt_airspaces (n : Nat) (v : CoreSt) : (s.setCoreSt n v).airspaces = s.airspaces := rfl
@[simp] theorem State.setCoreSt_sessions (n : Nat) (v : CoreSt) : (s.setCoreSt n v).sessions = s.sessions := rfl
@[simp] theorem State.setCoreSt_hbm (n : Nat) (v : CoreSt) : (s.setCoreSt n v).hbm = s.hbm := rfl
@[simp] theorem State.setCoreSt_eth (n : Nat) (v : CoreSt) : (s.setCoreSt n v).eth = s.eth := rfl
@[simp] theorem State.setCoreSt_links (n : Nat) (v : CoreSt) : (s.setCoreSt n v).links = s.links := rfl
@[simp] theorem State.setCoreSt_transfers (n : Nat) (v : CoreSt) : (s.setCoreSt n v).transfers = s.transfers := rfl
@[simp] theorem State.setCoreSt_assemblies (n : Nat) (v : CoreSt) : (s.setCoreSt n v).assemblies = s.assemblies := rfl
@[simp] theorem State.setCoreSt_nextTransfer (n : Nat) (v : CoreSt) : (s.setCoreSt n v).nextTransfer = s.nextTransfer := rfl
@[simp] theorem State.setCoreSt_chunkStore (n : Nat) (v : CoreSt) : (s.setCoreSt n v).chunkStore = s.chunkStore := rfl
@[simp] theorem State.setCoreSt_host (n : Nat) (v : CoreSt) : (s.setCoreSt n v).host = s.host := rfl
@[simp] theorem State.setCoreSt_mgmt (n : Nat) (v : CoreSt) : (s.setCoreSt n v).mgmt = s.mgmt := rfl
@[simp] theorem State.setCoreSt_boot (n : Nat) (v : CoreSt) : (s.setCoreSt n v).boot = s.boot := rfl
@[simp] theorem State.setCoreSt_health (n : Nat) (v : CoreSt) : (s.setCoreSt n v).health = s.health := rfl
@[simp] theorem State.setCoreSt_scrubWords (n : Nat) (v : CoreSt) : (s.setCoreSt n v).scrubWords = s.scrubWords := rfl
@[simp] theorem State.setCoreSt_remoteWait (n : Nat) (v : CoreSt) : (s.setCoreSt n v).remoteWait = s.remoteWait := rfl
@[simp] theorem State.setCoreSt_mergeWindow (n : Nat) (v : CoreSt) : (s.setCoreSt n v).mergeWindow = s.mergeWindow := rfl
@[simp] theorem State.setCoreSt_linkDownTh (n : Nat) (v : CoreSt) : (s.setCoreSt n v).linkDownTh = s.linkDownTh := rfl
@[simp] theorem State.setCoreSt_rollbackHold (n : Nat) (v : CoreSt) : (s.setCoreSt n v).rollbackHold = s.rollbackHold := rfl
@[simp] theorem State.setCoreSt_twinProtection (n : Nat) (v : CoreSt) : (s.setCoreSt n v).twinProtection = s.twinProtection := rfl
@[simp] theorem State.setCoreSt_gust (n : Nat) (v : CoreSt) : (s.setCoreSt n v).gust = s.gust := rfl
@[simp] theorem State.setCoreSt_nextRequest (n : Nat) (v : CoreSt) : (s.setCoreSt n v).nextRequest = s.nextRequest := rfl
@[simp] theorem State.setCoreSt_freeUses (n : Nat) (v : CoreSt) : (s.setCoreSt n v).freeUses = s.freeUses := rfl
@[simp] theorem State.setCoreSt_records (n : Nat) (v : CoreSt) : (s.setCoreSt n v).records = s.records := rfl
@[simp] theorem State.setCoreSt_lateRecords (n : Nat) (v : CoreSt) : (s.setCoreSt n v).lateRecords = s.lateRecords := rfl
@[simp] theorem State.setCoreSt_acks (n : Nat) (v : CoreSt) : (s.setCoreSt n v).acks = s.acks := rfl
@[simp] theorem State.setCoreSt_out (n : Nat) (v : CoreSt) : (s.setCoreSt n v).out = s.out := rfl
@[simp] theorem State.setCoreSt_pending (n : Nat) (v : CoreSt) : (s.setCoreSt n v).pending = s.pending := rfl

/-! ### updCore -/

@[simp] theorem State.updCore_regs (n : Nat) (g : CoreSt → CoreSt) : (s.updCore n g).regs = s.regs := rfl
@[simp] theorem State.updCore_windows (n : Nat) (g : CoreSt → CoreSt) : (s.updCore n g).windows = s.windows := rfl
@[simp] theorem State.updCore_tick (n : Nat) (g : CoreSt → CoreSt) : (s.updCore n g).tick = s.tick := rfl
@[simp] theorem State.updCore_start (n : Nat) (g : CoreSt → CoreSt) : (s.updCore n g).start = s.start := rfl
@[simp] theorem State.updCore_power (n : Nat) (g : CoreSt → CoreSt) : (s.updCore n g).power = s.power := rfl
@[simp] theorem State.updCore_thermal (n : Nat) (g : CoreSt → CoreSt) : (s.updCore n g).thermal = s.thermal := rfl
@[simp] theorem State.updCore_fields (n : Nat) (g : CoreSt → CoreSt) : (s.updCore n g).fields = s.fields := rfl
@[simp] theorem State.updCore_cores (n : Nat) (g : CoreSt → CoreSt) : (s.updCore n g).cores = s.cores.set n (g (s.core n)) := rfl
@[simp] theorem State.updCore_placements (n : Nat) (g : CoreSt → CoreSt) : (s.updCore n g).placements = s.placements := rfl
@[simp] theorem State.updCore_airspaces (n : Nat) (g : CoreSt → CoreSt) : (s.updCore n g).airspaces = s.airspaces := rfl
@[simp] theorem State.updCore_sessions (n : Nat) (g : CoreSt → CoreSt) : (s.updCore n g).sessions = s.sessions := rfl
@[simp] theorem State.updCore_hbm (n : Nat) (g : CoreSt → CoreSt) : (s.updCore n g).hbm = s.hbm := rfl
@[simp] theorem State.updCore_eth (n : Nat) (g : CoreSt → CoreSt) : (s.updCore n g).eth = s.eth := rfl
@[simp] theorem State.updCore_links (n : Nat) (g : CoreSt → CoreSt) : (s.updCore n g).links = s.links := rfl
@[simp] theorem State.updCore_transfers (n : Nat) (g : CoreSt → CoreSt) : (s.updCore n g).transfers = s.transfers := rfl
@[simp] theorem State.updCore_assemblies (n : Nat) (g : CoreSt → CoreSt) : (s.updCore n g).assemblies = s.assemblies := rfl
@[simp] theorem State.updCore_nextTransfer (n : Nat) (g : CoreSt → CoreSt) : (s.updCore n g).nextTransfer = s.nextTransfer := rfl
@[simp] theorem State.updCore_chunkStore (n : Nat) (g : CoreSt → CoreSt) : (s.updCore n g).chunkStore = s.chunkStore := rfl
@[simp] theorem State.updCore_host (n : Nat) (g : CoreSt → CoreSt) : (s.updCore n g).host = s.host := rfl
@[simp] theorem State.updCore_mgmt (n : Nat) (g : CoreSt → CoreSt) : (s.updCore n g).mgmt = s.mgmt := rfl
@[simp] theorem State.updCore_boot (n : Nat) (g : CoreSt → CoreSt) : (s.updCore n g).boot = s.boot := rfl
@[simp] theorem State.updCore_health (n : Nat) (g : CoreSt → CoreSt) : (s.updCore n g).health = s.health := rfl
@[simp] theorem State.updCore_scrubWords (n : Nat) (g : CoreSt → CoreSt) : (s.updCore n g).scrubWords = s.scrubWords := rfl
@[simp] theorem State.updCore_remoteWait (n : Nat) (g : CoreSt → CoreSt) : (s.updCore n g).remoteWait = s.remoteWait := rfl
@[simp] theorem State.updCore_mergeWindow (n : Nat) (g : CoreSt → CoreSt) : (s.updCore n g).mergeWindow = s.mergeWindow := rfl
@[simp] theorem State.updCore_linkDownTh (n : Nat) (g : CoreSt → CoreSt) : (s.updCore n g).linkDownTh = s.linkDownTh := rfl
@[simp] theorem State.updCore_rollbackHold (n : Nat) (g : CoreSt → CoreSt) : (s.updCore n g).rollbackHold = s.rollbackHold := rfl
@[simp] theorem State.updCore_twinProtection (n : Nat) (g : CoreSt → CoreSt) : (s.updCore n g).twinProtection = s.twinProtection := rfl
@[simp] theorem State.updCore_gust (n : Nat) (g : CoreSt → CoreSt) : (s.updCore n g).gust = s.gust := rfl
@[simp] theorem State.updCore_nextRequest (n : Nat) (g : CoreSt → CoreSt) : (s.updCore n g).nextRequest = s.nextRequest := rfl
@[simp] theorem State.updCore_freeUses (n : Nat) (g : CoreSt → CoreSt) : (s.updCore n g).freeUses = s.freeUses := rfl
@[simp] theorem State.updCore_records (n : Nat) (g : CoreSt → CoreSt) : (s.updCore n g).records = s.records := rfl
@[simp] theorem State.updCore_lateRecords (n : Nat) (g : CoreSt → CoreSt) : (s.updCore n g).lateRecords = s.lateRecords := rfl
@[simp] theorem State.updCore_acks (n : Nat) (g : CoreSt → CoreSt) : (s.updCore n g).acks = s.acks := rfl
@[simp] theorem State.updCore_out (n : Nat) (g : CoreSt → CoreSt) : (s.updCore n g).out = s.out := rfl
@[simp] theorem State.updCore_pending (n : Nat) (g : CoreSt → CoreSt) : (s.updCore n g).pending = s.pending := rfl

/-! ### setPlc -/

@[simp] theorem State.setPlc_regs (p : Nat) (v : PlacementSt) : (s.setPlc p v).regs = s.regs := rfl
@[simp] theorem State.setPlc_windows (p : Nat) (v : PlacementSt) : (s.setPlc p v).windows = s.windows := rfl
@[simp] theorem State.setPlc_tick (p : Nat) (v : PlacementSt) : (s.setPlc p v).tick = s.tick := rfl
@[simp] theorem State.setPlc_start (p : Nat) (v : PlacementSt) : (s.setPlc p v).start = s.start := rfl
@[simp] theorem State.setPlc_power (p : Nat) (v : PlacementSt) : (s.setPlc p v).power = s.power := rfl
@[simp] theorem State.setPlc_thermal (p : Nat) (v : PlacementSt) : (s.setPlc p v).thermal = s.thermal := rfl
@[simp] theorem State.setPlc_fields (p : Nat) (v : PlacementSt) : (s.setPlc p v).fields = s.fields := rfl
@[simp] theorem State.setPlc_cores (p : Nat) (v : PlacementSt) : (s.setPlc p v).cores = s.cores := rfl
@[simp] theorem State.setPlc_placements (p : Nat) (v : PlacementSt) : (s.setPlc p v).placements = s.placements.set p v := rfl
@[simp] theorem State.setPlc_airspaces (p : Nat) (v : PlacementSt) : (s.setPlc p v).airspaces = s.airspaces := rfl
@[simp] theorem State.setPlc_sessions (p : Nat) (v : PlacementSt) : (s.setPlc p v).sessions = s.sessions := rfl
@[simp] theorem State.setPlc_hbm (p : Nat) (v : PlacementSt) : (s.setPlc p v).hbm = s.hbm := rfl
@[simp] theorem State.setPlc_eth (p : Nat) (v : PlacementSt) : (s.setPlc p v).eth = s.eth := rfl
@[simp] theorem State.setPlc_links (p : Nat) (v : PlacementSt) : (s.setPlc p v).links = s.links := rfl
@[simp] theorem State.setPlc_transfers (p : Nat) (v : PlacementSt) : (s.setPlc p v).transfers = s.transfers := rfl
@[simp] theorem State.setPlc_assemblies (p : Nat) (v : PlacementSt) : (s.setPlc p v).assemblies = s.assemblies := rfl
@[simp] theorem State.setPlc_nextTransfer (p : Nat) (v : PlacementSt) : (s.setPlc p v).nextTransfer = s.nextTransfer := rfl
@[simp] theorem State.setPlc_chunkStore (p : Nat) (v : PlacementSt) : (s.setPlc p v).chunkStore = s.chunkStore := rfl
@[simp] theorem State.setPlc_host (p : Nat) (v : PlacementSt) : (s.setPlc p v).host = s.host := rfl
@[simp] theorem State.setPlc_mgmt (p : Nat) (v : PlacementSt) : (s.setPlc p v).mgmt = s.mgmt := rfl
@[simp] theorem State.setPlc_boot (p : Nat) (v : PlacementSt) : (s.setPlc p v).boot = s.boot := rfl
@[simp] theorem State.setPlc_health (p : Nat) (v : PlacementSt) : (s.setPlc p v).health = s.health := rfl
@[simp] theorem State.setPlc_scrubWords (p : Nat) (v : PlacementSt) : (s.setPlc p v).scrubWords = s.scrubWords := rfl
@[simp] theorem State.setPlc_remoteWait (p : Nat) (v : PlacementSt) : (s.setPlc p v).remoteWait = s.remoteWait := rfl
@[simp] theorem State.setPlc_mergeWindow (p : Nat) (v : PlacementSt) : (s.setPlc p v).mergeWindow = s.mergeWindow := rfl
@[simp] theorem State.setPlc_linkDownTh (p : Nat) (v : PlacementSt) : (s.setPlc p v).linkDownTh = s.linkDownTh := rfl
@[simp] theorem State.setPlc_rollbackHold (p : Nat) (v : PlacementSt) : (s.setPlc p v).rollbackHold = s.rollbackHold := rfl
@[simp] theorem State.setPlc_twinProtection (p : Nat) (v : PlacementSt) : (s.setPlc p v).twinProtection = s.twinProtection := rfl
@[simp] theorem State.setPlc_gust (p : Nat) (v : PlacementSt) : (s.setPlc p v).gust = s.gust := rfl
@[simp] theorem State.setPlc_nextRequest (p : Nat) (v : PlacementSt) : (s.setPlc p v).nextRequest = s.nextRequest := rfl
@[simp] theorem State.setPlc_freeUses (p : Nat) (v : PlacementSt) : (s.setPlc p v).freeUses = s.freeUses := rfl
@[simp] theorem State.setPlc_records (p : Nat) (v : PlacementSt) : (s.setPlc p v).records = s.records := rfl
@[simp] theorem State.setPlc_lateRecords (p : Nat) (v : PlacementSt) : (s.setPlc p v).lateRecords = s.lateRecords := rfl
@[simp] theorem State.setPlc_acks (p : Nat) (v : PlacementSt) : (s.setPlc p v).acks = s.acks := rfl
@[simp] theorem State.setPlc_out (p : Nat) (v : PlacementSt) : (s.setPlc p v).out = s.out := rfl
@[simp] theorem State.setPlc_pending (p : Nat) (v : PlacementSt) : (s.setPlc p v).pending = s.pending := rfl

/-! ### updPlc -/

@[simp] theorem State.updPlc_regs (p : Nat) (g : PlacementSt → PlacementSt) : (s.updPlc p g).regs = s.regs := rfl
@[simp] theorem State.updPlc_windows (p : Nat) (g : PlacementSt → PlacementSt) : (s.updPlc p g).windows = s.windows := rfl
@[simp] theorem State.updPlc_tick (p : Nat) (g : PlacementSt → PlacementSt) : (s.updPlc p g).tick = s.tick := rfl
@[simp] theorem State.updPlc_start (p : Nat) (g : PlacementSt → PlacementSt) : (s.updPlc p g).start = s.start := rfl
@[simp] theorem State.updPlc_power (p : Nat) (g : PlacementSt → PlacementSt) : (s.updPlc p g).power = s.power := rfl
@[simp] theorem State.updPlc_thermal (p : Nat) (g : PlacementSt → PlacementSt) : (s.updPlc p g).thermal = s.thermal := rfl
@[simp] theorem State.updPlc_fields (p : Nat) (g : PlacementSt → PlacementSt) : (s.updPlc p g).fields = s.fields := rfl
@[simp] theorem State.updPlc_cores (p : Nat) (g : PlacementSt → PlacementSt) : (s.updPlc p g).cores = s.cores := rfl
@[simp] theorem State.updPlc_placements (p : Nat) (g : PlacementSt → PlacementSt) : (s.updPlc p g).placements = s.placements.set p (g (s.plc p)) := rfl
@[simp] theorem State.updPlc_airspaces (p : Nat) (g : PlacementSt → PlacementSt) : (s.updPlc p g).airspaces = s.airspaces := rfl
@[simp] theorem State.updPlc_sessions (p : Nat) (g : PlacementSt → PlacementSt) : (s.updPlc p g).sessions = s.sessions := rfl
@[simp] theorem State.updPlc_hbm (p : Nat) (g : PlacementSt → PlacementSt) : (s.updPlc p g).hbm = s.hbm := rfl
@[simp] theorem State.updPlc_eth (p : Nat) (g : PlacementSt → PlacementSt) : (s.updPlc p g).eth = s.eth := rfl
@[simp] theorem State.updPlc_links (p : Nat) (g : PlacementSt → PlacementSt) : (s.updPlc p g).links = s.links := rfl
@[simp] theorem State.updPlc_transfers (p : Nat) (g : PlacementSt → PlacementSt) : (s.updPlc p g).transfers = s.transfers := rfl
@[simp] theorem State.updPlc_assemblies (p : Nat) (g : PlacementSt → PlacementSt) : (s.updPlc p g).assemblies = s.assemblies := rfl
@[simp] theorem State.updPlc_nextTransfer (p : Nat) (g : PlacementSt → PlacementSt) : (s.updPlc p g).nextTransfer = s.nextTransfer := rfl
@[simp] theorem State.updPlc_chunkStore (p : Nat) (g : PlacementSt → PlacementSt) : (s.updPlc p g).chunkStore = s.chunkStore := rfl
@[simp] theorem State.updPlc_host (p : Nat) (g : PlacementSt → PlacementSt) : (s.updPlc p g).host = s.host := rfl
@[simp] theorem State.updPlc_mgmt (p : Nat) (g : PlacementSt → PlacementSt) : (s.updPlc p g).mgmt = s.mgmt := rfl
@[simp] theorem State.updPlc_boot (p : Nat) (g : PlacementSt → PlacementSt) : (s.updPlc p g).boot = s.boot := rfl
@[simp] theorem State.updPlc_health (p : Nat) (g : PlacementSt → PlacementSt) : (s.updPlc p g).health = s.health := rfl
@[simp] theorem State.updPlc_scrubWords (p : Nat) (g : PlacementSt → PlacementSt) : (s.updPlc p g).scrubWords = s.scrubWords := rfl
@[simp] theorem State.updPlc_remoteWait (p : Nat) (g : PlacementSt → PlacementSt) : (s.updPlc p g).remoteWait = s.remoteWait := rfl
@[simp] theorem State.updPlc_mergeWindow (p : Nat) (g : PlacementSt → PlacementSt) : (s.updPlc p g).mergeWindow = s.mergeWindow := rfl
@[simp] theorem State.updPlc_linkDownTh (p : Nat) (g : PlacementSt → PlacementSt) : (s.updPlc p g).linkDownTh = s.linkDownTh := rfl
@[simp] theorem State.updPlc_rollbackHold (p : Nat) (g : PlacementSt → PlacementSt) : (s.updPlc p g).rollbackHold = s.rollbackHold := rfl
@[simp] theorem State.updPlc_twinProtection (p : Nat) (g : PlacementSt → PlacementSt) : (s.updPlc p g).twinProtection = s.twinProtection := rfl
@[simp] theorem State.updPlc_gust (p : Nat) (g : PlacementSt → PlacementSt) : (s.updPlc p g).gust = s.gust := rfl
@[simp] theorem State.updPlc_nextRequest (p : Nat) (g : PlacementSt → PlacementSt) : (s.updPlc p g).nextRequest = s.nextRequest := rfl
@[simp] theorem State.updPlc_freeUses (p : Nat) (g : PlacementSt → PlacementSt) : (s.updPlc p g).freeUses = s.freeUses := rfl
@[simp] theorem State.updPlc_records (p : Nat) (g : PlacementSt → PlacementSt) : (s.updPlc p g).records = s.records := rfl
@[simp] theorem State.updPlc_lateRecords (p : Nat) (g : PlacementSt → PlacementSt) : (s.updPlc p g).lateRecords = s.lateRecords := rfl
@[simp] theorem State.updPlc_acks (p : Nat) (g : PlacementSt → PlacementSt) : (s.updPlc p g).acks = s.acks := rfl
@[simp] theorem State.updPlc_out (p : Nat) (g : PlacementSt → PlacementSt) : (s.updPlc p g).out = s.out := rfl
@[simp] theorem State.updPlc_pending (p : Nat) (g : PlacementSt → PlacementSt) : (s.updPlc p g).pending = s.pending := rfl

/-! ### setAsp -/

@[simp] theorem State.setAsp_regs (a : Nat) (v : AirspaceSt) : (s.setAsp a v).regs = s.regs := rfl
@[simp] theorem State.setAsp_windows (a : Nat) (v : AirspaceSt) : (s.setAsp a v).windows = s.windows := rfl
@[simp] theorem State.setAsp_tick (a : Nat) (v : AirspaceSt) : (s.setAsp a v).tick = s.tick := rfl
@[simp] theorem State.setAsp_start (a : Nat) (v : AirspaceSt) : (s.setAsp a v).start = s.start := rfl
@[simp] theorem State.setAsp_power (a : Nat) (v : AirspaceSt) : (s.setAsp a v).power = s.power := rfl
@[simp] theorem State.setAsp_thermal (a : Nat) (v : AirspaceSt) : (s.setAsp a v).thermal = s.thermal := rfl
@[simp] theorem State.setAsp_fields (a : Nat) (v : AirspaceSt) : (s.setAsp a v).fields = s.fields := rfl
@[simp] theorem State.setAsp_cores (a : Nat) (v : AirspaceSt) : (s.setAsp a v).cores = s.cores := rfl
@[simp] theorem State.setAsp_placements (a : Nat) (v : AirspaceSt) : (s.setAsp a v).placements = s.placements := rfl
@[simp] theorem State.setAsp_airspaces (a : Nat) (v : AirspaceSt) : (s.setAsp a v).airspaces = s.airspaces.set a v := rfl
@[simp] theorem State.setAsp_sessions (a : Nat) (v : AirspaceSt) : (s.setAsp a v).sessions = s.sessions := rfl
@[simp] theorem State.setAsp_hbm (a : Nat) (v : AirspaceSt) : (s.setAsp a v).hbm = s.hbm := rfl
@[simp] theorem State.setAsp_eth (a : Nat) (v : AirspaceSt) : (s.setAsp a v).eth = s.eth := rfl
@[simp] theorem State.setAsp_links (a : Nat) (v : AirspaceSt) : (s.setAsp a v).links = s.links := rfl
@[simp] theorem State.setAsp_transfers (a : Nat) (v : AirspaceSt) : (s.setAsp a v).transfers = s.transfers := rfl
@[simp] theorem State.setAsp_assemblies (a : Nat) (v : AirspaceSt) : (s.setAsp a v).assemblies = s.assemblies := rfl
@[simp] theorem State.setAsp_nextTransfer (a : Nat) (v : AirspaceSt) : (s.setAsp a v).nextTransfer = s.nextTransfer := rfl
@[simp] theorem State.setAsp_chunkStore (a : Nat) (v : AirspaceSt) : (s.setAsp a v).chunkStore = s.chunkStore := rfl
@[simp] theorem State.setAsp_host (a : Nat) (v : AirspaceSt) : (s.setAsp a v).host = s.host := rfl
@[simp] theorem State.setAsp_mgmt (a : Nat) (v : AirspaceSt) : (s.setAsp a v).mgmt = s.mgmt := rfl
@[simp] theorem State.setAsp_boot (a : Nat) (v : AirspaceSt) : (s.setAsp a v).boot = s.boot := rfl
@[simp] theorem State.setAsp_health (a : Nat) (v : AirspaceSt) : (s.setAsp a v).health = s.health := rfl
@[simp] theorem State.setAsp_scrubWords (a : Nat) (v : AirspaceSt) : (s.setAsp a v).scrubWords = s.scrubWords := rfl
@[simp] theorem State.setAsp_remoteWait (a : Nat) (v : AirspaceSt) : (s.setAsp a v).remoteWait = s.remoteWait := rfl
@[simp] theorem State.setAsp_mergeWindow (a : Nat) (v : AirspaceSt) : (s.setAsp a v).mergeWindow = s.mergeWindow := rfl
@[simp] theorem State.setAsp_linkDownTh (a : Nat) (v : AirspaceSt) : (s.setAsp a v).linkDownTh = s.linkDownTh := rfl
@[simp] theorem State.setAsp_rollbackHold (a : Nat) (v : AirspaceSt) : (s.setAsp a v).rollbackHold = s.rollbackHold := rfl
@[simp] theorem State.setAsp_twinProtection (a : Nat) (v : AirspaceSt) : (s.setAsp a v).twinProtection = s.twinProtection := rfl
@[simp] theorem State.setAsp_gust (a : Nat) (v : AirspaceSt) : (s.setAsp a v).gust = s.gust := rfl
@[simp] theorem State.setAsp_nextRequest (a : Nat) (v : AirspaceSt) : (s.setAsp a v).nextRequest = s.nextRequest := rfl
@[simp] theorem State.setAsp_freeUses (a : Nat) (v : AirspaceSt) : (s.setAsp a v).freeUses = s.freeUses := rfl
@[simp] theorem State.setAsp_records (a : Nat) (v : AirspaceSt) : (s.setAsp a v).records = s.records := rfl
@[simp] theorem State.setAsp_lateRecords (a : Nat) (v : AirspaceSt) : (s.setAsp a v).lateRecords = s.lateRecords := rfl
@[simp] theorem State.setAsp_acks (a : Nat) (v : AirspaceSt) : (s.setAsp a v).acks = s.acks := rfl
@[simp] theorem State.setAsp_out (a : Nat) (v : AirspaceSt) : (s.setAsp a v).out = s.out := rfl
@[simp] theorem State.setAsp_pending (a : Nat) (v : AirspaceSt) : (s.setAsp a v).pending = s.pending := rfl

/-! ### updAsp -/

@[simp] theorem State.updAsp_regs (a : Nat) (g : AirspaceSt → AirspaceSt) : (s.updAsp a g).regs = s.regs := rfl
@[simp] theorem State.updAsp_windows (a : Nat) (g : AirspaceSt → AirspaceSt) : (s.updAsp a g).windows = s.windows := rfl
@[simp] theorem State.updAsp_tick (a : Nat) (g : AirspaceSt → AirspaceSt) : (s.updAsp a g).tick = s.tick := rfl
@[simp] theorem State.updAsp_start (a : Nat) (g : AirspaceSt → AirspaceSt) : (s.updAsp a g).start = s.start := rfl
@[simp] theorem State.updAsp_power (a : Nat) (g : AirspaceSt → AirspaceSt) : (s.updAsp a g).power = s.power := rfl
@[simp] theorem State.updAsp_thermal (a : Nat) (g : AirspaceSt → AirspaceSt) : (s.updAsp a g).thermal = s.thermal := rfl
@[simp] theorem State.updAsp_fields (a : Nat) (g : AirspaceSt → AirspaceSt) : (s.updAsp a g).fields = s.fields := rfl
@[simp] theorem State.updAsp_cores (a : Nat) (g : AirspaceSt → AirspaceSt) : (s.updAsp a g).cores = s.cores := rfl
@[simp] theorem State.updAsp_placements (a : Nat) (g : AirspaceSt → AirspaceSt) : (s.updAsp a g).placements = s.placements := rfl
@[simp] theorem State.updAsp_airspaces (a : Nat) (g : AirspaceSt → AirspaceSt) : (s.updAsp a g).airspaces = s.airspaces.set a (g (s.asp a)) := rfl
@[simp] theorem State.updAsp_sessions (a : Nat) (g : AirspaceSt → AirspaceSt) : (s.updAsp a g).sessions = s.sessions := rfl
@[simp] theorem State.updAsp_hbm (a : Nat) (g : AirspaceSt → AirspaceSt) : (s.updAsp a g).hbm = s.hbm := rfl
@[simp] theorem State.updAsp_eth (a : Nat) (g : AirspaceSt → AirspaceSt) : (s.updAsp a g).eth = s.eth := rfl
@[simp] theorem State.updAsp_links (a : Nat) (g : AirspaceSt → AirspaceSt) : (s.updAsp a g).links = s.links := rfl
@[simp] theorem State.updAsp_transfers (a : Nat) (g : AirspaceSt → AirspaceSt) : (s.updAsp a g).transfers = s.transfers := rfl
@[simp] theorem State.updAsp_assemblies (a : Nat) (g : AirspaceSt → AirspaceSt) : (s.updAsp a g).assemblies = s.assemblies := rfl
@[simp] theorem State.updAsp_nextTransfer (a : Nat) (g : AirspaceSt → AirspaceSt) : (s.updAsp a g).nextTransfer = s.nextTransfer := rfl
@[simp] theorem State.updAsp_chunkStore (a : Nat) (g : AirspaceSt → AirspaceSt) : (s.updAsp a g).chunkStore = s.chunkStore := rfl
@[simp] theorem State.updAsp_host (a : Nat) (g : AirspaceSt → AirspaceSt) : (s.updAsp a g).host = s.host := rfl
@[simp] theorem State.updAsp_mgmt (a : Nat) (g : AirspaceSt → AirspaceSt) : (s.updAsp a g).mgmt = s.mgmt := rfl
@[simp] theorem State.updAsp_boot (a : Nat) (g : AirspaceSt → AirspaceSt) : (s.updAsp a g).boot = s.boot := rfl
@[simp] theorem State.updAsp_health (a : Nat) (g : AirspaceSt → AirspaceSt) : (s.updAsp a g).health = s.health := rfl
@[simp] theorem State.updAsp_scrubWords (a : Nat) (g : AirspaceSt → AirspaceSt) : (s.updAsp a g).scrubWords = s.scrubWords := rfl
@[simp] theorem State.updAsp_remoteWait (a : Nat) (g : AirspaceSt → AirspaceSt) : (s.updAsp a g).remoteWait = s.remoteWait := rfl
@[simp] theorem State.updAsp_mergeWindow (a : Nat) (g : AirspaceSt → AirspaceSt) : (s.updAsp a g).mergeWindow = s.mergeWindow := rfl
@[simp] theorem State.updAsp_linkDownTh (a : Nat) (g : AirspaceSt → AirspaceSt) : (s.updAsp a g).linkDownTh = s.linkDownTh := rfl
@[simp] theorem State.updAsp_rollbackHold (a : Nat) (g : AirspaceSt → AirspaceSt) : (s.updAsp a g).rollbackHold = s.rollbackHold := rfl
@[simp] theorem State.updAsp_twinProtection (a : Nat) (g : AirspaceSt → AirspaceSt) : (s.updAsp a g).twinProtection = s.twinProtection := rfl
@[simp] theorem State.updAsp_gust (a : Nat) (g : AirspaceSt → AirspaceSt) : (s.updAsp a g).gust = s.gust := rfl
@[simp] theorem State.updAsp_nextRequest (a : Nat) (g : AirspaceSt → AirspaceSt) : (s.updAsp a g).nextRequest = s.nextRequest := rfl
@[simp] theorem State.updAsp_freeUses (a : Nat) (g : AirspaceSt → AirspaceSt) : (s.updAsp a g).freeUses = s.freeUses := rfl
@[simp] theorem State.updAsp_records (a : Nat) (g : AirspaceSt → AirspaceSt) : (s.updAsp a g).records = s.records := rfl
@[simp] theorem State.updAsp_lateRecords (a : Nat) (g : AirspaceSt → AirspaceSt) : (s.updAsp a g).lateRecords = s.lateRecords := rfl
@[simp] theorem State.updAsp_acks (a : Nat) (g : AirspaceSt → AirspaceSt) : (s.updAsp a g).acks = s.acks := rfl
@[simp] theorem State.updAsp_out (a : Nat) (g : AirspaceSt → AirspaceSt) : (s.updAsp a g).out = s.out := rfl
@[simp] theorem State.updAsp_pending (a : Nat) (g : AirspaceSt → AirspaceSt) : (s.updAsp a g).pending = s.pending := rfl

/-! ### setSess -/

@[simp] theorem State.setSess_regs (n : Nat) (v : Desc) : (s.setSess n v).regs = s.regs := rfl
@[simp] theorem State.setSess_windows (n : Nat) (v : Desc) : (s.setSess n v).windows = s.windows := rfl
@[simp] theorem State.setSess_tick (n : Nat) (v : Desc) : (s.setSess n v).tick = s.tick := rfl
@[simp] theorem State.setSess_start (n : Nat) (v : Desc) : (s.setSess n v).start = s.start := rfl
@[simp] theorem State.setSess_power (n : Nat) (v : Desc) : (s.setSess n v).power = s.power := rfl
@[simp] theorem State.setSess_thermal (n : Nat) (v : Desc) : (s.setSess n v).thermal = s.thermal := rfl
@[simp] theorem State.setSess_fields (n : Nat) (v : Desc) : (s.setSess n v).fields = s.fields := rfl
@[simp] theorem State.setSess_cores (n : Nat) (v : Desc) : (s.setSess n v).cores = s.cores := rfl
@[simp] theorem State.setSess_placements (n : Nat) (v : Desc) : (s.setSess n v).placements = s.placements := rfl
@[simp] theorem State.setSess_airspaces (n : Nat) (v : Desc) : (s.setSess n v).airspaces = s.airspaces := rfl
@[simp] theorem State.setSess_sessions (n : Nat) (v : Desc) : (s.setSess n v).sessions = s.sessions.set n v := rfl
@[simp] theorem State.setSess_hbm (n : Nat) (v : Desc) : (s.setSess n v).hbm = s.hbm := rfl
@[simp] theorem State.setSess_eth (n : Nat) (v : Desc) : (s.setSess n v).eth = s.eth := rfl
@[simp] theorem State.setSess_links (n : Nat) (v : Desc) : (s.setSess n v).links = s.links := rfl
@[simp] theorem State.setSess_transfers (n : Nat) (v : Desc) : (s.setSess n v).transfers = s.transfers := rfl
@[simp] theorem State.setSess_assemblies (n : Nat) (v : Desc) : (s.setSess n v).assemblies = s.assemblies := rfl
@[simp] theorem State.setSess_nextTransfer (n : Nat) (v : Desc) : (s.setSess n v).nextTransfer = s.nextTransfer := rfl
@[simp] theorem State.setSess_chunkStore (n : Nat) (v : Desc) : (s.setSess n v).chunkStore = s.chunkStore := rfl
@[simp] theorem State.setSess_host (n : Nat) (v : Desc) : (s.setSess n v).host = s.host := rfl
@[simp] theorem State.setSess_mgmt (n : Nat) (v : Desc) : (s.setSess n v).mgmt = s.mgmt := rfl
@[simp] theorem State.setSess_boot (n : Nat) (v : Desc) : (s.setSess n v).boot = s.boot := rfl
@[simp] theorem State.setSess_health (n : Nat) (v : Desc) : (s.setSess n v).health = s.health := rfl
@[simp] theorem State.setSess_scrubWords (n : Nat) (v : Desc) : (s.setSess n v).scrubWords = s.scrubWords := rfl
@[simp] theorem State.setSess_remoteWait (n : Nat) (v : Desc) : (s.setSess n v).remoteWait = s.remoteWait := rfl
@[simp] theorem State.setSess_mergeWindow (n : Nat) (v : Desc) : (s.setSess n v).mergeWindow = s.mergeWindow := rfl
@[simp] theorem State.setSess_linkDownTh (n : Nat) (v : Desc) : (s.setSess n v).linkDownTh = s.linkDownTh := rfl
@[simp] theorem State.setSess_rollbackHold (n : Nat) (v : Desc) : (s.setSess n v).rollbackHold = s.rollbackHold := rfl
@[simp] theorem State.setSess_twinProtection (n : Nat) (v : Desc) : (s.setSess n v).twinProtection = s.twinProtection := rfl
@[simp] theorem State.setSess_gust (n : Nat) (v : Desc) : (s.setSess n v).gust = s.gust := rfl
@[simp] theorem State.setSess_nextRequest (n : Nat) (v : Desc) : (s.setSess n v).nextRequest = s.nextRequest := rfl
@[simp] theorem State.setSess_freeUses (n : Nat) (v : Desc) : (s.setSess n v).freeUses = s.freeUses := rfl
@[simp] theorem State.setSess_records (n : Nat) (v : Desc) : (s.setSess n v).records = s.records := rfl
@[simp] theorem State.setSess_lateRecords (n : Nat) (v : Desc) : (s.setSess n v).lateRecords = s.lateRecords := rfl
@[simp] theorem State.setSess_acks (n : Nat) (v : Desc) : (s.setSess n v).acks = s.acks := rfl
@[simp] theorem State.setSess_out (n : Nat) (v : Desc) : (s.setSess n v).out = s.out := rfl
@[simp] theorem State.setSess_pending (n : Nat) (v : Desc) : (s.setSess n v).pending = s.pending := rfl

/-! ### updSess -/

@[simp] theorem State.updSess_regs (n : Nat) (g : Desc → Desc) : (s.updSess n g).regs = s.regs := rfl
@[simp] theorem State.updSess_windows (n : Nat) (g : Desc → Desc) : (s.updSess n g).windows = s.windows := rfl
@[simp] theorem State.updSess_tick (n : Nat) (g : Desc → Desc) : (s.updSess n g).tick = s.tick := rfl
@[simp] theorem State.updSess_start (n : Nat) (g : Desc → Desc) : (s.updSess n g).start = s.start := rfl
@[simp] theorem State.updSess_power (n : Nat) (g : Desc → Desc) : (s.updSess n g).power = s.power := rfl
@[simp] theorem State.updSess_thermal (n : Nat) (g : Desc → Desc) : (s.updSess n g).thermal = s.thermal := rfl
@[simp] theorem State.updSess_fields (n : Nat) (g : Desc → Desc) : (s.updSess n g).fields = s.fields := rfl
@[simp] theorem State.updSess_cores (n : Nat) (g : Desc → Desc) : (s.updSess n g).cores = s.cores := rfl
@[simp] theorem State.updSess_placements (n : Nat) (g : Desc → Desc) : (s.updSess n g).placements = s.placements := rfl
@[simp] theorem State.updSess_airspaces (n : Nat) (g : Desc → Desc) : (s.updSess n g).airspaces = s.airspaces := rfl
@[simp] theorem State.updSess_sessions (n : Nat) (g : Desc → Desc) : (s.updSess n g).sessions = s.sessions.set n (g (s.sess n)) := rfl
@[simp] theorem State.updSess_hbm (n : Nat) (g : Desc → Desc) : (s.updSess n g).hbm = s.hbm := rfl
@[simp] theorem State.updSess_eth (n : Nat) (g : Desc → Desc) : (s.updSess n g).eth = s.eth := rfl
@[simp] theorem State.updSess_links (n : Nat) (g : Desc → Desc) : (s.updSess n g).links = s.links := rfl
@[simp] theorem State.updSess_transfers (n : Nat) (g : Desc → Desc) : (s.updSess n g).transfers = s.transfers := rfl
@[simp] theorem State.updSess_assemblies (n : Nat) (g : Desc → Desc) : (s.updSess n g).assemblies = s.assemblies := rfl
@[simp] theorem State.updSess_nextTransfer (n : Nat) (g : Desc → Desc) : (s.updSess n g).nextTransfer = s.nextTransfer := rfl
@[simp] theorem State.updSess_chunkStore (n : Nat) (g : Desc → Desc) : (s.updSess n g).chunkStore = s.chunkStore := rfl
@[simp] theorem State.updSess_host (n : Nat) (g : Desc → Desc) : (s.updSess n g).host = s.host := rfl
@[simp] theorem State.updSess_mgmt (n : Nat) (g : Desc → Desc) : (s.updSess n g).mgmt = s.mgmt := rfl
@[simp] theorem State.updSess_boot (n : Nat) (g : Desc → Desc) : (s.updSess n g).boot = s.boot := rfl
@[simp] theorem State.updSess_health (n : Nat) (g : Desc → Desc) : (s.updSess n g).health = s.health := rfl
@[simp] theorem State.updSess_scrubWords (n : Nat) (g : Desc → Desc) : (s.updSess n g).scrubWords = s.scrubWords := rfl
@[simp] theorem State.updSess_remoteWait (n : Nat) (g : Desc → Desc) : (s.updSess n g).remoteWait = s.remoteWait := rfl
@[simp] theorem State.updSess_mergeWindow (n : Nat) (g : Desc → Desc) : (s.updSess n g).mergeWindow = s.mergeWindow := rfl
@[simp] theorem State.updSess_linkDownTh (n : Nat) (g : Desc → Desc) : (s.updSess n g).linkDownTh = s.linkDownTh := rfl
@[simp] theorem State.updSess_rollbackHold (n : Nat) (g : Desc → Desc) : (s.updSess n g).rollbackHold = s.rollbackHold := rfl
@[simp] theorem State.updSess_twinProtection (n : Nat) (g : Desc → Desc) : (s.updSess n g).twinProtection = s.twinProtection := rfl
@[simp] theorem State.updSess_gust (n : Nat) (g : Desc → Desc) : (s.updSess n g).gust = s.gust := rfl
@[simp] theorem State.updSess_nextRequest (n : Nat) (g : Desc → Desc) : (s.updSess n g).nextRequest = s.nextRequest := rfl
@[simp] theorem State.updSess_freeUses (n : Nat) (g : Desc → Desc) : (s.updSess n g).freeUses = s.freeUses := rfl
@[simp] theorem State.updSess_records (n : Nat) (g : Desc → Desc) : (s.updSess n g).records = s.records := rfl
@[simp] theorem State.updSess_lateRecords (n : Nat) (g : Desc → Desc) : (s.updSess n g).lateRecords = s.lateRecords := rfl
@[simp] theorem State.updSess_acks (n : Nat) (g : Desc → Desc) : (s.updSess n g).acks = s.acks := rfl
@[simp] theorem State.updSess_out (n : Nat) (g : Desc → Desc) : (s.updSess n g).out = s.out := rfl
@[simp] theorem State.updSess_pending (n : Nat) (g : Desc → Desc) : (s.updSess n g).pending = s.pending := rfl

/-! ### updStack -/

@[simp] theorem State.updStack_regs (n : Nat) (g : StackSt → StackSt) : (s.updStack n g).regs = s.regs := rfl
@[simp] theorem State.updStack_windows (n : Nat) (g : StackSt → StackSt) : (s.updStack n g).windows = s.windows := rfl
@[simp] theorem State.updStack_tick (n : Nat) (g : StackSt → StackSt) : (s.updStack n g).tick = s.tick := rfl
@[simp] theorem State.updStack_start (n : Nat) (g : StackSt → StackSt) : (s.updStack n g).start = s.start := rfl
@[simp] theorem State.updStack_power (n : Nat) (g : StackSt → StackSt) : (s.updStack n g).power = s.power := rfl
@[simp] theorem State.updStack_thermal (n : Nat) (g : StackSt → StackSt) : (s.updStack n g).thermal = s.thermal := rfl
@[simp] theorem State.updStack_fields (n : Nat) (g : StackSt → StackSt) : (s.updStack n g).fields = s.fields := rfl
@[simp] theorem State.updStack_cores (n : Nat) (g : StackSt → StackSt) : (s.updStack n g).cores = s.cores := rfl
@[simp] theorem State.updStack_placements (n : Nat) (g : StackSt → StackSt) : (s.updStack n g).placements = s.placements := rfl
@[simp] theorem State.updStack_airspaces (n : Nat) (g : StackSt → StackSt) : (s.updStack n g).airspaces = s.airspaces := rfl
@[simp] theorem State.updStack_sessions (n : Nat) (g : StackSt → StackSt) : (s.updStack n g).sessions = s.sessions := rfl
@[simp] theorem State.updStack_hbm (n : Nat) (g : StackSt → StackSt) : (s.updStack n g).hbm = s.hbm.set n (g (s.stack n)) := rfl
@[simp] theorem State.updStack_eth (n : Nat) (g : StackSt → StackSt) : (s.updStack n g).eth = s.eth := rfl
@[simp] theorem State.updStack_links (n : Nat) (g : StackSt → StackSt) : (s.updStack n g).links = s.links := rfl
@[simp] theorem State.updStack_transfers (n : Nat) (g : StackSt → StackSt) : (s.updStack n g).transfers = s.transfers := rfl
@[simp] theorem State.updStack_assemblies (n : Nat) (g : StackSt → StackSt) : (s.updStack n g).assemblies = s.assemblies := rfl
@[simp] theorem State.updStack_nextTransfer (n : Nat) (g : StackSt → StackSt) : (s.updStack n g).nextTransfer = s.nextTransfer := rfl
@[simp] theorem State.updStack_chunkStore (n : Nat) (g : StackSt → StackSt) : (s.updStack n g).chunkStore = s.chunkStore := rfl
@[simp] theorem State.updStack_host (n : Nat) (g : StackSt → StackSt) : (s.updStack n g).host = s.host := rfl
@[simp] theorem State.updStack_mgmt (n : Nat) (g : StackSt → StackSt) : (s.updStack n g).mgmt = s.mgmt := rfl
@[simp] theorem State.updStack_boot (n : Nat) (g : StackSt → StackSt) : (s.updStack n g).boot = s.boot := rfl
@[simp] theorem State.updStack_health (n : Nat) (g : StackSt → StackSt) : (s.updStack n g).health = s.health := rfl
@[simp] theorem State.updStack_scrubWords (n : Nat) (g : StackSt → StackSt) : (s.updStack n g).scrubWords = s.scrubWords := rfl
@[simp] theorem State.updStack_remoteWait (n : Nat) (g : StackSt → StackSt) : (s.updStack n g).remoteWait = s.remoteWait := rfl
@[simp] theorem State.updStack_mergeWindow (n : Nat) (g : StackSt → StackSt) : (s.updStack n g).mergeWindow = s.mergeWindow := rfl
@[simp] theorem State.updStack_linkDownTh (n : Nat) (g : StackSt → StackSt) : (s.updStack n g).linkDownTh = s.linkDownTh := rfl
@[simp] theorem State.updStack_rollbackHold (n : Nat) (g : StackSt → StackSt) : (s.updStack n g).rollbackHold = s.rollbackHold := rfl
@[simp] theorem State.updStack_twinProtection (n : Nat) (g : StackSt → StackSt) : (s.updStack n g).twinProtection = s.twinProtection := rfl
@[simp] theorem State.updStack_gust (n : Nat) (g : StackSt → StackSt) : (s.updStack n g).gust = s.gust := rfl
@[simp] theorem State.updStack_nextRequest (n : Nat) (g : StackSt → StackSt) : (s.updStack n g).nextRequest = s.nextRequest := rfl
@[simp] theorem State.updStack_freeUses (n : Nat) (g : StackSt → StackSt) : (s.updStack n g).freeUses = s.freeUses := rfl
@[simp] theorem State.updStack_records (n : Nat) (g : StackSt → StackSt) : (s.updStack n g).records = s.records := rfl
@[simp] theorem State.updStack_lateRecords (n : Nat) (g : StackSt → StackSt) : (s.updStack n g).lateRecords = s.lateRecords := rfl
@[simp] theorem State.updStack_acks (n : Nat) (g : StackSt → StackSt) : (s.updStack n g).acks = s.acks := rfl
@[simp] theorem State.updStack_out (n : Nat) (g : StackSt → StackSt) : (s.updStack n g).out = s.out := rfl
@[simp] theorem State.updStack_pending (n : Nat) (g : StackSt → StackSt) : (s.updStack n g).pending = s.pending := rfl

/-! ### updEth -/

@[simp] theorem State.updEth_regs (n : Nat) (g : EthPort → EthPort) : (s.updEth n g).regs = s.regs := rfl
@[simp] theorem State.updEth_windows (n : Nat) (g : EthPort → EthPort) : (s.updEth n g).windows = s.windows := rfl
@[simp] theorem State.updEth_tick (n : Nat) (g : EthPort → EthPort) : (s.updEth n g).tick = s.tick := rfl
@[simp] theorem State.updEth_start (n : Nat) (g : EthPort → EthPort) : (s.updEth n g).start = s.start := rfl
@[simp] theorem State.updEth_power (n : Nat) (g : EthPort → EthPort) : (s.updEth n g).power = s.power := rfl
@[simp] theorem State.updEth_thermal (n : Nat) (g : EthPort → EthPort) : (s.updEth n g).thermal = s.thermal := rfl
@[simp] theorem State.updEth_fields (n : Nat) (g : EthPort → EthPort) : (s.updEth n g).fields = s.fields := rfl
@[simp] theorem State.updEth_cores (n : Nat) (g : EthPort → EthPort) : (s.updEth n g).cores = s.cores := rfl
@[simp] theorem State.updEth_placements (n : Nat) (g : EthPort → EthPort) : (s.updEth n g).placements = s.placements := rfl
@[simp] theorem State.updEth_airspaces (n : Nat) (g : EthPort → EthPort) : (s.updEth n g).airspaces = s.airspaces := rfl
@[simp] theorem State.updEth_sessions (n : Nat) (g : EthPort → EthPort) : (s.updEth n g).sessions = s.sessions := rfl
@[simp] theorem State.updEth_hbm (n : Nat) (g : EthPort → EthPort) : (s.updEth n g).hbm = s.hbm := rfl
@[simp] theorem State.updEth_eth (n : Nat) (g : EthPort → EthPort) : (s.updEth n g).eth = s.eth.set n (g (s.ethPort n)) := rfl
@[simp] theorem State.updEth_links (n : Nat) (g : EthPort → EthPort) : (s.updEth n g).links = s.links := rfl
@[simp] theorem State.updEth_transfers (n : Nat) (g : EthPort → EthPort) : (s.updEth n g).transfers = s.transfers := rfl
@[simp] theorem State.updEth_assemblies (n : Nat) (g : EthPort → EthPort) : (s.updEth n g).assemblies = s.assemblies := rfl
@[simp] theorem State.updEth_nextTransfer (n : Nat) (g : EthPort → EthPort) : (s.updEth n g).nextTransfer = s.nextTransfer := rfl
@[simp] theorem State.updEth_chunkStore (n : Nat) (g : EthPort → EthPort) : (s.updEth n g).chunkStore = s.chunkStore := rfl
@[simp] theorem State.updEth_host (n : Nat) (g : EthPort → EthPort) : (s.updEth n g).host = s.host := rfl
@[simp] theorem State.updEth_mgmt (n : Nat) (g : EthPort → EthPort) : (s.updEth n g).mgmt = s.mgmt := rfl
@[simp] theorem State.updEth_boot (n : Nat) (g : EthPort → EthPort) : (s.updEth n g).boot = s.boot := rfl
@[simp] theorem State.updEth_health (n : Nat) (g : EthPort → EthPort) : (s.updEth n g).health = s.health := rfl
@[simp] theorem State.updEth_scrubWords (n : Nat) (g : EthPort → EthPort) : (s.updEth n g).scrubWords = s.scrubWords := rfl
@[simp] theorem State.updEth_remoteWait (n : Nat) (g : EthPort → EthPort) : (s.updEth n g).remoteWait = s.remoteWait := rfl
@[simp] theorem State.updEth_mergeWindow (n : Nat) (g : EthPort → EthPort) : (s.updEth n g).mergeWindow = s.mergeWindow := rfl
@[simp] theorem State.updEth_linkDownTh (n : Nat) (g : EthPort → EthPort) : (s.updEth n g).linkDownTh = s.linkDownTh := rfl
@[simp] theorem State.updEth_rollbackHold (n : Nat) (g : EthPort → EthPort) : (s.updEth n g).rollbackHold = s.rollbackHold := rfl
@[simp] theorem State.updEth_twinProtection (n : Nat) (g : EthPort → EthPort) : (s.updEth n g).twinProtection = s.twinProtection := rfl
@[simp] theorem State.updEth_gust (n : Nat) (g : EthPort → EthPort) : (s.updEth n g).gust = s.gust := rfl
@[simp] theorem State.updEth_nextRequest (n : Nat) (g : EthPort → EthPort) : (s.updEth n g).nextRequest = s.nextRequest := rfl
@[simp] theorem State.updEth_freeUses (n : Nat) (g : EthPort → EthPort) : (s.updEth n g).freeUses = s.freeUses := rfl
@[simp] theorem State.updEth_records (n : Nat) (g : EthPort → EthPort) : (s.updEth n g).records = s.records := rfl
@[simp] theorem State.updEth_lateRecords (n : Nat) (g : EthPort → EthPort) : (s.updEth n g).lateRecords = s.lateRecords := rfl
@[simp] theorem State.updEth_acks (n : Nat) (g : EthPort → EthPort) : (s.updEth n g).acks = s.acks := rfl
@[simp] theorem State.updEth_out (n : Nat) (g : EthPort → EthPort) : (s.updEth n g).out = s.out := rfl
@[simp] theorem State.updEth_pending (n : Nat) (g : EthPort → EthPort) : (s.updEth n g).pending = s.pending := rfl

/-! ### updPort -/

@[simp] theorem State.updPort_regs (n : Nat) (g : ObtikPort → ObtikPort) : (s.updPort n g).regs = s.regs := rfl
@[simp] theorem State.updPort_windows (n : Nat) (g : ObtikPort → ObtikPort) : (s.updPort n g).windows = s.windows := rfl
@[simp] theorem State.updPort_tick (n : Nat) (g : ObtikPort → ObtikPort) : (s.updPort n g).tick = s.tick := rfl
@[simp] theorem State.updPort_start (n : Nat) (g : ObtikPort → ObtikPort) : (s.updPort n g).start = s.start := rfl
@[simp] theorem State.updPort_power (n : Nat) (g : ObtikPort → ObtikPort) : (s.updPort n g).power = s.power := rfl
@[simp] theorem State.updPort_thermal (n : Nat) (g : ObtikPort → ObtikPort) : (s.updPort n g).thermal = s.thermal := rfl
@[simp] theorem State.updPort_fields (n : Nat) (g : ObtikPort → ObtikPort) : (s.updPort n g).fields = s.fields := rfl
@[simp] theorem State.updPort_cores (n : Nat) (g : ObtikPort → ObtikPort) : (s.updPort n g).cores = s.cores := rfl
@[simp] theorem State.updPort_placements (n : Nat) (g : ObtikPort → ObtikPort) : (s.updPort n g).placements = s.placements := rfl
@[simp] theorem State.updPort_airspaces (n : Nat) (g : ObtikPort → ObtikPort) : (s.updPort n g).airspaces = s.airspaces := rfl
@[simp] theorem State.updPort_sessions (n : Nat) (g : ObtikPort → ObtikPort) : (s.updPort n g).sessions = s.sessions := rfl
@[simp] theorem State.updPort_hbm (n : Nat) (g : ObtikPort → ObtikPort) : (s.updPort n g).hbm = s.hbm := rfl
@[simp] theorem State.updPort_eth (n : Nat) (g : ObtikPort → ObtikPort) : (s.updPort n g).eth = s.eth := rfl
@[simp] theorem State.updPort_links (n : Nat) (g : ObtikPort → ObtikPort) : (s.updPort n g).links = { s.links with ports := s.links.ports.set n (g (s.port n)) } := rfl
@[simp] theorem State.updPort_transfers (n : Nat) (g : ObtikPort → ObtikPort) : (s.updPort n g).transfers = s.transfers := rfl
@[simp] theorem State.updPort_assemblies (n : Nat) (g : ObtikPort → ObtikPort) : (s.updPort n g).assemblies = s.assemblies := rfl
@[simp] theorem State.updPort_nextTransfer (n : Nat) (g : ObtikPort → ObtikPort) : (s.updPort n g).nextTransfer = s.nextTransfer := rfl
@[simp] theorem State.updPort_chunkStore (n : Nat) (g : ObtikPort → ObtikPort) : (s.updPort n g).chunkStore = s.chunkStore := rfl
@[simp] theorem State.updPort_host (n : Nat) (g : ObtikPort → ObtikPort) : (s.updPort n g).host = s.host := rfl
@[simp] theorem State.updPort_mgmt (n : Nat) (g : ObtikPort → ObtikPort) : (s.updPort n g).mgmt = s.mgmt := rfl
@[simp] theorem State.updPort_boot (n : Nat) (g : ObtikPort → ObtikPort) : (s.updPort n g).boot = s.boot := rfl
@[simp] theorem State.updPort_health (n : Nat) (g : ObtikPort → ObtikPort) : (s.updPort n g).health = s.health := rfl
@[simp] theorem State.updPort_scrubWords (n : Nat) (g : ObtikPort → ObtikPort) : (s.updPort n g).scrubWords = s.scrubWords := rfl
@[simp] theorem State.updPort_remoteWait (n : Nat) (g : ObtikPort → ObtikPort) : (s.updPort n g).remoteWait = s.remoteWait := rfl
@[simp] theorem State.updPort_mergeWindow (n : Nat) (g : ObtikPort → ObtikPort) : (s.updPort n g).mergeWindow = s.mergeWindow := rfl
@[simp] theorem State.updPort_linkDownTh (n : Nat) (g : ObtikPort → ObtikPort) : (s.updPort n g).linkDownTh = s.linkDownTh := rfl
@[simp] theorem State.updPort_rollbackHold (n : Nat) (g : ObtikPort → ObtikPort) : (s.updPort n g).rollbackHold = s.rollbackHold := rfl
@[simp] theorem State.updPort_twinProtection (n : Nat) (g : ObtikPort → ObtikPort) : (s.updPort n g).twinProtection = s.twinProtection := rfl
@[simp] theorem State.updPort_gust (n : Nat) (g : ObtikPort → ObtikPort) : (s.updPort n g).gust = s.gust := rfl
@[simp] theorem State.updPort_nextRequest (n : Nat) (g : ObtikPort → ObtikPort) : (s.updPort n g).nextRequest = s.nextRequest := rfl
@[simp] theorem State.updPort_freeUses (n : Nat) (g : ObtikPort → ObtikPort) : (s.updPort n g).freeUses = s.freeUses := rfl
@[simp] theorem State.updPort_records (n : Nat) (g : ObtikPort → ObtikPort) : (s.updPort n g).records = s.records := rfl
@[simp] theorem State.updPort_lateRecords (n : Nat) (g : ObtikPort → ObtikPort) : (s.updPort n g).lateRecords = s.lateRecords := rfl
@[simp] theorem State.updPort_acks (n : Nat) (g : ObtikPort → ObtikPort) : (s.updPort n g).acks = s.acks := rfl
@[simp] theorem State.updPort_out (n : Nat) (g : ObtikPort → ObtikPort) : (s.updPort n g).out = s.out := rfl
@[simp] theorem State.updPort_pending (n : Nat) (g : ObtikPort → ObtikPort) : (s.updPort n g).pending = s.pending := rfl

/-! ### updTick -/

@[simp] theorem State.updTick_regs (g : TickSt → TickSt) : (s.updTick g).regs = s.regs := rfl
@[simp] theorem State.updTick_windows (g : TickSt → TickSt) : (s.updTick g).windows = s.windows := rfl
@[simp] theorem State.updTick_tick (g : TickSt → TickSt) : (s.updTick g).tick = g s.tick := rfl
@[simp] theorem State.updTick_start (g : TickSt → TickSt) : (s.updTick g).start = s.start := rfl
@[simp] theorem State.updTick_power (g : TickSt → TickSt) : (s.updTick g).power = s.power := rfl
@[simp] theorem State.updTick_thermal (g : TickSt → TickSt) : (s.updTick g).thermal = s.thermal := rfl
@[simp] theorem State.updTick_fields (g : TickSt → TickSt) : (s.updTick g).fields = s.fields := rfl
@[simp] theorem State.updTick_cores (g : TickSt → TickSt) : (s.updTick g).cores = s.cores := rfl
@[simp] theorem State.updTick_placements (g : TickSt → TickSt) : (s.updTick g).placements = s.placements := rfl
@[simp] theorem State.updTick_airspaces (g : TickSt → TickSt) : (s.updTick g).airspaces = s.airspaces := rfl
@[simp] theorem State.updTick_sessions (g : TickSt → TickSt) : (s.updTick g).sessions = s.sessions := rfl
@[simp] theorem State.updTick_hbm (g : TickSt → TickSt) : (s.updTick g).hbm = s.hbm := rfl
@[simp] theorem State.updTick_eth (g : TickSt → TickSt) : (s.updTick g).eth = s.eth := rfl
@[simp] theorem State.updTick_links (g : TickSt → TickSt) : (s.updTick g).links = s.links := rfl
@[simp] theorem State.updTick_transfers (g : TickSt → TickSt) : (s.updTick g).transfers = s.transfers := rfl
@[simp] theorem State.updTick_assemblies (g : TickSt → TickSt) : (s.updTick g).assemblies = s.assemblies := rfl
@[simp] theorem State.updTick_nextTransfer (g : TickSt → TickSt) : (s.updTick g).nextTransfer = s.nextTransfer := rfl
@[simp] theorem State.updTick_chunkStore (g : TickSt → TickSt) : (s.updTick g).chunkStore = s.chunkStore := rfl
@[simp] theorem State.updTick_host (g : TickSt → TickSt) : (s.updTick g).host = s.host := rfl
@[simp] theorem State.updTick_mgmt (g : TickSt → TickSt) : (s.updTick g).mgmt = s.mgmt := rfl
@[simp] theorem State.updTick_boot (g : TickSt → TickSt) : (s.updTick g).boot = s.boot := rfl
@[simp] theorem State.updTick_health (g : TickSt → TickSt) : (s.updTick g).health = s.health := rfl
@[simp] theorem State.updTick_scrubWords (g : TickSt → TickSt) : (s.updTick g).scrubWords = s.scrubWords := rfl
@[simp] theorem State.updTick_remoteWait (g : TickSt → TickSt) : (s.updTick g).remoteWait = s.remoteWait := rfl
@[simp] theorem State.updTick_mergeWindow (g : TickSt → TickSt) : (s.updTick g).mergeWindow = s.mergeWindow := rfl
@[simp] theorem State.updTick_linkDownTh (g : TickSt → TickSt) : (s.updTick g).linkDownTh = s.linkDownTh := rfl
@[simp] theorem State.updTick_rollbackHold (g : TickSt → TickSt) : (s.updTick g).rollbackHold = s.rollbackHold := rfl
@[simp] theorem State.updTick_twinProtection (g : TickSt → TickSt) : (s.updTick g).twinProtection = s.twinProtection := rfl
@[simp] theorem State.updTick_gust (g : TickSt → TickSt) : (s.updTick g).gust = s.gust := rfl
@[simp] theorem State.updTick_nextRequest (g : TickSt → TickSt) : (s.updTick g).nextRequest = s.nextRequest := rfl
@[simp] theorem State.updTick_freeUses (g : TickSt → TickSt) : (s.updTick g).freeUses = s.freeUses := rfl
@[simp] theorem State.updTick_records (g : TickSt → TickSt) : (s.updTick g).records = s.records := rfl
@[simp] theorem State.updTick_lateRecords (g : TickSt → TickSt) : (s.updTick g).lateRecords = s.lateRecords := rfl
@[simp] theorem State.updTick_acks (g : TickSt → TickSt) : (s.updTick g).acks = s.acks := rfl
@[simp] theorem State.updTick_out (g : TickSt → TickSt) : (s.updTick g).out = s.out := rfl
@[simp] theorem State.updTick_pending (g : TickSt → TickSt) : (s.updTick g).pending = s.pending := rfl

/-! ### updStart -/

@[simp] theorem State.updStart_regs (g : StartSt → StartSt) : (s.updStart g).regs = s.regs := rfl
@[simp] theorem State.updStart_windows (g : StartSt → StartSt) : (s.updStart g).windows = s.windows := rfl
@[simp] theorem State.updStart_tick (g : StartSt → StartSt) : (s.updStart g).tick = s.tick := rfl
@[simp] theorem State.updStart_start (g : StartSt → StartSt) : (s.updStart g).start = g s.start := rfl
@[simp] theorem State.updStart_power (g : StartSt → StartSt) : (s.updStart g).power = s.power := rfl
@[simp] theorem State.updStart_thermal (g : StartSt → StartSt) : (s.updStart g).thermal = s.thermal := rfl
@[simp] theorem State.updStart_fields (g : StartSt → StartSt) : (s.updStart g).fields = s.fields := rfl
@[simp] theorem State.updStart_cores (g : StartSt → StartSt) : (s.updStart g).cores = s.cores := rfl
@[simp] theorem State.updStart_placements (g : StartSt → StartSt) : (s.updStart g).placements = s.placements := rfl
@[simp] theorem State.updStart_airspaces (g : StartSt → StartSt) : (s.updStart g).airspaces = s.airspaces := rfl
@[simp] theorem State.updStart_sessions (g : StartSt → StartSt) : (s.updStart g).sessions = s.sessions := rfl
@[simp] theorem State.updStart_hbm (g : StartSt → StartSt) : (s.updStart g).hbm = s.hbm := rfl
@[simp] theorem State.updStart_eth (g : StartSt → StartSt) : (s.updStart g).eth = s.eth := rfl
@[simp] theorem State.updStart_links (g : StartSt → StartSt) : (s.updStart g).links = s.links := rfl
@[simp] theorem State.updStart_transfers (g : StartSt → StartSt) : (s.updStart g).transfers = s.transfers := rfl
@[simp] theorem State.updStart_assemblies (g : StartSt → StartSt) : (s.updStart g).assemblies = s.assemblies := rfl
@[simp] theorem State.updStart_nextTransfer (g : StartSt → StartSt) : (s.updStart g).nextTransfer = s.nextTransfer := rfl
@[simp] theorem State.updStart_chunkStore (g : StartSt → StartSt) : (s.updStart g).chunkStore = s.chunkStore := rfl
@[simp] theorem State.updStart_host (g : StartSt → StartSt) : (s.updStart g).host = s.host := rfl
@[simp] theorem State.updStart_mgmt (g : StartSt → StartSt) : (s.updStart g).mgmt = s.mgmt := rfl
@[simp] theorem State.updStart_boot (g : StartSt → StartSt) : (s.updStart g).boot = s.boot := rfl
@[simp] theorem State.updStart_health (g : StartSt → StartSt) : (s.updStart g).health = s.health := rfl
@[simp] theorem State.updStart_scrubWords (g : StartSt → StartSt) : (s.updStart g).scrubWords = s.scrubWords := rfl
@[simp] theorem State.updStart_remoteWait (g : StartSt → StartSt) : (s.updStart g).remoteWait = s.remoteWait := rfl
@[simp] theorem State.updStart_mergeWindow (g : StartSt → StartSt) : (s.updStart g).mergeWindow = s.mergeWindow := rfl
@[simp] theorem State.updStart_linkDownTh (g : StartSt → StartSt) : (s.updStart g).linkDownTh = s.linkDownTh := rfl
@[simp] theorem State.updStart_rollbackHold (g : StartSt → StartSt) : (s.updStart g).rollbackHold = s.rollbackHold := rfl
@[simp] theorem State.updStart_twinProtection (g : StartSt → StartSt) : (s.updStart g).twinProtection = s.twinProtection := rfl
@[simp] theorem State.updStart_gust (g : StartSt → StartSt) : (s.updStart g).gust = s.gust := rfl
@[simp] theorem State.updStart_nextRequest (g : StartSt → StartSt) : (s.updStart g).nextRequest = s.nextRequest := rfl
@[simp] theorem State.updStart_freeUses (g : StartSt → StartSt) : (s.updStart g).freeUses = s.freeUses := rfl
@[simp] theorem State.updStart_records (g : StartSt → StartSt) : (s.updStart g).records = s.records := rfl
@[simp] theorem State.updStart_lateRecords (g : StartSt → StartSt) : (s.updStart g).lateRecords = s.lateRecords := rfl
@[simp] theorem State.updStart_acks (g : StartSt → StartSt) : (s.updStart g).acks = s.acks := rfl
@[simp] theorem State.updStart_out (g : StartSt → StartSt) : (s.updStart g).out = s.out := rfl
@[simp] theorem State.updStart_pending (g : StartSt → StartSt) : (s.updStart g).pending = s.pending := rfl

/-! ### updPower -/

@[simp] theorem State.updPower_regs (g : PowerMgr → PowerMgr) : (s.updPower g).regs = s.regs := rfl
@[simp] theorem State.updPower_windows (g : PowerMgr → PowerMgr) : (s.updPower g).windows = s.windows := rfl
@[simp] theorem State.updPower_tick (g : PowerMgr → PowerMgr) : (s.updPower g).tick = s.tick := rfl
@[simp] theorem State.updPower_start (g : PowerMgr → PowerMgr) : (s.updPower g).start = s.start := rfl
@[simp] theorem State.updPower_power (g : PowerMgr → PowerMgr) : (s.updPower g).power = g s.power := rfl
@[simp] theorem State.updPower_thermal (g : PowerMgr → PowerMgr) : (s.updPower g).thermal = s.thermal := rfl
@[simp] theorem State.updPower_fields (g : PowerMgr → PowerMgr) : (s.updPower g).fields = s.fields := rfl
@[simp] theorem State.updPower_cores (g : PowerMgr → PowerMgr) : (s.updPower g).cores = s.cores := rfl
@[simp] theorem State.updPower_placements (g : PowerMgr → PowerMgr) : (s.updPower g).placements = s.placements := rfl
@[simp] theorem State.updPower_airspaces (g : PowerMgr → PowerMgr) : (s.updPower g).airspaces = s.airspaces := rfl
@[simp] theorem State.updPower_sessions (g : PowerMgr → PowerMgr) : (s.updPower g).sessions = s.sessions := rfl
@[simp] theorem State.updPower_hbm (g : PowerMgr → PowerMgr) : (s.updPower g).hbm = s.hbm := rfl
@[simp] theorem State.updPower_eth (g : PowerMgr → PowerMgr) : (s.updPower g).eth = s.eth := rfl
@[simp] theorem State.updPower_links (g : PowerMgr → PowerMgr) : (s.updPower g).links = s.links := rfl
@[simp] theorem State.updPower_transfers (g : PowerMgr → PowerMgr) : (s.updPower g).transfers = s.transfers := rfl
@[simp] theorem State.updPower_assemblies (g : PowerMgr → PowerMgr) : (s.updPower g).assemblies = s.assemblies := rfl
@[simp] theorem State.updPower_nextTransfer (g : PowerMgr → PowerMgr) : (s.updPower g).nextTransfer = s.nextTransfer := rfl
@[simp] theorem State.updPower_chunkStore (g : PowerMgr → PowerMgr) : (s.updPower g).chunkStore = s.chunkStore := rfl
@[simp] theorem State.updPower_host (g : PowerMgr → PowerMgr) : (s.updPower g).host = s.host := rfl
@[simp] theorem State.updPower_mgmt (g : PowerMgr → PowerMgr) : (s.updPower g).mgmt = s.mgmt := rfl
@[simp] theorem State.updPower_boot (g : PowerMgr → PowerMgr) : (s.updPower g).boot = s.boot := rfl
@[simp] theorem State.updPower_health (g : PowerMgr → PowerMgr) : (s.updPower g).health = s.health := rfl
@[simp] theorem State.updPower_scrubWords (g : PowerMgr → PowerMgr) : (s.updPower g).scrubWords = s.scrubWords := rfl
@[simp] theorem State.updPower_remoteWait (g : PowerMgr → PowerMgr) : (s.updPower g).remoteWait = s.remoteWait := rfl
@[simp] theorem State.updPower_mergeWindow (g : PowerMgr → PowerMgr) : (s.updPower g).mergeWindow = s.mergeWindow := rfl
@[simp] theorem State.updPower_linkDownTh (g : PowerMgr → PowerMgr) : (s.updPower g).linkDownTh = s.linkDownTh := rfl
@[simp] theorem State.updPower_rollbackHold (g : PowerMgr → PowerMgr) : (s.updPower g).rollbackHold = s.rollbackHold := rfl
@[simp] theorem State.updPower_twinProtection (g : PowerMgr → PowerMgr) : (s.updPower g).twinProtection = s.twinProtection := rfl
@[simp] theorem State.updPower_gust (g : PowerMgr → PowerMgr) : (s.updPower g).gust = s.gust := rfl
@[simp] theorem State.updPower_nextRequest (g : PowerMgr → PowerMgr) : (s.updPower g).nextRequest = s.nextRequest := rfl
@[simp] theorem State.updPower_freeUses (g : PowerMgr → PowerMgr) : (s.updPower g).freeUses = s.freeUses := rfl
@[simp] theorem State.updPower_records (g : PowerMgr → PowerMgr) : (s.updPower g).records = s.records := rfl
@[simp] theorem State.updPower_lateRecords (g : PowerMgr → PowerMgr) : (s.updPower g).lateRecords = s.lateRecords := rfl
@[simp] theorem State.updPower_acks (g : PowerMgr → PowerMgr) : (s.updPower g).acks = s.acks := rfl
@[simp] theorem State.updPower_out (g : PowerMgr → PowerMgr) : (s.updPower g).out = s.out := rfl
@[simp] theorem State.updPower_pending (g : PowerMgr → PowerMgr) : (s.updPower g).pending = s.pending := rfl

/-! ### updThermal -/

@[simp] theorem State.updThermal_regs (g : ThermalSt → ThermalSt) : (s.updThermal g).regs = s.regs := rfl
@[simp] theorem State.updThermal_windows (g : ThermalSt → ThermalSt) : (s.updThermal g).windows = s.windows := rfl
@[simp] theorem State.updThermal_tick (g : ThermalSt → ThermalSt) : (s.updThermal g).tick = s.tick := rfl
@[simp] theorem State.updThermal_start (g : ThermalSt → ThermalSt) : (s.updThermal g).start = s.start := rfl
@[simp] theorem State.updThermal_power (g : ThermalSt → ThermalSt) : (s.updThermal g).power = s.power := rfl
@[simp] theorem State.updThermal_thermal (g : ThermalSt → ThermalSt) : (s.updThermal g).thermal = g s.thermal := rfl
@[simp] theorem State.updThermal_fields (g : ThermalSt → ThermalSt) : (s.updThermal g).fields = s.fields := rfl
@[simp] theorem State.updThermal_cores (g : ThermalSt → ThermalSt) : (s.updThermal g).cores = s.cores := rfl
@[simp] theorem State.updThermal_placements (g : ThermalSt → ThermalSt) : (s.updThermal g).placements = s.placements := rfl
@[simp] theorem State.updThermal_airspaces (g : ThermalSt → ThermalSt) : (s.updThermal g).airspaces = s.airspaces := rfl
@[simp] theorem State.updThermal_sessions (g : ThermalSt → ThermalSt) : (s.updThermal g).sessions = s.sessions := rfl
@[simp] theorem State.updThermal_hbm (g : ThermalSt → ThermalSt) : (s.updThermal g).hbm = s.hbm := rfl
@[simp] theorem State.updThermal_eth (g : ThermalSt → ThermalSt) : (s.updThermal g).eth = s.eth := rfl
@[simp] theorem State.updThermal_links (g : ThermalSt → ThermalSt) : (s.updThermal g).links = s.links := rfl
@[simp] theorem State.updThermal_transfers (g : ThermalSt → ThermalSt) : (s.updThermal g).transfers = s.transfers := rfl
@[simp] theorem State.updThermal_assemblies (g : ThermalSt → ThermalSt) : (s.updThermal g).assemblies = s.assemblies := rfl
@[simp] theorem State.updThermal_nextTransfer (g : ThermalSt → ThermalSt) : (s.updThermal g).nextTransfer = s.nextTransfer := rfl
@[simp] theorem State.updThermal_chunkStore (g : ThermalSt → ThermalSt) : (s.updThermal g).chunkStore = s.chunkStore := rfl
@[simp] theorem State.updThermal_host (g : ThermalSt → ThermalSt) : (s.updThermal g).host = s.host := rfl
@[simp] theorem State.updThermal_mgmt (g : ThermalSt → ThermalSt) : (s.updThermal g).mgmt = s.mgmt := rfl
@[simp] theorem State.updThermal_boot (g : ThermalSt → ThermalSt) : (s.updThermal g).boot = s.boot := rfl
@[simp] theorem State.updThermal_health (g : ThermalSt → ThermalSt) : (s.updThermal g).health = s.health := rfl
@[simp] theorem State.updThermal_scrubWords (g : ThermalSt → ThermalSt) : (s.updThermal g).scrubWords = s.scrubWords := rfl
@[simp] theorem State.updThermal_remoteWait (g : ThermalSt → ThermalSt) : (s.updThermal g).remoteWait = s.remoteWait := rfl
@[simp] theorem State.updThermal_mergeWindow (g : ThermalSt → ThermalSt) : (s.updThermal g).mergeWindow = s.mergeWindow := rfl
@[simp] theorem State.updThermal_linkDownTh (g : ThermalSt → ThermalSt) : (s.updThermal g).linkDownTh = s.linkDownTh := rfl
@[simp] theorem State.updThermal_rollbackHold (g : ThermalSt → ThermalSt) : (s.updThermal g).rollbackHold = s.rollbackHold := rfl
@[simp] theorem State.updThermal_twinProtection (g : ThermalSt → ThermalSt) : (s.updThermal g).twinProtection = s.twinProtection := rfl
@[simp] theorem State.updThermal_gust (g : ThermalSt → ThermalSt) : (s.updThermal g).gust = s.gust := rfl
@[simp] theorem State.updThermal_nextRequest (g : ThermalSt → ThermalSt) : (s.updThermal g).nextRequest = s.nextRequest := rfl
@[simp] theorem State.updThermal_freeUses (g : ThermalSt → ThermalSt) : (s.updThermal g).freeUses = s.freeUses := rfl
@[simp] theorem State.updThermal_records (g : ThermalSt → ThermalSt) : (s.updThermal g).records = s.records := rfl
@[simp] theorem State.updThermal_lateRecords (g : ThermalSt → ThermalSt) : (s.updThermal g).lateRecords = s.lateRecords := rfl
@[simp] theorem State.updThermal_acks (g : ThermalSt → ThermalSt) : (s.updThermal g).acks = s.acks := rfl
@[simp] theorem State.updThermal_out (g : ThermalSt → ThermalSt) : (s.updThermal g).out = s.out := rfl
@[simp] theorem State.updThermal_pending (g : ThermalSt → ThermalSt) : (s.updThermal g).pending = s.pending := rfl

/-! ### updHost -/

@[simp] theorem State.updHost_regs (g : HostSt → HostSt) : (s.updHost g).regs = s.regs := rfl
@[simp] theorem State.updHost_windows (g : HostSt → HostSt) : (s.updHost g).windows = s.windows := rfl
@[simp] theorem State.updHost_tick (g : HostSt → HostSt) : (s.updHost g).tick = s.tick := rfl
@[simp] theorem State.updHost_start (g : HostSt → HostSt) : (s.updHost g).start = s.start := rfl
@[simp] theorem State.updHost_power (g : HostSt → HostSt) : (s.updHost g).power = s.power := rfl
@[simp] theorem State.updHost_thermal (g : HostSt → HostSt) : (s.updHost g).thermal = s.thermal := rfl
@[simp] theorem State.updHost_fields (g : HostSt → HostSt) : (s.updHost g).fields = s.fields := rfl
@[simp] theorem State.updHost_cores (g : HostSt → HostSt) : (s.updHost g).cores = s.cores := rfl
@[simp] theorem State.updHost_placements (g : HostSt → HostSt) : (s.updHost g).placements = s.placements := rfl
@[simp] theorem State.updHost_airspaces (g : HostSt → HostSt) : (s.updHost g).airspaces = s.airspaces := rfl
@[simp] theorem State.updHost_sessions (g : HostSt → HostSt) : (s.updHost g).sessions = s.sessions := rfl
@[simp] theorem State.updHost_hbm (g : HostSt → HostSt) : (s.updHost g).hbm = s.hbm := rfl
@[simp] theorem State.updHost_eth (g : HostSt → HostSt) : (s.updHost g).eth = s.eth := rfl
@[simp] theorem State.updHost_links (g : HostSt → HostSt) : (s.updHost g).links = s.links := rfl
@[simp] theorem State.updHost_transfers (g : HostSt → HostSt) : (s.updHost g).transfers = s.transfers := rfl
@[simp] theorem State.updHost_assemblies (g : HostSt → HostSt) : (s.updHost g).assemblies = s.assemblies := rfl
@[simp] theorem State.updHost_nextTransfer (g : HostSt → HostSt) : (s.updHost g).nextTransfer = s.nextTransfer := rfl
@[simp] theorem State.updHost_chunkStore (g : HostSt → HostSt) : (s.updHost g).chunkStore = s.chunkStore := rfl
@[simp] theorem State.updHost_host (g : HostSt → HostSt) : (s.updHost g).host = g s.host := rfl
@[simp] theorem State.updHost_mgmt (g : HostSt → HostSt) : (s.updHost g).mgmt = s.mgmt := rfl
@[simp] theorem State.updHost_boot (g : HostSt → HostSt) : (s.updHost g).boot = s.boot := rfl
@[simp] theorem State.updHost_health (g : HostSt → HostSt) : (s.updHost g).health = s.health := rfl
@[simp] theorem State.updHost_scrubWords (g : HostSt → HostSt) : (s.updHost g).scrubWords = s.scrubWords := rfl
@[simp] theorem State.updHost_remoteWait (g : HostSt → HostSt) : (s.updHost g).remoteWait = s.remoteWait := rfl
@[simp] theorem State.updHost_mergeWindow (g : HostSt → HostSt) : (s.updHost g).mergeWindow = s.mergeWindow := rfl
@[simp] theorem State.updHost_linkDownTh (g : HostSt → HostSt) : (s.updHost g).linkDownTh = s.linkDownTh := rfl
@[simp] theorem State.updHost_rollbackHold (g : HostSt → HostSt) : (s.updHost g).rollbackHold = s.rollbackHold := rfl
@[simp] theorem State.updHost_twinProtection (g : HostSt → HostSt) : (s.updHost g).twinProtection = s.twinProtection := rfl
@[simp] theorem State.updHost_gust (g : HostSt → HostSt) : (s.updHost g).gust = s.gust := rfl
@[simp] theorem State.updHost_nextRequest (g : HostSt → HostSt) : (s.updHost g).nextRequest = s.nextRequest := rfl
@[simp] theorem State.updHost_freeUses (g : HostSt → HostSt) : (s.updHost g).freeUses = s.freeUses := rfl
@[simp] theorem State.updHost_records (g : HostSt → HostSt) : (s.updHost g).records = s.records := rfl
@[simp] theorem State.updHost_lateRecords (g : HostSt → HostSt) : (s.updHost g).lateRecords = s.lateRecords := rfl
@[simp] theorem State.updHost_acks (g : HostSt → HostSt) : (s.updHost g).acks = s.acks := rfl
@[simp] theorem State.updHost_out (g : HostSt → HostSt) : (s.updHost g).out = s.out := rfl
@[simp] theorem State.updHost_pending (g : HostSt → HostSt) : (s.updHost g).pending = s.pending := rfl

/-! ### updBoot -/

@[simp] theorem State.updBoot_regs (g : BootSt → BootSt) : (s.updBoot g).regs = s.regs := rfl
@[simp] theorem State.updBoot_windows (g : BootSt → BootSt) : (s.updBoot g).windows = s.windows := rfl
@[simp] theorem State.updBoot_tick (g : BootSt → BootSt) : (s.updBoot g).tick = s.tick := rfl
@[simp] theorem State.updBoot_start (g : BootSt → BootSt) : (s.updBoot g).start = s.start := rfl
@[simp] theorem State.updBoot_power (g : BootSt → BootSt) : (s.updBoot g).power = s.power := rfl
@[simp] theorem State.updBoot_thermal (g : BootSt → BootSt) : (s.updBoot g).thermal = s.thermal := rfl
@[simp] theorem State.updBoot_fields (g : BootSt → BootSt) : (s.updBoot g).fields = s.fields := rfl
@[simp] theorem State.updBoot_cores (g : BootSt → BootSt) : (s.updBoot g).cores = s.cores := rfl
@[simp] theorem State.updBoot_placements (g : BootSt → BootSt) : (s.updBoot g).placements = s.placements := rfl
@[simp] theorem State.updBoot_airspaces (g : BootSt → BootSt) : (s.updBoot g).airspaces = s.airspaces := rfl
@[simp] theorem State.updBoot_sessions (g : BootSt → BootSt) : (s.updBoot g).sessions = s.sessions := rfl
@[simp] theorem State.updBoot_hbm (g : BootSt → BootSt) : (s.updBoot g).hbm = s.hbm := rfl
@[simp] theorem State.updBoot_eth (g : BootSt → BootSt) : (s.updBoot g).eth = s.eth := rfl
@[simp] theorem State.updBoot_links (g : BootSt → BootSt) : (s.updBoot g).links = s.links := rfl
@[simp] theorem State.updBoot_transfers (g : BootSt → BootSt) : (s.updBoot g).transfers = s.transfers := rfl
@[simp] theorem State.updBoot_assemblies (g : BootSt → BootSt) : (s.updBoot g).assemblies = s.assemblies := rfl
@[simp] theorem State.updBoot_nextTransfer (g : BootSt → BootSt) : (s.updBoot g).nextTransfer = s.nextTransfer := rfl
@[simp] theorem State.updBoot_chunkStore (g : BootSt → BootSt) : (s.updBoot g).chunkStore = s.chunkStore := rfl
@[simp] theorem State.updBoot_host (g : BootSt → BootSt) : (s.updBoot g).host = s.host := rfl
@[simp] theorem State.updBoot_mgmt (g : BootSt → BootSt) : (s.updBoot g).mgmt = s.mgmt := rfl
@[simp] theorem State.updBoot_boot (g : BootSt → BootSt) : (s.updBoot g).boot = g s.boot := rfl
@[simp] theorem State.updBoot_health (g : BootSt → BootSt) : (s.updBoot g).health = s.health := rfl
@[simp] theorem State.updBoot_scrubWords (g : BootSt → BootSt) : (s.updBoot g).scrubWords = s.scrubWords := rfl
@[simp] theorem State.updBoot_remoteWait (g : BootSt → BootSt) : (s.updBoot g).remoteWait = s.remoteWait := rfl
@[simp] theorem State.updBoot_mergeWindow (g : BootSt → BootSt) : (s.updBoot g).mergeWindow = s.mergeWindow := rfl
@[simp] theorem State.updBoot_linkDownTh (g : BootSt → BootSt) : (s.updBoot g).linkDownTh = s.linkDownTh := rfl
@[simp] theorem State.updBoot_rollbackHold (g : BootSt → BootSt) : (s.updBoot g).rollbackHold = s.rollbackHold := rfl
@[simp] theorem State.updBoot_twinProtection (g : BootSt → BootSt) : (s.updBoot g).twinProtection = s.twinProtection := rfl
@[simp] theorem State.updBoot_gust (g : BootSt → BootSt) : (s.updBoot g).gust = s.gust := rfl
@[simp] theorem State.updBoot_nextRequest (g : BootSt → BootSt) : (s.updBoot g).nextRequest = s.nextRequest := rfl
@[simp] theorem State.updBoot_freeUses (g : BootSt → BootSt) : (s.updBoot g).freeUses = s.freeUses := rfl
@[simp] theorem State.updBoot_records (g : BootSt → BootSt) : (s.updBoot g).records = s.records := rfl
@[simp] theorem State.updBoot_lateRecords (g : BootSt → BootSt) : (s.updBoot g).lateRecords = s.lateRecords := rfl
@[simp] theorem State.updBoot_acks (g : BootSt → BootSt) : (s.updBoot g).acks = s.acks := rfl
@[simp] theorem State.updBoot_out (g : BootSt → BootSt) : (s.updBoot g).out = s.out := rfl
@[simp] theorem State.updBoot_pending (g : BootSt → BootSt) : (s.updBoot g).pending = s.pending := rfl

/-! ### updMgmt -/

@[simp] theorem State.updMgmt_regs (g : MgmtSt → MgmtSt) : (s.updMgmt g).regs = s.regs := rfl
@[simp] theorem State.updMgmt_windows (g : MgmtSt → MgmtSt) : (s.updMgmt g).windows = s.windows := rfl
@[simp] theorem State.updMgmt_tick (g : MgmtSt → MgmtSt) : (s.updMgmt g).tick = s.tick := rfl
@[simp] theorem State.updMgmt_start (g : MgmtSt → MgmtSt) : (s.updMgmt g).start = s.start := rfl
@[simp] theorem State.updMgmt_power (g : MgmtSt → MgmtSt) : (s.updMgmt g).power = s.power := rfl
@[simp] theorem State.updMgmt_thermal (g : MgmtSt → MgmtSt) : (s.updMgmt g).thermal = s.thermal := rfl
@[simp] theorem State.updMgmt_fields (g : MgmtSt → MgmtSt) : (s.updMgmt g).fields = s.fields := rfl
@[simp] theorem State.updMgmt_cores (g : MgmtSt → MgmtSt) : (s.updMgmt g).cores = s.cores := rfl
@[simp] theorem State.updMgmt_placements (g : MgmtSt → MgmtSt) : (s.updMgmt g).placements = s.placements := rfl
@[simp] theorem State.updMgmt_airspaces (g : MgmtSt → MgmtSt) : (s.updMgmt g).airspaces = s.airspaces := rfl
@[simp] theorem State.updMgmt_sessions (g : MgmtSt → MgmtSt) : (s.updMgmt g).sessions = s.sessions := rfl
@[simp] theorem State.updMgmt_hbm (g : MgmtSt → MgmtSt) : (s.updMgmt g).hbm = s.hbm := rfl
@[simp] theorem State.updMgmt_eth (g : MgmtSt → MgmtSt) : (s.updMgmt g).eth = s.eth := rfl
@[simp] theorem State.updMgmt_links (g : MgmtSt → MgmtSt) : (s.updMgmt g).links = s.links := rfl
@[simp] theorem State.updMgmt_transfers (g : MgmtSt → MgmtSt) : (s.updMgmt g).transfers = s.transfers := rfl
@[simp] theorem State.updMgmt_assemblies (g : MgmtSt → MgmtSt) : (s.updMgmt g).assemblies = s.assemblies := rfl
@[simp] theorem State.updMgmt_nextTransfer (g : MgmtSt → MgmtSt) : (s.updMgmt g).nextTransfer = s.nextTransfer := rfl
@[simp] theorem State.updMgmt_chunkStore (g : MgmtSt → MgmtSt) : (s.updMgmt g).chunkStore = s.chunkStore := rfl
@[simp] theorem State.updMgmt_host (g : MgmtSt → MgmtSt) : (s.updMgmt g).host = s.host := rfl
@[simp] theorem State.updMgmt_mgmt (g : MgmtSt → MgmtSt) : (s.updMgmt g).mgmt = g s.mgmt := rfl
@[simp] theorem State.updMgmt_boot (g : MgmtSt → MgmtSt) : (s.updMgmt g).boot = s.boot := rfl
@[simp] theorem State.updMgmt_health (g : MgmtSt → MgmtSt) : (s.updMgmt g).health = s.health := rfl
@[simp] theorem State.updMgmt_scrubWords (g : MgmtSt → MgmtSt) : (s.updMgmt g).scrubWords = s.scrubWords := rfl
@[simp] theorem State.updMgmt_remoteWait (g : MgmtSt → MgmtSt) : (s.updMgmt g).remoteWait = s.remoteWait := rfl
@[simp] theorem State.updMgmt_mergeWindow (g : MgmtSt → MgmtSt) : (s.updMgmt g).mergeWindow = s.mergeWindow := rfl
@[simp] theorem State.updMgmt_linkDownTh (g : MgmtSt → MgmtSt) : (s.updMgmt g).linkDownTh = s.linkDownTh := rfl
@[simp] theorem State.updMgmt_rollbackHold (g : MgmtSt → MgmtSt) : (s.updMgmt g).rollbackHold = s.rollbackHold := rfl
@[simp] theorem State.updMgmt_twinProtection (g : MgmtSt → MgmtSt) : (s.updMgmt g).twinProtection = s.twinProtection := rfl
@[simp] theorem State.updMgmt_gust (g : MgmtSt → MgmtSt) : (s.updMgmt g).gust = s.gust := rfl
@[simp] theorem State.updMgmt_nextRequest (g : MgmtSt → MgmtSt) : (s.updMgmt g).nextRequest = s.nextRequest := rfl
@[simp] theorem State.updMgmt_freeUses (g : MgmtSt → MgmtSt) : (s.updMgmt g).freeUses = s.freeUses := rfl
@[simp] theorem State.updMgmt_records (g : MgmtSt → MgmtSt) : (s.updMgmt g).records = s.records := rfl
@[simp] theorem State.updMgmt_lateRecords (g : MgmtSt → MgmtSt) : (s.updMgmt g).lateRecords = s.lateRecords := rfl
@[simp] theorem State.updMgmt_acks (g : MgmtSt → MgmtSt) : (s.updMgmt g).acks = s.acks := rfl
@[simp] theorem State.updMgmt_out (g : MgmtSt → MgmtSt) : (s.updMgmt g).out = s.out := rfl
@[simp] theorem State.updMgmt_pending (g : MgmtSt → MgmtSt) : (s.updMgmt g).pending = s.pending := rfl

/-! ### updLinks -/

@[simp] theorem State.updLinks_regs (g : LinksSt → LinksSt) : (s.updLinks g).regs = s.regs := rfl
@[simp] theorem State.updLinks_windows (g : LinksSt → LinksSt) : (s.updLinks g).windows = s.windows := rfl
@[simp] theorem State.updLinks_tick (g : LinksSt → LinksSt) : (s.updLinks g).tick = s.tick := rfl
@[simp] theorem State.updLinks_start (g : LinksSt → LinksSt) : (s.updLinks g).start = s.start := rfl
@[simp] theorem State.updLinks_power (g : LinksSt → LinksSt) : (s.updLinks g).power = s.power := rfl
@[simp] theorem State.updLinks_thermal (g : LinksSt → LinksSt) : (s.updLinks g).thermal = s.thermal := rfl
@[simp] theorem State.updLinks_fields (g : LinksSt → LinksSt) : (s.updLinks g).fields = s.fields := rfl
@[simp] theorem State.updLinks_cores (g : LinksSt → LinksSt) : (s.updLinks g).cores = s.cores := rfl
@[simp] theorem State.updLinks_placements (g : LinksSt → LinksSt) : (s.updLinks g).placements = s.placements := rfl
@[simp] theorem State.updLinks_airspaces (g : LinksSt → LinksSt) : (s.updLinks g).airspaces = s.airspaces := rfl
@[simp] theorem State.updLinks_sessions (g : LinksSt → LinksSt) : (s.updLinks g).sessions = s.sessions := rfl
@[simp] theorem State.updLinks_hbm (g : LinksSt → LinksSt) : (s.updLinks g).hbm = s.hbm := rfl
@[simp] theorem State.updLinks_eth (g : LinksSt → LinksSt) : (s.updLinks g).eth = s.eth := rfl
@[simp] theorem State.updLinks_links (g : LinksSt → LinksSt) : (s.updLinks g).links = g s.links := rfl
@[simp] theorem State.updLinks_transfers (g : LinksSt → LinksSt) : (s.updLinks g).transfers = s.transfers := rfl
@[simp] theorem State.updLinks_assemblies (g : LinksSt → LinksSt) : (s.updLinks g).assemblies = s.assemblies := rfl
@[simp] theorem State.updLinks_nextTransfer (g : LinksSt → LinksSt) : (s.updLinks g).nextTransfer = s.nextTransfer := rfl
@[simp] theorem State.updLinks_chunkStore (g : LinksSt → LinksSt) : (s.updLinks g).chunkStore = s.chunkStore := rfl
@[simp] theorem State.updLinks_host (g : LinksSt → LinksSt) : (s.updLinks g).host = s.host := rfl
@[simp] theorem State.updLinks_mgmt (g : LinksSt → LinksSt) : (s.updLinks g).mgmt = s.mgmt := rfl
@[simp] theorem State.updLinks_boot (g : LinksSt → LinksSt) : (s.updLinks g).boot = s.boot := rfl
@[simp] theorem State.updLinks_health (g : LinksSt → LinksSt) : (s.updLinks g).health = s.health := rfl
@[simp] theorem State.updLinks_scrubWords (g : LinksSt → LinksSt) : (s.updLinks g).scrubWords = s.scrubWords := rfl
@[simp] theorem State.updLinks_remoteWait (g : LinksSt → LinksSt) : (s.updLinks g).remoteWait = s.remoteWait := rfl
@[simp] theorem State.updLinks_mergeWindow (g : LinksSt → LinksSt) : (s.updLinks g).mergeWindow = s.mergeWindow := rfl
@[simp] theorem State.updLinks_linkDownTh (g : LinksSt → LinksSt) : (s.updLinks g).linkDownTh = s.linkDownTh := rfl
@[simp] theorem State.updLinks_rollbackHold (g : LinksSt → LinksSt) : (s.updLinks g).rollbackHold = s.rollbackHold := rfl
@[simp] theorem State.updLinks_twinProtection (g : LinksSt → LinksSt) : (s.updLinks g).twinProtection = s.twinProtection := rfl
@[simp] theorem State.updLinks_gust (g : LinksSt → LinksSt) : (s.updLinks g).gust = s.gust := rfl
@[simp] theorem State.updLinks_nextRequest (g : LinksSt → LinksSt) : (s.updLinks g).nextRequest = s.nextRequest := rfl
@[simp] theorem State.updLinks_freeUses (g : LinksSt → LinksSt) : (s.updLinks g).freeUses = s.freeUses := rfl
@[simp] theorem State.updLinks_records (g : LinksSt → LinksSt) : (s.updLinks g).records = s.records := rfl
@[simp] theorem State.updLinks_lateRecords (g : LinksSt → LinksSt) : (s.updLinks g).lateRecords = s.lateRecords := rfl
@[simp] theorem State.updLinks_acks (g : LinksSt → LinksSt) : (s.updLinks g).acks = s.acks := rfl
@[simp] theorem State.updLinks_out (g : LinksSt → LinksSt) : (s.updLinks g).out = s.out := rfl
@[simp] theorem State.updLinks_pending (g : LinksSt → LinksSt) : (s.updLinks g).pending = s.pending := rfl

/-! ### emit -/

@[simp] theorem State.emit_regs (o : Out) : (s.emit o).regs = s.regs := rfl
@[simp] theorem State.emit_windows (o : Out) : (s.emit o).windows = s.windows := rfl
@[simp] theorem State.emit_tick (o : Out) : (s.emit o).tick = s.tick := rfl
@[simp] theorem State.emit_start (o : Out) : (s.emit o).start = s.start := rfl
@[simp] theorem State.emit_power (o : Out) : (s.emit o).power = s.power := rfl
@[simp] theorem State.emit_thermal (o : Out) : (s.emit o).thermal = s.thermal := rfl
@[simp] theorem State.emit_fields (o : Out) : (s.emit o).fields = s.fields := rfl
@[simp] theorem State.emit_cores (o : Out) : (s.emit o).cores = s.cores := rfl
@[simp] theorem State.emit_placements (o : Out) : (s.emit o).placements = s.placements := rfl
@[simp] theorem State.emit_airspaces (o : Out) : (s.emit o).airspaces = s.airspaces := rfl
@[simp] theorem State.emit_sessions (o : Out) : (s.emit o).sessions = s.sessions := rfl
@[simp] theorem State.emit_hbm (o : Out) : (s.emit o).hbm = s.hbm := rfl
@[simp] theorem State.emit_eth (o : Out) : (s.emit o).eth = s.eth := rfl
@[simp] theorem State.emit_links (o : Out) : (s.emit o).links = s.links := rfl
@[simp] theorem State.emit_transfers (o : Out) : (s.emit o).transfers = s.transfers := rfl
@[simp] theorem State.emit_assemblies (o : Out) : (s.emit o).assemblies = s.assemblies := rfl
@[simp] theorem State.emit_nextTransfer (o : Out) : (s.emit o).nextTransfer = s.nextTransfer := rfl
@[simp] theorem State.emit_chunkStore (o : Out) : (s.emit o).chunkStore = s.chunkStore := rfl
@[simp] theorem State.emit_host (o : Out) : (s.emit o).host = s.host := rfl
@[simp] theorem State.emit_mgmt (o : Out) : (s.emit o).mgmt = s.mgmt := rfl
@[simp] theorem State.emit_boot (o : Out) : (s.emit o).boot = s.boot := rfl
@[simp] theorem State.emit_health (o : Out) : (s.emit o).health = s.health := rfl
@[simp] theorem State.emit_scrubWords (o : Out) : (s.emit o).scrubWords = s.scrubWords := rfl
@[simp] theorem State.emit_remoteWait (o : Out) : (s.emit o).remoteWait = s.remoteWait := rfl
@[simp] theorem State.emit_mergeWindow (o : Out) : (s.emit o).mergeWindow = s.mergeWindow := rfl
@[simp] theorem State.emit_linkDownTh (o : Out) : (s.emit o).linkDownTh = s.linkDownTh := rfl
@[simp] theorem State.emit_rollbackHold (o : Out) : (s.emit o).rollbackHold = s.rollbackHold := rfl
@[simp] theorem State.emit_twinProtection (o : Out) : (s.emit o).twinProtection = s.twinProtection := rfl
@[simp] theorem State.emit_gust (o : Out) : (s.emit o).gust = s.gust := rfl
@[simp] theorem State.emit_nextRequest (o : Out) : (s.emit o).nextRequest = s.nextRequest := rfl
@[simp] theorem State.emit_freeUses (o : Out) : (s.emit o).freeUses = s.freeUses := rfl
@[simp] theorem State.emit_records (o : Out) : (s.emit o).records = s.records := rfl
@[simp] theorem State.emit_lateRecords (o : Out) : (s.emit o).lateRecords = s.lateRecords := rfl
@[simp] theorem State.emit_acks (o : Out) : (s.emit o).acks = s.acks := rfl
@[simp] theorem State.emit_out (o : Out) : (s.emit o).out = s.out ++ [o] := rfl
@[simp] theorem State.emit_pending (o : Out) : (s.emit o).pending = s.pending := rfl

end Sys2Proof.Machine
end

