-- ==== Sys2Proof/Laws/Tables.lean ====
section
/-! SUPPORT. Laws of the tables, the byte memory, little-endian values, register fields and the folds of the module. -/

namespace Sys2Proof

/-! ### Tables -/

@[simp] theorem Tbl.getD_set_same {α : Type} (t : Tbl α) (k : Nat) (v d : α) : (t.set k v).getD k d = v := by
  induction t with
  | nil => simp [Tbl.set, Tbl.getD]
  | cons e t ih =>
    obtain ⟨j, w⟩ := e
    unfold Tbl.set
    split
    · simp [Tbl.getD]
    · split
      · simp [Tbl.getD]
      · simp [Tbl.getD, *]

theorem Tbl.getD_set_other {α : Type} (t : Tbl α) (k j : Nat) (v d : α) (h : j ≠ k) : (t.set k v).getD j d = t.getD j d := by
  induction t with
  | nil => simp [Tbl.set, Tbl.getD, Ne.symm h]
  | cons e t ih =>
    obtain ⟨i, w⟩ := e
    unfold Tbl.set
    split
    · next e => subst e; simp [Tbl.getD, Ne.symm h]
    · split
      · simp [Tbl.getD, Ne.symm h]
      · simp only [Tbl.getD, ih]

@[simp] theorem Tbl.find_set_same {α : Type} (t : Tbl α) (k : Nat) (v : α) : (t.set k v).find k = some v := by
  induction t with
  | nil => simp [Tbl.set, Tbl.find]
  | cons e t ih =>
    obtain ⟨j, w⟩ := e
    unfold Tbl.set
    split
    · simp [Tbl.find]
    · split
      · simp [Tbl.find]
      · simp [Tbl.find, *]

theorem Tbl.find_set_other {α : Type} (t : Tbl α) (k j : Nat) (v : α) (h : j ≠ k) : (t.set k v).find j = t.find j := by
  induction t with
  | nil => simp [Tbl.set, Tbl.find, Ne.symm h]
  | cons e t ih =>
    obtain ⟨i, w⟩ := e
    unfold Tbl.set
    split
    · next e => subst e; simp [Tbl.find, Ne.symm h]
    · split
      · simp [Tbl.find, Ne.symm h]
      · simp only [Tbl.find, ih]

/-! ### Byte memory -/

@[simp] theorem Mem.read_nil (k : Nat) : Mem.read [] k = 0 := rfl

theorem Mem.read_of_wfFrom (m : Mem) (lo k : Nat) (h : m.wfFrom lo = true) (hk : k < lo) : m.read k = 0 := by
  induction m generalizing lo with
  | nil => rfl
  | cons e m ih =>
    obtain ⟨a, b⟩ := e
    simp only [Mem.wfFrom, Bool.and_eq_true, decide_eq_true_eq] at h
    have : a ≠ k := by omega
    simp only [Mem.read, this, if_false]
    exact ih (a + 1) h.2 (by omega)

theorem Mem.wfFrom_mono (m : Mem) (lo lo' : Nat) (h : m.wfFrom lo = true) (hl : lo' ≤ lo) : m.wfFrom lo' = true := by
  cases m with
  | nil => rfl
  | cons e m =>
    obtain ⟨a, b⟩ := e
    simp only [Mem.wfFrom, Bool.and_eq_true, decide_eq_true_eq] at h ⊢
    exact ⟨⟨by omega, h.1.2⟩, h.2⟩

/-- Taking entries out keeps the canonical form. -/
theorem Mem.wfFrom_filter (m : Mem) (p : Host.Cell → Bool) (lo : Nat) (h : m.wfFrom lo = true) : Mem.wfFrom lo (m.filter p) = true := by
  induction m generalizing lo with
  | nil => rfl
  | cons e m ih =>
    obtain ⟨a, b⟩ := e
    simp only [Mem.wfFrom, Bool.and_eq_true, decide_eq_true_eq] at h
    by_cases hp : p (a, b) = true
    · simp only [List.filter_cons, hp, if_true, Mem.wfFrom, Bool.and_eq_true, decide_eq_true_eq]
      exact ⟨h.1, ih (a + 1) h.2⟩
    · simp only [List.filter_cons, hp, if_false, Bool.false_eq_true]
      exact Mem.wfFrom_mono _ _ _ (ih (a + 1) h.2) (by omega)

theorem Mem.wf_filter (m : Mem) (p : Host.Cell → Bool) (h : m.wf = true) : Mem.wf (m.filter p) = true := Mem.wfFrom_filter m p 0 h

theorem Mem.wfFrom_place (m : Mem) (lo k : Nat) (v : Byte) (hv : v ≠ 0) (h : m.wfFrom lo = true) (hk : lo ≤ k) : (m.place k v).wfFrom lo = true := by
  induction m generalizing lo with
  | nil => simpa [Mem.place, Mem.wfFrom] using ⟨hk, hv⟩
  | cons e m ih =>
    obtain ⟨a, b⟩ := e
    simp only [Mem.wfFrom, Bool.and_eq_true, decide_eq_true_eq] at h
    unfold Mem.place
    split
    · next e => subst e; simpa [Mem.wfFrom, h] using hv
    · split
      · simp only [Mem.wfFrom, Bool.and_eq_true, decide_eq_true_eq]; exact ⟨⟨hk, by simpa using hv⟩, ⟨by omega, h.1.2⟩, h.2⟩
      · simp only [Mem.wfFrom, Bool.and_eq_true, decide_eq_true_eq]
        exact ⟨h.1, ih (a + 1) h.2 (by omega)⟩

/-- A write keeps the canonical form. -/
theorem Mem.wf_write (m : Mem) (k : Nat) (v : Byte) (h : m.wf = true) : (m.write k v).wf = true := by
  unfold Mem.write
  split
  · exact Mem.wf_filter m _ h
  · next hv => exact Mem.wfFrom_place m 0 k v hv h (Nat.zero_le k)

/-- So does a run of writes. -/
theorem Mem.wf_writeBytes (m : Mem) (k : Nat) (bs : List Byte) (h : m.wf = true) : (m.writeBytes k bs).wf = true := by
  induction bs generalizing m k with
  | nil => exact h
  | cons b bs ih => exact ih _ _ (Mem.wf_write m k b h)

theorem Mem.wf_setLe (m : Mem) (a n v : Nat) (h : m.wf = true) : (m.setLe a n v).wf = true := Mem.wf_writeBytes m a _ h

theorem Mem.read_place (m : Mem) (k j : Nat) (v : Byte) : (m.place k v).read j = if j = k then v else m.read j := by
  induction m with
  | nil => simp [Mem.place, Mem.read, eq_comm]
  | cons e m ih =>
    obtain ⟨a, b⟩ := e
    unfold Mem.place
    split
    · next e =>
      subst e
      by_cases hj : a = j
      · simp [Mem.read, hj]
      · simp [Mem.read, hj, Ne.symm hj]
    · split
      · by_cases hj : k = j
        · simp [Mem.read, hj]
        · simp [Mem.read, hj, Ne.symm hj]
      · next hak _ =>
        by_cases hj : a = j
        · subst hj; simp [Mem.read, hak]
        · simp only [Mem.read, hj, if_false, ih]

theorem Mem.read_filter (m : Mem) (k j : Nat) : Mem.read (m.filter fun e => e.1 != k) j = if j = k then 0 else m.read j := by
  induction m with
  | nil => simp [Mem.read]
  | cons e m ih =>
    obtain ⟨a, b⟩ := e
    by_cases ha : a = k
    · subst ha
      by_cases hj : j = a
      · subst hj; simp [ih]
      · simp [Mem.read, ih, hj, Ne.symm hj]
    · by_cases hj : a = j
      · subst hj; simp [Mem.read, ha]
      · simp [Mem.read, ha, hj, ih]

/-- A read after a write: the value written there, what was there elsewhere. -/
theorem Mem.read_write (m : Mem) (k j : Nat) (v : Byte) : (m.write k v).read j = if j = k then v else m.read j := by
  unfold Mem.write
  split
  · next h => rw [Mem.read_filter, h]
  · exact Mem.read_place m k j v

/-- A read after a run of writes. -/
theorem Mem.read_writeBytes (m : Mem) (a j : Nat) (bs : List Byte) :
    (m.writeBytes a bs).read j = if a ≤ j ∧ j < a + bs.length then bs.getD (j - a) 0 else m.read j := by
  induction bs generalizing m a with
  | nil => rw [if_neg (by simp only [List.length_nil]; omega)]; rfl
  | cons b bs ih =>
    rw [Mem.writeBytes, ih, Mem.read_write]
    by_cases h1 : a ≤ j
    · by_cases h2 : j = a
      · subst h2
        have h3 : ¬ (j + 1 ≤ j ∧ j < j + 1 + bs.length) := by omega
        have h4 : j ≤ j ∧ j < j + (b :: bs).length := by simp
        rw [if_neg h3, if_pos h4]; simp
      · have h3 : a + 1 ≤ j := by omega
        have h4 : j - a = (j - (a + 1)) + 1 := by omega
        simp only [h1, h3, h2, true_and, if_false, List.length_cons, h4, List.getD_cons_succ]
        by_cases h5 : j < a + 1 + bs.length
        · rw [if_pos h5, if_pos (by omega)]
        · rw [if_neg h5, if_neg (by omega)]
    · have h3 : ¬ a + 1 ≤ j := by omega
      have h2 : j ≠ a := by omega
      simp [h1, h3, h2]

/-! ### Little-endian values -/

@[simp] theorem leBytes_length (n v : Nat) : (leBytes n v).length = n := by
  induction n generalizing v with
  | zero => rfl
  | succ n ih => simp [leBytes, ih]

/-- The value of the n bytes of v is v modulo 2^(8 n). -/
theorem leNat_leBytes (n v : Nat) : leNat (leBytes n v) = v % 256 ^ n := by
  induction n generalizing v with
  | zero => simp [leBytes, leNat, Nat.mod_one]
  | succ n ih =>
    simp only [leBytes, leNat, ih, BitVec.toNat_ofNat]
    have e : 256 ^ (n + 1) = 256 * 256 ^ n := by rw [Nat.pow_succ, Nat.mul_comm]
    rw [e, Nat.mod_mul]

end Sys2Proof

namespace Sys2Proof.Machine

/-! ### Lookups after updates -/

@[simp] theorem State.field_setField (s : State) (f : Nat) (v : FieldSt) : (s.setField f v).field f = v := by simp [State.field]
theorem State.field_setField_other (s : State) (f k : Nat) (v : FieldSt) (h : k ≠ f) : (s.setField f v).field k = s.field k := by
  simp [State.field, Tbl.getD_set_other, h]
@[simp] theorem State.field_updField (s : State) (f : Nat) (g : FieldSt → FieldSt) : (s.updField f g).field f = g (s.field f) := by
  simp [State.field]
theorem State.field_updField_other (s : State) (f k : Nat) (g : FieldSt → FieldSt) (h : k ≠ f) : (s.updField f g).field k = s.field k := by
  simp [State.field, Tbl.getD_set_other, h]
@[simp] theorem State.core_updCore (s : State) (n : Nat) (g : CoreSt → CoreSt) : (s.updCore n g).core n = g (s.core n) := by simp [State.core]
theorem State.core_updCore_other (s : State) (n k : Nat) (g : CoreSt → CoreSt) (h : k ≠ n) : (s.updCore n g).core k = s.core k := by
  simp [State.core, Tbl.getD_set_other, h]
@[simp] theorem State.plc_updPlc (s : State) (p : Nat) (g : PlacementSt → PlacementSt) : (s.updPlc p g).plc p = g (s.plc p) := by
  simp [State.plc]
theorem State.plc_updPlc_other (s : State) (p k : Nat) (g : PlacementSt → PlacementSt) (h : k ≠ p) : (s.updPlc p g).plc k = s.plc k := by
  simp [State.plc, Tbl.getD_set_other, h]
@[simp] theorem State.asp_updAsp (s : State) (a : Nat) (g : AirspaceSt → AirspaceSt) : (s.updAsp a g).asp a = g (s.asp a) := by simp [State.asp]
@[simp] theorem State.asp_setAsp (s : State) (a : Nat) (v : AirspaceSt) : (s.setAsp a v).asp a = v := by simp [State.asp]
theorem State.asp_updAsp_other (s : State) (a k : Nat) (g : AirspaceSt → AirspaceSt) (h : k ≠ a) : (s.updAsp a g).asp k = s.asp k := by
  simp [State.asp, Tbl.getD_set_other, h]
@[simp] theorem State.sess_updSess (s : State) (n : Nat) (g : Desc → Desc) : (s.updSess n g).sess n = g (s.sess n) := by simp [State.sess]
@[simp] theorem State.sess_setSess (s : State) (n : Nat) (v : Desc) : (s.setSess n v).sess n = v := by simp [State.sess]
theorem State.sess_updSess_other (s : State) (n k : Nat) (g : Desc → Desc) (h : k ≠ n) : (s.updSess n g).sess k = s.sess k := by
  simp [State.sess, Tbl.getD_set_other, h]
@[simp] theorem State.stack_updStack (s : State) (n : Nat) (g : StackSt → StackSt) : (s.updStack n g).stack n = g (s.stack n) := by
  simp [State.stack]
@[simp] theorem State.ethPort_updEth (s : State) (n : Nat) (g : EthPort → EthPort) : (s.updEth n g).ethPort n = g (s.ethPort n) := by
  simp [State.ethPort]
@[simp] theorem State.port_updPort (s : State) (n : Nat) (g : ObtikPort → ObtikPort) : (s.updPort n g).port n = g (s.port n) := by
  simp [State.port]

/-! ### Registers -/

@[simp] theorem State.reg_setReg (s : State) (a : Nat) (v : W32) : (s.setReg a v).reg a = v := by simp [State.reg]
theorem State.reg_setReg_other (s : State) (a b : Nat) (v : W32) (h : b ≠ a) : (s.setReg a v).reg b = s.reg b := by
  simp [State.reg, Tbl.getD_set_other, h]
theorem State.reg_put_other (s : State) (f : Fld) (v b : Nat) (h : b ≠ f.addr) : (s.put f v).reg b = s.reg b := by
  simp [State.put, State.reg_setReg_other, h]
theorem State.get_put_other (s : State) (f g : Fld) (v : Nat) (h : g.addr ≠ f.addr) : (s.put f v).get g = s.get g := by
  simp [State.get, State.reg_put_other, h]

/-- The bits of a field are in its mask. -/
theorem Fld.mask_bit (f : Fld) (i : Nat) (hi : f.hi < 32) (hl : f.lo ≤ f.hi) (h : i < f.hi - f.lo + 1) : f.mask.getLsbD (f.lo + i) = true := by
  simp only [Fld.mask, BitVec.getLsbD_ofNat, Nat.testBit_mul_two_pow, Nat.testBit_two_pow_sub_one]
  simp; omega

/-- A field reads what was last put into it. -/
theorem State.get_put (s : State) (f : Fld) (v : Nat) (hi : f.hi < 32) (hl : f.lo ≤ f.hi) (hv : v < 2 ^ (f.hi - f.lo + 1)) : (s.put f v).get f = v := by
  apply Nat.eq_of_testBit_eq
  intro i
  simp only [State.get, State.put, State.reg_setReg, bits, Nat.testBit_mod_two_pow, Nat.testBit_div_two_pow]
  by_cases h : i < f.hi - f.lo + 1
  · have hm := f.mask_bit i hi hl h
    have h32 : f.lo + i < 32 := by omega
    rw [BitVec.testBit_toNat, Nat.add_comm i f.lo]
    simp only [BitVec.getLsbD_or, BitVec.getLsbD_and, BitVec.getLsbD_not, hm, BitVec.getLsbD_ofNat, Nat.testBit_mul_two_pow]
    simp [h, h32]
  · simp only [h, decide_false, Bool.false_and]
    symm
    exact Nat.testBit_lt_two_pow (Nat.lt_of_lt_of_le hv (Nat.pow_le_pow_right (by omega) (by omega)))
/-! ### Folds -/

/-- A fold keeps what its step keeps. -/
theorem foldl_keeps {α β : Type} (p : State → β) (l : List α) (g : State → α → State) (h : ∀ t x, p (g t x) = p t) (s : State) :
    p (l.foldl g s) = p s := by
  induction l generalizing s with
  | nil => rfl
  | cons a l ih => rw [List.foldl_cons, ih, h]

theorem forAll_keeps {β : Type} (p : State → β) (l : List Nat) (g : State → Nat → State) (h : ∀ t x, p (g t x) = p t) (s : State) :
    p (s.forAll l g) = p s := foldl_keeps p l g h s

end Sys2Proof.Machine
end

