-- ==== Sys2Proof/Laws/Replies.lean ====
section
/-! SUPPORT. What giving an answer does (R390, R428): one more answer to its source, and nothing changed but the reply bookkeeping. -/

namespace Sys2Proof.Machine

theorem repliesIn_append (l k : List Out) : repliesIn (l ++ k) = repliesIn l ++ repliesIn k := by
  induction l with
  | nil => rfl
  | cons o l ih => cases o <;> simp [repliesIn, ih]

theorem bmcRepliesIn_append (l k : List Out) : bmcRepliesIn (l ++ k) = bmcRepliesIn l ++ bmcRepliesIn k := by
  induction l with
  | nil => rfl
  | cons o l ih => cases o <;> simp [bmcRepliesIn, ih]

/-- A state that differs from `s` in its registers, what left it and its reply bookkeeping only. -/
structure ReplyFrame (s t : State) : Prop where
  out : s.out <+: t.out
  frame : t = { s with
    regs := t.regs
    out := t.out
    host := { s.host with held := t.host.held, replyNum := t.host.replyNum, sigReply := t.host.sigReply } }
  regs : ∀ a, a ∉ answerRegs → t.reg a = s.reg a

theorem ReplyFrame.refl (s : State) : ReplyFrame s s := ⟨List.prefix_rfl, rfl, fun _ _ => rfl⟩

theorem ReplyFrame.trans {s t u : State} (h : ReplyFrame s t) (k : ReplyFrame t u) : ReplyFrame s u := by
  refine ⟨h.out.trans k.out, ?_, fun a ha => (k.regs a ha).trans (h.regs a ha)⟩
  rw [k.frame, h.frame]

theorem ReplyFrame.put (s : State) (f : Fld) (v : Nat) (h : f.addr ∈ answerRegs) : ReplyFrame s (s.put f v) :=
  ⟨List.prefix_rfl, rfl, fun a ha => State.reg_put_other s f v a (fun e => ha (e ▸ h))⟩

theorem ReplyFrame.emit (s : State) (o : Out) : ReplyFrame s (s.emit o) := ⟨⟨[o], rfl⟩, rfl, fun _ _ => rfl⟩

theorem ReplyFrame.held (s : State) (held : List Reply) (n : Nat) (sig : Bool) :
    ReplyFrame s (s.updHost fun h => { h with held := held, replyNum := n, sigReply := sig }) := ⟨List.prefix_rfl, rfl, fun _ _ => rfl⟩

theorem refused_mem : Reg.Evc.REFUSED.addr ∈ answerRegs := by simp [answerRegs]
theorem superseded_mem : Reg.Evc.SUPERSEDED.addr ∈ answerRegs := by simp [answerRegs]
theorem replySeq_mem : Reg.Hwin.REPLY_SEQ.addr ∈ answerRegs := by simp [answerRegs]
theorem rplFull_mem : Reg.Hwin.RPL_FULL.addr ∈ answerRegs := by simp [answerRegs]

/-- Draining held replies keeps every host answer, in order. -/
theorem drainReplies_spec (k : Nat) (s : State) :
    ReplyFrame s (State.drainReplies k s) ∧ (State.drainReplies k s).answersTo .host = s.answersTo .host
      ∧ bmcRepliesIn (State.drainReplies k s).out = bmcRepliesIn s.out := by
  induction k generalizing s with
  | zero => exact ⟨ReplyFrame.refl s, rfl, rfl⟩
  | succ k ih =>
    unfold State.drainReplies
    cases hh : s.host.held with
    | nil => exact ⟨ReplyFrame.put s _ _ rplFull_mem, rfl, rfl⟩
    | cons r rest =>
      simp only
      split
      · refine ⟨?_, ?_, ?_⟩
        · exact ((ReplyFrame.emit s _).trans (ReplyFrame.put _ _ _ replySeq_mem)).trans
            ((ReplyFrame.held _ rest (seqNext s.host.replyNum) true).trans (ih _).1)
        · rw [(ih _).2.1]
          simp [State.answersTo, repliesIn_append, repliesIn, hh, Reply.unnumbered]
        · rw [(ih _).2.2]
          simp [bmcRepliesIn_append, bmcRepliesIn]
      · exact ⟨ReplyFrame.put s _ _ rplFull_mem, rfl, rfl⟩

/-- Counting a refusal or a supersession moves only its register. -/
theorem countAnswer_spec (s : State) (b c : Bool) :
    let t := if b then s.bump Reg.Evc.REFUSED else s
    let u := if c then t.bump Reg.Evc.SUPERSEDED else t
    ReplyFrame s u ∧ u.out = s.out ∧ u.host = s.host := by
  cases b <;> cases c
  · exact ⟨ReplyFrame.refl s, rfl, rfl⟩
  · exact ⟨ReplyFrame.put s _ _ superseded_mem, rfl, rfl⟩
  · exact ⟨ReplyFrame.put s _ _ refused_mem, rfl, rfl⟩
  · exact ⟨(ReplyFrame.put s _ _ refused_mem).trans (ReplyFrame.put _ _ _ superseded_mem), rfl, rfl⟩

/-- Giving an answer to the host or the BMC. -/
theorem answered_reply (s : State) (src : Src) (r : Reply) (h : src = .host ∨ src = .bmc) : Answered s (s.reply src r) src r := by
  rcases h with rfl | rfl
  · unfold State.reply State.replyAt
    simp only
    obtain ⟨h1, h2, h3⟩ := countAnswer_spec s (r.final && r.status.isRefusal) (r.final && r.status == .superseded)
    generalize hu : (if (r.final && r.status == .superseded) = true then
      State.bump (if (r.final && r.status.isRefusal) = true then s.bump Reg.Evc.REFUSED else s) Reg.Evc.SUPERSEDED
      else (if (r.final && r.status.isRefusal) = true then s.bump Reg.Evc.REFUSED else s)) = u at h1 h2 h3 ⊢
    generalize hv : (u.updHost fun h => { h with held := h.held ++ [{ r with tick := s.tick.count }] }) = v
    obtain ⟨d1, d2, d3⟩ := drainReplies_spec 1 v
    have hvf : ReplyFrame u v := by rw [← hv]; exact ReplyFrame.held u _ u.host.replyNum u.host.sigReply
    have f := (h1.trans hvf).trans d1
    refine ⟨?_, ?_, f.out, f.frame, f.regs⟩
    · rw [d2, ← hv]
      simp [State.answersTo, h2, h3, Reply.unnumbered]
    · intro o ho
      cases o with
      | host => exact absurd rfl ho
      | bmc => simp only [State.answersTo]; rw [d3, ← hv]; simp [h2]
      | ceiling => rfl
      | peer => rfl
  · refine ⟨?_, ?_, ⟨[_], rfl⟩, rfl, fun _ _ => rfl⟩
    · simp [State.reply, State.replyAt, State.answersTo, bmcRepliesIn_append, bmcRepliesIn, Reply.unnumbered]
    · intro o ho
      cases o with
      | host => simp [State.reply, State.replyAt, State.answersTo, repliesIn_append, repliesIn]
      | bmc => exact absurd rfl ho
      | ceiling => rfl
      | peer => rfl

theorem answered_answer (s : State) (h : CmdHdr) (op : Nat) (st : Status) (hs : h.src = .host ∨ h.src = .bmc) :
    Answered s (s.answer h op st) h.src (finalOf h op st) := answered_reply s h.src _ hs

theorem answered_badParam (s : State) (h : CmdHdr) (op o : Nat) (hs : h.src = .host ∨ h.src = .bmc) :
    Answered s (s.badParam h op o) h.src (badFieldOf h op o) := answered_reply s h.src _ hs

theorem answered_pend (s : State) (h : CmdHdr) (op : Nat) (hs : h.src = .host ∨ h.src = .bmc) :
    Answered s (s.pend h op []) h.src (pendingOf h op) := answered_reply s h.src _ hs

/-- An order accepted for the next boundary. -/
theorem books_atBoundary (s : State) (h : CmdHdr) (op : Nat) (i : Instr) (hs : h.src = .host ∨ h.src = .bmc) :
    Books (.next (s.atBoundary h op i)) s h op i := by
  unfold Books Gives State.atBoundary
  cases hr : s.tick.running
  · exact ⟨_, rfl, answered_pend _ h op hs⟩
  · exact ⟨_, rfl, answered_answer _ h op .ok hs⟩

theorem books_atBoundaryPending (s : State) (h : CmdHdr) (op : Nat) (i : Instr) (hs : h.src = .host ∨ h.src = .bmc) :
    BooksPending (.next (s.atBoundaryPending h op i)) s h op i := ⟨_, rfl, answered_pend _ h op hs⟩

theorem gives_answer (s : State) (h : CmdHdr) (op : Nat) (st : Status) (hs : h.src = .host ∨ h.src = .bmc) :
    Gives (.next (s.answer h op st)) s h.src (finalOf h op st) := ⟨_, rfl, answered_answer s h op st hs⟩

theorem gives_reply (s : State) (src : Src) (r : Reply) (hs : src = .host ∨ src = .bmc) : Gives (.next (s.reply src r)) s src r :=
  ⟨_, rfl, answered_reply s src r hs⟩

/-- The host may send every command (R398). -/
theorem ordered_host (s : State) (h : CmdHdr) (op : Nat) (k : State → State) (hs : h.src = .host) : s.ordered h op k = k s := by
  simp [State.ordered, State.mayOrder, hs]

/-- With every field in range the command's rule runs. -/
theorem checked_ok (s : State) (h : CmdHdr) (op : Nat) (l : List (Nat × Bool)) (k : State → State) (hl : ∀ e ∈ l, e.2 = true) :
    s.checked h op l k = k s := by
  have : firstBad l = none := by
    induction l with
    | nil => rfl
    | cons e l ih => obtain ⟨o, b⟩ := e; simp_all [firstBad]
  simp [State.checked, this]

/-! ### Records that wait are written (R390, R394) -/

theorem eventsIn_append (l k : List Out) : eventsIn (l ++ k) = eventsIn l ++ eventsIn k := by
  induction l with
  | nil => rfl
  | cons o l ih => cases o <;> simp [eventsIn, ih]

theorem RingsWritten.refl (s : State) : RingsWritten s s := ⟨fun _ => rfl, rfl, List.prefix_rfl, rfl, fun _ _ => rfl⟩

theorem RingsWritten.trans {s t u : State} (h : RingsWritten s t) (k : RingsWritten t u) : RingsWritten s u := by
  refine ⟨fun o => (k.answers o).trans (h.answers o), k.events.trans h.events, h.out.trans k.out, ?_,
    fun a ha => (k.regs a ha).trans (h.regs a ha)⟩
  rw [k.frame, h.frame]

theorem RingsWritten.put (s : State) (f : Fld) (v : Nat) (h : f.addr ∈ ringRegs) : RingsWritten s (s.put f v) :=
  ⟨fun o => by cases o <;> rfl, rfl, List.prefix_rfl, rfl, fun a ha => State.reg_put_other s f v a (fun e => ha (e ▸ h))⟩

/-- Held replies that have room are written, the oldest first. -/
theorem drainReplies_rings (k : Nat) (s : State) : RingsWritten s (State.drainReplies k s)
    ∧ (State.drainReplies k s).host.eventQueue = s.host.eventQueue ∧ ∃ l, s.host.held = l ++ (State.drainReplies k s).host.held := by
  induction k generalizing s with
  | zero => exact ⟨RingsWritten.refl s, rfl, [], rfl⟩
  | succ k ih =>
    unfold State.drainReplies
    cases hh : s.host.held with
    | nil => exact ⟨RingsWritten.put s _ _ (by simp [ringRegs]), rfl, [], by simp [hh]⟩
    | cons r rest =>
      simp only
      split
      · refine ⟨RingsWritten.trans ?_ (ih _).1, (ih _).2.1, ?_⟩
        · refine ⟨fun o => ?_, ?_, ⟨[_], rfl⟩, rfl, fun a ha => ?_⟩
          · cases o <;> simp [State.answersTo, repliesIn_append, repliesIn, bmcRepliesIn_append, bmcRepliesIn, hh, Reply.unnumbered]
          · simp [State.eventsGiven, eventsIn_append, eventsIn]
          · exact State.reg_put_other _ _ _ a (fun e => ha (by simp [ringRegs, e]))
        · obtain ⟨l, hl⟩ := (ih ((State.emit s (.reply { r with num := seqNext s.host.replyNum })).put Reg.Hwin.REPLY_SEQ
            (seqNext s.host.replyNum) |>.updHost fun h => { h with replyNum := seqNext s.host.replyNum, held := rest, sigReply := true })).2.2
          exact ⟨r :: l, by simpa using hl⟩
      · exact ⟨RingsWritten.put s _ _ (by simp [ringRegs]), rfl, [], by simp [hh]⟩

/-- Queued event records that have room are written, the oldest first. -/
theorem drainEvents_rings (k : Nat) (s : State) : RingsWritten s (State.drainEvents k s)
    ∧ (State.drainEvents k s).host.held = s.host.held ∧ ∃ l, s.host.eventQueue = l ++ (State.drainEvents k s).host.eventQueue := by
  induction k generalizing s with
  | zero => exact ⟨RingsWritten.refl s, rfl, [], rfl⟩
  | succ k ih =>
    unfold State.drainEvents
    cases hh : s.host.eventQueue with
    | nil => exact ⟨RingsWritten.refl s, rfl, [], by simp [hh]⟩
    | cons e rest =>
      simp only
      split
      · refine ⟨RingsWritten.trans ?_ (ih _).1, (ih _).2.1, ?_⟩
        · refine ⟨fun o => ?_, ?_, ⟨[_], rfl⟩, rfl, fun a ha => ?_⟩
          · cases o <;> simp [State.answersTo, State.writeEvent, repliesIn_append, repliesIn, bmcRepliesIn_append, bmcRepliesIn]
          · simp [State.eventsGiven, State.writeEvent, eventsIn_append, eventsIn, hh]
          · exact State.reg_put_other _ _ _ a (fun x => ha (by simp [ringRegs, x]))
        · obtain ⟨l, hl⟩ := (ih ((s.updHost fun h => { h with eventQueue := rest }).writeEvent e)).2.2
          exact ⟨e :: l, by simpa [State.writeEvent] using hl⟩
      · exact ⟨RingsWritten.refl s, rfl, [], by simp [hh]⟩

end Sys2Proof.Machine
end

