-- ==== Sys2Proof/WellFormed.lean ====
section
/-! DEFINITION. Which terms are commands of the block: numbers that name existing parts, and values that fit the fields that carry them.
A well-formed command may still be refused by the machine; the answer to a parameter out of its range is the machine's (R392). -/

namespace Sys2Proof

/-! ### The checks -/

/-- Every value lies below its bound. -/
def below (l : List (Nat × Nat)) : Bool := l.all fun e => decide (e.1 < e.2)

/-- A field of the wafer (R15, R16). -/
def fieldWf (f : Nat) : Bool := decide (f < 88)
/-- A compute field (R18). -/
def computeWf (f : Nat) : Bool := Machine.computeFields.contains f
/-- A core of a compute field (R18). -/
def coreWf (c : Nat) : Bool := Machine.isCore c
/-- A placement (R20). -/
def placementWf (p : Nat) : Bool := decide (p < 4)
/-- An airspace (R22, R208). -/
def airspaceWf (a : Nat) : Bool := decide (a < 8)
/-- A session descriptor (R209). -/
def sessionWf (n : Nat) : Bool := decide (n < 4096)
/-- A Cloudbank stack (R24). -/
def stackWf (n : Nat) : Bool := decide (n < 48)
/-- An Obtik port (R302). -/
def obtikWf (n : Nat) : Bool := decide (n < 12)
/-- An Ethernet port (R242). -/
def ethWf (n : Nat) : Bool := decide (n < 4)
/-- A module ID (R310). -/
def moduleWf (n : Nat) : Bool := decide (n < 64)
/-- A binding of MCTP: PCI Express or SMBus (R426). -/
def bindingWf (b : Nat) : Bool := decide (b < 2)
/-- A router and one of its ports: 0 local, 1-4 its neighbours, 5 the ring (R279). -/
def routerPortWf (u port : Nat) : Bool := fieldWf u && decide (port < 6)

/-- What a command carries beside its parameters fits its fields, and a read of BUFFER returns no more than BUFFER_LEN (R389). -/
def CmdHdr.wf (h : CmdHdr) : Bool :=
  below [(h.seq, 2 ^ 32), (h.buffer, 2 ^ 64), (h.bufferLen, 2 ^ 32)] && decide (h.data.length ≤ h.bufferLen)

/-- A packet of 256 bytes: fields that fit and 224 parameter bytes (R389). -/
def CmdPacket.wf (p : CmdPacket) : Bool :=
  below [(p.opcode, 2 ^ 16), (p.seq, 2 ^ 32), (p.reserved, 2 ^ 112), (p.buffer, 2 ^ 64), (p.bufferLen, 2 ^ 32)] && p.params.length == 224
    && decide (p.data.length ≤ p.bufferLen)

/-- The sender of a stream message: fields of the width of R244. -/
def Client.wf (c : Client) : Bool :=
  airspaceWf c.airspace && ethWf c.eth && below [(c.addr, if c.v6 then 2 ^ 128 else 2 ^ 32), (c.port, 2 ^ 16), (c.seq, 2 ^ 32), (c.handle, 2 ^ 32)]

/-- Sampling values as R225 lays them out: counts of one byte, IDs of four. -/
def Sampling.wf (x : Sampling) : Bool :=
  decide (x.topK < 2 ^ 16) && decide (x.stopIds.length < 2 ^ 8) && decide (x.biases.length < 2 ^ 8)
    && x.stopIds.all (fun t => decide (t < 2 ^ 32)) && x.biases.all fun e => decide (e.1 < 2 ^ 32)

/-- A part of an OPEN or CONTINUE: fields of the width of R247, tokens of 3 bytes. -/
def OpenPart.wf (p : OpenPart) : Bool :=
  below [(p.part, 2 ^ 16), (p.parts, 2 ^ 16), (p.tokenFirst, 2 ^ 32), (p.tokens.length, 2 ^ 16), (p.promptLen, 2 ^ 32), (p.maxTokens, 2 ^ 32),
      (p.dest, 2 ^ 16), (p.cls, 2 ^ 8), (p.prefixHandle, 2 ^ 32), (p.registerLen, 2 ^ 32), (p.adapterId, 2 ^ 8)]
    && p.tokens.all (fun t => decide (t < 2 ^ 24)) && p.sampling.all Sampling.wf

/-- An IMAGE_CHUNK: fields of the width of R259. -/
def ChunkMsg.wf (m : ChunkMsg) : Bool :=
  airspaceWf m.airspace && below [(m.source, 2 ^ 128), (m.transfer, 2 ^ 16), (m.chunk, 2 ^ 32), (m.offset, 2 ^ 32), (m.data.length, 2 ^ 16)]

/-- A packet of the fabric has 1 to 64 data flits (R280). -/
def Packet.wf (p : Packet) : Bool := decide (1 ≤ p.flits.length) && decide (p.flits.length ≤ 64)

/-- A frame of an Obtik port has 1 to 64 words (R305). -/
def ObtikFrame.wf (f : ObtikFrame) : Bool := decide (1 ≤ f.words.length) && decide (f.words.length ≤ 64)

/-- A sensor's two bytes: signed temperatures, unsigned flow (R345). -/
def ThermalReads.wf (r : ThermalReads) : Bool :=
  let temp (x : TrayRead) : Bool := decide (-32768 ≤ x.raw) && decide (x.raw ≤ 32767)
  temp r.inlet && temp r.outlet && decide (0 ≤ r.flow.raw) && decide (r.flow.raw ≤ 65535)
    && r.spots.all (fun x => fieldWf x.field && decide (x.spot < 8)) && r.fieldPower.all fun e => fieldWf e.1

/-- A command of the packet families: its packet can carry it (R389, R401, R402). -/
def Instr.packetWf (i : Instr) : Bool :=
  match i.form with
  | some f => f.fits && f.header.wf && i.listsFit
  | none => false

/-! ### Commands -/

/-- Well-formed commands. -/
def WellFormed (i : Instr) : Bool :=
  match i with
  -- no operands
  | .tickBoundary | .controlSlot | .idleControlSlot | .seqStaleTimeout | .commandHeaderReturn _ _ _ | .replyRingRoom _ | .eventRingRoom _
  | .hostLinkDown _ | .busMasterEnable | .snapshotCopyComplete | .firmwareWriteComplete _ | .vaneDemandWithdraw | .beaconEmit
  | .periodHoldRelease | .detourComputed | .forcedStretchRelease | .ceilingPowerLull | .powerLullRelease | .inputUvCleared
  | .mainInputRestored | .mainInputReady | .auxInputLost | .refclkMainLoss | .perstNRelease | .overcastExitComplete | .watchdogLull
  | .restartTimeout | .zenithStagingComplete _ | .zenithResumed | .tripRelease | .outlookFormation | .outlookFit | .lifeIndexStore
  | .soundTimer | .floodQuiet | .soundingTimeLimit | .masterBeaconTimeout | .clearFaults | .capability | .voutMode | .statusWord
  | .statusVout | .statusIout | .statusInput | .statusTemperature | .statusCml | .readVin | .readIin | .readVout | .readIout
  | .readTemperature1 | .readPout | .readPin | .pmbusRevision | .mfrId | .mfrModel | .mfrCapEffective | .mfrLadder
  | .smbusAlertResponse | .platformEventRetry | .bypass _ | .idcode | .samplePreload _ | .extest | .debug | .selfTestInterval
  | .zenithNotServicing | .refclkMainRestored | .flashWpNChange _ | .platformEventAck => true
  -- the host's accesses: packets, and BAR0 of 8 MiB (R378)
  | .commandSlotReturn pkt | .bmcCommand pkt => pkt.wf
  | .hostWindowWrite addr _ | .registerWrite addr _ => decide (addr < 2 ^ 23)
  | .unsupportedAccess addr size => decide (addr < 2 ^ 23) && decide (1 ≤ size)
  -- command packets
  | .deviceInfo _ _ | .moduleReset _ _ | .zenithRestart _ _ | .powerState _ _ _ | .fieldReset _ _ | .setStretch _ _ _ _ | .setGranted _ _ _ _
  | .setCore _ _ _ _ _ | .setCap _ _ _ | .setBreaker _ _ _ _ _ | .setLead _ _ | .setThermal _ _ _ _ | .install _ _ _ _ _ _
  | .installCancel _ _ | .flip _ _ _ | .planLoad _ _ _ _ _ | .rebuild _ _ _ _ _ _ | .repair _ _ _ _ _ _ | .removePlacement _ _
  | .setWeights _ _ _ | .sessionQuery _ _ | .sessionCancel _ _ | .sessionPause _ _ _ | .sessionList _ _ _ _ | .prefixUnregister _ _ _
  | .setRound _ _ _ | .setSessionLimits _ _ _ _ _ _ | .setSampling _ _ _ _ _ _ | .setKv _ _ _ _ _ _ _ _ | .adapterLoad _ _ _ _ _ _
  | .adapterRemove _ _ _ _ | .tuneStart _ _ _ _ _ _ | .tuneStop _ _ | .tuneCommit _ _ | .tuneDiscard _ _ | .airspaceBind _ _ _
  | .airspaceUnbind _ _ | .airspaceReset _ _ | .setShares _ _ _ _ _ _ | .setAddress _ _ _ _ _ _ _ _ _ | .setFilter _ _ _
  | .setDestination _ _ _ _ _ _ | .setEgress _ _ _ | .setEthPort _ _ _ _ | .setLinkPlan _ _ | .setStarChart _ _ | .portReset _ _
  | .routeTable _ _ _ | .setLinkLimits _ _ _ | .selfTest _ _ | .calibrate _ _ | .snapshot _ _ _ | .clearCounters _ _ _ | .eventMask _ _
  | .keyEnrol _ _ _ | .keyRevoke _ _ _ | .firmwareUpdate _ _ => i.packetWf
  -- cores
  | .decodeStart c | .prefillStart c | .prefillIssueStop c | .decodeAbandon c | .replayStart c | .exchangeFence c | .exchQueueTransfer c
  | .closingGuard c | .tuningCell c _ | .optimiserStep c | .descriptorIssue c | .endProgram c _ | .waitCycle c _ | .waitCycleExpiry c
  | .branchOnTrouble c _ | .matvec c _ | .matvecT c _ | .halo c _ | .send c _ | .recv c _ | .recvDeadline c | .reduce c _ | .gather c _
  | .scatter c _ | .norm c _ | .act c _ | .glu c _ | .rope c _ | .quant c _ | .check c _ | .vec c _ | .copy c _ | .score c _
  | .softmaxOnline c _ | .value c _ | .kvAppend c _ | .gate c _ | .dispatch c _ | .combine c _ | .embed c _ | .logits c _ | .sample c _
  | .stateScan c _ | .cloudMove c _ | .cloudMoveComplete c _ => coreWf c
  | .bankInitComplete c bank => coreWf c && decide (bank < 16)
  | .remoteWaitTimeout c address => coreWf c && decide (address < 2 ^ 40)
  | .coreLost f n _ => computeWf f && decide (n < 32)
  -- fields and routers
  | .maintenanceSlot f vanes bad => computeWf f && vanes.all (fun v => decide (v < 2 ^ 16)) && bad.all fun n => decide (n < 32)
  | .vaneLimit f | .vaneTrimLower f | .railSettled f | .vlogRaiseOrder f | .stewardStopOrder f _ | .stewardWakeOrder f | .wakeAbandoned f
  | .fieldOffHeat f | .mirrorCopyComplete f _ | .twinCopyComplete f _ => computeWf f
  | .beaconArrival f _ _ | .beaconLossLimit f => fieldWf f
  | .routeTableWrite u _ => fieldWf u
  | .linkDown u port => routerPortWf u port
  | .forecastWord f _ => fieldWf f
  | .forecastMiss f window => fieldWf f && decide (window < 3)
  | .breakerTrip f d => Machine.domainExists f d
  | .stratumScrub f bank page finding => computeWf f && below [(bank, 2), (page, 1572864), (finding, 130)]
  | .tilePatchComplete f tile => computeWf f && decide (tile < 2 ^ 22)
  | .fieldReadbackComplete p f _ => placementWf p && computeWf f
  -- packets of the fabric
  | .jetstreamArrival e cycle pkt => decide (e < 4096) && decide (cycle < 48000) && pkt.wf
  | .routerPacketEntry u port cycle pkt => routerPortWf u port && decide (cycle < 48000) && pkt.wf
  | .fabricWrite e x | .fabricRead e x | .fabricDataReply e x => decide (e < 4096) && decide (x.cycle < 48000) && x.pkt.wf
  | .fabricStatusReply e pkt => decide (e < 4096) && pkt.wf
  | .gustResend _ => true
  -- power and start-up
  | .powerLimitExceeded p vin => below [(p, 2 ^ 32), (vin, 2 ^ 32)]
  | .ladderEvaluation p1 p10 vin iin => below [(p1, 2 ^ 32), (p10, 2 ^ 32), (vin, 2 ^ 32), (iin, 2 ^ 32)]
  | .segmentTrip n => decide (n < 22)
  | .uvWarn vin | .inputUv vin | .inputLockout vin => decide (vin < 2 ^ 32)
  | .auxInputApplied straps | .perstNAssert _ straps => decide (straps < 64)
  | .dawnCalibrationComplete region x y => region.all fieldWf && x.failed.all fieldWf && x.tests.all fieldWf && y.lost.all stackWf
      && y.crossings.all (fun e => fieldWf e.1 && decide (1 ≤ e.2) && decide (e.2 ≤ 5)) && x.offsets.all fun e => fieldWf e.1
  | .placementBuilt p => placementWf p
  | .journalWriteComplete l => l.all sessionWf
  -- heat
  | .thermalSample r => r.wf
  | .ceilingThermalSample _ _ _ => true
  | .flowLost flow => decide (flow < 2 ^ 16)
  -- transfers and weights
  | .imageChunk m => m.wf
  | .chunkAssemblyTimeout t k | .chunkWritten t k => below [(t, 2 ^ 16), (k, 2 ^ 32)]
  | .installTimeout p | .flipDrainComplete p | .flipDrainTimeout p | .rollbackHoldExpiry p => placementWf p
  -- Cloudbank and sessions
  | .stackLost n _ => stackWf n
  | .pauseCopyComplete n | .copyBackComplete n _ | .pauseTtlExpiry n | .continuationHoldExpiry n | .contrailHoldExpiry n | .prefixCowComplete n =>
    sessionWf n
  | .prefixPageCopyComplete a e => airspaceWf a && decide (e < 256)
  | .waitLimitTimeout a _ | .dhcpv6LeaseEnd a => airspaceWf a
  -- streams
  | .openMsg c p | .continueMsg c p => c.wf && p.wf
  | .openAssemblyTimeout a addr port seq => airspaceWf a && below [(addr, 2 ^ 128), (port, 2 ^ 16), (seq, 2 ^ 32)]
  | .cancel c target => c.wf && decide (target < 2 ^ 32)
  | .pause c ttl => c.wf && decide (ttl < 2 ^ 32)
  | .resume c => c.wf
  | .retransmit c dest mode lo hi => c.wf && below [(dest, 2 ^ 16), (mode, 2 ^ 16), (lo, 2 ^ 32), (hi, 2 ^ 32)]
  | .ethernetFrame f => ethWf f.port && below [(f.dstAddr, 2 ^ 128), (f.srcAddr, 2 ^ 128), (f.dstPort, 2 ^ 16), (f.srcPort, 2 ^ 16)]
  | .ethLinkDown n | .ethLinkUp n => ethWf n
  -- links
  | .portTrained n _ lanes => obtikWf n && decide (lanes ≤ 8)
  | .portTrainingTimeout n | .portDown n => obtikWf n
  | .sound n m => obtikWf n && moduleWf m.moduleId && decide (m.adjacency.length ≤ 10)
  | .obtikDataFrame n f | .obtikAckFrame n f | .obtikBeaconFrame n f => obtikWf n && f.wf
  | .linkReplayTimeout n channel => obtikWf n && decide (channel < 3)
  | .tickMaster m x => moduleWf m && decide (x < 2 ^ 8)
  | .tickDemand m level usable _ => moduleWf m && below [(level, 2 ^ 8), (usable, 2 ^ 8)]
  | .peerRouteTable m at_ entries => moduleWf m && decide (at_ < 2 ^ 64) && entries.length == 64 && entries.all fun e => decide (e < 2 ^ 8)
  | .orderReply n code status => obtikWf n && below [(code, 2 ^ 16), (status, 2 ^ 16)]
  | .ordersRefused m n code => moduleWf m && obtikWf n && decide (code < 2 ^ 16)
  -- PMBus
  | .page write => write.all fun p => decide (p < 2 ^ 8)
  | .mfrPowerCap write => write.all fun p => decide (p < 2 ^ 16)
  | .pmbusUnsupported command => decide (command < 2 ^ 8)
  -- MCTP, PLDM and SPDM
  | .setEndpointId b eid => bindingWf b && decide (eid < 2 ^ 8)
  | .getEndpointId b | .getEndpointUuid b | .getMessageTypeSupport b | .getVersion b | .getCapabilities b | .negotiateAlgorithms b _ _
  | .getDigests b => bindingWf b
  | .getMctpVersionSupport b type => bindingWf b && decide (type < 2 ^ 8)
  | .pldmBaseDiscovery command => decide (command < 2 ^ 8)
  | .pldmMonitoringRequest command sensor => below [(command, 2 ^ 8), (sensor, 2 ^ 16)]
  | .setEventReceiver eid => decide (eid < 2 ^ 8)
  | .getCertificate b slot offset length => bindingWf b && below [(slot, 2 ^ 8), (offset, 2 ^ 16), (length, 2 ^ 16)]
  | .challenge b slot nonce => bindingWf b && decide (slot < 2 ^ 8) && nonce.length == 32
  | .getMeasurements b index signed nonce => bindingWf b && decide (index < 2 ^ 8) && (!signed || nonce.length == 32)
  | .spdmUnsupportedRequest b code => bindingWf b && decide (code < 2 ^ 8)
  -- the test access port and self-tests
  | .flashProg image offset _ => below [(image, 2 ^ 8), (offset, 2 ^ 32)]
  | .debugToken _ slot _ _ => decide (slot < 2 ^ 8)
  | .selfTestComplete step => decide (step < 2 ^ 16)

end Sys2Proof
end

