-- ==== Sys2Proof/Tests/Slice0.lean ====
section
/-! SUPPORT. Small tests: the well-formedness checks refuse ill-formed terms, worked examples of the manual, and for every statement with
hypotheses a state and operands that meet them. -/

namespace Sys2Proof.Tests
open Sys2Proof.Machine

/-- A module in Active with ticks running, its host link up and its command ring open. -/
def up : State :=
  { State.reset with
    start := { power := .active, serving := true }
    tick := { running := true, started := true, count := 41 }
    boot := { romDone := true, zenithUp := true }
    host := { linkUp := true, fetching := true, reading := 1, produced := 9, fetched := 7 }
    eth := [(0, { linkUp := true })] }

/-- The same module with its ticks stopped in Lull. -/
def lulled : State := { up with start := { up.start with power := .lull }, tick := { up.tick with running := false } }

/-- A command of the host: sequence number 8, basic or expert form, a buffer of 64 bytes. -/
def cmd (expert : Bool) : CmdHdr := ⟨.host, 8, expert, 4096, 64, []⟩

/-- The packet of a basic DEVICE_INFO. -/
def infoPkt (seq : Nat) : CmdPacket := ⟨0x0101, seq, 0, 0, 0, List.replicate 224 0, []⟩

/-! ### Witnesses: the block and the host interface -/

theorem witness_StepRunsTheFrontCommand : { up with pending := [.idcode, .debug] }.pending = .idcode :: [.debug] ∧ up.pending = [] := by decide

theorem witness_EveryCommandEndsInANextState : Instr.idcode ≠ .debug ∧ up.boot.debugOpen = false
    ∧ { up with boot := { up.boot with debugOpen := true } }.boot.debugOpen = true := by decide

theorem witness_CommandsLeaveTheQueueAlone : ∃ t, exec .idcode up = .next t := ⟨_, rfl⟩

theorem witness_AKeySlotAlwaysRemains : State.reset.boot.revoked % 16 ≠ 15
    ∧ (∃ t, step { up with pending := [.idcode] } = .next t) := ⟨by decide, _, rfl⟩

theorem witness_CommandRingsKeepSequenceAndAnswers : up.host.linkUp = true ∧ up.host.fetching = true ∧ up.host.reading ≠ 0
    ∧ (infoPkt 8).seq = up.host.fetched + 1 ∧ (infoPkt 9).seq ≠ up.host.fetched + 1
    ∧ { up with host := { up.host with staleRun := 1 } }.host.staleRun ≠ 0 ∧ up.host.staleRun = 0 ∧ up.barOn = true := by decide

theorem witness_RegisterWritesFollowAccessCodes : up.barOn = true
    ∧ (0x50008 ∈ rwlRegs ∧ 0x50008 ∉ up.host.written ∧ ¬(0x50008 = 0x50008 ∧ 4 < (4 : W32).toNat % 16))
    ∧ { up with host := { up.host with written := [0x50010] } }.host.written = [0x50010] ∧ 0x50010 ∈ rwlRegs := by decide

theorem witness_RegisterWritesFollowAccessCodes_codes : (Reg.Tick.LATE_JET.addr % 4 = 0 ∧ Reg.Tick.LATE_JET.addr ∉ rwlRegs
      ∧ accessMask Reg.Tick.LATE_JET.addr .rw1c ≠ 0 ∧ accessMask Reg.Tick.LATE_JET.addr .rw = 0)
    ∧ (Reg.Tick.PERIOD.addr ∉ rwlRegs ∧ accessMask Reg.Tick.PERIOD.addr .rw1c = 0 ∧ accessMask Reg.Tick.PERIOD.addr .rw = 0)
    ∧ rowsAt 0x7FFFFC = [] ∧ 0x7FFFFC % 4 = 0 ∧ 2 % 4 ≠ 0 := by decide

theorem witness_BmcChannelAdmitsSixCommands : up.start.power ≠ .off ∧ up.boot.recovery = false ∧ up.start.power ≠ .standby
    ∧ (infoPkt 1).basic ∈ [0x0101, 0x0102, 0x0104, 0x0201, 0x0202, 0x0204]
    ∧ CmdPacket.basic { infoPkt 1 with opcode := 0x0301 } ∉ [0x0101, 0x0102, 0x0104, 0x0201, 0x0202, 0x0204]
    ∧ Instr.form (.removePlacement ⟨.bmc, 1, false, 0, 0, []⟩ 3) = some ⟨⟨.bmc, 1, false, 0, 0, []⟩, 0x0307, [(32, 1, 3)], []⟩ := by decide

theorem witness_PacketsSpellTheirCommands :
    Instr.form (.setGranted (cmd true) 3 60 77) = some ⟨cmd true, 0x0107, [(32, 1, 3), (33, 1, 60)], [(40, 8, 77)]⟩
    ∧ PacketForm.fits ⟨cmd true, 0x0107, [(32, 1, 3), (33, 1, 60)], [(40, 8, 77)]⟩ = true
    ∧ PacketForm.fits ⟨cmd false, 0x0107, [(32, 1, 255), (33, 1, 0)], [(40, 8, 2 ^ 64 - 1)]⟩ = true
    ∧ Instr.listsFit (.setGranted (cmd true) 3 60 77) = true := by decide

theorem witness_PacketsAreCarriedOutAsTheirCommands : (cmd true).src = .host ∧ (cmd true).bufferLen ≤ 16777216
    ∧ Instr.form (.setGranted (cmd true) 3 60 77) = some ⟨cmd true, 0x0107, [(32, 1, 3), (33, 1, 60)], [(40, 8, 77)]⟩ := by decide

theorem witness_CommandRingsKeepSequenceAndAnswers_link : State.reset.host.linkUp = false ∧ State.reset.host.reading = 0 ∧ State.reset.barOn = false
    ∧ up.host.cfg.link = none ∧ (∃ a ∈ windowRegs, a ∉ up.host.written)
    ∧ { up with host := { up.host with cfg := { up.host.cfg with link := some (640, 4) } } }.host.cfg.link.isSome = true := by decide

theorem witness_RegisterWritesFollowAccessCodes_reserved : (∀ r ∈ rowsAt Reg.Tick.LATE_JET.addr, 31 < r.lo ∨ max r.lo r.hi < 31)
    ∧ State.reset.barOn = false ∧ (0x50008 = 0x50008 ∧ 4 < (5 : W32).toNat % 16) ∧ (0x50010 = 0x50010 ∧ 6 < (15 : W32).toNat % 16) := by decide

theorem witness_BmcChannelAdmitsSixCommands_source : (⟨.bmc, 1, false, 0, 0, []⟩ : CmdHdr).src = .bmc
    ∧ 0x0307 ∉ [0x0101, 0x0102, 0x0104, 0x0201, 0x0202, 0x0204] := by decide

/-! ### Witnesses: ticks and control slots -/

theorem witness_BoundariesCountOrStop : State.reset.start.power = .off ∧ up.start.power ≠ .off ∧ up.start.power ≠ .standby
    ∧ up.tick.running = true ∧ up.tick.lullAsked = false ∧ up.following = false ∧ up.start.target = none
    ∧ { lulled with tick := { lulled.tick with lullEndAsked := true } }.tick.lullEndAsked = true
    ∧ lulled.tick.running = false ∧ lulled.tick.lullEndAsked = false := by decide

theorem witness_ControlSlotsServeOnce : up.tick.running = true ∧ up.zenithServing = true ∧ up.tick.slotDone = false
    ∧ { up with boot := { up.boot with zenithUp := false } }.zenithServing = false
    ∧ lulled.tick.running = false ∧ lulled.boot.romDone = true ∧ lulled.zenithServing = true ∧ lulled.host.late = []
    ∧ (lulled.host.deferred = [] ∧ lulled.host.bmcQueue = [] ∧ lulled.host.fetchedPkts = [] ∧ lulled.links.orders = [])
    ∧ (∀ f ∈ computeFields, (lulled.field f).lossPending = false) ∧ lulled.hostOpen = true := by decide

/-- A live placement 3 with a plan that sizes 60 %. -/
def served : State := { up with placements := [(3, { live := true, liveBank := 1, plan := { sized := 60, ns := 20, maxDepth := 16 } })] }

theorem witness_ControlSlotSettingsTakeEffect : (cmd false).src = .host ∧ (cmd false).expert = false ∧ (served.plc 3).live = true
    ∧ 60 ≤ (served.plc 3).plan.sized ∧ 60 ≠ 255 ∧ served.tick.running = true ∧ 60 ≤ served.power.shareBound.getD 3 100
    ∧ (served.plc 2).live = false ∧ 87 ∈ computeFields ∧ fusedMax 87 0 ≤ 10 * 200 ∧ 200 ≤ fusedMax 87 0 ∧ served.power.forecastLog = []
    ∧ (served.field 87).bmcTh.find 0 = none ∧ domainExists 87 2 = true ∧ fusedMax 87 2 ≤ 10 * 30 ∧ 30 ≤ fusedMax 87 2 := by decide

/-- A request that waits on airspace 7. -/
def waits : State :=
  { served with
    airspaces := [(7, { placement := some 3, waiting := [⟨5, 0, 40, ⟨7, 1, 2, 0, 9, 0, false⟩, none, [], 0, 0, false, false⟩] })]
    fields := [(87, { clock := .waking, role := .clearing })] }

theorem witness_WaitsAndHoldsEndAtTheirLimits_limits :
    (waits.asp 7).waiting.find? (fun w => w.id = 5) = some ⟨5, 0, 40, ⟨7, 1, 2, 0, 9, 0, false⟩, none, [], 0, 0, false, false⟩
    ∧ waits.namedBy 7 0 = none ∧ (∀ w ∈ (waits.asp 7).waiting, w.id ≠ 6) ∧ (waits.field 87).clock = .waking
    ∧ (waits.field 87).taskCmd = none ∧ waits.start.testField ≠ some 87 := by decide

theorem witness_BoundarySettingsAreBooked : (cmd false).src = .host ∧ (cmd false).expert = false
    ∧ (∀ n, (up.sess n).st = .free ∨ (up.sess n).airspace ≠ 7 ∨ (up.sess n).dest ≠ 15)
    ∧ (∀ b, b ≠ 7 → b < 8 → 0xC0000201 ∉ (up.asp b).addresses.map (fun e => e.2.1) ∧ (up.asp b).ipv4 ≠ some 0xC0000201 ∧ (up.asp b).lease ≠ some 0xC0000201)
    ∧ (up.asp 7).addresses.length + (if (up.asp 7).dhcp then 1 else 0) < 4 := by
  refine ⟨by decide, by decide, fun _ => Or.inl rfl, ?_, by decide⟩
  intro b _ h
  have : b = 0 ∨ b = 1 ∨ b = 2 ∨ b = 3 ∨ b = 4 ∨ b = 5 ∨ b = 6 ∨ b = 7 := by omega
  rcases this with rfl | rfl | rfl | rfl | rfl | rfl | rfl | rfl <;> decide

theorem witness_FaultyParametersAreNamed : (9 ≠ 255 ∧ 8 < 9) ∧ (0 ≠ 255 ∧ 0 < 1) ∧ 4 ≤ 4 ∧ (257 ≠ 65535 ∧ 256 < 257) ∧ (1601 ≠ 65535 ∧ 1600 < 1601)
    ∧ (51 ≠ 255 ∧ 50 < 51) ∧ 88 ≤ 88 := by decide

theorem witness_SettingsTakeEffectAsOrdered : 3 ≠ 255 ∧ 30410 ≠ 65535 ∧ (7 : Nat) ≠ 2 ^ 128 - 1 ∧ (cmd true).src = .host := by decide


theorem witness_BoundariesCountOrStop_follower :
    (let s := { up with links := { up.links with follower := true, relayTick := 50 } }
     s.following = true ∧ s.tick.count < s.links.relayTick)
    ∧ { up with tick := { up.tick with lullAsked := true } }.tick.lullAsked = true
    ∧ { lulled with links := { lulled.links with follower := true } }.following = true := by decide

theorem witness_ControlSlotsServeOnce_others : (∀ f, (up.router f).held = []) ∧ { up with tick := { up.tick with slotDone := true } }.tick.slotDone = true
    ∧ State.reset.tick.running = false ∧ State.reset.start.power = .off ∧ State.reset.zenithServing = false
    ∧ (let s := { lulled with boot := { lulled.boot with zenithUp := false } }
       s.tick.running = false ∧ s.boot.romDone = true ∧ s.zenithServing = false) := by
  refine ⟨fun f => ?_, by decide⟩
  show (FieldSt.atReset f).router.held = []
  unfold FieldSt.atReset
  split <;> [rfl; (split <;> rfl)]

/-- VLOG of field 87 drew 2,000 A at most in the last 1,000 ticks, and the BMC bounds its domain 2. -/
def drawing : State :=
  { served with power := { served.power with forecastLog := [(40, 87, 2000), (41, 87, 1500)] }, fields := [(87, { bmcTh := [(2, 25)], vlogMv := 700 })] }

theorem witness_ControlSlotSettingsTakeEffect_breakers :
    ((∀ e ∈ drawing.power.forecastLog, e.2.1 = 87 → drawing.tick.count < e.1 + 1000 → e.2.2 ≤ 2000)
      ∧ ∃ e ∈ drawing.power.forecastLog, e.2.1 = 87 ∧ drawing.tick.count < e.1 + 1000 ∧ e.2.2 = 2000)
    ∧ (let floor := ceilDiv (2000 * (drawing.field 87).vlogMv * 100) (92 * 12)
       1000 * ((fusedMax 87 0 + 9) / 10) < 11 * floor ∧ (fusedMax 87 0 + 9) / 10 ≤ fusedMax 87 0)
    ∧ (let floor := ceilDiv (0 * (served.field 87).vlogMv * 100) (92 * 12)
       11 * floor ≤ 1000 * ((fusedMax 87 0 + 9) / 10))
    ∧ (drawing.field 87).bmcTh.find 2 = some 25 ∧ 25 < 30 ∧ (Expert (cmd true) (Setting 8 1 0 1)) ∧ domainExists 87 5 = false := by
  refine ⟨by decide, by decide, by decide, by decide, by decide, fun _ => .inr (by decide), by decide⟩

theorem witness_ControlSlotSettingsTakeEffect_shares :
    ((cmd true).expert = true ∧ served.tick.running = true ∧ served.tick.count + 1 < 43 ∧ 43 ≠ 2 ^ 64 - 1)
    ∧ Setting 8 60 0 (served.plc 3).plan.sized ∧ ¬Setting 8 61 0 (served.plc 3).plan.sized
    ∧ (let s := { served with power := { served.power with shareBound := [(3, 20)] } }
       s.power.shareBound.getD 3 100 < 60 ∧ s.tick.running = true)
    ∧ { served with tick := {} }.tick.running = false :=
  ⟨by decide, .inr (by decide), fun h => h.elim (by decide) (by decide), by decide, by decide⟩

/-- A carried request, one of session 9 whose copy-back runs, and field 87 woken for a command's self-test. -/
def carried : State :=
  { served with
    airspaces := [(7, { placement := some 3, waiting := [⟨5, 0, 40, ⟨7, 1, 2, 0, 9, 4105, false⟩, none, [], 0, 0, true, false⟩] })]
    sessions := [(9, { st := .paused, airspace := 7, copyBack := true })]
    start := { served.start with testField := some 87 }
    fields := [(87, { clock := .waking, role := .clearing, taskCmd := some (8, .host, 0x0801) })] }

theorem witness_WaitsAndHoldsEndAtTheirLimits_carried :
    (carried.asp 7).waiting.find? (fun w => w.id = 5) = some ⟨5, 0, 40, ⟨7, 1, 2, 0, 9, 4105, false⟩, none, [], 0, 0, true, false⟩
    ∧ carried.namedBy 7 4105 = some 9 ∧ (carried.sess 9).copyBack = true ∧ (carried.field 87).clock = .waking
    ∧ carried.start.testField = some 87 ∧ (carried.field 87).taskCmd = some (8, .host, 0x0801) ∧ (carried.field 86).clock ≠ .waking := by decide

theorem witness_BoundarySettingsAreBooked_refused :
    (∃ n ∈ carried.sessIds, (carried.sess n).st ≠ .free ∧ (carried.sess n).airspace = 7 ∧ (carried.sess n).dest = 0)
    ∧ (0 < 1 ∧ up.dmaOk (cmd false).buffer 17 = false ∧ 17 * 1 ≤ (cmd false).bufferLen) ∧ (up.asp 7).dests.has 15 = false
    ∧ (let entry : Nat × Nat := (0xFD00, 64)
       entry.2 ≤ 128 ∧ (isV4 entry.1 = true → 96 ≤ entry.2)) := by decide

theorem witness_SettingsTakeEffectAsOrdered_destinations :
    (let s : State := { up with airspaces := [(7, { dests := [(3, ⟨0xC0000202, 5000, 0, 0, 4⟩)] })] }
     (s.asp 7).dests.find 3 = some ⟨0xC0000202, 5000, 0, 0, 4⟩ ∧ (s.asp 7).dests.find 4 = none)
    ∧ picked 128 0 ((up.asp 7).addresses.getD 0 (0, 64)).1 = 0 ∧ picked 128 9 ((up.asp 7).addresses.getD 0 (0, 64)).1 ≠ 0 := by decide
/-! ### Witnesses: host commands, start-up and power -/

theorem witness_ControlSlotSettingsTakeEffect_direct : (50 ≤ 50 ∧ 8 ≤ 60 ∧ 60 + 10 ≤ 100 ∧ 100 ≤ 100 ∧ 60 ≤ 60) ∧ (0 ≤ 50 ∧ 8 ≤ 8 ∧ 8 + 10 ≤ 18)
    ∧ (80 ≤ 80 ∧ 80 ≤ 100 ∧ 1 ≤ 10 ∧ 10 ≤ 10 ∧ 1 ≤ 1) ∧ up.thermal.bmcLimit = none ∧ up.thermal.bmcGuard = none
    ∧ (0 : W32) ≠ 0xFFFFFFFF ∧ 4 ≤ 4 := by decide

theorem witness_ControlSlotSettingsTakeEffect_bounds :
    (let s := { up with thermal := { up.thermal with bmcLimit := some 90, bmcGuard := some 5 } }
     (100 ≠ 255 ∧ ∃ b, s.thermal.bmcLimit = some b ∧ b < 100) ∧ (1 ≠ 255 ∧ ∃ b, s.thermal.bmcGuard = some b ∧ 1 < b)
     ∧ ¬((90 ≠ 255 ∧ ∃ b, s.thermal.bmcLimit = some b ∧ b < 90)))
    ∧ (⟨.bmc, 1, false, 0, 0, []⟩ : CmdHdr).src = .bmc ∧ up.start.power ≠ .standby ∧ (⟨.bmc, 1, true, 0, 0, []⟩ : CmdHdr).expert = true ∧ 1 ≠ 255
    ∧ (0xFF = 0xFF ∨ (0xFF < 88 ∧ 4 = 1)) ∧ (87 < 88 ∧ 1 = 1) :=
  ⟨⟨⟨by decide, 90, rfl, by decide⟩, ⟨by decide, 5, rfl, by decide⟩,
      fun h => by obtain ⟨_, b, hb, hl⟩ := h; simp only [Option.some.injEq] at hb; omega⟩, by decide⟩

theorem witness_EffectiveCapIsTheLowestBound_terms :
    (let s := { up with power := { up.power with bmcCap := some 9000, vins := [48000, 52000] } }
     ∃ b, s.power.bmcCap = some b ∧ b < 21000)
    ∧ 95 * 420 * (up.power.vins.foldl (· + ·) 0 / up.power.vins.length) / 100000 = 0 ∧ up.power.vins = []
    ∧ 95 * 420 * (([48000, 52000] : List Nat).foldl (· + ·) 0 / 2) / 100000 = 19950
    ∧ (∃ b, some up.power.hostCap = some b ∧ b < 21000) ∧ (0 = 0 ∨ Setting 32 0 6000 21000) :=
  ⟨⟨9000, rfl, by decide⟩, by decide, rfl, by decide, ⟨_, rfl, by decide⟩, .inl rfl⟩

theorem witness_EffectiveCapIsTheLowestBound : (cmd false).src = .host ∧ 6000 ≤ 6000 ∧ 21000 ≤ 21000
    ∧ { up with power := { up.power with bmcCap := some 9000 } }.power.bmcCap = some 9000 ∧ 9000 < 15000 ∧ up.power.bmcCap = none := by decide

/-- A module with a SNAPSHOT copied, and the whole address space of the host as its DMA window 0. -/
def copied : State :=
  { up with
    regs := [(0x50028, 0xFFFFFFFF), (0x5002C, 0xFFFFFFFF)]
    host := { up.host with written := dmaRegs 0, snapshots := [⟨cmd true, 0, 2, 41, some [1, 2]⟩] } }

theorem witness_InformationAndSelfTestsComplete_information : (cmd true).src = .host ∧ (cmd true).expert = true ∧ (cmd false).expert = false ∧ 2 < 3
    ∧ 0x700000 + 64 ≤ 0x800000 ∧ 64 ≤ 0x100000 ∧ 64 ≤ (cmd true).bufferLen
    ∧ copied.host.snapshots = [⟨cmd true, 0, 2, 41, some [1, 2]⟩] ∧ copied.dmaOk (cmd true).buffer 2 = true := by decide

/-- A field under test: clearing 35, ordered by a command or by the interval. -/
def testing (byHost : Bool) : State :=
  { up with
    fields := [(35, { role := .clearing, task := 2 })]
    start := { up.start with testField := some 35, testCmd := if byHost then some (8, .host, 0x0801) else none } }

theorem witness_InformationAndSelfTestsComplete_selfTests : (up.field 87).role = .unassigned ∧ (up.field 87).task = 0 ∧ up.inMove 87 = false ∧ up.start.testField = none
    ∧ up.power.ladder = 0 ∧ up.start.testInterval ≠ 0 ∧ up.zenithServing = true ∧ up.nextTest ≠ none
    ∧ (testing true).start.testField = some 35 ∧ (testing true).start.testCmd = some ((cmd false).seq, .host, opOf (cmd false) 0x0801)
    ∧ ((testing false).field 35).role = .clearing ∧ ((testing false).field 35).lossPending = false ∧ (testing false).start.testCmd = none := by decide

/-- Standby after a cold reset, the ROM done. -/
def stand : State := { up with start := { power := .standby, phase := 1 }, tick := {} }

theorem witness_PowerInputsDriveStartUp : State.reset.start.power = .off ∧ stand.start.power ≠ .off ∧ stand.boot.update = none
    ∧ stand.start.phase = 1 ∧ stand.boot.romDone = true ∧ stand.boot.recovery = false ∧ stand.zenithServing = true ∧ stand.thermal.trip = false
    ∧ up.start.power ≠ .off ∧ up.start.power ≠ .standby ∧ up.start.journal.running = false ∧ 100 ≤ 100 ∧ 99 < 100
    ∧ { stand with power := { stand.power with inputFault := 2 } }.power.inputFault = 2
    ∧ { up with power := { up.power with mainOk := true } }.power.mainOk = true ∧ up.start.power = .active ∧ up.tick.running = true
    ∧ up.start.target = none := by decide

/-- Start-up at a phase. -/
def phase (n : Nat) : State := { served with start := { power := .active, phase := n } }

/-- A journal being written, on the way to a state. -/
def journal (power : PowerSt) (target : Option PowerSt) : State :=
  { up with start := { power := power, serving := true, target := target, journal := { running := true, generation := 5 } } }

theorem witness_StartUpCompletionsAct :
    (let s : State := { up with fields := [(87, { role := .active, clock := .calibrating })] }
     (s.field 87).clock = .calibrating ∧ (s.field 87).role = .active ∧ (s.field 87).task = 0 ∧ (s.field 87).taskCmd = none)
    ∧ 87 ∉ ([] : List Nat) ∧ 87 ∉ Config.serviceFields ∧ (phase 4).start.phase = 4
    ∧ ((phase 6).start.phase = 6 ∧ ((phase 6).plc 3).live = true ∧ 3 ∉ (phase 6).start.built ∧ (phase 6).boot.debugOpen = false)
    ∧ ((journal .active none).start.journal.running = true ∧ (journal .active none).start.resetPending = none ∧ (journal .active none).start.target = none)
    ∧ ((journal .lull (some .overcast)).start.target = some .overcast ∧ (journal .lull (some .overcast)).start.entryCause = 0)
    ∧ ((journal .overcast (some .active)).start.power = .overcast ∧ (journal .overcast (some .active)).start.serving = true
      ∧ ∀ q, q < 4 → ((journal .overcast (some .active)).plc q).live = false)
    ∧ up.start.power ≠ .overcast := by decide

/-- A restart of the Zenith under way. -/
def restarting : State :=
  { up with start := { up.start with restartCmd := some (8, .host, 0x0183) }, boot := { up.boot with staging := some 1, restartWindow := true } }

theorem witness_ResetAndRestartCommandsComplete : up.start.power = .active ∧ up.start.journal.running = false ∧ up.start.restartCmd = none
    ∧ (cmd true).expert = true ∧ 1 ≤ 1 ∧ (journal .active none).start.journal.running = true ∧ restarting.start.restartCmd ≠ none
    ∧ restarting.boot.staging = some 1 ∧ restarting.start.restartCmd = some (8, .host, 0x0183)
    ∧ (restarting.start.power ≠ .off ∧ restarting.start.perstHeld = false ∧ restarting.boot.romDone = true ∧ restarting.boot.recovery = false
      ∧ restarting.host.late = []) ∧ up.start.testField = none ∧ up.boot.restartWindow = false
    ∧ 4 ≤ { up with boot := { up.boot with missedSlots := 4 } }.boot.missedSlots ∧ restarting.boot.restartWindow = true := by decide

theorem witness_ResetAndRestartCommandsComplete_passes : restarting.boot.passes 1 = true ∧ (restarting.boot.info 1).whole = true := by
  simp [restarting, up, BootSt.passes, BootSt.info, BootSt.area, BootArea.info, BootSt.admits, BootSt.revokedSlot]

theorem witness_PowerStateOrdersAct : up.start.power = .active ∧ up.start.target = none ∧ up.start.powerCmd = none ∧ up.tick.running = true
    ∧ (lulled.start.power = .lull ∧ lulled.start.powerCmd = none) ∧ (journal .overcast none).start.power = .overcast ∧ stand.start.power = .standby
    ∧ (cmd true).expert = true ∧ up.tick.count + 1 < 43 ∧ 43 < 2 ^ 64 - 1 ∧ 3 ≤ 3 := by decide

theorem witness_PowerManagementEventsAct : min 22000 (420 * 52000 / 1000) < 21841 ∧ up.power.powerLullHeld = false
    ∧ { up with power := { up.power with powerLullHeld := true } }.power.powerLullHeld = true ∧ up.power.ladder = 0 := by decide

set_option maxRecDepth 8000 in
theorem witness_PowerManagementEventsAct_forecasts : forecastGood 0 = true ∧ forecastGood 1 = false := by decide

theorem witness_InputFaultsAndTripsAct : up.start.power = .active ∧ up.start.target = none ∧ up.tick.running = true
    ∧ 87 < 88 ∧ 87 ∉ Config.serviceFields ∧ (up.field 87).role ≠ .service ∧ (up.field 87).role ≠ .lost ∧ 1 ≤ 1
    ∧ 21 < 22 ∧ 21 ∉ up.power.segTripped ∧ (21 ^^^ 1) ∉ up.power.segTripped := by decide

/-! ### Witnesses: sessions, airspaces and heat -/

/-- Sessions on airspace 7 in given states: session 100 + i has state i of the list. -/
def withSess (l : List (Nat × Desc)) : State :=
  { served with
    regs := [(0x50028, 0xFFFFFFFF), (0x5002C, 0xFFFFFFFF)]
    host := { served.host with written := dmaRegs 0 }
    airspaces := [(7, { placement := some 3, prefixes := [(0, { st := .ready }), (1, { st := .filling }), (255, {})] })]
    sessions := l }

/-- A session in DECODE, one QUEUED, one ENDED, and a host buffer of 1,024 bytes. -/
def some3 : State := withSess [(100, { st := .decode, airspace := 7 }), (101, { st := .queued, airspace := 7 }), (102, { st := .ended, airspace := 7 })]
def buf : CmdHdr := ⟨.host, 8, false, 4096, 1024, []⟩

theorem witness_SessionCommandsActOnTheSessionsNamed_information : buf.src = .host ∧ buf.expert = false ∧ some3.named (4096 + 100) = some 100 ∧ 1024 ≤ buf.bufferLen
    ∧ some3.dmaOk buf.buffer 1024 = true ∧ some3.named (8192 + 100) = none ∧ some3.named (4096 + 99) = none ∧ 7 < 8 ∧ 127 < 128
    ∧ some3.matching 7 127 0 ≠ [] ∧ 4 * (some3.matching 7 127 0).length ≤ buf.bufferLen
    ∧ some3.dmaOk buf.buffer (4 * (some3.matching 7 127 0).length) = true ∧ some3.matching 6 127 0 = [] := by decide

theorem witness_SessionCommandsActOnTheSessionsNamed_orders :
    (1 ≤ [4196].length ∧ [4196].length ≤ 32 ∧ (cmd false).expert = decide (2 ≤ [4196].length))
    ∧ ((List.replicate 32 4196).length ≤ 32 ∧ (cmd true).expert = decide (2 ≤ (List.replicate 32 4196).length))
    ∧ some3.tick.running = true ∧ { some3 with tick := {} }.tick.running = false
    ∧ (some3.named 4196 = some 100 ∧ (some3.sess 100).st = .decode ∧ (some3.sess 100).latch ≠ 1 ∧ 1 ≤ 1 ∧ 86400 ≤ 86400)
    ∧ (some3.named 4197 = some 101 ∧ (some3.sess 101).st = .queued) ∧ (some3.named 4198 = some 102 ∧ (some3.sess 102).st = .ended)
    ∧ ((some3.asp 7).prefixNamed 256 = some 0 ∧ ((some3.asp 7).prefixes.getD 0 {}).st = .ready)
    ∧ ((some3.asp 7).prefixNamed 257 = some 1 ∧ ((some3.asp 7).prefixes.getD 1 {}).st = .filling)
    ∧ ((some3.asp 7).prefixNamed 511 = some 255 ∧ ((some3.asp 7).prefixes.getD 255 {}).st = .free) := by decide

/-- An airspace that asks for page slots on a live placement whose one KV-holding core has no bank on. -/
def tight : State :=
  { served with
    fields := [(87, { role := .active, placement := some 3 })]
    cores := [(2784, { decode := ⟨0, 1⟩, code := [(0, 0x43)] })]
    airspaces := [(7, { pool := 100 })] }

set_option maxRecDepth 20000 in
theorem witness_AirspaceOrdersAreBooked_bind : (up.applyBind 7 3).isSome = true ∧ (tight.applyBind 7 3).isSome = false := by decide

theorem witness_AirspaceOrdersAreBooked :
    (up.host.deferred = [] ∧ (up.asp 7).placement = none ∧ (up.plc 3).live = false)
    ∧ (tight.host.deferred = [] ∧ (tight.asp 7).placement = none ∧ (tight.plc 3).live = true ∧ tight.carvedFrom 3 7 = [])
    ∧ (some3.asp 7).placement = some 3 ∧ 100 ∈ some3.sessIds ∧ (some3.sess 100).st ≠ .free ∧ (some3.sess 100).airspace = 7
    ∧ (cmd false).expert = false ∧ 100 ≤ 100 ∧ (up.asp 7).slotShare ≤ 100 ∧ ((List.range 8).map fun b => (up.asp b).cloudShare).sum ≤ 16
    ∧ 1 ≤ 86400 ∧ (∀ x ∈ (up.asp 7).cloudPages, (up.asp 7).window ≤ x) := by decide

theorem witness_AirspaceOrdersAreBooked_unbind : (∀ n, (up.sess n).st = .free ∨ (up.sess n).airspace ≠ 7)
    ∧ (∀ p, (up.asp 7).placement = some p → (up.plc p).live = true → ∀ b ∈ up.boundTo p, 7 < b → up.kvInUse b = false) :=
  ⟨fun _ => Or.inl rfl, fun p h => by rw [show (up.asp 7).placement = none from rfl] at h; exact absurd h (by simp)⟩

/-- A paused session 9 of airspace 7: its record copying, or held and copied back. -/
def paused (copying kvHeld copyBack : Bool) : State :=
  withSess [(9, { st := .paused, airspace := 7, kvHeld := kvHeld, copyBack := copyBack, cowPage := some 4, pauseRec := some ⟨[3], 64, 0, [], copying, [], []⟩ })]

/-- A prefix being filled by session 9, whose one region stands in core 2784 with a page slot for its first page. -/
def filling : State :=
  { withSess [(9, { st := .prefill, airspace := 7, regions := [(2784, 0, 0, 0)] })] with
    airspaces := [(7, { placement := some 3, prefixes := [(1, { st := .filling, tokens := 100, registrant := some 9, pages := [1] })],
                        carvings := [⟨2784, [(0, some 1)], []⟩] })] }

theorem witness_WaitsAndHoldsEndAtTheirLimits_copies :
    (((paused true false false).sess 9).st = .paused ∧ ((paused true false false).sess 9).pauseRec = some ⟨[3], 64, 0, [], true, [], []⟩)
    ∧ (some3.sess 100).pauseRec = none ∧ ((paused false false true).sess 9).copyBack = true ∧ ((paused false false true).sess 9).registering = none
    ∧ (((paused false true false).sess 9).kvHeld = true ∧ ((paused false true false).sess 9).copyBack = false)
    ∧ (some3.sess 102).st = .ended ∧ (some3.sess 100).st ≠ .ended ∧ (some3.sess 100).st ≠ .paused
    ∧ (let pe := (filling.asp 7).prefixes.getD 1 {}
       pe.registrant = some 9 ∧ pe.st = .filling ∧ pe.tokens % 256 ≠ 0 ∧ pe.copied = false
       ∧ (filling.sess 9).regions = [(2784, 0, 0, 0)]
       ∧ filling.pageInCore 7 (pe.tokens / 256) (pe.pages.getD (pe.tokens / 256) 0) (2784, 0, 0, 0) = some 0
       ∧ (filling.core 2784).mem.wf = true ∧ (filling.field (coreField 2784)).absMap = [])
    ∧ ((some3.asp 7).prefixes.getD 0 {}).st ≠ .filling ∧ ((paused true false false).sess 9).cowPage = some 4 ∧ (some3.sess 100).cowPage = none := by decide

/-- A held field 87 of placement 3 with its twin in field 84 and clearing 60. -/
def held : State :=
  { served with
    fields := [(60, { role := .clearing }), (84, { role := .active, placement := some 3, bank0 := { st := .twin }, twinOf := some 87 }),
      (87, { role := .active, placement := some 3, heldRun := 100, twinHolder := some 84 })] }

def readsOf (spots : List HotSpotRead) : ThermalReads := ⟨⟨true, true, 3840⟩, ⟨true, true, 4480⟩, ⟨true, true, 3200⟩, spots, [], 9000⟩

theorem witness_ThermalSamplesTripsAndOutlookAct_samples : State.reset.start.power = .off ∧ up.start.power ≠ .off ∧ (readsOf []).fieldPower = []
    ∧ (∀ e ∈ held.fields, e.1 < 88) ∧ (held.fields.map Prod.fst).Pairwise (· < ·)
    ∧ (readsOf [⟨87, 0, some 951, some 951⟩]).spots = [⟨87, 0, some 951, some 951⟩] ∧ 10 * (up.thermal.limitNow : Int) < 951
    ∧ (951 : Int) ≤ 1250 ∧ (0 : Int) ≤ 951 ∧ (up.field 87).spots = []
    ∧ (1049 < 1050 ∧ (∀ x ∈ (some (519 : Int)).toList ++ (none : Option Int).toList, x < 520) ∧ (some (519 : Int)).toList ≠ [])
    ∧ (1050 ≤ 1050 ∧ up.thermal.hot = false ∧ up.thermal.trip = false ∧ up.start.power = .active ∧ up.start.target = none ∧ up.tick.running = true)
    ∧ { up with thermal := { up.thermal with trip := true } }.thermal.trip = true
    ∧ State.reset.start.power ≠ .active ∧ State.reset.start.power ≠ .lull ∧ up.thermal.samples.length < 10000 := by decide

theorem witness_ThermalSamplesTripsAndOutlookAct_moves : (held.field 87).placement = some 3 ∧ (held.field 87).role = .active ∧ (held.field 87).lossPending = false
    ∧ held.thermal.switchOff = true ∧ (held.field 87).heldRun ≠ 0 ∧ (held.plc 3).moves = [] ∧ (held.plc 3).moved = []
    ∧ held.nearestClearing 87 ≠ none ∧ held.start.testField = none ∧ held.twinComplete 87 = some 84
    ∧ { held with fields := [(87, { role := .active, placement := some 3, heldRun := 100 })] }.twinComplete 87 = none
    ∧ (held.field 60).role ≠ .active := by decide

/-! ### Witnesses: links -/

/-- A module in the link plan: port 0 to module 1, port 6 to whoever it finds. -/
def linked (st : PortState) (p : ObtikPort) : State :=
  { up with links := { up.links with plan := ⟨2, 0, 0, [⟨1, 1, false⟩, ⟨64, 0x3F, false⟩]⟩, ports := [(0, { p with st := st })] } }

theorem witness_LinkSettingsComplete :
    (let plan : LinkPlan := ⟨64, 63, 1, [⟨1, 63, true⟩, ⟨0xFFE, 0, false⟩]⟩
     1 ≤ plan.modules ∧ plan.modules ≤ 64 ∧ plan.master ≤ 63 ∧ plan.mode ≤ 1
     ∧ (9 ≤ plan.modules → plan.mode = 1 ∧ { up.links with storedChart := [(1, 2)] }.storedChart ≠ []) ∧ plan.groups.length ≤ 6
     ∧ (∀ g ∈ plan.groups, 1 ≤ g.ports ∧ g.ports < 4096 ∧ g.neighbour ≤ 63) ∧ plan.groups.Pairwise (fun a b => a.ports &&& b.ports = 0))
    ∧ (let chart := (63, 11) :: List.replicate 11 (0xFF, 0xFF)
       chart.length = 12 ∧ ∀ e ∈ chart, e = (0xFF, 0xFF) ∨ (e.1 ≤ 63 ∧ e.2 ≤ 11))
    ∧ (1 ≤ 120 ∧ 120 ≤ 120) ∧ (1 ≤ 1024 ∧ 1024 ≤ 1024) ∧ (linked .active {}).links.follower = false ∧ (cmd true).expert = true
    ∧ (∃ g ∈ (linked .active {}).links.plan.groups, g.ports.testBit 0 = true) ∧ (up.ethPort 0).linkUp = true
    ∧ (List.replicate 64 15).length = 64 ∧ (∀ e ∈ List.replicate 64 15, e < 16 ∧ (e % 8 ≤ 5 ∨ e % 8 = 7)) := by decide

theorem witness_PortsTrainAndFall : ((linked .down {}).port 0).st = .down ∧ ((linked .training {}).port 0).st = .training
    ∧ ((linked .active {}).port 0).st ≠ .off ∧ ((linked .active {}).port 0).st ≠ .down ∧ ((linked .active {}).port 11).st = .off
    ∧ (linked .down {}).links.follower = false := by decide

/-- A SOUND of module m with a plan hash. -/
def soundOf (m hash : Nat) : SoundMsg := ⟨m, 2, 0, false, false, hash, []⟩

theorem witness_SoundingChecksThePeer : ((linked .verifying {}).port 0).st = .verifying ∧ (linked .verifying {}).start.moduleId = 0
    ∧ (∀ m h, (soundOf m h).planHash = h ∧ (soundOf m h).moduleId = m) ∧ (1 ≠ 0 ∧ 1 < 63) ∧ (∀ h : Nat, h + 1 ≠ h)
    ∧ (linked .verifying {}).links.plan.mode = 0 ∧ (linked .verifying {}).groupOf 0 = some 0
    ∧ ((linked .verifying {}).links.plan.groups.getD 0 ⟨0, 0, false⟩).neighbour = 1 :=
  ⟨by decide, by decide, fun _ _ => ⟨rfl, rfl⟩, by decide, fun _ => Nat.succ_ne_self _, by decide, by decide, by decide⟩

theorem witness_LinkGraphRoutesAndPeerOrdersAct : (linked .active {}).links.plan.groups ≠ [] ∧ up.links.plan.groups = []
    ∧ (linked .active {}).tick.running = true ∧ lulled.tick.running = false ∧ (linked .active {}).links.plan.master ≠ 0x3F
    ∧ up.links.plan.master = 0x3F ∧ (linked .active {}).links.follower = false
    ∧ (let s := { linked .active {} with links := { (linked .active {}).links with follower := true, beaconPort := some 0 } }
       s.links.follower = true ∧ s.links.holdover = false ∧ s.links.beaconPort = some 0) := by decide

theorem witness_LinkGraphRoutesAndPeerOrdersAct_hops : ∀ k, k ≠ 0 → 7 < ((linked .active {}).port k).peerHops := by
  intro k h
  simp [linked, State.port, Tbl.getD, Ne.symm h]

/-- A frame of a port: a WRITE of one word for this module on the Gust channel, an acknowledgement, a beacon. -/
def dataFrame (seq : Nat) : ObtikFrame := linkFrame { type := 0, vc := 0, seq := seq, destModule := 0, srcModule := 1, dest := 96, src := 64, tag := 7 } [1, 2, 3]
def ackFrame (seq : Nat) : ObtikFrame := linkFrame { type := 1, srcModule := 1 } (leBytes 2 seq ++ leBytes 2 0 ++ leBytes 2 5 ++ leBytes 2 6)

/-- Port 0 ACTIVE with one Gust frame not acknowledged, and an inbound entry for the frame above. -/
def framed : State :=
  { linked .active { gust := { txSeq := 1, replay := [dataFrame 1] } } with
    links := { (linked .active { gust := { txSeq := 1, replay := [dataFrame 1] } }).links with inbound := [⟨1, 7, 0, 96, 96⟩] } }
set_option maxRecDepth 20000 in
theorem witness_ObtikFramesFollowTheChannels_good : frameBad (dataFrame 1) = false ∧ frameBad (ackFrame 1) = false ∧ frameBad ⟨0, []⟩ = true
    ∧ (LinkHdr.decode (dataFrame 1).header).type = 0 ∧ (LinkHdr.decode (dataFrame 1).header).seq = 1
    ∧ (LinkHdr.decode (ackFrame 1).header).type = 1 := by decide

set_option maxRecDepth 20000 in
theorem witness_ObtikFramesFollowTheChannels_fields : (LinkHdr.decode (dataFrame 1).header).destModule = framed.start.moduleId ∧ (LinkHdr.decode (dataFrame 1).header).kind = 0
    ∧ (∃ e ∈ framed.links.inbound, e.srcModule = (LinkHdr.decode (dataFrame 1).header).srcModule ∧ e.tag = (LinkHdr.decode (dataFrame 1).header).tag
      ∧ e.placement = (LinkHdr.decode (dataFrame 1).header).placement ∧ e.destLo ≤ (LinkHdr.decode (dataFrame 1).header).dest
      ∧ (LinkHdr.decode (dataFrame 1).header).dest ≤ e.destHi) := by decide

set_option maxRecDepth 20000 in
theorem witness_ObtikFramesFollowTheChannels_words : (checkFlits (dataFrame 1).words).2.2 = 0 ∧ leNat (((ackFrame 1).words.flatMap fun w => (flitRead w).1).take 2) = 1
    ∧ beaconGood (beaconWord true false 3 41) = true
    ∧ beaconGood (BitVec.ofNat 32 (leNat ((leBytes 4 (beaconWord true false 3 41).toNat).take 4))) = true := by decide

theorem witness_ObtikFramesFollowTheChannels : (framed.port 0).st = .active ∧ ((framed.port 0).chan 0).rxSeq = 0
    ∧ (framed.port 0).gust.replay = [] ++ [dataFrame 1] ∧ (framed.port 0).gust.waiting = [] ∧ (framed.port 0).cloud.waiting = []
    ∧ ((framed.port 0).chan 0).replay ≠ [] ∧ ((framed.port 0).chan 0).resends + 1 < 8 := ⟨rfl, rfl, rfl, rfl, rfl, by simp [framed, linked, State.port, Tbl.getD, ObtikPort.chan], by decide⟩
/-! ### Witnesses: weights, adapters and tuning -/

/-- An image of one stage and one field, 87, with one chunk; its plan needs a period of 1,200 cycles. -/
def img (leaves : List (List Byte)) (keyHash : List Byte) : Image :=
  { imageId := 1, version := 1, headerHash := [], keyHash := keyHash, layers := 1, hidden := 64, qHeads := 1, kvHeads := 1, headDim := 64, vocab := 100
    maxContext := 16384, classMask := 1, maxDepth := 16, prefillPct := 50, rrPct := 6, decodeLen := 500, exchange := 0, absorb := 0, period := 1200
    adapterRank := 0, stages := [], fields := [⟨87, 1, 0xFF, 0, 1, 4096⟩], leaves := leaves }

/-- A transfer of the host's command 8 for placement 3 from source 9 of airspace 7. -/
def transfer (kind : Nat) (i : Option Image) (done : List Nat) : Transfer :=
  { number := 5, kind := kind, placement := 3, airspace := 7, source := 9, cmdSeq := 8, cmdSrc := .host, cmdOp := 0x0301, timeLimit := 600, older := false
    fields := [], adapter := 0, slot := none, leading := some [], image := i, total := 1, done := done, readFails := [], readBack := [] }

theorem witness_TransfersOpenUnderANumber : (cmd false).src = .host ∧ (cmd false).expert = false
    ∧ (∀ q, (served.asp 7).placement = some q → q = 3) ∧ served.installing 3 = false ∧ (served.plc 3).drain = none ∧ (served.plc 3).moves = []
    ∧ { served with transfers := [transfer 0 none []] }.installing 3 = true
    ∧ { served with placements := [(3, { moves := [⟨87, 60, none, true, false, 0, none⟩] })] }.rebuildable 3 ≠ []
    ∧ (∀ t ∈ served.transfers, t.placement = 3 → t.kind ≠ 2)
    ∧ ({ served with placements := [(3, { repairsAsked := [(87, 5, 0)] })] }.plc 3).repairsAsked ≠ []
    ∧ 63 < 64 ∧ (served.plc 3).live = true ∧ served.tuneHolds 3 63 = false ∧ (served.plc 3).adapters.find 63 = none
    ∧ (let s := { served with placements := [(3, { live := true, plan := { tuning := true } })] }
       (s.plc 3).plan.tuning = true ∧ (s.plc 3).tune.st ≠ .loading ∧ (s.plc 3).tune.st ≠ .running ∧ (s.plc 3).tune.held = false) := by
  refine ⟨by decide, by decide, fun q h => ?_, by decide⟩
  rw [show (served.asp 7).placement = none from rfl] at h; exact absurd h (by simp)

/-- An adapter ID of airspace 7 with one version that session 100 is pinned to; a tuning job in a state. -/
def adapted (st : TuneState) (held : Bool) : State :=
  { served with
    placements := [(3, { live := true, tune := { st := st, held := held }, adapters := [(63, ⟨7, some ⟨1, true, 0, [], [], none, []⟩, none, false, 1, 0, 0, 0, 0, 0⟩)] })]
    sessions := [(100, { st := .decode, placement := 3, adapterId := some 63, adapterVersion := 1 })] }

theorem witness_WeightAndTuningOrdersAct : (∀ t ∈ served.transfers, t.placement = 3 → t.kind ≠ 0)
    ∧ { served with transfers := [transfer 0 none []] }.transfers.find? (fun t => t.placement = 3 && t.kind = 0) = some (transfer 0 none [])
    ∧ (transfer 0 none []).image = none ∧ (transfer 0 none []).cmdSrc = .host ∧ 86400 ≤ 86400 ∧ served.twinProtection = true ∧ (cmd true).expert = true
    ∧ (served.boundTo 3 = [] ∧ served.installing 3 = false) ∧ some3.boundTo 3 ≠ []
    ∧ (served.plc 3).adapters.find 63 = none
    ∧ (let y : AdapterSt := ⟨7, some ⟨1, true, 0, [], [], none, []⟩, none, false, 1, 0, 0, 0, 0, 0⟩
       ((adapted .none false).plc 3).adapters = [(63, y)] ∧ y.owner = 7 ∧ y.owner ≠ 6 ∧ (adapted .none false).tuneHolds 3 63 = false
       ∧ ∀ v ∈ y.slotA.toList ++ y.slotB.toList, (adapted .none false).pinned 3 63 v.version = true)
    ∧ ((adapted .running true).plc 3).tune.st = .running ∧ ((adapted .none false).plc 3).tune.st ≠ .running
    ∧ ((adapted .done true).plc 3).tune.hasResult = true ∧ ((adapted .done false).plc 3).tune.hasResult = false
    ∧ (adapted .done true).host.deferred = [] := by decide

theorem witness_WeightAndTuningOrdersAct_others : ∀ q, q ≠ 3 → ((adapted .none false).plc q).adapters = [] := by
  intro q h; simp [adapted, served, State.plc, Tbl.getD, Ne.symm h]

/-- Placement 3 with an image staged in bank 0, or with a drain begun for boundary 41. -/
def flipping (drain : Option Drain) : State :=
  { served with
    placements := [(3, { live := true, liveBank := 1, image := some (img [] []), imageState := .staged, staged := some (img [] []), drain := drain })] }
def drainOf (isFlip : Bool) (held : Option Nat) : Drain := ⟨isFlip, 8, .host, 0x0303, 41, 30, if isFlip then none else some {}, 1200, held⟩

/-- Another live placement whose session 9 holds a promise. -/
def promising : State :=
  { flipping (some (drainOf true (some 4808))) with sessions := [(9, { st := .decode, placement := 1 })] }

theorem witness_DrainsBeginAndEnd : ((flipping none).plc 3).staged = some (img [] []) ∧ ((flipping none).plc 3).imageState = .staged
    ∧ (served.plc 3).imageState ≠ .staged ∧ (served.plc 3).imageState ≠ .previous ∧ ((flipping (some (drainOf true none))).plc 3).drain ≠ none
    ∧ (planPeriod 500 50 0 0 6 = some 1200 ∧ ((flipping none).plc 3).image = some (img [] []) ∧ (flipping none).installing 3 = false)
    ∧ (planPeriod 500 0 0 0 6 ≠ none ∧ planPeriod 46000 60 1000 0 20 = none ∧ (48000 ≤ 48000 ∧ 48000 % 8 = 0) ∧ 60 ≤ 60 ∧ (2 ≤ 2 ∧ 20 ≤ 20))
    ∧ (served.plc 2).live = false ∧ (drainOf true none).cmdSrc = .host ∧ (served.plc 3).drain = none
    ∧ (∀ q, q < 4 → ∀ d ∈ (served.plc q).drain, d.heldPeriod = none)
    ∧ (1 ≤ 3600 ∧ 3600 ≤ 3600)
    ∧ (let s : State := { served with
         placements := [(3, { live := true, liveBank := 1, imageState := .previous, staged := some (img [] []), holdLeft := 1 })]
         fields := [(87, { role := .active, placement := some 3, bank0 := { st := .previous } })], twinProtection := false }
       (s.plc 3).imageState = .previous ∧ 0 < (s.plc 3).holdLeft ∧ s.twinProtection = false
       ∧ (∃ r ∈ (img [] []).fields, r.role = 1 ∧ (s.plc 3).partSite r.field = 87 ∧ ((s.field 87).bank (s.plc 3).stagedBank).st = .previous)) := by decide

/-- A drain that is due at the start of a tick: a plan load whose higher period was held, a flip, and what keeps one from being due. -/
theorem witness_DrainsBeginAndEnd_due :
    (let s := flipping (some (drainOf false (some 4808)))
     s.tick.running = true ∧ s.tick.started = true ∧ s.tick.slotDone = false ∧ (s.plc 3).drain = some (drainOf false (some 4808))
     ∧ (drainOf false (some 4808)).from_ ≤ s.tick.count ∧ s.oldSessions 3 = [] ∧ s.promisesElsewhere 3 = false
     ∧ (drainOf false (some 4808)).isFlip = false ∧ (drainOf false (some 4808)).newPlan = some {} ∧ (s.plc 3).image = some (img [] [])
     ∧ ∀ q, q < 4 → q ≠ 3 → (s.plc q).drain = none)
    ∧ promising.promisesElsewhere 3 = true ∧ promising.oldSessions 1 = [9]
    ∧ { served with tick := { served.tick with slotDone := true } }.tick.slotDone = true ∧ lulled.tick.running = false := by decide

/-- A plan whose bank header has no magic fails its checks; one of a placement that holds no field passes them unless its links do not bear it. -/
theorem witness_DrainsBeginAndEnd_plans :
    (let s : State := { flipping none with fields := [(87, { role := .active, placement := some 3 })] }
     s.planOk 3 (img [] []) 500 0 0 674 1200 = false)
    ∧ (Config.planTargets [] = [] → (flipping none).planOk 3 { img [] [] with fields := [] } 500 0 0 674 1200 = true) := by
  refine ⟨by decide +kernel, fun h => ?_⟩
  have hc : (flipping none).coresOfPlacement 3 = [] := by decide
  have hf : (flipping none).fieldsOf 3 = [] := by decide
  have hl : (flipping none).links.targets = [] := rfl
  have hp : (img [] []).stages = [] := rfl
  have hh : (img [] []).headerHash = [] := rfl
  simp [State.planOk, State.fabricOk, State.linksOk, State.linkFails, hc, hf, hl, hp, hh, planTargetTable, h, State.jetsFit, reservedAt, reserveOk]

theorem witness_AFlipSwitchesTheBankOrLeavesAll :
    (let s := flipping (some (drainOf true none))
     s.tick.running = true ∧ s.tick.started = true ∧ s.tick.slotDone = false ∧ (s.plc 3).drain = some (drainOf true none) ∧ (drainOf true none).isFlip = true
     ∧ (drainOf true none).cmdSrc = .host ∧ (s.plc 3).staged = some (img [] []) ∧ (drainOf true none).from_ ≤ s.tick.count ∧ s.oldSessions 3 = []
     ∧ (drainOf true none).heldPeriod = none)
    ∧ { promising with sessions := [] }.promisesElsewhere 3 = false := by decide

/-- Core 2784 of a tuning placement with one parameter, in the idle cell of its stage. -/
def tuned (optimising : Bool) (done : List Nat) : State :=
  { served with
    placements := [(3, { live := true, tune := {
      st := .running, optimising := optimising, optimised := done, areas := [(2784, 100, 200, 1)], assigned := [(0, true)], steps := 1, targets := 1 } })]
    fields := [(87, { role := .active, placement := some 3, clock := .running })]
    cores := [(2784, { state := .serving, stage := 0, tuneFwd := ⟨0, 1⟩, tuneBwd := ⟨8, 2⟩ })] }

theorem witness_TuningRunsInItsCells : (tuned false []).coreRuns 2784 = true ∧ ((tuned false []).core 2784).seq.prog = 0
    ∧ (tuned false []).cellOf 2784 = some true ∧ ((tuned false []).core 2784).tuneBwd.len ≠ 0 ∧ (tuned false []).cellOf 2784 ≠ some false
    ∧ ((tuned true []).field (coreField 2784)).placement = some 3
    ∧ ((tuned true []).plc 3).tune.areas.find? (fun e => e.1 == 2784) = some (2784, 100, 200, 1) ∧ ((tuned true []).plc 3).tune.st = .running
    ∧ ((tuned true []).plc 3).tune.optimising = true ∧ ((tuned true []).core 2784).mem.wf = true ∧ 2784 ∉ ((tuned true []).plc 3).tune.optimised
    ∧ ((tuned false []).plc 3).tune.optimising = false ∧ 2784 ∈ ((tuned true [2784]).plc 3).tune.optimised := by decide

/-- An installation under way: the image known, chunk 0 kept or taken, and the key of the package enrolled. -/
def key : List Byte := [1, 2, 3]
def installing (leaves : List (List Byte)) (done : List Nat) (fails : List (Nat × Nat)) : State :=
  { served with
    transfers := [{ transfer 0 (some (img leaves (sha512 key))) done with leading := some (List.replicate 176 0 ++ sha512 key), readFails := fails }]
    chunkStore := if done = [] then [(5, 0, [7])] else []
    airspaces := [(7, { keys := [(0, key)] })]
    placements := [(3, { imageState := .installing })]
    fields := [(87, { role := .active, placement := some 3 })] }

theorem witness_ChunksAreCheckedAndWritten_key : ((installing [] [] []).keyOf 7 (sha512 key)).isSome = true := by decide +kernel

set_option maxRecDepth 20000 in
theorem witness_ChunksAreCheckedAndWritten_leading : bytesAt (List.replicate 176 0 ++ sha512 key) 176 64 = sha512 key := by decide +kernel

set_option maxRecDepth 20000 in
theorem witness_ChunksAreCheckedAndWritten_leaf : leafOf 0 [7] ≠ (transfer 0 (some (img [] [])) []).leaf 0 ∧ leafOf 0 [7] = (transfer 0 (some (img [leafOf 0 [7]] [])) []).leaf 0
    ∧ tailOk ⟨87, 1, 0xFF, 0, 1, 4096⟩ 0 [7] = true := ⟨by decide +kernel, rfl, by decide⟩

set_option maxRecDepth 20000 in
theorem witness_ChunksAreCheckedAndWritten :
    (let m : ChunkMsg := ⟨7, 9, 5, 0, 3072, List.replicate 1024 0⟩
     m.offset % 1024 = 0 ∧ 1024 ≤ m.data.length ∧ m.data.length ≤ 8192 ∧ m.data.length % 1024 = 0 ∧ m.chunk ≠ ackLead
     ∧ m.offset + m.data.length ≤ chunkBytes)
    ∧ (∀ y ∈ served.transfers, y.number = 5 → y.airspace = 7 → y.source ≠ 9) ∧ (transfer 0 (some (img [] [])) []).wants 0 = true
    ∧ 0 ∈ (transfer 0 (some (img [] [])) [0]).done ∧ 0 ∉ (transfer 0 (some (img [] [])) []).done
    ∧ (let s : State := { served with transfers := [transfer 0 none []], assemblies := [⟨5, 0, []⟩] }
       s.transfers.find? (fun t => t.number = 5) = some (transfer 0 none []) ∧ (∃ x ∈ s.assemblies, x.transfer = 5 ∧ x.chunk = 0)
       ∧ (∀ x ∈ s.assemblies, x.transfer = 5 → x.chunk ≠ 1) ∧ s.assemblies.length < 64)
    ∧ (img [] []).recOf 0 = some ⟨87, 1, 0xFF, 0, 1, 4096⟩
    ∧ (installing [] [] []).chunkTarget (transfer 0 none []) ⟨87, 1, 0xFF, 0, 1, 4096⟩ = some (87, 0)
    ∧ ((img [] []).fields.filter fun q => q.role = 1) = [⟨87, 1, 0xFF, 0, 1, 4096⟩]
    ∧ (∀ k, k < 1 → 0 + k ∈ [0]) ∧ (transfer 0 none []).kind ≤ 1 ∧ (transfer 0 none []).readBack = []
    ∧ (∀ y ∈ served.transfers, y.placement ≠ 3) := by decide

theorem witness_ChunksAreCheckedAndWritten_acks :
    (let s := installing [] [] []
     s.egressPort 0 = some 0 ∧ 400 ≤ (s.ethPort 0).cap ∧ frameBytes 40 (isV4 9) ((s.asp 7).vlan ≠ 0) ≤ (s.asp 7).bucket)
    ∧ (let s : State := { installing [] [] [] with airspaces := [(7, { bucket := 105 })] }
       s.egressPort 0 = some 0 ∧ (s.asp 7).bucket < frameBytes 40 (isV4 9) ((s.asp 7).vlan ≠ 0))
    ∧ State.reset.egressPort 0 = none := by decide +kernel

theorem witness_ChunksAreCheckedAndWritten_states : (installing [] [] []).transfers.find? (fun t => t.number = 5) ≠ none
    ∧ (installing [] [0] [(0, 2)]).transfers.find? (fun t => t.placement = 3 && t.kind ≤ 1) ≠ none
    ∧ ((installing [] [] []).chunkStore.find? (fun e => e.1 = 5 && e.2.1 = 0)) = some (5, 0, [7]) := by decide +kernel

/-! ### Witnesses: losses, copies and streams -/

/-- A bank header with tiles from byte 0 on: 8 slots, pair base 4, widths at byte 64. -/
def bankMem : Mem := [(24, 8), (28, 4), (32, 64)]

/-- Field 87 of placement 3 in bank 1, its twin in field 84, tile 2 lost and not patched. -/
def losing : State :=
  { served with
    fields := [(84, { role := .active, placement := some 3, bank0 := { st := .twin }, twinOf := some 87 }),
      (87, { role := .active, placement := some 3, bank1 := { mem := bankMem }, twinHolder := some 84, unpatched := [2] })]
    cores := [(2784, { state := .serving, stage := 0 })] }

theorem witness_LossesAndCopiesAct :
    (31 < 32 ∧ (losing.core (32 * 87 + 31)).state ≠ .failed ∧ (losing.field 87).role = .active ∧ (losing.field 87).lossPending = false
      ∧ (∀ p, p < 4 → ∀ m ∈ (losing.plc p).moves, m.field ≠ 87) ∧ losing.sessionsIn [32 * 87 + 31] = []
      ∧ (∀ a, a < 8 → (losing.asp a).prefixes = []) ∧ (losing.field 87).failed.length < 2)
    ∧ 2 ≤ ({ losing with fields := [(87, { failed := [4, 9] })] }.field 87).failed.length
    ∧ ({ losing with hbm := [(47, { st := .lost })] }.stack 47).st = .lost ∧ (losing.stack 47).st ≠ .lost
    ∧ (∀ n ∈ losing.sessIds, (losing.sess n).pauseRec = none ∧ (losing.sess n).copyA = none ∧ (losing.sess n).copyB = none)
    ∧ (1 < 2 ∧ 1572863 < 1572864 ∧ (losing.plc 3).liveBank = 1 ∧ 1564671 < 1564672)
    ∧ slotsIn ((losing.field 87).bank 1).mem 0 32 = 0 :: [] ∧ 0 < bankPairBase ((losing.field 87).bank 1).mem := by decide

theorem witness_LossesAndCopiesAct_tilesAndMirrors : losing.twinComplete 87 = some 84 ∧ tilePlace (losing.liveBankOf 87).mem 2 = some (2, 0, 4)
    ∧ (losing.field 87).patches.length + (losing.field 87).nextPatches.length < 8 ∧ 2 ∈ (losing.field 87).unpatched
    ∧ losing.twinComplete 84 = none ∧ 3 ∉ (losing.field 87).unpatched ∧ (losing.field 87).twinOf = none
    ∧ (let s := { losing with fields := [(84, { role := .active, placement := some 3, bank0 := { st := .twinBuilding }, twinOf := some 87 })] }
       (s.field 84).twinOf = some 87 ∧ (s.standby 84).st = .twinBuilding)
    ∧ (∀ p, p < 4 → ∀ m ∈ (losing.plc p).moves, m.clearing ≠ 87 ∧ m.field ≠ 87)
    ∧ (let s := { losing with placements := [(3, { live := true, liveBank := 1, moves := [⟨87, 60, some 84, false, false, 42, none⟩] })] }
       (s.plc 3).moves = [⟨87, 60, some 84, false, false, 42, none⟩] ∧ ∀ q, q < 4 → q ≠ 3 → (s.plc q).moves = []) := by decide

/-- A client of airspace 7 and its OPEN of two tokens in one part. -/
def client : Client := ⟨7, 0xC0000202, 5000, 0, 11, 0, false⟩
def openOf (isContinue : Bool) (parts : Nat) : OpenPart :=
  ⟨0, parts, 0, [5, 6], 2, 0, 0xFFFF, 0xFF, false, none, 0, 0, if isContinue then 0xFF else 63, 0⟩

/-- The airspace remembers the client's request, with or without a released answer, or holds part of it. -/
def remembering (answer : Option AckMsg) : State :=
  { served with airspaces := [(7, { answers := [⟨0xC0000202, 5000, 11, answer, 0⟩] })] }
def assembling : State := { served with airspaces := [(7, { assemblies := [⟨client, false, [openOf false 2]⟩] })] }

theorem witness_RequestsAreReceivedOnce : served.remembered client = none ∧ (served.asp 7).received.length < 1024
    ∧ ((served.asp 7).answers.filter (Remembered.is · client)).length ≤ 1 ∧ (∀ y ∈ (served.asp 7).assemblies, y.is client = false)
    ∧ (partOk (openOf false 1) false = true ∧ partOk (openOf true 1) true = true ∧ (openOf false 1).promptLen = (openOf false 1).tokens.length)
    ∧ (partOk { openOf false 1 with cls := 4 } false = false ∧ partOk (openOf false 1) true = false)
    ∧ (partOk (openOf false 2) false = true ∧ 1 < (openOf false 2).parts ∧ (openOf false 2).part < 2 ∧ (served.asp 7).assemblies.length < 64)
    ∧ 86400 ≤ 86400 ∧ 86400 < 86401
    ∧ (remembering none).remembered client = some ⟨0xC0000202, 5000, 11, none, 0⟩
    ∧ (((remembering none).asp 7).answers.filter (Remembered.is · client)).length ≤ 1
    ∧ (remembering (some { client := client, status := .ok })).remembered client = some ⟨0xC0000202, 5000, 11, some { client := client, status := .ok }, 0⟩
    ∧ (assembling.asp 7).assemblies.find? (fun y => y.client.addr = client.addr && y.client.port = client.port && y.client.seq = client.seq)
        = some ⟨client, false, [openOf false 2]⟩
    ∧ (∀ y ∈ (served.asp 7).assemblies, y.client.addr = client.addr → y.client.port = client.port → y.client.seq ≠ client.seq) := by decide

/-- Airspace 7 at an address with a filter, one destination and one batch kept for it. -/
def streaming (filters : List (Nat × Nat)) : State :=
  { some3 with
    airspaces := [(7, { addresses := [(0, (0xFD00, 64))], filters := filters, dests := [(16, ⟨0xC0000202, 5000, 0, 0, 4⟩), (17, ⟨9, 5000, 0, 0, 4⟩)]
                        batches := [⟨16, 4, 40, [⟨4196, 1, 0, 0, 0, 77⟩], 0, 1⟩] })]
    sessions := [(100, { st := .decode, airspace := 7, history := [5, 6] })] }

def frame (length : Nat) (ok : Bool) (payload : List Byte) : Frame := ⟨0, length, ok, false, false, false, 0, none, some true, none, 0xFD00, 30410, 9, 5000, payload⟩

theorem witness_PortsAndRetransmissionsAct_echo :
    (let f := { frame 9000 true [] with echo := some 0, dstMac := 2 ^ 40 }
     (streaming []).reaches f 7 = true ∧ (streaming []).owns 0 7 0xFD00 = true ∧ (∀ b, b < 7 → (streaming []).owns 0 b 0xFD00 = false)
     ∧ f.pause = false ∧ ¬((streaming []).ethPort 0).mtu < 9000 ∧ ∀ a, a < 8 → State.reset.owns 0 a 0xFD00 = false)
    ∧ ((streaming []).ethPort 0).linkUp = true ∧ 400 ≤ ((streaming []).ethPort 0).cap ∧ max 64 9000 ≤ ((streaming []).asp 7).bucket
    ∧ (∀ n, n < 4 → 400 ≤ ((streaming []).ethPort n).cap)
    ∧ ((streaming []).ethPort 3).linkUp = false ∧ (∀ n, n < 4 → (State.reset.ethPort n).linkUp = false)
    ∧ ((streaming []).asp 7).bucket < ((streaming []).asp 7).bucket + 1 :=
  ⟨⟨by simp [State.reaches, frame, streaming, State.asp, Tbl.getD], by decide⟩, by decide⟩

/-- A DHCPv6 Reply that gives address 9, its IA_NA option holding the IAADDR option; and airspace 7 asking for one. -/
def grantBytes : List Byte := [7, 0, 0, 1, 0, 3, 0, 40] ++ List.replicate 12 0 ++ [0, 5, 0, 24] ++ List.replicate 15 0 ++ [9] ++ List.replicate 8 0
def asking : State := { streaming [] with airspaces := [(6, { lease := some 8 }), (7, { dhcp := true })] }

/-- A frame for airspace 7 by the module's MAC address of port 0. -/
def frameTo (addr port : Nat) (payload : List Byte) : Frame :=
  { frame 100 true payload with dstMac := Config.macBase + 7, dstAddr := addr, dstPort := port }

theorem witness_PortsAndRetransmissionsAct_lease :
    (let f := frameTo (linkLocal 0 7) 546 grantBytes
     f.pause = false ∧ f.fcsOk = true ∧ f.echo = none ∧ f.udpChecksumOk = some true ∧ asking.reaches f 7 = true ∧ f.dstPort = 546
     ∧ (asking.asp 7).dhcp = true ∧ linkLocal f.port 7 = f.dstAddr ∧ (∀ b, b < 7 → asking.reaches f b = false) ∧ dhcpAddress f.payload = some 9
     ∧ (∀ b, b < 8 → b ≠ 7 → (asking.asp b).lease ≠ some 9 ∧ (asking.asp b).addresses = []) ∧ (asking.asp 6).lease = some 8)
    ∧ dhcpAddress [2] = none :=
  ⟨⟨rfl, rfl, rfl, rfl, by simp [State.reaches, frameTo, frame, asking, State.asp, Tbl.getD], rfl, rfl, by simp only [frameTo, frame],
      by intro b h; simp [State.reaches, frameTo, frame]; omega, by decide +kernel, by decide +kernel, by decide +kernel⟩, by decide +kernel⟩

/-- A RESUME and a CANCEL as datagrams, the latter with a word too many. -/
def resumeBytes : List Byte := [0x54, 0x56, 1, 5, 0, 24, 0, 0] ++ List.replicate 16 0
def cancelBytes : List Byte := [0x54, 0x56, 1, 3, 0, 32, 0, 0] ++ List.replicate 24 0

theorem witness_PortsAndRetransmissionsAct_messages :
    (∀ b, (streaming []).reaches (frameTo 0xFD00 30410 b) 7 = true)
    ∧ (streaming []).airspaceAt 0 0xFD00 30410 = some 7 ∧ State.reset.airspaceAt 0 0xFD01 30410 = none
    ∧ (let b := resumeBytes
       24 ≤ b.length ∧ msgAt b 0 2 = 0x5456 ∧ msgAt b 2 1 = 1 ∧ msgAt b 3 1 = 5 ∧ msgAt b 4 2 = b.length ∧ msgAt b 6 2 ≤ 1 ∧ msgAt b 16 8 = 0 ∧ b.length = 24)
    ∧ (msgAt cancelBytes 3 1 = 3 ∧ msgAt cancelBytes 4 2 = cancelBytes.length ∧ cancelBytes.length ≠ 28)
    ∧ ((streaming []).bump (Reg.Eth.RX_FRAMES 0)).remembered client = none ∧ ((remembering none).bump (Reg.Eth.RX_FRAMES 0)).remembered client ≠ none :=
  ⟨fun _ => by simp [State.reaches, frameTo, frame, streaming, State.asp, Tbl.getD], by decide, by decide, by decide +kernel, by decide +kernel,
    by decide +kernel, by decide +kernel⟩

theorem witness_PortsAndRetransmissionsAct_caps (n : Nat) : 400 ≤ ((streaming []).ethPort n).cap := by
  show 400 ≤ (Tbl.getD [(0, { linkUp := true })] n {} : EthPort).cap
  unfold Tbl.getD
  cases n with
  | zero => decide
  | succ n => exact Nat.le_refl 400

theorem witness_PortsAndRetransmissionsAct :
    (let s := streaming []
     (s.ethPort 0).mtu < 9001 ∧ ¬((s.ethPort 0).mtu < 9000 ∨ (frame 9000 true []).fcsOk = false ∨ (frame 9000 true []).fragment = true
        ∨ (frame 9000 true []).extensionOrOptions = true) ∧ (frame 9000 false []).fcsOk = false
     ∧ (frame 9001 true []).length = 9001 ∧ { frame 64 true [] with udpChecksumOk := none }.udpChecksumOk ≠ some true
     ∧ s.airspaceAt 0 0xFD00 30410 = some 7 ∧ (s.asp 7).filters = []
     ∧ headerOk ([0x54, 0x56, 1, 5, 0, 24, 0, 0] ++ List.replicate 16 0) = true
     ∧ ((streaming [(0xFE00, 120)]).asp 7).filters ≠ [] ∧ (∀ p ∈ ((streaming [(0xFE00, 120)]).asp 7).filters, inPrefix 9 p = false)
     ∧ (s.ethPort 3).linkUp = false ∧ (s.ethPort 0).linkUp = true ∧ s.remembered client = none ∧ 2048 ≤ (s.asp 7).bucket
     ∧ (s.asp 7).dests.find 18 = none ∧ (s.asp 7).dests.find 16 = some ⟨0xC0000202, 5000, 0, 0, 4⟩ ∧ (256 ≤ seqAfter 4 260)
     ∧ (s.asp 7).dests.find 17 = some ⟨9, 5000, 0, 0, 4⟩ ∧ 9 ≠ client.addr ∧ s.tick.count ≤ 40 + 4096 ∧ 1500 ≤ (s.ethPort 0).mtu
     ∧ (∀ b ∈ (s.asp 7).batches, b.seq ≠ 5 ∧ b.seq ≠ 0) ∧ 5 < 2 ^ 32
     ∧ s.namedBy 7 4196 = some 100 ∧ 1 < (s.sess 100).history.length ∧ s.namedBy 7 0 = none ∧ s.start.power = .active)
    ∧ State.reset.start.power ≠ .active ∧ State.reset.start.power ≠ .lull := by decide


/-! ### Witnesses: trust, fields and the fabric -/

/-- An RSA key in the one DER form, and a command that carries it. -/
def pubKey (last : Byte) : List Byte := derHead ++ [0x80] ++ List.replicate 510 0 ++ [last] ++ derTail
def keyCmd (last : Byte) : CmdHdr := ⟨.host, 8, false, 4096, 550, pubKey last⟩

/-- Airspace 7 holds pubKey 1 in slot 2, airspace 6 holds pubKey 2. -/
def keyed : State :=
  { some3 with airspaces := [(6, { keys := [(0, pubKey 2)] }), (7, { placement := some 3, keys := [(2, pubKey 1)] })] }

set_option maxRecDepth 20000 in
theorem witness_KeysAndFirmwareAreChecked_key : (keyCmd 3).src = .host ∧ keyed.dmaOk (keyCmd 3).buffer (keyCmd 3).bufferLen = true
    ∧ (derModulus (CmdHdr.read (keyCmd 3))).isSome = true ∧ (keyed.asp 7).keys.has 3 = false ∧ ¬(keyed.asp 7).keys.has 2 = false
    ∧ keyed.keyInUse 7 2 = false := by decide +kernel

theorem witness_KeysAndFirmwareAreChecked_free : ¬(∃ e ∈ (some3.asp 7).keys, sha512 e.2 = sha512 (CmdHdr.read (keyCmd 3)))
    ∧ ¬∃ b, b < 8 ∧ b ≠ 7 ∧ ∃ e ∈ (some3.asp b).keys, sha512 e.2 = sha512 (CmdHdr.read (keyCmd 3)) := by
  refine ⟨by simp [some3, withSess, State.asp, Tbl.getD], ?_⟩
  rintro ⟨b, _, hb, e, he, _⟩
  simp [some3, withSess, State.asp, Tbl.getD, Ne.symm hb, AirspaceSt.atReset] at he
  split at he <;> simp at he

theorem witness_KeysAndFirmwareAreChecked_others : ¬(∃ e ∈ (keyed.asp 6).keys, sha512 e.2 = sha512 (CmdHdr.read (keyCmd 1))) := by decide +kernel

theorem witness_KeysAndFirmwareAreChecked_others_mine : ∃ b, b < 8 ∧ b ≠ 6 ∧ ∃ e ∈ (keyed.asp b).keys, sha512 e.2 = sha512 (CmdHdr.read (keyCmd 1)) :=
  ⟨7, by decide, by decide, (2, pubKey 1), by decide +kernel, by decide +kernel⟩

theorem witness_KeysAndFirmwareAreChecked_update : (4096 ≤ 4096 ∧ 4096 ≤ 16777216)
    ∧ { some3 with regs := [(0x50028, 0xFFFFFFFF), (0x5002C, 0xFFFFFFFF)] }.dmaOk 4096 4096 = true ∧ up.boot.wpOpen = false
    ∧ (let s := { up with boot := { up.boot with wpOpen := true, update := some ⟨1, [7], 5, 0x0A03⟩ } }
       s.boot.wpOpen = true ∧ s.boot.update.isSome = true ∧ s.boot.update = some ⟨1, [7], 5, 0x0A03⟩)
    ∧ { up with boot := { up.boot with wpOpen := true } }.boot.update = none
    ∧ bootWellFormed [] 4096 = false := by decide +kernel

theorem witness_FieldTasksBegin : (cmd true).src = .host ∧ (cmd false).expert = false
    ∧ (let s := { up with fields := [(2, { role := .service }), (40, { role := .clearing, clock := .running }), (87, { role := .unassigned }),
          (84, { role := .clearing, task := 1 }), (83, { role := .active }), (82, { role := .lost })] }
       (s.field 40).role = .clearing ∧ (s.field 40).task = 0 ∧ s.inMove 40 = false ∧ (s.field 40).clock ≠ .stopped
       ∧ (s.field 87).role = .unassigned ∧ (s.field 87).task = 0 ∧ s.inMove 87 = false ∧ (s.field 87).clock = .stopped
       ∧ (s.field 84).role ≠ .service ∧ (s.field 84).role ≠ .lost ∧ (s.field 84).task ≠ 0
       ∧ (s.field 83).role = .active ∧ s.inMove 83 = false ∧ (s.field 83).task = 0 ∧ (s.field 82).role = .lost ∧ (s.field 2).role = .service) := by
  decide

/-- Field 87 runs in a ticking module. -/
def fielded : State := { up with fields := [(87, { role := .active, clock := .running, placement := some 3 }), (86, { clock := .stopped })] }

theorem witness_StewardsActOnTheirFieldAlone :
    (fielded.tick.running = true ∧ (fielded.field 87).clock = .running ∧ (fielded.field 87).role ≠ .service ∧ (fielded.field 87).role ≠ .lost)
    ∧ ¬(fielded.field 86).clock = .running ∧ (fielded.field 86).clock = .stopped ∧ (fielded.field 87).clock ≠ .stopped ∧ 15 < 16 ∧ 31 < 32 := by
  decide

/-- Field 87 calibrated: the primary branch at the largest offset of 62 cycles at level 0, the redundant one 1 ps beyond or not at all. -/
def calibrated (redundant : Option Nat) : State := { up with fields := [(87, { offsetPrimary := some 25833, offsetRedundant := redundant })] }

theorem witness_BeaconsReachTheFields : (-1 ≤ (1 : Int) ∧ (1 : Int) ≤ 1) ∧ ¬((2 : Int) ≤ 1)
    ∧ beaconGood (beaconWord true true 127 65535) = true ∧ beaconGood (beaconWord false false 0 0) = true
    ∧ beaconGood (beaconWord false false 0 0 + 1) = false
    ∧ ((calibrated none).field 87).offsetPrimary = some 25833 ∧ 12 * 25833 ≤ 62 * 5000 ∧ ¬12 * 25834 ≤ 62 * 5000
    ∧ ((calibrated (some 0)).field 87).offsetRedundant = some 0 ∧ ((calibrated none).field 87).offsetRedundant = none
    ∧ up.tick.running = true ∧ lulled.tick.running = false ∧ up.following = false
    ∧ (up.field 87).role ≠ .lost ∧ (up.field 87).role ≠ .service ∧ (up.field 87).lossPending = false
    ∧ { up with fields := [(87, { lossPending := true })] }.field 87 = { lossPending := true } := by decide +kernel

/-- A WRITE of one word to core 3 of field 10 for placement 3 and its tag 7, the same with a wrong route check, and a READ of one word. -/
def writeRoute (dest : Nat) : Route := ⟨dest, 64, 2, 7, 3, false, false, false, 0, 0, 96⟩
def writePkt (dest : Nat) : Packet := packetOf (writeRoute dest) (List.replicate 32 0x5A)
def readPkt (dest : Nat) : Packet := packetOf { writeRoute dest with kind := 1 } ([0, 1, 0, 0, 1, 0] ++ List.replicate 26 0)

/-- A module whose router 9 has lost its east link and whose router 10 is cut off from router 8. -/
def cut : State :=
  { up with
    fields := [(8, { router := { act := { sites := [(10, (6, false))] } } }), (9, { router := { linksDown := [2] } })]
    gust := [(5, stewardId 9)] }

theorem witness_RoutersForwardByTheirTables : routeCrc (writePkt 323).route ≠ (writePkt 323).crc + 1
    ∧ routeCrc (writePkt 323).route = (writePkt 323).crc ∧ (Route.decode (writePkt 323).route).reserved = false
    ∧ (checkFlits (writePkt 323).flits).2 = (0, 0) ∧ (Route.decode (writePkt 323).route).mcast = false
    ∧ (Route.decode (writePkt 323).route).kind = 0 ∧ endpointSite (Route.decode (writePkt 323).route).dest = some 10 ∧ 10 ≠ 20
    ∧ ((cut.router 20).act.site 10).2 = true ∧ (cut.router 20).act.port 20 10 ≠ 7 ∧ (cut.router 20).act.port 20 10 ∉ (cut.router 20).linksDown
    ∧ ((cut.router 8).act.site 10).2 = false ∧ (Route.decode (writePkt 323).route).ackreq = false
    ∧ 7 < 8 ∧ 1 ∉ (cut.router 9).linksDown ∧ 2 ∈ (cut.router 9).linksDown
    ∧ cut.gust.find? (fun y => y.1 = 5) = some (5, stewardId 9) ∧ ∀ e ∈ cut.gust, e.1 ≠ 6 := by decide +kernel

/-- Core 3 of field 87 holds placement 3's segment 0 with tag 7 in powered banks, and waits for one READ. -/
def remoteState : State :=
  { up with
    fields := [(87, { role := .active, clock := .running, placement := some 3 })]
    cores := [(2787, { state := .serving, bankOn := 0xFFFF, tags := [(0, 7)], remote := [⟨99, 64, 5, 1⟩] })] }
def answerPkt (addr : Nat) : Packet := packetOf { writeRoute 2787 with kind := 2, addr := addr } (List.replicate 32 0x5A)

theorem witness_CoresAnswerTheFabric : portOfEngine 2787 = none ∧ (remoteState.core 2787).state ≠ .failed ∧ (remoteState.core 2787).mem.wf = true
    ∧ (let p := writePkt 2787
       let r := Route.decode p.route
       remoteState.remoteRangeOk r 2787 (r.len + 1) = true ∧ r.len = 0 ∧ r.ackreq = false ∧ (packetData p).length = 32)
    ∧ (let r := { Route.decode (writePkt 2787).route with addr := 2048 }
       remoteState.remoteRangeOk r 2787 (r.len + 1) = false ∧ r.ackreq = false)
    ∧ (let p := readPkt 2787
       readWordsOf p = 1 ∧ remoteState.remoteRangeOk (Route.decode p.route) 2787 1 = true
       ∧ (remoteState.core 2787).scErr.getD (linLocal (Route.decode p.route).addr) 0 = 0)
    ∧ (let p := answerPkt 57343
       let r := Route.decode p.route
       r.len = 0 ∧ (remoteState.core 2787).bankUp (linLocal r.addr / 57344) = true ∧ p.flits.length = 1 ∧ (checkFlits p.flits).2 = (0, 0)
       ∧ r.drop = false ∧ (remoteState.core 2787).seq.waits = [] ∧ (remoteState.core 2787).seq.ending = false
       ∧ (remoteState.core 2787).written = [])
    ∧ (10 + 67 ≤ remoteState.tick.period ∧ remoteState.tick.period < 4800 + 67) ∧ ∃ q ∈ (remoteState.core 2787).remote, q.addr = 64 := by
  decide +kernel

/-! ### Witnesses: operations of a core's program -/

/-- A descriptor of one row: COUNT, FMT, DST, SRCA, SRCB, P0, P1, P2. -/
def desc (count fmt dst a b p0 p1 p2 : Nat) : W256 :=
  BitVec.ofNat 256 (count * 2 ^ 20 + fmt * 2 ^ 32 + dst * 2 ^ 64 + a * 2 ^ 96 + b * 2 ^ 128 + p0 * 2 ^ 160 + p1 * 2 ^ 192 + p2 * 2 ^ 224)

/-- Core 0 of field 87 with every bank up, row 0 valid with a KV region of 2,000 words, and a block map at word 500 that lists one block at
word 1,024. -/
def readyMem : Mem := Mem.writeBytes (Mem.writeBytes [] 16000 [1, 0, 0, 0, 1]) 16032 (leBytes 4 0x80000400)
def readyCore (fill : Nat) : CoreSt :=
  { bankOn := 0xFFFF, mem := readyMem, decRows := [(0, { valid := true, kvBase := 1024, kvSize := 2000, kvFill := fill, blockMap := 500, sampleBlk := 600 })] }
def ready (fill : Nat) : State := { up with cores := [(2784, readyCore fill)] }

theorem ready_opReady (fill : Nat) : OpReady (ready fill) 2784 :=
  ⟨(by decide : ∀ b, b < 16 → ((0xFFFF#16).getLsbD b && !(0#16).getLsbD b) = true), rfl, Or.inl rfl, fun _ h => nomatch h⟩

/-- Every local operand of row 0 below word 8,192 has its range inside the scratchpad. -/
theorem ready_operand (fill o k : Nat) (ho : o ≤ 8192) (hk : k ≤ 900000) : Operand (ready fill) 2784 0 o k o := by
  have h1 : bits o 31 30 = 0 := by simp [bits]; omega
  have h2 : bits o 29 20 = 0 := by simp [bits]; omega
  have h3 : bits o 19 0 = o := by simp [bits]; omega
  have h4 : linLocal o = o := by simp [linLocal, linOf, bits]; omega
  refine ⟨by simp [resolve, h1, h2, h3, h4], ?_⟩
  simp [faulty, h1, scratchWords]
  omega

theorem witness_VectorOperationsWriteTheirResults :
    OpReady (ready 0) 2784 ∧ (∀ p0 ∈ [0, 1, 4, 7], dP0 (desc 2 0 8192 0 4096 p0 0 64) = p0)
    ∧ (∀ k, k ≤ 900000 → let d := desc 2 0 8192 0 4096 7 0 64
        Operand (ready 0) 2784 0 (dSrcA d) k 0 ∧ Operand (ready 0) 2784 0 (dSrcB d) k 4096 ∧ Operand (ready 0) 2784 0 (dDst d) k 8192)
    ∧ (resolve 1040383 ((ready 0).row 2784 0) 0 = some 917503 ∧ faulty 1040383 ((ready 0).row 2784 0) 917503 2 = true) := by
  refine ⟨ready_opReady 0, by decide, ?_, by decide, by decide⟩
  intro k h d
  rw [show dSrcA d = 0 by decide, show dSrcB d = 4096 by decide, show dDst d = 8192 by decide]
  exact ⟨ready_operand _ _ _ (by decide) h, ready_operand _ _ _ (by decide) h, ready_operand _ _ _ (by decide) h⟩

theorem witness_TileOperationsSumInOrder : OpReady (ready 0) 2784 ∧ ((ready 0).liveBankOf (coreField 2784)).err = []
    ∧ (let d := desc 4 5 8192 0 4096 0x108 (2 ^ 20 + 2) 7
       (∀ k, k ≤ 900000 → Operand (ready 0) 2784 0 (dSrcA d) k 0 ∧ Operand (ready 0) 2784 0 (dSrcB d) k 4096 ∧ Operand (ready 0) 2784 0 (dDst d) k 8192)
       ∧ bits (dP1 d) 20 20 = 1 ∧ bits (dP0 d) 8 8 = 1 ∧ dFmt d = 5)
    ∧ (let d := desc 4 1 8192 0 4096 0x08 2 7
       bits (dP1 d) 20 20 = 0 ∧ bits (dP0 d) 8 8 = 0 ∧ dFmt d ≠ 5 ∧ bits (dP1 d) 17 0 ≤ 2 ∧ ((ready 0).row 2784 0).token < bits (dP1 d) 17 0)
    ∧ (let d := desc 4 1 8192 0 4096 0x08 0 7
       bits (dP1 d) 17 0 ≤ ((ready 0).row 2784 0).token ∧ ((ready 0).row 2784 0).token < bits (dP1 d) 17 0 + bits (dP2 d) 17 0) := by
  refine ⟨ready_opReady 0, rfl, ⟨?_, by decide⟩, by decide, by decide⟩
  intro k h
  rw [show dSrcA (desc 4 5 8192 0 4096 0x108 (2 ^ 20 + 2) 7) = 0 by decide, show dSrcB (desc 4 5 8192 0 4096 0x108 (2 ^ 20 + 2) 7) = 4096 by decide,
    show dDst (desc 4 5 8192 0 4096 0x108 (2 ^ 20 + 2) 7) = 8192 by decide]
  exact ⟨ready_operand _ _ _ (by decide) h, ready_operand _ _ _ (by decide) h, ready_operand _ _ _ (by decide) h⟩

theorem ready_blockOf (e : Nat) : (ready 0).blockOf 2784 0 e = if e = 0 then some 1024 else none := by
  by_cases h : e = 0
  · subst h; decide
  · have hm : (mapHead ((ready 0).wordsAt 2784 ((ready 0).row 2784 0).blockMap 1)).entries = 1 := by decide
    simp only [State.blockOf, hm, h, if_false]
    rw [if_pos]
    simp; omega

theorem witness_AttentionFollowsTheBlockMap_blocks :
    OpReady (ready 0) 2784
    ∧ (let d := desc 1 3 8192 0 0 7000 0 0
       dDstFmt d ≠ .fp32 ∧ (∀ k, k ≤ 900000 → Operand (ready 0) 2784 0 (dSrcA d) k 0
         ∧ Operand (ready 0) 2784 0 (dDst d) k 8192 ∧ Operand (ready 0) 2784 0 (dP0 d) k 7000)
       ∧ 7000 + (8 * (bits (dP1 d) 4 0 + 1) + 31) / 32 ≤ 8192 ∧ dP0 d % 2 = 0)
    ∧ (let r := (ready 0).row 2784 0
       let h := mapHead ((ready 0).wordsAt 2784 r.blockMap 1)
       r.blockMap + 1 + h.entries / 8 < scratchWords ∧ r.sampleBlk + 18 ≤ scratchWords
       ∧ h.split ≠ 0 ∧ r.kvFill / 256 % h.split = h.share
       ∧ ∀ e x, (ready 0).blockOf 2784 0 e = some x →
           (ready 0).entryOk 2784 0 x (blockWords ((ready 0).kvHeadsOf 2784 1 1) 1 1) = true
           ∧ x + 0 + headWords 1 1 ≤ scratchWords) := by
  refine ⟨ready_opReady 0, ⟨by decide, ?_, by decide⟩, by decide, by decide, by decide, by decide, ?_⟩
  · intro k h
    rw [show dSrcA (desc 1 3 8192 0 0 7000 0 0) = 0 by decide, show dDst (desc 1 3 8192 0 0 7000 0 0) = 8192 by decide,
      show dP0 (desc 1 3 8192 0 0 7000 0 0) = 7000 by decide]
    exact ⟨ready_operand _ _ _ (by decide) h, ready_operand _ _ _ (by decide) h, ready_operand _ _ _ (by decide) h⟩
  · intro e x h
    rw [ready_blockOf] at h
    split at h <;> simp at h
    subst h
    decide

/-- The same core with the one block listed outside the row's region. -/
def misplaced : State := { up with cores := [(2784, { readyCore 0 with mem := Mem.writeBytes readyMem 16032 (leBytes 4 0x80000010) })] }

theorem witness_AttentionFollowsTheBlockMap_append :
    (let d := desc 1 4 (2 ^ 30) 0 4096 0 0 0
     kvTb (dP0 d) = 1 ∧ kvOmega (dP0 d) = 1 ∧ bits (dDst d) 19 0 + dCount d * headWords 1 1 ≤ 136
     ∧ Operand (ready 0) 2784 0 (dSrcA d) 8 0 ∧ Operand (ready 0) 2784 0 (dSrcB d) 8 4096)
    ∧ blockWords ((ready 0).kvHeadsOf 2784 1 1) 1 1 = 136
    ∧ (let entry := leNat ((((ready 0).wordsAt 2784 501 1).drop 0).take 4)
       entry / 2 ^ 30 = 2 ∧ (ready 0).entryOk 2784 0 (entry % 2 ^ 20) 136 = true ∧ entry % 2 ^ 20 + 136 ≤ scratchWords)
    ∧ (let entry := leNat (((misplaced.wordsAt 2784 501 1).drop 0).take 4)
       entry / 2 ^ 30 = 2 ∧ misplaced.entryOk 2784 0 (entry % 2 ^ 20) 136 = false ∧ misplaced.blockOf 2784 0 (firstEntry false 0 0 + 0) = some 16)
    ∧ (let h := mapHead ((ready 256).wordsAt 2784 500 1)
       { h with split := 2 }.split ≠ 0 ∧ ((ready 256).row 2784 0).kvFill / 256 % { h with split := 2 }.split ≠ h.share)
    ∧ dP0 (desc 1 0 8192 0 0 1 8 0) % 2 = 1 := by
  refine ⟨⟨by decide, by decide, by decide, ?_, ?_⟩, by decide, by decide, by decide, by decide, by decide⟩
  · rw [show dSrcA (desc 1 4 (2 ^ 30) 0 4096 0 0 0) = 0 by decide]
    exact ready_operand _ _ _ (by decide) (by decide)
  · rw [show dSrcB (desc 1 4 (2 ^ 30) 0 4096 0 0 0) = 4096 by decide]
    exact ready_operand _ _ _ (by decide) (by decide)

/-- An operation code and the EXCH flag laid over a descriptor. -/
def asOp (op : Nat) (exch : Bool) (d : W256) : W256 := d ||| BitVec.ofNat 256 (op + if exch then 1024 else 0)

/-- The core of `ready` with its segments tagged 7, the words of three ranges arrived, and two operations that wait: a RECV with deadline 900 and a
GATHER, which has none of its own. -/
def moving : State :=
  { up with
    cores := [(2784, { readyCore 0 with
      tags := [(0, 7), (4, 7)]
      seq := {
        arrived := [(8192, 60), (8193, 61)] ++ (List.range 16).map (fun i => (7000 + i, 62))
        waits := [⟨asOp 0x23 false (desc 3 0 8192 0 0 7000 0 0), 65535, 48⟩, ⟨asOp 0x21 false (desc 3 0 8192 0 0 900 0 0), 900, 50⟩] } })] }

theorem moving_opReady : OpReady moving 2784 :=
  ⟨(by decide : ∀ b, b < 16 → ((0xFFFF#16).getLsbD b && !(0#16).getLsbD b) = true), rfl, Or.inl rfl, fun _ h => nomatch h⟩

theorem witness_MovesAndCloudTransfersComplete_moves :
    OpReady moving 2784
    ∧ (let d := desc 2 0 8192 0 4096 7000 0 0
       dExch d = false ∧ Operand moving 2784 0 (dSrcA d) 2 0 ∧ Operand moving 2784 0 (dSrcB d) 3 4096
       ∧ (moving.core 2784).rangeTag 0 2 = some 7 ∧ (moving.core 2784).rangeTag 2047 2 = none
       ∧ Operand moving 2784 0 (dP0 d) 512 7000 ∧ (∀ x ∈ ((List.range 16).map (choiceId (moving.wordsAt 2784 4096 3))).filter (· ≠ 0xFFFF), x < 4096)
       ∧ bits (dP1 d) 5 0 + 1 = 1 ∧ (4 * 1 + 31) / 32 = 1 ∧ Operand moving 2784 0 (dP0 d) 1 7000
       ∧ (∀ i, i < 1 → (moving.core 2784).rangeTag (0 + 2 * i) 2 = some 7) ∧ Operand moving 2784 0 (dDst d) 2 8192
       ∧ (∃ i, i < 1 ∧ (moving.core 2784).rangeTag (2047 + 2 * i) 2 = none))
    ∧ (let d := asOp 0x20 true (desc 2 0 8192 0 0 900 0 0)
       dExch d = true ∧ (moving.core 2784).seq.exch.length < 32)
    ∧ (let d := desc 2 0 1040383 1040383 0 0 0 0
       resolve (dSrcA d) (moving.row 2784 0) 0 = some 917503 ∧ resolve (dDst d) (moving.row 2784 0) 0 = some 917503
       ∧ faulty (dSrcA d) (moving.row 2784 0) 917503 2 = true ∧ faulty (dDst d) (moving.row 2784 0) 917503 2 = true) := by
  refine ⟨moving_opReady, ⟨by decide, ⟨by decide, by decide⟩, ⟨by decide, by decide⟩, by decide, by decide, ⟨by decide, by decide⟩, by decide +kernel, by decide,
    by decide, ⟨by decide, by decide⟩, by decide, ⟨by decide, by decide⟩, by decide⟩, by decide, by decide, by decide, by decide, by decide⟩

/-- A REDUCE of one child whose partial has arrived: the root's, and that of a node whose parent is core 2785. -/
theorem witness_MovesAndCloudTransfersComplete_reduces :
    (∀ p0 ∈ [0x1FFF, 0x41FFF], let d := asOp 0x22 false (desc 2 0 8192 0 0 p0 7000 0)
       dOp d = 0x22 ∧ bits (dP0 d) 11 0 = 0xFFF ∧ bits (dP0 d) 15 12 = 1 ∧ Operand moving 2784 0 (dSrcA d) 16 0
       ∧ Operand moving 2784 0 (dP1 d) (8 * 2 * 1) 7000 ∧ Operand moving 2784 0 (dDst d) 16 8192)
    ∧ (bits 0x1FFF 18 18 = 0 ∧ bits 0x41FFF 18 18 = 1)
    ∧ (moving.core 2784).rangeTag 8192 16 = some 7 ∧ (moving.core 2784).rangeTag 0 16 = some 7
    ∧ (let d := asOp 0x22 false (desc 2 0 8192 0 0 0x1AE1 7000 0); bits (dP0 d) 11 0 = 2785 ∧ bits (dP0 d) 11 0 ≠ 0xFFF)
    ∧ (((combineGroups 0 1 (moving.groupsAt 2784 0 .fp32 2) (moving.groupsAt 2784 7000 .fp32 2)).flatMap wordsBytes).length = 256 * 2) := by
  refine ⟨?_, by decide, by decide, by decide, by decide, by decide +kernel⟩
  intro p0 h
  simp only [List.mem_cons, List.not_mem_nil, or_false] at h
  rcases h with rfl | rfl <;> exact ⟨by decide, by decide, by decide, ⟨by decide, by decide⟩, ⟨by decide, by decide⟩, ⟨by decide, by decide⟩⟩

theorem witness_MovesAndCloudTransfersComplete_waits :
    moving.inbox 2784 = 2784
    ∧ (let d := asOp 0x21 false (desc 3 0 8192 0 0 900 0 0)
       ∃ u ∈ moving.activeRows 2784 d, ∃ w ∈ moving.wordsDue 2784 d u, ∀ e ∈ (moving.core 2784).seq.arrived, e.1 ≠ w)
    ∧ (let d := asOp 0x22 false (desc 2 0 8192 0 0 0x1FFF 7000 0)
       (∀ u ∈ moving.activeRows 2784 d, ∀ w ∈ moving.wordsDue 2784 d u, ∃ e ∈ (moving.core 2784).seq.arrived, e.1 = w)
       ∧ ∀ u ∈ moving.activeRows 2784 d, faulty 7000 (moving.row 2784 u) 7000 16 = false)
    ∧ (let d := asOp 0x21 false (desc 2 0 1040383 0 0 900 0 0)
       0 ∈ moving.activeRows 2784 d ∧ (awaitedOperand d).2 ≠ 0 ∧ resolve (awaitedOperand d).1 (moving.row 2784 0) 0 = some 917503
       ∧ faulty (awaitedOperand d).1 (moving.row 2784 0) 917503 (awaitedOperand d).2 = true)
    ∧ (moving.core 2784).seq.firstDue = some ⟨asOp 0x21 false (desc 3 0 8192 0 0 900 0 0), 900, 50⟩
    ∧ (moving.core 2784).seq.ending = false ∧ ((ready 0).core 2784).seq.firstDue = none := by decide +kernel

/-- The same core with two transfers of airspace 7 in its Cloud queue, whose pages stand on stack 1. -/
def clouding (toCloud : Bool) (stripes : List Nat) : State :=
  { up with
    airspaces := [(7, { window := 10, stripes := stripes })]
    cores := [(2784, { readyCore 0 with tags := [(0, 7)], cloud := [⟨7, toCloud, 0, 2048 + 1984, 64⟩, ⟨7, true, 0, 0, 64⟩] })] }

theorem witness_MovesAndCloudTransfersComplete_cloud :
    (let d := desc 1 0 0 0 0 4096 14 0
     decide (bits (dP1 d) 0 0 = 0) = true ∧ bits (dSrcA d) 31 30 ≠ 3 ∧ Operand moving 2784 0 (dSrcA d) 64 0
     ∧ (moving.core 2784).rangeTag 0 64 = some (bits (dP1 d) 3 1))
    ∧ (let d := desc 1 0 8192 0 0 4096 13 0
       decide (bits (dP1 d) 0 0 = 0) = false ∧ Operand moving 2784 0 (dDst d) 64 8192 ∧ (moving.core 2784).rangeTag 8192 64 ≠ some (bits (dP1 d) 3 1))
    ∧ (let d := desc 1 0 1040383 0 0 4096 13 0
       resolve (dDst d) (moving.row 2784 0) 0 = some 917503 ∧ faulty (dDst d) (moving.row 2784 0) 917503 64 = true)
    ∧ (∀ k ∈ [true, false], ((clouding k [0]).core 2784).cloud = [⟨7, k, 0, 2048 + 1984, 64⟩, ⟨7, true, 0, 0, 64⟩])
    ∧ (∀ i, i < 64 → (2048 + 1984 + i) / 2048 < ((clouding true [0]).asp 7).window)
    ∧ (∀ i, i < 64 → (clouding true [0]).cloudPage [0] ((2048 + 1984 + i) / 2048) ≠ none) ∧ ([0] : List Nat).Nodup
    ∧ (∀ b, b < 16 → ((clouding false [0]).core 2784).bankUp b = true) ∧ 0 + 64 ≤ scratchWords
    ∧ (clouding true []).cloudPage [] 1 = none ∧ (moving.core 2784).cloud = [] := by
  refine ⟨⟨by decide, by decide, ⟨by decide, by decide⟩, by decide⟩, ⟨by decide, ⟨by decide, by decide⟩, by decide⟩, by decide, by decide, by decide,
    by decide, by decide, by decide, by decide, by decide, by decide⟩

/-- A serving core of field 87 with a sequencer in a given state, all its programs loaded. -/
def program (seq : SeqSt) (area : Nat) (ticks : List Nat) : State :=
  { fielded with
    fields := [(87, { role := .active, clock := .running, placement := some 3, beaconOk := true })]
    cores := [(2784, { readyCore 0 with
      state := .serving, decode := ⟨0, 4⟩, prefill := ⟨100, 4⟩, areaA := ⟨3840, area⟩, areaB := ⟨3968, 0⟩, seq := seq, overrunTicks := ticks
      preRows := [(0, { valid := true }), (1, {})]
      code := [(0, desc 2 0 8192 0 4096 7000 0 0), (1, asOp 0x01 false 0), (3, asOp 0x37 false (desc 2 0 4096 8192 0 0 0 0))], codeErr := [(2, 2), (3, 1)], mem := Mem.writeBytes readyMem 0 [1] })] }

theorem witness_ProgramsRunInTheTick :
    ((program {} 0 []).coreRuns 2784 = true ∧ 0 < ((program {} 0 []).core 2784).decode.len ∧ ((program {} 0 []).core 2784).seq.prog = 0)
    ∧ moving.coreRuns 2784 = false
    ∧ (((program { prog := 3 } 0 []).core 2784).seq.prog ≤ 3 ∧ 4 ≤ ((program { prog := 4 } 0 []).core 2784).seq.prog)
    ∧ ((program { prog := 1 } 0 []).core 2784).seq.waits = [] ∧ ((program { prog := 1 } 0 []).core 2784).absShare = []
    ∧ (moving.core 2784).seq.waits ≠ []
    ∧ (bits (dP0 (desc 0 0 0 0 0 0x10064 0 0)) 15 0 + 7 = 107 ∧ bits (dP0 (desc 0 0 0 0 0 0x10064 0 0)) 16 16 = 1)
    ∧ ((program { prog := 4, waitUntil := some 90, exch := [(1, 0)] } 0 []).core 2784).seq.waitUntil = some 90
    ∧ ((program { prog := 4, waitUntil := some 90, exch := [(1, 0)] } 0 []).core 2784).seq.exch = [(1, 0)]
    ∧ (((program {} 0 []).core 2784).seq.waitUntil = none ∧ ((program {} 0 []).core 2784).seq.exch = [] ∧ ((program {} 0 []).core 2784).seq.armed = none)
    ∧ (((program {} 0 []).core 2784).preRows.map Prod.fst).Nodup ∧ (((program {} 0 []).core 2784).preRows.getD 0 {}).valid = true
    ∧ (((program {} 0 []).core 2784).preRows.getD 1 {}).valid = false := by decide

/-- A program runs at its limit, or its END has issued and its operations run beyond it; two overruns within 16 ticks, or not. -/
theorem witness_ProgramsRunInTheTick_overruns :
    (1 ∈ [1, 2, 3] ∧ ((program { prog := 1 } 0 []).core 2784).seq.prog = 1)
    ∧ (let q := ((program { prog := 4, ended := (1, 5000) } 0 []).core 2784).seq
       q.prog ∉ [1, 2, 3] ∧ q.ended.1 = 1 ∧ 1 ∈ [1, 2, 3] ∧ 48 + ((program {} 0 []).planOf 2784).d + ((program {} 0 []).core 2784).extension < q.ended.2)
    ∧ (let q := ((program {} 0 []).core 2784).seq; q.ended = (0, 0) ∧ q.prog = 0)
    ∧ ((program { prog := 6 } 0 []).core 2784).seq.prog = 6
    ∧ (program {} 0 [26]).tick.count = 41 ∧ ((program {} 0 [26]).core 2784).overrunTicks = [26] ∧ ((program {} 0 [26]).core 2784).state ≠ .failed
    ∧ 2 ≤ (((41 :: [26]).take 16).filter fun t => 41 < t + 16).length ∧ ¬2 ≤ (((41 :: [25]).take 16).filter fun t => 41 < t + 16).length := by decide

theorem witness_ProgramsRunInTheTick_cuts :
    (let s := program { prog := 4 } 0 []
     (s.core 2784).seq.prog = 4 ∧ (s.core 2784).seq.ending = false ∧ s.inbox 2784 = 2784)
    ∧ (let s := program { prog := 8 } 0 []
       (s.core 2784).seq.prog = 8 ∧ (s.core 2784).seq.ending = false ∧ s.inbox 2784 = 2784 ∧ (s.field (coreField 2784)).placement = some 3)
    ∧ ((program { prog := 4, ending := true } 0 []).core 2784).seq.ending = true := by decide

theorem witness_ProgramsRunInTheTick_trouble :
    (let s := program { prog := 1 } 0 []
     let d := desc 0 0 0 0 0 0 0 0
     OpReady s 2784 ∧ (∀ v ∈ s.activeRows 2784 d, v = 0) ∧ 0 ∈ s.activeRows 2784 d ∧ Operand s 2784 0 (dSrcA d) 1 0 ∧ (s.row 2784 0).drop = false
     ∧ 0 < leNat ((s.wordsAt 2784 0 1).take 2) ∧ (s.core 2784).seq.armed = none ∧ (s.core 2784).seq.replayed = false)
    ∧ ¬(0 < leNat ((moving.wordsAt 2784 0 1).take 2))
    ∧ ((program { prog := 1, replayed := true } 0 []).core 2784).seq.replayed = true
    ∧ (let s := program { armed := some (3, 100, false, true) } 0 []
       let start := 48 + (s.planOf 2784).c + s.extOf 2784
       (s.core 2784).seq.armed = some (3, 100, false, true) ∧ start + 100 ≤ s.tick.period - 64 - (s.planOf 2784).x
       ∧ s.tick.period - 64 - (s.planOf 2784).x < start + 65535) := by
  refine ⟨⟨⟨by decide, rfl, Or.inl rfl, fun _ h => nomatch h⟩, by decide, by decide, ⟨by decide, by decide⟩, by decide, by decide, by decide, by decide⟩,
    by decide, by decide, by decide⟩

theorem witness_IssueCarriesOutTheDescriptor :
    (let s := program { prog := 1, pc := 1 } 0 []
     let q := (s.core 2784).seq
     q.prog ≠ 0 ∧ q.ending = false ∧ q.waits = [] ∧ q.waitUntil = none ∧ (s.core 2784).codeErr.getD q.pc 0 ≠ 2
     ∧ dOp ((s.core 2784).code.getD q.pc 0) = 0x01)
    ∧ (let s := program { prog := 1, pc := 3, waits := [⟨asOp 0x21 false (desc 3 0 8192 0 0 900 0 0), 900, 50⟩] } 0 []
       let d := (s.core 2784).code.getD 3 0
       ∃ w ∈ (s.core 2784).seq.waits, overlaps (s.opRanges 2784 d).1 (s.opRanges 2784 w.d).2 = true)
    ∧ ((program { prog := 1, pc := 2 } 0 []).core 2784).codeErr.getD 2 0 = 2 ∧ ((program { prog := 1, pc := 3 } 0 []).core 2784).codeErr.getD 3 0 = 1
    ∧ (moving.core 2784).seq.prog = 0 ∧ ((program { prog := 1, ending := true } 0 []).core 2784).seq.ending = true := by decide


/-! ### Witnesses: PMBus, MCTP, PLDM, SPDM and the test access port -/

/-- Page p of the PMBus device selected. -/
def paged (p : Nat) : State := { up with mgmt := { up.mgmt with page := p }, power := { up.power with alert := true } }

theorem witness_PmbusReadsComplete : (paged 23).start.power ≠ .off ∧ (paged 23).boot.recovery = false ∧ (paged 23).start.power ≠ .standby
    ∧ (2 ≤ (paged 23).mgmt.page ∧ (paged 23).mgmt.page ≤ 23) ∧ 2 ≤ (paged 2).mgmt.page ∧ (paged 1).mgmt.page = 1 ∧ (paged 0).mgmt.page = 0
    ∧ 1 ≤ (paged 1).mgmt.page ∧ (paged 1).mgmt.page ≤ 23 ∧ (paged 0).mgmt.page ≠ 1 := by decide

theorem witness_PmbusWritesComplete : (paged 0).mgmt.page = 0 ∧ (paged 255).mgmt.page = 0xFF ∧ (paged 0).power.alert = true
    ∧ (paged 0).start.power ≠ .off ∧ (paged 0).start.power ≠ .standby ∧ (paged 0).boot.recovery = false
    ∧ (6000 ≤ 6000 ∧ 6000 ≤ 21000 ∧ linear11 6000 1 < 65536) ∧ fromLinear11 (linear11 6000 1) = some 6000 := by decide

theorem witness_LinearElevenIsNearestBelow : 0 < 1 ∧ 1024 * 2 ^ 15 - 1 < 1024 * 2 ^ 15 * 1 := by decide

/-- A module whose SPDM connections have reached a stage, with an event receiver and an event sent to it. -/
def attesting (stage : Nat) (debug : Bool) : State :=
  { up with
    boot := { up.boot with debugOpen := debug }
    mgmt := { up.mgmt with spdm := [(0, stage), (1, stage)], receiver := some 9, events := [(1, 2, 3, 4)] } }

theorem witness_MctpAndPldmRequestsComplete : (attesting 0 false).start.power ≠ .off ∧ (attesting 0 false).host.linkUp = true
    ∧ (1 ≤ 254 ∧ 254 ≤ 254 ∧ 255 < 256) ∧ up.get Reg.Therm.INLET = 0x8000 ∧ 35 ∉ [1, 2, 3, 4, 5, 6, 7, 32, 33, 34]
    ∧ 34 ∈ [1, 2, 3, 4, 5, 6, 7, 32, 33, 34] ∧ (attesting 0 false).mgmt.receiver = some 9
    ∧ (attesting 0 false).mgmt.events = [(1, 2, 3, 4)] := by decide

theorem witness_SpdmConversationGivesEvidence : (∀ k ∈ [0, 1, 2, 3], (attesting k false).mgmt.spdm.getD 1 0 = k)
    ∧ (attesting 3 false).mgmt.spdm.getD 0 0 = 3 ∧ (attesting 3 false).boot.debugOpen = false ∧ (attesting 3 true).boot.debugOpen = true
    ∧ ¬(true = true ∧ false = true) ∧ (2 ≤ 5 ∧ 5 ≤ 5) := by decide

theorem witness_TestPortInstructionsComplete : up.start.power ≠ .standby ∧ up.boot.recovery = false
    ∧ (let s := { up with boot := { up.boot with recovery := true, wpOpen := true, romDone := false } }
       s.boot.recovery = true ∧ s.boot.wpOpen = true ∧ s.start.power ≠ .off ∧ s.boot.romDone = false ∧ s.start.resetCause = 0
       ∧ s.boot.revokedSlot 3 = false) ∧ 16777215 + [(7 : Byte)].length ≤ 16777216 ∧ up.boot.wpOpen = false ∧ up.boot.debugOpen = false := by decide

/-! ### More witnesses: a state for each further case of the statements -/

/-- Field 87's work may move for a self-test: its twin is complete, clearing 60 is free, no move is under way. -/
theorem witness_InformationAndSelfTestsComplete_twins :
    ((held.field 87).role = .active ∧ (held.field 87).task = 0 ∧ held.inMove 87 = false ∧ held.start.testField = none ∧ held.power.ladder = 0
      ∧ (cmd true).expert = true ∧ (held.field 87).placement = some 3 ∧ held.twinComplete 87 ≠ none
      ∧ held.nearestClearing 87 ≠ none ∧ (held.plc 3).moves.length < 3 ∧ held.aliasFull 3 87 = false)
    ∧ (let s : State := { held with
          fields := [(84, { role := .active, placement := some 3, bank0 := { st := .twin }, twinOf := some 87 }),
            (87, { role := .active, placement := some 3, twinHolder := some 84 })] ++ Config.factoryClearings.map fun f => (f, ({} : FieldSt)) }
       s.twinComplete 87 ≠ none ∧ s.nearestClearing 87 = none)
    ∧ (losing.field 84).role = .active ∧ losing.twinComplete 84 = none ∧ (cmd false).expert = false
    ∧ { up with power := { up.power with ladder := 1 } }.power.ladder ≠ 0 := by decide

theorem witness_InformationAndSelfTestsComplete_tests :
    ({ up with start := { up.start with testInterval := 0 } }.start.testInterval = 0 ∧ { up with boot := { up.boot with zenithUp := false } }.zenithServing = false)
    ∧ { up with fields := computeFields.map fun f => (f, ({ role := .lost } : FieldSt)) }.nextTest = none
    ∧ (let s : State := { testing true with fields := [(35, { role := .unassigned, task := 2, clock := .running })] }
       s.start.testField = some 35 ∧ (s.field 35).role = .unassigned ∧ (s.field 35).lossPending = false ∧ 3 ≠ 0 ∧ (s.field 35).clock = .running)
    ∧ (lulled.tick.running = false ∧ Reg.Tick.TCK_COUNT_LO.addr - 64 + 64 ≤ Reg.Tick.TCK_COUNT_LO.addr)
    ∧ (let s : State := { copied with host := { copied.host with written := [] } }
       s.dmaOk (cmd true).buffer 2 = false ∧ s.host.snapshots = [⟨cmd true, 0, 2, 41, some [1, 2]⟩])
    ∧ up.host.snapshots = [] ∧ 0x800000 - 0x100000 + 0x100000 ≤ 0x800000 := by decide

/-! #### Start-up and power states -/

theorem witness_PowerInputsDriveStartUp_cases :
    (let s : State := { stand with boot := { stand.boot with romDone := false } }
     ¬(s.boot.romDone = true ∨ s.start.power = .off ∨ s.start.perstHeld = true) ∧ s.boot.romDone = false ∧ s.start.power ≠ .off)
    ∧ (stand.boot.romDone = true ∧ stand.zenithServing = true ∧ stand.boot.recovery = false ∧ stand.start.phase = 1 ∧ stand.thermal.trip = false)
    ∧ (let s : State := { stand with thermal := { stand.thermal with trip := true }, start := { stand.start with phase := 2 } }
       s.thermal.trip = true ∧ s.start.phase = 2)
    ∧ { stand with boot := { stand.boot with recovery := true } }.boot.recovery = true ∧ up.start.phase ≠ 1 ∧ up.start.phase ≠ 2
    ∧ (99 < 100 ∧ 100 ≤ 100 ∧ up.start.power ≠ .off ∧ up.start.power ≠ .standby ∧ stand.start.power = .standby)
    ∧ (let s : State := { stand with power := { stand.power with inputFault := 2 } }; s.start.power = .standby ∧ s.power.inputFault = 2)
    ∧ State.reset.power.mainOk = false ∧ { up with power := { up.power with mainOk := true } }.power.mainOk = true
    ∧ { stand with start := { stand.start with perstHeld := true } }.start.perstHeld = true := by decide

/-- Start-up at calibration without placements: field 87 is active, 86 clearing, 85 is lost, and 35 has tripped its breaker. -/
def dawn (p : Tbl PlacementSt) : State :=
  { up with
    placements := p
    fields := [(45, { role := .clearing, powerRecord := 1 }), (82, { role := .lost }), (86, { role := .clearing }), (87, { role := .active })]
    start := { power := .active, phase := 4, calibrating := true } }

theorem witness_StartUpCompletionsAct_calibration :
    ((dawn []).start.phase = 4 ∧ (dawn []).livePlacements = [] ∧ 82 ∈ computeFields ∧ ((dawn []).field 82).powerRecord = 0 ∧ ((dawn []).field 82).role = .lost
      ∧ ((dawn []).field 86).role = .clearing ∧ ((dawn []).field 86).lossPending = false ∧ ((dawn []).field 87).role = .active
      ∧ ((dawn []).field 45).powerRecord ≠ 0)
    ∧ ((dawn [(3, { live := true })]).start.phase = 4 ∧ (dawn [(3, { live := true })]).livePlacements ≠ [])
    ∧ (5000 * 62 < 12 * (offsetsOf [(86, 25840, 25840)] 86).1 ∧ 5000 * 62 < 12 * (offsetsOf [(86, 25840, 25840)] 86).2)
    ∧ ¬(5000 * 62 < 12 * (offsetsOf [(86, 25839, 25840)] 86).1)
    ∧ (let s : State := { up with fields := [(86, { role := .clearing, clock := .ramping, task := 2 }),
          (87, { role := .clearing, clock := .calibrating, taskCmd := some (8, .host, 0x0802), task := 1 })] }
       (s.field 86).clock = .ramping ∧ (s.field 86).task = 2 ∧ (s.field 87).task ≠ 2 ∧ (s.field 87).taskCmd = some (8, .host, 0x0802)
       ∧ (s.field 87).lossPending = false ∧ (s.field 87).role ≠ .service) := by decide

/-- A journal being written before a reset, on the way to Overcast by an undervoltage that has ended, and to Standby. -/
theorem witness_StartUpCompletionsAct_journals :
    (let s : State := { journal .active none with start := { (journal .active none).start with resetPending := some (1, false) } }
     s.start.journal.running = true ∧ s.start.resetPending = some (1, false))
    ∧ (let s : State := { journal .lull (some .overcast) with start := { (journal .lull (some .overcast)).start with entryCause := 3 } }
       s.start.target = some .overcast ∧ s.start.entryCause = 3 ∧ s.power.inputFault = 0 ∧ s.released = true)
    ∧ (journal .lull (some .standby)).start.target = some .standby
    ∧ (let s : State := { journal .overcast (some .active) with start := {
          (journal .overcast (some .active)).start with serving := false, phase := 6, powerCmd := some (8, .host, 0x0104) } }
       s.start.power = .overcast ∧ s.start.target = some .active ∧ s.start.serving = false ∧ s.start.phase = 6 ∧ s.livePlacements = [] ∧ s.boot.debugOpen = false
       ∧ s.start.powerCmd = some (8, .host, 0x0104))
    ∧ (let s : State := { journal .overcast none with start := { (journal .overcast none).start with entryCause := 3 } }
       s.start.power = .overcast ∧ s.start.entryCause = 3 ∧ s.start.target = none ∧ s.released = true)
    ∧ (let s : State := { journal .overcast (some .active) with
          placements := [(3, { live := true })], fields := [(87, { role := .active, placement := some 3, clock := .waking })] }
       ∃ q, q < 4 ∧ (s.plc q).live = true ∧ ∃ g ∈ s.fieldsOf q, (s.field g).clock ≠ .running) := by decide

theorem witness_ResetAndRestartCommandsComplete_cases :
    ((⟨.bmc, 1, false, 0, 0, []⟩ : CmdHdr).src = .bmc ∧ up.start.power ≠ .standby ∧ stand.start.power = .standby ∧ State.reset.start.power = .off)
    ∧ (let s : State := { up with boot := { up.boot with romDone := false } }
       s.start.power ≠ .off ∧ s.start.perstHeld = false ∧ s.boot.romDone = false)
    ∧ { up with boot := { up.boot with recovery := true } }.boot.recovery = true
    ∧ (let s : State := { testing true with start := { (testing true).start with testCmd := some (8, .host, 0x0801) } }
       s.start.testField = some 35 ∧ s.start.testCmd = some (8, .host, 0x0801))
    ∧ (let s : State := { up with boot := { up.boot with zenithUp := false } }; s.boot.restartWindow = false ∧ s.zenithServing = false)
    ∧ (up.boot.missedSlots < 4 ∧ up.zenithServing = true ∧ up.boot.restartWindow = false)
    ∧ up.start.restartCmd = none ∧ up.boot.staging = none := by decide

/-- The power states in which an order stands, leaves or is refused. -/
def powered (power : PowerSt) (target : Option PowerSt) (trip serving : Bool) : State :=
  { up with
    start := { power := power, target := target, serving := serving, powerCmd := some (7, .bmc, 0x0104) }
    thermal := { up.thermal with trip := trip } }

theorem witness_PowerStateOrdersAct_cases :
    (∀ t ∈ [some PowerSt.overcast, some .standby], (powered .lull t false true).start.target = t ∧ (powered .active t false true).start.power = .active)
    ∧ (powered .lull none false true).start.power = .lull ∧ ¬((powered .lull none false true).start.target = some .overcast)
    ∧ (∀ x ∈ [PowerSt.overcast, .standby], ((powered x none true true).start.power = x ∧ (powered x none true true).thermal.trip = true)
      ∧ ((powered x none false true).thermal.trip = false ∧ (powered x none false true).power.refclkOk = true ∧ (powered x none false true).thermal.flowLost = false))
    ∧ (powered .overcast (some .active) false true).start.target ≠ none
    ∧ ((powered .overcast none false false).start.serving || (powered .overcast none false false).start.phase == 6) = false
    ∧ (let s : State := { powered .overcast none false true with thermal := { up.thermal with flowLost := true, flowOkMs := 10000 } }
       s.thermal.flowLost = true ∧ 10000 ≤ s.thermal.flowOkMs)
    ∧ State.reset.start.power = .off ∧ (⟨.bmc, 1, false, 0, 0, []⟩ : CmdHdr).src = .bmc
    ∧ (powered .overcast none false true).start.powerCmd = some (7, .bmc, 0x0104) := by decide

/-! #### Power -/

/-- The ladder at a step, a depth limit, a share bound of live placement 3, a stretch demand and a time of release. -/
def laddered (step depth : Nat) (bound : Tbl Nat) (demand ms : Nat) : State :=
  { served with
    power := { served.power with ladder := step, depthLimit := depth, shareBound := bound, releaseMs := ms, vins := List.replicate 10 52000 }
    tick := { served.tick with capDemand := demand } }

/-- Powers 1 W on either side of 97 % and 94 % of an effective cap of 10,000 W, and the ladder's cases at each. -/
theorem witness_PowerManagementEventsAct_ladder :
    (97 * 10000 < 100 * 9701 ∧ ¬97 * 10000 < 100 * 9700 ∧ ¬100 * 9400 < 94 * 10000 ∧ 100 * 9399 < 94 * 10000 ∧ 9701 ≤ 10000 ∧ 10000 < 10001)
    ∧ (3 ∈ served.livePlacements ∧ (laddered 1 16 [] 0 0).power.shareBound.getD 3 100 ≠ 0)
    ∧ (∀ l ∈ served.livePlacements, (laddered 2 16 [(3, 0)] 0 0).power.shareBound.getD l 100 = 0)
    ∧ (1 < min (laddered 2 16 [(3, 0)] 0 0).power.depthLimit served.topDepth ∧ ¬1 < min (laddered 3 1 [(3, 0)] 0 0).power.depthLimit served.topDepth)
    ∧ ((laddered 4 1 [(3, 0)] 0 0).tick.capDemand < served.usable ∧ ¬(laddered 4 1 [(3, 0)] 100 0).tick.capDemand < served.usable)
    ∧ (0 < (laddered 4 1 [(3, 0)] 2 8).tick.capDemand ∧ 8 + 1 < 10 ∧ 10 ≤ 9 + 1 ∧ 98 + 1 < 100 ∧ 100 ≤ 99 + 1)
    ∧ (served.topDepth ≤ 15 + 1 ∧ ¬served.topDepth ≤ 14 + 1)
    ∧ ((∀ l ∈ served.livePlacements, (served.plc l).plan.sized ≤ 55 + 5) ∧ ¬(∀ l ∈ served.livePlacements, (served.plc l).plan.sized ≤ 54 + 5))
    ∧ (up.power.powerLulls = [] ∧ (let l := ([0, 1] : List Nat).filter (fun t => 2 < t + 10000) ++ [2]; 3 ≤ l.length))
    ∧ (up.following = false ∧ up.usable < 101 ∧ up.get Reg.Tick.FORCED = 0) := by decide

theorem witness_InputFaultsAndTripsAct_cases :
    (isHomeSite 2 = true ∧ isHomeSite 50 = false ∧ 88 ≤ 88) ∧ (2 ∈ Config.serviceFields ∧ 43 ∈ Config.serviceFields ∧ 85 ∈ Config.serviceFields ∧ 44 ∈ Config.serviceFields)
    ∧ (∃ m, m < 48 ∧ stackHome m = 84 ∧ isHomeSite 84 = true ∧ 84 ∉ Config.serviceFields)
    ∧ (87 / 4 = 21 ∧ (21 ^^^ 1) = 20 ∧ 20 ∈ { up with power := { up.power with segTripped := [20] } }.power.segTripped ∧ 21 ∉ [20])
    ∧ { up with fields := [(87, { role := .lost }), (86, { lossPending := true })] }.field 87 = { role := .lost } := by decide

/-! #### Sessions and airspaces -/

/-- Session 100 decodes in a lane of placement 3 that is not at its round boundary in tick 42; session 103 drains; session 104 is paused. -/
def laned : State :=
  withSess [(100, { st := .decode, airspace := 7, placement := 3, lane := some 4, phase := some 5 }),
    (103, { st := .draining, airspace := 7 }), (104, { st := .paused, airspace := 7 }), (105, { st := .decode, airspace := 7, latch := 1 })]

theorem witness_SessionCommandsActOnTheSessionsNamed_latches :
    ((laned.sess 100).st = .decode ∧ (laned.sess 100).holdsLane 42 = true ∧ laned.atRound 100 42 = false)
    ∧ ((some3.sess 100).holdsLane 42 = false ∧ (some3.sess 100).st = .decode) ∧ (laned.sess 103).st = .draining ∧ (laned.sess 104).st = .paused
    ∧ ((laned.sess 105).latch = 1 ∧ (some3.sess 102).st = .ended ∧ (some3.sess 99).st = .free)
    ∧ (let s : State := { up with airspaces := [(7, { prefixes := [(2, { st := .retiring })] })] }
       (s.asp 7).prefixNamed 258 = some 2 ∧ ((s.asp 7).prefixes.getD 2 {}).st = .retiring)
    ∧ up.dmaOk buf.buffer 1024 = false := by decide

/-- Two airspaces bound to live placement 3, the upper one holding KV; both have half of every share. -/
def shared : State :=
  { served with
    fields := [(87, { role := .active, placement := some 3 })]
    airspaces := [(6, { placement := some 3, slotShare := 50, kvShare := 50 }), (7, { placement := some 3, slotShare := 50, kvShare := 50, window := 4, cloudPages := [3], carvings := [⟨2784, [], [(0, 0, some 100)]⟩] })]
    sessions := [(100, { st := .decode, airspace := 7, placement := 3, regions := [(2784, 0, 0, 0)] })] }

theorem witness_AirspaceOrdersAreBooked_cases :
    (shared.host.deferred = [] ∧ (shared.asp 5).placement = none
      ∧ (((shared.boundTo 3).filter (· != 5)).map fun b => (shared.asp b).slotShare).sum + (shared.asp 5).slotShare ≤ 100
      ∧ (shared.plc 3).live = true ∧ 7 ∈ shared.boundTo 3 ∧ shared.kvInUse 7 = true)
    ∧ ¬(((shared.boundTo 3).filter (· != 5)).map fun b => (shared.asp b).slotShare).sum + 1 ≤ 100
    ∧ (∀ q ∈ [3, 2], (shared.asp 6).placement = some 3 ∧ (q = 3 ∨ q ≠ 3))
    ∧ ((∀ n ∈ shared.sessIds, (shared.sess n).st = .free ∨ (shared.sess n).airspace ≠ 6) ∧ 6 < 7 ∧ 7 ∈ shared.boundTo 3)
    ∧ (∃ n ∈ shared.sessIds, (shared.sess n).st ≠ .free ∧ (shared.sess n).airspace = 7)
    ∧ (up.applyShares (cmd true) 7 0 0 0 0).isSome = true ∧ (up.applyKv (cmd true) 7 86400 0 0 0 0 0).isSome = true ∧ (some3.applyUnbind 7).isSome = true
    ∧ ({ tight with airspaces := [(6, { placement := some 3 }), (7, { placement := some 3, pool := 100 })] }.applyUnbind 6).isSome = false
    ∧ (up.applyUnbind 7).isSome = true
    ∧ (1 ≠ (up.asp 7).window ∧ up.pagesTotal (up.asp 7).stripes < 1) ∧ (3 ∈ (shared.asp 7).cloudPages ∧ 3 < 4) := by decide +kernel

/-! #### Heat -/

/-- Two regressors that vary and one sample of power 9,000 W short of 10,000, then the 10,000th. -/
def fitting (varied : Bool) : State :=
  { up with thermal := { up.thermal with samples := List.replicate 9999 (9000, 0, 0) ++ [(9000, if varied then 1 else 0, if varied then 4 else 0)] } }

theorem fitting_length (v : Bool) : (fitting v).thermal.samples.length = 10000 := by
  simp only [fitting, List.length_append, List.length_replicate, List.length_singleton]

theorem witness_ThermalSamplesTripsAndOutlookAct_pairs :
    (plausible none (some 0) = some 0 ∧ plausible none (some 1250) = some 1250 ∧ plausible none (some 1251) = none ∧ plausible none (some (-1)) = none
      ∧ plausible (some 500) (some 700) = some 700 ∧ plausible (some 500) (some 701) = none ∧ plausible (some 500) none = none)
    ∧ (let x : Spot := { diffs := List.replicate 9 31 }; x.lost = false ∧ x.suspect = false ∧ (x.diffs ++ [(((500 : Int) - 531).natAbs : Int)]).length = 10
       ∧ ∀ d ∈ x.diffs ++ [(((500 : Int) - 531).natAbs : Int)], 30 < d)
    ∧ (let x : Spot := { suspect := true, okRun := 99 }; x.suspect = true ∧ ((500 : Int) - 530).natAbs ≤ 30 ∧ x.okRun + 1 = 100)
    ∧ ({ lost := true } : Spot).lost = true := by decide

theorem witness_ThermalSamplesTripsAndOutlookAct_caps :
    ((400 : Rat) < 401 ∧ (480 : Rat) ≤ 480 ∧ (480 : Rat) < 481)
    ∧ { up with thermal := { up.thermal with flow := 999 } }.thermal.flow < 1000
    ∧ (let s : State := { up with thermal := { up.thermal with flow := 1000 } }; 1000 ≤ s.thermal.flow ∧ s.thermal.flow < 2000)
    ∧ (∃ e ∈ ({ up with fields := [(86, { role := .active, power := 50, atLimit := true }), (87, { role := .active, power := 50 })] } : State).fields,
        e.2.role = .active ∧ 50 ≤ e.2.power ∧ e.2.atLimit = true)
    ∧ (({ role := .active, power := 50 } : FieldSt).atLimit = false ∧ 0 < ({ role := .active, power := 50, rth := [1] } : FieldSt).rthNow) := by
  decide +kernel

/-- Sensors at their third bad and their tenth good read. -/
theorem witness_ThermalSamplesTripsAndOutlookAct_sensors :
    (let s : State := { up with thermal := { up.thermal with inletFails := 2, outletFails := 3, outletGood := 9, flowFails := 3, flowGood := 8 } }
     s.thermal.inletFails < 3 ∧ s.thermal.inletFails + 1 = 3 ∧ 3 ≤ s.thermal.outletFails ∧ 9 ≤ s.thermal.outletGood ∧ 3 ≤ s.thermal.flowFails ∧ s.thermal.flowGood < 9)
    ∧ (-2560 ≤ (12800 : Int) ∧ (12800 : Int) ≤ 12800 ∧ (-2560 : Int) ≤ -2560)
    ∧ (up.thermal.trayInlet.toList ++ up.thermal.couplingA.toList ++ up.thermal.couplingB.toList = []) := by decide

theorem witness_ThermalSamplesTripsAndOutlookAct_trips :
    (let s : State := { up with thermal := { up.thermal with tripHits := (1, 0) } }; min 2 (s.thermal.tripHits.1 + 1) = 2 ∧ (520 : Int) ≤ 520)
    ∧ (let s : State := { up with thermal := { up.thermal with hot := true } }; s.thermal.hot = true)
    ∧ (let s : State := { up with thermal := { up.thermal with trip := true } }; s.thermal.hot = false ∧ s.thermal.trip = true)
    ∧ (stand.start.power = .standby ∧ (449 : Int) < 450 ∧ (849 : Int) < 850 ∧ up.start.power ≠ .standby)
    ∧ ({ up with start := { up.start with target := some .standby } }.start.target = some .standby ∧ up.start.target ≠ some .overcast
      ∧ lulled.start.power = .lull ∧ lulled.tick.running = false) := by decide

/-- Field 87 may go for its heat, by a clearing that a self-test holds in the second state. -/
theorem witness_ThermalSamplesTripsAndOutlookAct_ready : (held.nearestClearing 87).isSome ∧ held.aliasFull 3 87 = false
    ∧ (∀ m ∈ (held.plc 3).moves, m.field ≠ 87) ∧ (held.plc 3).moves.length < 3 ∧ held.start.testField ≠ held.nearestClearing 87
    ∧ (let s : State := { held with start := { held.start with testField := held.nearestClearing 87 } }
       s.start.testField = s.nearestClearing 87 ∧ s.start.testField ≠ none ∧ s.twinComplete 87 = some 84) := by decide

theorem witness_ThermalSamplesTripsAndOutlookAct_fit : 10000 ≤ (fitting true).thermal.samples.length ∧ 10000 ≤ (fitting false).thermal.samples.length
    ∧ ¬(∀ d ∈ (fitting true).thermal.samples, ∀ e ∈ (fitting true).thermal.samples, d.2.1 = e.2.1)
    ∧ ∀ d ∈ (fitting false).thermal.samples, ∀ e ∈ (fitting false).thermal.samples, d.2.1 = e.2.1 ∧ d.2.2 = e.2.2 := by
  have zero : ∀ d ∈ (fitting false).thermal.samples, d = (9000, 0, 0) := by
    intro d hd
    simp only [fitting, List.mem_append, List.mem_replicate, List.mem_singleton] at hd
    rcases hd with ⟨-, rfl⟩ | rfl <;> rfl
  refine ⟨by rw [fitting_length], by rw [fitting_length], fun h => ?_, fun d hd e he => by rw [zero d hd, zero e he]; exact ⟨rfl, rfl⟩⟩
  have a : (9000, 0, 0) ∈ (fitting true).thermal.samples := List.mem_append_left _ (List.mem_replicate.2 ⟨by decide, rfl⟩)
  have b : (9000, 1, 4) ∈ (fitting true).thermal.samples := List.mem_append_right _ (List.mem_singleton.2 rfl)
  exact absurd (h _ a _ b) (by decide)

/-! #### Weights -/

/-- Field 87 of placement 3 in an installation of its one image, which has been received; a second version nobody is pinned to; a commit in order. -/
theorem witness_WeightAndTuningOrdersAct_cases :
    (let t := transfer 0 (some (img [] [])) []
     let s : State := { up with
       placements := [(3, { imageState := .installing, stagedBank := 0 })], transfers := [t]
       fields := [(87, { role := .unassigned, bank0 := { st := .installing } })] }
     s.transfers.find? (fun t => t.placement = 3 && t.kind = 0) = some t ∧ t.image = some (img [] []) ∧ (s.plc 3).live = false
     ∧ (∃ r ∈ (img [] []).fields, r.role = 1 ∧ ((s.field ((s.plc 3).partSite r.field)).bank (s.plc 3).stagedBank).st = .installing))
    ∧ (let y : AdapterSt := ⟨7, some ⟨1, true, 0, [], [], none, []⟩, some ⟨2, false, 0, [], [], none, []⟩, false, 2, 0, 0, 0, 0, 0⟩
       let s : State := { served with placements := [(3, { live := true, adapters := [(63, y)] })] }
       (s.plc 3).adapters = [(63, y)] ∧ (∀ v ∈ y.slotA.toList ++ y.slotB.toList, s.pinned 3 63 v.version = false ∧ v.atBoundary = none)
       ∧ ((y.slotA.toList ++ y.slotB.toList).map AdapterSlot.version).Nodup)
    ∧ (let s : State := { adapted .done true with host := { (adapted .done true).host with deferred := [⟨.tuneCommit (cmd false) 3, 0, true⟩] } }
       ∃ d ∈ s.host.deferred, d.order = .tuneCommit (cmd false) 3)
    ∧ (let s : State := { adapted .done true with placements := [(3, { live := true, tune := { st := .done, held := true, areas := [(2784, 28672, 57344, 64)] } })] }
       ∃ q ∈ (s.plc 3).tune.areas, tuneSlotSegs q ≠ [])
    ∧ (up.twinProtection = true ∧ (1 ≤ 1 ∧ (0 : Nat) ≤ 1) ∧ (cmd true).expert = true ∧ 2 ^ 32 - 1 ≠ 86400)
    ∧ (flipping none).installing 3 = false := by decide

/-- What TUNE_START meets: no tuning in the plan, a job that runs or holds its result, an ID of another airspace, one with two versions, one that goes. -/
def tunable (st : TuneState) (held : Bool) (a : Tbl AdapterSt) : State :=
  { served with placements := [(3, { live := true, plan := { tuning := true }, tune := { st := st, held := held }, adapters := a })] }

theorem witness_TransfersOpenUnderANumber_tuning :
    (served.plc 3).plan.tuning = false ∧ ((tunable .running false []).plc 3).tune.st = .running
    ∧ (((tunable .stopped true []).plc 3).tune.st = .stopped ∧ ((tunable .stopped true []).plc 3).tune.held = true)
    ∧ (let y : AdapterSt := ⟨6, none, none, false, 0, 0, 0, 0, 0, 0⟩; ((tunable .none false [(63, y)]).plc 3).adapters.find 63 = some y ∧ y.owner ≠ 7)
    ∧ (let v : AdapterSlot := ⟨1, true, 0, [], [], none, []⟩
       let y : AdapterSt := ⟨7, some v, some { v with version := 2 }, false, 2, 0, 0, 0, 0, 0⟩
       ((tunable .none false [(63, y)]).plc 3).adapters.find 63 = some y ∧ y.slotA ≠ none ∧ y.slotB ≠ none)
    ∧ (({ owner := 7, slotA := none, slotB := none, retiring := true, lastVersion := 0, layers := 0, hidden := 0, qHeads := 0, kvHeads := 0, headDim := 0 } : AdapterSt).retiring = true)
    ∧ (let s : State := { served with airspaces := [(7, { placement := some 2 })] }; (s.asp 7).placement = some 2)
    ∧ (let s : State := { served with transfers := [transfer 2 none []] }; ∃ t ∈ s.transfers, t.placement = 3 ∧ t.kind = 2)
    ∧ (let s : State := { served with transfers := [transfer 3 none []] }; ∃ t ∈ s.transfers, t.placement = 3 ∧ t.kind = 3 ∧ t.adapter = 0)
    ∧ bitmapFields 1 = [0] ∧ ¬(∀ f ∈ bitmapFields 1, f ∈ served.rebuildable 3) := by decide

/-! #### Chunks, losses and copies -/

/-- A transfer of a kind for placement 3 with some chunks kept, an assembly of chunk 0 that lacks its last fragment, and n chunks in the queue of field 87. -/
def receiving (kind n : Nat) (leading : Option (List Byte)) : State :=
  { installing [] [] [] with
    transfers := [{ transfer kind (some (img [] (sha512 key))) [] with leading := leading }]
    chunkStore := []
    assemblies := [⟨5, 0, [(0, [1])]⟩]
    fields := [(87, { role := .active, placement := some 3, writeQueue := List.range n })] }

theorem witness_ChunksAreCheckedAndWritten_fragments :
    (¬((1023 : Nat) % 1024 = 0) ∧ ¬(1024 ≤ 1023) ∧ ¬(8193 ≤ 8192) ∧ ¬((chunkBytes - 1024) + 2048 ≤ chunkBytes) ∧ (chunkBytes - 1024) + 1024 ≤ chunkBytes)
    ∧ ((receiving 0 0 none).transfers.find? (fun t => t.number = 5 && t.airspace = 7 && t.source = 9)).isSome
    ∧ (∃ y ∈ (receiving 0 0 none).transfers, y.leading = none) ∧ (∃ y ∈ (receiving 0 0 (some [])).transfers, y.leading ≠ none)
    ∧ (∃ e ∈ (installing [] [] []).chunkStore, e.1 = 5 ∧ e.2.1 = 0)
    ∧ 64 ≤ ({ up with assemblies := List.replicate 64 ⟨6, 0, []⟩ } : State).assemblies.length
    ∧ 16 ≤ ((receiving 0 16 (some [])).field 87).writeQueue.length ∧ ((receiving 0 15 (some [])).field 87).writeQueue.length < 16
    ∧ (∃ y ∈ (receiving 0 0 (some [])).transfers, (receiving 0 0 (some [])).queueOf y 0 = some 87)
    ∧ (transfer 3 none []).kind = 3 ∧ (transfer 4 none []).kind = 4 ∧ [0].length + 1 < 3 := by decide +kernel

/-- A field read back whose image has one field or two; chunk 0 failed twice before. -/
theorem witness_ChunksAreCheckedAndWritten_readback :
    (∀ q ∈ (img [] []).fields, q.role = 1 → q.field = 87 ∨ q.field ∈ ([] : List Nat))
    ∧ (let i : Image := { img [] [] with fields := [⟨87, 1, 0xFF, 0, 1, 4096⟩, ⟨86, 1, 0xFF, 1, 1, 4096⟩] }
       ¬(∀ q ∈ i.fields, q.role = 1 → q.field = 87 ∨ q.field ∈ ([] : List Nat)))
    ∧ (let y : Transfer := { transfer 0 none [0] with readFails := [(0, 2)] }
       3 ≤ ((y.readFails.find? fun e => e.1 = 0).map Prod.snd).getD 0 + 1 ∧ ((y.readFails.find? fun e => e.1 = 1).map Prod.snd).getD 0 + 1 < 3)
    ∧ (∀ k, k < 1 → 0 + k ∈ [0]) ∧ ¬(∀ k, k < 2 → 0 + k ∈ [0])
    ∧ (∃ y ∈ [{ transfer 0 (some (img [] [])) [0] with readBack := [87] }], 87 ∈ y.readBack) := by decide

/-- A reported core in a lost field, in one that moves, known before, and the third of its field; the banks that a scrub finds. -/
theorem witness_LossesAndCopiesAct_cases :
    (let s : State := { losing with fields := [(87, { role := .lost })] }; (s.field 87).role = .lost)
    ∧ (let s : State := { losing with placements := [(3, { moves := [⟨87, 60, none, true, false, 0, none⟩] })] }
       3 < 4 ∧ ∃ m ∈ (s.plc 3).moves, m.field = 87)
    ∧ (let s : State := { losing with cores := [(2784, { state := .failed, failOrder := 1 })], fields := [(87, { role := .active, failed := [0, 1] })] }
       (s.core 2784).state = .failed ∧ 3 ≤ ((s.field 87).failed ++ [2]).length ∧ (s.field 87).role ≠ .service)
    ∧ (let s : State := { losing with
          placements := [(3, { live := true, liveBank := 1, stagedBank := 0, imageState := .staged, staged := some (img [] []) })]
          fields := [(87, { role := .active, placement := some 3, bank0 := { st := .staged } })] }
       ((s.field 87).bank 0).st = .staged ∧ s.holdsPart 3 87 = true ∧ (s.plc 3).stagedBank = 0 ∧ (s.plc 3).imageState = .staged ∧ (s.plc 3).liveBank ≠ 0)
    ∧ (((losing.field 84).bank 0).st = .twin ∧ (losing.field 84).twinOf = some 87 ∧ (losing.plc 3).liveBank ≠ 0)
    ∧ slotsIn ((losing.field 87).bank 1).mem (4096 * 9) (4096 * 9 + 32) = []
    ∧ (let p : Patch := ⟨2, []⟩; 8 ≤ (List.replicate 8 p).length + ([] : List Patch).length)
    ∧ (let m : Move := ⟨87, 60, some 84, false, false, 42, none⟩; m.holder = some 84 ∧ m.fromImage = false ∧ m.activeAt = none ∧ m.clearing < 88)
    ∧ (let m : Move := ⟨87, 60, none, true, false, 42, some 43⟩; m.holder = none ∧ m.fromImage = true ∧ m.activeAt ≠ none) := by decide

/-! #### Requests and links -/

theorem witness_RequestsAreReceivedOnce_cases :
    (let r : Request := ⟨0, 2, 0, client, none, [], 0, 0, false, false⟩
     let s : State := { served with
       boot := { served.boot with zenithUp := false }, airspaces := [(7, { received := List.replicate 1024 r })] }
     s.queueing = true ∧ 1024 ≤ (s.asp 7).received.length)
    ∧ (let s : State := { served with airspaces := [(7, { assemblies := List.replicate 64 ⟨{ client with seq := 12 }, false, []⟩ })] }
       (s.asp 7).assemblies.find? (fun y => y.is client) = none ∧ 1 < (openOf false 2).parts ∧ 64 ≤ (s.asp 7).assemblies.length)
    ∧ ((openOf false 2).parts ≤ 2 ∧ ¬(openOf false 2).parts ≤ (openOf false 2).part)
    ∧ coverTokens 2 2 [openOf false 1] [] = some [5, 6]
    ∧ coverTokens 2 3 [openOf false 1] [] = none
    ∧ (let q : OpenPart := { openOf false 2 with part := 1, tokenFirst := 1 }; coverTokens 3 3 [openOf false 2, q] [] = none)
    ∧ (let q : OpenPart := { openOf false 2 with part := 1, tokenFirst := 2 }; coverTokens 3 4 [openOf false 2, q] [] = some [5, 6, 5, 6]) := by decide +kernel

/-- Two ports of one group, 0 and 1, both ACTIVE. -/
def paired (b : PortState) : State :=
  { up with links := { up.links with plan := ⟨2, 0, 0, [⟨3, 1, false⟩]⟩, ports := [(0, { st := .active }), (1, { st := b })] } }

theorem witness_LinkSettingsComplete_cases :
    (((linked .active {}).port 0).st = .active ∧ (linked .active {}).groupOf 0 = some 0
      ∧ ∀ m, m < 12 → m ≠ 0 → (linked .active {}).groupOf m = some 0 → ((linked .active {}).port m).st ≠ .active)
    ∧ ((paired .active).groupOf 0 = some 0 ∧ (paired .active).groupOf 1 = some 0 ∧ ((paired .active).port 1).st = .active ∧ ((paired .held).port 1).st = .held)
    ∧ ((linked .active {}).planned 0 = true ∧ (linked .active {}).planned 1 = false ∧ up.planned 11 = false)
    ∧ ((up.ethPort 0).linkUp = true ∧ (up.ethPort 3).linkUp = false ∧ 16 + 3 = 19 ∧ ¬(12 < 12 ∨ (16 ≤ 12 ∧ 12 < 20)))
    ∧ ([7, 15, 5, 13].map fun e : Nat => (decide (e < 16 ∧ e % 8 ≠ 6), e % 8 = 7)) = [(true, True), (true, True), (true, False), (true, False)]
    ∧ (¬(6 % 8 ≠ 6) ∧ ¬(14 % 8 ≠ 6) ∧ ¬(16 < 16)) ∧ lulled.tick.running = false := by
  refine ⟨by decide, by decide, by decide, by decide, by simp, by decide, by decide⟩

/-- Star-chart mode: ports 0 and 1 of one group expect modules 1 and 2 at their port 3; port 1 has seen a peer or not. -/
def charted (equiv : Bool) (p : ObtikPort) : State :=
  { up with links := { up.links with
      plan := ⟨2, 0, 1, [⟨3, 0x3F, equiv⟩]⟩
      chart := [(1, 3), (2, 3)]
      ports := [(0, { st := .verifying }), (1, p)] } }

theorem witness_SoundingChecksThePeer_chart :
    (let s := charted true { st := .verifying, peerModule := 1, peerPort := 3, seen := true }
     (s.port 0).st = .verifying ∧ s.planned 0 = true ∧ s.links.plan.mode ≠ 0 ∧ s.start.moduleId ≠ 1 ∧ s.start.moduleId ≠ 2
     ∧ s.links.chart.getD 0 (0xFF, 0xFF) = (1, 3) ∧ s.links.chart.getD 1 (0xFF, 0xFF) = (2, 3)
     ∧ (∀ k, k < 12 → k ≠ 1 → s.links.chart.getD k (0xFF, 0xFF) ≠ (2, 3)) ∧ (∀ k, k < 12 → k ≠ 0 → s.links.chart.getD k (0xFF, 0xFF) ≠ (1, 3))
     ∧ (s.port 1).seen = true ∧ (s.port 1).st = .verifying ∧ ((s.port 1).peerModule, (s.port 1).peerPort) = s.links.chart.getD 0 (0xFF, 0xFF)
     ∧ s.groupOf 0 = some 0 ∧ s.groupOf 1 = some 0 ∧ (s.links.plan.groups.getD 0 ⟨0, 0, false⟩).equiv = true)
    ∧ ((charted false {}).links.plan.groups.getD 0 ⟨0, 0, false⟩).equiv = false
    ∧ (let s := charted true { st := .held, peerModule := 1, peerPort := 3, seen := true }; (s.port 1).st ≠ .verifying ∧ (s.port 1).seen = true)
    ∧ (let s := charted true { st := .training }; (s.port 1).seen = false ∧ s.planned 1 = true)
    ∧ (∀ q, q < 12 → q ≠ 0 → (charted true {}).links.chart.getD q (0xFF, 0xFF) ≠ (5, 3)) := by decide

theorem witness_SoundingChecksThePeer_cases :
    (let s := linked .held {}; (s.port 0).st = .held ∧ (s.port 6).st = .off)
    ∧ (let s : State := { up with links := { up.links with
          plan := ⟨2, 0, 0, [⟨3, 0x3F, false⟩]⟩, ports := [(0, { st := .verifying }), (1, { st := .verifying })] } }
       (s.links.plan.groups.getD 0 ⟨0, 0, false⟩).neighbour = 0x3F ∧ s.groupOf 0 = some 0 ∧ s.groupOf 1 = some 0
       ∧ (s.port 0).st = .verifying ∧ (s.port 0).seen = false
       ∧ (∀ q, q < 1 → s.groupOf q = some 0 → (s.port q).st = .verifying))
    ∧ (let s : State := { linked .verifying { seen := true, peerModule := 1 } with links := { (linked .verifying { seen := true, peerModule := 1 }).links with soundingDone := true } }
       s.links.soundingDone = true)
    ∧ ((linked .verifying { seen := true, peerModule := 1 }).links.soundingDone = false
      ∧ ((linked .verifying { seen := true, peerModule := 1 }).port 0).seen = true ∧ (linked .verifying {}).planned 6 = true)
    ∧ ((linked .active {}).links.graph = [] ∧ (63 : Nat) < 64 ∧ ¬((64 : Nat) < 64)) := by decide

/-! #### Frames between modules -/

/-- A frame of a type, channel, SEQ and kind with one word; the same with a word that no check repairs. -/
def frameOf (type vc seq kind : Nat) : ObtikFrame :=
  linkFrame { type := type, vc := vc, seq := seq, destModule := 0, srcModule := 1, dest := 96, src := 64, tag := 7, kind := kind } (List.replicate 32 0)
def spoilt (f : ObtikFrame) : ObtikFrame := { f with words := f.words.map fun w => w ^^^ 0x10101010101010101 }

theorem witness_ObtikFramesFollowTheChannels_kinds :
    (∀ f ∈ [frameOf 0 1 1 0, frameOf 0 2 1 1, frameOf 0 2 1 2, frameOf 3 0 1 0, frameOf 5 0 0 0, frameOf 2 0 0 0, frameOf 4 0 0 0], frameBad f = false)
    ∧ ((LinkHdr.decode (frameOf 0 1 1 0).header).vc = 1 ∧ (LinkHdr.decode (frameOf 3 0 1 0).header).type = 3 ∧ (LinkHdr.decode (frameOf 5 0 0 0).header).type = 5)
    ∧ ((LinkHdr.decode (frameOf 0 2 1 2).header).vc = 2 ∧ (LinkHdr.decode (frameOf 0 2 1 2).header).kind = 2 ∧ (LinkHdr.decode (frameOf 0 2 1 1).header).kind ≠ 2)
    ∧ ((LinkHdr.decode (frameOf 0 0 2 0).header).seq ≠ (((framed.port 0).chan 0).rxSeq + 1) % 65536)
    ∧ ((LinkHdr.decode (frameOf 0 0 1 0).header).seq = (((framed.port 0).chan 0).rxSeq + 1) % 65536) := by decide +kernel

theorem witness_ObtikFramesFollowTheChannels_spoilt :
    0 < (checkFlits (spoilt (frameOf 0 2 1 1)).words).2.2 ∧ frameBad (spoilt (frameOf 0 2 1 1)) = false
    ∧ (LinkHdr.decode (spoilt (frameOf 0 2 1 2)).header).kind = 2 ∧ 0 < (checkFlits (spoilt (frameOf 1 0 0 0)).words).2.2
    ∧ frameBad (spoilt (frameOf 1 0 0 0)) = false ∧ beaconGood 1 = false := by decide +kernel

/-- A follower on beacon port 0, with port 1 ACTIVE too at some hops and delay, its beacon port 0 at others. -/
def followed (a b : Nat) (delay : Nat) : State :=
  { up with
    links := { up.links with
      follower := true, beaconPort := some 0, forceAt := some (33, 4)
      ports := [(0, { st := .active, peerHops := a, delayNs := delay }), (1, { st := .active, peerHops := b, delayNs := delay })] }
    tick := { up.tick with forced := 5 } }

theorem witness_ObtikFramesFollowTheChannels_beacons :
    (followed 3 3 560).following = true ∧ (linked .active {}).following = false
    ∧ (let ok (s : State) (k : Nat) : Bool := (s.port k).st == .active && decide ((s.port k).delayNs ≤ 560) && decide ((s.port k).peerHops ≤ 7)
       ok (followed 7 7 560) 0 = true ∧ ok (followed 7 7 560) 1 = true ∧ ok (followed 8 8 560) 0 = false ∧ ok (followed 7 7 561) 0 = false
       ∧ (followed 7 7 560).port 2 = {} ∧ ok (followed 8 2 560) 1 = true)
    ∧ (4 < (followed 3 3 560).tick.forced ∧ (followed 3 3 560).links.forceAt = some (33, 4) ∧ 4 ≤ 4 ∧ 33 + 8 ≤ (followed 3 3 560).tick.count)
    ∧ ¬(5 < (followed 3 3 560).tick.forced) := by decide

theorem witness_ObtikFramesFollowTheChannels_replays :
    (let s := linked .active { gust := { replay := [dataFrame 1], resends := 7 } }
     (s.port 0).st = .active ∧ ((s.port 0).chan 0).replay ≠ [] ∧ 8 ≤ ((s.port 0).chan 0).resends + 1)
    ∧ ((linked .active {}).port 0).cloud.replay = [] ∧ ((linked .verifying {}).port 0).st = .verifying := by decide

theorem witness_LinkGraphRoutesAndPeerOrdersAct_orders :
    (let s : State := { up with links := { up.links with orders := [.routeTable 2 50 (List.replicate 64 15), .routeTable 1 60 (List.replicate 64 5)] } }
     s.links.hostRoute = false ∧ s.links.orders = [.routeTable 2 50 (List.replicate 64 15), .routeTable 1 60 (List.replicate 64 5)] ∧ 1 < 2 ∧ 2 < 64)
    ∧ (∀ e ∈ List.replicate 64 15, e < 16 ∧ e % 8 ≠ 6) ∧ ¬(∀ e ∈ ([14] : List Nat), e < 16 ∧ e % 8 ≠ 6)
    ∧ { up with links := { up.links with hostRoute := true } }.links.hostRoute = true ∧ 63 ≤ 63
    ∧ (let s : State := { linked .active {} with links := { (linked .active {}).links with soundingDone := true, newEntry := true } }
       s.links.soundingDone = true ∧ s.links.newEntry = true ∧ s.links.plan.groups ≠ [] ∧ s.links.plan.master = s.start.moduleId)
    ∧ (let s : State := { linked .active {} with links := { (linked .active {}).links with routes := [(1, (0, true))], choice := [0] } }
       s.links.routes.getD 1 (7, false) = (0, true) ∧ s.tick.running = true ∧ (List.range 12).filter (fun n => s.groupOf n == some 0 && s.links.choice.contains n) = [0]) := by decide

/-! #### Management buses -/

theorem witness_PmbusReadsComplete_pages :
    (State.reset.start.power = .off ∧ { up with boot := { up.boot with recovery := true } }.boot.recovery = true)
    ∧ ((paged 24).mgmt.page = 24 ∧ ¬(24 ≤ 23) ∧ ¬(2 ≤ 1))
    ∧ (let s : State := { stand with mgmt := { stand.mgmt with page := 23 } }; 2 ≤ s.mgmt.page ∧ s.mgmt.page ≤ 23 ∧ s.start.power = .standby)
    ∧ (let s : State := { paged 2 with mgmt := { (paged 2).mgmt with statusIout := [(2, 128)], statusInput := [(2, 16)], statusVout := [(2, 1)] } }
       (s.mgmt.statusIout.getD 2 0).testBit 7 = true ∧ (s.mgmt.statusInput.getD 2 0).testBit 4 = true ∧ s.mgmt.statusVout.getD 2 0 ≠ 0 ∧ 2 - 2 ∉ s.power.segOn) := by
  decide

theorem witness_PmbusWritesComplete_words :
    (24 > 23 ∧ 24 ≠ 0xFF ∧ (paged 1).mgmt.page ≠ 0 ∧ stand.start.power = .standby ∧ stand.mgmt.page = 0 ∧ up.power.alert = false)
    ∧ fromLinear11 0 = some 0 ∧ fromLinear11 (linear11 21000 1) = some 20992 ∧ fromLinear11 1024 = none ∧ fromLinear11 5999 ≠ some 6000
    ∧ fromLinear11 (29 * 2048 + 1) = none
    ∧ (let s : State := { paged 2 with mgmt := { (paged 2).mgmt with statusCml := [(2, 128), (3, 64)] } }
       s.mgmt.page = 2 ∧ (∃ e ∈ s.mgmt.statusCml, e.1 ≠ 2 ∧ e.2 ≠ 0)) := by decide

theorem witness_MctpAndPldmRequestsComplete_bindings :
    (State.reset.start.power = .off ∧ { up with host := { up.host with linkUp := false } }.host.linkUp = false ∧ up.start.power ≠ .off ∧ 2 ≠ 1 ∧ 2 ≠ 0)
    ∧ (0 = 0 ∧ 254 < 255 ∧ (255 : Nat) < 256)
    ∧ (up.get Reg.Therm.INLET = 0x8000 ∧ ({ up with regs := up.regs.set Reg.Therm.INLET.addr 300 }).get Reg.Therm.INLET ≠ 0x8000)
    ∧ 3 ≤ { up with thermal := { up.thermal with flowFails := 3 } }.thermal.flowFails ∧ ¬3 ≤ up.thermal.flowFails ∧ up.mgmt.receiver = none := by decide

theorem witness_SpdmConversationGivesEvidence_order : (∀ k ∈ [0, 1, 2], (attesting k false).mgmt.spdm.getD 0 0 < 3) ∧ (1 : Nat) ≠ 0
    ∧ 8 ∉ [1, 2, 3, 4, 5, 6, 7, 16, 17, 18, 19, 20, 21, 22, 23, 24, 25, 26, 27] ∧ 27 ∈ [1, 2, 3, 4, 5, 6, 7, 16, 17, 18, 19, 20, 21, 22, 23, 24, 25, 26, 27]
    ∧ Config.certificateChain.length ≤ Config.certificateChain.length := ⟨by decide, by decide, by decide, by decide, Nat.le_refl _⟩

/-! ### Ill-formed terms that the checks refuse -/

theorem test_wf_field : WellFormed (.vaneLimit 88) = false ∧ WellFormed (.beaconLossLimit 88) = false ∧ WellFormed (.beaconLossLimit 87) = true := by decide
theorem test_wf_compute : WellFormed (.vaneLimit 44) = false ∧ WellFormed (.vaneLimit 45) = true := by decide
theorem test_wf_core : WellFormed (.decodeStart 2816) = false ∧ WellFormed (.decodeStart 64) = false ∧ WellFormed (.decodeStart 2815) = true := by decide
theorem test_wf_placement : WellFormed (.placementBuilt 4) = false ∧ WellFormed (.placementBuilt 3) = true := by decide
theorem test_wf_airspace : WellFormed (.dhcpv6LeaseEnd 8) = false ∧ WellFormed (.dhcpv6LeaseEnd 7) = true := by decide
theorem test_wf_session : WellFormed (.pauseTtlExpiry 4096) = false ∧ WellFormed (.pauseTtlExpiry 4095) = true := by decide
theorem test_wf_stack : WellFormed (.stackLost 48 1) = false ∧ WellFormed (.stackLost 47 1) = true := by decide
theorem test_wf_obtik : WellFormed (.portDown 12) = false ∧ WellFormed (.portDown 11) = true := by decide
theorem test_wf_ethernet : WellFormed (.ethLinkUp 4) = false ∧ WellFormed (.ethLinkUp 3) = true := by decide
theorem test_wf_module : WellFormed (.tickMaster 64 0) = false ∧ WellFormed (.tickMaster 63 0x3F) = true := by decide
theorem test_wf_binding : WellFormed (.getVersion 2) = false ∧ WellFormed (.getVersion 1) = true := by decide
theorem test_wf_routerPort : WellFormed (.linkDown 5 6) = false ∧ WellFormed (.linkDown 5 5) = true := by decide
theorem test_wf_below : WellFormed (.pldmMonitoringRequest 256 1) = false ∧ WellFormed (.pldmMonitoringRequest 255 1) = true := by decide
theorem test_wf_header : WellFormed (.removePlacement ⟨.host, 2 ^ 32, false, 0, 0, []⟩ 3) = false
    ∧ WellFormed (.removePlacement ⟨.host, 8, false, 0, 0, [1]⟩ 3) = false ∧ WellFormed (.removePlacement ⟨.host, 8, false, 0, 1, [1]⟩ 3) = true := by decide
theorem test_wf_packetForm : WellFormed (.removePlacement (cmd false) 256) = false ∧ WellFormed (.removePlacement (cmd false) 255) = true := by decide
theorem test_wf_lists : WellFormed (.sessionCancel (cmd true) (List.replicate 58 1)) = false := by decide +kernel
theorem test_wf_packet : WellFormed (.commandSlotReturn { infoPkt 8 with opcode := 65536 }) = false
    ∧ WellFormed (.commandSlotReturn { infoPkt 8 with params := [] }) = false ∧ WellFormed (.commandSlotReturn (infoPkt 8)) = true := by decide +kernel
theorem test_wf_client : WellFormed (.resume { client with addr := 2 ^ 32 }) = false
    ∧ WellFormed (.resume { client with addr := 2 ^ 32, v6 := true }) = true := by decide
theorem test_wf_openPart : WellFormed (.openMsg client { openOf false 1 with tokens := [2 ^ 24, 6] }) = false
    ∧ WellFormed (.openMsg client (openOf false 1)) = true := by decide
set_option maxRecDepth 20000 in
theorem test_wf_sampling : Sampling.wf ⟨0, 0, 0, 40, 0, List.replicate 256 0, []⟩ = false ∧ Sampling.wf ⟨0, 0, 0, 40, 0, List.replicate 255 0, []⟩ = true := by decide
theorem test_wf_chunk : WellFormed (.imageChunk ⟨7, 1, 65536, 0, 0, []⟩) = false ∧ WellFormed (.imageChunk ⟨7, 1, 65535, 0, 0, []⟩) = true := by decide
theorem test_wf_fabricPacket : WellFormed (.fabricRead 3 ⟨0, 0, ⟨0, 0, []⟩⟩) = false ∧ WellFormed (.fabricRead 3 ⟨0, 0, ⟨0, 0, List.replicate 65 0⟩⟩) = false
    ∧ WellFormed (.fabricRead 3 ⟨0, 0, ⟨0, 0, [0]⟩⟩) = true := by decide
theorem test_wf_frame : WellFormed (.obtikDataFrame 0 ⟨0, []⟩) = false ∧ WellFormed (.obtikDataFrame 0 ⟨0, [0]⟩) = true := by decide
theorem test_wf_thermal : WellFormed (.thermalSample { readsOf [] with flow := ⟨true, true, -1⟩ }) = false
    ∧ WellFormed (.thermalSample (readsOf [⟨87, 8, some 0, none⟩])) = false ∧ WellFormed (.thermalSample (readsOf [⟨87, 7, some 0, none⟩])) = true := by decide
theorem test_wf_window : WellFormed (.registerWrite (2 ^ 23) 0) = false ∧ WellFormed (.registerWrite (2 ^ 23 - 4) 0) = true := by decide

/-! ### Known answers of the standards the manual names -/

/-- FIPS 180-4: the digest of "abc". -/
theorem test_sha512_abc : beNat (sha512 [0x61, 0x62, 0x63]) = 0xDDAF35A193617ABACC417349AE20413112E6FA4E89A97EA20A9EEEE64B55D39A2192992A274FC1A836BA3C23A3FEEBBD454D4423643CE80E2A9AC94FA54CA49F := by
  decide +kernel

/-- Random123's first known answer: Philox-4x32-10 of the zero counter under the zero key (R134). -/
theorem test_philox_zero : philox 0 0 0 0 0 0 = [0x6627E8D5, 0xE169C58D, 0xBC57AC4C, 0x9B00DBD8] := by decide +kernel

/-! ### Worked examples of the manual -/

/-- The example of chapter 5, "one output through one tile": its input group, and row 0 of its tile with codebook and scales. -/
def exampleGroup : List Byte :=
  (((List.replicate 96 0).set 3 0x4C).set 17 0xB1).set 40 0x3A |>.set 58 0xC4 |>.set 64 0x7A |>.set 65 0x7C
def exampleSlot : List Byte :=
  let codes : List Byte := (List.replicate 32 0).set 1 0xD0 |>.set 8 0x20 |>.set 20 0x0F |>.set 29 0x05
  codes ++ List.replicate 2016 0 ++ ([-96, -64, -44, -30, -20, -12, -6, -2, 2, 6, 12, 20, 30, 44, 64, 96].map (BitVec.ofInt 8)) ++ [0x76, 0x75]

theorem test_example_inputs : (inputConvert .mxfp8 exampleGroup).2.1 = -8
    ∧ [3, 17, 40, 58].map (fun j => (inputConvert .mxfp8 exampleGroup).1.getD j 0) = [48, -4, 40, -96] := by decide +kernel

theorem test_example_tile : (Tile.pairSum ⟨exampleSlot, 0, 4, true⟩ (inputConvert .mxfp8 exampleGroup).1 (-8) 0).1 = 0x3B158000 := by
  decide +kernel

/-- The same example's halo correction: rank 16, four factors that are not zero. -/
theorem test_example_halo : haloUp (leBytes 2 0x3E80 ++ leBytes 2 0x3F00 ++ leBytes 2 0xBF80 ++ leBytes 2 0x4000 ++ List.replicate 24 0)
    (leBytes 2 0x3C00 ++ leBytes 2 0xBB80 ++ leBytes 2 0 ++ leBytes 2 0x3B00 ++ List.replicate 24 0) 16 0 0x3D000000 = 0x3D100000 := by
  decide +kernel

/-- The example "a troubled group and its replay" of chapter 5: 3.875, -3.75, 3.6875 and 3.5 in block 0, 1.25 in block 1. -/
def troubledXs : List W32 := [0x40780000, 0xC0700000, 0x406C0000, 0x40600000] ++ List.replicate 28 0 ++ [0x3FA00000] ++ List.replicate 31 0

theorem test_example_quant :
    let g := (quantGroup .mxfp8 troubledXs (some (List.replicate 64 0))).1
    g.take 4 = [0x7E, 0xFE, 0x7E, 0x7E] ∧ (g.drop 64).take 12 = [0x78, 0x77, 0x04, 0] ++ leBytes 4 0x40780000 ++ leBytes 4 0x3FA00000 := by
  decide +kernel

theorem test_example_check : checkGroup .mxfp8 troubledXs (quantGroup .mxfp8 troubledXs (some (List.replicate 64 0))).1 = (3, 0) := by decide +kernel

theorem test_example_replay :
    let g := (quantGroup .mxfp8 troubledXs (some (List.replicate 64 0))).1
    let r (u : Nat) := (requantGroup .mxfp8 troubledXs g (some (List.replicate 64 u))).1
    (r 0x8000).take 4 = [0x78, 0xF7, 0x77, 0x76] ∧ (r 0x3FFF).take 4 = [0x77, 0xF7, 0x76, 0x76] ∧ ((r 0).drop 64).take 3 = [0x79, 0x77, 0x05] := by
  decide +kernel

/-- The example "a promise on a shared prefix" of chapter 8, steps 11 and 12. -/
theorem test_example_promise : promiseNs 32456 5096 16 = 74428100 ∧ promiseNs 160392 5096 16 = 367810935 := by decide

/-! ### Witnesses: further clauses of keys, firmware, field tasks and the fabric -/

/-- The header of a boot image of one component, stage 1, of no bytes at 4,096. -/
def bootHead : List Byte :=
  bootMagic ++ [1, 0, 3, 1, 64, 15] ++ List.replicate 18 0 ++ [1, 0, 0, 0, 0, 0, 0, 0, 0, 16, 0, 0, 0, 0, 0, 0] ++ List.replicate 1776 0
    ++ [1, 0, 1, 0] ++ List.replicate 2268 0
def updating (data : List Byte) (update : Option FwUpdate) : State :=
  { up with boot := { up.boot with wpOpen := true, update := update, area0 := ⟨false, Mem.writeBytes [] 0 data⟩ } }

theorem witness_KeysAndFirmwareAreChecked_header : bootHead.length = 4096 ∧ bootWellFormed bootHead 4096 = true ∧ bootWellFormed bootHead 4095 = false
    ∧ derModulus (CmdHdr.read (keyCmd 3)) = some (beNat ([0x80] ++ List.replicate 510 0 ++ [3])) ∧ derModulus [] = none
    ∧ up.dmaOk 4096 550 = false ∧ (updating [] none).boot.wpOpen = true ∧ (updating [] none).boot.update = none := by decide +kernel

theorem witness_KeysAndFirmwareAreChecked_passes : (updating [] none).boot.passes (1 - 0) = true := by
  simp [updating, up, BootSt.passes, BootSt.info, BootSt.area, BootArea.info, BootSt.admits, BootSt.revokedSlot]

theorem witness_KeysAndFirmwareAreChecked_unsound : (bootSound []) = false := by decide +kernel

def move (f c : Nat) : Move := ⟨f, c, none, true, false, 41, none⟩

/-- Field 83 serves placement 3 with its twin whole in field 10; the named clearings are free. -/
def twinned (moves : List Move) (moved : List (Nat × Nat)) (clearings : List Nat) : State :=
  { up with
    fields := (10, { role := .active, placement := some 3, bank1 := { st := .twin } }) :: (83, { role := .active, placement := some 3, twinHolder := some 10 })
      :: (clearings.map fun c => (c, { role := .clearing })) ++ Config.factoryClearings.map fun c => (c, { role := .unassigned })
    placements := [(3, { live := true, moves := moves, moved := moved })] }

theorem witness_FieldTasksBegin_twin :
    (let s := twinned [] [] [84]
     (s.field 83).role = .active ∧ s.inMove 83 = false ∧ (s.field 83).task = 0 ∧ (s.field 83).placement = some 3
     ∧ s.twinComplete 83 = some 10 ∧ s.nearestClearing 83 = some 84 ∧ (s.plc 3).moves.length < 3 ∧ s.aliasFull 3 83 = false ∧ s.twinComplete 10 = none)
    ∧ (twinned [] [] []).nearestClearing 83 = none
    ∧ 3 ≤ ((twinned (List.replicate 3 (move 5 6)) [] [84]).plc 3).moves.length ∧ (twinned [move 83 84] [] [84]).inMove 83 = true
    ∧ (twinned [] (List.replicate 16 (5, 6)) [84]).aliasFull 3 83 = true ∧ (twinned [] (List.replicate 15 (5, 6)) [84]).aliasFull 3 83 = false
    ∧ ({ up with fields := [(83, { role := .active })] }.field 83).placement = none := by decide

/-- Field 87 wakes, stops, is gated with its snapshot due, or is LOST. -/
def clocked (c : ClockSt) (r : Role) : State := { up with fields := [(87, { clock := c, role := r })] }

theorem witness_StewardsActOnTheirFieldAlone_clocks :
    (∃ off, ((clocked (.gated true) .clearing).field 87).clock = .gated off) ∧ ((clocked (.gated true) .clearing).field 87).role ≠ .lost
    ∧ ((clocked .running .service).field 87).role = .service ∧ ((clocked .running .lost).field 87).role = .lost
    ∧ ((clocked .stopped .clearing).field 87).clock ≠ .running ∧ (∀ off, ((clocked .stopped .clearing).field 87).clock ≠ .gated off)
    ∧ lulled.tick.running = false ∧ 1 < { up with tick := { up.tick with vaneDemand := 2 } }.tick.vaneDemand ∧ ¬1 < up.tick.vaneDemand := by
  refine ⟨⟨true, by decide⟩, by decide, by decide, by decide, by decide, fun off => by cases off <;> decide, by decide, by decide, by decide⟩

theorem witness_RoutersForwardByTheirTables_guards :
    up.inGuard 7 = true ∧ up.inGuard 8 = false ∧ up.inGuard (up.tick.period - 9) = false ∧ up.inGuard (up.tick.period - 8) = true ∧ lulled.inGuard 0 = false
    ∧ (∀ v ∈ allFields, up.routerLost v = false) := by decide +kernel

theorem witness_RoutersForwardByTheirTables_turns :
    (let s := { up with fields := [(10, { router := { shadow := { sites := [(8, (4, true))] } } })] }
     s.breaksWestFirst 9 8 2 = true ∧ s.breaksWestFirst 9 8 4 = false)
    ∧ (up.reachSite (Route.decode (writePkt 323).route).dest = some 10)
    ∧ (Route.decode (writePkt 323).route).dest < 2816 := by decide +kernel

theorem witness_CoresAnswerTheFabric_limits :
    (let p := readPkt 2787
     let r := { Route.decode p.route with addr := 2048 }
     remoteState.remoteRangeOk r 2787 1 = false)
    ∧ (4096 ≤ remoteState.remoteWait ∧ remoteState.remoteWait < 4097) ∧ ¬(∃ q ∈ (remoteState.core 2787).remote, q.addr = 65)
    ∧ (Route.decode (packetOf { writeRoute 2787 with ackreq := true } (List.replicate 32 0)).route).ackreq = true
    ∧ (remoteState.tick.period - 67 + 67 ≤ remoteState.tick.period ∧ remoteState.tick.period < remoteState.tick.period - 66 + 67)
    ∧ (portOfEngine 2720 = some 0 ∧ portOfEngine 2725 = some 5 ∧ portOfEngine 2726 = none ∧ portOfEngine 1408 = some 6 ∧ portOfEngine 1413 = some 11 ∧ portOfEngine 1414 = none) := by decide +kernel

end Sys2Proof.Tests
end

section
/-! SUPPORT. Tables with entries taken out, and what a register field reads after a write of itself, cut to its width, and of another field of its
register. -/

namespace Sys2Proof

/-- Entries taken out of a table read as the default. -/
theorem Tbl.getD_filter {α : Type} (t : Tbl α) (p : Nat → Bool) (k : Nat) (d : α) :
    Tbl.getD (t.filter fun e => !p e.1) k d = if p k then d else t.getD k d := by
  induction t with
  | nil => simp [Tbl.getD]
  | cons e t ih =>
    obtain ⟨j, v⟩ := e
    by_cases hj : p j = true
    · by_cases hk : j = k
      · subst hk; simp [ih, hj]
      · simp [Tbl.getD, ih, hj, hk]
    · by_cases hk : j = k
      · subst hk; simp [Tbl.getD, hj]
      · simp [Tbl.getD, ih, hj, hk]

end Sys2Proof

namespace Sys2Proof.Machine

/-- The mask of a field is set at its own bits alone. -/
theorem Fld.mask_bit_iff (f : Fld) (j : Nat) (hj : j < 32) (hl : f.lo ≤ f.hi) : f.mask.getLsbD j = decide (f.lo ≤ j ∧ j ≤ f.hi) := by
  simp only [Fld.mask, BitVec.getLsbD_ofNat, Nat.testBit_mul_two_pow, Nat.testBit_two_pow_sub_one, hj, decide_true, Bool.true_and]
  rw [← Bool.decide_and, decide_eq_decide]
  omega

/-- A write moves the bits of its field and no other bit of the register. -/
theorem State.reg_put_bit (s : State) (f : Fld) (v j : Nat) (hj : j < 32) (hl : f.lo ≤ f.hi) :
    ((s.put f v).reg f.addr).getLsbD j = if f.lo ≤ j ∧ j ≤ f.hi then v.testBit (j - f.lo) else (s.reg f.addr).getLsbD j := by
  rw [State.put, State.reg_setReg, BitVec.getLsbD_or, BitVec.getLsbD_and, BitVec.getLsbD_and, BitVec.getLsbD_not, f.mask_bit_iff j hj hl]
  split
  · next h => rw [BitVec.getLsbD_ofNat, Nat.testBit_mul_two_pow]; simp [h, hj]
  · next h => simp [h, hj]

theorem State.get_bit (s : State) (f : Fld) (i : Nat) :
    (s.get f).testBit i = (decide (i < f.hi - f.lo + 1) && (s.reg f.addr).getLsbD (f.lo + i)) := by
  rw [State.get, bits, Nat.testBit_mod_two_pow, Nat.testBit_div_two_pow, BitVec.testBit_toNat, Nat.add_comm i]

/-- A field reads the low bits of what was last put into it. -/
theorem State.get_put_mod (s : State) (f : Fld) (v : Nat) (hi : f.hi < 32) (hl : f.lo ≤ f.hi) :
    (s.put f v).get f = v % 2 ^ (f.hi - f.lo + 1) := by
  refine Nat.eq_of_testBit_eq fun i => ?_
  rw [State.get_bit, Nat.testBit_mod_two_pow]
  by_cases h : i < f.hi - f.lo + 1
  · rw [State.reg_put_bit s f v _ (by omega) hl, if_pos (by omega), Nat.add_sub_cancel_left]
  · simp [h]

/-- A write to other bits, of this register or of another, leaves a field as it reads. -/
theorem State.get_put_apart (s : State) (f g : Fld) (v : Nat) (hg : g.hi < 32) (hl : f.lo ≤ f.hi) (hl' : g.lo ≤ g.hi)
    (h : g.hi < f.lo ∨ f.hi < g.lo ∨ g.addr ≠ f.addr) : (s.put f v).get g = s.get g := by
  by_cases ha : g.addr = f.addr
  · refine Nat.eq_of_testBit_eq fun i => ?_
    rw [State.get_bit, State.get_bit, ha]
    by_cases hi : i < g.hi - g.lo + 1
    · rw [State.reg_put_bit s f v _ (by omega) hl, if_neg (by omega)]
    · simp [hi]
  · exact State.get_put_other s f g v ha

end Sys2Proof.Machine
end

section
/-! SUPPORT. How a command is admitted and its fields are judged (R12, R391, R398, R402, R428): one rule for every command that names its
fields in a list. -/

namespace Sys2Proof.Machine

/-! ### Settings -/

@[simp] theorem unchanged_iff (w v : Nat) : unchanged w v = true ↔ v = 2 ^ w - 1 := by simp [unchanged]

theorem not_unchanged (w v : Nat) : (!unchanged w v) = decide (v ≠ 2 ^ w - 1) := by
  by_cases h : v = 2 ^ w - 1 <;> simp [unchanged, h]

@[simp] theorem inRange_iff (w v lo hi : Nat) : inRange w v lo hi = true ↔ Setting w v lo hi := by simp [inRange, Setting]

@[simp] theorem f32Range_iff (v : Nat) (ok : W32 → Bool) : f32Range v ok = true ↔ v = 2 ^ 32 - 1 ∨ ok (BitVec.ofNat 32 v) = true := by
  simp [f32Range]

@[simp] theorem setting_eq_picked (w v old : Nat) : setting w v old = picked w v old := by simp [setting, picked]

@[simp] theorem placementOk_iff (p : Nat) : placementOk p = true ↔ p < 4 := by simp [placementOk]
@[simp] theorem airspaceOk_iff (a : Nat) : airspaceOk a = true ↔ a < 8 := by simp [airspaceOk]

/-- A test of the expert form alone (R401). -/
theorem expertTest_iff (h : CmdHdr) (b : Bool) (p : Prop) (hb : b = true ↔ p) : (!h.expert || b) = true ↔ Expert h p := by
  cases he : h.expert <;> simp [Expert, he, hb]

/-! ### Sources (R398, R428) -/

/-- The BMC may send the opcodes of its list outside Standby. -/
theorem ordered_bmc (s : State) (h : CmdHdr) (op : Nat) (k : State → State) (hs : h.src = .bmc) (hop : op ∈ bmcOps)
    (hp : s.start.power ≠ .standby) : s.ordered h op k = k s := by
  simp [State.ordered, State.mayOrder, hs, hp, hop]

/-- It is refused every other opcode. -/
theorem ordered_bmc_refused (s : State) (h : CmdHdr) (op : Nat) (k : State → State) (hs : h.src = .bmc) (hop : op ∉ bmcOps) :
    s.ordered h op k = s.answer h op .notPermitted := by
  simp [State.ordered, State.mayOrder, hs, hop]

/-- A command that the BMC may not send changes nothing. -/
theorem refuses_bmc {o : Host.Outcome State Fault Refusal} {s : State} {h : CmdHdr} {op : Nat} {k : State → State} (hs : h.src = .bmc)
    (hop : op ∉ bmcOps) (ho : o = .next (s.ordered h op k)) : Refuses o s h op .notPermitted := by
  rw [ho, ordered_bmc_refused s h op k hs hop]
  exact gives_answer s h op .notPermitted (.inr hs)

/-! ### Fields in order (R12, R391) -/

/-- A rule's tests decide a statement's conditions, field by field at the same offsets. -/
def Judges (tests : List (Nat × Bool)) (fields : List (Nat × Prop)) : Prop :=
  List.Forall₂ (fun t f => t.1 = f.1 ∧ (t.2 = true ↔ f.2)) tests fields

@[simp] theorem judges_nil : Judges [] [] := .nil

@[simp] theorem judges_cons (t : Nat × Bool) (f : Nat × Prop) (ts : List (Nat × Bool)) (fs : List (Nat × Prop)) :
    Judges (t :: ts) (f :: fs) ↔ (t.1 = f.1 ∧ (t.2 = true ↔ f.2)) ∧ Judges ts fs := List.forall₂_cons

theorem checked_cons_ok (s : State) (h : CmdHdr) (op a : Nat) (b : Bool) (l : List (Nat × Bool)) (k : State → State) (hb : b = true) :
    s.checked h op ((a, b) :: l) k = s.checked h op l k := by simp [State.checked, firstBad, hb]

theorem checked_cons_bad (s : State) (h : CmdHdr) (op a : Nat) (b : Bool) (l : List (Nat × Bool)) (k : State → State) (hb : ¬b = true) :
    s.checked h op ((a, b) :: l) k = s.badParam h op a := by simp [State.checked, firstBad, hb]

theorem checked_one (s : State) (h : CmdHdr) (op a : Nat) (b : Bool) (k : State → State) :
    s.checked h op [(a, b)] k = if !b then s.badParam h op a else k s := by cases b <;> rfl

/-- A rule behind a list of tests judges its fields in order, and then does what follows where all of them hold. -/
theorem inOrder_of_checked {o : Host.Outcome State Fault Refusal} {s : State} {h : CmdHdr} {op : Nat} {k : State → State}
    {tests : List (Nat × Bool)} {fields : List (Nat × Prop)} {good : Prop} (hs : h.src = .host ∨ h.src = .bmc) (hj : Judges tests fields)
    (ho : o = .next (s.checked h op tests k)) (hg : (∀ f ∈ fields, f.2) → o = .next (k s) → good) : InOrder o s h op fields good := by
  induction hj with
  | nil => exact hg (by simp) ho
  | @cons t f ts fs htf _ ih =>
    obtain ⟨a, b⟩ := t
    obtain ⟨a', p⟩ := f
    obtain ⟨rfl, hb⟩ := htf
    constructor
    · intro hp
      rw [ho, checked_cons_bad s h op _ b ts k (fun e => hp (hb.1 e))]
      exact ⟨_, rfl, answered_badParam s h op _ hs⟩
    · intro hp
      refine ih (ho.trans (by rw [checked_cons_ok s h op _ b ts k (hb.2 hp)])) fun hfs => hg fun f hf => ?_
      rcases List.mem_cons.1 hf with rfl | hf
      · exact hp
      · exact hfs f hf

/-- A setting of the host that is booked once its fields are judged (R30, R388). -/
theorem books_of_checked {s : State} {h : CmdHdr} {op : Nat} {i : Instr} {tests : List (Nat × Bool)} {fields : List (Nat × Prop)}
    (hs : h.src = .host) (hj : Judges tests fields)
    (ho : exec i s = .next (s.ordered h op fun s => s.checked h op tests fun s => s.atBoundary h op i)) :
    InOrder (exec i s) s h op fields (Books (exec i s) s h op i) := by
  rw [ordered_host s h op _ hs] at ho
  exact inOrder_of_checked (.inl hs) hj ho fun _ hk => hk ▸ books_atBoundary s h op i (.inl hs)

/-! ### The bound of the other source (R399) -/

theorem lower_none {other : Option Nat} {v who : Nat} (hn : ¬∃ b, other = some b ∧ b < v) :
    (other.map fun c => (c, who)).filter (fun e => e.1 < v) = none := by
  cases other with
  | none => rfl
  | some b => simpa using hn

theorem lower_some {other : Option Nat} {v who b : Nat} (hb : other = some b) (hlt : b < v) :
    (other.map fun c => (c, who)).filter (fun e => e.1 < v) = some (b, who) := by
  simp [hb, Option.filter, hlt]

end Sys2Proof.Machine
end

section
/-! PROOFS. The settings that are booked for a boundary (R30, R243, R253, R388, R402). -/

namespace Sys2Proof.Machine

/-- The networks of SET_FILTER's buffer are sound when each of them is. -/
theorem filterPrefixes_sound_iff (data : List Byte) (count : Nat) :
    (filterPrefixes data count).all (fun e => prefixLenOk e.1 e.2) = true ↔ ∀ j, j < count →
      leNat ((data.drop (17 * j + 16)).take 1) ≤ 128
        ∧ (isV4 (leNat ((data.drop (17 * j)).take 16)) = true → 96 ≤ leNat ((data.drop (17 * j + 16)).take 1)) := by
  simp [filterPrefixes, prefixLenOk, imp_iff_not_or]

theorem prefixLenOk_iff (addr len : Nat) : prefixLenOk addr len = true ↔ len ≤ 128 ∧ (isV4 addr = true → 96 ≤ len) := by
  simp [prefixLenOk, imp_iff_not_or]

/-- Another airspace holds an address: among its own, as its IPv4 address, or as its lease (R243). -/
theorem mem_otherAddresses (s : State) (a v : Nat) : v ∈ s.otherAddresses a ↔
    ∃ b, b < 8 ∧ b ≠ a ∧ ((∃ e ∈ (s.asp b).addresses, e.2.1 = v) ∨ (s.asp b).ipv4 = some v ∨ (s.asp b).lease = some v) := by
  simp [State.otherAddresses, and_assoc]

theorem destNamed_iff (s : State) (a entry : Nat) : s.destNamed a entry = true ↔
    ∃ n ∈ s.sessIds, (s.sess n).st ≠ .free ∧ (s.sess n).airspace = a ∧ (s.sess n).dest = entry := by
  simp [State.destNamed, and_assoc]

section
variable {h : CmdHdr} (s : State) (hs : h.src = .host)
include hs

theorem setCore_books (scrub wait merge down : Nat) : InOrder (exec (.setCore h scrub wait merge down) s) s h 0x0108
    [(32, Setting 8 scrub 0 4), (36, Expert h (Setting 32 wait 256 65536)), (40, Expert h (Setting 8 merge 0 16)),
      (42, Expert h (Setting 16 down 16 1024))] (Books (exec (.setCore h scrub wait merge down) s) s h 0x0108 (.setCore h scrub wait merge down)) :=
  books_of_checked hs (by simp [expertTest_iff h _ _ (inRange_iff ..)]) rfl

theorem setLead_books (lead : Nat) : InOrder (exec (.setLead h lead) s) s h 0x0203 [(32, Setting 8 lead 1 8)]
    (Books (exec (.setLead h lead) s) s h 0x0203 (.setLead h lead)) :=
  books_of_checked hs (by simp) rfl

theorem setRound_books (p round : Nat) : InOrder (exec (.setRound h p round) s) s h 0x0406 [(32, p < 4), (34, Setting 16 round 1 256)]
    (Books (exec (.setRound h p round) s) s h 0x0406 (.setRound h p round)) :=
  books_of_checked hs (by simp) rfl

theorem setSessionLimits_books (a list limit cont contrail : Nat) : InOrder (exec (.setSessionLimits h a list limit cont contrail) s) s h 0x0407
    [(32, a < 8), (34, Setting 16 list 0 1024), (36, Expert h (Setting 16 limit 0 600)), (40, Expert h (Setting 32 cont 0 86400)),
      (44, Expert h (Setting 32 contrail 1 604800))]
    (Books (exec (.setSessionLimits h a list limit cont contrail) s) s h 0x0407 (.setSessionLimits h a list limit cont contrail)) :=
  books_of_checked hs (by simp [expertTest_iff h _ _ (inRange_iff ..)]) rfl

theorem setSampling_books (a temperature topP topK minP : Nat) : InOrder (exec (.setSampling h a temperature topP topK minP) s) s h 0x0408
    [(32, a < 8), (36, temperature = 2 ^ 32 - 1 ∨ temperatureOk (BitVec.ofNat 32 temperature) = true),
      (40, Expert h (topP = 2 ^ 32 - 1 ∨ topPOk (BitVec.ofNat 32 topP) = true)), (44, Expert h (Setting 16 topK 0 1024)),
      (48, Expert h (minP = 2 ^ 32 - 1 ∨ minPOk (BitVec.ofNat 32 minP) = true))]
    (Books (exec (.setSampling h a temperature topP topK minP) s) s h 0x0408 (.setSampling h a temperature topP topK minP)) :=
  books_of_checked hs (by simp [expertTest_iff h _ _ (inRange_iff ..), expertTest_iff h _ _ (f32Range_iff ..)]) rfl

theorem setEgress_books (a cap : Nat) : InOrder (exec (.setEgress h a cap) s) s h 0x0608 [(32, a < 8), (34, Setting 16 cap 1 1600)]
    (Books (exec (.setEgress h a cap) s) s h 0x0608 (.setEgress h a cap)) :=
  books_of_checked hs (by simp) rfl

theorem setEthPort_books (n mtu cap : Nat) : InOrder (exec (.setEthPort h n mtu cap) s) s h 0x0609
    [(32, n ≤ 3), (34, Setting 16 mtu 1500 9216), (36, Expert h (Setting 16 cap 1 400))]
    (Books (exec (.setEthPort h n mtu cap) s) s h 0x0609 (.setEthPort h n mtu cap)) :=
  books_of_checked hs (by simp [expertTest_iff h _ _ (inRange_iff ..)]) rfl

/-- SET_DESTINATION: an entry that a descriptor names is not changed (R253). -/
theorem setDestination_books (a entry port udp address : Nat) :
    let i : Instr := .setDestination h a entry port udp address
    let known : Prop := (s.asp a).dests.has entry = true
    let named : Prop := ∃ n ∈ s.sessIds, (s.sess n).st ≠ .free ∧ (s.sess n).airspace = a ∧ (s.sess n).dest = entry
    InOrder (exec i s) s h 0x0607 [(32, a < 8), (33, entry ≤ 15), (34, (known ∧ port = 255) ∨ port ≤ 3), (36, known ∨ udp ≠ 65535),
        (40, known ∨ address ≠ 2 ^ 128 - 1)]
      ((named → Refuses (exec i s) s h 0x0607 .busy) ∧ (¬named → Books (exec i s) s h 0x0607 i)) := by
  intro i known named
  refine inOrder_of_checked (.inl hs) ?_ (congrArg _ (ordered_host s h 0x0607 _ hs)) fun _ hk => ?_
  · simp [known, ← Bool.not_eq_true]
  · constructor <;> intro hn
    · rw [hk, if_pos ((destNamed_iff s a entry).2 hn)]
      exact gives_answer s h 0x0607 .busy (.inl hs)
    · rw [hk, if_neg (mt (destNamed_iff s a entry).1 hn)]
      exact books_atBoundary s h 0x0607 i (.inl hs)

/-- SET_FILTER: its buffer lies in a DMA window, and every network in it is one (R243, R386). -/
theorem setFilter_books (a count : Nat) :
    let i : Instr := .setFilter h a count
    let blocked : Prop := 0 < count ∧ s.dmaOk h.buffer (17 * count) = false
    let entry (j : Nat) : Nat × Nat := (leNat ((h.data.drop (17 * j)).take 16), leNat ((h.data.drop (17 * j + 16)).take 1))
    let sound : Prop := ∀ j, j < count → (entry j).2 ≤ 128 ∧ (isV4 (entry j).1 = true → 96 ≤ (entry j).2)
    InOrder (exec i s) s h 0x0606 [(16, 17 * count ≤ h.bufferLen), (32, a < 8), (33, count ≤ 16)]
      ((blocked → Gives (exec i s) (s.bump Reg.Ceil.DMA_BLOCKED) .host (finalOf h 0x0606 .notPermitted))
      ∧ (¬blocked → ¬sound → BadField (exec i s) s h 0x0606 8) ∧ (¬blocked → sound → Books (exec i s) s h 0x0606 i)) := by
  intro i blocked entry sound
  have hblocked : (0 < count && !s.dmaOk h.buffer (17 * count)) = true ↔ blocked := by simp [blocked]
  have hsound : (!(filterPrefixes h.data count).all fun e => prefixLenOk e.1 e.2) = true ↔ ¬sound := by
    rw [Bool.not_eq_true', ← Bool.not_eq_true, filterPrefixes_sound_iff]
  refine inOrder_of_checked (.inl hs) (by simp) (congrArg _ (ordered_host s h 0x0606 _ hs)) fun _ hk => ⟨fun hb => ?_, fun hb hn => ?_, fun hb hn => ?_⟩
  · rw [hk, if_pos (hblocked.2 hb), ← hs]
    exact gives_answer _ h 0x0606 .notPermitted (.inl hs)
  · rw [hk, if_neg (mt hblocked.1 hb), if_pos (hsound.2 hn)]
    exact ⟨_, rfl, answered_badParam s h 0x0606 8 (.inl hs)⟩
  · rw [hk, if_neg (mt hblocked.1 hb), if_neg (fun e => hsound.1 e hn)]
    exact books_atBoundary s h 0x0606 i (.inl hs)

/-- SET_ADDRESS: the addresses are judged as the orders accepted before leave them (R243, R400). -/
theorem setAddress_books (a index address len udp vlan dhcp ipv4 : Nat) :
    let i : Instr := .setAddress h a index address len udp vlan dhcp ipv4
    let t := s.foreseenAddresses
    let y := (t.asp a).setAddress h index address len udp vlan dhcp ipv4
    let entry := y.addresses.getD index (0, 64)
    let taken (v : Nat) : Prop := ∃ b, b < 8 ∧ b ≠ a ∧ ((∃ e ∈ (t.asp b).addresses, e.2.1 = v) ∨ (t.asp b).ipv4 = some v ∨ (t.asp b).lease = some v)
    InOrder (exec i s) s h 0x0605 [(32, a < 8), (33, index ≤ 3),
        (40, ¬taken entry.1 ∧ y.addresses.length + (if y.dhcp = true then 1 else 0) ≤ 4),
        (56, entry.1 = 0 ∨ (entry.2 ≤ 128 ∧ (isV4 entry.1 = true → 96 ≤ entry.2))),
        (58, Expert h (Setting 16 udp 1024 65535)), (60, Expert h (Setting 16 vlan 0 4094)), (62, Expert h (Setting 8 dhcp 0 1)),
        (64, Expert h (ipv4 = 2 ^ 128 - 1 ∨ ipv4 = 0 ∨ (isV4 ipv4 = true ∧ ¬taken ipv4)))] (Books (exec i s) s h 0x0605 i) := by
  intro i t y entry taken
  have htaken (v : Nat) : (t.otherAddresses a).contains v = true ↔ taken v := List.contains_iff_mem.trans (mem_otherAddresses t a v)
  have hroom : (!(t.otherAddresses a).contains entry.1 && decide (y.addresses.length + (if y.dhcp then 1 else 0) ≤ 4)) = true ↔
      ¬taken entry.1 ∧ y.addresses.length + (if y.dhcp = true then 1 else 0) ≤ 4 := by
    rw [Bool.and_eq_true, decide_eq_true_iff, Bool.not_eq_true', ← Bool.not_eq_true, htaken]
  have hlen : (decide (entry.1 = 0) || prefixLenOk entry.1 entry.2) = true ↔
      entry.1 = 0 ∨ (entry.2 ≤ 128 ∧ (isV4 entry.1 = true → 96 ≤ entry.2)) := by
    rw [Bool.or_eq_true, decide_eq_true_iff, prefixLenOk_iff]
  have hipv4 : (!h.expert || unchanged 128 ipv4 || decide (ipv4 = 0) || (isV4 ipv4 && !(t.otherAddresses a).contains ipv4)) = true ↔
      Expert h (ipv4 = 2 ^ 128 - 1 ∨ ipv4 = 0 ∨ (isV4 ipv4 = true ∧ ¬taken ipv4)) := by
    rw [Bool.or_assoc, Bool.or_assoc]
    apply expertTest_iff
    rw [Bool.or_eq_true, Bool.or_eq_true, Bool.and_eq_true, decide_eq_true_iff, unchanged_iff, Bool.not_eq_true', ← Bool.not_eq_true, htaken]
  have hexpert {w v lo hi : Nat} := expertTest_iff h _ _ (inRange_iff w v lo hi)
  exact books_of_checked hs (.cons ⟨rfl, airspaceOk_iff a⟩ <| .cons ⟨rfl, decide_eq_true_iff⟩ <| .cons ⟨rfl, hroom⟩ <| .cons ⟨rfl, hlen⟩ <|
    .cons ⟨rfl, hexpert⟩ <| .cons ⟨rfl, hexpert⟩ <| .cons ⟨rfl, hexpert⟩ <| .cons ⟨rfl, hipv4⟩ .nil) rfl

end

/-- Settles O15: every such command judges its fields in order and books its order. -/
theorem boundarySettingsAreBooked : Obligations.BoundarySettingsAreBooked := by
  intro s h hs checks
  exact ⟨setCore_books s hs, setLead_books s hs, setRound_books s hs, setSessionLimits_books s hs, setSampling_books s hs, setEgress_books s hs,
    setEthPort_books s hs, setDestination_books s hs, setFilter_books s hs, setAddress_books s hs⟩

end Sys2Proof.Machine
end

section
/-! PROOFS. Parameters out of range (R12, R388, R391), and the factory module (R1, R435). -/

namespace Sys2Proof.Machine

/-- A fault in the first field of a host command is named, whatever the rest of its rule does. -/
theorem badField_of_head {o : Host.Outcome State Fault Refusal} {s : State} {h : CmdHdr} {op offset : Nat} {ok : Bool} {rest : List (Nat × Bool)}
    {k : State → State} (hs : h.src = .host) (ho : o = .next (s.ordered h op fun s => s.checked h op ((offset, ok) :: rest) k)) (hbad : ¬ok = true) :
    BadField o s h op offset := by
  rw [ho, ordered_host s h op _ hs, checked_cons_bad s h op offset ok rest k hbad]
  exact ⟨_, rfl, answered_badParam s h op offset (.inl hs)⟩

theorem not_setting {w v lo hi : Nat} (hw : v ≠ 2 ^ w - 1) (hr : v < lo ∨ hi < v) : ¬Setting w v lo hi := by
  rintro (he | hr')
  · exact hw he
  · omega

/-- Settles O16: the tests of each command fail at the field named, and the BMC may send none of the three. -/
theorem faultyParametersAreNamed : Obligations.FaultyParametersAreNamed := by
  intro s h v w hs
  refine ⟨fun hv hr => (setLead_books s hs v).1 (not_setting hv hr), fun hv => (setRound_books s hs v w).1 (by omega),
    fun hw hv hr => ((setRound_books s hs w v).2 hw).1 (not_setting hv hr), fun hv => (setEgress_books s hs v w).1 (by omega),
    fun hw hv hr => ((setEgress_books s hs w v).2 hw).1 (not_setting hv hr), fun hv cap => (setEthPort_books s hs v w cap).1 (by omega),
    fun hv hr warn release => ?_, fun hv => ⟨?_, ?_, ?_⟩, fun hv => ?_, fun b hb => ⟨?_, ?_, ?_⟩⟩
  · exact badField_of_head hs rfl (mt (inRange_iff ..).1 (not_setting hv (.inr hr)))
  · exact badField_of_head hs rfl (by simpa using hv)
  · exact badField_of_head hs rfl (by simpa using hv)
  · exact badField_of_head hs rfl (by simpa using hv)
  · exact badField_of_head hs rfl (by simpa using Nat.lt_of_succ_le hv)
  · exact refuses_bmc hb (by decide) rfl
  · exact refuses_bmc hb (by decide) rfl
  · exact refuses_bmc hb (by decide) rfl

theorem reset_field (f : Nat) : State.reset.field f = FieldSt.atReset f := rfl

/-- A field leaves the factory with its role and nothing else set (R19, R20, R175). -/
theorem FieldSt.atReset_eq (f : Nat) : FieldSt.atReset f = { role := (FieldSt.atReset f).role } := by
  unfold FieldSt.atReset
  split
  · rfl
  · split <;> rfl

theorem FieldSt.atReset_service (f : Nat) (hf : f ∈ Config.serviceFields) : (FieldSt.atReset f).role = .service := by
  rw [FieldSt.atReset, if_pos (List.contains_iff_mem.2 hf)]

/-- No service field is a factory clearing, so those keep their role. -/
theorem FieldSt.atReset_clearing (f : Nat) (hf : f ∈ Config.factoryClearings) : (FieldSt.atReset f).role = .clearing := by
  revert f
  decide

/-- The airspaces differ in their shares alone, and none is bound (R241). -/
theorem AirspaceSt.atReset_unbound (a : Nat) :
    (AirspaceSt.atReset a).placement = none ∧ (AirspaceSt.atReset a).keys = [] ∧ (AirspaceSt.atReset a).prefixes = [] := by
  unfold AirspaceSt.atReset
  split <;> exact ⟨rfl, rfl, rfl⟩

/-- Settles O5: every table is empty, so each entry is its reset value. -/
theorem resetIsTheFactoryModule : Obligations.ResetIsTheFactoryModule := by
  refine ⟨rfl, rfl, rfl, rfl, rfl, rfl, rfl, rfl, rfl, rfl, rfl, rfl, rfl, rfl, rfl, rfl, rfl, rfl, by decide, ?_, ?_, ?_, ?_, ?_, ?_, ?_⟩
  · exact fun p => ⟨rfl, rfl, rfl⟩
  · exact fun a => AirspaceSt.atReset_unbound a
  · exact fun n => rfl
  · intro f
    rw [reset_field, FieldSt.atReset_eq f]
    exact ⟨⟨rfl, rfl⟩, rfl, rfl⟩
  · exact fun f hf => FieldSt.atReset_service f hf
  · exact fun f hf => FieldSt.atReset_clearing f hf
  · exact fun n => rfl

end Sys2Proof.Machine
end

section
/-! PROOFS. SET_CAP (R335, R343, R399, R402). -/

namespace Sys2Proof.Machine

/-- Taking each lower term in turn ends at the lowest of them. -/
theorem foldl_lower_fst (terms : List (Nat × Nat)) (b : Nat × Nat) :
    (terms.foldl (fun b t => if t.1 < b.1 then t else b) b).1 = (terms.map Prod.fst).foldl min b.1 := by
  induction terms generalizing b with
  | nil => rfl
  | cons t terms ih =>
    have hstep : (if t.1 < b.1 then t else b).1 = min b.1 t.1 := by split <;> omega
    rw [List.foldl_cons, ih, hstep]
    rfl

/-- C_eff is the lowest of the terms that stand (R335). -/
theorem capOf_cap (s : State) : s.capOf.1 =
    min s.power.hostCap (min (s.power.bmcCap.getD s.power.hostCap) (min s.thermal.cth (s.power.inputTerm.getD s.power.hostCap))) := by
  rw [State.capOf, foldl_lower_fst]
  cases s.power.bmcCap <;> cases s.power.inputTerm <;> simp <;> omega

/-- CAP_SRC names the first term that is the lowest (R335, R343): the cases are which of the two optional terms stand. -/
theorem capOf_src (s : State) : s.capOf.2 =
    if s.capOf.1 = s.power.hostCap then (if s.power.hostSet then 0 else 4) else if s.power.bmcCap = some s.capOf.1 then 1
    else if s.capOf.1 = s.thermal.cth then 2 else 3 := by
  unfold State.capOf
  cases s.power.bmcCap <;> cases s.power.inputTerm <;> simp <;> grind

theorem recap_frame (s : State) : s.recap = { s with regs := s.recap.regs, power := { s.power with capEff := s.capOf.1 } } := rfl

theorem recap_capEff (s : State) : s.recap.get Reg.Pow.CAP_EFF = s.capOf.1 % 2 ^ 32 := by
  rw [State.recap, State.get_put_other _ _ _ _ (by decide), State.get_put_mod _ _ _ (by decide) (by decide)]
  rfl

theorem recap_capSrc (s : State) : s.recap.get Reg.Pow.CAP_SRC = s.capOf.2 := by
  have hsrc : s.capOf.2 < 8 := by rw [capOf_src]; split_ifs <;> decide
  rw [State.recap, State.get_put _ _ _ (by decide) (by decide) hsrc]

theorem recap_reg (s : State) (a : Nat) (he : a ≠ Reg.Pow.CAP_EFF.addr) (hs : a ≠ Reg.Pow.CAP_SRC.addr) : s.recap.reg a = s.reg a := by
  rw [State.recap, State.reg_put_other _ _ _ _ hs, State.reg_put_other _ _ _ _ he]
  rfl

/-- The answer to a cap `v`: the other source's cap is lower, a computed bound is, or `v` stands (R399). -/
theorem capReply_gives {o : Host.Outcome State Fault Refusal} {s : State} {h : CmdHdr} {v c src who : Nat} {other : Option Nat}
    (hs : h.src = .host ∨ h.src = .bmc) (hc : s.power.capEff = c) (hsrc : s.capOf.2 = src)
    (hother : (if h.src == .bmc then some (s.power.hostCap, 2) else s.power.bmcCap.map fun c => (c, 1)) = other.map fun c => (c, who))
    (ho : o = .next (s.capReply h v)) :
    ((∃ b, other = some b ∧ b < v) → Gives o s h.src { finalOf h 0x0201 .superseded with detail := who, result := [(0, 4, c)] })
    ∧ (¬(∃ b, other = some b ∧ b < v) → c < v →
        Gives o s h.src { finalOf h 0x0201 .limited with detail := if src = 3 then 5 else 4, result := [(0, 4, c)] })
    ∧ (¬(∃ b, other = some b ∧ b < v) → ¬c < v → Gives o s h.src { finalOf h 0x0201 .ok with result := [(0, 4, c)] }) := by
  unfold State.capReply at ho
  simp only [hother, hc, hsrc] at ho
  rw [ho]
  refine ⟨fun ⟨b, hb, hlt⟩ => ?_, fun hn hlt => ?_, fun hn hlt => ?_⟩
  · simp only [lower_some hb hlt]
    exact gives_reply s h.src _ hs
  · simp only [lower_none hn, if_pos hlt]
    exact gives_reply s h.src _ hs
  · simp only [lower_none hn, if_neg hlt]
    exact gives_reply s h.src _ hs

/-- A state with other caps: the host's, whether it set one, the BMC's, and the stored default (R343). -/
def State.withCaps (s : State) (host : Nat) (set : Bool) (bmc : Option Nat) (keep : Nat) : State :=
  s.updPower fun p => { p with hostCap := host, hostSet := set, bmcCap := bmc, storedCap := keep }

theorem setCap_host (s : State) (h : CmdHdr) (cap stored : Nat) (hs : h.src = .host) : exec (.setCap h cap stored) s = .next
    (s.checked h 0x0201 [(32, inRange 32 cap 6000 21000), (36, !h.expert || stored = 0 || inRange 32 stored 6000 21000)] fun s =>
      (s.withCaps (setting 32 cap s.power.hostCap) (s.power.hostSet || !unchanged 32 cap) s.power.bmcCap
        (if h.expert && stored ≠ 0 then setting 32 stored s.power.storedCap else s.power.storedCap)).recap.capReply h (setting 32 cap s.power.hostCap)) := by
  have hb : ¬(h.src == Src.bmc) = true := by rw [hs]; decide
  change Host.Outcome.next (opSetCap h cap stored s) = _
  rw [opSetCap, ordered_host s h 0x0201 _ hs, if_neg hb]
  rfl

theorem setCap_bmc (s : State) (h : CmdHdr) (cap stored : Nat) (hs : h.src = .bmc) (hp : s.start.power ≠ .standby) :
    exec (.setCap h cap stored) s = .next (if h.expert then s.answer h 0x0201 .notPermitted
      else s.checked h 0x0201 [(32, cap = 0 || inRange 32 cap 6000 21000)] fun s =>
        let bmc := if cap = 0 then none else if unchanged 32 cap then s.power.bmcCap else some cap
        (s.withCaps s.power.hostCap s.power.hostSet bmc s.power.storedCap).recap.capReply h (bmc.getD 0)) := by
  have hb : (h.src == Src.bmc) = true := by rw [hs]; decide
  change Host.Outcome.next (opSetCap h cap stored s) = _
  rw [opSetCap, ordered_bmc s h 0x0201 _ hs (by decide) hp, if_pos hb]
  rfl

/-- Settles O18: each source's order is `capReply` on the state with its caps and C_eff taken anew. -/
theorem effectiveCapIsTheLowestBound : Obligations.EffectiveCapIsTheLowestBound := by
  intro s h cap stored o vins input judged
  have key (host : Nat) (set : Bool) (bmc : Option Nat) (keep v : Nat) (other : Option Nat) (who : Nat) (hs : h.src = .host ∨ h.src = .bmc)
      (hother : (if h.src == .bmc then some (host, 2) else bmc.map fun c => (c, 1)) = other.map fun c => (c, who))
      (ho : o = .next ((s.withCaps host set bmc keep).recap.capReply h v)) : judged host set bmc keep v other who := by
    have hc : (s.withCaps host set bmc keep).capOf.1 = min host (min (bmc.getD host) (min s.thermal.cth (input.getD host))) := by
      have hin : (s.withCaps host set bmc keep).power.inputTerm = input := by simp [State.withCaps, PowerMgr.inputTerm, input, vins]
      rw [capOf_cap, hin]
      rfl
    have hsrc := hc ▸ capOf_src (s.withCaps host set bmc keep)
    exact ⟨(s.withCaps host set bmc keep).recap, hc ▸ recap_frame _, hc ▸ recap_capEff _, hsrc ▸ recap_capSrc _, recap_reg _,
      capReply_gives hs hc hsrc hother ho⟩
  refine ⟨fun hs => ?_, fun hs hp => ?_⟩
  · refine inOrder_of_checked (.inl hs) ?_ (setCap_host s h cap stored hs) fun _ hk => ?_
    · have hstored : (decide (stored = 0) || inRange 32 stored 6000 21000) = true ↔ stored = 0 ∨ Setting 32 stored 6000 21000 := by simp
      simp [Bool.or_assoc, expertTest_iff h _ _ hstored]
    · simp only [setting_eq_picked, not_unchanged, Bool.and_eq_true, decide_eq_true_eq] at hk
      exact key _ _ _ _ _ _ 1 (.inl hs) (by simp [hs]) hk
  · have ho : o = _ := setCap_bmc s h cap stored hs hp
    split
    · next he =>
      rw [ho, if_pos he]
      exact gives_answer s h 0x0201 .notPermitted (.inr hs)
    · next he =>
      rw [if_neg he] at ho
      refine inOrder_of_checked (.inr hs) (by simp) ho fun _ hk => ?_
      simp only [unchanged_iff] at hk
      exact key _ _ _ _ _ _ 2 (.inr hs) (by simp [hs]) hk

end Sys2Proof.Machine
end

section
/-! PROOFS. Settings that act in the control slot: SET_STRETCH, SET_THERMAL, EVENT_MASK, CLEAR_COUNTERS (R60, R361, R394, R402, R411). -/

namespace Sys2Proof.Machine

/-! ### SET_STRETCH -/

theorem gaugeTick_frame (s : State) : s.gaugeTick = { s with regs := s.gaugeTick.regs } := rfl

/-- The tick gauges show the committed stretch in its seven bits (R59). -/
theorem gaugeTick_committed (s : State) : s.gaugeTick.get Reg.Tick.COMMITTED = s.tick.committed % 128 := by
  rw [State.gaugeTick, State.get_put_other _ _ _ _ (by decide), State.get_put_other _ _ _ _ (by decide),
    State.get_put_apart _ Reg.Tick.LEVEL _ _ (by decide) (by decide) (by decide) (by decide), State.get_put_mod _ _ _ (by decide) (by decide)]
  rfl

theorem gaugeTick_reg (s : State) (a : Nat) (ha : a ∉ [Reg.Tick.TCK_COUNT_LO.addr, Reg.Tick.USABLE.addr, Reg.Tick.COMMITTED.addr, Reg.Tick.LEVEL.addr,
    Reg.Tick.BAND.addr, Reg.Tick.FREQ_MHZ.addr]) : s.gaugeTick.reg a = s.reg a := by
  simp only [List.mem_cons, List.not_mem_nil, or_false, not_or] at ha
  obtain ⟨hcount, husable, hcommitted, hlevel, hband, hfreq⟩ := ha
  rw [State.gaugeTick, State.reg_put_other _ _ _ _ hfreq, State.reg_put_other _ _ _ _ hband, State.reg_put_other _ _ _ _ hlevel,
    State.reg_put_other _ _ _ _ hcommitted, State.reg_put_other _ _ _ _ husable, State.reg_put_other _ _ _ _ hcount]

theorem setStretch_stores (s : State) (h : CmdHdr) (hs : h.src = .host) (c w r : Nat) :
    let warn := if h.expert then picked 8 w s.tick.vaneWarn else s.tick.vaneWarn
    let rel := if h.expert then picked 8 r s.tick.vaneRelease else s.tick.vaneRelease
    InOrder (exec (.setStretch h c w r) s) s h 0x0106 [(32, Setting 8 c 0 50), (33, 8 ≤ warn ∧ warn ≤ 60), (34, warn + 10 ≤ rel ∧ rel ≤ 100)]
      (∃ e, Gives (exec (.setStretch h c w r) s) e .host (finalOf h 0x0106 .ok)
        ∧ e = { s with regs := e.regs, tick := { s.tick with committed := picked 8 c s.tick.committed, vaneWarn := warn, vaneRelease := rel } }
        ∧ e.get Reg.Tick.COMMITTED = picked 8 c s.tick.committed % 128
        ∧ ∀ a, a ∉ [Reg.Tick.TCK_COUNT_LO.addr, Reg.Tick.USABLE.addr, Reg.Tick.COMMITTED.addr, Reg.Tick.LEVEL.addr, Reg.Tick.BAND.addr,
            Reg.Tick.FREQ_MHZ.addr] → e.reg a = s.reg a) := by
  intro warn rel
  refine inOrder_of_checked (.inl hs) ?_ (congrArg _ (ordered_host s h 0x0106 _ hs)) fun _ hk => ?_
  · simp [warn, rel]
  · simp only [setting_eq_picked] at hk
    let t : State := s.updTick fun t => { t with committed := picked 8 c t.committed, vaneWarn := warn, vaneRelease := rel }
    have hgives : Gives (exec (.setStretch h c w r) s) t.gaugeTick h.src (finalOf h 0x0106 .ok) := ⟨_, hk, answered_answer _ h 0x0106 .ok (.inl hs)⟩
    exact ⟨t.gaugeTick, hs ▸ hgives, gaugeTick_frame t, gaugeTick_committed t, gaugeTick_reg t⟩

/-! ### SET_THERMAL -/

/-- An expert parameter that the basic form leaves out leaves its setting (R401, R402). -/
theorem picked_expert (h : CmdHdr) (v old : Nat) : picked 8 (if h.expert then v else 0xFF) old = if h.expert then picked 8 v old else old := by
  cases h.expert <;> simp [picked]

/-- A limit above the bound of the other source, or a guard below it. -/
theorem behind_iff (h : CmdHdr) (l g : Nat) (limit guard : Option Nat) :
    ((!unchanged 8 l && limit.any (· < l)) || (!unchanged 8 (if h.expert then g else 0xFF) && guard.any ((if h.expert then g else 0xFF) < ·))) = true ↔
      (l ≠ 255 ∧ ∃ b, limit = some b ∧ b < l) ∨ (h.expert = true ∧ g ≠ 255 ∧ ∃ b, guard = some b ∧ g < b) := by
  cases h.expert <;> simp [not_unchanged, Option.any_eq_true]

/-- OK, or SUPERSEDED where another source's bound stands (R399). -/
theorem gives_supersededOr {o : Host.Outcome State Fault Refusal} {e : State} {h : CmdHdr} {op who : Nat} {b : Bool} {p : Prop}
    (hs : h.src = .host ∨ h.src = .bmc) (hb : b = true ↔ p)
    (ho : o = .next (if b then e.answerWith h op .superseded who [] else e.answer h op .ok)) :
    (p → Gives o e h.src { finalOf h op .superseded with detail := who }) ∧ (¬p → Gives o e h.src (finalOf h op .ok)) := by
  constructor <;> intro hp
  · rw [ho, if_pos (hb.2 hp)]
    exact gives_reply e h.src _ hs
  · rw [ho, if_neg (mt hb.1 hp)]
    exact gives_answer e h op .ok hs

theorem setThermal_judges (h : CmdHdr) (l g sw : Nat) : Judges
    [(32, inRange 8 l 80 100), (33, !h.expert || inRange 8 g 1 10), (34, !h.expert || inRange 8 sw 0 1)]
    [(32, Setting 8 l 80 100), (33, Expert h (Setting 8 g 1 10)), (34, Expert h (Setting 8 sw 0 1))] := by
  simp [expertTest_iff h _ _ (inRange_iff ..)]

/-- The host's bounds and the switch-off are stored; the BMC's may stand below them (R361, R399). -/
theorem setThermal_host_stores (s : State) (h : CmdHdr) (hs : h.src = .host) (l g sw : Nat) :
    let t := s.thermal
    let behind : Prop := (l ≠ 255 ∧ ∃ b, t.bmcLimit = some b ∧ b < l) ∨ (h.expert = true ∧ g ≠ 255 ∧ ∃ b, t.bmcGuard = some b ∧ g < b)
    let e : State := { s with thermal := { t with
      tLim := picked 8 l t.tLim
      guard := if h.expert then picked 8 g t.guard else t.guard
      switchOff := if h.expert ∧ sw ≠ 255 then sw == 1 else t.switchOff } }
    InOrder (exec (.setThermal h l g sw) s) s h 0x0204
      [(32, Setting 8 l 80 100), (33, Expert h (Setting 8 g 1 10)), (34, Expert h (Setting 8 sw 0 1))]
      ((behind → Gives (exec (.setThermal h l g sw) s) e h.src { finalOf h 0x0204 .superseded with detail := 1 })
      ∧ (¬behind → Gives (exec (.setThermal h l g sw) s) e h.src (finalOf h 0x0204 .ok))) := by
  intro t behind e
  have hb : (h.src == Src.bmc) = false := by rw [hs]; rfl
  have he : (s.updThermal fun t => { t with
      tLim := setting 8 l t.tLim, guard := setting 8 (if h.expert then g else 0xFF) t.guard
      switchOff := if h.expert && !unchanged 8 sw then sw == 1 else t.switchOff }) = e := by
    simp only [setting_eq_picked, picked_expert, not_unchanged, Bool.and_eq_true, decide_eq_true_eq]
    rfl
  have ho : exec (.setThermal h l g sw) s = .next (opSetThermal h l g sw s) := rfl
  rw [opSetThermal, ordered_host s h 0x0204 _ hs] at ho
  simp only [hb, Bool.false_and, Bool.false_eq_true, if_false] at ho
  exact inOrder_of_checked (.inl hs) (setThermal_judges h l g sw) ho fun _ hk =>
    gives_supersededOr (.inl hs) (behind_iff h l g t.bmcLimit t.bmcGuard) (by rw [he] at hk; exact hk)

/-- The BMC stores its own two bounds, and may not order the switch-off (R361, R399). -/
theorem setThermal_bmc_stores (s : State) (h : CmdHdr) (hs : h.src = .bmc) (hp : s.start.power ≠ .standby) (l g sw : Nat) :
    let t := s.thermal
    let behind : Prop := (l ≠ 255 ∧ ∃ b, some t.tLim = some b ∧ b < l) ∨ (h.expert = true ∧ g ≠ 255 ∧ ∃ b, some t.guard = some b ∧ g < b)
    let e : State := { s with thermal := { t with
      bmcLimit := if l = 255 then t.bmcLimit else some l
      bmcGuard := if h.expert ∧ g ≠ 255 then some g else t.bmcGuard } }
    if h.expert = true ∧ sw ≠ 255 then Refuses (exec (.setThermal h l g sw) s) s h 0x0204 .notPermitted
    else InOrder (exec (.setThermal h l g sw) s) s h 0x0204
      [(32, Setting 8 l 80 100), (33, Expert h (Setting 8 g 1 10)), (34, Expert h (Setting 8 sw 0 1))]
      ((behind → Gives (exec (.setThermal h l g sw) s) e h.src { finalOf h 0x0204 .superseded with detail := 2 })
      ∧ (¬behind → Gives (exec (.setThermal h l g sw) s) e h.src (finalOf h 0x0204 .ok))) := by
  intro t behind e
  have hb : (h.src == Src.bmc) = true := by rw [hs]; rfl
  have he : (s.updThermal fun t => { t with
      bmcLimit := if unchanged 8 l then t.bmcLimit else some l
      bmcGuard := if unchanged 8 (if h.expert then g else 0xFF) then t.bmcGuard else some (if h.expert then g else 0xFF) }) = e := by
    have hguard : (if unchanged 8 (if h.expert then g else 0xFF) then t.bmcGuard else some (if h.expert then g else 0xFF))
        = if h.expert ∧ g ≠ 255 then some g else t.bmcGuard := by
      cases h.expert <;> simp
    simp only [State.updThermal, unchanged_iff] at hguard ⊢
    rw [hguard]
    rfl
  have hsw : (h.expert && !unchanged 8 sw) = true ↔ h.expert = true ∧ sw ≠ 255 := by simp [not_unchanged]
  have ho : exec (.setThermal h l g sw) s = .next (opSetThermal h l g sw s) := rfl
  rw [opSetThermal, ordered_bmc s h 0x0204 _ hs (by decide) hp] at ho
  simp only [hb, Bool.true_and, if_true, hsw] at ho
  split
  · next hx =>
    rw [ho, if_pos hx]
    exact gives_answer s h 0x0204 .notPermitted (.inr hs)
  · next hx =>
    rw [if_neg hx] at ho
    exact inOrder_of_checked (.inr hs) (setThermal_judges h l g sw) ho fun _ hk =>
      gives_supersededOr (.inr hs) (behind_iff h l g (some t.tLim) (some t.guard)) (by rw [he] at hk; exact hk)

/-! ### EVENT_MASK and CLEAR_COUNTERS -/

theorem eventMask_stores (s : State) (h : CmdHdr) (hs : h.src = .host) (m : W32) : Gives (exec (.eventMask h m) s)
    { s with host := { s.host with mask := if m = 0xFFFFFFFF then s.host.mask else m } } .host (finalOf h 0x0902 .ok) := by
  have hm : unchanged 32 m.toNat = true ↔ m = 0xFFFFFFFF := by
    rw [unchanged_iff, BitVec.toNat_eq]
    rfl
  have ho : exec (.eventMask h m) s = .next (opEventMask h m s) := rfl
  rw [opEventMask, ordered_host s h 0x0902 _ hs] at ho
  simp only [hm] at ho
  exact hs ▸ ⟨_, ho, answered_answer _ h 0x0902 .ok (.inl hs)⟩

theorem clearCounters_clears (s : State) (h : CmdHdr) (hs : h.src = .host) (b field : Nat) :
    let f := if h.expert then field else 0xFF
    InOrder (exec (.clearCounters h b field) s) s h 0x0901 [(32, b ≤ 4), (33, f = 0xFF ∨ (f < 88 ∧ b = 1))]
      (∃ e, Gives (exec (.clearCounters h b field) s) e .host (finalOf h 0x0901 .ok) ∧ e = { s with regs := e.regs, windows := e.windows }
        ∧ ∀ a, e.reg a = (if counterAt b f a then resetAt a else s.reg a) ∧ e.shown a = if counterAt b f a then resetAt a else s.shown a) := by
  intro f
  refine inOrder_of_checked (.inl hs) (by simp [f]) (congrArg _ (ordered_host s h 0x0901 _ hs)) fun _ hk => ?_
  let e : State := { s with
    regs := s.regs.filter fun e => !counterAt b f e.1
    windows := s.windows.filter fun e => !counterAt b f e.1 }
  have hgives : Gives (exec (.clearCounters h b field) s) e h.src (finalOf h 0x0901 .ok) := ⟨_, hk, answered_answer _ h 0x0901 .ok (.inl hs)⟩
  refine ⟨e, hs ▸ hgives, rfl, fun a => ?_⟩
  have hreg : e.reg a = if counterAt b f a then resetAt a else s.reg a := by
    rw [State.reg, Tbl.getD_filter]
    rfl
  refine ⟨hreg, ?_⟩
  rw [State.shown, hreg, State.shown]
  split
  · exact Tbl.getD_filter ..
  · rfl

end Sys2Proof.Machine
end

section
/-! PROOFS. SET_GRANTED (R60, R219, R399, R471). -/

namespace Sys2Proof.Machine

/-! ### A granted share is stored and ordered -/

/-- The order of a share: dropped where it is the one in force, else for the next boundary if lower and after the lead if higher (R219, R330). -/
def grantOrderOf (s : State) (x : PlacementSt) (want : Nat) : Option (Nat × Nat) :=
  if x.grantOrder.map Prod.snd = some want then x.grantOrder
  else if want = x.grant then none else some (s.tick.count + (if want < x.grant then 1 else s.leadNow + 1), want)

/-- Ordering a share leaves the state where the order stands already, or else writes the order alone. -/
theorem orderGrant_cases (s : State) (p : Nat) : let next := grantOrderOf s (s.plc p) (min (s.plc p).hostGrant (s.boundOf p))
    (s.orderGrant p = s ∧ next = (s.plc p).grantOrder) ∨ s.orderGrant p = s.updPlc p fun x => { x with grantOrder := next } := by
  intro next
  unfold State.orderGrant
  simp only
  split
  · next b g hg =>
    by_cases hw : g = min (s.plc p).hostGrant (s.boundOf p)
    · exact .inl ⟨if_pos hw, if_pos (by simp [hg, hw])⟩
    · have hn : next = _ := if_neg (by simp [hg, hw])
      rw [if_neg hw, hn]
      exact .inr rfl
  · next hg =>
    have hn : next = _ := if_neg (by simp [hg])
    rw [hn]
    by_cases hw : min (s.plc p).hostGrant (s.boundOf p) = (s.plc p).grant
    · exact .inl ⟨if_pos hw, by rw [if_pos hw, hg]⟩
    · rw [if_neg hw, if_neg hw]
      exact .inr rfl

theorem orderGrant_frame (s : State) (p : Nat) : s.orderGrant p = { s with placements := (s.orderGrant p).placements } := by
  rcases orderGrant_cases s p with ⟨he, -⟩ | he <;> rw [he]
  rfl

theorem orderGrant_plc_other (s : State) (p q : Nat) (hq : q ≠ p) : (s.orderGrant p).plc q = s.plc q := by
  rcases orderGrant_cases s p with ⟨he, -⟩ | he <;> rw [he]
  exact State.plc_updPlc_other s p q _ hq

theorem orderGrant_plc (s : State) (p : Nat) : (s.orderGrant p).plc p =
    { s.plc p with grantOrder := grantOrderOf s (s.plc p) (min (s.plc p).hostGrant (s.boundOf p)) } := by
  rcases orderGrant_cases s p with ⟨he, hn⟩ | he
  · rw [he, hn]
  · rw [he, State.plc_updPlc]

/-- Everything that storing a share does: it, cut to the sized share, and its order; no other placement and nothing else moves. -/
theorem applyGranted_spec (s : State) (p share : Nat) :
    let x := s.plc p
    let new := min (picked 8 share x.hostGrant) x.plan.sized
    let e := s.applyGranted p share
    e = { s with placements := e.placements } ∧ (∀ q, q ≠ p → e.plc q = s.plc q)
      ∧ e.plc p = { x with hostGrant := new, grantOrder := grantOrderOf s x (min new (s.boundOf p)) } := by
  intro x new e
  let t := s.updPlc p fun x => { x with hostGrant := min (setting 8 share x.hostGrant) x.plan.sized }
  have ht : t.plc p = { x with hostGrant := new } := by simp [t, x, new]
  refine ⟨?_, fun q hq => ?_, ?_⟩
  · exact orderGrant_frame t p
  · exact (orderGrant_plc_other t p q hq).trans (State.plc_updPlc_other s p q _ hq)
  · refine (orderGrant_plc t p).trans ?_
    rw [ht]
    rfl

theorem applyGranted_tick (s : State) (p share : Nat) : (s.applyGranted p share).tick = s.tick := by
  rw [(applyGranted_spec s p share).1]

/-- The answer to a share: LIMITED where the ladder's bound is below it (R399). -/
theorem grantReply_gives (s : State) (h : CmdHdr) (p : Nat) (hs : h.src = .host) : Gives (.next (s.grantReply h p)) s .host
    (if s.power.shareBound.getD p 100 < (s.plc p).hostGrant then { finalOf h 0x0107 .limited with detail := 6 } else finalOf h 0x0107 .ok) := by
  have hr : s.grantReply h p = s.reply h.src (if s.power.shareBound.getD p 100 < (s.plc p).hostGrant
      then { finalOf h 0x0107 .limited with detail := 6 } else finalOf h 0x0107 .ok) := by
    unfold State.grantReply State.grantStatus State.boundOf
    split <;> rfl
  rw [hr, hs]
  exact gives_reply s .host _ (.inl rfl)

/-- What SET_GRANTED does once it is judged: the share is stored and ordered, and answered while ticks run; while none do its reply is held as a
deferred order, after PENDING unless that was sent already (`owed`). -/
def Granted (o : Host.Outcome State Fault Refusal) (s : State) (h : CmdHdr) (p share : Nat) (owed : Bool) : Prop :=
  let x := s.plc p
  let new := min (picked 8 share x.hostGrant) x.plan.sized
  let bound := s.power.shareBound.getD p 100
  let want := min new bound
  ∃ e, e = { s with placements := e.placements } ∧ (∀ q, q ≠ p → e.plc q = s.plc q)
    ∧ e.plc p = { x with hostGrant := new, grantOrder := (e.plc p).grantOrder }
    ∧ (e.plc p).grantOrder = (if x.grantOrder.map Prod.snd = some want then x.grantOrder
        else if want = x.grant then none else some (s.tick.count + (if want < x.grant then 1 else s.leadNow + 1), want))
    ∧ (s.tick.running = true → new ≤ bound → Gives o e .host (finalOf h 0x0107 .ok))
    ∧ (s.tick.running = true → bound < new → Gives o e .host { finalOf h 0x0107 .limited with detail := 6 })
    ∧ (s.tick.running = false →
      let v := { e with host := { e.host with deferred := e.host.deferred ++ [⟨.setGranted h p 0xFF 0, 0, true⟩] } }
      if owed then o = .next v else Gives o v .host (pendingOf h 0x0107))

/-- A share is taken: answered while ticks run, and its reply owed while none do. -/
theorem granted_of_applied {o : Host.Outcome State Fault Refusal} {s : State} {h : CmdHdr} {p share : Nat} {owed : Bool} (hs : h.src = .host)
    (hrun : s.tick.running = true → o = .next ((s.applyGranted p share).grantReply h p))
    (hstop : s.tick.running = false → let v := (s.applyGranted p share).updHost fun x =>
        { x with deferred := x.deferred ++ [⟨.setGranted h p 0xFF 0, 0, true⟩] }
      o = .next (if owed then v else v.pend h 0x0107 [])) : Granted o s h p share owed := by
  obtain ⟨hframe, hother, hp⟩ := applyGranted_spec s p share
  have hreply := grantReply_gives (s.applyGranted p share) h p hs
  have hgrant : ((s.applyGranted p share).plc p).hostGrant 
      = min (picked 8 share (s.plc p).hostGrant) (s.plc p).plan.sized := by rw [hp]
  have hbound : (s.applyGranted p share).power.shareBound.getD p 100 = s.power.shareBound.getD p 100 := by rw [hframe]
  rw [hgrant, hbound] at hreply
  refine ⟨s.applyGranted p share, hframe, hother, ?_, ?_, fun hr hle => ?_, fun hr hlt => ?_, fun hr => ?_⟩
  · rw [hp]
  · rw [hp]
    rfl
  · rw [hrun hr]
    rwa [if_neg (by omega)] at hreply
  · rw [hrun hr]
    rwa [if_pos hlt] at hreply
  · have ho := hstop hr
    cases owed with
    | true => exact ho
    | false => exact ho ▸ hs ▸ ⟨_, rfl, answered_pend _ h 0x0107 (.inl hs)⟩

/-! ### The command, an order whose apply_tick has come, and the reply owed -/

theorem waitsFor_iff (s : State) (h : CmdHdr) (at_ : Nat) : s.waitsFor h at_ = true ↔
    h.expert = true ∧ s.tick.running = true ∧ s.tick.count + 1 < at_ ∧ at_ ≠ 2 ^ 64 - 1 := by
  simp [State.waitsFor, not_unchanged, and_assoc]

theorem setGranted_taken (s : State) (h : CmdHdr) (hs : h.src = .host) (p share at_ : Nat) :
    let o := exec (.setGranted h p share at_) s
    let waits : Prop := h.expert = true ∧ s.tick.running = true ∧ s.tick.count + 1 < at_ ∧ at_ ≠ 2 ^ 64 - 1
    InOrder o s h 0x0107 [(32, p < 4)]
      (((s.plc p).live = false → Refuses o s h 0x0107 .notPermitted)
      ∧ ((s.plc p).live = true → InOrder o s h 0x0107 [(33, Setting 8 share 0 (s.plc p).plan.sized)]
        ((waits → Gives o { s with host := { s.host with
            deferred := s.host.deferred ++ [⟨.setGranted h p share at_, at_, true⟩] } } .host (pendingOf h 0x0107))
        ∧ (¬waits → Granted o s h p share false)))) := by
  intro o waits
  refine inOrder_of_checked (.inl hs) (by simp) (congrArg _ (ordered_host s h 0x0107 _ hs)) fun _ hk => ⟨fun hl => ?_, fun hl => ?_⟩
  · rw [hk, if_pos (by simp [hl])]
    exact gives_answer s h 0x0107 .notPermitted (.inl hs)
  · rw [if_neg (by simp [hl])] at hk
    refine inOrder_of_checked (.inl hs) (by simp) hk fun _ hk => ⟨fun hw => ?_, fun hw => ?_⟩
    · rw [hk, if_pos ((waitsFor_iff s h at_).2 hw)]
      exact hs ▸ ⟨_, rfl, answered_pend _ h 0x0107 (.inl hs)⟩
    · rw [if_neg (mt (waitsFor_iff s h at_).1 hw)] at hk
      exact granted_of_applied hs (fun hr => by rw [hk, if_pos hr]) (fun hr => by rw [hk, if_neg (by simp [hr])]; rfl)

/-- It is judged again, for the sized share may have fallen. -/
theorem applyTimed_setGranted_taken (s : State) (h : CmdHdr) (hs : h.src = .host) (p share at_ : Nat) :
    let again : Host.Outcome State Fault Refusal := .next (s.applyTimed ⟨.setGranted h p share at_, at_, true⟩)
    ((s.plc p).live = false → Refuses again s h 0x0107 .notPermitted)
    ∧ ((s.plc p).live = true → InOrder again s h 0x0107 [(33, Setting 8 share 0 (s.plc p).plan.sized)] (Granted again s h p share true)) := by
  intro again
  have hagain : again = .next (if !(s.plc p).live then s.answer h 0x0107 .notPermitted
      else s.checked h 0x0107 [(33, inRange 8 share 0 (s.plc p).plan.sized)] fun s =>
        if (s.applyGranted p share).tick.running then (s.applyGranted p share).grantReply h p
        else (s.applyGranted p share).updHost fun x => { x with deferred := x.deferred ++ [⟨.setGranted h p 0xFF 0, 0, true⟩] }) := by
    simp only [checked_one]
    rfl
  refine ⟨fun hl => ?_, fun hl => ?_⟩
  · rw [hagain, if_pos (by simp [hl])]
    exact gives_answer s h 0x0107 .notPermitted (.inl hs)
  · rw [if_neg (by simp [hl])] at hagain
    refine inOrder_of_checked (.inl hs) (by simp) hagain fun _ hk => ?_
    rw [applyGranted_tick] at hk
    exact granted_of_applied hs (fun hr => by rw [hk, if_pos hr]) (fun hr => by rw [hk, if_neg (by simp [hr])]; rfl)

end Sys2Proof.Machine
end

section
/-! PROOFS. SET_BREAKER (R325, R326, R399). -/

namespace Sys2Proof.Machine

/-- A running maximum bounds every member, and is one of them or what it began with. -/
theorem foldl_max_spec {α : Type} (g : α → Nat) (l : List α) (m : Nat) :
    let top := l.foldl (fun m e => max m (g e)) m
    m ≤ top ∧ (∀ e ∈ l, g e ≤ top) ∧ (top = m ∨ ∃ e ∈ l, g e = top) := by
  induction l generalizing m with
  | nil => simp
  | cons a l ih =>
    obtain ⟨hm, hall, htop⟩ := ih (max m (g a))
    refine ⟨le_trans (le_max_left ..) hm, ?_, ?_⟩
    · rintro e he
      rcases List.mem_cons.1 he with rfl | he
      · exact le_trans (le_max_right ..) hm
      · exact hall e he
    · rcases htop with he | ⟨e, he, hg⟩
      · rcases max_choice m (g a) with hx | hx
        · exact .inl (he.trans hx)
        · exact .inr ⟨a, List.mem_cons_self, (he.trans hx).symm⟩
      · exact .inr ⟨e, List.mem_cons_of_mem _ he, hg⟩

theorem mem_computeFields (f : Nat) (hf : f < 88) : f ∈ computeFields ↔ Config.serviceFields.contains f = false := by
  simp [computeFields, allFields, hf]

/-- The floor of VLOG of a compute field is its highest forecast of the last 1,000 ticks on the 12 V side (R326). -/
theorem floorMa_forecast (s : State) (f d : Nat) (hf : d = 0 ∧ f ∈ computeFields) (hlt : f < 88) : (s.floorMa f d).2 = s ∧
    ∃ high, (s.floorMa f d).1 = ceilDiv (high * (s.field f).vlogMv * 100) (92 * 12)
      ∧ (∀ e ∈ s.power.forecastLog, e.2.1 = f → s.tick.count < e.1 + 1000 → e.2.2 ≤ high)
      ∧ (high = 0 ∨ ∃ e ∈ s.power.forecastLog, e.2.1 = f ∧ s.tick.count < e.1 + 1000 ∧ e.2.2 = high) := by
  obtain ⟨hd, hc⟩ := hf
  have hdc : (decide (d = 0) && !Config.serviceFields.contains f) = true := by
    rw [(mem_computeFields f hlt).1 hc]
    simpa using hd
  rw [State.floorMa, if_pos hdc]
  obtain ⟨-, hall, htop⟩ := foldl_max_spec (fun e : Nat × Nat × Nat => e.2.2)
    (s.power.forecastLog.filter fun e => e.2.1 = f && s.tick.count < e.1 + 1000) 0
  refine ⟨rfl, _, rfl, fun e he hef hec => hall e (List.mem_filter.2 ⟨he, by simp [hef, hec]⟩), htop.imp_right ?_⟩
  rintro ⟨e, he, hg⟩
  obtain ⟨hmem, hkeep⟩ := List.mem_filter.1 he
  simp only [Bool.and_eq_true, decide_eq_true_eq] at hkeep
  exact ⟨e, hmem, hkeep.1, hkeep.2, hg⟩

/-- That of any other domain is a value the manual leaves open. -/
theorem floorMa_open (s : State) (f d : Nat) (hf : ¬(d = 0 ∧ f ∈ computeFields)) (hlt : f < 88) :
    s.floorMa f d = (Config.freeNat s.freeUses, { s with freeUses := s.freeUses + 1 }) := by
  have hdc : ¬(decide (d = 0) && !Config.serviceFields.contains f) = true := by
    rw [mem_computeFields f hlt] at hf
    simpa using hf
  rw [State.floorMa, if_neg hdc]
  rfl

/-! ### The command -/

/-- The power record of a field, cleared where the expert form asks for it. -/
def State.clearRecord (s : State) (h : CmdHdr) (f clear : Nat) : State :=
  if h.expert && clear = 1 then s.updField f fun x => { x with powerRecord := 0 } else s

theorem clearRecord_frame (s : State) (h : CmdHdr) (f clear : Nat) : s.clearRecord h f clear = { s with fields := (s.clearRecord h f clear).fields } := by
  unfold State.clearRecord
  split <;> rfl

theorem clearRecord_thresholds (s : State) (h : CmdHdr) (f clear : Nat) :
    ((s.clearRecord h f clear).field f).hostTh = (s.field f).hostTh ∧ ((s.clearRecord h f clear).field f).bmcTh = (s.field f).bmcTh := by
  unfold State.clearRecord
  split <;> simp

/-- A threshold in range is booked; the other source's may stand below it (R399). -/
def State.bookBreaker (s : State) (h : CmdHdr) (f d th : Nat) : State :=
  let x := s.field f
  let other : Option (Nat × Nat) := if h.src == .bmc then some (x.hostThreshold f d, 2) else (x.bmcTh.find d).map fun b => (b, 1)
  match other.filter fun e => e.1 < th with
  | some e =>
    let s := s.updHost fun y => { y with deferred := y.deferred ++ [⟨.setBreaker h f d th 0, s.tick.count + 1, false⟩] }
    s.answerWith h 0x0202 .superseded e.2 []
  | none => s.atBoundary h 0x0202 (.setBreaker h f d th 0)

theorem bookBreaker_gives {o : Host.Outcome State Fault Refusal} {e : State} {h : CmdHdr} {f d th tick : Nat} {hostTh bmcTh : Tbl Nat}
    (hs : h.src = .host ∨ h.src = .bmc) (hhost : (e.field f).hostTh = hostTh) (hbmc : (e.field f).bmcTh = bmcTh) (htick : e.tick.count = tick)
    (ho : o = .next (e.bookBreaker h f d th)) :
    let other : Option Nat := if h.src = .bmc then some (hostTh.getD d (defaultTh f d)) else bmcTh.find d
    if ∃ b, other = some b ∧ b < th then
      Gives o { e with host := { e.host with deferred := e.host.deferred ++ [⟨.setBreaker h f d th 0, tick + 1, false⟩] } } h.src
        { finalOf h 0x0202 .superseded with detail := if h.src = .bmc then 2 else 1 }
    else Books o e h 0x0202 (.setBreaker h f d th 0) := by
  intro other
  have hother : (if h.src == .bmc then some ((e.field f).hostThreshold f d, 2) else ((e.field f).bmcTh.find d).map fun b => (b, 1))
      = other.map fun c => (c, if h.src = .bmc then 2 else 1) := by
    rcases hs with hs | hs <;> simp [other, hs, FieldSt.hostThreshold, hhost, hbmc]
  unfold State.bookBreaker at ho
  simp only [hother] at ho
  rw [ho]
  split
  · next hl =>
    obtain ⟨b, hb, hlt⟩ := hl
    simp only [lower_some hb hlt, htick]
    exact gives_reply _ h.src _ hs
  · next hn =>
    simp only [lower_none hn]
    exact books_atBoundary e h 0x0202 _ hs

/-- The rule of SET_BREAKER: a threshold that is left as it was needs no floor current. -/
theorem setBreaker_eq (s : State) (h : CmdHdr) (f d th clear : Nat) : exec (.setBreaker h f d th clear) s = .next (s.ordered h 0x0202 fun s =>
    if h.src == .bmc && h.expert && clear ≠ 0 && !unchanged 8 clear then s.answer h 0x0202 .notPermitted
    else s.checked h 0x0202 [(32, decide (f < 88)), (33, domainExists f d), (34, inRange 16 th (ceilDiv (fusedMax f d) 10) (fusedMax f d)),
        (36, !h.expert || inRange 8 clear 0 1)] fun s =>
      if unchanged 16 th then (s.clearRecord h f clear).answer h 0x0202 .ok
      else if decide (1000 * th < 11 * (s.floorMa f d).1) then (s.floorMa f d).2.badParam h 0x0202 34
      else ((s.floorMa f d).2.clearRecord h f clear).bookBreaker h f d th) := by
  change Host.Outcome.next (opSetBreaker h f d th clear s) = _
  unfold opSetBreaker
  cases unchanged 16 th <;> rfl

theorem floorMa_frame (s : State) (f d : Nat) : (s.floorMa f d).2 = { s with freeUses := (s.floorMa f d).2.freeUses } := by
  unfold State.floorMa
  split <;> rfl

theorem setBreaker_judged (s : State) (h : CmdHdr) (hs : h.src = .host ∨ (h.src = .bmc ∧ s.start.power ≠ .standby)) (f d th clear : Nat) :
    let o := exec (.setBreaker h f d th clear) s
    let x := s.field f
    let top := fusedMax f d
    let cleared (u : State) : State := if h.expert = true ∧ clear = 1 then u.updField f fun x => { x with powerRecord := 0 } else u
    if h.src = .bmc ∧ h.expert = true ∧ clear ≠ 0 ∧ clear ≠ 255 then Refuses o s h 0x0202 .notPermitted
    else InOrder o s h 0x0202
      [(32, f < 88), (33, domainExists f d = true), (34, Setting 16 th ((top + 9) / 10) top), (36, Expert h (Setting 8 clear 0 1))]
      ((th = 65535 → Gives o (cleared s) h.src (finalOf h 0x0202 .ok))
      ∧ (th ≠ 65535 → ∃ floor u,
        (d = 0 ∧ f ∈ computeFields → u = s ∧ ∃ high, floor = ceilDiv (high * x.vlogMv * 100) (92 * 12)
          ∧ (∀ e ∈ s.power.forecastLog, e.2.1 = f → s.tick.count < e.1 + 1000 → e.2.2 ≤ high)
          ∧ (high = 0 ∨ ∃ e ∈ s.power.forecastLog, e.2.1 = f ∧ s.tick.count < e.1 + 1000 ∧ e.2.2 = high))
        ∧ (¬(d = 0 ∧ f ∈ computeFields) → floor = Config.freeNat s.freeUses ∧ u = { s with freeUses := s.freeUses + 1 })
        ∧ (1000 * th < 11 * floor → BadField o u h 0x0202 34)
        ∧ (11 * floor ≤ 1000 * th →
          let other : Option Nat := if h.src = .bmc then some (x.hostTh.getD d (defaultTh f d)) else x.bmcTh.find d
          let e := cleared u
          if ∃ b, other = some b ∧ b < th then
            Gives o { e with host := { e.host with deferred := e.host.deferred ++ [⟨.setBreaker h f d th 0, s.tick.count + 1, false⟩] } } h.src
              { finalOf h 0x0202 .superseded with detail := if h.src = .bmc then 2 else 1 }
          else Books o e h 0x0202 (.setBreaker h f d th 0)))) := by
  intro o x top cleared
  have hsrc : h.src = .host ∨ h.src = .bmc := hs.imp_right And.left
  have hcleared (u : State) : u.clearRecord h f clear = cleared u := by simp [State.clearRecord, cleared]
  have hrefused : (h.src == .bmc && h.expert && clear ≠ 0 && !unchanged 8 clear) = true ↔
      h.src = .bmc ∧ h.expert = true ∧ clear ≠ 0 ∧ clear ≠ 255 := by simp [not_unchanged, and_assoc]
  have ho : o = _ := setBreaker_eq s h f d th clear
  rw [hs.elim (ordered_host s h 0x0202 _) fun hb => ordered_bmc s h 0x0202 _ hb.1 (by decide) hb.2] at ho
  split
  · next hr =>
    rw [ho, if_pos (hrefused.2 hr)]
    exact gives_answer s h 0x0202 .notPermitted hsrc
  · next hr =>
    rw [if_neg (mt hrefused.1 hr)] at ho
    refine inOrder_of_checked hsrc ?_ ho fun hfields hk => ⟨fun hth => ?_, fun hth => ?_⟩
    · simp [expertTest_iff h _ _ (inRange_iff ..), ceilDiv, top]
    · rw [hk, if_pos ((unchanged_iff 16 th).2 hth), hcleared]
      exact gives_answer _ h 0x0202 .ok hsrc
    · have hf : f < 88 := hfields (32, f < 88) (by simp)
      rw [if_neg (mt (unchanged_iff 16 th).1 hth)] at hk
      refine ⟨(s.floorMa f d).1, (s.floorMa f d).2, fun hd => ?_, fun hd => ?_, fun hlow => ?_, fun hhigh => ?_⟩
      · exact floorMa_forecast s f d hd hf
      · rw [floorMa_open s f d hd hf]
        exact ⟨rfl, rfl⟩
      · rw [hk, if_pos (decide_eq_true hlow)]
        exact ⟨_, rfl, answered_badParam _ h 0x0202 34 hsrc⟩
      · rw [if_neg (by simpa using hhigh)] at hk
        obtain ⟨hhost, hbmc⟩ := clearRecord_thresholds (s.floorMa f d).2 h f clear
        have htick : ((s.floorMa f d).2.clearRecord h f clear).tick = s.tick := by rw [clearRecord_frame, floorMa_frame]
        have hfield : (s.floorMa f d).2.field f = x := by rw [floorMa_frame]; rfl
        rw [hfield] at hhost hbmc
        rw [hcleared] at hk hhost hbmc htick
        exact bookBreaker_gives hsrc hhost hbmc (congrArg TickSt.count htick) hk

/-! ### The order at its boundary -/

/-- The register field that shows the threshold of a domain. -/
def breakerFld (f d : Nat) : Fld :=
  if d = 0 then Reg.FPow.VLOG_TH f else if d = 1 then Reg.FPow.VMEM_TH f else if d = 2 then Reg.FPow.VLNK_TH f else Reg.FPow.VPHY_TH f

theorem breakerFld_width (f d : Nat) : (breakerFld f d).hi < 32 ∧ (breakerFld f d).lo ≤ (breakerFld f d).hi
    ∧ (breakerFld f d).hi - (breakerFld f d).lo + 1 = 8 := by
  unfold breakerFld
  split_ifs <;> exact ⟨Nat.le_of_ble_eq_true rfl, Nat.le_of_ble_eq_true rfl, rfl⟩

/-- The lower of the two thresholds is in force (R399). -/
theorem threshold_eq (x : FieldSt) (f d : Nat) : x.threshold f d =
    min (x.hostTh.getD d (defaultTh f d)) ((x.bmcTh.find d).getD (x.hostTh.getD d (defaultTh f d))) := by
  unfold FieldSt.threshold FieldSt.hostThreshold
  cases x.bmcTh.find d with
  | none => exact (min_self _).symm
  | some b => exact min_comm ..

theorem applyBreaker_eq (s : State) (h : CmdHdr) (f d th : Nat) :
    let t := s.updField f fun x => if h.src == .bmc then { x with bmcTh := x.bmcTh.set d th } else { x with hostTh := x.hostTh.set d th }
    s.applyBreaker h f d th = t.put (breakerFld f d) ((t.field f).threshold f d) := by
  intro t
  rcases d with - | - | - | d <;> rfl

theorem takeEffect_setBreaker (s : State) (h : CmdHdr) (f d th k : Nat) :
    ∃ t, s.takeEffect ⟨.setBreaker h f d th 0, k, false⟩ = t ∧ t = { s with fields := t.fields, regs := t.regs }
      ∧ (h.src ≠ .bmc → t.field f = { s.field f with hostTh := (s.field f).hostTh.set d th })
      ∧ (h.src = .bmc → t.field f = { s.field f with bmcTh := (s.field f).bmcTh.set d th })
      ∧ (∀ g, g ≠ f → t.field g = s.field g)
      ∧ (let host := (t.field f).hostTh.getD d (defaultTh f d)
        t.get (breakerFld f d) = min host (((t.field f).bmcTh.find d).getD host) % 256 ∧ ∀ a, a ≠ (breakerFld f d).addr → t.reg a = s.reg a) := by
  let u := s.updField f fun x => if h.src == .bmc then { x with bmcTh := x.bmcTh.set d th } else { x with hostTh := x.hostTh.set d th }
  have hu : u.field f = if h.src == .bmc then { s.field f with bmcTh := (s.field f).bmcTh.set d th }
      else { s.field f with hostTh := (s.field f).hostTh.set d th } := State.field_updField ..
  obtain ⟨hhi, hlo, hwidth⟩ := breakerFld_width f d
  refine ⟨u.put (breakerFld f d) ((u.field f).threshold f d), applyBreaker_eq s h f d th, rfl, fun hn => ?_, fun hb => ?_, fun g hg => ?_, ?_, ?_⟩
  · exact hu.trans (if_neg (by simpa using hn))
  · exact hu.trans (if_pos (by simpa using hb))
  · change u.field g = s.field g
    exact State.field_updField_other s f g _ hg
  · rw [State.get_put_mod _ _ _ hhi hlo, hwidth, threshold_eq]
    rfl
  · exact fun a ha => State.reg_put_other u _ _ a ha

/-- Settles O13: each command by its own lemma. -/
theorem controlSlotSettingsTakeEffect : Obligations.ControlSlotSettingsTakeEffect := by
  refine ⟨fun s h => ⟨fun hs => setStretch_stores s h hs, fun l g sw => ⟨fun hs => setThermal_host_stores s h hs l g sw,
    fun hs hp => setThermal_bmc_stores s h hs hp l g sw⟩, fun hs => eventMask_stores s h hs, fun hs => clearCounters_clears s h hs⟩, fun s h => ?_⟩
  intro granted
  refine ⟨fun hs p share at_ => ⟨setGranted_taken s h hs p share at_, ?_, ?_, ?_⟩, fun hs f d th clear => setBreaker_judged s h hs f d th clear,
    fun f d th => takeEffect_setBreaker s h f d th _⟩
  · exact (applyTimed_setGranted_taken s h hs p share at_).1
  · exact (applyTimed_setGranted_taken s h hs p share at_).2
  · exact grantReply_gives s h p hs

end Sys2Proof.Machine
end

section
/-! PROOFS. Two statements about start-up fail in states that no run reaches: the witnesses are written out in the proofs. -/
namespace Sys2Proof.Machine
open Sys2Proof

/-- Refutes O22: a failed verification is to be told to the source of the restart as an answer, but `restartCmd` may hold a
source other than host and BMC, and `.ceiling` has no answers at all (`answersTo .ceiling = []`), so no answer was given it. -/
theorem not_resetAndRestartCommandsComplete : ¬ Obligations.ResetAndRestartCommandsComplete := by
  unfold Obligations.ResetAndRestartCommandsComplete
  intro h
  let s : State := { boot := { staging := some 0 }, start := { restartCmd := some (0, .ceiling, 0) } }
  obtain ⟨-, -, -, hstaged, -⟩ := h s ⟨.host, 0, false, 0, 0, []⟩
  have hfail := hstaged 0 false rfl
  rw [if_neg (by decide)] at hfail
  obtain ⟨t, -, htold⟩ := hfail
  have hgiven : Answered _ t .ceiling _ := htold
  exact absurd hgiven.given (by simp [State.answersTo])

/-- Refutes O21: in the clause of phase 4, `∀ n, n < 48 → (t.stack n).st = .lost ↔ …` is the equivalence of
`n < 48 → (t.stack n).st = .lost` with its right side. Stack 48 does not exist, so the left side holds of it and the right
side, that it is lost or found dead, does not. -/
theorem not_startUpCompletionsAct : ¬ Obligations.StartUpCompletionsAct := by
  unfold Obligations.StartUpCompletionsAct
  intro h
  let s : State := { start := { phase := 4 } }
  obtain ⟨-, -, -, -, -, hall, -⟩ := h s 0 0 [] [] [] [] [] []
  obtain ⟨t, -, -, -, -, hstacks⟩ := hall rfl (by decide)
  have hlost := (hstacks 48).1 (fun hn => absurd hn (by decide))
  exact absurd hlost (by decide)

end Sys2Proof.Machine
end

section
/-! PROOFS. O34 fails where two transfers carry one number: a chunk of the first then completes the second. -/
namespace Sys2Proof.Machine
open Sys2Proof

/-- A transfer of the host with the one number that all these share. -/
def transferFive (kind total : Nat) (leading : List Byte) (image : Option Image) : Transfer :=
  { number := 5, kind := kind, placement := 3, airspace := 7, source := 9, cmdSeq := 8, cmdSrc := .host, cmdOp := 0x0501, timeLimit := 600
    older := false, fields := [], adapter := 0, slot := none, leading := some leading, image := image, total := total, done := [], readFails := []
    readBack := [] }

/-- An image with one leaf. -/
def oneLeaf (leaf : List Byte) : Image :=
  { imageId := 1, version := 1, headerHash := [], keyHash := [], layers := 1, hidden := 64, qHeads := 1, kvHeads := 1, headDim := 64, vocab := 100
    maxContext := 16384, classMask := 1, maxDepth := 16, prefillPct := 50, rrPct := 6, decodeLen := 500, exchange := 0, absorb := 0, period := 1200
    adapterRank := 0, stages := [], fields := [], leaves := [leaf] }

/-- An adapter load that wants two chunks; its leading part names the key by its hash. -/
def adapterLoad : Transfer := transferFive 3 2 (List.replicate 176 0 ++ sha512 [1, 2, 3]) (some (oneLeaf (leafOf 0 [7])))

/-- Chunk 0 of the adapter load waits for its hash; behind the load stands a repair of the same number that has nothing to repair. -/
def twoOfOneNumber : State :=
  { transfers := [adapterLoad, transferFive 2 0 [] none], chunkStore := [(5, 0, [7])], airspaces := [(7, { keys := [(0, [1, 2, 3])] })] }

set_option maxRecDepth 20000 in
theorem twoOfOneNumber_key : twoOfOneNumber.keyOf 7 (bytesAt (adapterLoad.leading.getD []) 176 64) ≠ none := by decide +kernel

theorem leaf_oneLeaf (kind total : Nat) (leading leaf : List Byte) :
    leaf = (transferFive kind total leading (some (oneLeaf leaf))).leaf 0 := rfl

/-- The chunk ends both: the search for a complete transfer of the number finds the repair. -/
theorem chunkWritten_ends_twoOfOneNumber : (opChunkWritten 5 0 twoOfOneNumber).transfers = [] := by decide +kernel

/-- Refutes O34: the clause of an adapter's chunk leaves the transfer open where chunks are still wanted, but where a second transfer carries
the same number and is complete, CHUNK_WRITTEN ends both. -/
theorem not_chunksAreCheckedAndWritten : ¬ Obligations.ChunksAreCheckedAndWritten := by
  unfold Obligations.ChunksAreCheckedAndWritten
  intro h
  obtain ⟨-, -, -, -, -, hwritten, -⟩ := h twoOfOneNumber
  obtain ⟨-, -, -, hpackage⟩ := hwritten 5 0 adapterLoad [7] rfl rfl
  obtain ⟨t, ht, hfound, -⟩ := hpackage twoOfOneNumber_key (leaf_oneLeaf ..) (.inl rfl) (by decide)
  have hnone : t.transfers = [] := by
    rw [← chunkWritten_ends_twoOfOneNumber]
    exact (congrArg State.transfers (Host.Outcome.next.inj ht)).symm
  have hlost : t.transfers.find? (fun y => y.number = 5) = none := by rw [hnone]; rfl
  exact absurd (hlost.symm.trans hfound) (by simp)

end Sys2Proof.Machine
end

section
/-! SUPPORT. Folds of the module, register frames, and what an event leaves unchanged (R374, R394). -/

namespace Sys2Proof.Machine

/-! ### Folds and register frames -/

/-- A relation that is kept at each step of a fold is kept by the fold. -/
theorem foldl_related {α : Type} {R : State → State → Prop} (hrefl : ∀ s, R s s) (htrans : ∀ {s t u}, R s t → R t u → R s u)
    (l : List α) (g : State → α → State) (h : ∀ t x, R t (g t x)) (s : State) : R s (l.foldl g s) := by
  induction l generalizing s with
  | nil => exact hrefl s
  | cons a l ih => exact htrans (h s a) (ih (g s a))

theorem mem_coresOf (f c : Nat) : c ∈ coresOf f ↔ coreField c = f := by
  simp only [coresOf, coreField, List.mem_map, List.mem_range]
  exact ⟨fun ⟨n, hn, e⟩ => by omega, fun h => ⟨c % 32, by omega, by omega⟩⟩

/-- A state without its registers. -/
def State.sansRegs (s : State) : State := { s with regs := [] }

@[simp] theorem State.sansRegs_put (s : State) (f : Fld) (v : Nat) : (s.put f v).sansRegs = s.sansRegs := rfl
@[simp] theorem State.sansRegs_mark (s : State) (f : Fld) : (s.mark f).sansRegs = s.sansRegs := rfl
@[simp] theorem State.sansRegs_bump (s : State) (f : Fld) : (s.bump f).sansRegs = s.sansRegs := rfl

theorem forAll_sansRegs (l : List Nat) (g : State → Nat → State) (h : ∀ t x, (g t x).sansRegs = t.sansRegs) (s : State) :
    (s.forAll l g).sansRegs = s.sansRegs := forAll_keeps State.sansRegs l g h s

theorem eq_of_sansRegs {s t : State} (h : t.sansRegs = s.sansRegs) : t = { s with regs := t.regs } :=
  congrArg (fun u : State => { u with regs := t.regs }) h

/-! ### Lookups in equal tables -/

theorem reg_congr {s t : State} (h : t.regs = s.regs) (a : Nat) : t.reg a = s.reg a := by simp only [State.reg, h]
theorem get_congr {s t : State} (h : t.regs = s.regs) (f : Fld) : t.get f = s.get f := by simp only [State.get, reg_congr h]
theorem get_congr_reg {s t : State} {f : Fld} (h : t.reg f.addr = s.reg f.addr) : t.get f = s.get f := by simp only [State.get, h]
theorem field_congr {s t : State} (h : t.fields = s.fields) (f : Nat) : t.field f = s.field f := by simp only [State.field, h]
theorem core_congr {s t : State} (h : t.cores = s.cores) (c : Nat) : t.core c = s.core c := by simp only [State.core, h]
theorem plc_congr {s t : State} (h : t.placements = s.placements) (p : Nat) : t.plc p = s.plc p := by simp only [State.plc, h]
theorem asp_congr {s t : State} (h : t.airspaces = s.airspaces) (a : Nat) : t.asp a = s.asp a := by simp only [State.asp, h]
theorem sess_congr {s t : State} (h : t.sessions = s.sessions) (n : Nat) : t.sess n = s.sess n := by simp only [State.sess, h]
theorem stack_congr {s t : State} (h : t.hbm = s.hbm) (n : Nat) : t.stack n = s.stack n := by simp only [State.stack, h]
theorem answersTo_congr {s t : State} (ho : t.out = s.out) (hh : t.host.held = s.host.held) (o : Src) : t.answersTo o = s.answersTo o := by
  cases o <;> simp only [State.answersTo, ho, hh]

/-! ### Events (R374, R394) -/

/-- The registers that recording an event moves. -/
def eventRegs : List Nat := [Reg.Hwin.EVENT_SEQ.addr, Reg.Hwin.EVT_DROPPED.addr, Reg.Hwin.EVT_OVERFLOW.addr]

/-- `t` is `s` after events: event bookkeeping of the host interface moved and records left; every answer stands. -/
structure EventFrame (s t : State) : Prop where
  out : s.out <+: t.out
  frame : t = { s with
    regs := t.regs
    out := t.out
    host := { s.host with
      eventSeq := t.host.eventSeq
      eventQueue := t.host.eventQueue
      sigEvent := t.host.sigEvent
      sigUrgent := t.host.sigUrgent
      late := t.host.late } }
  regs : ∀ a, a ∉ eventRegs → t.reg a = s.reg a
  answers : ∀ o : Src, t.answersTo o = s.answersTo o

theorem EventFrame.refl (s : State) : EventFrame s s := ⟨List.prefix_rfl, rfl, fun _ _ => rfl, fun _ => rfl⟩

theorem EventFrame.trans {s t u : State} (h : EventFrame s t) (k : EventFrame t u) : EventFrame s u := by
  refine ⟨h.out.trans k.out, ?_, fun a ha => (k.regs a ha).trans (h.regs a ha), fun o => (k.answers o).trans (h.answers o)⟩
  rw [k.frame, h.frame]

theorem EventFrame.put (s : State) (f : Fld) (v : Nat) (h : f.addr ∈ eventRegs) : EventFrame s (s.put f v) :=
  ⟨List.prefix_rfl, rfl, fun a ha => State.reg_put_other s f v a (fun e => ha (e ▸ h)), fun o => by cases o <;> rfl⟩

theorem EventFrame.host (s : State) (n : Nat) (q l : List Event) (b c : Bool) : EventFrame s
    (s.updHost fun h => { h with eventSeq := n, eventQueue := q, sigEvent := b, sigUrgent := c, late := l }) :=
  ⟨List.prefix_rfl, rfl, fun _ _ => rfl, fun o => by cases o <;> rfl⟩

theorem EventFrame.emit (s : State) (e : Event) : EventFrame s (s.emit (.event e)) := by
  refine ⟨⟨_, rfl⟩, rfl, fun _ _ => rfl, fun o => ?_⟩
  cases o <;> simp [State.answersTo, repliesIn_append, repliesIn, bmcRepliesIn_append, bmcRepliesIn]

theorem writeEvent_frame (s : State) (e : Event) : EventFrame s (s.writeEvent e) :=
  ((EventFrame.emit s e).trans (EventFrame.put _ Reg.Hwin.EVENT_SEQ e.seq (by simp [eventRegs]))).trans
    (EventFrame.host _ s.host.eventSeq s.host.eventQueue s.host.late true _)

theorem recordEvent_frame (s : State) (e : Event) : EventFrame s (s.recordEvent e) := by
  unfold State.recordEvent
  split
  · exact EventFrame.refl s
  · have hseq (n : Nat) : EventFrame s (s.updHost fun h => { h with eventSeq := n }) :=
      EventFrame.host s n s.host.eventQueue s.host.late s.host.sigEvent s.host.sigUrgent
    simp only
    split
    · exact (hseq _).trans (writeEvent_frame _ _)
    · split
      · exact (hseq _).trans (EventFrame.host _ _ _ s.host.late s.host.sigEvent s.host.sigUrgent)
      · exact ((hseq _).trans (EventFrame.put _ Reg.Hwin.EVT_DROPPED _ (by simp [eventRegs]))).trans
          (EventFrame.put _ Reg.Hwin.EVT_OVERFLOW _ (by simp [eventRegs]))

theorem recordRuns_frame (s : State) (e : Event) (l : List (List Nat × Bool)) :
    EventFrame s (l.foldl (fun s (run : List Nat × Bool) => s.recordEvent { e with stages := run.1, more := run.2 }) s) :=
  foldl_related EventFrame.refl EventFrame.trans l _ (fun t _ => recordEvent_frame t _) s

theorem event_frame (s : State) (e : Event) : EventFrame s (s.event e) := by
  unfold State.event
  simp only
  split
  · exact recordRuns_frame s { e with tick := s.tick.count } _
  · exact EventFrame.host s s.host.eventSeq s.host.eventQueue _ s.host.sigEvent s.host.sigUrgent

/-- A record is written, queued, masked, or dropped with EVT_OVERFLOW set. -/
theorem recordEvent_reported (s : State) (e : Event) : eventMasked s.host.mask e.code = true ∨ (s.recordEvent e).get Reg.Hwin.EVT_OVERFLOW = 1
    ∨ ∃ l, (s.recordEvent e).eventsGiven = s.eventsGiven ++ l ∧ ∃ x ∈ l, x.code = e.code := by
  unfold State.recordEvent
  split
  · next hm => exact .inl hm
  · refine .inr ?_
    simp only
    split
    · next hroom =>
      refine .inr ⟨[{ e with seq := seqNext s.host.eventSeq }], ?_, _, List.mem_singleton_self _, rfl⟩
      have hempty : s.host.eventQueue = [] := by
        simp only [State.updHost_host, Bool.and_eq_true, List.isEmpty_iff] at hroom
        exact hroom.1
      simp [State.eventsGiven, State.writeEvent, eventsIn_append, eventsIn, hempty]
    · split
      · exact .inr ⟨[{ e with seq := seqNext s.host.eventSeq }], by simp [State.eventsGiven], _, List.mem_singleton_self _, rfl⟩
      · exact .inl (State.get_put_mod _ _ _ (by decide) (by decide))

/-- An event without stages is one record. -/
theorem event_reported (s : State) (e : Event) (he : e.stages = []) : Reported s (s.event e) e.code := by
  unfold Reported State.event
  cases hz : s.zenithServing
  · simp only [Bool.false_eq_true, if_false]
    exact ⟨[{ e with tick := s.tick.count }], rfl, _, List.mem_singleton_self _, rfl⟩
  · simp only [if_true, he]
    exact recordEvent_reported s { e with tick := s.tick.count, stages := [], more := false }

end Sys2Proof.Machine
end

section
/-! SUPPORT. Gauges move registers alone, and the flag that a live placement lacks a twin (R35, R59, R173, R174). -/

namespace Sys2Proof.Machine

theorem gaugeFields_sansRegs (s : State) : s.gaugeFields.sansRegs = s.sansRegs := by
  refine forAll_sansRegs _ _ (fun t f => ?_) s
  simp only
  split
  · rfl
  · simp only [State.sansRegs_put]

theorem gaugeDrain_sansRegs (s : State) : s.gaugeDrain.sansRegs = s.sansRegs := by
  unfold State.gaugeDrain
  simp only [State.sansRegs_put]
  exact forAll_sansRegs _ _ (fun t p => by simp only [State.sansRegs_put]) s

theorem gaugePlan_sansRegs (s : State) : s.gaugePlan.sansRegs = s.sansRegs :=
  forAll_sansRegs _ _ (fun t p => by simp only [State.sansRegs_put]) s

theorem gaugeTune_sansRegs (s : State) (p : Nat) : (s.gaugeTune p).sansRegs = s.sansRegs := by
  simp only [State.gaugeTune, State.sansRegs_put]

/-- `t` is `s` but for registers and the flag that a live placement lacks a twin, which follows the fields (R173). -/
structure PlcGauged (s t : State) : Prop where
  frame : t = { s with placements := t.placements, regs := t.regs }
  plc : ∀ p, t.plc p = { s.plc p with twinNone := (t.plc p).twinNone }

theorem PlcGauged.refl (s : State) : PlcGauged s s := ⟨rfl, fun _ => rfl⟩

theorem PlcGauged.trans {s t u : State} (h : PlcGauged s t) (k : PlcGauged t u) : PlcGauged s u :=
  ⟨by rw [k.frame, h.frame], fun p => by rw [k.plc p, h.plc p]⟩

theorem PlcGauged.of_sansRegs {s t : State} (h : t.sansRegs = s.sansRegs) : PlcGauged s t := by
  have ht := eq_of_sansRegs h
  rw [ht]
  exact ⟨rfl, fun _ => rfl⟩

theorem PlcGauged.twinNone (s : State) (p : Nat) (b : Bool) : PlcGauged s (s.updPlc p fun x => { x with twinNone := b }) := by
  refine ⟨rfl, fun q => ?_⟩
  by_cases hq : q = p
  · subst hq; simp
  · rw [State.plc_updPlc_other s p q _ hq]

theorem gaugeWeights_gauged (s : State) : PlcGauged s s.gaugeWeights := by
  refine (foldl_related PlcGauged.refl PlcGauged.trans _ _ (fun t p => ?_) s).trans (PlcGauged.of_sansRegs (forAll_sansRegs _ _ (fun t f => ?_) _))
  · refine (PlcGauged.twinNone t p ((t.plc p).live && (t.fieldsOf p).any fun f => (t.twinComplete f).isNone)).trans (.of_sansRegs ?_)
    simp only [State.sansRegs_put]
  · simp only
    split
    · rfl
    · simp only [State.sansRegs_put]

/-! ### Fields and placements under updates -/

theorem setBank_bank_same (x : FieldSt) (i : Nat) (b : Bank) : (x.setBank i b).bank i = b := by
  by_cases hi : i = 0 <;> simp [FieldSt.setBank, FieldSt.bank, hi]

theorem bank_updBank (s : State) (f i : Nat) (g : Bank → Bank) : ((s.updBank f i g).field f).bank i = g ((s.field f).bank i) := by
  rw [State.updBank, State.field_updField, setBank_bank_same]

theorem field_updBank_other (s : State) (f i k : Nat) (g : Bank → Bank) (h : k ≠ f) : (s.updBank f i g).field k = s.field k :=
  State.field_updField_other s f k _ h

theorem answersTo_frame {s t : State} (ho : t.out = s.out) (hh : t.host = s.host) (o : Src) : t.answersTo o = s.answersTo o :=
  answersTo_congr ho (by rw [hh]) o

end Sys2Proof.Machine
end

section
/-! SUPPORT. Mirrors: what building and dropping them leaves unchanged (R164, R165). -/
namespace Sys2Proof.Machine

/-- Fields moved, events were recorded, and registers with them; every answer stands. -/
structure MirrorsMoved (s t : State) : Prop where
  frame : t = { s with fields := t.fields, regs := t.regs, host := t.host, out := t.out }
  answers : ∀ o : Src, t.answersTo o = s.answersTo o

theorem MirrorsMoved.refl (s : State) : MirrorsMoved s s := ⟨rfl, fun _ => rfl⟩
theorem MirrorsMoved.trans {s t u : State} (h : MirrorsMoved s t) (k : MirrorsMoved t u) : MirrorsMoved s u :=
  ⟨by rw [k.frame, h.frame], fun o => (k.answers o).trans (h.answers o)⟩
theorem MirrorsMoved.field (s : State) (f : Nat) (g : FieldSt → FieldSt) : MirrorsMoved s (s.updField f g) := ⟨rfl, fun o => by cases o <;> rfl⟩
theorem MirrorsMoved.bank (s : State) (f i : Nat) (g : Bank → Bank) : MirrorsMoved s (s.updBank f i g) := .field s f _
theorem MirrorsMoved.of_sansRegs {s t : State} (h : t.sansRegs = s.sansRegs) : MirrorsMoved s t := by
  have ht := eq_of_sansRegs h
  rw [ht]
  exact ⟨rfl, fun o => by cases o <;> rfl⟩
theorem MirrorsMoved.of_event (s : State) (e : Event) : MirrorsMoved s (s.event e) :=
  ⟨by rw [(event_frame s e).frame], (event_frame s e).answers⟩
theorem MirrorsMoved.fold {α : Type} (l : List α) (g : State → α → State) (h : ∀ t x, MirrorsMoved t (g t x)) (s : State) : MirrorsMoved s (l.foldl g s) :=
  foldl_related MirrorsMoved.refl MirrorsMoved.trans l g h s

theorem beginWrite_moved (s : State) (f i : Nat) : MirrorsMoved s (s.beginWrite f i) := by
  unfold State.beginWrite
  simp only
  have hput (r : Fld) (n : Nat) : MirrorsMoved s ((s.updBank f i fun b => { b with cycles := b.cycles + 1 }).put r n) :=
    (MirrorsMoved.bank s f i _).trans (.of_sansRegs (State.sansRegs_put ..))
  split
  · exact (hput _ _).trans (.of_event _ _)
  · exact hput _ _

theorem startMirror_moved (s : State) (f h : Nat) : MirrorsMoved s (s.startMirror f h) := by
  unfold State.startMirror State.updStandby
  exact MirrorsMoved.trans (((MirrorsMoved.field s f _).trans (.field _ h _)).trans (beginWrite_moved _ h _)) (.bank _ h _ _)

theorem dropMirror_moved (s : State) (f : Nat) : MirrorsMoved s (s.dropMirror f) := MirrorsMoved.bank s f _ _

theorem buildTwins_moved (s : State) (p : Nat) : MirrorsMoved s (s.buildTwins p) := by
  unfold State.buildTwins
  simp only
  split
  · exact MirrorsMoved.refl s
  · refine MirrorsMoved.trans ?_ (MirrorsMoved.fold _ _ (fun t f => ?nearest) _)
    refine MirrorsMoved.trans ?_ (MirrorsMoved.fold _ _ (fun t e => ?named) _)
    refine MirrorsMoved.trans (MirrorsMoved.fold _ _ (fun t f => ?keep) s) (MirrorsMoved.fold _ _ (fun t h => ?give) _)
    case keep =>
      split
      · split
        · exact MirrorsMoved.refl t
        · exact .field t f _
      · exact MirrorsMoved.refl t
    case give =>
      split
      · split
        · exact MirrorsMoved.refl t
        · exact (MirrorsMoved.field t h _).trans (dropMirror_moved _ h)
      · exact MirrorsMoved.refl t
    case named =>
      split
      · exact startMirror_moved t _ _
      · exact MirrorsMoved.refl t
    case nearest =>
      split
      · exact MirrorsMoved.refl t
      · split
        · exact startMirror_moved t f _
        · exact .of_event t _

theorem buildTwins_off (s : State) (p : Nat) (h : s.twinProtection = false ∨ (s.plc p).live = false) : s.buildTwins p = s := by
  unfold State.buildTwins
  obtain h | h := h <;> simp [h]

theorem dropMirrors_moved (s : State) (p : Nat) : MirrorsMoved s (s.dropMirrors p) :=
  MirrorsMoved.fold _ _ (fun t f => (dropMirror_moved t f).trans (.field _ f _)) s

/-! ### One bank of each of some fields -/

theorem field_forAll_updBank_other (l : List Nat) (i k : Nat) (g : Bank → Bank) (s : State) (h : k ∉ l) :
    (s.forAll l fun s f => s.updBank f i g).field k = s.field k := by
  induction l generalizing s with
  | nil => rfl
  | cons f l ih =>
    simp only [List.mem_cons, not_or] at h
    exact (ih (s.updBank f i g) h.2).trans (field_updBank_other s f i k g h.1)

/-- A change of a bank that is done more than once is done. -/
theorem bank_forAll_updBank (l : List Nat) (i k : Nat) (g : Bank → Bank) (s : State) (hg : ∀ b, g (g b) = g b) (h : k ∈ l) :
    ((s.forAll l fun s f => s.updBank f i g).field k).bank i = g ((s.field k).bank i) := by
  induction l generalizing s with
  | nil => exact absurd h (by simp)
  | cons f l ih =>
    change (((s.updBank f i g).forAll l fun s f => s.updBank f i g).field k).bank i = _
    by_cases hkf : k = f
    · subst hkf
      by_cases hl : k ∈ l
      · rw [ih _ hl, bank_updBank, hg]
      · rw [field_forAll_updBank_other l i k g _ hl, bank_updBank]
    · rw [ih _ ((List.mem_cons.1 h).resolve_left hkf), field_updBank_other s f i k g hkf]

end Sys2Proof.Machine
end

section
/-! SUPPORT. Drains: their beginning, their end and the end of a rollback hold (R26, R30, R36, R162, R163, R175). -/
namespace Sys2Proof.Machine
open Sys2Proof

/-! ### The beginning of a drain -/

/-- `t` is `s` after Gust messages to some targets were sent. -/
structure GustSent (s t : State) (targets : List Nat) : Prop where
  frame : t = { s with nextRequest := t.nextRequest, gust := t.gust, out := t.out }
  out : s.out <+: t.out
  answers : ∀ o : Src, t.answersTo o = s.answersTo o
  gust : t.gust.map Prod.snd = s.gust.map Prod.snd ++ targets

theorem sendGust_sent (s : State) (n : Nat) : GustSent s (s.sendGust n) [n] := by
  refine ⟨rfl, ⟨[.gust s.nextRequest n], rfl⟩, fun o => ?_, by simp [State.sendGust]⟩
  cases o <;> simp [State.sendGust, State.answersTo, repliesIn_append, repliesIn, bmcRepliesIn_append, bmcRepliesIn]

theorem GustSent.trans {s t u : State} {l k : List Nat} (h : GustSent s t l) (g : GustSent t u k) : GustSent s u (l ++ k) :=
  ⟨by rw [g.frame, h.frame], h.out.trans g.out, fun o => (g.answers o).trans (h.answers o), by rw [g.gust, h.gust, List.append_assoc]⟩

theorem sendGusts_sent (l : List Nat) (target : Nat → Nat) (s : State) : GustSent s (s.forAll l fun s f => s.sendGust (target f)) (l.map target) := by
  induction l generalizing s with
  | nil => exact ⟨rfl, List.prefix_rfl, fun _ => rfl, by simp [State.forAll]⟩
  | cons f l ih => exact (sendGust_sent s (target f)).trans (ih (s.sendGust (target f)))

/-- The drain that a command of the host begins. -/
def drainOrdered (s : State) (h : CmdHdr) (op p limit req : Nat) (flip : Bool) (plan : Option Plan) : Drain :=
  { isFlip := flip, cmdSeq := h.seq, cmdSrc := .host, cmdOp := opOf h op, from_ := s.tick.count + 1, limit := limit, newPlan := plan, periodRequest := req
    heldPeriod := if s.tick.period < s.periodWith p req then some (s.periodWith p req) else none }

/-- The outcome begins a drain: PENDING, with the order to the stewards of the placement's fields. -/
def BeginsDrain (o : Host.Outcome State Fault Refusal) (s : State) (h : CmdHdr) (op p limit req : Nat) (flip : Bool) (plan : Option Plan) : Prop :=
  ∃ e, Gives o e .host (pendingOf h op)
    ∧ e = { s with placements := e.placements, regs := e.regs, nextRequest := e.nextRequest, gust := e.gust, out := e.out }
    ∧ s.out <+: e.out ∧ (∀ q : Src, e.answersTo q = s.answersTo q)
    ∧ e.gust.map Prod.snd = s.gust.map Prod.snd ++ (s.fieldsOf p).map stewardId
    ∧ (∀ q, q ≠ p → e.plc q = s.plc q)
    ∧ e.plc p = { s.plc p with drain := some (drainOrdered s h op p limit req flip plan) }

def State.withDrain (s : State) (p : Nat) (d : Option Drain) : State := s.updPlc p fun x => { x with drain := d }

theorem withDrain_plc (s : State) (p : Nat) (d : Option Drain) : (s.withDrain p d).plc p = { s.plc p with drain := d } := State.plc_updPlc ..

theorem withDrain_plc_other (s : State) (p q : Nat) (d : Option Drain) (h : q ≠ p) : (s.withDrain p d).plc q = s.plc q := State.plc_updPlc_other s p q _ h

theorem withDrain_frame (s : State) (p : Nat) (d : Option Drain) : s.withDrain p d = { s with placements := (s.withDrain p d).placements } := rfl

theorem startDrain_eq (s : State) (h : CmdHdr) (op p limit req : Nat) (flip : Bool) (plan : Option Plan) (hs : h.src = .host) :
    s.startDrain h op p limit req flip plan = (((s.withDrain p (some (drainOrdered s h op p limit req flip plan))).forAll (s.fieldsOf p)
      fun s f => s.sendGust (stewardId f)).gaugeDrain).pend h op [] := by
  rw [State.startDrain, hs]
  rfl

theorem startDrain_begins (s : State) (h : CmdHdr) (op p limit req : Nat) (flip : Bool) (plan : Option Plan) (hs : h.src = .host) :
    BeginsDrain (.next (s.startDrain h op p limit req flip plan)) s h op p limit req flip plan := by
  rw [startDrain_eq s h op p limit req flip plan hs]
  have hplc := withDrain_plc s p (some (drainOrdered s h op p limit req flip plan))
  have hother := fun q => withDrain_plc_other s p q (some (drainOrdered s h op p limit req flip plan))
  have hframe := withDrain_frame s p (some (drainOrdered s h op p limit req flip plan))
  have hsent := sendGusts_sent (s.fieldsOf p) stewardId (s.withDrain p (some (drainOrdered s h op p limit req flip plan)))
  have he := eq_of_sansRegs (gaugeDrain_sansRegs ((s.withDrain p (some (drainOrdered s h op p limit req flip plan))).forAll (s.fieldsOf p)
    fun s f => s.sendGust (stewardId f)))
  have hout : (s.withDrain p (some (drainOrdered s h op p limit req flip plan))).out = s.out := rfl
  have hans (q : Src) : (s.withDrain p (some (drainOrdered s h op p limit req flip plan))).answersTo q = s.answersTo q := answersTo_frame rfl rfl q
  have hgust : (s.withDrain p (some (drainOrdered s h op p limit req flip plan))).gust = s.gust := rfl
  generalize s.withDrain p (some (drainOrdered s h op p limit req flip plan)) = v at hplc hother hframe hsent he hout hans hgust ⊢
  generalize (v.forAll (s.fieldsOf p) fun s f => s.sendGust (stewardId f)) = u at hsent he ⊢
  generalize u.gaugeDrain = e at he ⊢
  have hsame (q : Nat) : e.plc q = v.plc q := plc_congr (by rw [he, hsent.frame]) q
  refine ⟨e, ⟨_, rfl, hs ▸ answered_pend e h op (.inl hs)⟩, ?_, ?_, fun q => ?_, ?_, fun q hq => (hsame q).trans (hother q hq), (hsame p).trans hplc⟩
  · rw [he, hsent.frame, hframe]
  · rw [he]; exact hout ▸ hsent.out
  · rw [he]; exact (hsent.answers q).trans (hans q)
  · rw [he]; exact hgust ▸ hsent.gust

/-! ### FLIP and PLAN_LOAD -/

section
variable {s : State} {h : CmdHdr} {p : Nat} (hs : h.src = .host) (hp : p < 4)
include hs hp

theorem flip_checked (l : Nat) (hl : h.expert = false ∨ l = 65535 ∨ (1 ≤ l ∧ l ≤ 3600)) : exec (.flip h p l) s = .next (
    let x := s.plc p
    if x.drain.isSome || !x.moves.isEmpty then s.answer h 0x0303 .busy
    else if !(x.imageState == .staged || (x.imageState == .previous && decide (0 < x.holdLeft))) then s.answer h 0x0303 .notPermitted
    else match x.staged with
      | none => s.answer h 0x0303 .notPermitted
      | some i => s.startDrain h 0x0303 p (if h.expert && l ≠ 0xFFFF then l else 30) i.period true none) := by
  have hfields : ∀ e ∈ [(32, placementOk p), (34, !h.expert || inRange 16 l 1 3600)], e.2 = true := by
    simp only [List.mem_cons, List.not_mem_nil, or_false, forall_eq_or_imp, forall_eq, placementOk_iff, expertTest_iff h _ _ (inRange_iff ..), Setting, Expert]
    exact ⟨hp, fun he => hl.resolve_left (by simp [he])⟩
  exact congrArg Host.Outcome.next ((ordered_host s h 0x0303 _ hs).trans (checked_ok s h 0x0303 _ _ hfields))

theorem planLoad_checked (period sized replay : Nat) (hr : h.expert = false ∨ ((period = 65535 ∨ (period ≤ 48000 ∧ period % 8 = 0))
      ∧ (sized = 255 ∨ sized ≤ 60) ∧ (replay = 255 ∨ (2 ≤ replay ∧ replay ≤ 20)))) : exec (.planLoad h p period sized replay) s = .next (
    let x := s.plc p
    if !x.live then s.answer h 0x0304 .notPermitted
    else if x.drain.isSome || !x.moves.isEmpty || s.installing p then s.answer h 0x0304 .busy
    else match x.image with
      | none => s.answer h 0x0304 .notPermitted
      | some i =>
        let own := !h.expert || (unchanged 8 sized && unchanged 8 replay)
        let share := if h.expert then setting 8 sized i.prefillPct else i.prefillPct
        let rr := if h.expert then setting 8 replay i.rrPct else i.rrPct
        match planPeriod i.decodeLen share i.exchange i.absorb rr with
        | none => s.badParam h 0x0304 (if own then 32 else 36)
        | some need =>
          if own && need ≠ i.period then s.badParam h 0x0304 32
          else if h.expert && !unchanged 16 period && period < need then s.badParam h 0x0304 34
          else
            let req := if h.expert && !unchanged 16 period then period else need
            if !s.planOk p i i.decodeLen i.exchange i.absorb (computeWindow i.decodeLen share) req then s.badParam h 0x0304 32
            else s.startDrain h 0x0304 p 30 req false (some (s.makePlan p i share rr req))) := by
  have hfields : ∀ e ∈ [(32, placementOk p), (34, !h.expert || unchanged 16 period || (decide (period ≤ 48000) && period % 8 == 0)),
      (36, !h.expert || inRange 8 sized 0 60), (37, !h.expert || inRange 8 replay 2 20)], e.2 = true := by
    cases he : h.expert
    · simpa [he] using hp
    · obtain ⟨h1, h2, h3⟩ := hr.resolve_left (by simp [he])
      simp [hp, Setting, unchanged, h1, h2, h3]
  exact congrArg Host.Outcome.next ((ordered_host s h 0x0304 _ hs).trans (checked_ok s h 0x0304 _ _ hfields))

end

end Sys2Proof.Machine
end

section
/-! SUPPORT. A plan load comes into force, and what leaves a drain as it stands (R30, R33, R36, R60). -/
namespace Sys2Proof.Machine
open Sys2Proof

/-! ### Loading a plan -/

/-- Fields, cores, links, messages under way and registers alone moved. -/
structure Reloaded (s t : State) : Prop where
  frame : t = { s with fields := t.fields, cores := t.cores, links := t.links, gust := t.gust, regs := t.regs }

theorem Reloaded.refl (s : State) : Reloaded s s := ⟨rfl⟩
theorem Reloaded.trans {s t u : State} (h : Reloaded s t) (k : Reloaded t u) : Reloaded s u := ⟨by rw [k.frame, h.frame]⟩
theorem Reloaded.of_sansRegs {s t : State} (h : t.sansRegs = s.sansRegs) : Reloaded s t := ⟨by rw [eq_of_sansRegs h]⟩
theorem Reloaded.field (s : State) (f : Nat) (g : FieldSt → FieldSt) : Reloaded s (s.updField f g) := ⟨rfl⟩
theorem Reloaded.core (s : State) (c : Nat) (g : CoreSt → CoreSt) : Reloaded s (s.updCore c g) := ⟨rfl⟩
theorem Reloaded.link (s : State) (g : LinksSt → LinksSt) : Reloaded s (s.updLinks g) := ⟨rfl⟩
theorem Reloaded.fold {α : Type} (l : List α) (g : State → α → State) (h : ∀ t x, Reloaded t (g t x)) (s : State) : Reloaded s (l.foldl g s) :=
  foldl_related Reloaded.refl Reloaded.trans l g h s

theorem ackGust_reloaded (s : State) (n : Nat) : Reloaded s (s.ackGust n) := by
  unfold State.ackGust
  split
  · exact Reloaded.refl s
  · exact ⟨rfl⟩

theorem updRouter_reloaded (s : State) (u : Nat) (g : RouterSt → RouterSt) : Reloaded s (s.updRouter u g) := ⟨rfl⟩

theorem writeGroups_reloaded (s : State) (p : Nat) : Reloaded s (s.writeGroups p) := by
  unfold State.writeGroups
  split
  · exact Reloaded.refl s
  · exact Reloaded.fold _ _ (fun t u => updRouter_reloaded t u _) s

theorem loadField_reloaded (s : State) (f bank : Nat) : Reloaded s (s.loadField f bank) :=
  Reloaded.fold _ _ (fun t _ => Reloaded.core t _ _) s

theorem loadPlan_reloaded (s : State) (p : Nat) : Reloaded s (s.loadPlan p) := by
  unfold State.loadPlan
  simp only
  refine Reloaded.trans ?_ (Reloaded.fold _ _ (fun t f => ?_) _)
  · split
    · exact (Reloaded.link s _).trans (writeGroups_reloaded _ p)
    · exact Reloaded.refl s
  · refine Reloaded.trans ?_ (Reloaded.field _ f _)
    refine Reloaded.trans ?_ (Reloaded.fold _ _ (fun t e => Reloaded.core t _ _) _)
    exact (ackGust_reloaded t _).trans (loadField_reloaded _ f _)

theorem gaugeRouter_sansRegs (s : State) (u : Nat) : (s.gaugeRouter u).sansRegs = s.sansRegs := by
  simp only [State.gaugeRouter, State.sansRegs_put]

theorem swapTables_reloaded (s : State) (u : Nat) : Reloaded s (s.swapTables u) := by
  unfold State.swapTables
  split
  · exact ((ackGust_reloaded s _).trans (updRouter_reloaded _ u _)).trans (.of_sansRegs (gaugeRouter_sansRegs _ u))
  · exact Reloaded.refl s

theorem periodOf_congr {s t : State} (h : t.placements = s.placements) : t.periodOf = s.periodOf := by
  simp only [State.periodOf, plc_congr h]

/-- The placement whose plan comes into force without a new live bank, and the period with it. -/
structure PlanTaken (s t : State) (p : Nat) (plan : Plan) : Prop where
  frame : t = { s with placements := t.placements, regs := t.regs, tick := { s.tick with period := t.periodOf } }
  plc : t.plc p = { s.plc p with plan := plan, hostGrant := plan.sized, grant := (t.plc p).grant, grantOrder := none }

theorem planInForce_taken (s : State) (p : Nat) (plan : Plan) : PlanTaken s (s.planInForce p plan false) p plan := by
  have hgrant := State.plc_updPlc s p fun x => { x with plan := plan, hostGrant := plan.sized, grant := plan.sized, grantOrder := none }
  unfold State.planInForce
  generalize hu : (s.updPlc p fun x => { x with plan := plan, hostGrant := plan.sized, grant := plan.sized, grantOrder := none }) = u at hgrant ⊢
  have hframe : u = { s with placements := u.placements } := by rw [← hu]; rfl
  simp only [Bool.false_eq_true, if_false]
  have hv := State.plc_updPlc u p fun x => { x with grant := u.shareInForce p }
  have hvf : (u.updPlc p fun x => { x with grant := u.shareInForce p })
    = { s with placements := (u.updPlc p fun x => { x with grant := u.shareInForce p }).placements } := by rw [hframe]; rfl
  generalize (u.updPlc p fun x => { x with grant := u.shareInForce p }) = v at hv hvf ⊢
  have hw := eq_of_sansRegs ((gaugeDrain_sansRegs _).trans (gaugePlan_sansRegs (v.updTick fun t => { t with period := v.periodOf })))
  generalize ((v.updTick fun t => { t with period := v.periodOf }).gaugePlan).gaugeDrain = w at hw ⊢
  have hplc : w.placements = v.placements := by rw [hw]; rfl
  refine ⟨?_, ?_⟩
  · rw [periodOf_congr hplc, hw, hvf]
    rfl
  · rw [plc_congr hplc, hv, hgrant]

/-! ### Due drains -/

/-- Whether a drain of a placement is due (R36, R162). -/
def State.isDue (s : State) (p : Nat) (d : Drain) : Prop :=
  d.from_ ≤ s.tick.count ∧ s.oldSessions p = [] ∧ (d.heldPeriod = none ∨ s.promisesElsewhere p = false)

theorem drainDue_iff (s : State) (p : Nat) (d : Drain) (h : (s.plc p).drain = some d) : s.drainDue p = true ↔ s.tick.running = true ∧ s.isDue p d := by
  simp [State.drainDue, h, State.isDue, and_assoc]

theorem atTickStart_iff (s : State) : s.atTickStart = true ↔ s.tick.running = true ∧ s.tick.started = true ∧ s.tick.slotDone = false := by
  simp [State.atTickStart, and_assoc]

theorem completeDrain_waits (s : State) (p : Nat) (h : ∀ d, (s.plc p).drain = some d → ¬s.isDue p d) : s.completeDrain p = s := by
  unfold State.completeDrain
  split
  · rfl
  · next d hd => exact if_pos (by simpa using mt (drainDue_iff s p d hd).1 fun hdue => h d hd hdue.2)

theorem completeDrain_planLoad (s : State) (p : Nat) (d : Drain) (hd : (s.plc p).drain = some d) (hrun : s.tick.running = true) (hdue : s.isDue p d)
    (hf : d.isFlip = false) : s.completeDrain p = (s.applyPlanLoad p d).forAll allFields State.swapTables := by
  simp [State.completeDrain, hd, (drainDue_iff s p d hd).2 ⟨hrun, hdue⟩, hf]

/-- The plan load of a drain comes into force, with its answer. -/
structure PlanLoaded (s t : State) (p : Nat) (d : Drain) (plan : Plan) : Prop where
  plc : t.plc p = { s.plc p with drain := none, plan := plan, hostGrant := plan.sized, grant := (t.plc p).grant, grantOrder := none }
  tick : t.tick = { s.tick with period := t.periodOf }
  sessions : t.sessions = s.sessions
  answered : t.answersTo .host = s.answersTo .host
    ++ [{ seq := d.cmdSeq, opcode := d.cmdOp, status := .ok, final := true, tick := s.tick.count }]

theorem applyPlanLoad_eq (s : State) (p : Nat) (d : Drain) (plan : Plan) (i : Image) (hplan : d.newPlan = some plan) (hi : (s.plc p).image = some i) :
    s.applyPlanLoad p d = ((((s.withDrain p none).loadPlan p).planInForce p plan false).gaugeDrain).finalReply d.cmdSrc d.cmdSeq d.cmdOp .ok := by
  simp only [State.applyPlanLoad, hplan, hi]
  rfl

theorem completeDrain_loaded (s : State) (p : Nat) (d : Drain) (plan : Plan) (i : Image) (hd : (s.plc p).drain = some d) (hrun : s.tick.running = true)
    (hdue : s.isDue p d) (hf : d.isFlip = false) (hsrc : d.cmdSrc = .host) (hplan : d.newPlan = some plan) (hi : (s.plc p).image = some i) :
    PlanLoaded s (s.completeDrain p) p d plan := by
  rw [completeDrain_planLoad s p d hd hrun hdue hf, applyPlanLoad_eq s p d plan i hplan hi, hsrc]
  have hdrain := withDrain_plc s p none
  have hu := (loadPlan_reloaded (s.withDrain p none) p).frame
  have hv := planInForce_taken ((s.withDrain p none).loadPlan p) p plan
  have hframe := withDrain_frame s p none
  generalize s.withDrain p none = u at hu hv hdrain hframe ⊢
  generalize u.loadPlan p = v at hu hv ⊢
  generalize v.planInForce p plan false = w at hv ⊢
  have hx := eq_of_sansRegs (gaugeDrain_sansRegs w)
  generalize w.gaugeDrain = x at hx ⊢
  have hans := answered_reply x .host { seq := d.cmdSeq, opcode := d.cmdOp, status := .ok, final := true } (.inl rfl)
  have hswap := Reloaded.fold allFields State.swapTables swapTables_reloaded (x.finalReply .host d.cmdSeq d.cmdOp .ok)
  unfold State.finalReply at hswap ⊢
  generalize x.reply .host { seq := d.cmdSeq, opcode := d.cmdOp, status := .ok, final := true } = y at hans hswap ⊢
  change Reloaded y (y.forAll allFields State.swapTables) at hswap
  generalize y.forAll allFields State.swapTables = t at hswap ⊢
  have hplc : t.placements = w.placements := by rw [hswap.frame, hans.frame, hx]
  have htick : t.tick = w.tick := by rw [hswap.frame, hans.frame, hx]
  have hticks : w.tick = { s.tick with period := w.periodOf } := by rw [hv.frame, hu, hframe]; rfl
  have hcount : x.tick.count = s.tick.count := by
    have hx' : x.tick = w.tick := by rw [hx]
    rw [hx', hticks]
  have hxs : x.answersTo .host = s.answersTo .host := answersTo_frame (by rw [hx, hv.frame, hu, hframe]) (by rw [hx, hv.frame, hu, hframe]) _
  refine ⟨?_, ?_, ?_, ?_⟩
  · rw [plc_congr hplc, hv.plc, plc_congr (s := u) (by rw [hu]), hdrain]
  · rw [htick, periodOf_congr hplc, hticks]
  · rw [hswap.frame, hans.frame, hx, hv.frame, hu, hframe]
  · rw [answersTo_frame (s := y) (by rw [hswap.frame]) (by rw [hswap.frame]) .host, hans.given, hxs, hcount]

end Sys2Proof.Machine
end

section
/-! PROOFS. The end of a rollback hold, and O31. -/
namespace Sys2Proof.Machine
open Sys2Proof

/-! ### The end of a rollback hold -/

/-- A bank whose content is given up where it holds an image that stands by. -/
def Bank.sansPrevious (b : Bank) : Bank := if b.st == .previous then { b with st := .empty, mem := [], err := [], leaves := [] } else b

theorem Bank.sansPrevious_twice (b : Bank) : b.sansPrevious.sansPrevious = b.sansPrevious := by
  by_cases h : b.st = .previous <;> simp [Bank.sansPrevious, h]

theorem Bank.sansPrevious_of_previous (b : Bank) (h : b.st = .previous) : b.sansPrevious.st = .empty ∧ b.sansPrevious.mem = [] := by
  simp [Bank.sansPrevious, h]

/-- The fields that hold a part of the image in a placement's standby banks. -/
def PlacementSt.stagedSites (x : PlacementSt) : List Nat :=
  match x.staged with
  | some i => (i.fields.filter fun r => r.role = 1).map fun r => x.partSite r.field
  | none => []

/-- The image that stands by goes, with its banks. -/
def State.sansPrevious (s : State) (p : Nat) : State :=
  (s.forAll (s.plc p).stagedSites fun t f => t.updBank f (s.plc p).stagedBank Bank.sansPrevious).updPlc p
    fun x => { x with imageState := .empty, staged := none, stagedAt := [], holdLeft := 0 }

theorem endRollback_eq (s : State) (p : Nat) (h : (s.plc p).imageState = .previous) : s.endRollback p = ((s.sansPrevious p).buildTwins p).gaugeWeights := by
  unfold State.endRollback
  simp only
  rw [if_neg (by simp [h])]
  rfl

theorem sansPrevious_frame (s : State) (p : Nat) :
    s.sansPrevious p = { s with placements := (s.sansPrevious p).placements, fields := (s.sansPrevious p).fields } := by
  have hf := (MirrorsMoved.fold (s.plc p).stagedSites (fun t f => t.updBank f (s.plc p).stagedBank Bank.sansPrevious) (fun t f => .bank t f _ _) s)
  have hr := foldl_keeps (fun t : State => (t.regs, t.host, t.out)) (s.plc p).stagedSites (fun t f => t.updBank f (s.plc p).stagedBank Bank.sansPrevious)
    (fun _ _ => rfl) s
  simp only [Prod.mk.injEq] at hr
  obtain ⟨hregs, hhost, hout⟩ := hr
  unfold State.sansPrevious State.forAll
  generalize (s.plc p).stagedSites.foldl (fun t f => t.updBank f (s.plc p).stagedBank Bank.sansPrevious) s = u at hf hregs hhost hout ⊢
  have hu : u = { s with fields := u.fields } := by rw [hf.frame, hregs, hhost, hout]
  rw [hu]
  rfl

theorem sansPrevious_plc (s : State) (p : Nat) : (s.sansPrevious p).plc p = { s.plc p with imageState := .empty, staged := none, stagedAt := [], holdLeft := 0 } := by
  have hplc : (s.forAll (s.plc p).stagedSites fun t f => t.updBank f (s.plc p).stagedBank Bank.sansPrevious).plc p = s.plc p :=
    forAll_keeps (fun t : State => t.plc p) (s.plc p).stagedSites (fun t f => t.updBank f (s.plc p).stagedBank Bank.sansPrevious) (fun _ _ => rfl) s
  rw [State.sansPrevious, State.plc_updPlc, hplc]

theorem mem_stagedSites (x : PlacementSt) (i : Image) (hi : x.staged = some i) (g : Nat) :
    g ∈ x.stagedSites ↔ ∃ r ∈ i.fields, r.role = 1 ∧ x.partSite r.field = g := by
  simp [PlacementSt.stagedSites, hi, and_assoc]

theorem sansPrevious_bank (s : State) (p g : Nat) (h : g ∈ (s.plc p).stagedSites) :
    ((s.sansPrevious p).field g).bank (s.plc p).stagedBank = ((s.field g).bank (s.plc p).stagedBank).sansPrevious :=
  bank_forAll_updBank _ _ _ _ s Bank.sansPrevious_twice h

theorem sansPrevious_field_other (s : State) (p g : Nat) (h : g ∉ (s.plc p).stagedSites) : (s.sansPrevious p).field g = s.field g :=
  field_forAll_updBank_other _ _ _ _ s h

/-- What the end of a rollback hold leaves, with the mirrors built anew. -/
theorem endRollback_frame (s : State) (p : Nat) (h : (s.plc p).imageState = .previous) :
    (s.endRollback p).plc p = { s.plc p with imageState := .empty, staged := none, stagedAt := [], holdLeft := 0, twinNone := ((s.endRollback p).plc p).twinNone }
    ∧ (s.endRollback p).cores = s.cores ∧ (s.endRollback p).sessions = s.sessions ∧ (s.endRollback p).airspaces = s.airspaces := by
  rw [endRollback_eq s p h]
  have hplc := sansPrevious_plc s p
  have hu := sansPrevious_frame s p
  generalize s.sansPrevious p = u at hplc hu ⊢
  have hv := (buildTwins_moved u p).frame
  generalize u.buildTwins p = v at hv ⊢
  have hw := gaugeWeights_gauged v
  generalize v.gaugeWeights = w at hw ⊢
  refine ⟨?_, by rw [hw.frame, hv, hu], by rw [hw.frame, hv, hu], by rw [hw.frame, hv, hu]⟩
  rw [hw.plc p, plc_congr (show v.placements = u.placements by rw [hv]), hplc]

/-- Without twin protection the fields are those without the image. -/
theorem endRollback_field (s : State) (p g : Nat) (h : (s.plc p).imageState = .previous) (hoff : s.twinProtection = false) :
    (s.endRollback p).field g = (s.sansPrevious p).field g := by
  have htwin : (s.sansPrevious p).twinProtection = false := by rw [sansPrevious_frame]; exact hoff
  rw [endRollback_eq s p h, buildTwins_off _ p (.inl htwin)]
  exact field_congr (by rw [(gaugeWeights_gauged _).frame]) g

/-! ### O31 -/

theorem BeginsDrain.of_eq {o : Host.Outcome State Fault Refusal} {s : State} {h : CmdHdr} {op p limit req : Nat} {flip : Bool} {plan : Option Plan}
    (hs : h.src = .host) (ho : o = .next (s.startDrain h op p limit req flip plan)) : BeginsDrain o s h op p limit req flip plan :=
  ho ▸ startDrain_begins s h op p limit req flip plan hs

theorem refuses_of_eq {o : Host.Outcome State Fault Refusal} {s : State} {h : CmdHdr} {op : Nat} {st : Status}
    (hs : h.src = .host) (ho : o = .next (s.answer h op st)) : Refuses o s h op st := ho ▸ gives_answer s h op st (.inl hs)

theorem badField_of_eq {o : Host.Outcome State Fault Refusal} {s : State} {h : CmdHdr} {op n : Nat}
    (hs : h.src = .host) (ho : o = .next (s.badParam h op n)) : BadField o s h op n := ho ▸ ⟨_, rfl, answered_badParam s h op n (.inl hs)⟩

theorem not_bnot {b : Bool} (h : b = true) : ¬(!b) = true := by simp [h]
theorem bnot_of_not {b : Bool} (h : ¬b = true) : (!b) = true := by simpa using h

/-- A placement that a drain or a move keeps busy. -/
theorem drainBusy_iff (x : PlacementSt) : (x.drain.isSome || !x.moves.isEmpty) = true ↔ x.drain ≠ none ∨ x.moves ≠ [] := by
  simp [Option.isSome_iff_ne_none]

/-- A placement whose standby banks hold an image that may go live. -/
theorem mayFlip_iff (x : PlacementSt) : (x.imageState == .staged || (x.imageState == .previous && decide (0 < x.holdLeft))) = true
    ↔ x.imageState = .staged ∨ (x.imageState = .previous ∧ 0 < x.holdLeft) := by
  simp

theorem flip_judged (s : State) (h : CmdHdr) (p l : Nat) (hs : h.src = .host) (hp : p < 4) (hl : h.expert = false ∨ l = 65535 ∨ (1 ≤ l ∧ l ≤ 3600)) :
    let x := s.plc p
    let busy : Prop := x.drain ≠ none ∨ x.moves ≠ []
    let may : Prop := (x.imageState = .staged ∨ (x.imageState = .previous ∧ 0 < x.holdLeft)) ∧ x.staged ≠ none
    (busy → Refuses (exec (.flip h p l) s) s h 0x0303 .busy)
    ∧ (¬busy → ¬may → Refuses (exec (.flip h p l) s) s h 0x0303 .notPermitted)
    ∧ (∀ i, ¬busy → may → x.staged = some i →
        BeginsDrain (exec (.flip h p l) s) s h 0x0303 p (if h.expert = true ∧ l ≠ 65535 then l else 30) i.period true none) := by
  intro x busy may
  rw [flip_checked hs hp l hl]
  refine ⟨fun hb => refuses_of_eq hs ?_, fun hb hm => refuses_of_eq hs ?_, fun i hb hm hi => BeginsDrain.of_eq hs ?_⟩
  · exact congrArg _ (if_pos ((drainBusy_iff x).2 hb))
  · refine congrArg _ ((if_neg (mt (drainBusy_iff x).1 hb)).trans ?_)
    by_cases hstate : x.imageState = .staged ∨ (x.imageState = .previous ∧ 0 < x.holdLeft)
    · have hnone : x.staged = none := by simpa [may, hstate] using hm
      refine (if_neg (not_bnot ((mayFlip_iff x).2 hstate))).trans ?_
      rw [hnone]
    · exact if_pos (bnot_of_not (mt (mayFlip_iff x).1 hstate))
  · refine congrArg _ ((if_neg (mt (drainBusy_iff x).1 hb)).trans ((if_neg (not_bnot ((mayFlip_iff x).2 hm.1))).trans ?_))
    rw [hi]
    cases h.expert <;> simp

/-! The figures of PLAN_LOAD: those of the image, or the expert form's. -/

/-- The command names no share and no replay figure of its own. -/
def ownFigures (h : CmdHdr) (sized replay : Nat) : Prop := h.expert = false ∨ (sized = 255 ∧ replay = 255)

theorem ownFigures_iff (h : CmdHdr) (sized replay : Nat) :
    (!h.expert || (unchanged 8 sized && unchanged 8 replay)) = true ↔ ownFigures h sized replay := by
  simp [ownFigures, unchanged]

/-- A figure of the expert form, or the stored one. -/
def figure (h : CmdHdr) (w v old : Nat) : Nat := if h.expert = true ∧ v ≠ 2 ^ w - 1 then v else old

theorem figure_of_setting (h : CmdHdr) (w v old : Nat) : (if h.expert then setting w v old else old) = figure h w v old := by
  cases he : h.expert
  · simp [figure, he]
  · by_cases hv : v = 2 ^ w - 1 <;> simp [figure, he, picked, hv]

theorem figure_of_unchanged (h : CmdHdr) (w v old : Nat) : (if h.expert && !unchanged w v then v else old) = figure h w v old := by
  simp [figure, unchanged]

/-- An image's plan with a share of its own or the command's. -/
def neededPeriod (h : CmdHdr) (sized replay : Nat) (i : Image) : Option Nat :=
  planPeriod i.decodeLen (figure h 8 sized i.prefillPct) i.exchange i.absorb (figure h 8 replay i.rrPct)

theorem planLoadBusy_iff (s : State) (p : Nat) : ((s.plc p).drain.isSome || !(s.plc p).moves.isEmpty || s.installing p) = true
    ↔ (s.plc p).drain ≠ none ∨ (s.plc p).moves ≠ [] ∨ s.installing p = true := by
  rw [Bool.or_eq_true, drainBusy_iff, or_assoc]

section
variable {s : State} {h : CmdHdr} {p period sized replay : Nat} (hs : h.src = .host) (hp : p < 4)
  (hr : h.expert = false ∨ ((period = 65535 ∨ (period ≤ 48000 ∧ period % 8 = 0)) ∧ (sized = 255 ∨ sized ≤ 60) ∧ (replay = 255 ∨ (2 ≤ replay ∧ replay ≤ 20))))
include hs hp hr

theorem planLoad_notLive (h1 : (s.plc p).live = false) : exec (.planLoad h p period sized replay) s = .next (s.answer h 0x0304 .notPermitted) := by
  rw [planLoad_checked hs hp period sized replay hr]
  exact congrArg _ (if_pos (bnot_of_not (by simp [h1])))

theorem planLoad_busy (h1 : (s.plc p).live = true) (hb : (s.plc p).drain ≠ none ∨ (s.plc p).moves ≠ [] ∨ s.installing p = true) :
    exec (.planLoad h p period sized replay) s = .next (s.answer h 0x0304 .busy) := by
  rw [planLoad_checked hs hp period sized replay hr]
  exact congrArg _ ((if_neg (not_bnot h1)).trans (if_pos ((planLoadBusy_iff s p).2 hb)))

theorem planLoad_noImage (h1 : (s.plc p).live = true) (hb : ¬((s.plc p).drain ≠ none ∨ (s.plc p).moves ≠ [] ∨ s.installing p = true))
    (hi : (s.plc p).image = none) : exec (.planLoad h p period sized replay) s = .next (s.answer h 0x0304 .notPermitted) := by
  rw [planLoad_checked hs hp period sized replay hr]
  refine congrArg _ ((if_neg (not_bnot h1)).trans ((if_neg (mt (planLoadBusy_iff s p).1 hb)).trans ?_))
  rw [hi]

/-- A live, idle placement with an image whose figures give no period. -/
theorem planLoad_noPeriod {i : Image} (h1 : (s.plc p).live = true) (hb : ¬((s.plc p).drain ≠ none ∨ (s.plc p).moves ≠ [] ∨ s.installing p = true))
    (hi : (s.plc p).image = some i) (hn : neededPeriod h sized replay i = none) : exec (.planLoad h p period sized replay) s
      = .next (s.badParam h 0x0304 (if (!h.expert || (unchanged 8 sized && unchanged 8 replay)) = true then 32 else 36)) := by
  rw [planLoad_checked hs hp period sized replay hr]
  refine congrArg _ ((if_neg (not_bnot h1)).trans ((if_neg (mt (planLoadBusy_iff s p).1 hb)).trans ?_))
  simp only [neededPeriod] at hn
  simp only [hi, figure_of_setting, hn]

/-- The same with figures that need a period. -/
theorem planLoad_period {i : Image} {k : Nat} (h1 : (s.plc p).live = true)
    (hb : ¬((s.plc p).drain ≠ none ∨ (s.plc p).moves ≠ [] ∨ s.installing p = true))
    (hi : (s.plc p).image = some i) (hn : neededPeriod h sized replay i = some k) : exec (.planLoad h p period sized replay) s = .next (
      if ((!h.expert || (unchanged 8 sized && unchanged 8 replay)) && decide (k ≠ i.period)) = true then s.badParam h 0x0304 32
      else if (h.expert && !unchanged 16 period && decide (period < k)) = true then s.badParam h 0x0304 34
      else if (!s.planOk p i i.decodeLen i.exchange i.absorb (computeWindow i.decodeLen (figure h 8 sized i.prefillPct)) (figure h 16 period k)) = true
      then s.badParam h 0x0304 32
      else s.startDrain h 0x0304 p 30 (figure h 16 period k) false
        (some (s.makePlan p i (figure h 8 sized i.prefillPct) (figure h 8 replay i.rrPct) (figure h 16 period k)))) := by
  rw [planLoad_checked hs hp period sized replay hr]
  refine congrArg _ ((if_neg (not_bnot h1)).trans ((if_neg (mt (planLoadBusy_iff s p).1 hb)).trans ?_))
  simp only [neededPeriod] at hn
  simp only [hi, figure_of_setting, hn, figure_of_unchanged]

end

/-- A period below the needed one: the expert form named it. -/
theorem figure_lt_iff (h : CmdHdr) (period k : Nat) :
    (h.expert && !unchanged 16 period && decide (period < k)) = true ↔ figure h 16 period k < k := by
  cases he : h.expert
  · simp [figure, he]
  · by_cases hv : period = 65535 <;> simp [figure, he, unchanged, hv]

/-- Settles O31: commands by their checks, drains by whether they are due, the rollback hold by the banks that stand by. -/
theorem drainsBeginAndEnd : Obligations.DrainsBeginAndEnd := by
  unfold Obligations.DrainsBeginAndEnd
  intro s h p hs hp
  refine ⟨fun l hl => flip_judged s h p l hs hp hl, fun period sized replay hr => ?load, fun d hd hsrc => ?timeout, fun hd => ?none,
    ⟨fun hshut => ?shut, fun hd => ?waits, fun hd => ?unheld, fun d plan i hopen hd hdue hsrc hflip hplan hi => ?loaded⟩, fun hst => ?kept, fun hst => ?ended⟩
  case load =>
    refine ⟨fun hno => refuses_of_eq hs ?_, fun h1 hb => refuses_of_eq hs (planLoad_busy hs hp hr h1 hb), fun i h1 hb hi => ?_⟩
    · cases h1 : (s.plc p).live
      · exact planLoad_notLive hs hp hr h1
      · obtain hno | ⟨hi, hb⟩ := hno
        · exact absurd (h1.symm.trans hno) (by simp)
        · exact planLoad_noImage hs hp hr h1 hb hi
    · refine ⟨fun hn => ⟨fun ho => badField_of_eq hs ?_, fun ho => badField_of_eq hs ?_⟩, fun k hn => ⟨fun ho hk => badField_of_eq hs ?_,
        fun ho => ⟨fun hlow => badField_of_eq hs ?_, fun hle => ⟨fun hbad => badField_of_eq hs ?_, fun hgood => BeginsDrain.of_eq hs ?_⟩⟩⟩⟩
      · rw [planLoad_noPeriod hs hp hr h1 hb hi hn, if_pos ((ownFigures_iff h sized replay).2 ho)]
      · rw [planLoad_noPeriod hs hp hr h1 hb hi hn, if_neg (mt (ownFigures_iff h sized replay).1 ho)]
      · rw [planLoad_period hs hp hr h1 hb hi hn, if_pos (Bool.and_eq_true_iff.2 ⟨(ownFigures_iff h sized replay).2 ho, decide_eq_true hk⟩)]
      all_goals
        have hown : ¬((!h.expert || (unchanged 8 sized && unchanged 8 replay)) && decide (k ≠ i.period)) = true := fun hc =>
          ho ⟨(ownFigures_iff h sized replay).1 (Bool.and_eq_true_iff.1 hc).1, of_decide_eq_true (Bool.and_eq_true_iff.1 hc).2⟩
        rw [planLoad_period hs hp hr h1 hb hi hn, if_neg hown]
      · rw [if_pos ((figure_lt_iff h period k).2 hlow)]
      all_goals
        have hfits := mt (figure_lt_iff h period k).1 (Nat.not_lt.2 hle)
        rw [if_neg hfits]
      · exact congrArg _ (if_pos (bnot_of_not (Bool.eq_false_iff.1 hbad)))
      · exact congrArg _ (if_neg (not_bnot hgood))
  case timeout =>
    have hrun : exec (.flipDrainTimeout p) s = .next ((s.withDrain p none).gaugeDrain.finalReply .host d.cmdSeq d.cmdOp .timeout) := by
      change Host.Outcome.next (opDrainTimeout p s) = _
      simp only [opDrainTimeout, hd, hsrc]
      rfl
    have hplc := withDrain_plc s p none
    have hother := fun q => withDrain_plc_other s p q none
    have hframe := withDrain_frame s p none
    have he := eq_of_sansRegs (gaugeDrain_sansRegs (s.withDrain p none))
    rw [hrun]
    generalize s.withDrain p none = u at hplc hother hframe he ⊢
    generalize u.gaugeDrain = e at he ⊢
    have hsame (q : Nat) : e.plc q = u.plc q := plc_congr (by rw [he]) q
    exact ⟨e, gives_reply e .host _ (.inl rfl), by rw [he, hframe], (hsame p).trans hplc, fun q hq => (hsame q).trans (hother q hq)⟩
  case none =>
    change Host.Outcome.next (opDrainTimeout p s) = _
    simp only [opDrainTimeout, hd]
  case shut =>
    have hstart := mt (atTickStart_iff s).1 hshut
    exact ⟨congrArg Host.Outcome.next (if_neg hstart), congrArg Host.Outcome.next (if_neg hstart)⟩
  case waits =>
    change Host.Outcome.next (opDrainComplete p s) = _
    rw [opDrainComplete, completeDrain_waits s p hd, ite_self]
  case unheld =>
    change Host.Outcome.next (opHoldRelease s) = _
    have hnil : ((List.range 4).filter fun q => (s.plc q).drain.any fun d => d.heldPeriod.isSome) = [] := by
      simp only [List.filter_eq_nil_iff, List.mem_range, Option.any_eq_true, not_exists, not_and]
      exact fun q hq d hqd => by simp [hd q hq d hqd]
    rw [opHoldRelease, hnil]
    exact congrArg _ (ite_self s)
  case loaded =>
    obtain ⟨hrun, hstart, hslot⟩ := hopen
    have hl := completeDrain_loaded s p d plan i hd hrun hdue hflip hsrc hplan hi
    have hat := (atTickStart_iff s).2 ⟨hrun, hstart, hslot⟩
    refine ⟨s.completeDrain p, congrArg _ (if_pos hat), ?_⟩
    have hhold : d.heldPeriod ≠ none → (∀ q, q < 4 → q ≠ p → ∀ e, (s.plc q).drain = some e → e.heldPeriod = none) →
        exec .periodHoldRelease s = .next (s.completeDrain p) := by
      intro hheld hothers
      have hone : ((List.range 4).filter fun q => (s.plc q).drain.any fun d => d.heldPeriod.isSome) = [p] := by
        have hiff (q : Nat) (hq : q < 4) : ((s.plc q).drain.any fun d => d.heldPeriod.isSome) = decide (q = p) := by
          by_cases hqp : q = p
          · subst hqp; simp [hd, Option.isSome_iff_ne_none, hheld]
          · cases hqd : (s.plc q).drain with
            | none => simp [hqp]
            | some e => simp [hqp, hothers q hq hqp e hqd]
        rw [List.filter_congr fun q hq => hiff q (List.mem_range.1 hq)]
        obtain rfl | rfl | rfl | rfl : p = 0 ∨ p = 1 ∨ p = 2 ∨ p = 3 := by omega
        all_goals rfl
      change Host.Outcome.next (opHoldRelease s) = _
      rw [opHoldRelease, if_pos hat, hone]
      rfl
    generalize s.completeDrain p = t at hl hhold ⊢
    obtain ⟨hplc, htick, hsess, hans⟩ := hl
    refine ⟨by rw [hplc], by rw [hplc], by rw [hplc], by rw [hplc], by rw [hplc], by rw [hplc], by rw [hplc], htick, hsess, hhold, hans⟩
  case kept => exact congrArg Host.Outcome.next (if_pos (by simpa using hst))
  case ended =>
    obtain ⟨hplc, hcores, hsess, hasp⟩ := endRollback_frame s p hst
    refine ⟨s.endRollback p, rfl, hplc, hcores, hsess, hasp, fun i r hi hr hrole hoff hprev => ?_⟩
    have hmem : (s.plc p).partSite r.field ∈ (s.plc p).stagedSites := (mem_stagedSites _ i hi _).2 ⟨r, hr, hrole, rfl⟩
    have hbank : ((s.endRollback p).field ((s.plc p).partSite r.field)).bank (s.plc p).stagedBank
        = ((s.field ((s.plc p).partSite r.field)).bank (s.plc p).stagedBank).sansPrevious := by
      rw [endRollback_field s p _ hst hoff, sansPrevious_bank s p _ hmem]
    obtain ⟨hempty, hnomem⟩ := Bank.sansPrevious_of_previous _ hprev
    refine ⟨(congrArg Bank.st hbank).trans hempty, (congrArg Bank.mem hbank).trans hnomem, fun g hg => ?_⟩
    rw [endRollback_field s p g hst hoff, sansPrevious_field_other s p g]
    rw [mem_stagedSites _ i hi]
    exact fun ⟨r, hr, _, he⟩ => hg r hr he

end Sys2Proof.Machine
end

section
/-! SUPPORT. What leaves by the Ethernet ports (R31, R253, R261). -/
namespace Sys2Proof.Machine

/-! ### Egress -/

/-- The first number below n of which p holds. -/
theorem find?_range_first {n a : Nat} {p : Nat → Bool} (ha : a < n) (hp : p a = true) (hb : ∀ b, b < a → p b = false) :
    (List.range n).find? p = some a :=
  List.find?_range_eq_some.2 ⟨hp, List.mem_range.2 ha, fun b hba => by simp [hb b hba]⟩

theorem find?_range_none {n : Nat} {p : Nat → Bool} (hb : ∀ b, b < n → p b = false) : (List.range n).find? p = none :=
  List.find?_range_eq_none.2 fun b hbn => by simp [hb b hbn]

theorem egressPort_up (s : State) (port : Nat) (h : (s.ethPort port).linkUp = true) : s.egressPort port = some port := if_pos h

theorem egressPort_lowest (s : State) (port n : Nat) (h : (s.ethPort port).linkUp = false) (hn : n < 4) (hup : (s.ethPort n).linkUp = true)
    (hlow : ∀ m, m < n → (s.ethPort m).linkUp = false) : s.egressPort port = some n :=
  (if_neg (by simp [h])).trans (find?_range_first (n := 4) hn hup hlow)

theorem egressPort_none (s : State) (port : Nat) (h : (s.ethPort port).linkUp = false) (hdown : ∀ n, n < 4 → (s.ethPort n).linkUp = false) :
    s.egressPort port = none :=
  (if_neg (by simp [h])).trans (find?_range_none (n := 4) hdown)

/-- While the link of one of the four ports is up, every frame has a port. -/
theorem egressPort_some (s : State) (port : Nat) (h : ∃ n, n < 4 ∧ (s.ethPort n).linkUp = true) : ∃ n, s.egressPort port = some n := by
  obtain ⟨n, hn, hup⟩ := h
  unfold State.egressPort
  split
  · exact ⟨port, rfl⟩
  · exact Option.isSome_iff_exists.1 (List.find?_isSome.2 ⟨n, by simp; omega, hup⟩)

theorem overCap_false (s : State) (n : Nat) (h : 400 ≤ (s.ethPort n).cap) : s.overCap n = false := by
  simp [State.overCap, Nat.not_lt.2 h]

theorem sendFrame_none (s : State) (a port cost : Nat) (o : Out) (h : s.egressPort port = none) : s.sendFrame a port cost o = s := by
  simp only [State.sendFrame, h]

theorem sendFrame_short (s : State) (a port cost n : Nat) (o : Out) (h : s.egressPort port = some n) (hc : (s.asp a).bucket < cost) :
    s.sendFrame a port cost o = s.bump (Reg.Eth.CAP_DROP a) := by
  simp only [State.sendFrame, h, if_pos hc]

/-- An airspace's bucket is charged. -/
def State.charged (s : State) (a cost : Nat) : State := s.setAsp a { s.asp a with bucket := (s.asp a).bucket - cost }

theorem sendFrame_charged (s : State) (a port cost n : Nat) (o : Out) (h : s.egressPort port = some n) (hc : cost ≤ (s.asp a).bucket) :
    s.sendFrame a port cost o = if (s.charged a cost).overCap n then (s.charged a cost).bump (Reg.Eth.TX_CAP_DROP n)
      else ((s.charged a cost).bump (Reg.Eth.TX_FRAMES n)).emit o := by
  simp only [State.sendFrame, h, if_neg (Nat.not_lt.2 hc)]
  rfl

theorem asp_charged (s : State) (a cost : Nat) : (s.charged a cost).asp a = { s.asp a with bucket := (s.asp a).bucket - cost } := State.asp_setAsp ..
theorem asp_charged_other (s : State) (a cost b : Nat) (h : b ≠ a) : (s.charged a cost).asp b = s.asp b := by
  simp [State.charged, State.asp, Tbl.getD_set_other, h]

/-- A frame that has a port: dropped and counted where the bucket is short, and charged and sent, or found in excess, where it is not. -/
theorem sendFrame_by_port (s : State) (a port cost n : Nat) (o : Out) (h : s.egressPort port = some n) :
    ((s.asp a).bucket < cost → s.sendFrame a port cost o = s.bump (Reg.Eth.CAP_DROP a))
    ∧ (cost ≤ (s.asp a).bucket → ∃ v : State, v = { s with airspaces := v.airspaces } ∧ v.asp a = { s.asp a with bucket := (s.asp a).bucket - cost }
      ∧ (∀ b, b ≠ a → v.asp b = s.asp b)
      ∧ (400 ≤ (s.ethPort n).cap → s.sendFrame a port cost o = (v.bump (Reg.Eth.TX_FRAMES n)).emit o)
      ∧ (s.sendFrame a port cost o = (v.bump (Reg.Eth.TX_FRAMES n)).emit o ∨ s.sendFrame a port cost o = v.bump (Reg.Eth.TX_CAP_DROP n))) := by
  refine ⟨sendFrame_short s a port cost n o h, fun hc => ⟨s.charged a cost, rfl, asp_charged s a cost, asp_charged_other s a cost, fun hcap => ?_, ?_⟩⟩
  · rw [sendFrame_charged s a port cost n o h hc, overCap_false (s.charged a cost) n hcap, if_neg (by simp)]
  · rw [sendFrame_charged s a port cost n o h hc]
    split
    · exact .inr rfl
    · exact .inl rfl

/-! ### Runs of frames from one airspace -/

/-- From `s` to `t`, of the frames `due` of an airspace those of `l` left, in order: all of them where links, caps and bucket let them. A frame that is due is its port, its
cost and what it carries. -/
structure Sent (s t : State) (a : Nat) (due : List (Nat × Nat × Out)) (l : List Out) : Prop where
  frame : t = { s with airspaces := t.airspaces, regs := t.regs, out := t.out }
  out : t.out = s.out ++ l
  sub : l.Sublist (due.map fun e => e.2.2)
  all : (∃ n, n < 4 ∧ (s.ethPort n).linkUp = true) → (∀ n, 400 ≤ (s.ethPort n).cap) → (due.map fun e => e.2.1).sum ≤ (s.asp a).bucket →
    l = due.map (fun e => e.2.2) ∧ (t.asp a).bucket = (s.asp a).bucket - (due.map fun e => e.2.1).sum
  own : t.asp a = { s.asp a with bucket := (t.asp a).bucket }
  others : ∀ b, b ≠ a → t.asp b = s.asp b

/-- Where nothing is charged and nothing leaves. -/
theorem Sent.nothing {s t : State} {a : Nat} {due : List (Nat × Nat × Out)} (hframe : t = { s with regs := t.regs })
    (h : ¬((∃ n, n < 4 ∧ (s.ethPort n).linkUp = true) ∧ (∀ n, 400 ≤ (s.ethPort n).cap) ∧ (due.map fun e => e.2.1).sum ≤ (s.asp a).bucket) ∨ due = []) :
    Sent s t a due [] := by
  have hasp (b : Nat) : t.asp b = s.asp b := by rw [hframe]; rfl
  refine ⟨by rw [hframe], by rw [hframe]; simp, List.nil_sublist _, fun hup hcap hsum => ?_, by rw [hasp], fun b _ => hasp b⟩
  obtain hno | rfl := h
  · exact absurd ⟨hup, hcap, hsum⟩ hno
  · exact ⟨rfl, by simp [hasp]⟩

theorem Sent.refl (s : State) (a : Nat) : Sent s s a [] [] := .nothing rfl (.inr rfl)

theorem Sent.eth {s t : State} {a : Nat} {due : List (Nat × Nat × Out)} {l : List Out} (h : Sent s t a due l) : t.eth = s.eth := by rw [h.frame]
theorem Sent.ethPort {s t : State} {a : Nat} {due : List (Nat × Nat × Out)} {l : List Out} (h : Sent s t a due l) (n : Nat) :
    t.ethPort n = s.ethPort n := by simp only [State.ethPort, h.eth]
theorem Sent.tick {s t : State} {a : Nat} {due : List (Nat × Nat × Out)} {l : List Out} (h : Sent s t a due l) : t.tick = s.tick := by rw [h.frame]

theorem Sent.trans {s t u : State} {a : Nat} {due k : List (Nat × Nat × Out)} {l m : List Out} (h : Sent s t a due l) (g : Sent t u a k m) :
    Sent s u a (due ++ k) (l ++ m) := by
  refine ⟨?_, ?_, ?_, fun hup hcap hsum => ?_, ?_, fun b hb => (g.others b hb).trans (h.others b hb)⟩
  · rw [g.frame, h.frame]
  · rw [g.out, h.out, List.append_assoc]
  · rw [List.map_append]
    exact h.sub.append g.sub
  · rw [List.map_append, List.sum_append] at hsum
    obtain ⟨hl, hbucket⟩ := h.all hup hcap (by omega)
    obtain ⟨hm, hrest⟩ := g.all (by simpa only [h.ethPort] using hup) (by simpa only [h.ethPort] using hcap) (by omega)
    exact ⟨by rw [hl, hm, List.map_append], by rw [hrest, hbucket, List.map_append, List.sum_append]; omega⟩
  · rw [g.own, h.own]

theorem bump_sent (s : State) (f : Fld) (a : Nat) : Sent s (s.bump f) a [] [] := .nothing rfl (.inr rfl)

theorem sendFrame_sent (s : State) (a port cost : Nat) (o : Out) : ∃ l, Sent s (s.sendFrame a port cost o) a [(port, cost, o)] l := by
  cases hport : s.egressPort port with
  | none =>
    rw [sendFrame_none s a port cost o hport]
    refine ⟨[], .nothing rfl (.inl fun h => ?_)⟩
    obtain ⟨n, hn⟩ := egressPort_some s port h.1
    exact absurd (hport.symm.trans hn) (by simp)
  | some n =>
    by_cases hc : (s.asp a).bucket < cost
    · rw [sendFrame_short s a port cost n o hport hc]
      exact ⟨[], .nothing rfl (.inl fun h => absurd h.2.2 (by simpa using hc))⟩
    · rw [sendFrame_charged s a port cost n o hport (by omega)]
      have howned (t : State) (h : t.airspaces = (s.charged a cost).airspaces) :
          t.asp a = { s.asp a with bucket := (t.asp a).bucket } ∧ (t.asp a).bucket = (s.asp a).bucket - cost ∧ ∀ b, b ≠ a → t.asp b = s.asp b := by
        rw [asp_congr h, asp_charged]
        exact ⟨rfl, rfl, fun b hb => (asp_congr h b).trans (asp_charged_other s a cost b hb)⟩
      split
      · next hover =>
        obtain ⟨hown, -, hothers⟩ := howned ((s.charged a cost).bump (Reg.Eth.TX_CAP_DROP n)) rfl
        refine ⟨[], rfl, (List.append_nil _).symm, List.nil_sublist _, fun _ hcap _ => ?_, hown, hothers⟩
        exact absurd hover (by rw [overCap_false (s.charged a cost) n (hcap n)]; simp)
      · obtain ⟨hown, hbucket, hothers⟩ := howned (((s.charged a cost).bump (Reg.Eth.TX_FRAMES n)).emit o) rfl
        exact ⟨[o], rfl, rfl, List.Sublist.refl _, fun _ _ _ => ⟨rfl, hbucket⟩, hown, hothers⟩

theorem sendDatagram_sent (s : State) (a port payload : Nat) (v4 : Bool) (o : Out) (tagged : Bool) (h : tagged = decide ((s.asp a).vlan ≠ 0)) :
    ∃ l, Sent s (s.sendDatagram a port payload v4 o) a [(port, frameBytes payload v4 tagged, o)] l := by
  subst h
  exact sendFrame_sent s a port _ o

/-- A run of steps, each of which sends its own frames. -/
theorem foldl_sent {α : Type} {s : State} {a : Nat} (xs : List α) (g : State → α → State) (item : α → List (Nat × Nat × Out))
    (h : ∀ u due l, Sent s u a due l → ∀ x ∈ xs, ∃ k, Sent u (g u x) a (item x) k) (u : State) (due : List (Nat × Nat × Out)) (l : List Out)
    (hu : Sent s u a due l) : ∃ k, Sent s (xs.foldl g u) a (due ++ xs.flatMap item) k := by
  induction xs generalizing u due l with
  | nil => exact ⟨l, by simpa using hu⟩
  | cons x xs ih =>
    obtain ⟨k, hk⟩ := h u due l hu x (by simp)
    obtain ⟨m, hm⟩ := ih (fun u due l hu y hy => h u due l hu y (by simp [hy])) (g u x) _ _ (hu.trans hk)
    exact ⟨m, by simpa using hm⟩

end Sys2Proof.Machine
end

section
/-! SUPPORT. Retransmissions (R251, R254, R257, R258). -/
namespace Sys2Proof.Machine

/-! ### The answer that ends a retransmission -/

/-- A request is answered at once: noted as received, acknowledged, and its answer remembered. -/
def State.answerNow (s : State) (c : Client) (st : Status) : State :=
  ((s.remember c).sendAck { client := c, status := st, handle := c.handle } s.tick.count).noteAnswer { client := c, status := st, handle := c.handle }

/-- `t` is `s` after a client's request was answered with a status: the frames due left before the acknowledgement, and the answer is the
latest that is remembered. -/
structure AnsweredNow (s t : State) (c : Client) (due : List (Nat × Nat × Out)) (l : List Out) (st : Status) : Prop where
  frame : t = { s with airspaces := t.airspaces, regs := t.regs, out := s.out ++ l }
  sub : l.Sublist (due.map fun e => e.2.2)
  all : (∃ n, n < 4 ∧ (s.ethPort n).linkUp = true) → (∀ n, 400 ≤ (s.ethPort n).cap) → (due.map fun e => e.2.1).sum ≤ (s.asp c.airspace).bucket →
    l = due.map (fun e => e.2.2) ∧ (t.asp c.airspace).bucket = (s.asp c.airspace).bucket - (due.map fun e => e.2.1).sum
  last : (t.asp c.airspace).answers.getLast?
    = some { addr := c.addr, port := c.port, seq := c.seq, answer := some { client := c, status := st, handle := c.handle }, at_ := s.tick.wall480 }
  others : ∀ b, b ≠ c.airspace → t.asp b = s.asp b
  own : t.asp c.airspace = { s.asp c.airspace with bucket := (t.asp c.airspace).bucket, answers := (t.asp c.airspace).answers }

/-- The request stands last among those remembered. -/
theorem remember_last (s : State) (c : Client) : ((s.remember c).asp c.airspace).answers.getLast?
    = some { addr := c.addr, port := c.port, seq := c.seq, answer := none, at_ := s.tick.wall480 } := by
  simp only [State.remember, State.asp_updAsp]
  rw [List.drop_append_of_le_length (by omega), List.getLast?_concat]

theorem remember_own (s : State) (c : Client) :
    (s.remember c).asp c.airspace = { s.asp c.airspace with answers := ((s.remember c).asp c.airspace).answers } := by
  simp only [State.remember, State.asp_updAsp]

/-- The answer is noted with the request that stands last. -/
theorem noteAnswer_last (s : State) (c : Client) (st : Status) (at_ : Nat)
    (h : (s.asp c.airspace).answers.getLast? = some { addr := c.addr, port := c.port, seq := c.seq, answer := none, at_ := at_ }) :
    ((s.noteAnswer { client := c, status := st, handle := c.handle }).asp c.airspace).answers.getLast?
      = some { addr := c.addr, port := c.port, seq := c.seq, answer := some { client := c, status := st, handle := c.handle }, at_ := s.tick.wall480 } := by
  simp only [State.noteAnswer, State.asp_updAsp, List.getLast?_map, h]
  simp [Remembered.is]

/-- The acknowledgement of a request and what it costs. -/
def ackDue (s : State) (c : Client) (st : Status) : Nat × Nat × Out :=
  (c.eth, frameBytes 88 (isV4 c.addr) (decide ((s.asp c.airspace).vlan ≠ 0)), .ack { client := c, status := st, handle := c.handle } s.tick.count)

theorem answerNow_answered {s u : State} {c : Client} {due : List (Nat × Nat × Out)} {l : List Out} (h : Sent s u c.airspace due l) (st : Status) :
    ∃ k, AnsweredNow s (u.answerNow c st) c (due ++ [ackDue s c st]) k st := by
  have hvlan : ((u.remember c).asp c.airspace).vlan = (s.asp c.airspace).vlan := by rw [remember_own, h.own]
  obtain ⟨m, hack⟩ := sendDatagram_sent (u.remember c) c.airspace c.eth 88 (isV4 c.addr)
    (.ack { client := c, status := st, handle := c.handle } u.tick.count) (decide ((s.asp c.airspace).vlan ≠ 0)) (by rw [hvlan])
  rw [h.tick] at hack
  have hbucket : ((u.remember c).asp c.airspace).bucket = (u.asp c.airspace).bucket := by rw [remember_own]
  have hnow : u.answerNow c st = State.noteAnswer (State.sendDatagram (u.remember c) c.airspace c.eth 88 (isV4 c.addr)
      (.ack { client := c, status := st, handle := c.handle } s.tick.count)) { client := c, status := st, handle := c.handle } := by
    rw [← h.tick]; rfl
  rw [hnow]
  generalize (u.remember c).sendDatagram c.airspace c.eth 88 (isV4 c.addr) (.ack { client := c, status := st, handle := c.handle } s.tick.count) = v at hack
  have hown : (v.noteAnswer { client := c, status := st, handle := c.handle }).asp c.airspace
      = { v.asp c.airspace with answers := ((v.noteAnswer { client := c, status := st, handle := c.handle }).asp c.airspace).answers } := by
    simp only [State.noteAnswer, State.asp_updAsp]
  have hlast : (v.asp c.airspace).answers.getLast? = some { addr := c.addr, port := c.port, seq := c.seq, answer := none, at_ := u.tick.wall480 } := by
    rw [hack.own]
    exact remember_last u c
  have hwall : v.tick.wall480 = s.tick.wall480 := by rw [hack.tick]; exact congrArg TickSt.wall480 h.tick
  refine ⟨l ++ m, ?_, ?_, fun hup hcap hsum => ?_, ?_, fun b hb => ?_, ?_⟩
  · have hout : v.out = s.out ++ (l ++ m) := by rw [hack.out, ← List.append_assoc, ← h.out]; rfl
    have hv : v = { s with airspaces := v.airspaces, regs := v.regs, out := s.out ++ (l ++ m) } := by
      rw [← hout, hack.frame, State.remember, h.frame]
      rfl
    rw [hv]
    rfl
  · rw [List.map_append]
    exact h.sub.append hack.sub
  · rw [List.map_append, List.sum_append] at hsum
    obtain ⟨hl, hb⟩ := h.all hup hcap (by omega)
    have heth (n : Nat) : (u.remember c).ethPort n = s.ethPort n := h.ethPort n
    obtain ⟨hm, hb'⟩ := hack.all (by simpa only [heth] using hup) (by simpa only [heth] using hcap) (by rw [hbucket, hb]; simp only [ackDue, List.map_cons, List.map_nil] at hsum ⊢; omega)
    refine ⟨by rw [hl, hm, List.map_append]; rfl, ?_⟩
    rw [hown, List.map_append, List.sum_append]
    change (v.asp c.airspace).bucket = _
    rw [hb', hbucket, hb]
    simp only [ackDue, List.map_cons, List.map_nil]
    omega
  · rw [noteAnswer_last v c st _ hlast, hwall]
  · rw [State.noteAnswer, State.asp_updAsp_other _ _ _ _ hb, hack.others b hb, State.remember, State.asp_updAsp_other _ _ _ _ hb, h.others b hb]
  · rw [hown, hack.own, remember_own, h.own]

/-! ### Batches and history -/

/-- The frames of a batch, each with its port and its cost. -/
def batchDue (s : State) (a : Nat) (e : Dest) (tagged : Bool) (b : Batch) : List (Nat × Nat × Out) :=
  let l := pieces (s.partRoom e.eth 16 (isV4 e.addr)) (b.records.length + 1) b.records
  (List.range l.length).map fun i => (e.eth, frameBytes (32 + 16 * (l.getD i []).length) (isV4 e.addr) tagged,
    .stepBatch a { b with records := l.getD i [], part := i, parts := l.length } true)

theorem partRoom_congr {s t : State} (h : t.eth = s.eth) (port unit : Nat) (v4 : Bool) : t.partRoom port unit v4 = s.partRoom port unit v4 := by
  simp only [State.partRoom, State.ethPort, h]

theorem sendBatch_sent {s u : State} {a : Nat} {due : List (Nat × Nat × Out)} {l : List Out} (h : Sent s u a due l) (b : Batch) (e : Dest)
    (hdest : (s.asp a).dests.find b.dest = some e) :
    ∃ k, Sent u (u.sendBatch a b true) a (batchDue s a e (decide ((s.asp a).vlan ≠ 0)) b) k := by
  have hfind : (u.asp a).dests.find b.dest = some e := by rw [h.own]; exact hdest
  simp only [State.sendBatch, hfind, partRoom_congr h.eth, batchDue]
  generalize pieces (s.partRoom e.eth 16 (isV4 e.addr)) (b.records.length + 1) b.records = parts
  have hvlan : (u.asp a).vlan = (s.asp a).vlan := by rw [h.own]
  obtain ⟨k, hk⟩ := foldl_sent (s := u) (a := a) (List.range parts.length) (fun (v : State) i =>
      v.sendDatagram a e.eth (32 + 16 * (parts.getD i []).length) (isV4 e.addr)
        (.stepBatch a { b with records := parts.getD i [], part := i, parts := parts.length } true))
    (fun i => [(e.eth, frameBytes (32 + 16 * (parts.getD i []).length) (isV4 e.addr) (decide ((s.asp a).vlan ≠ 0)),
      .stepBatch a { b with records := parts.getD i [], part := i, parts := parts.length } true)])
    (fun v _ _ hv i _ => sendDatagram_sent v a _ _ _ _ _ (by rw [hv.own, hvlan])) u [] [] (Sent.refl u a)
  exact ⟨k, by simpa only [List.nil_append, List.map_eq_flatMap] using hk⟩

/-- The datagrams of a history from index `lo` on, in pieces of `room` tokens. -/
def historyDue (s : State) (c : Client) (room lo : Nat) (l : List (List Nat)) : List (Nat × Nat × Out) :=
  (List.range l.length).map fun i => (c.eth, frameBytes (32 + 3 * (l.getD i []).length) (isV4 c.addr) (decide ((s.asp c.airspace).vlan ≠ 0)),
    .history c c.handle (lo + room * i) (l.getD i []))

theorem historyDue_cons (s : State) (c : Client) (room lo : Nat) (ts : List Nat) (l : List (List Nat)) : historyDue s c room lo (ts :: l)
    = (c.eth, frameBytes (32 + 3 * ts.length) (isV4 c.addr) (decide ((s.asp c.airspace).vlan ≠ 0)), .history c c.handle lo ts)
      :: historyDue s c room (lo + room) l := by
  simp only [historyDue, List.length_cons, List.range_succ_eq_map, List.map_cons, List.map_map, List.getD_cons_zero, Nat.mul_zero, Nat.add_zero]
  refine congrArg _ (List.map_congr_left fun i _ => ?_)
  simp only [Function.comp_apply, List.getD_cons_succ, Nat.mul_succ, Nat.add_assoc, Nat.add_comm room]

/-- One piece of a history leaves; beside the state stands the index that follows it. -/
def State.sendHistory (c : Client) (acc : State × Nat) (ts : List Nat) : State × Nat :=
  (acc.1.sendDatagram c.airspace c.eth (32 + 3 * ts.length) (isV4 c.addr) (.history c c.handle acc.2 ts), acc.2 + ts.length)

theorem pieces_nil {α : Type} (n k : Nat) : pieces n k ([] : List α) = [] := by cases k <;> rfl

/-- Every piece but the last is full, so the running index is the one that the piece's number gives. -/
theorem sendHistory_sent {s : State} (c : Client) (room : Nat) (k : Nat) (toks : List Nat) (u : State) (lo : Nat)
    (due : List (Nat × Nat × Out)) (l : List Out) (h : Sent s u c.airspace due l) :
    ∃ m, Sent s ((pieces room k toks).foldl (State.sendHistory c) (u, lo)).1 c.airspace (due ++ historyDue s c room lo (pieces room k toks)) m := by
  induction k generalizing toks u lo due l with
  | zero => exact ⟨l, by simpa [pieces, historyDue] using h⟩
  | succ k ih =>
    unfold pieces
    split
    · exact ⟨l, by simpa [historyDue] using h⟩
    · obtain ⟨m, hm⟩ := sendDatagram_sent u c.airspace c.eth (32 + 3 * (toks.take room).length) (isV4 c.addr) (.history c c.handle lo (toks.take room))
        (decide ((s.asp c.airspace).vlan ≠ 0)) (by rw [h.own])
      obtain ⟨m', hm'⟩ := ih (toks.drop room) _ (lo + (toks.take room).length) _ _ (h.trans hm)
      refine ⟨m', ?_⟩
      rw [historyDue_cons, List.foldl_cons]
      by_cases hfull : room ≤ toks.length
      · rw [List.length_take, Nat.min_eq_left hfull] at hm'
        simpa [State.sendHistory, Nat.min_eq_left hfull] using hm'
      · rw [List.drop_eq_nil_of_le (by omega), pieces_nil] at hm' ⊢
        simpa [State.sendHistory, historyDue] using hm'

end Sys2Proof.Machine
end

section
/-! PROOFS. What the Ethernet ports do with frames, and retransmissions (R242-R246, R253-R262, R368). -/
namespace Sys2Proof.Machine

/-! ### Retransmissions -/

theorem batches_sent {s : State} {a : Nat} (e : Dest) (l : List Batch) (hdest : ∀ b ∈ l, (s.asp a).dests.find b.dest = some e) :
    ∃ k, Sent s (l.foldl (fun s b => (s.bump (Reg.Eth.RETRANSMITS a)).sendBatch a b true) s) a
      (l.flatMap (batchDue s a e (decide ((s.asp a).vlan ≠ 0)))) k :=
  foldl_sent l _ (batchDue s a e (decide ((s.asp a).vlan ≠ 0))) (fun u _ _ hu b hb => by
    have hbump := bump_sent u (Reg.Eth.RETRANSMITS a) a
    obtain ⟨k, hk⟩ := sendBatch_sent (hu.trans hbump) b e (hdest b hb)
    exact ⟨k, by simpa using hbump.trans hk⟩) s [] [] (Sent.refl s a)

section
variable {s : State} {c : Client} (hnew : s.remembered c = none)
include hnew

theorem retransmit_batch_unknown (dest lo hi : Nat) (h : (s.asp c.airspace).dests.find dest = none) :
    exec (.retransmit c dest 0 lo hi) s = .next (s.answerNow c .badParameter) := by
  change Host.Outcome.next (opRetransmit c dest 0 lo hi s) = _
  simp only [opRetransmit, hnew, h, if_true]
  rfl

theorem retransmit_batch (dest lo hi : Nat) {e : Dest} (h : (s.asp c.airspace).dests.find dest = some e) : exec (.retransmit c dest 0 lo hi) s = .next (
    if lo = 0 ∨ hi = 0 ∨ 256 ≤ seqAfter lo hi then s.answerNow c .badParameter
    else if e.addr ≠ c.addr then s.answerNow c .notPermitted
    else
      let kept := (s.asp c.airspace).batches.filter fun b => b.dest = dest && inSeq lo hi b.seq && decide (s.tick.count ≤ b.tick + 4096)
      (kept.foldl (fun s b => (s.bump (Reg.Eth.RETRANSMITS c.airspace)).sendBatch c.airspace b true) s).answerNow c
        (if kept.length = seqAfter lo hi + 1 then .ok else .noResource)) := by
  change Host.Outcome.next (opRetransmit c dest 0 lo hi s) = _
  simp only [opRetransmit, hnew, h, if_true, Bool.or_eq_true, decide_eq_true_eq, or_assoc]
  rfl

theorem retransmit_badMode (dest mode lo hi : Nat) (h : 2 ≤ mode) : exec (.retransmit c dest mode lo hi) s = .next (s.answerNow c .badParameter) := by
  change Host.Outcome.next (opRetransmit c dest mode lo hi s) = _
  simp only [opRetransmit, hnew, if_neg (show mode ≠ 0 by omega), if_neg (show mode ≠ 1 by omega)]
  rfl

theorem retransmit_history_off (dest lo hi : Nat) (ha : s.start.power ≠ .active) (hl : s.start.power ≠ .lull) :
    exec (.retransmit c dest 1 lo hi) s = .next s := by
  change Host.Outcome.next (opRetransmit c dest 1 lo hi s) = _
  simp [opRetransmit, hnew, ha, hl]

theorem retransmit_history (dest lo hi : Nat) (hp : s.start.power = .active ∨ s.start.power = .lull) : exec (.retransmit c dest 1 lo hi) s = .next (
    match s.namedBy c.airspace c.handle with
    | none => s.answerNow c .badParameter
    | some n =>
      if hi < lo ∨ (s.sess n).history.length ≤ hi ∨ 65536 ≤ hi - lo then s.answerNow c .badParameter
      else
        let toks := ((s.sess n).history.drop lo).take (hi - lo + 1)
        ((pieces (s.partRoom c.eth 3 (isV4 c.addr)) (toks.length + 1) toks).foldl (State.sendHistory c) (s, lo)).1.answerNow c .ok) := by
  change Host.Outcome.next (opRetransmit c dest 1 lo hi s) = _
  have hserves : ¬((s.start.power ≠ .active && s.start.power ≠ .lull) = true) := by
    obtain hp | hp := hp <;> simp [hp]
  simp only [opRetransmit, hnew, if_neg (show ¬(1 = 0) by omega), if_true, if_neg hserves, Bool.or_eq_true, decide_eq_true_eq, or_assoc]
  cases s.namedBy c.airspace c.handle <;> rfl

end

/-- The outcome is a state after the request was answered, with the frames `due` before the acknowledgement. -/
def EndsWith (s : State) (c : Client) (o : Host.Outcome State Fault Refusal) (due : List (Nat × Nat × Out)) (st : Status) : Prop :=
  ∃ t l', o = .next t ∧ t = { s with airspaces := t.airspaces, regs := t.regs, out := s.out ++ l' }
    ∧ l'.Sublist ((due ++ [ackDue s c st]).map fun e => e.2.2)
    ∧ ((∃ n, n < 4 ∧ (s.ethPort n).linkUp = true) → (∀ n, 400 ≤ (s.ethPort n).cap) →
      ((due ++ [ackDue s c st]).map fun e => e.2.1).sum ≤ (s.asp c.airspace).bucket →
      l' = (due ++ [ackDue s c st]).map (fun e => e.2.2)
      ∧ (t.asp c.airspace).bucket = (s.asp c.airspace).bucket - ((due ++ [ackDue s c st]).map fun e => e.2.1).sum)
    ∧ (t.asp c.airspace).answers.getLast? = some { addr := c.addr, port := c.port, seq := c.seq
                                                   answer := some { client := c, status := st, handle := c.handle }, at_ := s.tick.wall480 }
    ∧ (∀ b, b ≠ c.airspace → t.asp b = s.asp b)
    ∧ t.asp c.airspace = { s.asp c.airspace with bucket := (t.asp c.airspace).bucket, answers := (t.asp c.airspace).answers }

theorem endsWith_of_sent {s u : State} {c : Client} {due : List (Nat × Nat × Out)} {l : List Out} {o : Host.Outcome State Fault Refusal} {st : Status}
    (h : Sent s u c.airspace due l) (ho : o = .next (u.answerNow c st)) : EndsWith s c o due st := by
  obtain ⟨k, hk⟩ := answerNow_answered h st
  generalize u.answerNow c st = t at ho hk
  exact ⟨t, k, ho, hk.frame, hk.sub, hk.all, hk.last, hk.others, hk.own⟩

/-- A request answered with nothing before the acknowledgement. -/
theorem endsWith_refused {s : State} {c : Client} {o : Host.Outcome State Fault Refusal} {st : Status} (ho : o = .next (s.answerNow c st)) :
    EndsWith s c o [] st := endsWith_of_sent (Sent.refl s c.airspace) ho

/-- The frames of batches are their parts, each with the batch's port and its cost. -/
theorem flatMap_batchDue (s : State) (a : Nat) (e : Dest) (tagged : Bool) (F : Out → Nat × Nat × Out) (l : List Batch)
    (hF : ∀ b, F (.stepBatch a b true) = (e.eth, frameBytes (32 + 16 * b.records.length) (isV4 e.addr) tagged, .stepBatch a b true)) :
    l.flatMap (batchDue s a e tagged) = (l.flatMap fun b =>
      let parts := pieces (s.partRoom e.eth 16 (isV4 e.addr)) (b.records.length + 1) b.records
      (List.range parts.length).map fun i => Out.stepBatch a { b with records := parts.getD i [], part := i, parts := parts.length } true).map F := by
  simp only [List.map_flatMap, List.map_map, Function.comp_def, hF]
  rfl

/-! ### Ports and leases -/

theorem ethPort_updEth_other (s : State) (n m : Nat) (g : EthPort → EthPort) (h : m ≠ n) : (s.updEth n g).ethPort m = s.ethPort m := by
  simp [State.ethPort, Tbl.getD_set_other, h]

/-- A port whose link and lock are set as `v`, in its state and its register. -/
def State.setLink (s : State) (n : Nat) (v : Bool) : State :=
  ((s.updEth n fun x => { x with linkUp := v, fecLock := v }).put (Reg.Eth.LINK_UP n) v.toNat).put (Reg.Eth.FEC_LOCK n) v.toNat

theorem setLink_frame (s : State) (n : Nat) (v : Bool) : s.setLink n v = { s with eth := (s.setLink n v).eth, regs := (s.setLink n v).regs } := by
  have hregs : (s.setLink n v).sansRegs = (s.updEth n fun x => { x with linkUp := v, fecLock := v }).sansRegs := by
    simp only [State.setLink, State.sansRegs_put]
  have heth := congrArg State.eth hregs
  rw [show (s.setLink n v).eth = (s.updEth n fun x => { x with linkUp := v, fecLock := v }).eth from heth]
  exact eq_of_sansRegs hregs

theorem setLink_port (s : State) (n : Nat) (v : Bool) : (s.setLink n v).ethPort n = { s.ethPort n with linkUp := v, fecLock := v } := by
  change (s.updEth n fun x => { x with linkUp := v, fecLock := v }).ethPort n = _
  rw [State.ethPort_updEth]

theorem setLink_port_other (s : State) (n m : Nat) (v : Bool) (h : m ≠ n) : (s.setLink n v).ethPort m = s.ethPort m :=
  ethPort_updEth_other s n m (fun x => { x with linkUp := v, fecLock := v }) h

theorem setLink_fecLock (s : State) (n : Nat) (v : Bool) : (s.setLink n v).get (Reg.Eth.FEC_LOCK n) = v.toNat := by
  refine State.get_put _ (Reg.Eth.FEC_LOCK n) _ (show 1 < 32 by omega) (show 1 ≤ 1 by omega) ?_
  exact (show v.toNat < 2 from Bool.toNat_lt v)

theorem setLink_linkUp (s : State) (n : Nat) (v : Bool) : (s.setLink n v).get (Reg.Eth.LINK_UP n) = v.toNat := by
  refine (State.get_put_apart _ (Reg.Eth.FEC_LOCK n) (Reg.Eth.LINK_UP n) _ (show 0 < 32 by omega) (show 1 ≤ 1 by omega) (show 0 ≤ 0 by omega)
    (.inl (show 0 < 1 by omega))).trans (State.get_put _ (Reg.Eth.LINK_UP n) _ (show 0 < 32 by omega) (show 0 ≤ 0 by omega) ?_)
  exact (show v.toNat < 2 from Bool.toNat_lt v)

theorem setLink_reg_other (s : State) (n k : Nat) (v : Bool) (h : k ≠ (Reg.Eth.LINK_UP n).addr) : (s.setLink n v).reg k = s.reg k :=
  (State.reg_put_other _ (Reg.Eth.FEC_LOCK n) _ k h).trans (State.reg_put_other _ (Reg.Eth.LINK_UP n) _ k h)

end Sys2Proof.Machine
end

section
/-! PROOFS. Frames of the Ethernet ports (R242, R243, R245, R246), and O37. -/
namespace Sys2Proof.Machine
open Sys2Proof

/-! ### Frames -/

/-- A frame has been counted. -/
def State.counted (s : State) (f : Frame) : State := s.bump (Reg.Eth.RX_FRAMES f.port)

/-- A frame that is counted as bad. -/
def State.badFrame (s : State) (f : Frame) : State := (s.counted f).bump (Reg.Eth.BAD_FRAME f.port)

/-- An airspace takes a DHCPv6 message of a frame. -/
def State.leases (s : State) (f : Frame) (a : Nat) : Bool :=
  s.reaches f a && decide (f.dstPort = 546) && (s.asp a).dhcp && linkLocal f.port a == f.dstAddr

section
variable (s : State) (f : Frame)

theorem ethernetFrame_pause (h : f.pause = true) : exec (.ethernetFrame f) s = .next (s.counted f) := by
  change Host.Outcome.next (opFrame f s) = _
  rw [opFrame, if_pos h]
  rfl

theorem ethernetFrame_shut (h : f.pause = false)
    (hs : (s.ethPort f.port).mtu < f.length ∨ f.fcsOk = false ∨ f.fragment = true ∨ f.extensionOrOptions = true) :
    exec (.ethernetFrame f) s = .next (s.badFrame f) := by
  change Host.Outcome.next (opFrame f s) = _
  rw [opFrame, if_neg (by simp [h]), if_pos]
  · rfl
  · change (decide ((s.ethPort f.port).mtu < f.length) || !f.fcsOk || f.fragment || f.extensionOrOptions) = true
    simpa [or_assoc] using hs

variable (hpause : f.pause = false)
  (hopen : ¬((s.ethPort f.port).mtu < f.length ∨ f.fcsOk = false ∨ f.fragment = true ∨ f.extensionOrOptions = true))
include hpause hopen

/-- A frame that is carried out: an echo, a lease, or a message. -/
theorem ethernetFrame_open : exec (.ethernetFrame f) s = .next (match f.echo with
    | some code => match (List.range 8).find? fun a => s.reaches f a && s.owns f.port a f.dstAddr with
      | none => s.badFrame f
      | some a => (s.counted f).sendFrame a f.port (max 64 f.length) (.echoReply f.port code)
    | none =>
      if f.udpChecksumOk ≠ some true then s.badFrame f
      else match (List.range 8).find? (s.leases f) with
        | some a => (s.counted f).takeLease a f.payload
        | none => match (s.airspaceAt f.port f.dstAddr f.dstPort).filter (s.reaches f) with
          | none => s.badFrame f
          | some a =>
            if !(s.asp a).filters.isEmpty && !(s.asp a).filters.any (inPrefix f.srcAddr) then (s.counted f).bump (Reg.Eth.FILTERED a)
            else if !headerOk f.payload then (s.counted f).bump (Reg.Eth.BAD_MESSAGE f.port)
            else (s.counted f).message ⟨a, f.srcAddr, f.srcPort, f.port, msgAt f.payload 8 4, msgAt f.payload 12 4, !isV4 f.srcAddr⟩ f.payload) := by
  change Host.Outcome.next (opFrame f s) = _
  have hgood : ¬((decide (((s.bump (Reg.Eth.RX_FRAMES f.port)).ethPort f.port).mtu < f.length) || !f.fcsOk || f.fragment || f.extensionOrOptions) = true) := by
    change ¬((decide ((s.ethPort f.port).mtu < f.length) || !f.fcsOk || f.fragment || f.extensionOrOptions) = true)
    simpa [or_assoc] using hopen
  rw [opFrame, if_neg (by simp [hpause]), if_neg hgood]
  rfl

theorem ethernetFrame_echo_lost (code : Nat) (he : f.echo = some code)
    (h : ∀ a, a < 8 → s.reaches f a = true → s.owns f.port a f.dstAddr = false) : exec (.ethernetFrame f) s = .next (s.badFrame f) := by
  have hfind : (List.range 8).find? (fun a => s.reaches f a && s.owns f.port a f.dstAddr) = none :=
    find?_range_none fun a ha => by cases hr : s.reaches f a <;> simp [h a ha, hr]
  simp only [ethernetFrame_open s f hpause hopen, he, hfind]

theorem ethernetFrame_echo (code a : Nat) (he : f.echo = some code) (ha : a < 8) (hr : s.reaches f a = true) (ho : s.owns f.port a f.dstAddr = true)
    (hb : ∀ b, b < a → s.reaches f b = true → s.owns f.port b f.dstAddr = false) :
    exec (.ethernetFrame f) s = .next ((s.counted f).sendFrame a f.port (max 64 f.length) (.echoReply f.port code)) := by
  have hfind : (List.range 8).find? (fun a => s.reaches f a && s.owns f.port a f.dstAddr) = some a :=
    find?_range_first ha (by simp [hr, ho]) fun b hba => by cases hr : s.reaches f b <;> simp [hb b hba, hr]
  simp only [ethernetFrame_open s f hpause hopen, he, hfind]

theorem ethernetFrame_badChecksum (he : f.echo = none) (hc : f.udpChecksumOk ≠ some true) : exec (.ethernetFrame f) s = .next (s.badFrame f) := by
  simp only [ethernetFrame_open s f hpause hopen, he, if_pos hc]

theorem ethernetFrame_lease (a : Nat) (he : f.echo = none) (hc : f.udpChecksumOk = some true) (ha : a < 8) (hl : s.leases f a = true)
    (hb : ∀ b, b < a → s.leases f b = false) : exec (.ethernetFrame f) s = .next ((s.counted f).takeLease a f.payload) := by
  simp only [ethernetFrame_open s f hpause hopen, he, if_neg (not_not.2 hc), find?_range_first ha hl hb]

theorem ethernetFrame_unaddressed (he : f.echo = none) (hc : f.udpChecksumOk = some true) (hl : ∀ b, b < 8 → s.leases f b = false)
    (h : ∀ a, s.airspaceAt f.port f.dstAddr f.dstPort = some a → s.reaches f a = false) : exec (.ethernetFrame f) s = .next (s.badFrame f) := by
  have hnone : (s.airspaceAt f.port f.dstAddr f.dstPort).filter (s.reaches f) = none := by
    cases hat : s.airspaceAt f.port f.dstAddr f.dstPort with
    | none => rfl
    | some a => simp [Option.filter, h a hat]
  simp only [ethernetFrame_open s f hpause hopen, he, if_neg (not_not.2 hc), find?_range_none hl, hnone]

/-- A datagram for an airspace: filtered, of a bad header, or a message. -/
theorem ethernetFrame_addressed (a : Nat) (he : f.echo = none) (hc : f.udpChecksumOk = some true) (hl : ∀ b, b < 8 → s.leases f b = false)
    (hat : s.airspaceAt f.port f.dstAddr f.dstPort = some a) (hr : s.reaches f a = true) : exec (.ethernetFrame f) s = .next (
      if !(s.asp a).filters.isEmpty && !(s.asp a).filters.any (inPrefix f.srcAddr) then (s.counted f).bump (Reg.Eth.FILTERED a)
      else if !headerOk f.payload then (s.counted f).bump (Reg.Eth.BAD_MESSAGE f.port)
      else (s.counted f).message ⟨a, f.srcAddr, f.srcPort, f.port, msgAt f.payload 8 4, msgAt f.payload 12 4, !isV4 f.srcAddr⟩ f.payload) := by
  have hsome : (s.airspaceAt f.port f.dstAddr f.dstPort).filter (s.reaches f) = some a := by simp [hat, Option.filter, hr]
  simp only [ethernetFrame_open s f hpause hopen, he, if_neg (not_not.2 hc), find?_range_none hl, hsome]

end

/-! ### Leases -/

theorem takeLease_none (s : State) (a : Nat) (b : List Byte) (h : dhcpAddress b = none) : s.takeLease a b = s := by
  simp only [State.takeLease, h]

/-- Another airspace holds the address. -/
def State.heldElsewhere (s : State) (a addr : Nat) : Prop :=
  ∃ b, b < 8 ∧ b ≠ a ∧ ((∃ e ∈ (s.asp b).addresses, e.2.1 = addr) ∨ (s.asp b).lease = some addr)

theorem heldElsewhere_iff (s : State) (a addr : Nat) :
    (((List.range 8).filter (· != a)).any fun o => ((s.asp o).addresses.any fun e => e.2.1 = addr) || (s.asp o).lease == some addr) = true
      ↔ s.heldElsewhere a addr := by
  simp [State.heldElsewhere, List.any_eq_true]

theorem takeLease_held (s : State) (a addr : Nat) (b : List Byte) (h : dhcpAddress b = some addr) (hh : s.heldElsewhere a addr) : s.takeLease a b = s := by
  simp only [State.takeLease, h, if_pos ((heldElsewhere_iff s a addr).2 hh)]

theorem takeLease_free (s : State) (a addr : Nat) (b : List Byte) (h : dhcpAddress b = some addr) (hh : ¬s.heldElsewhere a addr) :
    s.takeLease a b = s.updAsp a fun x => { x with lease := some addr } := by
  simp only [State.takeLease, h, if_neg (mt (heldElsewhere_iff s a addr).1 hh)]

/-! ### Messages -/

theorem headerOk_iff (b : List Byte) : headerOk b = true ↔ 24 ≤ b.length ∧ msgAt b 0 2 = 0x5456 ∧ msgAt b 2 1 = 1 ∧ 1 ≤ msgAt b 3 1 ∧ msgAt b 3 1 ≤ 7
    ∧ msgAt b 4 2 = b.length ∧ msgAt b 6 2 ≤ 1 := by
  simp [headerOk, and_assoc]

/-- A message that names a session by its handle (R245). -/
def namesSession (b : List Byte) : Prop := msgAt b 3 1 ≠ 1 ∧ msgAt b 3 1 ≠ 7 ∧ (msgAt b 3 1 = 6 → msgAt b 26 1 ≠ 0)

/-- TICK is 0, and so is the handle of a message that names no session. -/
def plainMessage (c : Client) (b : List Byte) : Prop := msgAt b 16 8 = 0 ∧ (namesSession b ∨ c.handle = 0)

/-- The length of a message does not fit its type, or a field is out of its range. -/
def misfitMessage (b : List Byte) : Prop :=
  (msgAt b 3 1 ≤ 2 ∧ readOpenPart b = none) ∨ ((msgAt b 3 1 = 3 ∨ msgAt b 3 1 = 4) ∧ b.length ≠ 28) ∨ (msgAt b 3 1 = 5 ∧ b.length ≠ 24)
    ∨ (msgAt b 3 1 = 6 ∧ (b.length ≠ 36 ∨ msgAt b 27 1 ≠ 0))
    ∨ (msgAt b 3 1 = 7 ∧ (msgAt b 26 2 ≠ 0 ∨ msgAt b 38 2 ≠ 0 ∨ b.length ≠ 40 + msgAt b 36 2))

theorem plainMessage_iff (c : Client) (b : List Byte) : plainMessage c b ↔
    ¬((msgAt b 16 8 ≠ 0 || (!(msgAt b 3 1 ≠ 1 && msgAt b 3 1 ≠ 7 && !(msgAt b 3 1 = 6 && msgAt b 26 1 = 0)) && c.handle ≠ 0)) = true) := by
  simp only [plainMessage, namesSession, Bool.or_eq_true, Bool.and_eq_true, Bool.not_eq_true', decide_eq_true_eq, Bool.and_eq_false_iff, decide_eq_false_iff_not,
    Bool.not_eq_false', not_not, not_or, not_and]
  tauto

theorem message_notPlain (s : State) (c : Client) (b : List Byte) (h : ¬plainMessage c b) : s.message c b = s.badMessage c :=
  if_pos (not_not.1 (mt (plainMessage_iff c b).2 h))

section
variable (s : State) (c : Client) (b : List Byte) (hp : plainMessage c b)
include hp

theorem message_one {p : OpenPart} (h : msgAt b 3 1 = 1) (hr : readOpenPart b = some p) : s.message c b = s.openPart c false p :=
  (if_neg ((plainMessage_iff c b).1 hp)).trans (by simp only [h, hr])

theorem message_two {p : OpenPart} (h : msgAt b 3 1 = 2) (hr : readOpenPart b = some p) : s.message c b = s.openPart c true p :=
  (if_neg ((plainMessage_iff c b).1 hp)).trans (by simp only [h, hr])

theorem message_noPart (h : msgAt b 3 1 = 1 ∨ msgAt b 3 1 = 2) (hr : readOpenPart b = none) : s.message c b = s.badMessage c :=
  (if_neg ((plainMessage_iff c b).1 hp)).trans (by obtain h | h := h <;> simp only [h, hr])

theorem message_three (h : msgAt b 3 1 = 3) : s.message c b = if b.length = 28 then s.opCancel c (msgAt b 24 4) else s.badMessage c :=
  (if_neg ((plainMessage_iff c b).1 hp)).trans (by simp only [h])

theorem message_four (h : msgAt b 3 1 = 4) : s.message c b = if b.length = 28 then s.opPause c (msgAt b 24 4) else s.badMessage c :=
  (if_neg ((plainMessage_iff c b).1 hp)).trans (by simp only [h])

theorem message_five (h : msgAt b 3 1 = 5) : s.message c b = if b.length = 24 then s.opResume c else s.badMessage c :=
  (if_neg ((plainMessage_iff c b).1 hp)).trans (by simp only [h])

theorem message_six (h : msgAt b 3 1 = 6) : s.message c b = if b.length = 36 && msgAt b 27 1 = 0 then
    opRetransmit c (msgAt b 24 2) (msgAt b 26 1) (msgAt b 28 4) (msgAt b 32 4) s else s.badMessage c :=
  (if_neg ((plainMessage_iff c b).1 hp)).trans (by simp only [h])

theorem message_seven (h : msgAt b 3 1 = 7) : s.message c b =
    if msgAt b 26 2 = 0 && msgAt b 38 2 = 0 && b.length = 40 + msgAt b 36 2 then
      opChunk ⟨c.airspace, c.addr, msgAt b 24 2, msgAt b 28 4, msgAt b 32 4, b.drop 40⟩ s
    else s.badMessage c :=
  (if_neg ((plainMessage_iff c b).1 hp)).trans (by simp only [h])

theorem message_misfit (h : misfitMessage b) (hone : 1 ≤ msgAt b 3 1) : s.message c b = s.badMessage c := by
  obtain ⟨htype, hpart⟩ | ⟨h3 | h4, hlen⟩ | ⟨h5, hlen⟩ | ⟨h6, hbad⟩ | ⟨h7, hbad⟩ := h
  · exact message_noPart s c b hp (by omega) hpart
  · rw [message_three s c b hp h3, if_neg hlen]
  · rw [message_four s c b hp h4, if_neg hlen]
  · rw [message_five s c b hp h5, if_neg hlen]
  · rw [message_six s c b hp h6, if_neg (by simpa [Decidable.imp_iff_not_or] using hbad)]
  · rw [message_seven s c b hp h7, if_neg (by simpa [Decidable.imp_iff_not_or, or_assoc] using hbad)]

end

/-- A message that is not plain or does not fit its type. -/
theorem message_bad (s : State) (c : Client) (b : List Byte) (hb : headerOk b = true) (h : ¬plainMessage c b ∨ misfitMessage b) :
    s.message c b = s.badMessage c := by
  by_cases hp : plainMessage c b
  · exact message_misfit s c b hp (h.resolve_left (not_not.2 hp)) ((headerOk_iff b).1 hb).2.2.2.1
  · exact message_notPlain s c b hp

end Sys2Proof.Machine
end

section
/-! PROOFS. O37: ports, leases, frames and retransmissions together. -/
namespace Sys2Proof.Machine
open Sys2Proof

/-- Egress, by the port that carries the frame. -/
theorem sendFrame_cases (s : State) (a port cost : Nat) (o : Out) : let u := s.sendFrame a port cost o
    (∀ n, ((s.ethPort port).linkUp = true ∧ n = port) ∨ ((s.ethPort port).linkUp = false ∧ n < 4 ∧ (s.ethPort n).linkUp = true
        ∧ ∀ m, m < n → (s.ethPort m).linkUp = false) →
      (((s.asp a).bucket < cost → u = s.bump (Reg.Eth.CAP_DROP a))
      ∧ (cost ≤ (s.asp a).bucket → ∃ v : State, v = { s with airspaces := v.airspaces } ∧ v.asp a = { s.asp a with bucket := (s.asp a).bucket - cost }
        ∧ (∀ b, b ≠ a → v.asp b = s.asp b)
        ∧ (400 ≤ (s.ethPort n).cap → u = (v.bump (Reg.Eth.TX_FRAMES n)).emit o)
        ∧ (u = (v.bump (Reg.Eth.TX_FRAMES n)).emit o ∨ u = v.bump (Reg.Eth.TX_CAP_DROP n)))))
    ∧ ((s.ethPort port).linkUp = false → (∀ n, n < 4 → (s.ethPort n).linkUp = false) → u = s) := by
  refine ⟨fun n hn => sendFrame_by_port s a port cost n o ?_, fun hdown hall => sendFrame_none s a port cost o (egressPort_none s port hdown hall)⟩
  obtain ⟨hup, rfl⟩ | ⟨hdown, hn4, hup, hlow⟩ := hn
  · exact egressPort_up s n hup
  · exact egressPort_lowest s port n hdown hn4 hup hlow

theorem leases_iff (s : State) (f : Frame) (a : Nat) :
    s.leases f a = true ↔ s.reaches f a = true ∧ f.dstPort = 546 ∧ (s.asp a).dhcp = true ∧ linkLocal f.port a = f.dstAddr := by
  simp [State.leases, and_assoc]

theorem badMessage_remembered (s : State) (c : Client) (r : Remembered) (h : s.remembered c = some r) : s.badMessage c = s.duplicate c r := by
  simp only [State.badMessage, h]

theorem badMessage_new (s : State) (c : Client) (h : s.remembered c = none) :
    s.badMessage c = (s.remember c).ackLater { client := c, status := .badParameter, handle := c.handle } := by
  simp only [State.badMessage, h]
  rfl

/-- A message whose fields are right is carried out by its type's rule. -/
theorem message_carriedOut (s : State) (c : Client) (b : List Byte) (hp : plainMessage c b) (hfit : ¬misfitMessage b) :
    (∀ p, readOpenPart b = some p →
      (msgAt b 3 1 = 1 → Host.Outcome.next (s.message c b) = exec (.openMsg c p) s) ∧ (msgAt b 3 1 = 2 → Host.Outcome.next (s.message c b) = exec (.continueMsg c p) s))
    ∧ (msgAt b 3 1 = 3 → Host.Outcome.next (s.message c b) = exec (.cancel c (msgAt b 24 4)) s)
    ∧ (msgAt b 3 1 = 4 → Host.Outcome.next (s.message c b) = exec (.pause c (msgAt b 24 4)) s)
    ∧ (msgAt b 3 1 = 5 → Host.Outcome.next (s.message c b) = exec (.resume c) s)
    ∧ (msgAt b 3 1 = 6 → Host.Outcome.next (s.message c b) = exec (.retransmit c (msgAt b 24 2) (msgAt b 26 1) (msgAt b 28 4) (msgAt b 32 4)) s)
    ∧ (msgAt b 3 1 = 7 → Host.Outcome.next (s.message c b)
      = exec (.imageChunk ⟨c.airspace, c.addr, msgAt b 24 2, msgAt b 28 4, msgAt b 32 4, b.drop 40⟩) s) := by
  simp only [misfitMessage, not_or, not_and, not_not] at hfit
  obtain ⟨-, hlen34, hlen5, hfit6, hfit7⟩ := hfit
  refine ⟨fun p hr => ⟨fun h => ?_, fun h => ?_⟩, fun h => ?_, fun h => ?_, fun h => ?_, fun h => ?_, fun h => ?_⟩
  · have hhandle : c.handle = 0 := hp.2.resolve_left fun hn => hn.1 h
    rw [message_one s c b hp h hr]
    obtain ⟨a, addr, port, eth, seq, handle, v6⟩ := c
    obtain rfl : handle = 0 := hhandle
    rfl
  · rw [message_two s c b hp h hr]
    rfl
  · rw [message_three s c b hp h, if_pos (hlen34 (.inl h))]
    rfl
  · rw [message_four s c b hp h, if_pos (hlen34 (.inr h))]
    rfl
  · rw [message_five s c b hp h, if_pos (hlen5 h)]
    rfl
  · rw [message_six s c b hp h, if_pos (by simpa using hfit6 h)]
    rfl
  · rw [message_seven s c b hp h, if_pos (by simpa [and_assoc] using hfit7 h)]
    rfl

/-- A datagram that no filter of an airspace that filters lets through. -/
theorem filtered_iff (filters : List (Nat × Nat)) (addr : Nat) :
    (!filters.isEmpty && !filters.any (inPrefix addr)) = true ↔ filters ≠ [] ∧ ∀ p ∈ filters, inPrefix addr p = false := by
  simp

/-- Settles O37: egress by port and bucket, frames by their checks, retransmissions by the frames that are due. -/
theorem portsAndRetransmissionsAct : Obligations.PortsAndRetransmissionsAct := by
  unfold Obligations.PortsAndRetransmissionsAct
  intro s
  refine ⟨fun a port cost o => sendFrame_cases s a port cost o, fun f => ?frames, fun n hn => ?down, fun n => ⟨fun hn => ?fall, ?rise⟩, fun a => ?lease,
    fun c hnew => ?again⟩
  case down => exact congrArg Host.Outcome.next (if_pos (by simp [hn]))
  case fall =>
    refine ⟨s.setLink n false, congrArg Host.Outcome.next (if_neg (by simp [hn])), setLink_frame s n false, setLink_port s n false,
      fun m hm => setLink_port_other s n m false hm, setLink_linkUp s n false, setLink_fecLock s n false, fun k hk => setLink_reg_other s n k false hk⟩
  case rise =>
    exact ⟨s.setLink n true, rfl, setLink_frame s n true, setLink_port s n true, fun m hm => setLink_port_other s n m true hm, setLink_linkUp s n true,
      setLink_fecLock s n true, fun k hk => setLink_reg_other s n k true hk⟩
  case lease => exact ⟨_, rfl, rfl, State.asp_updAsp .., fun b hb => State.asp_updAsp_other _ _ _ _ hb⟩
  case frames =>
    refine ⟨ethernetFrame_pause s f, ethernetFrame_shut s f, fun code hp hs he => ⟨ethernetFrame_echo_lost s f hp hs code he,
      fun a ha hr ho hb => ethernetFrame_echo s f hp hs code a he ha hr ho hb⟩, fun hp he hc => ?_, fun a hopen ha hl hb => ?_, fun hopen hl => ?_⟩
    · by_cases hs : (s.ethPort f.port).mtu < f.length ∨ f.fcsOk = false ∨ f.fragment = true ∨ f.extensionOrOptions = true
      · exact ethernetFrame_shut s f hp hs
      · exact ethernetFrame_badChecksum s f hp hs he hc
    · obtain ⟨hp, hs, he, hc⟩ := hopen
      have hrun := ethernetFrame_lease s f hp hs a he hc ha ((leases_iff s f a).2 hl) fun b hba => by
        simpa using mt (leases_iff s f b).1 (hb b hba)
      rw [hrun]
      refine ⟨fun hn => congrArg _ (takeLease_none _ a _ hn), fun addr hd => ⟨fun hh => congrArg _ (takeLease_held _ a addr _ hd hh), fun hh => ?_⟩⟩
      rw [takeLease_free (s.counted f) a addr _ hd hh]
      exact ⟨_, rfl, rfl, State.asp_updAsp .., fun b hb => State.asp_updAsp_other _ _ _ _ hb⟩
    · obtain ⟨hp, hs, he, hc⟩ := hopen
      have hnone (b : Nat) (hb : b < 8) : s.leases f b = false := by simpa using mt (leases_iff s f b).1 (hl b hb)
      refine ⟨ethernetFrame_unaddressed s f hp hs he hc hnone, fun a hat hr => ?_⟩
      have hrun := ethernetFrame_addressed s f hp hs a he hc hnone hat hr
      rw [hrun]
      refine ⟨fun hout => ?_, fun hin hhead => ?_, fun hin hhead hbad => ?_, fun hin hhead hplain hfit => ?_⟩
      · rw [if_pos ((filtered_iff _ _).2 hout)]
        rfl
      · rw [if_neg (mt (filtered_iff _ _).1 hin), if_pos (by simpa using mt (headerOk_iff f.payload).1 hhead)]
        rfl
      · have hok := (headerOk_iff f.payload).2 hhead
        rw [if_neg (mt (filtered_iff _ _).1 hin), if_neg (by simp [hok]), message_bad _ _ _ hok hbad]
        exact ⟨fun r hr => congrArg _ (badMessage_remembered _ _ r hr), fun hr => congrArg _ (badMessage_new _ _ hr)⟩
      · have hok := (headerOk_iff f.payload).2 hhead
        rw [if_neg (mt (filtered_iff _ _).1 hin), if_neg (by simp [hok])]
        exact message_carriedOut _ _ _ hplain hfit
  case again =>
    refine ⟨fun dest lo hi hd => endsWith_refused (retransmit_batch_unknown hnew dest lo hi hd),
      fun dest e lo hi hd => ⟨fun hlong => endsWith_refused ?_, fun hlong he => endsWith_refused ?_, fun hlong he => ?_⟩,
      fun dest mode lo hi hm => endsWith_refused (retransmit_badMode hnew dest mode lo hi hm),
      fun dest lo hi ha hl => retransmit_history_off hnew dest lo hi ha hl,
      fun dest lo hi hp => ⟨fun hn => endsWith_refused ?_, fun n hn => ⟨fun hr => endsWith_refused ?_, fun h1 h2 h3 => ?_⟩⟩⟩
    · rw [retransmit_batch hnew dest lo hi hd, if_pos hlong]
    · rw [retransmit_batch hnew dest lo hi hd, if_neg hlong, if_pos he]
    · obtain ⟨k, hk⟩ := batches_sent e ((s.asp c.airspace).batches.filter fun b => b.dest = dest && inSeq lo hi b.seq && decide (s.tick.count ≤ b.tick + 4096))
        fun b hb => by
          have hdest : b.dest = dest := by simpa using (List.mem_filter.1 hb).2 |> fun h => (Bool.and_eq_true_iff.1 (Bool.and_eq_true_iff.1 h).1).1
          rw [hdest]; exact hd
      rw [flatMap_batchDue s _ e _ (fun o => (e.eth, match o with
        | .stepBatch _ b _ => frameBytes (32 + 16 * b.records.length) (isV4 e.addr) (decide ((s.asp c.airspace).vlan ≠ 0))
        | _ => 0, o)) _ fun _ => rfl] at hk
      exact endsWith_of_sent hk (by rw [retransmit_batch hnew dest lo hi hd, if_neg hlong, if_neg (not_not.2 he)])
    · rw [retransmit_history hnew dest lo hi hp, hn]
    · rw [retransmit_history hnew dest lo hi hp, hn]
      exact congrArg _ (if_pos hr)
    · obtain ⟨m, hm⟩ := sendHistory_sent c (s.partRoom c.eth 3 (isV4 c.addr)) ((((s.sess n).history.drop lo).take (hi - lo + 1)).length + 1)
        (((s.sess n).history.drop lo).take (hi - lo + 1)) s lo [] [] (Sent.refl s c.airspace)
      refine endsWith_of_sent hm ?_
      rw [retransmit_history hnew dest lo hi hp, hn]
      exact congrArg _ (if_neg (by omega))

end Sys2Proof.Machine
end

section
/-! SUPPORT. The end of a transfer and what it gives back (R159, R160, R260). -/
namespace Sys2Proof.Machine
open Sys2Proof

/-! ### Acknowledgements of chunks -/

/-- An acknowledgement of a chunk moves buckets, registers and what left; no answer. -/
theorem sendChunkAck_frame (s : State) (a src num r c d : Nat) : let t := s.sendChunkAck a src num r c d
    t = { s with airspaces := t.airspaces, regs := t.regs, out := t.out } ∧ ∀ o : Src, t.answersTo o = s.answersTo o := by
  intro t
  obtain ⟨l, hl⟩ := sendDatagram_sent s a 0 40 (isV4 src) (.chunkAck src num r c d) _ rfl
  refine ⟨hl.frame, fun o => ?_⟩
  have hreplies : repliesIn l = [] ∧ bmcRepliesIn l = [] := by
    obtain rfl | rfl := List.sublist_singleton.1 hl.sub <;> exact ⟨rfl, rfl⟩
  have hout : t.out = s.out ++ l := hl.out
  have hhost : t.host = s.host := by
    have h := congrArg State.host hl.frame
    exact h
  cases o <;> simp [State.answersTo, hout, hhost, repliesIn_append, bmcRepliesIn_append, hreplies]

/-! ### Banks that a transfer had claimed -/

/-- A bank that an installation holds is emptied. -/
def Bank.sansInstall (b : Bank) : Bank :=
  if b.st == .installing || b.st == .staged || b.st == .incomplete then { b with st := .empty, mem := [], err := [], leaves := [] } else b

theorem Bank.sansInstall_twice (b : Bank) : b.sansInstall.sansInstall = b.sansInstall := by
  by_cases h : (b.st == .installing || b.st == .staged || b.st == .incomplete) = true
  · simp only [Bank.sansInstall, if_pos h]
    rfl
  · simp only [Bank.sansInstall, if_neg h]

theorem Bank.sansInstall_of_claimed (b : Bank) (h : b.st = .installing ∨ b.st = .staged) : b.sansInstall.st = .empty ∧ b.sansInstall.mem = [] := by
  obtain h | h := h <;> simp [Bank.sansInstall, h]

theorem heldState_congr {s t : State} (hp : t.placements = s.placements) (hf : t.fields = s.fields) (p : Nat) : t.heldState p = s.heldState p := by
  simp only [State.heldState, plc_congr hp, field_congr hf]

/-- The write queues of some fields are emptied. -/
def State.sansQueues (s : State) (l : List Nat) : State := s.forAll l fun s f => s.updField f fun x => { x with writeQueue := [] }

theorem sansQueues_frame (s : State) (l : List Nat) : s.sansQueues l = { s with fields := (s.sansQueues l).fields } :=
  foldl_related (R := fun s t => t = { s with fields := t.fields }) (fun _ => rfl) (fun h k => by rw [k, h]) l _ (fun _ _ => rfl) s

theorem sansQueues_bank (s : State) (l : List Nat) (f i : Nat) : (((s.sansQueues l).field f).bank i) = ((s.field f).bank i) := by
  refine forAll_keeps (fun t : State => (t.field f).bank i) l _ (fun t g => ?_) s
  by_cases hg : f = g
  · subst hg
    rw [State.field_updField]
    rfl
  · rw [State.field_updField_other _ _ _ _ hg]

/-- The banks of an installation that named its image are emptied, and so is its placement's image state. -/
def State.sansInstall (s : State) (p : Nat) (i : Image) : State :=
  (s.forAll ((i.fields.filter fun r => r.role = 1).map fun r => (s.plc p).partSite r.field) fun t f =>
    t.updBank f (s.plc p).stagedBank Bank.sansInstall).updPlc p fun y => { y with imageState := .empty, staged := none, stagedAt := [] }

theorem releaseClaims_install (s : State) (t : Transfer) (i : Image) (hk : t.kind = 0) (hi : t.image = some i) :
    s.releaseClaims t = s.sansInstall t.placement i := by
  simp only [State.releaseClaims, hk, hi]
  rfl

theorem sansInstall_frame (s : State) (p : Nat) (i : Image) :
    s.sansInstall p i = { s with placements := (s.sansInstall p i).placements, fields := (s.sansInstall p i).fields } := by
  have hf := foldl_related (R := fun s t : State => t = { s with fields := t.fields }) (fun _ => rfl) (fun h k => by rw [k, h])
    ((i.fields.filter fun r => r.role = 1).map fun r => (s.plc p).partSite r.field) (fun t f => t.updBank f (s.plc p).stagedBank Bank.sansInstall)
    (fun _ _ => rfl) s
  unfold State.sansInstall State.forAll
  generalize List.foldl (fun (t : State) f => t.updBank f (s.plc p).stagedBank Bank.sansInstall) s _ = u at hf ⊢
  rw [hf]
  rfl

theorem sansInstall_plc (s : State) (p : Nat) (i : Image) :
    (s.sansInstall p i).plc p = { s.plc p with imageState := .empty, staged := none, stagedAt := [] } := by
  have hplc := forAll_keeps (fun t : State => t.plc p) ((i.fields.filter fun r => r.role = 1).map fun r => (s.plc p).partSite r.field)
    (fun t f => t.updBank f (s.plc p).stagedBank Bank.sansInstall) (fun _ _ => rfl) s
  rw [State.sansInstall, State.plc_updPlc]
  exact congrArg (fun x : PlacementSt => { x with imageState := .empty, staged := none, stagedAt := [] }) hplc

theorem sansInstall_plc_other (s : State) (p q : Nat) (i : Image) (h : q ≠ p) : (s.sansInstall p i).plc q = s.plc q := by
  have hplc := forAll_keeps (fun t : State => t.plc q) ((i.fields.filter fun r => r.role = 1).map fun r => (s.plc p).partSite r.field)
    (fun t f => t.updBank f (s.plc p).stagedBank Bank.sansInstall) (fun _ _ => rfl) s
  rw [State.sansInstall, State.plc_updPlc_other _ _ _ _ h]
  exact hplc

theorem sansInstall_bank (s : State) (p : Nat) (i : Image) (r : FieldRec) (hr : r ∈ i.fields) (hrole : r.role = 1) :
    ((s.sansInstall p i).field ((s.plc p).partSite r.field)).bank (s.plc p).stagedBank
      = ((s.field ((s.plc p).partSite r.field)).bank (s.plc p).stagedBank).sansInstall :=
  bank_forAll_updBank _ _ _ _ s Bank.sansInstall_twice (List.mem_map.2 ⟨r, List.mem_filter.2 ⟨hr, by simpa using hrole⟩, rfl⟩)

/-! ### The end of an installation -/

/-- A transfer is gone, with what had come for it. -/
def State.sansTransfer (s : State) (t : Transfer) : State :=
  { s with
    transfers := s.transfers.filter fun y => y.number ≠ t.number
    assemblies := s.assemblies.filter fun y => y.transfer ≠ t.number
    chunkStore := s.chunkStore.filter fun y => y.1 ≠ t.number }

/-- A transfer's end is told: to its source, to the gauges and to its command. -/
def State.tellEnd (s : State) (t : Transfer) (st : Status) (result : Nat) : State :=
  (s.chunkAck t result ackLead).gaugeWeights.finalReply t.cmdSrc t.cmdSeq t.cmdOp st

/-- Telling the end of a transfer gives the last answer and leaves the state but for gauges and buckets. -/
theorem tellEnd_told (s : State) (t : Transfer) (st : Status) (result : Nat) (hsrc : t.cmdSrc = .host) : let u := s.tellEnd t st result
    u = { s with placements := u.placements, airspaces := u.airspaces, regs := u.regs, out := u.out, host := u.host }
    ∧ (∀ p, u.plc p = { s.plc p with twinNone := (u.plc p).twinNone })
    ∧ u.answersTo .host = s.answersTo .host ++ [{ seq := t.cmdSeq, opcode := t.cmdOp, status := st, final := true, tick := s.tick.count }] := by
  intro u
  obtain ⟨hv, hva⟩ := sendChunkAck_frame s t.airspace t.source t.number result ackLead t.done.length
  have hu : u = (s.sendChunkAck t.airspace t.source t.number result ackLead t.done.length).gaugeWeights.reply .host
      { seq := t.cmdSeq, opcode := t.cmdOp, status := st, final := true } := by rw [← hsrc]; rfl
  generalize s.sendChunkAck t.airspace t.source t.number result ackLead t.done.length = v at hv hva hu
  have hw := gaugeWeights_gauged v
  generalize v.gaugeWeights = w at hw hu
  have hr := answered_reply w .host { seq := t.cmdSeq, opcode := t.cmdOp, status := st, final := true } (.inl rfl)
  rw [← hu] at hr
  clear_value u
  have hplc : w.plc = u.plc := funext fun p => (plc_congr (by rw [hr.frame]) p).symm
  refine ⟨by rw [hr.frame, hw.frame, hv], fun p => ?_, ?_⟩
  · rw [← hplc, hw.plc p, plc_congr (show v.placements = s.placements by rw [hv])]
  · rw [hr.given, answersTo_frame (show w.out = v.out by rw [hw.frame]) (by rw [hw.frame]) .host, hva .host,
      show w.tick = s.tick by rw [hw.frame, hv]]

/-- An installation without an image yet: its placement's image state is what its banks hold. -/
theorem endTransfer_noImage (s : State) (t : Transfer) (st : Status) (hk : t.kind = 0) (hi : t.image = none) (hst : st ≠ .ok) :
    s.endTransfer t st = (((s.sansTransfer t).updPlc t.placement fun y => { y with imageState := s.heldState t.placement }).tellEnd t st 7) := by
  have hheld : (s.sansTransfer t).heldState t.placement = s.heldState t.placement := heldState_congr rfl rfl _
  have hok : (st == .ok) = false := by simpa using hst
  simp only [State.endTransfer, hk, hi, hok, State.releaseClaims, Bool.false_eq_true, if_false, Bool.and_false]
  rw [← hheld]
  rfl

/-- An installation with its image: the banks are emptied and mirrors built again. -/
theorem endTransfer_image (s : State) (t : Transfer) (i : Image) (st : Status) (hk : t.kind = 0) (hi : t.image = some i) (hst : st ≠ .ok) :
    s.endTransfer t st = ((((s.sansTransfer t).sansQueues (i.fields.flatMap fun r => [(s.plc t.placement).siteOf r.field, (s.plc t.placement).partSite r.field])).sansInstall
      t.placement i).buildTwins t.placement).tellEnd t st 7 := by
  have hok : (st == .ok) = false := by simpa using hst
  rw [← releaseClaims_install _ t i hk hi]
  simp only [State.endTransfer, hk, hi, hok, Bool.false_eq_true, if_false, Bool.and_false]
  rfl

end Sys2Proof.Machine
end

section
/-! PROOFS. INSTALL_CANCEL and SET_WEIGHTS (R159, R160, R165, R175, R260, R405). -/
namespace Sys2Proof.Machine
open Sys2Proof

/-- `e` has `y` for placement p and leaves the others, but for the flag that a live placement lacks a twin. -/
def PlcBut (s e : State) (p : Nat) (y : PlacementSt) : Prop :=
  e.plc p = { y with twinNone := (e.plc p).twinNone } ∧ ∀ q, q ≠ p → e.plc q = { s.plc q with twinNone := (e.plc q).twinNone }

/-- What the end of a cancelled installation leaves. -/
structure Cancelled (s u : State) (t : Transfer) : Prop where
  transfers : u.transfers = s.transfers.filter fun y => y.number ≠ t.number
  cores : u.cores = s.cores
  sessions : u.sessions = s.sessions
  answers : u.answersTo .host = s.answersTo .host
    ++ [{ seq := t.cmdSeq, opcode := t.cmdOp, status := .superseded, final := true, tick := s.tick.count }]

theorem cancel_noImage (s : State) (t : Transfer) (hk : t.kind = 0) (hi : t.image = none) (hsrc : t.cmdSrc = .host) :
    Cancelled s (s.endTransfer t .superseded) t ∧ (s.endTransfer t .superseded).fields = s.fields
    ∧ PlcBut s (s.endTransfer t .superseded) t.placement { s.plc t.placement with imageState := s.heldState t.placement } := by
  rw [endTransfer_noImage s t .superseded hk hi (by simp)]
  have hplc := State.plc_updPlc (s.sansTransfer t) t.placement fun y => { y with imageState := s.heldState t.placement }
  have hother := fun q => State.plc_updPlc_other (s.sansTransfer t) t.placement q fun y => { y with imageState := s.heldState t.placement }
  have hframe : ((s.sansTransfer t).updPlc t.placement fun y => { y with imageState := s.heldState t.placement })
      = { s.sansTransfer t with placements := ((s.sansTransfer t).updPlc t.placement fun y => { y with imageState := s.heldState t.placement }).placements } := rfl
  generalize ((s.sansTransfer t).updPlc t.placement fun y => { y with imageState := s.heldState t.placement }) = v at hplc hother hframe ⊢
  obtain ⟨hu, hup, hua⟩ := tellEnd_told v t .superseded 7 hsrc
  generalize v.tellEnd t .superseded 7 = u at hu hup hua ⊢
  have hva : v.answersTo .host = s.answersTo .host := answersTo_frame (by rw [hframe]; rfl) (by rw [hframe]; rfl) _
  refine ⟨⟨?_, ?_, ?_, ?_⟩, ?_, ?_, fun q hq => ?_⟩
  · rw [hu, hframe]; rfl
  · rw [hu, hframe]; rfl
  · rw [hu, hframe]; rfl
  · rw [hua, hva, show v.tick = s.tick by rw [hframe]; rfl]
  · rw [hu, hframe]; rfl
  · rw [hup, hplc]; rfl
  · rw [hup, hother q hq]; rfl

theorem cancel_image (s : State) (t : Transfer) (i : Image) (hk : t.kind = 0) (hi : t.image = some i) (hsrc : t.cmdSrc = .host) :
    Cancelled s (s.endTransfer t .superseded) t
    ∧ PlcBut s (s.endTransfer t .superseded) t.placement { s.plc t.placement with imageState := .empty, staged := none, stagedAt := [] }
    ∧ ((s.plc t.placement).live = false ∨ s.twinProtection = false → ∀ r ∈ i.fields, r.role = 1 →
      ((s.endTransfer t .superseded).field ((s.plc t.placement).partSite r.field)).bank (s.plc t.placement).stagedBank
        = ((s.field ((s.plc t.placement).partSite r.field)).bank (s.plc t.placement).stagedBank).sansInstall) := by
  rw [endTransfer_image s t i .superseded hk hi (by simp)]
  have hv := sansQueues_frame (s.sansTransfer t) (i.fields.flatMap fun r => [(s.plc t.placement).siteOf r.field, (s.plc t.placement).partSite r.field])
  have hvb := fun f => sansQueues_bank (s.sansTransfer t)
    (i.fields.flatMap fun r => [(s.plc t.placement).siteOf r.field, (s.plc t.placement).partSite r.field]) f (s.plc t.placement).stagedBank
  generalize State.sansQueues (s.sansTransfer t) (i.fields.flatMap fun r => [(s.plc t.placement).siteOf r.field, (s.plc t.placement).partSite r.field]) = v at hv hvb ⊢
  have hvp (q : Nat) : v.plc q = s.plc q := plc_congr (by rw [hv]; rfl) q
  have hw := sansInstall_frame v t.placement i
  have hwp := sansInstall_plc v t.placement i
  have hwq := fun q => sansInstall_plc_other v t.placement q i
  have hwb := sansInstall_bank v t.placement i
  simp only [hvp] at hwp hwq hwb
  generalize v.sansInstall t.placement i = w at hw hwp hwq hwb ⊢
  have hx := buildTwins_moved w t.placement
  have hoff := buildTwins_off w t.placement
  generalize w.buildTwins t.placement = x at hx hoff ⊢
  obtain ⟨hu, hup, hua⟩ := tellEnd_told x t .superseded 7 hsrc
  generalize x.tellEnd t .superseded 7 = u at hu hup hua ⊢
  have hxp (q : Nat) : x.plc q = w.plc q := plc_congr (by rw [hx.frame]) q
  have hwa : w.answersTo .host = s.answersTo .host := answersTo_frame (by rw [hw, hv]; rfl) (by rw [hw, hv]; rfl) _
  refine ⟨⟨?_, ?_, ?_, ?_⟩, ⟨?_, fun q hq => ?_⟩, fun hnot r hr hrole => ?_⟩
  · rw [hu, hx.frame, hw, hv]; rfl
  · rw [hu, hx.frame, hw, hv]; rfl
  · rw [hu, hx.frame, hw, hv]; rfl
  · rw [hua, hx.answers, hwa, show x.tick = s.tick by rw [hx.frame, hw, hv]; rfl]
  · rw [hup, hxp, hwp]
  · rw [hup, hxp, hwq q hq]
  · have hxw : x = w := hoff (hnot.symm.imp (fun h => by rw [hw, hv]; exact h) fun h => by rw [hwp]; exact h)
    rw [field_congr (show u.fields = w.fields by rw [hu, hxw]), hwb r hr hrole, hvb]
    rfl

/-- INSTALL_CANCEL of the host: the transfer found, or nothing to end. -/
theorem installCancel_eq (s : State) (h : CmdHdr) (p : Nat) (hs : h.src = .host) (hp : p < 4) :
    (s.transfers.find? (fun t => t.placement = p && t.kind = 0) = none → exec (.installCancel h p) s = .next (s.answer h 0x0302 .ok))
    ∧ ∀ t, s.transfers.find? (fun t => t.placement = p && t.kind = 0) = some t →
      exec (.installCancel h p) s = .next ((s.answer h 0x0302 .ok).endTransfer t .superseded) := by
  have hrun : exec (.installCancel h p) s = .next (opInstallCancel h p s) := rfl
  rw [hrun, opInstallCancel, ordered_host _ _ _ _ hs, checked_one, if_neg (by simp [hp])]
  exact ⟨fun hn => by rw [hn], fun t ht => by rw [ht]⟩

/-! ### SET_WEIGHTS -/

theorem dropMirrors_field (s : State) (p f : Nat) : ((s.dropMirrors p).field f).role = (s.field f).role
    ∧ ((s.dropMirrors p).field f).placement = (s.field f).placement := by
  have hkeep := forAll_keeps (fun t : State => ((t.field f).role, (t.field f).placement)) (s.fieldsOf p)
    (fun s f => (s.dropMirror f).updField f fun x => { x with twinOf := none, twinHolder := none }) (fun t g => ?_) s
  · exact Prod.mk.inj hkeep
  · by_cases hg : f = g
    · subst hg
      simp only [State.field_updField, State.dropMirror, State.updStandby, State.updBank]
      simp only [FieldSt.setBank]
      split <;> rfl
    · simp only [State.field_updField_other _ _ _ _ hg, State.dropMirror, State.updStandby, field_updBank_other _ _ _ _ _ hg]

/-- A field without a mirror and without a holder's part. -/
def FieldSt.unmirrored (x : FieldSt) : Prop := x.twinHolder = none ∧ x.twinOf = none

theorem dropStep_unmirrored (t : State) (f g : Nat) (h : f = g ∨ (t.field f).unmirrored) :
    (((t.dropMirror g).updField g fun x => { x with twinOf := none, twinHolder := none }).field f).unmirrored := by
  by_cases hg : f = g
  · subst hg
    simp [FieldSt.unmirrored]
  · simp only [FieldSt.unmirrored, State.field_updField_other _ _ _ _ hg, State.dropMirror, State.updStandby, field_updBank_other _ _ _ _ _ hg]
    exact h.resolve_left hg

/-- Once its mirror is dropped a field stays without, and a field of the placement is without in the end. -/
theorem dropMirrors_unmirrored (s : State) (p f : Nat) (h : f ∈ s.fieldsOf p ∨ (s.field f).unmirrored) : ((s.dropMirrors p).field f).unmirrored := by
  unfold State.dropMirrors State.forAll
  generalize s.fieldsOf p = l at h ⊢
  induction l generalizing s with
  | nil => exact h.resolve_left (by simp)
  | cons g l ih =>
    refine ih _ ?_
    by_cases hl : f ∈ l
    · exact .inl hl
    · exact .inr (dropStep_unmirrored s f g (h.imp_left fun hm => (List.mem_cons.1 hm).resolve_right hl))

theorem fieldsOf_congr {s t : State} (h : ∀ f, (t.field f).role = (s.field f).role ∧ (t.field f).placement = (s.field f).placement) (p : Nat) :
    t.fieldsOf p = s.fieldsOf p := by
  simp only [State.fieldsOf, (h _).1, (h _).2]

theorem dropAll_unmirrored (l : List Nat) (s : State) (q f : Nat) (h : (q ∈ l ∧ f ∈ s.fieldsOf q) ∨ (s.field f).unmirrored) :
    ((s.forAll l State.dropMirrors).field f).unmirrored := by
  induction l generalizing s with
  | nil => exact h.resolve_left (by simp)
  | cons p l ih =>
    refine ih (s.dropMirrors p) ?_
    obtain ⟨hq, hf⟩ | hf := h
    · obtain rfl | hq := List.mem_cons.1 hq
      · exact .inr (dropMirrors_unmirrored s q f (.inl hf))
      · exact .inl ⟨hq, by rw [fieldsOf_congr (dropMirrors_field s p)]; exact hf⟩
    · exact .inr (dropMirrors_unmirrored s p f (.inr hf))

/-- The settings of SET_WEIGHTS, with what a change of the protection does to the mirrors. -/
def State.protect (s : State) (hold : Nat) (on : Bool) : State :=
  let t := { s with rollbackHold := hold, twinProtection := on }
  if s.twinProtection && !on then t.forAll (List.range 4) State.dropMirrors
  else if !s.twinProtection && on then t.forAll (List.range 4) State.buildTwins else t

theorem protect_moved (s : State) (hold : Nat) (on : Bool) : MirrorsMoved { s with rollbackHold := hold, twinProtection := on } (s.protect hold on) := by
  unfold State.protect
  simp only
  split
  · exact MirrorsMoved.fold _ _ dropMirrors_moved _
  · split
    · exact MirrorsMoved.fold _ _ buildTwins_moved _
    · exact MirrorsMoved.refl _

theorem setWeights_eq (s : State) (h : CmdHdr) (hold twin : Nat) (hs : h.src = .host) (hh : hold ≤ 86400 ∨ hold = 2 ^ 32 - 1)
    (ht : h.expert = false ∨ twin ≤ 1 ∨ twin = 255) : exec (.setWeights h hold twin) s = .next
      ((s.protect (if hold = 2 ^ 32 - 1 then s.rollbackHold else hold)
        (if h.expert = true ∧ twin ≠ 255 then decide (twin = 1) else s.twinProtection)).gaugeWeights.answer h 0x0308 .ok) := by
  have hrun : exec (.setWeights h hold twin) s = .next (opSetWeights h hold twin s) := rfl
  have hfields : ∀ e ∈ [(32, inRange 32 hold 0 86400), (36, !h.expert || inRange 8 twin 0 1)], e.2 = true := by
    simp only [List.mem_cons, List.not_mem_nil, or_false, forall_eq_or_imp, forall_eq, expertTest_iff h _ _ (inRange_iff ..), inRange_iff, Setting, Expert]
    exact ⟨hh.symm.imp_right fun h => ⟨Nat.zero_le _, h⟩, fun he => (ht.resolve_left (by simp [he])).symm.imp_right fun h => ⟨Nat.zero_le _, h⟩⟩
  have hon : (if h.expert && !unchanged 8 twin then twin == 1 else s.twinProtection)
      = if h.expert = true ∧ twin ≠ 255 then decide (twin = 1) else s.twinProtection := by
    simp [unchanged]
    rfl
  rw [hrun, opSetWeights, ordered_host _ _ _ _ hs, checked_ok _ _ _ _ _ hfields, ← hon]
  simp only [setting_eq_picked]
  rfl

end Sys2Proof.Machine
end

section
/-! SUPPORT. Versions of an adapter that goes (R170, R172). -/
namespace Sys2Proof.Machine
open Sys2Proof

/-- From `s` to `t` the versions `vs` of an adapter of airspace a were released: the adapters of placement p are `l`, the pages of their backing copies are free, and
their segments are tagged free at the next boundary. -/
structure Freed (s t : State) (p a : Nat) (vs : List AdapterSlot) (l : Tbl AdapterSt) : Prop where
  frame : t = { s with placements := t.placements, airspaces := t.airspaces, cores := t.cores }
  plc : t.plc p = { s.plc p with adapters := l }
  plcs : ∀ q, q ≠ p → t.plc q = s.plc q
  core : ∀ c, t.core c = { s.core c with nextTags := (t.core c).nextTags }
  asp : t.asp a = { s.asp a with cloudPages := (s.asp a).cloudPages.filter fun n => !(vs.any fun v => v.backing.contains n) }
  asps : ∀ b, b ≠ a → t.asp b = s.asp b
  idle : vs = [] → t.airspaces = s.airspaces ∧ t.cores = s.cores

/-- No version, no page. -/
theorem asp_freed_none {s t : State} (h : t.airspaces = s.airspaces) (a : Nat) :
    t.asp a = { s.asp a with cloudPages := (s.asp a).cloudPages.filter fun n => !(([] : List AdapterSlot).any fun v => v.backing.contains n) } := by
  rw [asp_congr h]
  simp

theorem Freed.refl (s : State) (p a : Nat) : Freed s s p a [] (s.plc p).adapters :=
  ⟨rfl, rfl, fun _ _ => rfl, fun _ => rfl, asp_freed_none rfl a, fun _ _ => rfl, fun _ => ⟨rfl, rfl⟩⟩

theorem Freed.trans {s t u : State} {p a : Nat} {vs ws : List AdapterSlot} {l k : Tbl AdapterSt} (h : Freed s t p a vs l) (g : Freed t u p a ws k) :
    Freed s u p a (vs ++ ws) k := by
  refine ⟨by rw [g.frame, h.frame], by rw [g.plc, h.plc], fun q hq => (g.plcs q hq).trans (h.plcs q hq), fun c => by rw [g.core, h.core], ?_,
    fun b hb => (g.asps b hb).trans (h.asps b hb), fun hnil => ?_⟩
  · rw [g.asp, h.asp]
    simp [List.filter_filter, Bool.and_comm]
  · obtain ⟨hv, hw⟩ := List.append_eq_nil_iff.1 hnil
    obtain ⟨ha, hc⟩ := h.idle hv
    obtain ⟨ka, kc⟩ := g.idle hw
    exact ⟨ka.trans ha, kc.trans hc⟩

/-- A change of one placement's adapters. -/
theorem Freed.adapters (s : State) (p a : Nat) (g : Tbl AdapterSt → Tbl AdapterSt) :
    Freed s (s.updPlc p fun x => { x with adapters := g x.adapters }) p a [] (g (s.plc p).adapters) :=
  ⟨rfl, State.plc_updPlc .., fun q hq => State.plc_updPlc_other s p q _ hq, fun _ => rfl, asp_freed_none rfl a, fun _ _ => rfl, fun _ => ⟨rfl, rfl⟩⟩

/-! ### One version -/

theorem tagSlot_spec (s : State) (tag : Nat) (cores : List (Nat × Nat × Nat × Nat)) : let t := s.tagSlot tag cores
    t = { s with cores := t.cores } ∧ ∀ c, t.core c = { s.core c with nextTags := (t.core c).nextTags } := by
  refine foldl_related (R := fun s t : State => t = { s with cores := t.cores } ∧ ∀ c, t.core c = { s.core c with nextTags := (t.core c).nextTags })
    (fun s => ⟨rfl, fun _ => rfl⟩) (fun h k => ⟨by rw [k.1, h.1], fun c => by rw [k.2, h.2]⟩) cores _ (fun t q => ⟨rfl, fun c => ?_⟩) s
  by_cases hc : c = q.1
  · subst hc
    simp only [State.tagSegs, State.core_updCore]
  · rw [State.tagSegs, State.core_updCore_other _ _ _ _ hc]

/-- The pages and the segments of a version are given back. -/
theorem freeSlot_freed (s : State) (p : Nat) (e : AdapterSt) (v : AdapterSlot) :
    Freed s ((s.freePages e.owner v.backing).tagSlot 0xF v.cores) p e.owner [v] (s.plc p).adapters := by
  obtain ⟨hf, hc⟩ := tagSlot_spec (s.freePages e.owner v.backing) 0xF v.cores
  have hfree : s.freePages e.owner v.backing = { s with airspaces := (s.freePages e.owner v.backing).airspaces } := rfl
  have hasp : (s.freePages e.owner v.backing).asp e.owner
      = { s.asp e.owner with cloudPages := (s.asp e.owner).cloudPages.filter fun n => !v.backing.contains n } := State.asp_updAsp ..
  have hasps := fun b hb => State.asp_updAsp_other s e.owner b (fun x => { x with cloudPages := x.cloudPages.filter fun n => !v.backing.contains n }) hb
  change ∀ b, b ≠ e.owner → (s.freePages e.owner v.backing).asp b = s.asp b at hasps
  generalize s.freePages e.owner v.backing = u at hf hc hfree hasp hasps ⊢
  generalize u.tagSlot 0xF v.cores = t at hf hc ⊢
  have hta (b : Nat) : t.asp b = u.asp b := asp_congr (by rw [hf]) b
  refine ⟨by rw [hf, hfree], by rw [plc_congr (show t.placements = s.placements by rw [hf, hfree])],
    fun q _ => plc_congr (by rw [hf, hfree]) q, fun c => ?_, ?_, fun b hb => (hta b).trans (hasps b hb), fun hnil => absurd hnil (by simp)⟩
  · rw [hc, core_congr (show u.cores = s.cores by rw [hfree])]
  · rw [hta, hasp]
    simp

/-- What is left of an adapter without a version. -/
def AdapterSt.without (e : AdapterSt) (version : Nat) : AdapterSt :=
  { e with slotA := e.slotA.filter fun y => y.version ≠ version, slotB := e.slotB.filter fun y => y.version ≠ version }

/-- The table of a retiring adapter, which goes with its last version. -/
def AdapterSt.remains (e : AdapterSt) (id : Nat) : Tbl AdapterSt := if e.slotA.isNone && e.slotB.isNone then [] else [(id, e)]

theorem releaseVersion_freed (s : State) (p id version : Nat) (e : AdapterSt) (v : AdapterSlot) (h : (s.plc p).adapters = [(id, e)])
    (hr : e.retiring = true) (hv : e.slotOf version = some v) :
    Freed s (s.releaseVersion p id version) p e.owner [v] ((e.without version).remains id) := by
  have h12 := freeSlot_freed s p e v
  have hl : (((s.freePages e.owner v.backing).tagSlot 0xF v.cores).plc p).adapters = [(id, e)] := by rw [h12.plc]; exact h
  have h3 := Freed.adapters ((s.freePages e.owner v.backing).tagSlot 0xF v.cores) p e.owner fun l =>
    if e.retiring && (e.without version).slotA.isNone && (e.without version).slotB.isNone then l.del id else l.set id (e.without version)
  have h123 := h12.trans h3
  rw [hl] at h123
  have hrun : s.releaseVersion p id version = ((s.freePages e.owner v.backing).tagSlot 0xF v.cores).updPlc p fun x => { x with
      adapters := if e.retiring && (e.without version).slotA.isNone && (e.without version).slotB.isNone then x.adapters.del id
        else x.adapters.set id (e.without version) } := by
    have hfind : (s.plc p).adapters.find id = some e := by rw [h]; simp [Tbl.find]
    simp only [State.releaseVersion, hfind, State.freeBacking, hv]
    rfl
  have htable : (if e.retiring && (e.without version).slotA.isNone && (e.without version).slotB.isNone then Tbl.del [(id, e)] id
      else Tbl.set [(id, e)] id (e.without version)) = (e.without version).remains id := by
    simp [AdapterSt.remains, hr, Tbl.set, Tbl.del]
  rw [htable] at h123
  rw [hrun]
  exact h123

/-! ### The sweep -/

theorem pinned_congr {s t : State} (h : t.sessions = s.sessions) (p id version : Nat) : t.pinned p id version = s.pinned p id version := by
  simp only [State.pinned, State.sessIds, sess_congr h, h]

/-- A version of an adapter is released if nothing holds it. -/
def State.sweepVersion (p : Nat) (e : Nat × AdapterSt) (s : State) (v : AdapterSlot) : State :=
  if (!v.current || e.2.retiring) && v.atBoundary.isNone && !s.pinned p e.1 v.version then s.releaseVersion p e.1 v.version else s

/-- Retiring adapters without a version go. -/
def keepAdapters (l : Tbl AdapterSt) : Tbl AdapterSt := l.filter fun e => !(e.2.retiring && e.2.slotA.isNone && e.2.slotB.isNone)

/-- The sweep of one placement. -/
def State.sweepPlacement (s : State) (p : Nat) : State :=
  let t := s.updPlc p fun x => { x with adapters := keepAdapters x.adapters }
  (t.plc p).adapters.foldl (fun u e => (e.2.slotA.toList ++ e.2.slotB.toList).foldl (State.sweepVersion p e) u) t

theorem sweepAdapters_eq (s : State) : s.sweepAdapters = s.forAll (List.range 4) State.sweepPlacement := rfl

theorem sweepPlacement_none (s : State) (p a q : Nat) (hq : q ≠ p) (h : (s.plc q).adapters = []) :
    Freed s (s.sweepPlacement q) p a [] (s.plc p).adapters := by
  have hplc := State.plc_updPlc s q fun x => { x with adapters := keepAdapters x.adapters }
  have hsame : { s.plc q with adapters := keepAdapters (s.plc q).adapters } = s.plc q := by
    generalize s.plc q = x at h ⊢
    rw [show keepAdapters x.adapters = x.adapters by rw [h]; rfl]
  have hnil : s.sweepPlacement q = s.updPlc q fun x => { x with adapters := keepAdapters x.adapters } := by
    simp only [State.sweepPlacement, hplc, h]
    rfl
  rw [hnil]
  refine ⟨rfl, ?_, fun r hr => ?_, fun _ => rfl, asp_freed_none rfl a, fun _ _ => rfl, fun _ => ⟨rfl, rfl⟩⟩
  · rw [State.plc_updPlc_other _ _ _ _ (Ne.symm hq)]
  · by_cases hrq : r = q
    · subst hrq; rw [hplc, hsame]
    · rw [State.plc_updPlc_other _ _ _ _ hrq]

theorem sweepOthers_freed (l : List Nat) (s : State) (p a : Nat) (h : ∀ q ∈ l, q ≠ p ∧ (s.plc q).adapters = []) :
    Freed s (s.forAll l State.sweepPlacement) p a [] (s.plc p).adapters := by
  induction l generalizing s with
  | nil => exact Freed.refl s p a
  | cons q l ih =>
    obtain ⟨hq, hnil⟩ := h q (by simp)
    have h1 := sweepPlacement_none s p a q hq hnil
    have hl : ((s.sweepPlacement q).plc p).adapters = (s.plc p).adapters := by rw [h1.plc]
    have h2 := ih (s.sweepPlacement q) fun r hr => by
      obtain ⟨hrp, hrnil⟩ := h r (by simp [hr])
      exact ⟨hrp, by rw [h1.plcs r hrp]; exact hrnil⟩
    exact hl ▸ h1.trans h2

/-- Where one placement alone has adapters, the sweep is that placement's. -/
theorem sweepAdapters_freed {s : State} {p a : Nat} {vs : List AdapterSlot} {l : Tbl AdapterSt} (hp : p < 4) (hothers : ∀ q, q ≠ p → (s.plc q).adapters = [])
    (h : ∀ u, Freed s u p a [] (s.plc p).adapters → Freed u (u.sweepPlacement p) p a vs l) : Freed s s.sweepAdapters p a vs l := by
  obtain ⟨before, after, hrange, hnb, hna⟩ : ∃ before after, List.range 4 = before ++ p :: after ∧ p ∉ before ∧ p ∉ after := by
    obtain rfl | rfl | rfl | rfl : p = 0 ∨ p = 1 ∨ p = 2 ∨ p = 3 := by omega
    · exact ⟨[], [1, 2, 3], rfl, by simp, by simp⟩
    · exact ⟨[0], [2, 3], rfl, by simp, by simp⟩
    · exact ⟨[0, 1], [3], rfl, by simp, by simp⟩
    · exact ⟨[0, 1, 2], [], rfl, by simp, by simp⟩
  have hne {m : List Nat} (hm : p ∉ m) {q : Nat} (hq : q ∈ m) : q ≠ p := fun e => hm (e ▸ hq)
  have h1 := sweepOthers_freed before s p a fun q hq => ⟨hne hnb hq, hothers q (hne hnb hq)⟩
  have h2 := h _ h1
  have hall : s.sweepAdapters = ((s.forAll before State.sweepPlacement).sweepPlacement p).forAll after State.sweepPlacement := by
    rw [sweepAdapters_eq, hrange]
    simp only [State.forAll, List.foldl_append, List.foldl_cons]
  have h3 := sweepOthers_freed after ((s.forAll before State.sweepPlacement).sweepPlacement p) p a fun q hq =>
    ⟨hne hna hq, by rw [h2.plcs q (hne hna hq), h1.plcs q (hne hna hq)]; exact hothers q (hne hna hq)⟩
  rw [hall]
  have hl : (((s.forAll before State.sweepPlacement).sweepPlacement p).plc p).adapters = l := by rw [h2.plc]
  have hend := (h1.trans h2).trans h3
  rw [hl] at hend
  simpa using hend

/-! ### The adapter that retires -/

theorem sweepVersion_held (s : State) (p : Nat) (e : Nat × AdapterSt) (v : AdapterSlot) (h : s.pinned p e.1 v.version = true) : s.sweepVersion p e v = s :=
  if_neg (by simp [h])

theorem sweepVersion_free (s : State) (p : Nat) (e : Nat × AdapterSt) (v : AdapterSlot) (hr : e.2.retiring = true) (hb : v.atBoundary = none)
    (h : s.pinned p e.1 v.version = false) : s.sweepVersion p e v = s.releaseVersion p e.1 v.version :=
  if_pos (by simp [h, hr, hb])

/-- The version slots of an adapter. -/
def AdapterSt.versions (e : AdapterSt) : List AdapterSlot := e.slotA.toList ++ e.slotB.toList

theorem keepAdapters_one (id : Nat) (e : AdapterSt) (h : e.versions ≠ []) : keepAdapters [(id, e)] = [(id, e)] := by
  obtain ⟨owner, a, b, _⟩ := e
  cases a <;> cases b <;> simp_all [keepAdapters, AdapterSt.versions]

theorem keepAdapters_gone (id : Nat) (e : AdapterSt) (h : e.versions = []) (hr : e.retiring = true) : keepAdapters [(id, e)] = [] := by
  obtain ⟨owner, a, b, _⟩ := e
  cases a <;> cases b <;> simp_all [keepAdapters, AdapterSt.versions]

/-- Both versions pinned: the adapter stays. -/
theorem sweepPlacement_pinned (s : State) (p id a : Nat) (e : AdapterSt) (h : (s.plc p).adapters = [(id, e)]) (hvs : e.versions ≠ [])
    (hpin : ∀ v ∈ e.versions, s.pinned p id v.version = true) : Freed s (s.sweepPlacement p) p a [] [(id, e)] := by
  have h1 := Freed.adapters s p a keepAdapters
  rw [h, keepAdapters_one id e hvs] at h1
  have hstay : ∀ (l : List AdapterSlot) (u : State), u.sessions = s.sessions → (∀ v ∈ l, v ∈ e.versions) → l.foldl (State.sweepVersion p (id, e)) u = u := by
    intro l u hu hl
    induction l with
    | nil => rfl
    | cons v l ih =>
      rw [List.foldl_cons, sweepVersion_held u p (id, e) v (by rw [pinned_congr hu]; exact hpin v (hl v (by simp)))]
      exact ih fun w hw => hl w (by simp [hw])
  have hrun : s.sweepPlacement p = s.updPlc p fun x => { x with adapters := keepAdapters x.adapters } := by
    unfold State.sweepPlacement
    simp only
    rw [show ((s.updPlc p fun x => { x with adapters := keepAdapters x.adapters }).plc p).adapters = [(id, e)] by rw [h1.plc]]
    exact hstay e.versions _ rfl fun v hv => hv
  rw [hrun]
  exact h1

theorem slotOf_first (e : AdapterSt) (v : AdapterSlot) (ha : e.slotA = some v) : e.slotOf v.version = some v := by
  have h : e.slotA.filter (fun y => decide (y.version = v.version)) = some v := by simp [ha]
  simp only [AdapterSt.slotOf, h]

theorem slotOf_second (e : AdapterSt) (w : AdapterSlot) (ha : ∀ v, e.slotA = some v → v.version ≠ w.version) (hb : e.slotB = some w) :
    e.slotOf w.version = some w := by
  have h : e.slotA.filter (fun y => decide (y.version = w.version)) = none := by
    cases hs : e.slotA with
    | none => rfl
    | some v => simp [ha v hs]
  have h' : e.slotB.filter (fun y => decide (y.version = w.version)) = some w := by simp [hb]
  simp only [AdapterSt.slotOf, h, h']

theorem sweepVersion_freed (s : State) (p id : Nat) (e e' : AdapterSt) (v : AdapterSlot) (h : (s.plc p).adapters = [(id, e')]) (hr : e.retiring = true)
    (hr' : e'.retiring = true) (hv : e'.slotOf v.version = some v) (hb : v.atBoundary = none) (hpin : s.pinned p id v.version = false) :
    Freed s (s.sweepVersion p (id, e) v) p e'.owner [v] ((e'.without v.version).remains id) := by
  rw [sweepVersion_free s p (id, e) v hr hb hpin]
  exact releaseVersion_freed s p id v.version e' v h hr' hv

/-- Nothing pinned to either version: both go, and the adapter with them. -/
theorem sweepPlacement_free (s : State) (p id : Nat) (e : AdapterSt) (h : (s.plc p).adapters = [(id, e)]) (hr : e.retiring = true)
    (hfree : ∀ v ∈ e.versions, s.pinned p id v.version = false ∧ v.atBoundary = none) (hdistinct : (e.versions.map AdapterSlot.version).Nodup) :
    Freed s (s.sweepPlacement p) p e.owner e.versions [] := by
  have h1 := Freed.adapters s p e.owner keepAdapters
  have hrun : s.sweepPlacement p = (keepAdapters [(id, e)]).foldl (fun u e => e.2.versions.foldl (State.sweepVersion p e) u)
      (s.updPlc p fun x => { x with adapters := keepAdapters x.adapters }) := by
    unfold State.sweepPlacement
    simp only
    rw [show ((s.updPlc p fun x => { x with adapters := keepAdapters x.adapters }).plc p).adapters = keepAdapters [(id, e)] by rw [h1.plc, h]]
    rfl
  rw [h] at h1
  rw [hrun]
  have hsess : (s.updPlc p fun x => { x with adapters := keepAdapters x.adapters }).sessions = s.sessions := rfl
  generalize (s.updPlc p fun x => { x with adapters := keepAdapters x.adapters }) = u at h1 hsess ⊢
  by_cases hnone : e.versions = []
  · rw [keepAdapters_gone id e hnone hr] at h1 ⊢
    rw [hnone]
    exact h1
  · rw [keepAdapters_one id e hnone] at h1 ⊢
    have hl : (u.plc p).adapters = [(id, e)] := by rw [h1.plc]
    have hpin (t : State) (ht : t.sessions = s.sessions) (v : AdapterSlot) (hv : v ∈ e.versions) : t.pinned p id v.version = false := by
      rw [pinned_congr ht]
      exact (hfree v hv).1
    simp only [List.foldl_cons, List.foldl_nil]
    cases ha : e.slotA with
    | none =>
      cases hb : e.slotB with
      | none => exact absurd (by simp [AdapterSt.versions, ha, hb]) hnone
      | some w =>
        have hvs : e.versions = [w] := by simp [AdapterSt.versions, ha, hb]
        have hw := sweepVersion_freed u p id e e w hl hr hr (slotOf_second e w (by simp [ha]) hb) (hfree w (by simp [hvs])).2 (hpin u hsess w (by simp [hvs]))
        have hgone : (e.without w.version).remains id = [] := by simp [AdapterSt.without, AdapterSt.remains, ha, hb, Option.filter]
        rw [hgone] at hw
        rw [hvs]
        exact h1.trans hw
    | some v =>
      cases hb : e.slotB with
      | none =>
        have hvs : e.versions = [v] := by simp [AdapterSt.versions, ha, hb]
        have hv := sweepVersion_freed u p id e e v hl hr hr (slotOf_first e v ha) (hfree v (by simp [hvs])).2 (hpin u hsess v (by simp [hvs]))
        have hgone : (e.without v.version).remains id = [] := by simp [AdapterSt.without, AdapterSt.remains, ha, hb, Option.filter]
        rw [hgone] at hv
        rw [hvs]
        exact h1.trans hv
      | some w =>
        have hvs : e.versions = [v, w] := by simp [AdapterSt.versions, ha, hb]
        have hne : w.version ≠ v.version := by simpa [hvs, eq_comm] using hdistinct
        have hv := sweepVersion_freed u p id e e v hl hr hr (slotOf_first e v ha) (hfree v (by simp [hvs])).2 (hpin u hsess v (by simp [hvs]))
        have hrest : (e.without v.version).remains id = [(id, e.without v.version)] := by
          simp [AdapterSt.without, AdapterSt.remains, ha, hb, Option.filter, hne]
        rw [hrest] at hv
        rw [hvs, List.foldl_cons, List.foldl_cons, List.foldl_nil]
        generalize u.sweepVersion p (id, e) v = t at hv ⊢
        have hw := sweepVersion_freed t p id e (e.without v.version) w (by rw [hv.plc]) hr hr
          (slotOf_second _ w (by simp [AdapterSt.without, ha]) (by simp [AdapterSt.without, hb, hne])) (hfree w (by simp [hvs])).2
          (hpin t (by rw [hv.frame]; exact hsess) w (by simp [hvs]))
        have hgone : ((e.without v.version).without w.version).remains id = [] := by
          simp [AdapterSt.without, AdapterSt.remains, ha, hb, hne]
        rw [hgone] at hw
        exact (h1.trans hv).trans hw

end Sys2Proof.Machine
end

section
/-! PROOFS. Removal, the orders on a tuning job, and O30 (R21, R163, R172, R276, R277, R407). -/
namespace Sys2Proof.Machine
open Sys2Proof

/-! ### ADAPTER_REMOVE -/

/-- An adapter of a placement is to go. -/
def State.retire (s : State) (p id : Nat) : State := s.updPlc p fun x => x.updAdapter id fun e => { e with retiring := true }

section
variable {s : State} {h : CmdHdr} {p a id : Nat} (hs : h.src = .host) (hp : p < 4) (ha : a < 8) (hid : id < 64)
include hs hp ha hid

theorem adapterRemove_unknown (hf : (s.plc p).adapters.find id = none) : exec (.adapterRemove h p a id) s = .next (s.answer h 0x0502 .noResource) := by
  have hfields : ∀ e ∈ [(32, placementOk p), (33, airspaceOk a), (34, decide (id < 64))], e.2 = true := by simp [hp, ha, hid]
  have hrun : exec (.adapterRemove h p a id) s = .next (opAdapterRemove h p a id s) := rfl
  rw [hrun, opAdapterRemove, ordered_host _ _ _ _ hs, checked_ok _ _ _ _ _ hfields]
  simp only [hf]

theorem adapterRemove_known {e : AdapterSt} (hf : (s.plc p).adapters.find id = some e) : exec (.adapterRemove h p a id) s = .next (
    if e.owner ≠ a then s.answer h 0x0502 .notPermitted
    else ((if (s.retire p id).tuneHolds p id then (s.retire p id).failTune p else s.retire p id).sweepAdapters.answer h 0x0502 .ok)) := by
  have hfields : ∀ e ∈ [(32, placementOk p), (33, airspaceOk a), (34, decide (id < 64))], e.2 = true := by simp [hp, ha, hid]
  have hrun : exec (.adapterRemove h p a id) s = .next (opAdapterRemove h p a id s) := rfl
  rw [hrun, opAdapterRemove, ordered_host _ _ _ _ hs, checked_ok _ _ _ _ _ hfields]
  rw [hf]
  rfl

end

theorem retire_freed (s : State) (p id a : Nat) (y : AdapterSt) (h : (s.plc p).adapters = [(id, y)]) :
    Freed s (s.retire p id) p a [] [(id, { y with retiring := true })] := by
  have hupd : (s.plc p).updAdapter id (fun e => { e with retiring := true }) = { s.plc p with adapters := [(id, { y with retiring := true })] } := by
    simp [PlacementSt.updAdapter, h, Tbl.find, Tbl.set]
  refine ⟨rfl, ?_, fun q hq => State.plc_updPlc_other _ _ _ _ hq, fun _ => rfl, asp_freed_none rfl a, fun _ _ => rfl, fun _ => ⟨rfl, rfl⟩⟩
  rw [State.retire, State.plc_updPlc, hupd]

theorem tuneHolds_congr {s t : State} (p id : Nat) (h : (t.plc p).tune = (s.plc p).tune) : t.tuneHolds p id = s.tuneHolds p id := by
  simp only [State.tuneHolds, h]

/-- The one adapter of its placement, which no tuning job holds, retires. -/
theorem adapterRemove_only {s : State} {h : CmdHdr} {p a id : Nat} {y : AdapterSt} (hs : h.src = .host) (hp : p < 4) (ha : a < 8) (hid : id < 64)
    (hy : (s.plc p).adapters = [(id, y)]) (ho : y.owner = a) (ht : s.tuneHolds p id = false) :
    exec (.adapterRemove h p a id) s = .next ((s.retire p id).sweepAdapters.answer h 0x0502 .ok) := by
  have htune : (s.retire p id).tuneHolds p id = false := (tuneHolds_congr p id (by rw [(retire_freed s p id a y hy).plc])).trans ht
  rw [adapterRemove_known hs hp ha hid (show (s.plc p).adapters.find id = some y by rw [hy]; simp [Tbl.find]), if_neg (not_not.2 ho), htune]
  rfl

/-! ### Tuning -/

theorem updTune_plc (s : State) (p : Nat) (j : TuneJob) : (s.updPlc p fun x => { x with tune := j }).plc p = { s.plc p with tune := j } := State.plc_updPlc ..

/-- Segments of some cores are tagged free at the next boundary. -/
theorem tagRuns_spec (l : List (Nat × Nat × Nat × Nat)) (segs : Nat × Nat × Nat × Nat → List Nat) (s : State) :
    let t := l.foldl (fun s q => s.tagSegs q.1 0xF (segs q)) s
    t = { s with cores := t.cores } ∧ (∀ c, t.core c = { s.core c with nextTags := (t.core c).nextTags })
    ∧ (∀ c, ∀ e ∈ (s.core c).nextTags, e ∈ (t.core c).nextTags) ∧ ∀ q ∈ l, ∀ g ∈ segs q, (g, 0xF) ∈ (t.core q.1).nextTags := by
  induction l generalizing s with
  | nil => exact ⟨rfl, fun _ => rfl, fun _ _ h => h, by simp⟩
  | cons q l ih =>
    have hcore : (s.tagSegs q.1 0xF (segs q)).core q.1 = { s.core q.1 with nextTags := (s.core q.1).nextTags ++ (segs q).map fun g => (g, 0xF) } :=
      State.core_updCore ..
    have hother (c : Nat) (hc : c ≠ q.1) : (s.tagSegs q.1 0xF (segs q)).core c = s.core c := State.core_updCore_other _ _ _ _ hc
    have hframe : s.tagSegs q.1 0xF (segs q) = { s with cores := (s.tagSegs q.1 0xF (segs q)).cores } := rfl
    obtain ⟨hf, hc, hkeep, hmem⟩ := ih (s.tagSegs q.1 0xF (segs q))
    rw [List.foldl_cons]
    generalize s.tagSegs q.1 0xF (segs q) = u at hcore hother hframe hf hc hkeep hmem ⊢
    refine ⟨by rw [hf, hframe], fun c => ?_, fun c e he => hkeep c e ?_, fun r hr g hg => ?_⟩
    · rw [hc]
      by_cases hq : c = q.1
      · subst hq; rw [hcore]
      · rw [hother c hq]
    · by_cases hq : c = q.1
      · subst hq; rw [hcore]; exact List.mem_append_left _ he
      · rw [hother c hq]; exact he
    · obtain rfl | hr := List.mem_cons.1 hr
      · refine hkeep _ _ ?_
        rw [hcore]
        exact List.mem_append_right _ (List.mem_map.2 ⟨g, hg, rfl⟩)
      · exact hmem r hr g hg

/-- The areas of a held result are given back. -/
theorem freeAreas_spec (s : State) (p : Nat) : let t := s.freeAreas p true
    t = { s with placements := t.placements, cores := t.cores }
    ∧ t.plc p = { s.plc p with tune := { (s.plc p).tune with held := false, areas := [] } } ∧ (∀ q, q ≠ p → t.plc q = s.plc q)
    ∧ (∀ c, t.core c = { s.core c with nextTags := (t.core c).nextTags })
    ∧ ∀ q ∈ (s.plc p).tune.areas, ∀ g ∈ tuneSlotSegs q, (g, 0xF) ∈ (t.core q.1).nextTags := by
  obtain ⟨hf, hc, -, hmem⟩ := tagRuns_spec (s.plc p).tune.areas (fun q => (if true = true then tuneSlotSegs q else []) ++
    (if (s.plc p).tune.workFreed = true then [] else tuneWorkSegs q)) s
  unfold State.freeAreas
  simp only at hf hc hmem ⊢
  generalize List.foldl (fun (s : State) q => s.tagSegs q.1 0xF _) s (s.plc p).tune.areas = u at hf hc hmem ⊢
  have hplc (q : Nat) : u.plc q = s.plc q := plc_congr (by rw [hf]) q
  refine ⟨by rw [hf]; rfl, ?_, fun q hq => ?_, hc, fun q hq g hg => hmem q hq g (List.mem_append_left _ hg)⟩
  · rw [State.plc_updPlc, hplc]
  · rw [State.plc_updPlc_other _ _ _ _ hq, hplc]

theorem hasResult_iff (j : TuneJob) : j.hasResult = true ↔ (j.st = .done ∨ j.st = .stopped) ∧ j.held = true := by simp [TuneJob.hasResult]

section
variable {s : State} {h : CmdHdr} {p : Nat} (hs : h.src = .host) (hp : p < 4)
include hs hp

theorem tuneStop_eq : exec (.tuneStop h p) s = .next (if (s.plc p).tune.st == .running then
    (s.updPlc p fun x => { x with tune := { x.tune with stopping := true } }).answer h 0x0504 .ok else s.answer h 0x0504 .notPermitted) := by
  have hrun : exec (.tuneStop h p) s = .next (opTuneStop h p s) := rfl
  rw [hrun, opTuneStop, ordered_host _ _ _ _ hs, checked_one, if_neg (by simp [hp])]

theorem tuneCommit_eq : exec (.tuneCommit h p) s = .next (if (s.plc p).tune.hasResult then s.atBoundaryPending h 0x0505 (.tuneCommit h p)
    else s.answer h 0x0505 .notPermitted) := by
  have hrun : exec (.tuneCommit h p) s = .next (opTuneCommit h p s) := rfl
  rw [hrun, opTuneCommit, ordered_host _ _ _ _ hs, checked_one, if_neg (by simp [hp])]

theorem tuneDiscard_late (hc : ∃ d ∈ s.host.deferred, ∃ g, d.order = .tuneCommit g p) :
    exec (.tuneDiscard h p) s = .next (s.answerWith h 0x0506 .superseded 2 []) := by
  have hrun : exec (.tuneDiscard h p) s = .next (opTuneDiscard h p s) := rfl
  obtain ⟨d, hd, g, hg⟩ := hc
  rw [hrun, opTuneDiscard, ordered_host _ _ _ _ hs, checked_one, if_neg (by simp [hp])]
  exact congrArg _ (if_pos (List.any_eq_true.2 ⟨d, hd, by rw [hg]; simp⟩))

theorem tuneDiscard_eq (hc : ¬∃ d ∈ s.host.deferred, ∃ g, d.order = .tuneCommit g p) : exec (.tuneDiscard h p) s = .next (
    if (s.plc p).tune.hasResult then ((s.freeAreas p true).gaugeTune p).answer h 0x0506 .ok else s.answer h 0x0506 .notPermitted) := by
  have hrun : exec (.tuneDiscard h p) s = .next (opTuneDiscard h p s) := rfl
  rw [hrun, opTuneDiscard, ordered_host _ _ _ _ hs, checked_one, if_neg (by simp [hp])]
  refine congrArg _ (if_neg fun hany => hc ?_)
  obtain ⟨d, hd, hm⟩ := List.any_eq_true.1 hany
  refine ⟨d, hd, ?_⟩
  split at hm
  · next g q hq => exact ⟨g, by rw [hq, beq_iff_eq.1 hm]⟩
  · exact absurd hm (by simp)

theorem remove_eq : exec (.removePlacement h p) s = .next (if !(s.boundTo p).isEmpty then s.answer h 0x0307 .notPermitted
    else if s.installing p || (s.plc p).drain.isSome || !(s.plc p).moves.isEmpty then s.answer h 0x0307 .busy
    else s.atBoundary h 0x0307 (.removePlacement h p)) := by
  have hrun : exec (.removePlacement h p) s = .next (opRemove h p s) := rfl
  rw [hrun, opRemove, ordered_host _ _ _ _ hs, checked_one, if_neg (by simp [hp])]

end

end Sys2Proof.Machine
end

section
/-! PROOFS. O30. -/
namespace Sys2Proof.Machine
open Sys2Proof

theorem installCancel_judged (s : State) (h : CmdHdr) (p : Nat) (hs : h.src = .host) (hp : p < 4) :
    ((∀ t ∈ s.transfers, t.placement = p → t.kind ≠ 0) → Refuses (exec (.installCancel h p) s) s h 0x0302 .ok)
    ∧ ∀ t, s.transfers.find? (fun t => t.placement = p && t.kind = 0) = some t → t.cmdSrc = .host →
      ∃ u, exec (.installCancel h p) s = .next u ∧ u.transfers = s.transfers.filter (fun y => y.number ≠ t.number) ∧ u.cores = s.cores
        ∧ u.sessions = s.sessions
        ∧ u.answersTo .host = s.answersTo .host ++ [{ finalOf h 0x0302 .ok with tick := s.tick.count },
            { seq := t.cmdSeq, opcode := t.cmdOp, status := .superseded, final := true, tick := s.tick.count }]
        ∧ (t.image = none → PlcBut s u p { s.plc p with imageState := s.heldState p } ∧ u.fields = s.fields)
        ∧ (∀ i, t.image = some i → PlcBut s u p { s.plc p with imageState := .empty, staged := none, stagedAt := [] }
          ∧ ((s.plc p).live = false ∨ s.twinProtection = false → ∀ r ∈ i.fields, r.role = 1 → let f := (s.plc p).partSite r.field;
              (((s.field f).bank (s.plc p).stagedBank).st = .installing ∨ ((s.field f).bank (s.plc p).stagedBank).st = .staged) →
                ((u.field f).bank (s.plc p).stagedBank).st = .empty ∧ ((u.field f).bank (s.plc p).stagedBank).mem = [])) := by
  obtain ⟨hidle, hrun⟩ := installCancel_eq s h p hs hp
  refine ⟨fun hno => refuses_of_eq hs (hidle ?_), fun t ht hsrc => ?_⟩
  · rw [List.find?_eq_none]
    exact fun t ht => by simpa using hno t ht
  · obtain ⟨hpt, hk⟩ : t.placement = p ∧ t.kind = 0 := by simpa using List.find?_some ht
    have hrun := hrun t ht
    have hans := answered_answer s h 0x0302 .ok (.inl hs)
    rw [hs] at hans
    generalize s.answer h 0x0302 .ok = v at hrun hans
    have hvp (q : Nat) : v.plc q = s.plc q := plc_congr (by rw [hans.frame]) q
    have hvf (f : Nat) : v.field f = s.field f := field_congr (by rw [hans.frame]) f
    have hheld : v.heldState p = s.heldState p := heldState_congr (by rw [hans.frame]) (by rw [hans.frame]) p
    have htick : v.tick = s.tick := by rw [hans.frame]
    have hprot : v.twinProtection = s.twinProtection := by rw [hans.frame]
    have hbut {u : State} {y : PlacementSt} (hy : PlcBut v u p y) : PlcBut s u p y := ⟨hy.1, fun q hq => by rw [← hvp]; exact hy.2 q hq⟩
    have htransfers : v.transfers = s.transfers := by rw [hans.frame]
    have hcores : v.cores = s.cores := by rw [hans.frame]
    have hsess : v.sessions = s.sessions := by rw [hans.frame]
    refine ⟨v.endTransfer t .superseded, hrun, ?_⟩
    rw [← htransfers, ← hcores, ← hsess]
    cases hi : t.image with
    | none =>
      obtain ⟨hc, hfields, hplc⟩ := cancel_noImage v t hk hi hsrc
      rw [hpt, hvp, hheld] at hplc
      exact ⟨hc.transfers, hc.cores, hc.sessions, by rw [hc.answers, hans.given, htick, List.append_assoc]; rfl, fun _ => ⟨hbut hplc, hfields.trans (by rw [hans.frame])⟩, fun i h => absurd h (by simp)⟩
    | some i =>
      obtain ⟨hc, hplc, hbanks⟩ := cancel_image v t i hk hi hsrc
      rw [hpt] at hplc hbanks
      simp only [hvp, hvf, hprot] at hplc hbanks
      refine ⟨hc.transfers, hc.cores, hc.sessions, by rw [hc.answers, hans.given, htick, List.append_assoc]; rfl, fun h => absurd h (by simp), fun j hj => ⟨hbut hplc, fun hoff r hr hrole => ?_⟩⟩
      obtain rfl : i = j := by simpa using hj
      intro f hst
      rw [hbanks hoff r hr hrole]
      exact Bank.sansInstall_of_claimed _ hst

theorem setWeights_judged (s : State) (h : CmdHdr) (hs : h.src = .host) (hold twin : Nat) (hh : hold ≤ 86400 ∨ hold = 2 ^ 32 - 1)
    (ht : h.expert = false ∨ twin ≤ 1 ∨ twin = 255) :
    let on := if h.expert = true ∧ twin ≠ 255 then decide (twin = 1) else s.twinProtection
    ∃ e, Gives (exec (.setWeights h hold twin) s) e .host (finalOf h 0x0308 .ok)
      ∧ e.rollbackHold = (if hold = 2 ^ 32 - 1 then s.rollbackHold else hold) ∧ e.twinProtection = on
      ∧ e = { s with rollbackHold := e.rollbackHold, twinProtection := on, regs := e.regs, placements := e.placements, fields := e.fields
                     host := e.host, out := e.out }
      ∧ (∀ q, e.plc q = { s.plc q with twinNone := (e.plc q).twinNone })
      ∧ (on = s.twinProtection → e.fields = s.fields ∧ e.host = s.host ∧ e.out = s.out)
      ∧ (s.twinProtection = true → on = false → ∀ q, q < 4 → ∀ f ∈ s.fieldsOf q, (e.field f).twinHolder = none ∧ (e.field f).twinOf = none) := by
  intro on
  have hrun := setWeights_eq s h hold twin hs hh ht
  change exec (.setWeights h hold twin) s = .next ((s.protect (if hold = 2 ^ 32 - 1 then s.rollbackHold else hold) on).gaugeWeights.answer h 0x0308 .ok) at hrun
  rw [hrun]
  clear hrun
  generalize (if hold = 2 ^ 32 - 1 then s.rollbackHold else hold) = kept
  clear_value on
  have hmoved := protect_moved s kept on
  have hsame : on = s.twinProtection → s.protect kept on = { s with rollbackHold := kept, twinProtection := on } := by
    rintro rfl
    cases hp : s.twinProtection <;> simp [State.protect, hp]
  have hdrop : s.twinProtection = true → on = false → ∀ q, q < 4 → ∀ f ∈ s.fieldsOf q, ((s.protect kept on).field f).unmirrored := by
    intro hwas hoff q hq f hf
    have heq : s.protect kept on = State.forAll { s with rollbackHold := kept, twinProtection := on } (List.range 4) State.dropMirrors := by
      simp [State.protect, hwas, hoff]
    rw [heq]
    exact dropAll_unmirrored _ _ q f (.inl ⟨List.mem_range.2 hq, hf⟩)
  generalize s.protect kept on = v at hmoved hsame hdrop ⊢
  have hw := gaugeWeights_gauged v
  generalize v.gaugeWeights = e at hw ⊢
  have hplc (q : Nat) : v.plc q = s.plc q := plc_congr (by rw [hmoved.frame]) q
  have hfield (f : Nat) : e.field f = v.field f := field_congr (by rw [hw.frame]) f
  refine ⟨e, hs ▸ gives_answer e h 0x0308 .ok (.inl hs), by rw [hw.frame, hmoved.frame], by rw [hw.frame, hmoved.frame], ?_, fun q => ?_, fun hon => ?_,
    fun hwas hoff q hq f hf => ?_⟩
  · rw [hw.frame, hmoved.frame]
  · rw [hw.plc, hplc]
  · rw [hw.frame, hsame hon]
    exact ⟨rfl, rfl, rfl⟩
  · rw [hfield]
    exact hdrop hwas hoff q hq f hf

/-- Settles O30: a cancelled installation by its image, SET_WEIGHTS by its settings, adapters by the sweep, tuning orders by the held result. -/
theorem weightAndTuningOrdersAct : Obligations.WeightAndTuningOrdersAct := by
  unfold Obligations.WeightAndTuningOrdersAct
  intro s h p hs hp
  obtain ⟨hidle, hcancel⟩ := installCancel_judged s h p hs hp
  refine ⟨hidle, hcancel, fun hold twin hh ht => setWeights_judged s h hs hold twin hh ht, ⟨fun hb => refuses_of_eq hs ?_, fun hb => ⟨fun hbusy =>
    refuses_of_eq hs ?_, fun hbusy => ?_⟩⟩, fun a id ha hid => ⟨fun hf => refuses_of_eq hs (adapterRemove_unknown hs hp ha hid hf), fun y hf ho =>
    refuses_of_eq hs ?_, fun y hy ho ht hothers => ⟨fun hpin hvs => ?_, fun hfree hdistinct => ?_⟩⟩, fun hrun => ?_, fun hrun => refuses_of_eq hs ?_,
    ⟨fun hheld => ?_, fun hheld => refuses_of_eq hs ?_, fun hc => ?_, fun hc hheld => ?_, fun hc hheld => refuses_of_eq hs ?_⟩⟩
  · rw [remove_eq hs hp, if_pos (bnot_of_not (by simpa using hb))]
  · rw [remove_eq hs hp, if_neg (not_bnot (by simpa using hb)), if_pos (by simpa [Option.isSome_iff_ne_none, or_assoc] using hbusy)]
  · rw [remove_eq hs hp, if_neg (not_bnot (by simpa using hb)), if_neg (by simpa [Option.isSome_iff_ne_none, or_assoc] using hbusy)]
    exact books_atBoundary s h 0x0307 _ (.inl hs)
  · rw [adapterRemove_known hs hp ha hid hf, if_pos ho]
  · rw [adapterRemove_only hs hp ha hid hy ho ht]
    have h1 := retire_freed s p id a y hy
    have h2 := sweepAdapters_freed hp (fun q hq => by rw [h1.plcs q hq]; exact hothers q hq) fun u hu =>
      sweepPlacement_pinned u p id a { y with retiring := true } (by rw [hu.plc, h1.plc]) hvs fun v hv => by
        rw [pinned_congr (show u.sessions = s.sessions by rw [hu.frame, h1.frame])]; exact hpin v hv
    have hend := h1.trans h2
    generalize (s.retire p id).sweepAdapters = e at hend ⊢
    obtain ⟨hasp, hcores⟩ := hend.idle rfl
    exact ⟨e, hs ▸ gives_answer e h 0x0502 .ok (.inl hs), by rw [hend.frame, hasp, hcores], hend.plc, hend.plcs⟩
  · rw [adapterRemove_only hs hp ha hid hy ho ht]
    have h1 := retire_freed s p id a y hy
    have h2 : Freed (s.retire p id) (s.retire p id).sweepAdapters p a y.versions [] := sweepAdapters_freed hp (fun q hq => by
      rw [h1.plcs q hq]; exact hothers q hq) fun u hu => by
      have hfree' := sweepPlacement_free u p id { y with retiring := true } (by rw [hu.plc, h1.plc]) rfl (fun v hv => by
        rw [pinned_congr (show u.sessions = s.sessions by rw [hu.frame, h1.frame])]; exact hfree v hv) hdistinct
      rwa [show ({ y with retiring := true } : AdapterSt).owner = a from ho] at hfree'
    have hend := h1.trans h2
    generalize (s.retire p id).sweepAdapters = e at hend ⊢
    exact ⟨e, hs ▸ gives_answer e h 0x0502 .ok (.inl hs), hend.frame, hend.plc, hend.plcs, hend.core, hend.asps, hend.asp⟩
  · rw [tuneStop_eq hs hp, if_pos (by simpa using hrun)]
    exact ⟨_, hs ▸ gives_answer _ h 0x0504 .ok (.inl hs), rfl, State.plc_updPlc .., fun q hq => State.plc_updPlc_other _ _ _ _ hq⟩
  · rw [tuneStop_eq hs hp, if_neg (by simpa using hrun)]
  · rw [tuneCommit_eq hs hp, if_pos ((hasResult_iff _).2 hheld)]
    exact books_atBoundaryPending s h 0x0505 _ (.inl hs)
  · rw [tuneCommit_eq hs hp, if_neg (mt (hasResult_iff _).1 hheld)]
  · rw [tuneDiscard_late hs hp hc]
    have hg : Gives (.next (s.answerWith h 0x0506 .superseded 2 [])) s h.src { finalOf h 0x0506 .superseded with detail := 2 } :=
      gives_reply s h.src { finalOf h 0x0506 .superseded with detail := 2 } (.inl hs)
    rwa [hs] at hg
  · rw [tuneDiscard_eq hs hp hc, if_pos ((hasResult_iff _).2 hheld)]
    obtain ⟨hf, hplc, hother, hcore, hmem⟩ := freeAreas_spec s p
    generalize s.freeAreas p true = v at hf hplc hother hcore hmem ⊢
    have he := eq_of_sansRegs (gaugeTune_sansRegs v p)
    generalize v.gaugeTune p = e at he ⊢
    have hep (q : Nat) : e.plc q = v.plc q := plc_congr (by rw [he]) q
    have hec (c : Nat) : e.core c = v.core c := core_congr (by rw [he]) c
    exact ⟨e, hs ▸ gives_answer e h 0x0506 .ok (.inl hs), by rw [he, hf], (hep p).trans hplc, fun q hq => (hep q).trans (hother q hq),
      fun c => by rw [hec]; exact hcore c, fun q hq g hg => by rw [hec]; exact hmem q hq g hg⟩
  · rw [tuneDiscard_eq hs hp hc, if_neg (mt (hasResult_iff _).1 hheld)]

end Sys2Proof.Machine
end

section
/-! PROOFS. O19, the commands that inform: DEVICE_INFO (R382, R386, R420) and SNAPSHOT (R386, R410). -/
namespace Sys2Proof.Machine
open Sys2Proof

/-- DEVICE_INFO is open to the host and, in every power state, to the BMC. -/
theorem ordered_info (s : State) (h : CmdHdr) (k : State → State) (hs : h.src = .host ∨ h.src = .bmc) : s.ordered h 0x0101 k = k s := by
  rcases hs with hs | hs <;> simp [State.ordered, State.mayOrder, bmcOps, hs]

theorem gives_answerWith (s : State) (h : CmdHdr) (op : Nat) (st : Status) (res : List (Nat × Nat × Nat)) (hs : h.src = .host ∨ h.src = .bmc) :
    Gives (.next (s.answerWith h op st 0 res)) s h.src { finalOf h op st with result := res } := gives_reply s h.src _ hs

/-- What a command writes to its buffer, by whether the buffer lies in a DMA window. -/
theorem gives_toBuffer (s : State) (h : CmdHdr) (op : Nat) (data : List Byte) (res : List (Nat × Nat × Nat)) (hs : h.src = .host ∨ h.src = .bmc) :
    let o : Host.Outcome State Fault Refusal := .next (s.toBuffer h op data res)
    if s.dmaOk h.buffer data.length = true then
      Gives o (s.emit (.buffer h.buffer data)) h.src { finalOf h op .ok with inBuffer := true, result := res }
    else Gives o (s.bump Reg.Ceil.DMA_BLOCKED) h.src (finalOf h op .notPermitted) := by
  simp only [State.toBuffer]
  split
  · exact gives_reply _ h.src _ hs
  · exact gives_answer _ h op .notPermitted hs

theorem deviceInfo_judged (s : State) (h : CmdHdr) (hs : h.src = .host ∨ h.src = .bmc) (page : Nat) :
    let o := exec (.deviceInfo h page) s
    let p := if h.expert then page else 0
    let chain := Config.certificateChain
    let shows (l : List Nat) : Prop := Gives o s h.src { finalOf h 0x0101 .ok with
      result := (List.range l.length).map fun i => (4 * i, 4, (s.readReg (l.getD i 0)).toNat) }
    let hash : List (Nat × Nat × Nat) := [(0, 4, chain.length), (4, 64, leNat (sha512 (chain.take Config.deviceCertLen)))]
    InOrder o s h 0x0101 [(32, p ≤ 2), (16, p = 2 → h.src = .host → chain.length ≤ h.bufferLen)]
      ((p = 0 → shows [0x00, 0x04, 0x08, 0x0C, 0x10, 0x14, 0x18, 0x1C])
      ∧ (p = 1 → shows [0x7C0000, 0x7C0004, 0x7C0008, 0x7C000C, 0x7C0010, 0x7C0014])
      ∧ (p = 2 → h.src = .bmc → Gives o s .bmc { finalOf h 0x0101 .ok with result := hash })
      ∧ (p = 2 → h.src = .host →
        if s.dmaOk h.buffer chain.length = true then
          Gives o (s.emit (.buffer h.buffer chain)) .host { finalOf h 0x0101 .ok with inBuffer := true, result := hash }
        else Gives o (s.bump Reg.Ceil.DMA_BLOCKED) .host (finalOf h 0x0101 .notPermitted))) := by
  intro o p chain shows hash
  refine inOrder_of_checked hs ?_ (congrArg Host.Outcome.next (ordered_info s h _ hs)) fun _ hk => ⟨fun h0 => ?_, fun h1 => ?_, fun h2 hb => ?_,
    fun h2 hh => ?_⟩
  · rcases hs with hs | hs <;> simp [hs, p, chain, or_iff_not_imp_left]
  · rw [show (if h.expert then page else 0) = 0 from h0] at hk
    exact ⟨_, hk, answered_reply s h.src _ hs⟩
  · rw [show (if h.expert then page else 0) = 1 from h1] at hk
    exact ⟨_, hk, answered_reply s h.src _ hs⟩
  · rw [show (if h.expert then page else 0) = 2 from h2] at hk
    have hk : o = .next (s.answerWith h 0x0101 .ok 0 hash) := hk.trans (congrArg Host.Outcome.next (if_pos (by simp [hb])))
    exact hk ▸ hb ▸ gives_answerWith s h 0x0101 .ok hash hs
  · rw [show (if h.expert then page else 0) = 2 from h2] at hk
    have hk : o = .next (s.toBuffer h 0x0101 chain hash) := hk.trans (congrArg Host.Outcome.next (if_neg (by simp [hh])))
    rw [hk]
    have hg := gives_toBuffer s h 0x0101 chain hash hs
    rwa [hh] at hg

/-- What stands in a copy of BAR0 outside the tick count is what the registers show. -/
theorem bar0Bytes_shown (s : State) (offset n i : Nat) (hout : Reg.Tick.TCK_COUNT_LO.addr < offset ∨ offset + n ≤ Reg.Tick.TCK_COUNT_LO.addr)
    (hi : i < n) : (s.bar0Bytes offset n).getD i 0 = BitVec.ofNat 8 ((s.readReg ((offset + i) / 4 * 4)).toNat / 2 ^ (8 * ((offset + i) % 4))) := by
  have hno : (decide (offset ≤ Reg.Tick.TCK_COUNT_LO.addr) && decide (Reg.Tick.TCK_COUNT_LO.addr < offset + n)) = false := by
    rw [Bool.and_eq_false_iff, decide_eq_false_iff_not, decide_eq_false_iff_not]
    omega
  simp only [State.bar0Bytes, hno]
  simp [List.getD_eq_getElem?_getD, hi]

theorem snapshot_judged (s : State) (h : CmdHdr) (hs : h.src = .host) (offset n : Nat) :
    InOrder (exec (.snapshot h offset n) s) s h 0x0803
      [(16, n ≤ h.bufferLen), (32, offset ≤ 0x800000), (36, n ≤ 0x100000 ∧ offset + n ≤ 0x800000)]
      (∃ copy : Option (List Byte),
        Gives (exec (.snapshot h offset n) s)
          { s with host := { s.host with snapshots := s.host.snapshots ++ [⟨h, offset, n, s.tick.count, copy⟩] } } .host (pendingOf h 0x0803)
        ∧ (s.tick.running = true → copy = none)
        ∧ (s.tick.running = false → ∃ b : List Byte, copy = some b ∧ b.length = n
          ∧ ((Reg.Tick.TCK_COUNT_LO.addr < offset ∨ offset + n ≤ Reg.Tick.TCK_COUNT_LO.addr) → ∀ i, i < n →
            b.getD i 0 = BitVec.ofNat 8 ((s.readReg ((offset + i) / 4 * 4)).toNat / 2 ^ (8 * ((offset + i) % 4)))))) := by
  refine inOrder_of_checked (.inl hs) (by simp) (congrArg Host.Outcome.next (ordered_host s h 0x0803 _ hs)) fun _ hk =>
    ⟨if s.tick.running then none else some (s.bar0Bytes offset n), ?_, fun hr => if_pos hr, fun hr => ⟨s.bar0Bytes offset n, ?_, ?_, ?_⟩⟩
  · exact hs ▸ ⟨_, hk, answered_pend _ h 0x0803 (.inl hs)⟩
  · simp [hr]
  · simp [State.bar0Bytes]
  · exact fun hout i hi => bar0Bytes_shown s offset n i hout hi

/-- Writing at most one held reply writes no buffer. -/
theorem drainReplies_one_out (s : State) : (State.drainReplies 1 s).out = s.out ∨ ∃ r, (State.drainReplies 1 s).out = s.out ++ [.reply r] := by
  unfold State.drainReplies
  cases s.host.held with
  | nil => exact .inl rfl
  | cons r rest =>
    simp only
    split
    · exact .inr ⟨_, rfl⟩
    · exact .inl rfl

/-- A reply to the host that carries a tick of its own. -/
structure Stamped (s t : State) (r : Reply) (tick : Nat) : Prop extends ReplyFrame s t where
  given : t.answersTo .host = s.answersTo .host ++ [{ r with num := 0, tick := tick }]
  wrote : t.out = s.out ∨ ∃ r, t.out = s.out ++ [.reply r]

theorem replyAt_stamped (s : State) (r : Reply) (tick : Nat) : Stamped s (s.replyAt .host r tick) r tick := by
  unfold State.replyAt
  simp only
  obtain ⟨h1, h2, h3⟩ := countAnswer_spec s (r.final && r.status.isRefusal) (r.final && r.status == .superseded)
  generalize hu : (if (r.final && r.status == .superseded) = true then
    State.bump (if (r.final && r.status.isRefusal) = true then s.bump Reg.Evc.REFUSED else s) Reg.Evc.SUPERSEDED
    else (if (r.final && r.status.isRefusal) = true then s.bump Reg.Evc.REFUSED else s)) = u at h1 h2 h3 ⊢
  obtain ⟨d1, d2, -⟩ := drainReplies_spec 1 (u.updHost fun h => { h with held := h.held ++ [{ r with tick := tick }] })
  have dout := drainReplies_one_out (u.updHost fun h => { h with held := h.held ++ [{ r with tick := tick }] })
  refine { toReplyFrame := (h1.trans (ReplyFrame.held u _ u.host.replyNum u.host.sigReply)).trans d1, given := ?_, wrote := h2 ▸ dout }
  rw [d2]
  simp [State.answersTo, h2, h3, Reply.unnumbered]

theorem snapshotDone_none (s : State) (hc : s.host.snapshots = [] ∨ ∃ x rest, s.host.snapshots = x :: rest ∧ x.copy = none) :
    opSnapshotDone s = s := by
  rcases hc with hc | ⟨x, rest, hc, hx⟩
  · simp only [opSnapshotDone, hc]
  · simp only [opSnapshotDone, hc, hx]

/-- The state without its oldest snapshot. -/
def State.sansSnapshot (s : State) (rest : List Snapshot) : State := s.updHost fun h => { h with snapshots := rest }

theorem snapshotDone_some (s : State) (x : Snapshot) (rest : List Snapshot) (data : List Byte) (hq : s.host.snapshots = x :: rest)
    (hx : x.copy = some data) (hs : x.header.src = .host) : opSnapshotDone s =
      if s.dmaOk x.header.buffer data.length = true then
        ((s.sansSnapshot rest).emit (.buffer x.header.buffer data)).replyAt .host { finalOf x.header 0x0803 .ok with inBuffer := true } x.tick
      else ((s.sansSnapshot rest).bump Reg.Ceil.DMA_BLOCKED).replyAt .host (finalOf x.header 0x0803 .notPermitted) x.tick := by
  simp only [opSnapshotDone, hq, hx, hs]
  rfl

/-- A counter goes up by one and stands at its highest value. -/
theorem get_bump (s : State) (f : Fld) (hi : f.hi < 32) (hl : f.lo ≤ f.hi) :
    (s.bump f).get f = min (s.get f + 1) (2 ^ (f.hi - f.lo + 1) - 1) := by
  rw [State.bump, State.count, State.get_put_mod _ _ _ hi hl]
  have := Nat.two_pow_pos (f.hi - f.lo + 1)
  exact Nat.mod_eq_of_lt (by omega)

theorem dmaBlocked_apart : Reg.Ceil.DMA_BLOCKED.addr ∉ answerRegs := by decide

theorem snapshotCopyComplete_written (s : State) (h : CmdHdr) (x : Snapshot) (rest : List Snapshot) (data : List Byte)
    (hq : s.host.snapshots = x :: rest) (hx : x.copy = some data) (hh : x.header = h) (hs : h.src = .host) :
    let put := s.dmaOk h.buffer data.length
    ∃ t, exec .snapshotCopyComplete s = .next t
      ∧ t.answersTo .host = s.answersTo .host
        ++ [{ finalOf h 0x0803 (if put then .ok else .notPermitted) with inBuffer := put, tick := x.tick }]
      ∧ (∀ a, a ∉ answerRegs → a ≠ Reg.Ceil.DMA_BLOCKED.addr → t.reg a = s.reg a)
      ∧ (put = true → t.get Reg.Ceil.DMA_BLOCKED = s.get Reg.Ceil.DMA_BLOCKED ∧ s.out ++ [.buffer h.buffer data] <+: t.out)
      ∧ (put = false → t.get Reg.Ceil.DMA_BLOCKED = min (s.get Reg.Ceil.DMA_BLOCKED + 1)
          (2 ^ (Reg.Ceil.DMA_BLOCKED.hi - Reg.Ceil.DMA_BLOCKED.lo + 1) - 1) ∧ s.out <+: t.out ∧ ∀ a b, .buffer a b ∈ t.out → .buffer a b ∈ s.out)
      ∧ t = { s with
          regs := t.regs, out := t.out
          host := { s.host with snapshots := rest, held := t.host.held, replyNum := t.host.replyNum, sigReply := t.host.sigReply } } := by
  intro put
  subst hh
  have he : exec .snapshotCopyComplete s = .next (opSnapshotDone s) := rfl
  rw [he, snapshotDone_some s x rest data hq hx hs]
  by_cases hp : put = true
  · rw [if_pos hp, hp]
    have ht := replyAt_stamped ((s.sansSnapshot rest).emit (.buffer x.header.buffer data)) { finalOf x.header 0x0803 .ok with inBuffer := true } x.tick
    generalize State.replyAt _ .host _ _ = t at ht
    refine ⟨t, rfl, ht.given.trans ?_, fun a ha _ => ht.regs a ha, fun _ => ⟨get_congr_reg (ht.regs _ dmaBlocked_apart), ht.out⟩,
      fun hn => (nomatch hn), ht.frame⟩
    simp [State.answersTo, repliesIn_append, repliesIn, State.sansSnapshot]
    rfl
  · rw [if_neg hp]
    rw [Bool.not_eq_true] at hp
    rw [hp]
    have ht := replyAt_stamped ((s.sansSnapshot rest).bump Reg.Ceil.DMA_BLOCKED) (finalOf x.header 0x0803 .notPermitted) x.tick
    generalize State.replyAt _ .host _ _ = t at ht
    refine ⟨t, rfl, ht.given, fun a ha hd => (ht.regs a ha).trans (State.reg_put_other _ _ _ a hd), fun hn => (nomatch hn),
      fun _ => ⟨?_, ht.out, fun a b hm => ?_⟩, ht.frame⟩
    · rw [get_congr_reg (ht.regs _ dmaBlocked_apart)]
      exact get_bump s Reg.Ceil.DMA_BLOCKED (by decide) (by decide)
    · rcases ht.wrote with hw | ⟨r, hw⟩ <;> rw [hw] at hm
      · exact hm
      · simpa [State.sansSnapshot] using hm

end Sys2Proof.Machine
end

section
/-! PROOFS. O19, a self-test takes its field (R23, R166, R449, R450). -/
namespace Sys2Proof.Machine
open Sys2Proof

/-- `t` is `s` with a self-test ordered on a field, whose steward is called where the field is at rest. -/
structure TestOrdered (s t : State) (f : Nat) : Prop where
  frame : t = { s with fields := t.fields, gust := t.gust, nextRequest := t.nextRequest, out := t.out }
  field : t.field f = { s.field f with task := 2, taskCmd := none }
  others : ∀ g, g ≠ f → t.field g = s.field g
  woken : if (s.field f).clock = .stopped then
      t.gust = s.gust ++ [(s.nextRequest, stewardId f)] ∧ t.nextRequest = s.nextRequest + 1 ∧ .gust s.nextRequest (stewardId f) ∈ t.out
    else t.gust = s.gust ∧ t.nextRequest = s.nextRequest
  answers : ∀ o : Src, t.answersTo o = s.answersTo o

theorem beginTask_ordered (s : State) (f : Nat) : TestOrdered s (s.beginTask f 2 none) f := by
  have hfield := State.field_updField s f fun x => { x with task := 2, taskCmd := none }
  have hother := fun g => State.field_updField_other s f g fun x => { x with task := 2, taskCmd := none }
  have hclock : ((s.updField f fun x => { x with task := 2, taskCmd := none }).field f).clock = (s.field f).clock := by rw [hfield]
  unfold State.beginTask
  simp only [OfNat.ofNat_ne_one, if_false, hclock, beq_iff_eq]
  by_cases hc : (s.field f).clock = .stopped
  · rw [if_pos hc]
    refine ⟨rfl, hfield, hother, ?_, fun o => (sendGust_sent _ (stewardId f)).answers o⟩
    rw [if_pos hc]
    exact ⟨rfl, rfl, List.mem_append_right _ List.mem_cons_self⟩
  · rw [if_neg hc]
    refine ⟨rfl, hfield, hother, ?_, fun o => rfl⟩
    rw [if_neg hc]
    exact ⟨rfl, rfl⟩

/-! ### SELF_TEST of the host -/

/-- The condition under which SELF_TEST is answered BUSY. -/
def State.testBusy (s : State) (f : Nat) : Prop :=
  s.inMove f = true ∨ (s.field f).task ≠ 0 ∨ s.start.testField ≠ none ∨ s.power.ladder ≠ 0

theorem testBusy_iff (s : State) (f : Nat) :
    (s.inMove f || (s.field f).task ≠ 0 || s.start.testField.isSome || s.power.ladder ≠ 0) = true ↔ s.testBusy f := by
  simp [State.testBusy, Option.isSome_iff_ne_none, or_assoc]

/-- What SELF_TEST does once its source and its field number are judged. -/
def State.orderTest (s : State) (h : CmdHdr) (f : Nat) : State :=
  if (s.field f).role == .service then s.answer h 0x0801 .notPermitted
  else if (s.field f).role == .active && !h.expert then s.answer h 0x0801 .inService
  else if s.inMove f || (s.field f).task ≠ 0 || s.start.testField.isSome || s.power.ladder ≠ 0 then s.answer h 0x0801 .busy
  else if (s.field f).role == .active then
    if ((s.taskAfterMove h 0x0801 f 2).field f).task = 2 then
      ((s.taskAfterMove h 0x0801 f 2).updField f fun x => { x with taskCmd := none }).takeTest f (some (h.seq, h.src, opOf h 0x0801))
    else s.taskAfterMove h 0x0801 f 2
  else ((s.pend h 0x0801 []).takeTest f (some (h.seq, h.src, opOf h 0x0801))).beginTask f 2 none

theorem selfTest_eq (s : State) (h : CmdHdr) (f : Nat) (hs : h.src = .host) :
    exec (.selfTest h f) s = .next (s.checked h 0x0801 [(32, decide (f < 88))] fun s => s.orderTest h f) :=
  congrArg Host.Outcome.next (ordered_host s h 0x0801 _ hs)

theorem testField_apart : Reg.Start.TEST_FIELD.addr ∉ answerRegs := by decide

theorem get_testField (s : State) (f : Nat) (hf : f < 88) : (s.put Reg.Start.TEST_FIELD f).get Reg.Start.TEST_FIELD = f := by
  rw [State.get_put_mod _ _ _ (by decide) (by decide)]
  exact Nat.mod_eq_of_lt (Nat.lt_trans hf (by decide))

/-- The test is ordered on a field that is not ACTIVE. -/
theorem orderTest_idle (s : State) (h : CmdHdr) (f : Nat) (hs : h.src = .host) (hf : f < 88) (hr : (s.field f).role ≠ .service)
    (ha : (s.field f).role ≠ .active) (hb : ¬s.testBusy f) : let t := s.orderTest h f
    t.field f = { s.field f with task := 2, taskCmd := none } ∧ (∀ g, g ≠ f → t.field g = s.field g)
    ∧ t.get Reg.Start.TEST_FIELD = f ∧ (∀ a, a ∉ answerRegs → a ≠ Reg.Start.TEST_FIELD.addr → t.reg a = s.reg a)
    ∧ (if (s.field f).clock = .stopped then
        t.gust = s.gust ++ [(s.nextRequest, stewardId f)] ∧ t.nextRequest = s.nextRequest + 1 ∧ .gust s.nextRequest (stewardId f) ∈ t.out
      else t.gust = s.gust ∧ t.nextRequest = s.nextRequest)
    ∧ t.answersTo .host = s.answersTo .host ++ [{ pendingOf h 0x0801 with tick := s.tick.count }]
    ∧ t = { s with
        fields := t.fields, regs := t.regs, out := t.out, gust := t.gust, nextRequest := t.nextRequest
        start := { s.start with testField := some f, testCmd := some (h.seq, .host, opOf h 0x0801) }
        host := { s.host with held := t.host.held, replyNum := t.host.replyNum, sigReply := t.host.sigReply } } := by
  have he : s.orderTest h f = ((s.pend h 0x0801 []).takeTest f (some (h.seq, h.src, opOf h 0x0801))).beginTask f 2 none := by
    unfold State.orderTest
    rw [if_neg (by simpa using hr), if_neg (by simp [ha]), if_neg (mt (testBusy_iff s f).1 hb), if_neg (by simpa using ha)]
  rw [he, hs]
  have hp := answered_pend s h 0x0801 (.inl hs)
  rw [hs] at hp
  generalize s.pend h 0x0801 [] = u at hp ⊢
  have hufield (g : Nat) : u.field g = s.field g := field_congr (by rw [hp.frame]) g
  have hget := get_testField (u.updStart fun x => { x with testField := some f, testCmd := some (h.seq, .host, opOf h 0x0801) }) f hf
  have hreg := fun a => State.reg_put_other (u.updStart fun x => { x with testField := some f, testCmd := some (h.seq, .host, opOf h 0x0801) })
    Reg.Start.TEST_FIELD f a
  have hv : u.takeTest f (some (h.seq, .host, opOf h 0x0801)) = { u with
    regs := (u.takeTest f (some (h.seq, .host, opOf h 0x0801))).regs
    start := { u.start with testField := some f, testCmd := some (h.seq, .host, opOf h 0x0801) } } := rfl
  change (u.takeTest f _).get _ = f at hget
  change ∀ a, _ → (u.takeTest f _).reg a = u.reg a at hreg
  generalize u.takeTest f (some (h.seq, .host, opOf h 0x0801)) = v at hget hreg hv ⊢
  have ht := beginTask_ordered v f
  generalize v.beginTask f 2 none = t at ht ⊢
  have hvfield (g : Nat) : v.field g = s.field g := (field_congr (by rw [hv]) g).trans (hufield g)
  have hregs : t.regs = v.regs := by rw [ht.frame]
  have hwoken := ht.woken
  rw [hvfield, show v.gust = s.gust by rw [hv, hp.frame], show v.nextRequest = s.nextRequest by rw [hv, hp.frame]] at hwoken
  refine ⟨by rw [ht.field, hvfield], fun g hg => (ht.others g hg).trans (hvfield g), (get_congr hregs _).trans hget, fun a ha hne => ?_, hwoken, ?_, ?_⟩
  · exact ((reg_congr hregs a).trans (hreg a hne)).trans (hp.regs a ha)
  · rw [ht.answers, show v.answersTo .host = u.answersTo .host from answersTo_frame (by rw [hv]) (by rw [hv]) _, hp.given]
    rfl
  · rw [ht.frame, hv, hp.frame]

end Sys2Proof.Machine
end

section
/-! PROOFS. O19, the test of an ACTIVE field after its move (R166), and the interval that takes the next CLEARING field (R449). -/
namespace Sys2Proof.Machine
open Sys2Proof

theorem takeTest_frame (s : State) (f : Nat) (cmd : Option (Nat × Src × Nat)) : s.takeTest f cmd =
    { s with regs := (s.takeTest f cmd).regs, start := { s.start with testField := some f, testCmd := cmd } } := rfl

theorem takeTest_reg (s : State) (f : Nat) (cmd : Option (Nat × Src × Nat)) (a : Nat) (h : a ≠ Reg.Start.TEST_FIELD.addr) :
    (s.takeTest f cmd).reg a = s.reg a := State.reg_put_other _ _ _ a h

/-- The field's task and the test as it is shown are set after an answer as they would be before it. -/
theorem answered_takeTest {s t : State} {src : Src} {r : Reply} (h : Answered s t src r) (f : Nat) (g : FieldSt → FieldSt)
    (cmd : Option (Nat × Src × Nat)) : Answered ((s.updField f g).takeTest f cmd) ((t.updField f g).takeTest f cmd) src r := by
  have hfields : (t.updField f g).fields = (s.updField f g).fields := by
    change t.fields.set f (g (t.field f)) = s.fields.set f (g (s.field f))
    rw [field_congr (show t.fields = s.fields by rw [h.frame]) f, show t.fields = s.fields by rw [h.frame]]
  refine ⟨?_, ?_, h.out, ?_, fun a ha => ?_⟩
  · exact (answersTo_frame rfl rfl src).trans (h.given.trans (congrArg (· ++ _) (answersTo_frame (s := s) rfl rfl src).symm))
  · exact fun o ho => (answersTo_frame rfl rfl o).trans ((h.others o ho).trans (answersTo_frame (s := s) rfl rfl o).symm)
  · have hX : (t.updField f g).takeTest f cmd = { t with
        fields := (s.updField f g).fields, regs := ((t.updField f g).takeTest f cmd).regs
        start := { t.start with testField := some f, testCmd := cmd } } := by
      rw [← hfields]
      rfl
    refine hX.trans ?_
    rw [h.frame]
    rfl
  · by_cases hf : a = Reg.Start.TEST_FIELD.addr
    · subst hf
      have hr : (t.updField f g).reg Reg.Start.TEST_FIELD.addr = (s.updField f g).reg Reg.Start.TEST_FIELD.addr := h.regs _ ha
      simp only [State.takeTest, State.put, State.reg_setReg]
      exact congrArg (fun v => v &&& _ ||| _) hr
    · rw [takeTest_reg _ _ _ _ hf, takeTest_reg _ _ _ _ hf]
      exact h.regs a ha

/-- What the expert form does with an ACTIVE field. -/
theorem taskAfterMove_eq (s : State) (h : CmdHdr) (op f task p : Nat) (hp : (s.field f).placement = some p) (ht : s.twinComplete f ≠ none) :
    s.taskAfterMove h op f task = if s.nearestClearing f = none ∨ 3 ≤ (s.plc p).moves.length ∨ s.aliasFull p f = true then s.answer h op .noResource
      else ((s.beginMove p f true).1.updField f fun x => { x with task := task, taskCmd := some (h.seq, h.src, opOf h op) }).pend h op [] := by
  simp only [State.taskAfterMove, hp]
  rw [if_neg (by simpa using ht)]
  simp only [Bool.or_eq_true, Option.isNone_iff_eq_none, decide_eq_true_eq, or_assoc]

theorem taskAfterMove_none (s : State) (h : CmdHdr) (op f task : Nat) (hn : (s.field f).placement = none ∨ s.twinComplete f = none) :
    s.taskAfterMove h op f task = s.answer h op .inService := by
  cases hp : (s.field f).placement with
  | none => simp only [State.taskAfterMove, hp]
  | some p => simp [State.taskAfterMove, hp, hn.resolve_left (by simp [hp])]

/-- Whether the move for a test finds no room. -/
def State.moveRefused (s : State) (p f : Nat) : Prop := s.nearestClearing f = none ∨ 3 ≤ (s.plc p).moves.length ∨ s.aliasFull p f = true

theorem orderTest_active (s : State) (h : CmdHdr) (f : Nat) (hr : (s.field f).role = .active) (he : h.expert = true) (hb : ¬s.testBusy f) :
    s.orderTest h f = if ((s.taskAfterMove h 0x0801 f 2).field f).task = 2 then
      ((s.taskAfterMove h 0x0801 f 2).updField f fun x => { x with taskCmd := none }).takeTest f (some (h.seq, h.src, opOf h 0x0801))
    else s.taskAfterMove h 0x0801 f 2 := by
  unfold State.orderTest
  rw [if_neg (by simp [hr]), if_neg (by simp [he]), if_neg (mt (testBusy_iff s f).1 hb), if_pos (by simp [hr])]

/-- A refusal leaves the field without the task. -/
theorem orderTest_refused (s : State) (h : CmdHdr) (f : Nat) (st : Status) (hs : h.src = .host) (hr : (s.field f).role = .active) (he : h.expert = true)
    (hb : ¬s.testBusy f) (ht : s.taskAfterMove h 0x0801 f 2 = s.answer h 0x0801 st) : s.orderTest h f = s.answer h 0x0801 st := by
  have hfield : (s.answer h 0x0801 st).field f = s.field f := field_congr (by rw [(answered_answer s h 0x0801 st (.inl hs)).frame]) f
  have htask : (s.field f).task = 0 := by
    unfold State.testBusy at hb
    tauto
  rw [orderTest_active s h f hr he hb, ht, hfield, htask]
  rfl

/-- The task of a test, with the command that waits for it. -/
def State.testTask (m : State) (h : CmdHdr) (f : Nat) : State :=
  m.updField f fun x => { x with task := 2, taskCmd := some (h.seq, h.src, opOf h 0x0801) }

/-- The state in which a test has taken a field whose move has begun. -/
def State.testMoved (m : State) (h : CmdHdr) (f : Nat) : State :=
  ((m.testTask h f).updField f fun x => { x with taskCmd := none }).takeTest f
    (some (h.seq, h.src, opOf h 0x0801))

theorem orderTest_moved (s : State) (h : CmdHdr) (f p : Nat) (hs : h.src = .host) (hr : (s.field f).role = .active) (he : h.expert = true)
    (hb : ¬s.testBusy f) (hp : (s.field f).placement = some p) (ht : s.twinComplete f ≠ none) (hroom : ¬s.moveRefused p f) :
    Answered ((s.beginMove p f true).1.testMoved h f) (s.orderTest h f) h.src (pendingOf h 0x0801) := by
  have hm : s.taskAfterMove h 0x0801 f 2 = ((s.beginMove p f true).1.testTask h f).pend h 0x0801 [] :=
    (taskAfterMove_eq s h 0x0801 f 2 p hp ht).trans (if_neg hroom)
  rw [orderTest_active s h f hr he hb, hm]
  have htask : (((s.beginMove p f true).1.testTask h f).field f).task = 2 := congrArg FieldSt.task (State.field_updField _ f _)
  have ha := answered_pend ((s.beginMove p f true).1.testTask h f) h 0x0801 (.inl hs)
  have hfields : (((s.beginMove p f true).1.testTask h f).pend h 0x0801 []).fields = ((s.beginMove p f true).1.testTask h f).fields := by
    rw [ha.frame]
  rw [if_pos ((congrArg FieldSt.task (field_congr hfields f)).trans htask)]
  exact answered_takeTest ha f _ _

theorem testMoved_spec (m : State) (h : CmdHdr) (f : Nat) (hf : f < 88) (hs : h.src = .host) : let e := m.testMoved h f
    e.field f = { m.field f with task := 2, taskCmd := none } ∧ (∀ g, g ≠ f → e.field g = m.field g)
    ∧ e.get Reg.Start.TEST_FIELD = f ∧ (∀ a, a ≠ Reg.Start.TEST_FIELD.addr → e.reg a = m.reg a)
    ∧ e = { m with fields := e.fields, regs := e.regs, start := { m.start with testField := some f, testCmd := some (h.seq, .host, opOf h 0x0801) } } := by
  refine ⟨?_, fun g hg => ?_, get_testField _ f hf, fun a ha => takeTest_reg _ _ _ a ha, by rw [State.testMoved, hs]; rfl⟩
  · exact (State.field_updField _ f fun x => { x with taskCmd := none }).trans (congrArg (fun x : FieldSt => { x with taskCmd := none })
      (State.field_updField m f _))
  · exact (State.field_updField_other _ f g (fun x => { x with taskCmd := none }) hg).trans (State.field_updField_other m f g _ hg)

/-! ### The interval -/

theorem computeFields_lt {f : Nat} (h : f ∈ computeFields) : f < 88 := List.mem_range.1 (List.mem_of_mem_filter h)

/-- The next field to be tested is CLEARING, and no task is ordered on it. -/
theorem nextTest_clearing (s : State) (g : Nat) (h : s.nextTest = some g) : (s.field g).role = .clearing ∧ g < 88 := by
  have hm : g ∈ computeFields.filter fun f => (s.field f).role == .clearing && (s.field f).task = 0 := by
    unfold State.nextTest at h
    simp only at h
    split at h
    · next f hf => exact (Option.some.inj h) ▸ List.mem_of_find?_eq_some hf
    · exact List.mem_of_head? h
  obtain ⟨hc, hr⟩ := List.mem_filter.1 hm
  simp only [Bool.and_eq_true, beq_iff_eq] at hr
  exact ⟨hr.1, computeFields_lt hc⟩

/-- The condition under which the interval takes no field. -/
def State.testsHeld (s : State) : Prop :=
  s.start.testInterval = 0 ∨ s.start.testField ≠ none ∨ s.power.ladder ≠ 0 ∨ s.zenithServing = false

theorem testsHeld_iff (s : State) :
    (s.start.testInterval = 0 || s.start.testField.isSome || s.power.ladder ≠ 0 || !s.zenithServing) = true ↔ s.testsHeld := by
  simp [State.testsHeld, Option.isSome_iff_ne_none, or_assoc]

theorem testInterval_idle (s : State) (h : s.testsHeld ∨ s.nextTest = none) : opTestInterval s = s := by
  unfold opTestInterval
  split
  · rfl
  · next hn => rw [(h.resolve_left (mt (testsHeld_iff s).2 hn))]

theorem testInterval_taken (s : State) (g : Nat) (h : ¬s.testsHeld) (hg : s.nextTest = some g) :
    opTestInterval s = (s.takeTest g none).beginTask g 2 none := by
  unfold opTestInterval
  rw [if_neg (mt (testsHeld_iff s).1 h), hg]

theorem selfTestInterval_judged (s : State) :
    (s.testsHeld ∨ s.nextTest = none → exec .selfTestInterval s = .next s)
    ∧ (¬s.testsHeld → ∀ g, s.nextTest = some g → (s.field g).role = .clearing ∧ g < 88 ∧ ∃ t, exec .selfTestInterval s = .next t
      ∧ t.field g = { s.field g with task := 2, taskCmd := none } ∧ (∀ y, y ≠ g → t.field y = s.field y)
      ∧ t.get Reg.Start.TEST_FIELD = g ∧ (∀ a, a ≠ Reg.Start.TEST_FIELD.addr → t.reg a = s.reg a)
      ∧ (if (s.field g).clock = .stopped then
          t.gust = s.gust ++ [(s.nextRequest, stewardId g)] ∧ t.nextRequest = s.nextRequest + 1 ∧ .gust s.nextRequest (stewardId g) ∈ t.out
        else t.gust = s.gust ∧ t.nextRequest = s.nextRequest)
      ∧ t = { s with
          fields := t.fields, regs := t.regs, out := t.out, gust := t.gust, nextRequest := t.nextRequest
          start := { s.start with testField := some g, testCmd := none } }) := by
  refine ⟨fun h => congrArg Host.Outcome.next (testInterval_idle s h), fun h g hg => ?_⟩
  obtain ⟨hrole, hlt⟩ := nextTest_clearing s g hg
  refine ⟨hrole, hlt, _, congrArg Host.Outcome.next (testInterval_taken s g h hg), ?_⟩
  have hget : (s.takeTest g none).get Reg.Start.TEST_FIELD = g := get_testField _ g hlt
  have hreg := takeTest_reg s g none
  have hv := takeTest_frame s g none
  have hvfield (y : Nat) : (s.takeTest g none).field y = s.field y := rfl
  generalize s.takeTest g none = v at hget hreg hv hvfield ⊢
  have ht := beginTask_ordered v g
  generalize v.beginTask g 2 none = t at ht ⊢
  have hregs : t.regs = v.regs := by rw [ht.frame]
  have hwoken := ht.woken
  rw [hvfield, show v.gust = s.gust by rw [hv], show v.nextRequest = s.nextRequest by rw [hv]] at hwoken
  refine ⟨by rw [ht.field, hvfield], fun y hy => (ht.others y hy).trans (hvfield y), (get_congr hregs _).trans hget,
    fun a ha => (reg_congr hregs a).trans (hreg a ha), hwoken, ?_⟩
  rw [ht.frame, hv]

end Sys2Proof.Machine
end

section
/-! PROOFS. O19, a self-test that is complete (R450), and the obligation. -/

namespace Sys2Proof

/-- Writing an entry takes no other out of the list. -/
theorem Tbl.has_set {α : Type} (t : Tbl α) (k j : Nat) (v : α) (h : t.has j = true) : (t.set k v).has j = true := by
  induction t with
  | nil => simp [Tbl.has] at h
  | cons e t ih =>
    obtain ⟨i, w⟩ := e
    rw [Tbl.has, List.any_cons, Bool.or_eq_true] at h
    unfold Tbl.set
    split
    · next e => subst e; simpa [Tbl.has] using h
    · split
      · rw [Tbl.has, List.any_cons, List.any_cons, Bool.or_eq_true, Bool.or_eq_true]
        exact .inr h
      · rw [Tbl.has, List.any_cons, Bool.or_eq_true]
        exact h.imp_right ih

end Sys2Proof

namespace Sys2Proof.Machine
open Sys2Proof

/-! ### A field's cores -/

/-- The cores of a list that the module has are changed alike. -/
def State.onCores (s : State) (l : List Nat) (g : CoreSt → CoreSt) : State := s.forAll l fun s c => if s.cores.has c then s.updCore c g else s

theorem onCores_frame (s : State) (l : List Nat) (g : CoreSt → CoreSt) : s.onCores l g = { s with cores := (s.onCores l g).cores } :=
  foldl_related (R := fun s t => t = { s with cores := t.cores }) (fun _ => rfl) (fun h k => by rw [k, h]) l _
    (fun s c => by split <;> rfl) s

theorem onCores_has (s : State) (l : List Nat) (g : CoreSt → CoreSt) (c : Nat) (h : s.cores.has c = true) : (s.onCores l g).cores.has c = true := by
  induction l generalizing s with
  | nil => exact h
  | cons d l ih =>
    refine ih (if s.cores.has d then s.updCore d g else s) ?_
    split
    · exact Tbl.has_set _ _ _ _ h
    · exact h

theorem onCores_other (s : State) (l : List Nat) (g : CoreSt → CoreSt) (c : Nat) (h : c ∉ l) : (s.onCores l g).core c = s.core c := by
  induction l generalizing s with
  | nil => rfl
  | cons d l ih =>
    rw [List.mem_cons, not_or] at h
    refine (ih (if s.cores.has d then s.updCore d g else s) h.2).trans ?_
    split
    · exact State.core_updCore_other s d c g h.1
    · rfl

/-- What the change keeps of a core, it keeps in the run over the list. -/
theorem onCores_keeps (s : State) (l : List Nat) (g : CoreSt → CoreSt) (P : CoreSt → Prop) (c : Nat) (hg : ∀ k, P k → P (g k)) (h : P (s.core c)) :
    P ((s.onCores l g).core c) := by
  induction l generalizing s with
  | nil => exact h
  | cons d l ih =>
    refine ih (if s.cores.has d then s.updCore d g else s) ?_
    split
    · by_cases hc : c = d
      · subst hc
        rw [State.core_updCore]
        exact hg _ h
      · rwa [State.core_updCore_other s d c g hc]
    · exact h

/-- What the change makes so, it makes so for every core of the list that the module has. -/
theorem onCores_makes (s : State) (l : List Nat) (g : CoreSt → CoreSt) (P : CoreSt → Prop) (c : Nat) (hg : ∀ k, P (g k)) (hc : c ∈ l)
    (h : s.cores.has c = true) : P ((s.onCores l g).core c) := by
  induction l generalizing s with
  | nil => cases hc
  | cons d l ih =>
    change P ((State.onCores (if s.cores.has d then s.updCore d g else s) l g).core c)
    rcases List.mem_cons.1 hc with rfl | hc
    · refine onCores_keeps _ l g P c (fun k _ => hg k) ?_
      rw [if_pos h, State.core_updCore]
      exact hg _
    · refine ih _ hc ?_
      split
      · exact Tbl.has_set _ _ _ _ h
      · exact h

/-- A core whose banks are down holds nothing. -/
def CoreSt.Down (k : CoreSt) : Prop := k.bankOn = 0 ∧ k.mem = []

/-- The part of a state that banks going down and a loss found leave: all but fields, cores and the host's copies of the windows. -/
structure FieldDown (s t : State) (f : Nat) : Prop where
  frame : t = { s with fields := t.fields, cores := t.cores, windows := t.windows }
  others : ∀ g, g ≠ f → t.field g = s.field g
  cores : ∀ c, coreField c ≠ f → t.core c = s.core c
  has : ∀ c, s.cores.has c = true → t.cores.has c = true
  down : ∀ c, (s.core c).Down → (t.core c).Down

theorem FieldDown.trans {s t u : State} {f : Nat} (h : FieldDown s t f) (k : FieldDown t u f) : FieldDown s u f :=
  ⟨by rw [k.frame, h.frame], fun g hg => (k.others g hg).trans (h.others g hg), fun c hc => (k.cores c hc).trans (h.cores c hc),
    fun c hc => k.has c (h.has c hc), fun c hc => k.down c (h.down c hc)⟩

theorem FieldDown.field (s : State) (f : Nat) (g : FieldSt → FieldSt) : FieldDown s (s.updField f g) f :=
  ⟨rfl, fun k hk => State.field_updField_other s f k g hk, fun _ _ => rfl, fun _ h => h, fun _ h => h⟩

theorem FieldDown.onCores (s : State) (f : Nat) (g : CoreSt → CoreSt) (hg : ∀ k, k.Down → (g k).Down) : FieldDown s (s.onCores (coresOf f) g) f :=
  ⟨by rw [onCores_frame], fun k _ => field_congr (by rw [onCores_frame]) k, fun c hc => onCores_other s _ g c (mt (mem_coresOf f c).1 hc),
    fun c hc => onCores_has s _ g c hc, fun c hc => onCores_keeps s _ g CoreSt.Down c hg hc⟩

/-- The change that takes a bank down. -/
def CoreSt.banksDown (k : CoreSt) : CoreSt :=
  { k with bankOn := 0, bankInit := 0, mem := [], scErr := [], tags := [], nextTags := [], state := if k.state == .test then .off else k.state }

theorem banksDown_eq (s : State) (f : Nat) : s.banksDown f = s.onCores (coresOf f) CoreSt.banksDown := rfl

theorem banksDown_down (s : State) (f : Nat) : FieldDown s (s.banksDown f) f := FieldDown.onCores s f _ fun _ _ => ⟨rfl, rfl⟩

theorem banksDown_fields (s : State) (f : Nat) : (s.banksDown f).fields = s.fields := by
  rw [banksDown_eq, onCores_frame]

theorem banksDown_emptied (s : State) (f c : Nat) (hc : coreField c = f) (h : s.cores.has c = true) : ((s.banksDown f).core c).Down :=
  onCores_makes s _ _ CoreSt.Down c (fun _ => ⟨rfl, rfl⟩) ((mem_coresOf f c).2 hc) h

/-- A field as it is found lost. -/
def FieldSt.foundLost (x : FieldSt) (at_ cause : Nat) : FieldSt :=
  { x with lossPending := true, lossAt := at_, lostCause := some cause, absorb := [], patches := [] }

theorem loseField_standing (s : State) (f cause : Nat) (h : (s.field f).role = .lost ∨ (s.field f).lossPending = true ∨ (s.field f).role = .service) :
    s.loseField f cause = s := by
  unfold State.loseField
  exact if_pos (by simpa [or_assoc] using h)

theorem loseField_found (s : State) (f cause : Nat) (hl : (s.field f).role ≠ .lost) (hp : (s.field f).lossPending = false)
    (hr : (s.field f).role ≠ .service) :
    FieldDown s (s.loseField f cause) f ∧ (s.loseField f cause).field f = (s.field f).foundLost s.tick.count cause := by
  have he : s.loseField f cause = ((s.updField f fun x => x.foundLost s.tick.count cause).copyWindow f).onCores (coresOf f) fun k =>
      { k with state := if k.state == .failed then .failed else .off, seq := {} } := by
    unfold State.loseField
    exact if_neg (by simp [hl, hp, hr])
  have hw : FieldDown (s.updField f fun x => x.foundLost s.tick.count cause) ((s.updField f fun x => x.foundLost s.tick.count cause).copyWindow f) f :=
    ⟨rfl, fun _ _ => rfl, fun _ _ => rfl, fun _ h => h, fun _ h => h⟩
  rw [he]
  refine ⟨((FieldDown.field s f _).trans hw).trans (FieldDown.onCores _ f _ fun k hk => hk), ?_⟩
  exact (field_congr (congrArg State.fields (onCores_frame _ _ _)) f).trans (State.field_updField s f fun x => x.foundLost s.tick.count cause)

/-! ### SELF_TEST_COMPLETE -/

/-- The registers that show a completed test. -/
def testRegs : List Nat := [Reg.Start.TEST_FIELD.addr, Reg.Start.TESTS_RUN.addr, Reg.Start.LAST_STEP.addr]

/-- A completed test is counted and shown. -/
def State.showTest (s : State) (f step : Nat) : State :=
  ((((s.updStart fun x => { x with testField := none, testCmd := none, lastTested := f }).put Reg.Start.TEST_FIELD 0xFF).bump Reg.Start.TESTS_RUN).put
    Reg.Start.LAST_STEP step).put Reg.Start.LAST_FIELD f

theorem showTest_frame (s : State) (f step : Nat) : s.showTest f step =
    { s with regs := (s.showTest f step).regs, start := { s.start with testField := none, testCmd := none, lastTested := f } } := rfl

theorem showTest_shown (s : State) (f step : Nat) : let t := s.showTest f step
    t.get Reg.Start.TEST_FIELD = 0xFF ∧ t.get Reg.Start.TESTS_RUN = min (s.get Reg.Start.TESTS_RUN + 1) (2 ^ 32 - 1)
    ∧ t.get Reg.Start.LAST_STEP = step % 65536 ∧ t.get Reg.Start.LAST_FIELD = f % 256 ∧ ∀ a, a ∉ testRegs → t.reg a = s.reg a := by
  unfold State.showTest
  generalize hu : s.updStart (fun x => { x with testField := none, testCmd := none, lastTested := f }) = u
  have hregs : u.regs = s.regs := by rw [← hu]; rfl
  refine ⟨?_, ?_, ?_, State.get_put_mod _ _ _ (by decide) (by decide), fun a ha => ?_⟩
  · rw [State.get_put_other _ _ _ _ (by decide), State.get_put_other _ _ _ _ (by decide), State.bump, State.count,
      State.get_put_other _ _ _ _ (by decide), State.get_put_mod _ _ _ (by decide) (by decide)]
    rfl
  · rw [State.get_put_other _ _ _ _ (by decide), State.get_put_other _ _ _ _ (by decide), get_bump _ _ (by decide) (by decide),
      State.get_put_other _ _ _ _ (by decide), get_congr hregs]
    rfl
  · rw [State.get_put_apart _ _ _ _ (by decide) (by decide) (by decide) (by decide), State.get_put_mod _ _ _ (by decide) (by decide)]
    rfl
  · simp only [testRegs, List.mem_cons, List.not_mem_nil, or_false, not_or] at ha
    obtain ⟨hfield, hrun, hlast⟩ := ha
    rw [State.reg_put_other _ _ _ _ (show a ≠ Reg.Start.LAST_FIELD.addr from hlast), State.reg_put_other _ _ _ _ hlast, State.bump, State.count, State.reg_put_other _ _ _ _ hrun,
      State.reg_put_other _ _ _ _ hfield, reg_congr hregs]

/-- A field whose test is over: its clock stops, where it runs. -/
def FieldSt.tested (x : FieldSt) : FieldSt :=
  { x with task := 0, taskCmd := none, clock := if x.clock == .running then .stopping true else x.clock }

/-- A failed test that makes its field lost. -/
def FieldSt.testFails (x : FieldSt) (step : Nat) : Prop := step ≠ 0 ∧ (x.role = .clearing ∨ x.role = .unassigned) ∧ x.lossPending = false

/-- The field's part in a completed test. -/
def State.endTest (s : State) (f step : Nat) : State :=
  if step ≠ 0 && ((s.field f).role == .clearing || (s.field f).role == .unassigned) then ((s.updField f FieldSt.tested).banksDown f).loseField f 7
  else (s.updField f FieldSt.tested).banksDown f

theorem testDown (s : State) (f : Nat) : FieldDown s ((s.updField f FieldSt.tested).banksDown f) f
    ∧ ((s.updField f FieldSt.tested).banksDown f).field f = (s.field f).tested
    ∧ ∀ c, coreField c = f → s.cores.has c = true → (((s.updField f FieldSt.tested).banksDown f).core c).Down :=
  ⟨(FieldDown.field s f _).trans (banksDown_down _ f),
    (field_congr (banksDown_fields _ f) f).trans (State.field_updField s f _),
    fun c hc h => banksDown_emptied (s.updField f FieldSt.tested) f c hc h⟩

theorem endTest_spec (s : State) (f step : Nat) : FieldDown s (s.endTest f step) f
    ∧ ((s.field f).testFails step → (s.endTest f step).field f = (s.field f).tested.foundLost s.tick.count 7)
    ∧ (¬(s.field f).testFails step → (s.endTest f step).field f = (s.field f).tested)
    ∧ ∀ c, coreField c = f → s.cores.has c = true → ((s.endTest f step).core c).Down := by
  obtain ⟨hdown, hfield, hempty⟩ := testDown s f
  have htick : ((s.updField f FieldSt.tested).banksDown f).tick = s.tick := by rw [hdown.frame]
  unfold State.endTest
  generalize (s.updField f FieldSt.tested).banksDown f = u at hdown hfield hempty htick ⊢
  split
  · next hf =>
    simp only [ne_eq, decide_not, Bool.and_eq_true, Bool.not_eq_eq_eq_not, Bool.not_true, decide_eq_false_iff_not, Bool.or_eq_true, beq_iff_eq] at hf
    by_cases hp : (s.field f).lossPending = true
    · rw [loseField_standing u f 7 (.inr (.inl (by rw [hfield]; exact hp)))]
      exact ⟨hdown, fun h => absurd hp (by rw [h.2.2]; decide), fun _ => hfield, hempty⟩
    · rw [Bool.not_eq_true] at hp
      obtain ⟨hlost, hlostField⟩ := loseField_found u f 7 (by rw [hfield]; rcases hf.2 with h | h <;> simp [FieldSt.tested, h]) (by rw [hfield]; exact hp)
        (by rw [hfield]; rcases hf.2 with h | h <;> simp [FieldSt.tested, h])
      rw [hfield, htick] at hlostField
      exact ⟨hdown.trans hlost, fun _ => hlostField, fun h => absurd ⟨hf.1, hf.2, hp⟩ h, fun c hc h => hlost.down c (hempty c hc h)⟩
  · next hf =>
    exact ⟨hdown, fun h => absurd (by simpa using ⟨h.1, h.2.1⟩) hf, fun _ => hfield, hempty⟩

/-- The reply that ends a test. -/
def testReply (seq op step : Nat) : Reply :=
  { seq := seq, opcode := op, status := .ok, final := true, result := [(0, 1, if step = 0 then 1 else 0), (2, 2, step)] }

theorem testDone_none (s : State) (step : Nat) (h : s.start.testField = none) : opTestDone step s = s := by simp only [opTestDone, h]

theorem testDone_untold (s : State) (f step : Nat) (h : s.start.testField = some f) (hc : s.start.testCmd = none) :
    opTestDone step s = (s.showTest f step).endTest f step := by
  simp only [opTestDone, h, hc]
  rfl

theorem testDone_told (s : State) (f step seq op : Nat) (src : Src) (h : s.start.testField = some f) (hc : s.start.testCmd = some (seq, src, op)) :
    opTestDone step s = ((s.showTest f step).endTest f step).reply src (testReply seq op step) := by
  simp only [opTestDone, h, hc]
  rfl

end Sys2Proof.Machine
end

section
/-! PROOFS. O19. -/
namespace Sys2Proof.Machine
open Sys2Proof

theorem selfTest_judged (s : State) (h : CmdHdr) (f : Nat) (hs : h.src = .host) :
    let o := exec (.selfTest h f) s
    let x := s.field f
    let woken (t : State) (g : Nat) : Prop := if (s.field g).clock = .stopped then
        t.gust = s.gust ++ [(s.nextRequest, stewardId g)] ∧ t.nextRequest = s.nextRequest + 1 ∧ .gust s.nextRequest (stewardId g) ∈ t.out
      else t.gust = s.gust ∧ t.nextRequest = s.nextRequest
    let shut : Prop := x.role = .active ∧ h.expert = false
    let cmd := some (h.seq, Src.host, opOf h 0x0801)
    InOrder o s h 0x0801 [(32, f < 88)]
      ((x.role = .service → Refuses o s h 0x0801 .notPermitted)
      ∧ (shut → Refuses o s h 0x0801 .inService)
      ∧ (x.role ≠ .service → ¬shut → s.testBusy f → Refuses o s h 0x0801 .busy)
      ∧ (x.role ≠ .service → x.role ≠ .active → ¬s.testBusy f → ∃ t, o = .next t
        ∧ t.field f = { x with task := 2, taskCmd := none } ∧ (∀ g, g ≠ f → t.field g = s.field g)
        ∧ t.get Reg.Start.TEST_FIELD = f ∧ (∀ a, a ∉ answerRegs → a ≠ Reg.Start.TEST_FIELD.addr → t.reg a = s.reg a)
        ∧ woken t f
        ∧ t.answersTo .host = s.answersTo .host ++ [{ pendingOf h 0x0801 with tick := s.tick.count }]
        ∧ t = { s with
            fields := t.fields, regs := t.regs, out := t.out, gust := t.gust, nextRequest := t.nextRequest
            start := { s.start with testField := some f, testCmd := cmd }
            host := { s.host with held := t.host.held, replyNum := t.host.replyNum, sigReply := t.host.sigReply } })
      ∧ (x.role = .active → h.expert = true → ¬s.testBusy f →
        (x.placement = none ∨ s.twinComplete f = none → Refuses o s h 0x0801 .inService)
        ∧ (∀ p, x.placement = some p → s.twinComplete f ≠ none →
          if s.nearestClearing f = none ∨ 3 ≤ (s.plc p).moves.length ∨ s.aliasFull p f = true then Refuses o s h 0x0801 .noResource
          else ∃ e m : State, m = (s.beginMove p f true).1 ∧ Gives o e .host (pendingOf h 0x0801)
            ∧ e.field f = { m.field f with task := 2, taskCmd := none } ∧ (∀ g, g ≠ f → e.field g = m.field g)
            ∧ e.get Reg.Start.TEST_FIELD = f ∧ (∀ a, a ≠ Reg.Start.TEST_FIELD.addr → e.reg a = m.reg a)
            ∧ e = { m with fields := e.fields, regs := e.regs, start := { m.start with testField := some f, testCmd := cmd } }))) := by
  intro o x woken shut cmd
  refine inOrder_of_checked (.inl hs) (by simp) (selfTest_eq s h f hs) fun hfields hk => ?_
  have hf : f < 88 := hfields (32, f < 88) (by simp)
  have refuses {st : Status} (he : s.orderTest h f = s.answer h 0x0801 st) : Refuses o s h 0x0801 st :=
    refuses_of_eq hs (hk.trans (congrArg Host.Outcome.next he))
  refine ⟨fun hr => refuses ?_, fun hshut => refuses ?_, fun hr hshut hb => refuses ?_, fun hr ha hb =>
    ⟨_, hk, orderTest_idle s h f hs hf hr ha hb⟩, fun ha he hb => ⟨fun hn => ?_, fun p hp ht => ?_⟩⟩
  · exact if_pos (by simpa using hr)
  · unfold State.orderTest
    rw [if_neg (by simp [show (s.field f).role = .active from hshut.1]), if_pos (by simpa using (show (s.field f).role = .active ∧ h.expert = false from hshut))]
  · unfold State.orderTest
    rw [if_neg (by simpa using hr), if_neg (by simpa using (show ¬((s.field f).role = .active ∧ h.expert = false) from hshut)), if_pos ((testBusy_iff s f).2 hb)]
  · exact refuses (orderTest_refused s h f _ hs ha he hb (taskAfterMove_none s h 0x0801 f 2 hn))
  · split
    · next hroom => exact refuses (orderTest_refused s h f _ hs ha he hb ((taskAfterMove_eq s h 0x0801 f 2 p hp ht).trans (if_pos hroom)))
    · next hroom =>
      exact ⟨(s.beginMove p f true).1.testMoved h f, _, rfl, hs ▸ ⟨_, hk, orderTest_moved s h f p hs ha he hb hp ht hroom⟩,
        testMoved_spec _ h f hf hs⟩

theorem reply_frame (s : State) (src : Src) (r : Reply) : ReplyFrame s (s.reply src r) := by
  have hself (h : src = .host ∨ src = .bmc) : ReplyFrame s (s.reply src r) :=
    ⟨(answered_reply s src r h).out, (answered_reply s src r h).frame, (answered_reply s src r h).regs⟩
  cases src with
  | host => exact hself (.inl rfl)
  | bmc => exact hself (.inr rfl)
  | ceiling => exact ReplyFrame.refl s
  | peer => exact ReplyFrame.refl s

/-- `t` is `s` after the completed test of a field, its command answered or without one. -/
structure TestEnded (s t : State) (f step : Nat) : Prop where
  start : t.start = { s.start with testField := none, testCmd := none, lastTested := f }
  none : t.get Reg.Start.TEST_FIELD = 0xFF
  runs : t.get Reg.Start.TESTS_RUN = min (s.get Reg.Start.TESTS_RUN + 1) (2 ^ 32 - 1)
  lastStep : t.get Reg.Start.LAST_STEP = step % 65536
  lastField : t.get Reg.Start.LAST_FIELD = f % 256
  regs : ∀ a, a ∉ answerRegs → a ∉ testRegs → t.reg a = s.reg a
  fails : (s.field f).testFails step → t.field f = (s.field f).tested.foundLost s.tick.count 7
  passes : ¬(s.field f).testFails step → t.field f = (s.field f).tested
  others : ∀ g, g ≠ f → t.field g = s.field g
  cores : ∀ c, coreField c ≠ f → t.core c = s.core c
  emptied : ∀ c, coreField c = f → s.cores.has c = true → (t.core c).Down
  frame : t = { s with
    start := t.start, fields := t.fields, cores := t.cores, regs := t.regs, windows := t.windows, out := t.out
    host := { s.host with held := t.host.held, replyNum := t.host.replyNum, sigReply := t.host.sigReply } }

theorem TestEnded.reply {s t u : State} {f step : Nat} (h : TestEnded s t f step) (k : ReplyFrame t u) : TestEnded s u f step := by
  have hfield (g : Nat) : u.field g = t.field g := field_congr (by rw [k.frame]) g
  have hcore (c : Nat) : u.core c = t.core c := core_congr (by rw [k.frame]) c
  have hstart : u.start = t.start := by rw [k.frame]
  refine ⟨hstart.trans h.start, (get_congr_reg (k.regs _ (by decide))).trans h.none, (get_congr_reg (k.regs _ (by decide))).trans h.runs,
    (get_congr_reg (k.regs _ (by decide))).trans h.lastStep, (get_congr_reg (k.regs _ (by decide))).trans h.lastField,
    fun a ha hb => (k.regs a ha).trans (h.regs a ha hb), fun hf => (hfield f).trans (h.fails hf), fun hf => (hfield f).trans (h.passes hf),
    fun g hg => (hfield g).trans (h.others g hg), fun c hc => (hcore c).trans (h.cores c hc), fun c hc hh => hcore c ▸ h.emptied c hc hh, ?_⟩
  rw [k.frame, h.frame]

/-- The field's part and what is shown, without the answer. -/
theorem testEnded (s : State) (f step : Nat) : let t := (s.showTest f step).endTest f step
    TestEnded s t f step ∧ t.host = s.host ∧ t.out = s.out ∧ t.tick = s.tick := by
  obtain ⟨hnone, hruns, hstep, hlast, hregs⟩ := showTest_shown s f step
  have hframe := showTest_frame s f step
  have hfield (g : Nat) : (s.showTest f step).field g = s.field g := rfl
  have hcore (c : Nat) : (s.showTest f step).core c = s.core c := rfl
  generalize s.showTest f step = u at *
  obtain ⟨hdown, hfails, hpasses, hempty⟩ := endTest_spec u f step
  generalize u.endTest f step = t at *
  have htregs : t.regs = u.regs := by rw [hdown.frame]
  rw [hfield, show u.tick = s.tick by rw [hframe]] at hfails
  rw [hfield] at hpasses
  refine ⟨⟨by rw [hdown.frame, hframe], (get_congr htregs _).trans hnone, (get_congr htregs _).trans hruns, (get_congr htregs _).trans hstep,
    (get_congr htregs _).trans hlast, fun a _ hb => (reg_congr htregs a).trans (hregs a hb), hfails, hpasses,
    fun g hg => (hdown.others g hg).trans (hfield g), fun c hc => (hdown.cores c hc).trans (hcore c),
    fun c hc hh => hempty c hc (by rwa [show u.cores = s.cores by rw [hframe]]), ?_⟩, ?_, ?_, ?_⟩
  · rw [hdown.frame, hframe]
  · rw [hdown.frame, hframe]
  · rw [hdown.frame, hframe]
  · rw [hdown.frame, hframe]

theorem selfTestComplete_ended (s : State) (f : Nat) (hfld : s.start.testField = some f) (step : Nat) :
    ∃ t, exec (.selfTestComplete step) s = .next t ∧ TestEnded s t f step ∧ (s.start.testCmd = none → t.host = s.host ∧ t.out = s.out)
      ∧ ∀ seq op, s.start.testCmd = some (seq, .host, op) → t.answersTo .host = s.answersTo .host
        ++ [{ testReply seq op step with tick := s.tick.count }] := by
  obtain ⟨hend, hhost, hout, htick⟩ := testEnded s f step
  cases hc : s.start.testCmd with
  | none => exact ⟨_, congrArg Host.Outcome.next (testDone_untold s f step hfld hc), hend, fun _ => ⟨hhost, hout⟩, fun _ _ h => (nomatch h)⟩
  | some cmd =>
    obtain ⟨seq, src, op⟩ := cmd
    refine ⟨_, congrArg Host.Outcome.next (testDone_told s f step seq op src hfld hc), hend.reply (reply_frame _ src _), fun h => (nomatch h),
      fun seq' op' h => ?_⟩
    cases h
    rw [(answered_reply _ .host _ (.inl rfl)).given, answersTo_frame hout hhost, htick]
    rfl

theorem tested_eq (x : FieldSt) :
    x.tested = { x with task := 0, taskCmd := none, clock := if x.clock = .running then .stopping true else x.clock } := by
  simp [FieldSt.tested]

/-- Settles O19: the answers by the reply rules, a test by what it orders on its field and by what its end leaves. -/
theorem informationAndSelfTestsComplete : Obligations.InformationAndSelfTestsComplete := by
  unfold Obligations.InformationAndSelfTestsComplete
  refine ⟨fun s h => ⟨fun hs page => deviceInfo_judged s h hs page, fun hs offset n => snapshot_judged s h hs offset n,
    fun hc => congrArg Host.Outcome.next (snapshotDone_none s hc), fun x rest data hq hx hh hs => snapshotCopyComplete_written s h x rest data hq hx hh hs⟩,
    fun s h f => ⟨fun hs => selfTest_judged s h f hs, selfTestInterval_judged s, fun hn step => congrArg Host.Outcome.next (testDone_none s step hn),
      fun hf step => ?_⟩⟩
  obtain ⟨t, ht, hend, huntold, htold⟩ := selfTestComplete_ended s f hf step
  refine ⟨t, ht, hend.start, hend.none, hend.runs, hend.lastStep, hend.lastField, hend.regs, ⟨fun h => ?_, fun h => ?_⟩, hend.others, hend.cores,
    hend.emptied, hend.frame, huntold, htold⟩
  · exact (hend.fails h).trans (congrArg (fun x : FieldSt => x.foundLost s.tick.count 7) (tested_eq (s.field f)))
  · exact (hend.passes h).trans (tested_eq (s.field f))

end Sys2Proof.Machine
end

section
/-! SUPPORT. What the parts of a control slot leave alone: the tick, the boot state and the orders that wait. -/
namespace Sys2Proof.Machine
open Sys2Proof

/-- What decides whether a control slot runs, and the orders that wait for it. -/
structure SlotView where
  tick : TickSt
  boot : BootSt
  deferred : List Deferred
  bmcQueue : List BmcOrder
  fetchedPkts : List (Nat × CmdPacket)
  orders : List PeerOrder

def State.slotView (s : State) : SlotView :=
  ⟨s.tick, s.boot, s.host.deferred, s.host.bmcQueue, s.host.fetchedPkts, s.links.orders⟩

section
variable (s : State)

@[simp] theorem slotView_put (f : Fld) (v : Nat) : (s.put f v).slotView = s.slotView := rfl
@[simp] theorem slotView_mark (f : Fld) : (s.mark f).slotView = s.slotView := rfl
@[simp] theorem slotView_count (f : Fld) (n : Nat) : (s.count f n).slotView = s.slotView := rfl
@[simp] theorem slotView_bump (f : Fld) : (s.bump f).slotView = s.slotView := rfl
@[simp] theorem slotView_emit (o : Out) : (s.emit o).slotView = s.slotView := rfl
@[simp] theorem slotView_updField (f : Nat) (g : FieldSt → FieldSt) : (s.updField f g).slotView = s.slotView := rfl
@[simp] theorem slotView_updBank (f i : Nat) (g : Bank → Bank) : (s.updBank f i g).slotView = s.slotView := rfl
@[simp] theorem slotView_updRouter (u : Nat) (g : RouterSt → RouterSt) : (s.updRouter u g).slotView = s.slotView := rfl
@[simp] theorem slotView_updCore (c : Nat) (g : CoreSt → CoreSt) : (s.updCore c g).slotView = s.slotView := rfl
@[simp] theorem slotView_updPlc (p : Nat) (g : PlacementSt → PlacementSt) : (s.updPlc p g).slotView = s.slotView := rfl
@[simp] theorem slotView_updAsp (a : Nat) (g : AirspaceSt → AirspaceSt) : (s.updAsp a g).slotView = s.slotView := rfl
@[simp] theorem slotView_setAsp (a : Nat) (x : AirspaceSt) : (s.setAsp a x).slotView = s.slotView := rfl
@[simp] theorem slotView_updSess (n : Nat) (g : Desc → Desc) : (s.updSess n g).slotView = s.slotView := rfl
@[simp] theorem slotView_updPower (g : PowerMgr → PowerMgr) : (s.updPower g).slotView = s.slotView := rfl
@[simp] theorem slotView_updStart (g : StartSt → StartSt) : (s.updStart g).slotView = s.slotView := rfl
@[simp] theorem slotView_updMgmt (g : MgmtSt → MgmtSt) : (s.updMgmt g).slotView = s.slotView := rfl
@[simp] theorem slotView_updPort (n : Nat) (g : ObtikPort → ObtikPort) : (s.updPort n g).slotView = s.slotView := rfl
@[simp] theorem slotView_copyWindow (f : Nat) : (s.copyWindow f).slotView = s.slotView := rfl
@[simp] theorem slotView_sendGust (n : Nat) : (s.sendGust n).slotView = s.slotView := rfl
@[simp] theorem slotView_ackLater (m : AckMsg) : (s.ackLater m).slotView = s.slotView := rfl
@[simp] theorem slotView_push (n k m a v i : Nat) : (s.push n k m a v i).slotView = s.slotView := rfl

@[simp] theorem slotView_ite (c : Prop) [Decidable c] (s t : State) : (if c then s else t).slotView = if c then s.slotView else t.slotView :=
  apply_ite State.slotView c s t

end

/-- A run over a list keeps the view where its step does. -/
theorem slotView_foldl {α : Type} (l : List α) (g : State → α → State) (h : ∀ t x, (g t x).slotView = t.slotView) (s : State) :
    (l.foldl g s).slotView = s.slotView := foldl_keeps State.slotView l g h s

theorem slotView_forAll (l : List Nat) (g : State → Nat → State) (h : ∀ t x, (g t x).slotView = t.slotView) (s : State) :
    (s.forAll l g).slotView = s.slotView := forAll_keeps State.slotView l g h s

/-! ### Events and replies -/

@[simp] theorem slotView_writeEvent (s : State) (e : Event) : (s.writeEvent e).slotView = s.slotView := rfl

@[simp] theorem slotView_recordEvent (s : State) (e : Event) : (s.recordEvent e).slotView = s.slotView := by
  simp only [State.recordEvent]
  split
  · rfl
  · split
    · rfl
    · split <;> rfl

@[simp] theorem slotView_event (s : State) (e : Event) : (s.event e).slotView = s.slotView := by
  unfold State.event
  rw [slotView_ite, slotView_foldl _ _ fun t r => slotView_recordEvent t _]
  exact ite_self _

@[simp] theorem slotView_drainReplies (k : Nat) (s : State) : (State.drainReplies k s).slotView = s.slotView := by
  induction k generalizing s with
  | zero => rfl
  | succ k ih =>
    unfold State.drainReplies
    split
    · rfl
    · simp only [slotView_ite, ih, slotView_put]
      exact ite_self _

@[simp] theorem slotView_reply (s : State) (src : Src) (r : Reply) : (s.reply src r).slotView = s.slotView := by
  cases src with
  | host =>
    simp only [State.reply, State.replyAt, slotView_drainReplies]
    split <;> split <;> rfl
  | bmc => rfl
  | ceiling => rfl
  | peer => rfl

@[simp] theorem slotView_finalReply (s : State) (src : Src) (seq op : Nat) (st : Status) : (s.finalReply src seq op st).slotView = s.slotView :=
  slotView_reply s src _

theorem slotView_recordLate (s : State) : s.recordLate.slotView = s.slotView :=
  slotView_foldl _ _ (fun _ _ => slotView_foldl _ _ (fun _ _ => slotView_recordEvent _ _) _) _

/-! ### Sessions and what they hold -/

@[simp] theorem slotView_freeRegions (s : State) (n : Nat) : (s.freeRegions n).slotView = s.slotView := rfl
@[simp] theorem slotView_freePages (s : State) (a : Nat) (l : List Nat) : (s.freePages a l).slotView = s.slotView := rfl
@[simp] theorem slotView_pauseNoKv (s : State) : s.pauseNoKv.slotView = s.slotView := rfl
@[simp] theorem slotView_unbook (s : State) (n : Nat) : (s.unbook n).slotView = s.slotView := rfl
@[simp] theorem slotView_dropLane (s : State) (n : Nat) : (s.dropLane n).slotView = s.slotView := rfl

@[simp] theorem slotView_dropRegistration (s : State) (n : Nat) : (s.dropRegistration n).slotView = s.slotView := by
  simp only [State.dropRegistration]
  split <;> rfl

@[simp] theorem slotView_releaseKv (s : State) (n : Nat) : (s.releaseKv n).slotView = s.slotView := by simp [State.releaseKv]

@[simp] theorem slotView_dropPause (s : State) (n : Nat) : (s.dropPause n).slotView = s.slotView := by
  simp only [State.dropPause]
  split
  · rfl
  · simp

@[simp] theorem slotView_abandonBack (s : State) (n : Nat) : (s.abandonBack n).slotView = s.slotView := by simp [State.abandonBack]

@[simp] theorem slotView_failPause (s : State) (n : Nat) : (s.failPause n).slotView = s.slotView := by simp [State.failPause]

@[simp] theorem slotView_loseKv (s : State) (n : Nat) : (s.loseKv n).slotView = s.slotView := by
  simp only [State.loseKv]
  split <;> simp

@[simp] theorem slotView_dropPrefix (s : State) (a e : Nat) (lost : Option Nat) : (s.dropPrefix a e lost).slotView = s.slotView := by
  unfold State.dropPrefix
  simp only [slotView_ite]
  split
  · rfl
  · rw [slotView_forAll _ _ fun t n => by simp]
    cases lost with
    | none => rw [slotView_forAll _ _ fun t n => by simp]; simp
    | some f =>
      rw [slotView_event, slotView_forAll _ _ fun t n => by simp, slotView_forAll _ _ fun t n => by simp]
      simp

@[simp] theorem slotView_finishSession (s : State) (n r : Nat) : (s.finishSession n r).slotView = s.slotView := by simp [State.finishSession]

@[simp] theorem slotView_endSession (s : State) (n r : Nat) : (s.endSession n r).slotView = s.slotView := by
  have hpush : (s.pushEnd n r).slotView = s.slotView := by
    unfold State.pushEnd
    split <;> rfl
  simp [State.endSession, hpush]

/-! ### Losses and moves -/

@[simp] theorem slotView_banksDown (s : State) (f : Nat) : (s.banksDown f).slotView = s.slotView := by
  rw [banksDown_eq]
  exact slotView_forAll _ _ (fun t c => by simp) s

@[simp] theorem slotView_loseField (s : State) (f cause : Nat) : (s.loseField f cause).slotView = s.slotView := by
  unfold State.loseField
  simp only [slotView_ite]
  rw [slotView_forAll _ _ fun t c => by simp]
  simp

@[simp] theorem slotView_abandonTest (s : State) (f : Nat) : (s.abandonTest f).slotView = s.slotView := by
  unfold State.abandonTest
  simp only [slotView_ite]
  split
  · cases s.start.testCmd with
    | none => simp
    | some c => simp
  · rfl

@[simp] theorem slotView_failTask (s : State) (f : Nat) : (s.failTask f).slotView = s.slotView := by
  simp only [State.failTask]
  split <;> simp

@[simp] theorem slotView_askRebuild (s : State) (p f : Nat) : (s.askRebuild p f).slotView = s.slotView := by
  unfold State.askRebuild
  simp

@[simp] theorem slotView_beginWrite (s : State) (f i : Nat) : (s.beginWrite f i).slotView = s.slotView := by
  simp [State.beginWrite]

@[simp] theorem slotView_beginMove (s : State) (p f : Nat) (heat : Bool) : (s.beginMove p f heat).1.slotView = s.slotView := by
  simp only [State.beginMove]
  split
  · rfl
  · simp

@[simp] theorem slotView_markIncomplete (s : State) (p f : Nat) : (s.markIncomplete p f).slotView = s.slotView := rfl

@[simp] theorem slotView_suspend (s : State) (p r : Nat) : (s.suspend p r).slotView = s.slotView := by simp [State.suspend]

@[simp] theorem slotView_setReach (s : State) (d : Nat) (b : Bool) : (s.setReach d b).slotView = s.slotView :=
  slotView_forAll _ _ (fun t u => by simp [State.writeRouter]) _

@[simp] theorem slotView_loseCores (s : State) (l : List Nat) (f : Nat) : (s.loseCores l f).slotView = s.slotView := by
  unfold State.loseCores
  rw [slotView_forAll _ _ fun t p => by simp, slotView_forAll _ _ slotView_loseKv,
    slotView_forAll _ _ fun t a => slotView_forAll _ _ (fun t e => slotView_dropPrefix t a e _) t]

end Sys2Proof.Machine
end

section
/-! SUPPORT. What the Zenith's part of a control slot leaves alone: losses, clearances and retries, tuning. -/
namespace Sys2Proof.Machine
open Sys2Proof

/-! ### Losses taken up -/

theorem slotView_marked (s : State) (l : List Nat) (f : Nat) : (s.forAll l fun s p => s.markIncomplete p f).slotView = s.slotView :=
  slotView_forAll _ _ (fun t p => slotView_markIncomplete t p f) s

theorem slotView_asked (s : State) (l : List Move) (p : Nat) : (l.foldl (fun s m => s.askRebuild p m.field) s).slotView = s.slotView := by
  rw [slotView_foldl _ _ fun t (m : Move) => slotView_askRebuild t p m.field]

theorem slotView_handleLoss (s : State) (f : Nat) : (s.handleLoss f).slotView = s.slotView := by
  cases htw : (s.field f).twinOf with
  | none =>
    simp only [State.handleLoss, htw, slotView_event, slotView_ite, slotView_updField, ite_self]
    split
    · simp [apply_ite Prod.fst, slotView_marked]
    · split
      · simp [slotView_marked]
      · simp [apply_ite Prod.fst, slotView_marked]
    · simp [slotView_marked]
  | some g =>
    simp only [State.handleLoss, htw, slotView_event, slotView_ite, slotView_updField, ite_self]
    split
    · simp [apply_ite Prod.fst, slotView_marked, slotView_asked, slotView_forAll]
    · split
      · simp [slotView_marked, slotView_asked, slotView_forAll]
      · simp [apply_ite Prod.fst, slotView_marked, slotView_asked, slotView_forAll]
    · simp [slotView_marked, slotView_asked, slotView_forAll]

theorem slotView_handleLosses (s : State) : s.handleLosses.slotView = s.slotView := slotView_forAll _ _ slotView_handleLoss s

/-! ### Clearances -/

@[simp] theorem slotView_poke (s : State) (c addr : Nat) (bs : List Byte) : (s.poke c addr bs).slotView = s.slotView := by
  simp only [State.poke, slotView_ite, slotView_updCore]
  split
  · refine slotView_foldl _ _ (fun t i => ?_) s
    split <;> rfl
  · rfl

@[simp] theorem slotView_writeMaps (s : State) (n : Nat) : (s.writeMaps n).slotView = s.slotView := by
  refine slotView_forAll _ _ (fun t c => ?_) s
  split
  · exact slotView_poke _ _ _ _
  · rfl

@[simp] theorem slotView_takeRegions (s : State) (n c : Nat) (l : List Nat) : (s.takeRegions n c l).slotView = s.slotView := by
  simp [State.takeRegions]

@[simp] theorem slotView_writeSampling (s : State) (n : Nat) : (s.writeSampling n).slotView = s.slotView := by
  simp only [State.writeSampling]
  split
  · exact slotView_forAll _ _ (fun t c => slotView_poke _ _ _ _) s
  · rfl

theorem slotView_takePage {s t : State} {a u id : Nat} (h : s.takePage a u = some (id, t)) : t.slotView = s.slotView := by
  simp only [State.takePage] at h
  split at h
  · cases h; rfl
  · cases h

theorem slotView_takePages {l : List Nat} {s t : State} {a : Nat} {ids : List Nat} (h : s.takePages a l = some (ids, t)) : t.slotView = s.slotView := by
  induction l generalizing s ids with
  | nil => cases h; rfl
  | cons u us ih =>
    rw [State.takePages] at h
    split at h
    · cases h
    · next hp =>
      obtain ⟨r, hr, he⟩ := Option.map_eq_some_iff.1 h
      cases he
      exact (ih hr).trans (slotView_takePage hp)

theorem slotView_takeDest {s t : State} {c : Client} {n : Nat} (h : s.takeDest c = some (n, t)) : t.slotView = s.slotView := by
  simp only [State.takeDest] at h
  split at h
  · cases h; rfl
  · split at h
    · cases h
    · cases h; rfl

theorem slotView_register {s t : State} {n b : Nat} {q : Ask} {l : List Nat} {ad : Option (Nat × Nat)} (h : s.register n q b l ad = some t) :
    t.slotView = s.slotView := by
  simp only [State.register] at h
  split at h
  · next hp =>
    cases h
    rw [slotView_updSess, slotView_updAsp]
    exact slotView_takePages hp
  · cases h

@[simp] theorem slotView_placeContrail (s : State) (n : Nat) : (s.placeContrail n).slotView = s.slotView := rfl

@[simp] theorem slotView_grant (s : State) (q : Ask) (n p cls m w start : Nat) (adapter : Option (Nat × Nat))
    (lane : Nat × Nat × Nat × Nat × Nat × List Booking) (rebuild : Bool) :
    (s.grant q n p cls m w start adapter lane rebuild).1.slotView = s.slotView := by
  simp only [State.grant, slotView_bump, slotView_writeSampling, slotView_ite, slotView_placeContrail, slotView_updSess, slotView_updPlc, ite_self]
  split
  · split <;> rfl
  · rfl

/-- The states that a verdict carries. -/
def Verdict.Keeps (s : State) : Verdict → Prop
  | .refused _ => True
  | .waits t => t.slotView = s.slotView
  | .cleared t _ => t.slotView = s.slotView

theorem Verdict.Keeps.ite {s : State} {c : Prop} [Decidable c] {a b : Verdict} (ha : a.Keeps s) (hb : b.Keeps s) : (if c then a else b).Keeps s := by
  split <;> assumption

theorem clear_keeps (s : State) (q : Ask) : (s.clear q).Keeps s := by
  simp only [State.clear]
  split
  · trivial
  split
  · trivial
  refine .ite trivial (.ite trivial (.ite trivial ?_))
  split
  · trivial
  refine .ite trivial ?_
  split
  · trivial
  split
  · rfl
  refine .ite rfl (.ite (.ite rfl ?_) ?_)
  · split
    · rfl
    split
    · trivial
    · next hp =>
      change State.slotView _ = _
      rw [slotView_takeRegions, slotView_updSess, slotView_updAsp, slotView_takePages hp]
  split
  · exact .ite trivial rfl
  refine .ite rfl ?_
  split
  · rfl
  split
  · trivial
  next dest t hd =>
  have ht : t.slotView = s.slotView := by
    split at hd
    · exact slotView_takeDest hd
    · cases hd
      rfl
  change State.slotView _ = _
  simp only [slotView_ite, slotView_writeMaps, slotView_takeRegions, ite_self, slotView_updSess, slotView_grant]
  split
  · simp only [slotView_ite, slotView_updAsp, slotView_updSess, slotView_dropPause, ite_self, ht]
  split
  · next hr =>
    rw [slotView_register hr]
    simp only [slotView_ite, slotView_updAsp, slotView_updSess, slotView_dropPause, ite_self, ht]
  · simp only [slotView_ite, slotView_updAsp, slotView_updSess, slotView_dropPause, ite_self, ht]

/-! ### Requests -/

@[simp] theorem slotView_refuse (s : State) (c : Client) (st : Status) : (s.refuse c st).slotView = s.slotView := rfl

@[simp] theorem slotView_refuseRequest (s : State) (r : Request) (st : Status) : (s.refuseRequest r st).slotView = s.slotView := by
  simp only [State.refuseRequest, slotView_ite, slotView_refuse]
  split
  · split
    · exact slotView_endSession _ _ _
    · rfl
  · rfl

@[simp] theorem slotView_tryRequest (s : State) (r : Request) : (s.tryRequest r).2.slotView = s.slotView := by
  simp only [State.tryRequest]
  split
  · exact slotView_refuseRequest _ _ _
  · next q _ =>
    have hk := clear_keeps s q
    split
    · exact slotView_refuseRequest _ _ _
    · next hv => rwa [hv] at hk
    · next t ack hv =>
      rw [hv] at hk
      rw [slotView_ackLater, slotView_ite]
      split
      · split
        · exact hk
        · exact hk
      · exact hk

@[simp] theorem slotView_firstTry (s : State) (r : Request) : (s.firstTry r).slotView = s.slotView := by
  cases ha : s.askOf r with
  | error e => simp only [State.firstTry, ha, slotView_ite, slotView_tryRequest, slotView_refuse, slotView_ackLater, slotView_updAsp, ite_self]
  | ok q =>
    simp only [State.firstTry, ha, slotView_ite, apply_ite Prod.snd, slotView_tryRequest, slotView_refuse, slotView_ackLater, slotView_updAsp,
      ite_self]

@[simp] theorem slotView_retryOne (acc : State × List Nat) (r : Request) : (State.retryOne acc r).1.slotView = acc.1.slotView := by
  simp only [State.retryOne, apply_ite Prod.fst, slotView_ite, slotView_updAsp, slotView_tryRequest, ite_self]

theorem slotView_retries (s : State) : s.retries.slotView = s.slotView := by
  have hfold (l : List Request) (acc : State × List Nat) : (l.foldl State.retryOne acc).1.slotView = acc.1.slotView := by
    induction l generalizing acc with
    | nil => rfl
    | cons r l ih => exact (ih _).trans (slotView_retryOne acc r)
  exact hfold _ _

theorem slotView_requests (s : State) : s.requests.slotView = s.slotView := by
  simp only [State.requests]
  rw [slotView_retries, slotView_foldl _ _ slotView_firstTry, slotView_forAll _ _ fun t a => slotView_updAsp t a _]

/-! ### Absorption, repairs and tuning -/

theorem slotView_orderAbsorption (s : State) : s.orderAbsorption.slotView = s.slotView :=
  slotView_forAll _ _ (fun t f => by simp) s

theorem slotView_repairTiles (s : State) (f : Nat) : (s.repairTiles f).slotView = s.slotView := by
  cases hp : (s.field f).placement with
  | none => simp [State.repairTiles, hp]
  | some p =>
    simp only [State.repairTiles, hp, slotView_ite, slotView_loseField]
    rw [slotView_foldl _ _ fun t tile => ?_]
    · simp only [ite_self]
    · split
      · rfl
      · simp

@[simp] theorem slotView_freeTuneRegions (s : State) (p : Nat) : (s.freeTuneRegions p).slotView = s.slotView :=
  slotView_forAll _ _ (fun t a => slotView_updAsp t a _) s

@[simp] theorem slotView_tagSegs (s : State) (c tag : Nat) (l : List Nat) : (s.tagSegs c tag l).slotView = s.slotView := rfl

@[simp] theorem slotView_freeAreas (s : State) (p : Nat) (b : Bool) : (s.freeAreas p b).slotView = s.slotView := by
  simp only [State.freeAreas, slotView_updPlc]
  rw [slotView_foldl _ _ fun t q => slotView_tagSegs t _ _ _]

@[simp] theorem slotView_freeWork (s : State) (p : Nat) : (s.freeWork p).slotView = s.slotView := by
  simp only [State.freeWork, slotView_ite, slotView_updPlc]
  rw [slotView_foldl _ _ fun t q => slotView_tagSegs t _ _ _]
  exact ite_self _

@[simp] theorem slotView_gaugeTune (s : State) (p : Nat) : (s.gaugeTune p).slotView = s.slotView := rfl

theorem slotView_finishTunes (s : State) : s.finishTunes.slotView = s.slotView :=
  slotView_forAll _ _ (fun t p => by simp) s

@[simp] theorem slotView_failTune (s : State) (p : Nat) : (s.failTune p).slotView = s.slotView := by simp [State.failTune]

theorem slotView_assignCells (s : State) : s.assignCells.slotView = s.slotView := by
  refine slotView_forAll _ _ (fun t p => ?_) s
  simp only [slotView_ite, slotView_updPlc]
  split
  · rfl
  · split
    · rfl
    · split
      · simp
      · rfl

theorem slotView_orderGrant (s : State) (p : Nat) : (s.orderGrant p).slotView = s.slotView := by
  simp only [State.orderGrant]
  split <;> simp

/-! ### The stretch demand -/

theorem slotView_pump (k : Nat) (s : State) (n vc : Nat) : (State.pump k s n vc).slotView = s.slotView := by
  induction k generalizing s with
  | zero => rfl
  | succ k ih =>
    simp only [State.pump]
    split
    · rfl
    · split
      · exact ih _
      · rfl

theorem slotView_sendDemand (s : State) : s.sendDemand.slotView = s.slotView := by
  have hlink (h : LinkHdr) (l : List Flit) : (s.sendLink h l).1.slotView = s.slotView := by
    simp only [State.sendLink]
    split
    · rfl
    · exact slotView_pump _ _ _ _
  simp only [State.sendDemand, slotView_ite]
  split
  · rfl
  · exact hlink _ _

end Sys2Proof.Machine
end

section
/-! SUPPORT. What packets held since a guard leave alone as they enter their routers (R38, R280, R281). -/
namespace Sys2Proof.Machine
open Sys2Proof

@[simp] theorem slotView_forward (s : State) (u port : Nat) (p : Packet) : (s.forward u port p).slotView = s.slotView := rfl

@[simp] theorem slotView_opLinkDown (s : State) (u port : Nat) : (opLinkDown u port s).slotView = s.slotView := by
  simp only [opLinkDown, slotView_ite, slotView_event, slotView_put, slotView_updRouter, ite_self]

@[simp] theorem slotView_watchLink (s : State) (u port bad : Nat) : (s.watchLink u port bad).slotView = s.slotView := by
  simp only [State.watchLink, slotView_ite, slotView_updRouter]
  split
  · rfl
  · split
    · rfl
    · split
      · rw [slotView_opLinkDown, slotView_updRouter]
      · simp only [slotView_ite, slotView_opLinkDown, slotView_updRouter, ite_self]

@[simp] theorem slotView_statusReply (s : State) (u : Nat) (r : Route) (st : Nat) : (s.statusReply u r st).slotView = s.slotView := by
  simp only [State.statusReply]
  split <;> rfl

@[simp] theorem slotView_mergeRead (s : State) (u now : Nat) (r : Route) (p : Packet) : (s.mergeRead u now r p).2.slotView = s.slotView := by
  simp only [State.mergeRead]
  split
  · rfl
  · split
    · split <;> rfl
    · split <;> rfl

@[simp] theorem slotView_closeMerges (s : State) (u dest : Nat) : (s.closeMerges u dest).slotView = s.slotView := rfl

@[simp] theorem slotView_splitReply (s : State) (u : Nat) (r : Route) (p : Packet) : (s.splitReply u r p).1.slotView = s.slotView := by
  simp only [State.splitReply]
  split
  · rfl
  · rw [slotView_foldl _ _ fun t q => ?_]
    · rfl
    · split
      · rfl
      · split <;> rfl

@[simp] theorem slotView_unicast (s : State) (u port now : Nat) (r : Route) (p : Packet) : (s.unicast u port now r p).slotView = s.slotView := by
  simp only [State.unicast]
  split
  · rfl
  · simp only [slotView_ite, slotView_statusReply, slotView_bump, slotView_forward, slotView_mergeRead, slotView_splitReply, slotView_closeMerges,
      ite_self]

@[simp] theorem slotView_multicast (s : State) (u port : Nat) (r : Route) (p : Packet) : (s.multicast u port r p).slotView = s.slotView := by
  have hports (l : List Nat) (t : State) : (l.foldl (fun s n => if (s.router u).linksDown.contains n then s.bump (Reg.Router.UNREACHABLE u)
      else s.forward u n p) t).slotView = t.slotView :=
    slotView_foldl _ _ (fun t n => by split <;> rfl) t
  simp only [State.multicast, slotView_ite, slotView_bump]
  rw [slotView_foldl (List.filter _ (List.range 32)) _ fun t n => slotView_emit t _, hports]
  simp only [ite_self]

@[simp] theorem slotView_enterRouter (s : State) (u port now : Nat) (p : Packet) : (s.enterRouter u port now p).slotView = s.slotView := by
  simp only [State.enterRouter, slotView_ite, slotView_bump, slotView_multicast, slotView_unicast, slotView_statusReply, slotView_watchLink,
    slotView_count, ite_self]

theorem slotView_afterGuard (s : State) : s.afterGuard.slotView = s.slotView := by
  refine slotView_forAll _ _ (fun t u => ?_) s
  exact (slotView_foldl _ _ (fun t e => slotView_enterRouter t _ _ _ _) _).trans (slotView_updRouter t u _)

/-- With nothing held nothing enters. -/
theorem afterGuard_none (s : State) (h : ∀ f, (s.router f).held = []) : s.afterGuard = s := by
  have hl : allFields.filter (fun u => !(s.router u).held.isEmpty) = [] := List.filter_eq_nil_iff.2 fun u _ => by simp [h u]
  unfold State.afterGuard
  rw [hl]
  rfl

end Sys2Proof.Machine
end

section
/-! SUPPORT. The forecasts, the orders of a quiet slot, the level and the end of a control slot (R28, R54, R329, R388, R397). -/
namespace Sys2Proof.Machine
open Sys2Proof

/-! ### The stewards' forecasts -/

/-- `t` is `s` after forecast words for a list of fields. -/
structure Forecast (s t : State) (l : List Nat) : Prop where
  frame : t = { s with power := { s.power with forecastLog := t.power.forecastLog }, out := t.out }
  out : s.out <+: t.out
  sent : ∀ f ∈ l, ∃ w, Out.forecast f w ∈ t.out

theorem forAll_forecast (l : List Nat) (g : State → Nat → State)
    (h : ∀ t f, ∃ log w, g t f = (t.updPower fun p => { p with forecastLog := log }).emit (.forecast f w)) (s : State) :
    Forecast s (s.forAll l g) l := by
  induction l generalizing s with
  | nil => exact ⟨rfl, List.prefix_rfl, fun f hf => nomatch hf⟩
  | cons f l ih =>
    obtain ⟨log, w, he⟩ := h s f
    have hrest : Forecast (g s f) (s.forAll (f :: l) g) l := ih (g s f)
    generalize s.forAll (f :: l) g = t at hrest ⊢
    rw [he] at hrest
    have hout : s.out <+: t.out := (List.prefix_append _ _).trans hrest.out
    refine ⟨by rw [hrest.frame]; rfl, hout, fun x hx => ?_⟩
    rcases List.mem_cons.1 hx with rfl | hx
    · exact ⟨w, hrest.out.subset (List.mem_append_right _ List.mem_cons_self)⟩
    · exact hrest.sent x hx

/-- Every field whose VLOG is on sends its forecast. -/
theorem sendForecasts_sent (s : State) :
    Forecast s s.sendForecasts (computeFields.filter fun f => (s.field f).on % 2 = 1 || (s.field f).clock == .waking) := by
  have h : Forecast (s.updPower fun p => { p with forecastLog := p.forecastLog.filter fun e => s.tick.count < e.1 + 1000 }) s.sendForecasts
      (computeFields.filter fun f => (s.field f).on % 2 = 1 || (s.field f).clock == .waking) :=
    forAll_forecast _ _ (fun t f => ⟨_, _, rfl⟩) _
  generalize s.sendForecasts = t at h ⊢
  exact ⟨by rw [h.frame]; rfl, h.out, h.sent⟩

/-! ### Orders -/

theorem takeTimed_nil (s : State) (src : Src) (h : s.host.deferred = []) : s.takeTimed src = ([], s) := by
  have hf (q : Deferred → Bool) : s.host.deferred.filter q = s.host.deferred := by rw [h]; rfl
  refine Prod.ext ?_ ?_
  · exact congrArg (List.map SlotOrder.timed) ((hf _).trans h)
  · simp only [State.takeTimed, State.updHost, hf]

theorem takeBmc_nil (s : State) (h : s.host.bmcQueue = []) : s.takeBmc = ([], s) := by
  refine Prod.ext ?_ ?_
  · simp only [State.takeBmc, h, List.map_nil]
  · simp only [State.takeBmc, State.updHost, h.symm]

theorem takeHost_nil (s : State) (h : s.host.fetchedPkts = []) : s.takeHost = ([], s) := by
  have hf (q : Nat × CmdPacket → Bool) : s.host.fetchedPkts.filter q = s.host.fetchedPkts := by rw [h]; rfl
  refine Prod.ext ?_ ?_
  · exact congrArg (List.map fun e => SlotOrder.packet e.2) ((hf _).trans h)
  · simp only [State.takeHost, State.updHost, hf]

theorem applyPeers_nil (s : State) (b : Bool) (h : s.links.orders = []) : s.applyPeers b = s.updLinks fun l => { l with hostRoute := false } := by
  have hl : (s.updLinks fun l => { l with orders := [], hostRoute := false }) = s.updLinks fun l => { l with hostRoute := false } := by
    simp only [State.updLinks, h.symm]
  simp only [State.applyPeers, h, List.foldl_nil]
  exact hl

/-- Nothing waits to be ordered. -/
structure State.Quiet (s : State) : Prop where
  deferred : s.host.deferred = []
  bmc : s.host.bmcQueue = []
  fetched : s.host.fetchedPkts = []
  peers : s.links.orders = []

theorem State.Quiet.of_view {s t : State} (h : s.Quiet) (e : t.slotView = s.slotView) : t.Quiet :=
  ⟨(congrArg SlotView.deferred e).trans h.deferred, (congrArg SlotView.bmcQueue e).trans h.bmc, (congrArg SlotView.fetchedPkts e).trans h.fetched,
    (congrArg SlotView.orders e).trans h.peers⟩

theorem orders_quiet (s : State) (h : s.Quiet) : s.orders = s.updLinks fun l => { l with hostRoute := false } := by
  simp only [State.orders, takeTimed_nil s _ h.deferred, takeBmc_nil s h.bmc, takeHost_nil s h.fetched, List.append_nil, State.applyOrders]
  exact applyPeers_nil s _ h.peers

/-! ### Gauges and health -/

theorem slotView_of_sansRegs {s t : State} (h : t.sansRegs = s.sansRegs) : t.slotView = s.slotView :=
  (congrArg State.slotView h : t.sansRegs.slotView = s.sansRegs.slotView)

theorem gaugeSessions_sansRegs (s : State) : s.gaugeSessions.sansRegs = s.sansRegs :=
  forAll_sansRegs _ _ (fun t a => by simp only [State.sansRegs_put]) s

theorem gaugeLanes_sansRegs (s : State) : s.gaugeLanes.sansRegs = s.sansRegs :=
  forAll_sansRegs _ _ (fun t p => by simp only [State.sansRegs_put]) s

theorem gaugeKv_sansRegs (s : State) : s.gaugeKv.sansRegs = s.sansRegs := by
  refine forAll_sansRegs _ _ (fun t f => ?_) s
  split
  · rfl
  · exact forAll_sansRegs _ _ (fun u a => by simp only [State.sansRegs_put]) t

theorem gaugeCloud_sansRegs (s : State) : s.gaugeCloud.sansRegs = s.sansRegs := by
  simp only [State.gaugeCloud]
  rw [forAll_sansRegs _ _ fun t n => by simp only [State.sansRegs_put], State.sansRegs_put, forAll_sansRegs _ _ fun t a => by simp only [State.sansRegs_put]]

theorem gaugeKeys_sansRegs (s : State) : s.gaugeKeys.sansRegs = s.sansRegs := by
  refine forAll_sansRegs _ _ (fun t a => (forAll_sansRegs _ _ (fun _ _ => State.sansRegs_put ..) _).trans ?_) s
  simp only [State.sansRegs_put]

/-- The gauges that a control slot refreshes. -/
def State.slotGauges (s : State) : State := s.gaugeSessions.gaugeLanes.gaugeKv.gaugeCloud.gaugeKeys

theorem slotGauges_sansRegs (s : State) : s.slotGauges.sansRegs = s.sansRegs := by
  simp only [State.slotGauges, gaugeKeys_sansRegs, gaugeCloud_sansRegs, gaugeKv_sansRegs, gaugeLanes_sansRegs, gaugeSessions_sansRegs]

theorem slotView_slotGauges (s : State) : s.slotGauges.slotView = s.slotView := slotView_of_sansRegs (slotGauges_sansRegs s)

theorem slotView_evalHealth (s : State) : s.evalHealth.slotView = s.slotView := by
  have hplat (t : State) (a b c : Nat) : (t.platformEvent a b c).slotView = t.slotView := by
    simp only [State.platformEvent]
    split <;> rfl
  simp only [State.evalHealth, slotView_ite, slotView_event, hplat, slotView_bump, slotView_put, ite_self]
  rfl

theorem slotView_endSlot (s : State) : s.endSlot.slotView = s.slotView := by
  have he : s.endSlot.slotView = s.evalHealth.slotGauges.slotView := by
    simp only [State.endSlot, slotView_ite, slotView_emit, slotView_put, ite_self, State.slotGauges]
  rw [he, slotView_slotGauges, slotView_evalHealth]

/-- A slot ends with the read of the header, where the ring is open. -/
theorem endSlot_header (s : State) (h : s.endSlot.hostOpen = true) : Out.readHeader ∈ s.endSlot.out := by
  have hread (t : State) (ht : (if t.hostOpen then t.emit .readHeader else t).hostOpen = true) :
      Out.readHeader ∈ (if t.hostOpen then t.emit .readHeader else t).out := by
    by_cases ho : t.hostOpen = true
    · rw [if_pos ho]
      exact List.mem_append_right _ List.mem_cons_self
    · rw [if_neg ho] at ht
      exact absurd ht ho
  simp only [State.endSlot] at h ⊢
  exact hread _ h

/-! ### The level -/

/-- The running tick, and whether its control slot was served. -/
def State.slotTick (s : State) : Nat × Bool × Bool := (s.tick.count, s.tick.running, s.tick.slotDone)

theorem slotTick_of_view {s t : State} (h : t.slotView = s.slotView) : t.slotTick = s.slotTick :=
  congrArg (fun v : SlotView => (v.tick.count, v.tick.running, v.tick.slotDone)) h

theorem slotTick_setVane (s : State) (n v : Nat) :
    ((s.updTick fun t => { t with vaneDemand := n }).put Reg.Tick.VANE_HELD v).slotTick = s.slotTick := rfl

theorem slotTick_vaneDemand (s : State) : s.vaneDemand.slotTick = s.slotTick := by
  simp only [State.vaneDemand]
  split
  · rfl
  · split
    · rw [slotTick_setVane]
      exact slotTick_of_view ((slotView_loseField _ _ _).trans (slotView_updField _ _ _))
    · rfl

theorem slotTick_recap (s : State) : s.recap.slotTick = s.slotTick := rfl

theorem slotTick_setZenith (s : State) (n : Nat) (b : Bool) : (s.setZenith n b).slotTick = s.slotTick := rfl

theorem slotTick_stepLevel (s : State) (n : Nat) : (s.stepLevel n).slotTick = s.slotTick := by
  simp only [State.stepLevel, apply_ite State.slotTick, slotTick_setZenith]
  rw [slotTick_of_view (slotView_forAll _ _ (fun t f => (slotView_sendGust _ _).trans (slotView_updField t f _)) s)]
  simp only [ite_self]

theorem slotView_forcing (s : State) (g : State → State) : (s.forcing g).slotView = (g s).slotView := by
  simp only [State.forcing, slotView_ite, slotView_event, slotView_mark, slotView_put, ite_self]

theorem slotTick_orderLevel (s : State) : s.orderLevel.slotTick = s.slotTick :=
  (slotTick_of_view (slotView_forcing s _)).trans (slotTick_stepLevel s _)

end Sys2Proof.Machine
end

section
/-! PROOFS. O12, control slots and idle control slots (R27, R28, R38, R388). -/
namespace Sys2Proof.Machine
open Sys2Proof

/-! ### The control slot of a running tick -/

theorem controlSlot_running (s : State) (hr : s.tick.running = true) : opControlSlot s =
    if !s.afterGuard.zenithServing then s.afterGuard.sendForecasts
    else if s.afterGuard.tick.slotDone then s.afterGuard
    else s.afterGuard.serveSlot.sendForecasts := by
  unfold opControlSlot
  rw [if_neg (by simp [hr])]

theorem afterGuard_serving (s : State) : s.afterGuard.zenithServing = s.zenithServing :=
  congrArg (fun v : SlotView => v.boot.zenithUp && !v.boot.restartWindow) (slotView_afterGuard s)

theorem afterGuard_tick (s : State) : s.afterGuard.tick = s.tick := congrArg SlotView.tick (slotView_afterGuard s)

/-- Every field whose VLOG is on has sent its forecast. -/
def State.Forecasts (t : State) : Prop := ∀ f ∈ computeFields, (t.field f).on % 2 = 1 → ∃ w, Out.forecast f w ∈ t.out

theorem sendForecasts_all (s : State) : s.sendForecasts.Forecasts := by
  have h := sendForecasts_sent s
  generalize s.sendForecasts = t at h ⊢
  intro f hf hon
  rw [field_congr (show t.fields = s.fields by rw [h.frame]) f] at hon
  exact h.sent f (List.mem_filter.2 ⟨hf, by simp [hon]⟩)

/-- A slot with nothing waiting: what it takes up of losses and orders leaves the orders as they were. -/
theorem serveSlot_quiet (s : State) (h : s.Quiet) : s.serveSlot.slotTick = (s.tick.count, s.tick.running, true) := by
  simp only [State.serveSlot]
  have h1 : (s.updTick fun t => { t with slotDone := true }).recordLate.slotView = (s.updTick fun t => { t with slotDone := true }).slotView :=
    slotView_recordLate _
  have hq : (s.updTick fun t => { t with slotDone := true }).Quiet := ⟨h.deferred, h.bmc, h.fetched, h.peers⟩
  have ht : (s.updTick fun t => { t with slotDone := true }).slotTick = (s.tick.count, s.tick.running, true) := rfl
  generalize s.updTick (fun t => { t with slotDone := true }) = a at h1 hq ht ⊢
  generalize a.recordLate = b at h1 ⊢
  have h2 : (if computeFields.any fun f => (b.field f).lossPending then b.handleLosses else b).slotView = a.slotView := by
    rw [slotView_ite, slotView_handleLosses, ite_self, h1]
  generalize (if computeFields.any fun f => (b.field f).lossPending then b.handleLosses else b) = c at h2 ⊢
  have h3 : c.orders.requests.slotView = a.slotView := by
    rw [slotView_requests, orders_quiet c (hq.of_view h2), ← h2]
    rfl
  generalize c.orders.requests = d at h3 ⊢
  have h4 : ((d.orderAbsorption.forAll computeFields State.repairTiles).finishTunes).slotView = a.slotView := by
    rw [slotView_finishTunes, slotView_forAll _ _ slotView_repairTiles, slotView_orderAbsorption, h3]
  generalize (d.orderAbsorption.forAll computeFields State.repairTiles).finishTunes = e at h4 ⊢
  have h5 : e.vaneDemand.recap.slotTick = a.slotTick := by rw [slotTick_recap, slotTick_vaneDemand, slotTick_of_view h4]
  generalize e.vaneDemand.recap = g at h5 ⊢
  rw [slotTick_of_view (slotView_endSlot _), slotTick_of_view (slotView_assignCells _), slotTick_of_view (slotView_sendDemand _), slotTick_orderLevel,
    slotTick_of_view (slotView_forAll _ _ slotView_orderGrant g), h5, ht]

theorem serveSlot_header (s : State) (h : s.serveSlot.hostOpen = true) : Out.readHeader ∈ s.serveSlot.out := by
  simp only [State.serveSlot] at h ⊢
  exact endSlot_header _ h

theorem controlSlot_unserved (s : State) (hr : s.tick.running = true) (hz : s.zenithServing = false) : ∃ t, exec .controlSlot s = .next t
    ∧ t = { s.afterGuard with power := { s.afterGuard.power with forecastLog := t.power.forecastLog }, out := t.out }
    ∧ s.afterGuard.out <+: t.out ∧ t.Forecasts := by
  refine ⟨_, congrArg Host.Outcome.next ((controlSlot_running s hr).trans (if_pos (by rw [afterGuard_serving, hz]; rfl))), ?_, ?_, sendForecasts_all _⟩
  · exact (sendForecasts_sent _).frame
  · exact (sendForecasts_sent _).out

theorem controlSlot_done (s : State) (hr : s.tick.running = true) (hz : s.zenithServing = true) (hd : s.tick.slotDone = true) :
    exec .controlSlot s = .next s.afterGuard := by
  refine congrArg Host.Outcome.next ((controlSlot_running s hr).trans ?_)
  rw [if_neg (by rw [afterGuard_serving, hz]; decide), if_pos (by rw [afterGuard_tick, hd])]

theorem controlSlot_served (s : State) (hr : s.tick.running = true) (hz : s.zenithServing = true) (hd : s.tick.slotDone = false) (hq : s.Quiet) :
    ∃ t, exec .controlSlot s = .next t ∧ t.tick.slotDone = true ∧ t.tick.count = s.tick.count ∧ t.tick.running = true ∧ t.Forecasts
      ∧ (t.hostOpen = true → Out.readHeader ∈ t.out) := by
  have he : opControlSlot s = s.afterGuard.serveSlot.sendForecasts := by
    rw [controlSlot_running s hr, if_neg (by rw [afterGuard_serving, hz]; decide), if_neg (by rw [afterGuard_tick, hd]; decide)]
  refine ⟨_, congrArg Host.Outcome.next he, ?_⟩
  have ht := serveSlot_quiet s.afterGuard (hq.of_view (slotView_afterGuard s))
  rw [afterGuard_tick, hr] at ht
  have hh := serveSlot_header s.afterGuard
  generalize s.afterGuard.serveSlot = v at ht hh ⊢
  have hall := sendForecasts_all v
  have hf := sendForecasts_sent v
  generalize v.sendForecasts = t at hall hf ⊢
  have htick : t.tick = v.tick := by rw [hf.frame]
  have hopen : t.hostOpen = v.hostOpen := by rw [hf.frame]; rfl
  obtain ⟨hcount, hrun, hdone⟩ : v.tick.count = s.tick.count ∧ v.tick.running = true ∧ v.tick.slotDone = true := by
    simpa only [State.slotTick, Prod.mk.injEq] using ht
  exact ⟨htick ▸ hdone, htick ▸ hcount, htick ▸ hrun, hall, fun ho => hf.out.subset (hh (hopen ▸ ho))⟩

/-! ### The idle control slot -/

theorem bootIfDue_done (s : State) (h : s.boot.romDone = true ∨ s.start.power = .off ∨ s.start.perstHeld = true) : s.bootIfDue = s := by
  unfold State.bootIfDue
  exact if_pos (by rcases h with h | h | h <;> simp [h])

theorem idleSlot_unserved (s : State) (h : s.boot.romDone = true ∨ s.start.power = .off ∨ s.start.perstHeld = true) (hz : s.zenithServing = false) :
    opIdleSlot s = s := by
  simp only [opIdleSlot, bootIfDue_done s h, hz, Bool.not_false, if_true, ite_self]

/-- With no event of an unserved time there is nothing to record. -/
theorem recordLate_none (s : State) (h : s.host.late = []) : s.recordLate = s := by
  have hl : (s.updHost fun x => { x with late := [] }) = s := by simp only [State.updHost, h.symm]
  simp only [State.recordLate, h, List.foldl_nil]
  exact hl

/-- `t` is `s` after health, registers and what is signalled were brought up to date. -/
structure Updated (s t : State) : Prop where
  frame : t = { s with health := t.health, regs := t.regs, mgmt := t.mgmt, out := t.out, host := t.host }
  out : s.out <+: t.out
  answers : ∀ o : Src, t.answersTo o = s.answersTo o
  open_ : t.hostOpen = s.hostOpen

theorem Updated.refl (s : State) : Updated s s := ⟨rfl, List.prefix_rfl, fun _ => rfl, rfl⟩

theorem Updated.trans {s t u : State} (h : Updated s t) (k : Updated t u) : Updated s u :=
  ⟨by rw [k.frame, h.frame], h.out.trans k.out, fun o => (k.answers o).trans (h.answers o), k.open_.trans h.open_⟩

theorem Updated.of_event {s t : State} (h : EventFrame s t) : Updated s t :=
  ⟨by rw [h.frame], h.out, h.answers, by rw [h.frame]; rfl⟩

theorem Updated.of_sansRegs {s t : State} (h : t.sansRegs = s.sansRegs) : Updated s t := by
  have he := eq_of_sansRegs h
  exact ⟨by rw [he], by rw [he], fun o => answersTo_frame (by rw [he]) (by rw [he]) o, by rw [he]; rfl⟩

theorem Updated.put (s : State) (f : Fld) (v : Nat) : Updated s (s.put f v) := ⟨rfl, List.prefix_rfl, fun _ => rfl, rfl⟩

theorem Updated.mgmt (s : State) (g : MgmtSt → MgmtSt) : Updated s (s.updMgmt g) := ⟨rfl, List.prefix_rfl, fun o => by cases o <;> rfl, rfl⟩

theorem Updated.signals (s : State) (a b c : Bool) : Updated s (s.updHost fun h => { h with sigReply := a, sigEvent := b, sigUrgent := c }) :=
  ⟨rfl, List.prefix_rfl, fun o => by cases o <;> rfl, rfl⟩

/-- What leaves the module beside replies adds no answer. -/
theorem Updated.emit (s : State) (o : Out) (h : repliesIn [o] = []) (hb : bmcRepliesIn [o] = []) : Updated s (s.emit o) := by
  refine ⟨rfl, List.prefix_append _ _, fun src => ?_, rfl⟩
  cases src with
  | host => simp only [State.answersTo, State.emit_out, State.emit_host, repliesIn_append, h, List.append_nil]
  | bmc => simp only [State.answersTo, State.emit_out, bmcRepliesIn_append, hb, List.append_nil]
  | ceiling => rfl
  | peer => rfl

theorem platformEvent_updated (s : State) (a b c : Nat) : Updated s (s.platformEvent a b c) := by
  simp only [State.platformEvent]
  split
  · exact Updated.refl s
  · exact (Updated.mgmt s _).trans (Updated.emit _ _ rfl rfl)

/-- The health state with the registers that show it. -/
def State.showHealth (s : State) : State :=
  let c := s.healthCause
  let new := healthState c
  let s := { s with health := ⟨new, BitVec.ofNat 32 c⟩ }
  let s := (s.put Reg.Health.STATE new).put Reg.Health.HEALTH_CAUSE c
  let cnt (r : Role) : Nat := (computeFields.filter fun f => (s.field f).role == r).length
  let s := (s.put Reg.Health.CLEARINGS (cnt .clearing)).put Reg.Health.FIELDS_LOST (cnt .lost)
  let s := s.put Reg.Health.CORES_FAILED (((computeFields.filter fun f => (s.field f).role == .active).map fun f => (s.field f).failed.length).foldl (· + ·) 0)
  s.put Reg.Health.TILES_UNPATCHED ((computeFields.map fun f => (s.field f).unpatched.length).foldl (· + ·) 0)

theorem showHealth_updated (s : State) : Updated s s.showHealth := by
  refine .trans ?_ (Updated.of_sansRegs (t := s.showHealth) (s := { s with health := ⟨healthState s.healthCause, BitVec.ofNat 32 s.healthCause⟩ }) ?_)
  · exact ⟨rfl, List.prefix_rfl, fun _ => rfl, rfl⟩
  · simp only [State.showHealth, State.sansRegs_put]

theorem evalHealth_updated (s : State) : Updated s s.evalHealth := by
  have he : s.evalHealth = if s.health.st = healthState s.healthCause then s.showHealth
      else ((s.showHealth.bump Reg.Health.HEALTH_CHANGES).platformEvent 32 (healthState s.healthCause) s.healthCause).event
        { code := 0x0101, detail := [(40, s.health.st), (41, healthState s.healthCause)] ++ le4 44 s.healthCause } := rfl
  rw [he]
  split
  · exact showHealth_updated s
  · exact (((showHealth_updated s).trans (Updated.put _ _ _)).trans (platformEvent_updated _ _ _ _)).trans (Updated.of_event (event_frame _ _))

/-- The header read that ends a slot. -/
def State.readHeader (s : State) : State := if s.hostOpen then s.emit .readHeader else s

theorem readHeader_updated (s : State) : Updated s s.readHeader := by
  unfold State.readHeader
  split
  · exact Updated.emit _ _ rfl rfl
  · exact Updated.refl s

theorem endSlot_eq (s : State) : s.endSlot =
    (s.evalHealth.slotGauges.put Reg.Start.CARRY_PENDING
      (bit ((List.range 8).any fun a => (s.evalHealth.slotGauges.asp a).waiting.any (·.carried)) 0)).readHeader := rfl

theorem endSlot_updated (s : State) : Updated s s.endSlot := by
  rw [endSlot_eq]
  exact (((evalHealth_updated s).trans (Updated.of_sansRegs (slotGauges_sansRegs _))).trans (Updated.put _ _ _)).trans (readHeader_updated _)

theorem signal_updated (s : State) : Updated s s.signal := by
  have hvector (t : State) (v : Nat) : Updated t (t.sendVector v) := by
    unfold State.sendVector
    split
    · exact Updated.put _ _ _
    · exact (Updated.put _ _ _).trans (Updated.emit _ _ rfl rfl)
  simp only [State.signal]
  split
  · exact Updated.refl s
  · refine (Updated.signals s false false false).trans (foldl_related Updated.refl Updated.trans _ _ (fun t e => ?_) _)
    split
    · exact hvector t e.1
    · exact Updated.refl t

theorem inputTerm_getD (p : PowerMgr) (d : Nat) :
    p.inputTerm.getD d = if p.vins = [] then d else 95 * 420 * (p.vins.foldl (· + ·) 0 / p.vins.length) / 100000 := by
  by_cases h : p.vins = [] <;> simp [PowerMgr.inputTerm, h]

theorem idleSlot_eq (s : State) (hr : s.tick.running = false) (hrom : s.boot.romDone = true) (hz : s.zenithServing = true) (hq : s.Quiet)
    (hlate : s.host.late = []) (hloss : s.start.serving = false ∨ ∀ f ∈ computeFields, (s.field f).lossPending = false) :
    opIdleSlot s = ((s.updLinks fun l => { l with hostRoute := false }).recap.endSlot).signal := by
  have hno : (s.start.serving && computeFields.any fun f => (s.field f).lossPending) = false := by
    rw [Bool.and_eq_false_iff, List.any_eq_false]
    exact hloss.imp_right fun h f hf => by simp [h f hf]
  simp only [opIdleSlot, hr, bootIfDue_done s (.inl hrom), hz, recordLate_none s hlate, hno, orders_quiet s hq, Bool.not_true, if_false,
    Bool.false_eq_true]

theorem idleSlot_served (s : State) (hr : s.tick.running = false) (hrom : s.boot.romDone = true) (hz : s.zenithServing = true) (hq : s.Quiet)
    (hlate : s.host.late = []) (hloss : s.start.serving = false ∨ ∀ f ∈ computeFields, (s.field f).lossPending = false) :
    ∃ t, exec .idleControlSlot s = .next t
      ∧ t.power.capEff = min s.power.hostCap (min (s.power.bmcCap.getD s.power.hostCap) (min s.thermal.cth
        (if s.power.vins = [] then s.power.hostCap else 95 * 420 * (s.power.vins.foldl (· + ·) 0 / s.power.vins.length) / 100000)))
      ∧ (s.hostOpen = true → Out.readHeader ∈ t.out)
      ∧ t = { s with
          power := { s.power with capEff := t.power.capEff }, links := { s.links with hostRoute := false }
          health := t.health, regs := t.regs, mgmt := t.mgmt, out := t.out, host := t.host }
      ∧ t.answersTo .host = s.answersTo .host := by
  refine ⟨_, congrArg Host.Outcome.next (idleSlot_eq s hr hrom hz hq hlate hloss), ?_⟩
  have hrec : (s.updLinks fun l => { l with hostRoute := false }).recap = { s with
      power := { s.power with capEff := s.capOf.1 }, links := { s.links with hostRoute := false }
      regs := (s.updLinks fun l => { l with hostRoute := false }).recap.regs } := rfl
  have hopen : (s.updLinks fun l => { l with hostRoute := false }).recap.hostOpen = s.hostOpen := rfl
  have hanswers : (s.updLinks fun l => { l with hostRoute := false }).recap.answersTo .host = s.answersTo .host := rfl
  generalize (s.updLinks fun l => { l with hostRoute := false }).recap = r at hrec hopen hanswers ⊢
  have hend := endSlot_updated r
  have hread := endSlot_header r
  generalize r.endSlot = e at hend hread ⊢
  have hsig := signal_updated e
  have hall := hend.trans hsig
  generalize e.signal = t at hsig hall ⊢
  have hcap : t.power.capEff = s.capOf.1 := by rw [hall.frame, hrec]
  refine ⟨?_, fun ho => hsig.out.subset (hread (hend.open_.trans (hopen.trans ho))), ?_, (hall.answers .host).trans hanswers⟩
  · rw [hcap, capOf_cap, inputTerm_getD]
  · rw [hcap, hall.frame, hrec]

/-- Settles O12: what each part of a slot leaves alone, and an idle slot by its parts. -/
theorem controlSlotsServeOnce : Obligations.ControlSlotsServeOnce := by
  unfold Obligations.ControlSlotsServeOnce
  intro s
  refine ⟨afterGuard_none s, controlSlot_unserved s, controlSlot_done s, fun hr hz hd ⟨hdef, hbmc, hpkts, hpeers⟩ =>
    controlSlot_served s hr hz hd ⟨hdef, hbmc, hpkts, hpeers⟩, fun hr => ?_, fun hr => ?_, fun hr hb hz => ?_,
    fun hr hrom hz ⟨hdef, hbmc, hpkts, hpeers⟩ hlate hloss => idleSlot_served s hr hrom hz ⟨hdef, hbmc, hpkts, hpeers⟩ hlate hloss⟩
  · exact congrArg Host.Outcome.next (if_pos (by rw [hr]; rfl))
  · exact congrArg Host.Outcome.next (if_pos hr)
  · exact congrArg Host.Outcome.next (idleSlot_unserved s hb hz)

end Sys2Proof.Machine
end

section
/-! SUPPORT. One core moves and nothing else, and the words that the fabric writes into it (R68, R71, R92). -/
namespace Sys2Proof.Machine
open Sys2Proof

/-- `t` is `s` with core c as `k`. -/
structure CoreMoved (s t : State) (c : Nat) (k : CoreSt) : Prop where
  frame : t = { s with cores := t.cores }
  others : ∀ n, n ≠ c → t.core n = s.core n
  core : t.core c = k

theorem CoreMoved.refl (s : State) (c : Nat) : CoreMoved s s c (s.core c) := ⟨rfl, fun _ _ => rfl, rfl⟩

theorem CoreMoved.trans {s t u : State} {c : Nat} {k k' : CoreSt} (h : CoreMoved s t c k) (h' : CoreMoved t u c k') : CoreMoved s u c k' :=
  ⟨by rw [h'.frame, h.frame], fun n hn => (h'.others n hn).trans (h.others n hn), h'.core⟩

theorem CoreMoved.updCore (s : State) (c : Nat) (g : CoreSt → CoreSt) : CoreMoved s (s.updCore c g) c (g (s.core c)) :=
  ⟨rfl, fun n hn => State.core_updCore_other s c n g hn, State.core_updCore s c g⟩

/-- A core's own update goes through: what it makes of the core that stands there. -/
theorem CoreMoved.upd {s t : State} {c : Nat} {k : CoreSt} (h : CoreMoved s t c k) (g : CoreSt → CoreSt) : CoreMoved s (t.updCore c g) c (g k) :=
  h.core ▸ h.trans (CoreMoved.updCore t c g)

/-! ### A word written by the fabric -/

/-- Bytes read where they were just written. -/
theorem Mem.bytes_writeBytes_same (m : Mem) (a : Nat) (bs : List Byte) : (m.writeBytes a bs).bytes a bs.length = bs := by
  refine List.ext_getElem (by simp [Mem.bytes]) fun i h _ => ?_
  have hi : i < bs.length := by simpa [Mem.bytes] using h
  simp [Mem.bytes, Mem.read_writeBytes, hi]

theorem Mem.read_writeBytes_apart (m : Mem) (a j : Nat) (bs : List Byte) (h : j < a ∨ a + bs.length ≤ j) : (m.writeBytes a bs).read j = m.read j := by
  rw [Mem.read_writeBytes, if_neg (by omega)]

/-- No other requester writes the word in the cycle. -/
def CoreSt.Unwritten (k : CoreSt) (lin cycle : Nat) : Prop := ∀ e ∈ k.written, ¬(e.1 = lin ∧ e.2.1 = cycle)

/-- A core after a write of one word by the requester of an order in a cycle (R68). -/
noncomputable def CoreSt.stored (k : CoreSt) (lin rank cycle : Nat) (data : List Byte) : CoreSt :=
  { k with
    mem := k.mem.writeBytes (32 * lin) data
    scErr := k.scErr.del lin
    written := (lin, cycle, rank) :: k.written.filter fun e => !(e.1 = lin && e.2.1 = cycle) }

theorem storeAt_moved (s : State) (c lin rank cycle : Nat) (data : List Byte) (hup : (s.core c).bankUp (lin / 57344) = true)
    (hw : (s.core c).Unwritten lin cycle) : CoreMoved s (s.storeAt c lin rank cycle data) c ((s.core c).stored lin rank cycle data) := by
  have hnone : ((s.core c).written.find? fun e => e.1 = lin && e.2.1 = cycle) = none :=
    List.find?_eq_none.2 fun e he => by simpa using hw e he
  have he : s.storeAt c lin rank cycle data = (s.updCore c fun k => { k with mem := k.mem.writeBytes (32 * lin) data, scErr := k.scErr.del lin }).updCore c
      fun k => { k with written := (lin, cycle, rank) :: k.written.filter fun e => !(e.1 = lin && e.2.1 = cycle) } := by
    simp only [State.storeAt, hnone, State.storeWord, hup, if_true]
  rw [he]
  exact (CoreMoved.updCore s c _).upd _

theorem remotePlace_live (s : State) (c lin : Nat) (h : (s.core c).state ≠ .failed) : s.remotePlace c lin = (c, lin) := by
  unfold State.remotePlace
  exact if_neg (by simpa using h)

theorem worker_live (s : State) (c : Nat) (h : (s.core c).state ≠ .failed) : s.worker c = c := by
  unfold State.worker
  exact if_neg (by simpa using h)

/-- With no operation waiting for words nothing completes as they arrive. -/
theorem arrivalCheck_idle (s : State) (c : Nat) (hw : (s.core c).seq.waits = []) (he : (s.core c).seq.ending = false) : s.arrivalCheck c = s := by
  simp [State.arrivalCheck, hw, State.tryEnd, he]

/-- The notes of a word that has arrived. -/
noncomputable def SeqSt.arrives (q : SeqSt) (lin cycle : Nat) (drop : Bool) : SeqSt :=
  { q with
    arrived := q.arrived.filter (fun e => !(List.contains [lin] e.1)) ++ [(lin, cycle)]
    dropWords := q.dropWords.filter (fun w => !(List.contains [lin] w)) ++ (if drop then [lin] else []) }

/-- One word comes to a live core where nothing waits for it. -/
theorem deliver_one (s : State) (c rank cycle lin : Nat) (drop : Bool) (data : List Byte) (hlive : (s.core c).state ≠ .failed)
    (hup : (s.core c).bankUp (lin / 57344) = true) (hwaits : (s.core c).seq.waits = []) (hend : (s.core c).seq.ending = false)
    (hw : (s.core c).Unwritten lin cycle) (hlen : data.length = 32) : CoreMoved s (s.deliver c rank cycle lin 1 drop data) c
      { (s.core c).stored lin rank cycle data with seq := (s.core c).seq.arrives lin cycle drop } := by
  have hone : data.take 32 = data := List.take_of_length_le hlen.le
  have he : s.deliver c rank cycle lin 1 drop data = (((s.storeAt c lin rank cycle data).updCore c fun k =>
      { k with seq := k.seq.arrives lin cycle drop }).arrivalCheck
        (((s.storeAt c lin rank cycle data).updCore c fun k => { k with seq := k.seq.arrives lin cycle drop }).worker c)) := by
    simp only [State.deliver, List.range_one, List.foldl_cons, List.foldl_nil, Nat.add_zero, Nat.mul_zero, List.drop_zero, hone,
      remotePlace_live s c lin hlive]
    rfl
  have hm := (storeAt_moved s c lin rank cycle data hup hw).upd fun k => { k with seq := k.seq.arrives lin cycle drop }
  rw [he]
  generalize (s.storeAt c lin rank cycle data).updCore c (fun k => { k with seq := k.seq.arrives lin cycle drop }) = t at hm ⊢
  rw [worker_live t c (by rw [hm.core]; exact hlive), arrivalCheck_idle t c (by rw [hm.core]; exact hwaits) (by rw [hm.core]; exact hend)]
  exact hm

/-! ### Flits -/

theorem packetOf_one (r : Route) (data : List Byte) (h : data.length = 32) : (packetOf r data).flits = [flitOf data] := by
  simp [packetOf, h, List.take_of_length_le h.le]

/-- A packet of one flit without an error is taken as it stands. -/
theorem checkFlits_clean {fs : List Flit} (hone : fs.length = 1) (hclean : (checkFlits fs).2 = (0, 0)) :
    (checkFlits fs).1 = fs ∧ (fs.flatMap fun f => (flitRead f).1) = (flitRead (fs.headD 0)).1 ∧ (flitRead (fs.headD 0)).1.length = 32 := by
  obtain ⟨f, rfl⟩ := List.length_eq_one_iff.1 hone
  simp only [checkFlits, flitFix, flitRead, List.map_cons, List.map_nil, List.flatMap_cons, List.flatMap_nil, List.append_nil, List.headD_cons] at hclean ⊢
  cases hk : scClassify (flitBytes f) with
  | clean => simp [flitBytes]
  | corrected w => simp [hk] at hclean
  | uncorrectable => simp [hk] at hclean

end Sys2Proof.Machine
end

section
/-! PROOFS. O48, what a core answers the fabric (R39, R71-R73, R282, R296, R308). -/
namespace Sys2Proof.Machine
open Sys2Proof

theorem atEngine_port (s : State) (c n : Nat) (p : Packet) (send : Bool) (k : State → State) (h : portOfEngine c = some n) :
    s.atEngine c p send k = if send then s.engineSend n p else s.engineReply n p := by simp only [State.atEngine, h]

theorem atEngine_core (s : State) (c : Nat) (p : Packet) (send : Bool) (k : State → State) (h : portOfEngine c = none) : s.atEngine c p send k = k s := by
  simp only [State.atEngine, h]

theorem bankUp_of_rangeOk {s : State} {r : Route} {c n : Nat} (hlive : (s.core c).state ≠ .failed) (h : s.remoteRangeOk r c (n + 1) = true) :
    (s.core c).bankUp (linLocal r.addr / 57344) = true := by
  simp only [State.remoteRangeOk, Bool.and_eq_true, List.all_eq_true, List.mem_range] at h
  have h0 := h.2 0 (Nat.succ_pos n)
  simp only [State.remoteOk, Nat.add_zero, remotePlace_live s c _ hlive, Bool.and_eq_true] at h0
  exact h0.1.2

/-- A core that took a word: what stands where, and what is as it was. -/
structure TookWord (s t : State) (c lin cycle : Nat) (data : List Byte) : Prop where
  frame : t = { s with cores := t.cores }
  others : ∀ n, n ≠ c → t.core n = s.core n
  word : (t.core c).word lin = data
  arrived : (lin, cycle) ∈ (t.core c).seq.arrived
  remote : (t.core c).remote = (s.core c).remote
  kept : ∀ a, (a < 32 * lin ∨ 32 * lin + 32 ≤ a) → (t.core c).mem.read a = (s.core c).mem.read a

theorem deliver_took (s : State) (c rank cycle lin : Nat) (drop : Bool) (data : List Byte) (hlive : (s.core c).state ≠ .failed)
    (hup : (s.core c).bankUp (lin / 57344) = true) (hwaits : (s.core c).seq.waits = []) (hend : (s.core c).seq.ending = false)
    (hw : (s.core c).Unwritten lin cycle) (hlen : data.length = 32) : TookWord s (s.deliver c rank cycle lin 1 drop data) c lin cycle data := by
  have hm := deliver_one s c rank cycle lin drop data hlive hup hwaits hend hw hlen
  refine ⟨hm.frame, hm.others, ?_, ?_, ?_, fun a ha => ?_⟩
  · have hb := Mem.bytes_writeBytes_same (s.core c).mem (32 * lin) data
    rw [hlen] at hb
    rw [hm.core]
    exact hb
  · rw [hm.core]
    simp [SeqSt.arrives]
  · rw [hm.core]
    rfl
  · rw [hm.core]
    exact Mem.read_writeBytes_apart _ _ a data (by omega)

/-- One clean flit comes to a core. -/
theorem receive_took (s : State) (c rank cycle : Nat) (p : Packet) (hlive : (s.core c).state ≠ .failed)
    (hup : (s.core c).bankUp (linLocal (Route.decode p.route).addr / 57344) = true) (hwaits : (s.core c).seq.waits = [])
    (hend : (s.core c).seq.ending = false) (hw : (s.core c).Unwritten (linLocal (Route.decode p.route).addr) cycle) (hone : p.flits.length = 1)
    (hclean : (checkFlits p.flits).2 = (0, 0)) :
    TookWord s (s.receive c rank cycle p) c (linLocal (Route.decode p.route).addr) cycle (flitRead (p.flits.headD 0)).1 := by
  obtain ⟨hf, hd, hlen⟩ := checkFlits_clean hone hclean
  have he : s.receive c rank cycle p = s.deliver c rank cycle (linLocal (Route.decode p.route).addr) 1
      ((Route.decode p.route).drop || decide ((checkFlits p.flits).2.2 > 0)) (flitRead (p.flits.headD 0)).1 := by
    simp only [State.receive, hf, hd, hone]
  rw [he]
  exact deliver_took s c rank cycle _ _ _ hlive hup hwaits hend hw hlen

/-- A write of one word that is admitted in time (R72, R73). -/
theorem fabricWrite_taken (s : State) (c cycle waited : Nat) (p : Packet) (hlen : (Route.decode p.route).len = 0)
    (hok : s.remoteRangeOk (Route.decode p.route) c ((Route.decode p.route).len + 1) = true) (hwait : waited ≤ s.remoteWait) :
    let t := s.deliver c 6 cycle (linLocal (Route.decode p.route).addr) 1 (Route.decode p.route).drop (packetData p)
    opFabricWrite c cycle waited p s = if (Route.decode p.route).ackreq then t.coreStatus c (Route.decode p.route) 0 1 else t := by
  rw [hlen] at hok
  simp only [opFabricWrite, hok, hlen, Bool.not_true, Bool.false_eq_true, if_false, Nat.not_lt.2 hwait]

theorem fabricWrite_filtered (s : State) (c cycle waited : Nat) (p : Packet)
    (hok : s.remoteRangeOk (Route.decode p.route) c ((Route.decode p.route).len + 1) = false) (hack : (Route.decode p.route).ackreq = false) :
    opFabricWrite c cycle waited p s = s.bump (Reg.Core.FILTER (coreField c) (coreNum c)) := by
  simp only [opFabricWrite, hok, hack, Bool.not_false, if_true, if_false, Bool.false_eq_true]

theorem fabricWrite_late (s : State) (c cycle waited : Nat) (p : Packet)
    (hok : s.remoteRangeOk (Route.decode p.route) c ((Route.decode p.route).len + 1) = true) (hwait : s.remoteWait < waited)
    (hack : (Route.decode p.route).ackreq = false) :
    opFabricWrite c cycle waited p s = s.bump (Reg.Core.REMOTE_BUSY (coreField c) (coreNum c)) := by
  simp only [opFabricWrite, hok, hack, hwait, Bool.not_true, if_true, if_false, Bool.false_eq_true]

theorem word_length (k : CoreSt) (lin : Nat) : (k.word lin).length = 32 := by simp [CoreSt.word, Mem.bytes]

/-- A clean word is read back in a DATA reply of one flit. -/
theorem fabricRead_taken (s : State) (c waited : Nat) (p : Packet) (hlive : (s.core c).state ≠ .failed) (hn : readWordsOf p = 1)
    (hok : s.remoteRangeOk (Route.decode p.route) c 1 = true) (hwait : waited ≤ s.remoteWait)
    (herr : (s.core c).scErr.getD (linLocal (Route.decode p.route).addr) 0 = 0) :
    ∃ q, opFabricRead c waited p s = { s with out := s.out ++ [.localPacket c q] } ∧ q.flits = [flitOf ((s.core c).word (linLocal (Route.decode p.route).addr))] := by
  have he : opFabricRead c waited p s = s.emit (.localPacket c (packetOf
      { dest := (Route.decode p.route).src, addr := readReplyOf p, vc := (Route.decode p.route).vc, tag := (Route.decode p.route).tag
        placement := s.placementOf c, mcast := false, drop := false, ackreq := false, kind := 2, len := 0, src := c }
      ((s.core c).word (linLocal (Route.decode p.route).addr)))) := by
    simp [opFabricRead, hn, hok, Nat.not_lt.2 hwait, remotePlace_live s c _ hlive, herr]
  exact ⟨_, he, packetOf_one _ _ (word_length _ _)⟩

theorem fabricRead_filtered (s : State) (c waited : Nat) (p : Packet) (hn : readWordsOf p = 1)
    (hok : s.remoteRangeOk (Route.decode p.route) c 1 = false) : ∃ q, opFabricRead c waited p s
      = (s.bump (Reg.Core.FILTER (coreField c) (coreNum c))).emit (.localPacket c q) := by
  have he : opFabricRead c waited p s = (s.bump (Reg.Core.FILTER (coreField c) (coreNum c))).coreStatus c (Route.decode p.route) 1 1 := by
    simp [opFabricRead, hn, hok]
  exact ⟨_, he⟩

theorem fabricRead_late (s : State) (c waited : Nat) (p : Packet) (hn : readWordsOf p = 1)
    (hok : s.remoteRangeOk (Route.decode p.route) c 1 = true) (hwait : s.remoteWait < waited) : ∃ q, opFabricRead c waited p s
      = (s.bump (Reg.Core.REMOTE_BUSY (coreField c) (coreNum c))).emit (.localPacket c q) := by
  have he : opFabricRead c waited p s = (s.bump (Reg.Core.REMOTE_BUSY (coreField c) (coreNum c))).coreStatus c (Route.decode p.route) 2 1 := by
    simp [opFabricRead, hn, hok, hwait]
  exact ⟨_, he⟩

theorem jetArrival_taken (s : State) (c cycle : Nat) (p : Packet) (hlive : (s.core c).state ≠ .failed) (ht : cycle + 67 ≤ s.tick.period) :
    opJetArrival c cycle p s = s.receive c 1 cycle p := by
  simp [opJetArrival, hlive, Nat.not_lt.2 ht]

theorem jetArrival_late (s : State) (c cycle : Nat) (p : Packet) (hlive : (s.core c).state ≠ .failed) (ht : s.tick.period < cycle + 67) :
    opJetArrival c cycle p s = (s.bump Reg.Evc.LATE_JET).mark Reg.Tick.LATE_JET := by
  simp [opJetArrival, hlive, ht]

/-- Settles O48: each access by the tests that admit it, its words by `deliver_one`. -/
theorem coresAnswerTheFabric : Obligations.CoresAnswerTheFabric := by
  unfold Obligations.CoresAnswerTheFabric
  intro s c p
  refine ⟨fun n cycle waited hn => ?_, fun hn hlive => ?_⟩
  · exact ⟨congrArg Host.Outcome.next (atEngine_port s c n p true _ hn), congrArg Host.Outcome.next (atEngine_port s c n p true _ hn),
      congrArg Host.Outcome.next (atEngine_port s c n p true _ hn), congrArg Host.Outcome.next (atEngine_port s c n p false _ hn),
      congrArg Host.Outcome.next (atEngine_port s c n p false _ hn)⟩
  have core {send : Bool} {k : State → State} {t : State} (h : k s = t) : Host.Outcome.next (s.atEngine c p send k) = (.next t : Result) :=
    congrArg _ ((atEngine_core s c p send k hn).trans h)
  refine ⟨fun cycle waited hok hwait hlen hdata hq => ?_, fun cycle waited hok hack => core (fabricWrite_filtered s c cycle waited p hok hack),
    fun cycle waited hok hwait hack => core (fabricWrite_late s c cycle waited p hok hwait hack), fun cycle waited hw => ⟨fun hok hwait herr => ?_, fun hok => ?_,
    fun hok hwait => ?_⟩, fun hlen hup hone hclean hdrop cycle waited => ⟨fun hq => ?_, fun hq ht => ?_, fun ht => ?_⟩, ?_, fun addr hex => ?_, fun addr hall => ?_⟩
  · obtain ⟨hwaits, hend, hw⟩ := hq
    have ht := deliver_took s c 6 cycle _ (Route.decode p.route).drop _ hlive (bankUp_of_rangeOk hlive hok) hwaits hend hw hdata
    refine ⟨_, core (fabricWrite_taken s c cycle waited p hlen hok hwait), ?_⟩
    generalize s.deliver c 6 cycle _ _ _ _ = t at ht ⊢
    obtain ⟨hframe, hothers, hword, harrived, -, hkept⟩ := ht
    obtain ⟨cores, rfl⟩ : ∃ l, t = { s with cores := l } := ⟨_, hframe⟩
    cases hack : (Route.decode p.route).ackreq
    · exact ⟨rfl, hothers, hword, harrived, hkept, fun _ => rfl, nofun⟩
    · exact ⟨rfl, hothers, hword, harrived, hkept, nofun, fun _ => ⟨_, rfl⟩⟩
  · obtain ⟨q, hq, hf⟩ := fabricRead_taken s c waited p hlive hw hok hwait herr
    exact ⟨q, core hq, hf⟩
  · obtain ⟨q, hq⟩ := fabricRead_filtered s c waited p hw hok
    exact ⟨q, core hq⟩
  · obtain ⟨q, hq⟩ := fabricRead_late s c waited p hw hok hwait
    exact ⟨q, core hq⟩
  · obtain ⟨hwaits, hend, hw⟩ := hq
    have hm := CoreMoved.updCore s c fun k => { k with remote := k.remote.filter fun q => !(q.dest == (Route.decode p.route).src && q.reply == (Route.decode p.route).addr) }
    have he : opDataReply c cycle p s = (s.updCore c fun k =>
      { k with remote := k.remote.filter fun q => !(q.dest == (Route.decode p.route).src && q.reply == (Route.decode p.route).addr) }).receive c 6 cycle p := rfl
    refine ⟨_, core he, ?_⟩
    generalize s.updCore c (fun k => { k with remote := k.remote.filter fun q => !(q.dest == (Route.decode p.route).src
      && q.reply == (Route.decode p.route).addr) }) = u at hm ⊢
    have ht := receive_took u c 6 cycle p (by rw [hm.core]; exact hlive) (by rw [hm.core]; exact hup) (by rw [hm.core]; exact hwaits)
      (by rw [hm.core]; exact hend) (by rw [hm.core]; exact hw) hone hclean
    refine ⟨by rw [ht.frame, hm.frame], fun n hn => (ht.others n hn).trans (hm.others n hn), ht.word, fun q hq => ?_, fun a ha => ?_⟩
    · rw [ht.remote, hm.core] at hq
      simpa [imp_iff_not_or] using (List.mem_filter.1 hq).2
    · rw [ht.kept a ha, hm.core]
  · obtain ⟨hwaits, hend, hw⟩ := hq
    have ht' := receive_took s c 1 cycle p hlive hup hwaits hend hw hone hclean
    exact ⟨_, core (jetArrival_taken s c cycle p hlive ht), ht'.frame, ht'.others, ht'.word, ht'.arrived, ht'.kept⟩
  · refine ⟨_, core (jetArrival_late s c cycle p hlive ht), rfl, ?_⟩
    exact State.get_put (s.bump Reg.Evc.LATE_JET) Reg.Tick.LATE_JET 1 (by decide) (by decide) (by decide)
  · have hm := CoreMoved.updCore s c fun k => { k with remote := k.remote.filter fun q => !(q.addr == leNat (((packetData p).drop 4).take 4)
      || (q.reply == leNat (((packetData p).drop 4).take 4) && q.dest == (Route.decode p.route).src)) }
    exact ⟨_, core rfl, hm.frame, hm.others, hm.core⟩
  · have hany : ((s.core c).remote.any fun q => q.addr == addr) = true := by simpa using hex
    have hm := CoreMoved.updCore s c fun k => { k with remote := k.remote.filter fun q => !(q.addr == addr) }
    refine ⟨_, congrArg Host.Outcome.next (if_pos hany), rfl, hm.others, hm.core, fun a ha => ?_⟩
    exact State.reg_put_other _ _ _ a ha
  · exact congrArg Host.Outcome.next (if_neg (by simpa using hall))

end Sys2Proof.Machine
end

section
/-! PROOFS. O46, beacons (R45, R46, R47, R317). -/
namespace Sys2Proof.Machine
open Sys2Proof

/-! ### The origin's word -/

/-- A frame put on some ports: nothing but what left the module differs. -/
theorem emitPorts (s : State) (l : List Nat) (f : ObtikFrame) :
    (s.forAll l fun s n => s.emit (.obtik n f)) = { s with out := s.out ++ l.map fun n => .obtik n f } := by
  induction l generalizing s with
  | nil => simp [State.forAll]
  | cons n l ih =>
    rw [State.forAll, List.foldl_cons, ← State.forAll, ih]
    simp [State.emit]

theorem mem_activePorts {s : State} {n : Nat} (h : n ∈ s.activePorts) : (s.port n).st = .active := by
  simp only [State.activePorts, List.mem_filter, State.isActive, beq_iff_eq] at h
  exact h.2

theorem beaconEmit_eq (s : State) : ∃ l, opBeaconEmit s = { s with
      tick := { s.tick with wordEmitted := true }
      out := s.out ++ .beacon (beaconWord s.following (if s.tick.running = true then s.tick.lullAsked else !s.tick.lullEndAsked)
        s.levelToCome s.nextCount) :: l }
    ∧ ∀ o ∈ l, ∃ n g, o = .obtik n g ∧ (s.port n).st = .active := by
  simp only [opBeaconEmit, State.sendBeacons, emitPorts]
  refine ⟨s.activePorts.map fun n => .obtik n (linkFrame { type := 2, srcModule := s.start.moduleId }
    (leBytes 4 (beaconWord true (if s.tick.running = true then s.tick.lullAsked else !s.tick.lullEndAsked) s.levelToCome s.nextCount).toNat
      ++ leBytes 8 s.nextCount ++ leBytes 1 s.links.master ++ leBytes 1 s.links.hops)), ?_, fun o ho => ?_⟩
  · simp only [State.emit, State.updTick, List.append_assoc, List.singleton_append]
    rfl
  · obtain ⟨n, hn, rfl⟩ := List.mem_map.1 ho
    exact ⟨n, _, rfl, mem_activePorts hn⟩

/-! ### Branches -/

/-- What makes a branch usable (R45, R47). -/
theorem branchOk_iff (o : Option Nat) (b : Option BeaconRx) : branchOk o b = true ↔ ∃ ps r, o = some ps ∧ b = some r ∧ 12 * ps ≤ 62 * 5000
    ∧ -1 ≤ r.edgeError ∧ r.edgeError ≤ 1 ∧ beaconGood r.word = true := by
  cases o <;> cases b <;> simp [branchOk, branchUsable, and_assoc]

theorem takeBeacon_some (x : FieldSt) (count : Nat) (r : BeaconRx) : x.takeBeacon count (some r) = { x with
    beaconOk := true, beaconMiss := 0
    tickMismatch := if r.word.toNat % 65536 = count % 65536 then x.tickMismatch else x.tickMismatch + 1 } := by
  by_cases h : r.word.toNat % 65536 = count % 65536 <;> simp [FieldSt.takeBeacon, h]

theorem beaconArrival_primary (s : State) (f : Nat) (a b : Option BeaconRx) (h : branchOk (s.field f).offsetPrimary a = true) :
    opBeaconArrival f a b s = s.updField f fun x => x.takeBeacon s.nextCount a := if_pos h

theorem beaconArrival_redundant (s : State) (f : Nat) (a b : Option BeaconRx) (ha : ¬branchOk (s.field f).offsetPrimary a = true)
    (hb : branchOk (s.field f).offsetRedundant b = true) : opBeaconArrival f a b s
      = ((s.bump Reg.Evc.BEACON_ALT).mark Reg.Tick.BEACON_ALT).updField f fun x => x.takeBeacon s.nextCount b :=
  (if_neg ha).trans (if_pos hb)

/-- A field that misses a tick, its counter and mark. -/
noncomputable def State.beaconMissed (s : State) (f : Nat) : State :=
  ((s.updField f fun x => { x with beaconOk := false, beaconMiss := x.beaconMiss + 1 }).bump Reg.Evc.BEACON_LOST).mark Reg.Tick.BEACON_LOST

theorem beaconArrival_missed (s : State) (f : Nat) (a b : Option BeaconRx) (ha : ¬branchOk (s.field f).offsetPrimary a = true)
    (hb : ¬branchOk (s.field f).offsetRedundant b = true) : EventFrame (s.beaconMissed f) (opBeaconArrival f a b s) := by
  rw [show opBeaconArrival f a b s = _ from (if_neg ha).trans (if_neg hb)]
  exact event_frame _ _

theorem get_mark (s : State) (f : Fld) (hi : f.hi < 32) (hl : f.lo ≤ f.hi) : (s.mark f).get f = 1 :=
  State.get_put s f 1 hi hl (Nat.one_lt_two_pow (by omega))

/-- Settles O46: each branch by the test that admits it, the loss by `loseField_found`. -/
theorem beaconsReachTheFields : Obligations.BeaconsReachTheFields := by
  unfold Obligations.BeaconsReachTheFields
  intro s f
  simp only [← branchOk_iff]
  refine ⟨?_, fun a b ha => ?_, fun a b ha hb => ?_, fun a b ha hb => ?_, fun hl hr hp => ?_, fun h => ?_⟩
  · obtain ⟨l, he, hl⟩ := beaconEmit_eq s
    refine ⟨_, _, l, congrArg Host.Outcome.next he, rfl, ?_, hl⟩
    simp only [State.levelToCome, Bool.or_eq_true]
  · refine ⟨_, congrArg Host.Outcome.next (beaconArrival_primary s f _ b ha), rfl, fun g hg => State.field_updField_other s f g _ hg, ?_⟩
    rw [State.field_updField, takeBeacon_some]
  · refine ⟨_, congrArg Host.Outcome.next (beaconArrival_redundant s f a _ ha hb), rfl, fun g hg => State.field_updField_other _ f g _ hg, ?_, ?_⟩
    · rw [State.field_updField, takeBeacon_some]
      rfl
    · exact get_mark (s.bump Reg.Evc.BEACON_ALT) Reg.Tick.BEACON_ALT (by decide) (by decide)
  · have hm := beaconArrival_missed s f a b ha hb
    have hfields : (opBeaconArrival f a b s).fields = (s.beaconMissed f).fields := by rw [hm.frame]
    refine ⟨_, rfl, fun g hg => ?_, ?_, ?_, ?_⟩
    · exact (field_congr hfields g).trans (State.field_updField_other s f g (fun x => { x with beaconOk := false, beaconMiss := x.beaconMiss + 1 }) hg)
    · exact (field_congr hfields f).trans (State.field_updField s f fun x => { x with beaconOk := false, beaconMiss := x.beaconMiss + 1 })
    · exact (get_congr_reg (hm.regs _ (by decide))).trans (get_mark _ Reg.Tick.BEACON_LOST (by decide) (by decide))
    · exact hm.frame.trans (by rw [hm.frame]; rfl)
  · obtain ⟨hd, hf⟩ := loseField_found s f 4 hl hp hr
    refine ⟨_, rfl, ?_⟩
    generalize s.loseField f 4 = t at hd hf
    exact ⟨by rw [hf]; rfl, by rw [hf]; rfl, by rw [hf]; rfl, hd.others, hd.frame, hd.cores⟩
  · exact congrArg Host.Outcome.next (loseField_standing s f 4 (by tauto))

end Sys2Proof.Machine
end

section
/-! SUPPORT. A core with its counters, what an overrun leaves of it, and the failure that two of them are (R41, R77). -/
namespace Sys2Proof.Machine
open Sys2Proof

/-- `t` is `s` with core c as `k`, and registers moved. -/
structure CoreCounted (s t : State) (c : Nat) (k : CoreSt) : Prop where
  frame : t = { s with cores := t.cores, regs := t.regs }
  others : ∀ n, n ≠ c → t.core n = s.core n
  core : t.core c = k

theorem CoreCounted.refl (s : State) (c : Nat) : CoreCounted s s c (s.core c) := ⟨rfl, fun _ _ => rfl, rfl⟩

/-- A core's own update goes through. -/
theorem CoreCounted.upd {s t : State} {c : Nat} {k : CoreSt} (h : CoreCounted s t c k) (g : CoreSt → CoreSt) : CoreCounted s (t.updCore c g) c (g k) := by
  refine ⟨?_, fun n hn => (State.core_updCore_other t c n g hn).trans (h.others n hn), by rw [State.core_updCore, h.core]⟩
  obtain ⟨cores, regs, rfl⟩ : ∃ l m, t = { s with cores := l, regs := m } := ⟨_, _, h.frame⟩
  rfl

theorem CoreCounted.put {s t : State} {c : Nat} {k : CoreSt} (h : CoreCounted s t c k) (f : Fld) (v : Nat) : CoreCounted s (t.put f v) c k := by
  refine ⟨?_, h.others, h.core⟩
  obtain ⟨cores, regs, rfl⟩ : ∃ l m, t = { s with cores := l, regs := m } := ⟨_, _, h.frame⟩
  rfl

/-- Marking twice is marking once. -/
theorem CoreSt.marked_marked (k : CoreSt) : k.marked.marked = k.marked := by simp [CoreSt.marked, Function.comp_def]

theorem dropContribution_eq (s : State) (c : Nat) : s.dropContribution c = s.updCore c CoreSt.marked := rfl

/-- What is left of an abandoned program. -/
noncomputable def SeqSt.haltIf (q : SeqSt) (prog : Nat) : SeqSt := if q.prog = prog then q.halt else q

theorem get_bump_pos (s : State) (f : Fld) (hi : f.hi < 32) (hl : f.lo ≤ f.hi) : (s.bump f).get f ≠ 0 := by
  have hw : 2 ^ 1 ≤ 2 ^ (f.hi - f.lo + 1) := Nat.pow_le_pow_right (by omega) (by omega)
  rw [get_bump s f hi hl]
  omega

/-- The registers of an overrun: counted for the core and the module, marked, and the program's place noted (R41, R110). -/
noncomputable def State.noteOverrun (s : State) (c prog : Nat) : State :=
  let s' := ((s.bump (Reg.Core.OVERRUN (coreField c) (coreNum c))).bump Reg.Evc.OVERRUNS).mark Reg.Tick.OVERRUN
  (s'.put (Reg.Seq.ABANDON_PROG (coreField c) (coreNum c)) prog).put (Reg.Seq.ABANDON_PC (coreField c) (coreNum c)) (s.core c).seq.pc

theorem abandon_eq (s : State) (c prog : Nat) :
    s.abandon c prog = (s.noteOverrun c prog).updCore c fun k => { k with seq := k.seq.haltIf prog } := rfl

/-- A program abandoned where it stands. -/
theorem abandon_counted (s : State) (c prog : Nat) : CoreCounted s (s.abandon c prog) c { s.core c with seq := (s.core c).seq.haltIf prog } := by
  rw [abandon_eq]
  refine CoreCounted.upd (k := s.core c) ?_ fun k => { k with seq := k.seq.haltIf prog }
  unfold State.noteOverrun
  exact (((((CoreCounted.refl s c).put _ _).put _ _).put _ _).put _ _).put _ _

theorem abandon_pc (s : State) (c prog : Nat) :
    (s.abandon c prog).get (Reg.Seq.ABANDON_PC (coreField c) (coreNum c)) = (s.core c).seq.pc % 4096 := by
  rw [abandon_eq, get_congr (State.updCore_regs _ _ _)]
  unfold State.noteOverrun
  exact State.get_put_mod _ (Reg.Seq.ABANDON_PC (coreField c) (coreNum c)) _ (show 11 < 32 by decide) (show 0 ≤ 11 by decide)

theorem abandon_overrun (s : State) (c prog : Nat) : (s.abandon c prog).get (Reg.Core.OVERRUN (coreField c) (coreNum c)) ≠ 0 := by
  have hn : coreNum c < 32 := Nat.mod_lt c (by decide)
  have hpc : (Reg.Core.OVERRUN (coreField c) (coreNum c)).addr ≠ (Reg.Seq.ABANDON_PC (coreField c) (coreNum c)).addr := by
    simp only [Reg.Core.OVERRUN, Reg.Seq.ABANDON_PC]; omega
  have hprog : (Reg.Core.OVERRUN (coreField c) (coreNum c)).addr ≠ (Reg.Seq.ABANDON_PROG (coreField c) (coreNum c)).addr := by
    simp only [Reg.Core.OVERRUN, Reg.Seq.ABANDON_PROG]; omega
  have htick : (Reg.Core.OVERRUN (coreField c) (coreNum c)).addr ≠ Reg.Tick.OVERRUN.addr := by
    simp only [Reg.Core.OVERRUN, Reg.Tick.OVERRUN]; omega
  have hevc : (Reg.Core.OVERRUN (coreField c) (coreNum c)).addr ≠ Reg.Evc.OVERRUNS.addr := by
    simp only [Reg.Core.OVERRUN, Reg.Evc.OVERRUNS]; omega
  rw [abandon_eq, get_congr (State.updCore_regs _ _ _)]
  unfold State.noteOverrun
  rw [State.get_put_other _ _ _ _ hpc, State.get_put_other _ _ _ _ hprog, State.mark, State.get_put_other _ _ _ _ htick, State.bump, State.count,
    State.get_put_other _ _ _ _ hevc]
  exact get_bump_pos _ _ (show 31 < 32 by decide) (show 0 ≤ 31 by decide)

/-- The ticks of the last overruns, with one now. -/
noncomputable def CoreSt.overrunsAt (k : CoreSt) (now : Nat) : List Nat := (now :: k.overrunTicks).take 16

/-- One overrun more within 16 ticks of another (R41). -/
noncomputable def CoreSt.twice (k : CoreSt) (now : Nat) : Bool := twoOverruns now (k.overrunsAt now)

noncomputable def CoreSt.overran (k : CoreSt) (now : Nat) : CoreSt := { k with overrunTicks := k.overrunsAt now }

/-- A core as it is declared failed (R77). -/
noncomputable def CoreSt.broken (k : CoreSt) (order : Nat) : CoreSt :=
  { k with state := .failed, failOrder := order, seq := { k.seq.halt with exch := [], prefillDue := false, armed := none } }

/-- `t` is `s` after an overrun of core c is counted: two within 16 ticks end in its failure, one leaves it as it is (R41). -/
structure OverrunCounted (s t : State) (c : Nat) : Prop where
  frame : t = { s with cores := t.cores, fields := t.fields }
  others : ∀ n, n ≠ c → t.core n = s.core n
  ticks : (t.core c).overrunTicks = (s.core c).overrunsAt s.tick.count
  failed : (s.core c).twice s.tick.count = true → (t.core c).state = .failed
  stays : (s.core c).twice s.tick.count = false → (t.core c).state = (s.core c).state
  repairs : (t.core c).repairs = (s.core c).repairs
  mem : (t.core c).mem = (s.core c).mem
  idle : (s.core c).seq.prog = 0 → (t.core c).seq.prog = 0
  dropped : (s.core c).dropped = true → (t.core c).dropped = true
  rows : (s.core c).marked = s.core c → (t.core c).decRows = (s.core c).decRows ∧ (t.core c).preRows = (s.core c).preRows
  fields : (s.core c).twice s.tick.count = false ∨ (s.core c).state = .failed → t.fields = s.fields

/-- An overrun that fails no core is noted in its list. -/
theorem overrunCounted_noted (s : State) (c : Nat) (h : (s.core c).twice s.tick.count = true → (s.core c).state = .failed) :
    OverrunCounted s (s.updCore c fun k => k.overran s.tick.count) c := by
  have hm := CoreMoved.updCore s c fun k => k.overran s.tick.count
  generalize s.updCore c (fun k => k.overran s.tick.count) = u at hm ⊢
  have hf : u.fields = s.fields := by rw [hm.frame]
  have hc := hm.core
  exact ⟨hm.frame.trans (by rw [hf]), hm.others, congrArg CoreSt.overrunTicks hc, fun h2 => (congrArg CoreSt.state hc).trans (h h2),
    fun _ => (congrArg CoreSt.state hc :), (congrArg CoreSt.repairs hc :), (congrArg CoreSt.mem hc :), fun h => (congrArg (fun k => k.seq.prog) hc).trans h,
    fun h => (congrArg CoreSt.dropped hc).trans h, fun _ => ⟨(congrArg CoreSt.decRows hc :), (congrArg CoreSt.preRows hc :)⟩, fun _ => hf⟩

/-- The second overrun fails a core that has not failed. -/
theorem overrunCounted_failed (s : State) (c order : Nat) (g : FieldSt → FieldSt) (h2 : (s.core c).twice s.tick.count = true) (hn : (s.core c).state ≠ .failed) :
    OverrunCounted s ((((s.updCore c fun k => k.overran s.tick.count).updCore c (CoreSt.broken · order)).updCore c CoreSt.marked).updField (coreField c) g) c := by
  have hm := ((CoreMoved.updCore s c fun k => k.overran s.tick.count).upd (CoreSt.broken · order)).upd CoreSt.marked
  generalize ((s.updCore c fun k => k.overran s.tick.count).updCore c (CoreSt.broken · order)).updCore c CoreSt.marked = u at hm ⊢
  have hframe : u.updField (coreField c) g = { s with cores := u.cores, fields := (u.updField (coreField c) g).fields } :=
    by rw [hm.frame]; rfl
  have hc := hm.core
  exact ⟨hframe, hm.others, congrArg CoreSt.overrunTicks hc, fun _ => congrArg CoreSt.state hc, fun h => absurd (h2.symm.trans h) (by decide), (congrArg CoreSt.repairs hc :),
    (congrArg CoreSt.mem hc :), fun _ => congrArg (fun k => k.seq.prog) hc, fun _ => congrArg CoreSt.dropped hc,
    fun h => ⟨(congrArg CoreSt.decRows hc).trans (congrArg CoreSt.decRows h :), (congrArg CoreSt.preRows hc).trans (congrArg CoreSt.preRows h :)⟩,
    fun h => absurd h (by simp [h2, hn])⟩

theorem countOverrun_spec (s : State) (c : Nat) : OverrunCounted s (s.countOverrun c) c := by
  have ht : s.countOverrun c = if (s.core c).twice s.tick.count then (s.updCore c fun k => k.overran s.tick.count).failCore c
      else s.updCore c fun k => k.overran s.tick.count := by
    simp only [State.countOverrun, State.core_updCore, State.updCore_tick]
    rfl
  rw [ht]
  split
  case isTrue h2 =>
    have hcore := State.core_updCore s c fun k => k.overran s.tick.count
    by_cases hf : (s.core c).state = .failed
    · have hstay : (s.updCore c fun k => k.overran s.tick.count).failCore c = s.updCore c fun k => k.overran s.tick.count :=
        if_pos (by rw [hcore]; exact beq_iff_eq.2 hf)
      rw [hstay]
      exact overrunCounted_noted s c fun _ => hf
    · obtain ⟨order, g, he⟩ : ∃ order g, (s.updCore c fun k => k.overran s.tick.count).failCore c
          = (((s.updCore c fun k => k.overran s.tick.count).updCore c (CoreSt.broken · order)).updCore c CoreSt.marked).updField (coreField c) g :=
        ⟨_, _, if_neg (by rw [hcore]; exact fun h => hf (eq_of_beq h))⟩
      rw [he]
      exact overrunCounted_failed s c order g h2 hf
  case isFalse h2 => exact overrunCounted_noted s c fun h => absurd h h2

end Sys2Proof.Machine
end

section
/-! PROOFS. O54, the issue of a descriptor (R41, R63, R64, R85, R93, R96, R102). -/
namespace Sys2Proof.Machine
open Sys2Proof

/-! ### The issue cycle (R93) -/

theorem le_foldl_max (l : List Nat) (m : Nat) : m ≤ l.foldl max m ∧ ∀ x ∈ l, x ≤ l.foldl max m := by
  have h := foldl_max_spec id l m
  exact ⟨by simpa using h.1, by simpa using h.2.1⟩

/-- No descriptor issues before the cycle it stands in, before the results of what it depends on, or with SYNC before all results. -/
theorem issueCycle_holds (q : SeqSt) (d : W256) (reads writes : List Range) :
    q.cycle ≤ issueCycle q d reads writes ∧ (dSync d = true → ∀ x ∈ q.flights, x.ready ≤ issueCycle q d reads writes)
      ∧ ∀ x ∈ q.flights, overlaps reads x.writes = true ∨ overlaps writes (x.reads ++ x.writes) = true → x.ready ≤ issueCycle q d reads writes := by
  obtain ⟨hcycle, hheld⟩ := le_foldl_max (q.flights.map (holdUntil reads writes)) q.cycle
  simp only [issueCycle]
  generalize (q.flights.map (holdUntil reads writes)).foldl max q.cycle = t at hcycle hheld ⊢
  obtain ⟨hsync, hready⟩ := le_foldl_max (q.flights.map Flight.ready) t
  have hstep : t ≤ (if dSync d then (q.flights.map Flight.ready).foldl max t else t)
      ∧ (dSync d = true → ∀ x ∈ q.flights, x.ready ≤ (if dSync d then (q.flights.map Flight.ready).foldl max t else t)) := by
    split
    · exact ⟨hsync, fun _ x hx => hready _ (List.mem_map_of_mem hx)⟩
    · next h => exact ⟨le_rfl, fun h' => absurd h' h⟩
  generalize (if dSync d then (q.flights.map Flight.ready).foldl max t else t) = u at hstep ⊢
  have hroom (b : Prop) [Decidable b] (n : Nat) : u ≤ if b then max u n else u := by split <;> omega
  refine ⟨hcycle.trans (hstep.1.trans (hroom _ _)), fun h x hx => (hstep.2 h x hx).trans (hroom _ _), fun x hx ho => ?_⟩
  have hx' := hheld _ (List.mem_map_of_mem hx)
  rw [holdUntil, if_pos (by simpa using ho)] at hx'
  exact hx'.trans (hstep.1.trans (hroom _ _))

/-! ### The issue -/

theorem issue_idle (s : State) (c : Nat) (h : (s.core c).seq.prog = 0 ∨ (s.core c).seq.ending = true ∨ (s.core c).seq.waitUntil ≠ none) :
    opIssue c s = s := if_pos (by simpa [or_assoc, Option.isSome_iff_ne_none] using h)

/-- A descriptor is held by an operation that waits for words. -/
theorem heldByWait_iff (q : SeqSt) (busy : RecvWait → List Range × List Range) (d : W256) (reads writes : List Range) :
    q.heldByWait busy d reads writes = true ↔ ∃ w ∈ q.waits, dSync d = true ∨ overlaps reads (busy w).2 = true
      ∨ overlaps writes ((busy w).1 ++ (busy w).2) = true := by
  simp [SeqSt.heldByWait, or_assoc]

/-- A corrected descriptor is noted for the steward and counted (R64). -/
noncomputable def State.noteCorrected (s : State) (c : Nat) : State :=
  if (s.core c).codeErr.getD (s.core c).seq.pc 0 = 1 then
    (s.updCore c fun k => { k with repairs := (s.core c).seq.pc :: k.repairs }).bump (Reg.Core.SC_CORR (coreField c) (coreNum c))
  else s

/-- The sequencer after the issue of a descriptor at cycle t, with its flight and the end of the MAC array's work. -/
noncomputable def SeqSt.movesOn (q : SeqSt) (d : W256) (t : Nat) (x : Flight × Nat) : SeqSt :=
  if unitOf (dOp d) = 0 then { q with cycle := t, pc := q.pc + 1 }
  else { q with
    cycle := t + 1, pc := q.pc + 1, macEnd := x.2, wrRank := rankOf (unitOf (dOp d)), wrCycle := x.1.ready - 1
    flights := if waitsForWords (dOp d) then q.flights else q.flights ++ [x.1] }

/-- Timing alone moves on, and by no less than the issue cycle. -/
theorem movesOn_spec (q : SeqSt) (d : W256) (t : Nat) (x : Flight × Nat) :
    let r := q.movesOn d t x
    t ≤ r.cycle ∧ r = { q with
      pc := q.pc + 1, cycle := r.cycle, flights := r.flights, macEnd := r.macEnd, wrRank := r.wrRank, wrCycle := r.wrCycle } := by
  unfold SeqSt.movesOn
  split
  · exact ⟨le_rfl, rfl⟩
  · exact ⟨Nat.le_succ t, rfl⟩

/-- The state in which an issued descriptor's operation is carried out. -/
noncomputable def State.issued (s : State) (c : Nat) : State :=
  let d := (s.core c).code.getD (s.core c).seq.pc 0
  let t := issueCycle (s.core c).seq d (s.opRanges c d).1 (s.opRanges c d).2
  (s.noteCorrected c).updCore c fun k =>
    { k with seq := k.seq.movesOn d t ((s.noteCorrected c).flightOf c d t (s.opRanges c d).1 (s.opRanges c d).2) }

/-- A program stands at a descriptor and nothing waits. -/
structure SeqSt.AtIssue (q : SeqSt) : Prop where
  prog : q.prog ≠ 0
  ending : q.ending = false
  waitUntil : q.waitUntil = none

theorem SeqSt.AtIssue.goes {q : SeqSt} (h : q.AtIssue) : ¬(q.prog = 0 || q.ending || q.waitUntil.isSome) = true := by
  simp [h.prog, h.ending, h.waitUntil]

section
variable (s : State) (c : Nat) (h : (s.core c).seq.AtIssue) (he : (s.core c).codeErr.getD (s.core c).seq.pc 0 ≠ 2)

/-- The next descriptor is held by an operation that waits for words (R93). -/
def State.heldAt (s : State) (c : Nat) : Prop :=
  let d := (s.core c).code.getD (s.core c).seq.pc 0
  (s.core c).seq.heldByWait (fun w => s.opRanges c w.d) d (s.opRanges c d).1 (s.opRanges c d).2 = true

include h he

theorem issue_held (hh : s.heldAt c) : opIssue c s = s := by
  simp only [opIssue, if_neg h.goes]
  generalize (s.core c).codeErr.getD (s.core c).seq.pc 0 = e at he ⊢
  rcases e with _ | _ | _ | e
  · exact if_pos hh
  · exact if_pos hh
  · exact absurd rfl he
  · exact if_pos hh

theorem issue_free (hh : ¬s.heldAt c) : opIssue c s = runOp c ((s.core c).code.getD (s.core c).seq.pc 0) (s.issued c) := by
  simp only [opIssue, if_neg h.goes, State.issued, State.noteCorrected]
  generalize (s.core c).codeErr.getD (s.core c).seq.pc 0 = e at he ⊢
  rcases e with _ | _ | _ | e
  · exact if_neg hh
  · exact if_neg hh
  · exact absurd rfl he
  · exact if_neg hh

end

theorem noteCorrected_spec (s : State) (c : Nat) :
    let k := s.core c
    CoreCounted s (s.noteCorrected c) c { k with repairs := if k.codeErr.getD k.seq.pc 0 = 1 then k.seq.pc :: k.repairs else k.repairs }
      ∧ (s.noteCorrected c).regs = (if k.codeErr.getD k.seq.pc 0 = 1 then s.bump (Reg.Core.SC_CORR (coreField c) (coreNum c)) else s).regs := by
  simp only [State.noteCorrected]
  by_cases h : (s.core c).codeErr.getD (s.core c).seq.pc 0 = 1
  · simp only [h, if_true]
    exact ⟨((CoreCounted.refl s c).upd fun k => { k with repairs := (s.core c).seq.pc :: k.repairs }).put _ _, rfl⟩
  · simp only [h, if_false]
    exact ⟨CoreCounted.refl s c, trivial⟩

/-- What an issue leaves before its operation is carried out: `y` from `s`. -/
structure Issued (s y : State) (c : Nat) : Prop where
  frame : y = { s with cores := y.cores, regs := y.regs }
  others : ∀ n, n ≠ c → y.core n = s.core n
  core : y.core c = { s.core c with
    repairs := if (s.core c).codeErr.getD (s.core c).seq.pc 0 = 1 then (s.core c).seq.pc :: (s.core c).repairs else (s.core c).repairs
    seq := { (s.core c).seq with
      pc := (s.core c).seq.pc + 1, cycle := (y.core c).seq.cycle, flights := (y.core c).seq.flights, macEnd := (y.core c).seq.macEnd
      wrRank := (y.core c).seq.wrRank, wrCycle := (y.core c).seq.wrCycle } }
  regs : y.regs = (if (s.core c).codeErr.getD (s.core c).seq.pc 0 = 1 then s.bump (Reg.Core.SC_CORR (coreField c) (coreNum c)) else s).regs
  cycle : let d := (s.core c).code.getD (s.core c).seq.pc 0
    issueCycle (s.core c).seq d (s.opRanges c d).1 (s.opRanges c d).2 ≤ (y.core c).seq.cycle

theorem issued_spec (s : State) (c : Nat) : Issued s (s.issued c) c := by
  obtain ⟨hnote, hregs⟩ := noteCorrected_spec s c
  let d := (s.core c).code.getD (s.core c).seq.pc 0
  let at_ := issueCycle (s.core c).seq d (s.opRanges c d).1 (s.opRanges c d).2
  let x := (s.noteCorrected c).flightOf c d at_ (s.opRanges c d).1 (s.opRanges c d).2
  obtain ⟨hcycle, htiming⟩ := movesOn_spec (s.core c).seq d at_ x
  have hm : CoreCounted s (s.issued c) c _ := hnote.upd fun k => { k with seq := k.seq.movesOn d at_ x }
  refine ⟨hm.frame, hm.others, ?_, hregs, hcycle.trans_eq (congrArg (fun k => k.seq.cycle) hm.core).symm⟩
  have hseq : ((s.issued c).core c).seq = (s.core c).seq.movesOn d at_ x := congrArg CoreSt.seq hm.core
  rw [hseq, ← htiming]
  exact hm.core

/-- A core whose program stops at an uncorrectable descriptor: noted for repair, its rows marked, its program gone (R64). -/
noncomputable def CoreSt.stopped (k : CoreSt) : CoreSt :=
  { { k with repairs := k.seq.pc :: k.repairs }.marked with seq := k.seq.haltIf k.seq.prog }

theorem CoreSt.stopped_prog (k : CoreSt) : k.stopped.seq.prog = 0 := by simp [CoreSt.stopped, SeqSt.haltIf, SeqSt.halt]

theorem CoreSt.stopped_marked (k : CoreSt) : k.stopped.marked = k.stopped := by simp [CoreSt.stopped, CoreSt.marked, Function.comp_def]

/-- An uncorrectable descriptor stops the program (R64). -/
theorem issue_uncorrectable (s : State) (c : Nat) (h : (s.core c).seq.AtIssue) (he : (s.core c).codeErr.getD (s.core c).seq.pc 0 = 2) :
    ∃ w, opIssue c s = w.countOverrun c ∧ CoreCounted s w c (s.core c).stopped
      ∧ w.get (Reg.Seq.ABANDON_PC (coreField c) (coreNum c)) = (s.core c).seq.pc % 4096 ∧ w.get (Reg.Core.OVERRUN (coreField c) (coreNum c)) ≠ 0 := by
  have hop : opIssue c s = ((s.updCore c fun k => { k with repairs := (s.core c).seq.pc :: k.repairs }).overrun c (s.core c).seq.prog).countOverrun c := by
    simp only [opIssue, if_neg h.goes, he]
  have hm := ((CoreCounted.refl s c).upd fun k => { k with repairs := (s.core c).seq.pc :: k.repairs }).upd CoreSt.marked
  rw [State.overrun, dropContribution_eq] at hop
  generalize (s.updCore c fun k => { k with repairs := (s.core c).seq.pc :: k.repairs }).updCore c CoreSt.marked = v at hm hop
  have ha := abandon_counted v c (s.core c).seq.prog
  refine ⟨_, hop, ⟨?_, fun n hn => (ha.others n hn).trans (hm.others n hn), ha.core.trans ?_⟩, (abandon_pc v c _).trans ?_, abandon_overrun v c _⟩
  · rw [ha.frame, hm.frame]
  · rw [hm.core]
    rfl
  · rw [hm.core]
    rfl

/-- The commands of the descriptor operations, each with its code (R85). -/
noncomputable def descriptorOps (c : Nat) (d : W256) : List (Nat × Instr) :=
  [(0x01, .endProgram c d), (0x02, .waitCycle c d), (0x03, .branchOnTrouble c d), (0x10, .matvec c d), (0x11, .matvecT c d), (0x12, .halo c d),
   (0x20, .send c d), (0x21, .recv c d), (0x22, .reduce c d), (0x23, .gather c d), (0x24, .scatter c d), (0x30, .norm c d), (0x31, .act c d),
   (0x32, .glu c d), (0x33, .rope c d), (0x34, .quant c d), (0x35, .check c d), (0x36, .vec c d), (0x37, .copy c d), (0x40, .score c d),
   (0x41, .softmaxOnline c d), (0x42, .value c d), (0x43, .kvAppend c d), (0x50, .gate c d), (0x51, .dispatch c d), (0x52, .combine c d),
   (0x60, .embed c d), (0x61, .logits c d), (0x62, .sample c d), (0x70, .stateScan c d), (0x78, .cloudMove c d)]

/-- The operation that a descriptor's code names is that operation's own command. -/
theorem runOp_listed (c : Nat) (d : W256) (t : State) : ∀ e ∈ descriptorOps c d, dOp d = e.1 → Host.Outcome.next (runOp c d t) = exec e.2 t := by
  unfold descriptorOps
  iterate 31 refine List.forall_mem_cons.2 ⟨fun h => ?_, ?_⟩; · unfold runOp; rw [h]; rfl
  exact fun e he => nomatch he

/-- Settles O54: timing by `issueCycle_holds`, the operation as the one that its code names, an uncorrectable descriptor by `countOverrun_spec`. -/
theorem issueCarriesOutTheDescriptor : Obligations.IssueCarriesOutTheDescriptor := by
  unfold Obligations.IssueCarriesOutTheDescriptor
  intro s c
  refine ⟨fun hp hending hwait => ⟨fun he hheld => ?_, fun he hheld => ?_, fun he => ?_⟩, fun h => congrArg Host.Outcome.next (issue_idle s c h)⟩
  · have hi := issued_spec s c
    have hop := issue_free s c ⟨hp, hending, hwait⟩ he (by rw [State.heldAt, heldByWait_iff]; exact hheld)
    obtain ⟨hmin, hsync, hhold⟩ := issueCycle_holds (s.core c).seq ((s.core c).code.getD (s.core c).seq.pc 0)
      (s.opRanges c ((s.core c).code.getD (s.core c).seq.pc 0)).1 (s.opRanges c ((s.core c).code.getD (s.core c).seq.pc 0)).2
    exact ⟨s.issued c, hi.frame, hi.others, hi.core, hi.regs, hmin.trans hi.cycle, fun h x hx => (hsync h x hx).trans hi.cycle,
      fun x hx h => (hhold x hx h).trans hi.cycle, fun op i hl hd => (congrArg Host.Outcome.next hop).trans (runOp_listed c _ _ (op, i) hl hd)⟩
  · exact congrArg Host.Outcome.next (issue_held s c ⟨hp, hending, hwait⟩ he (by rw [State.heldAt, heldByWait_iff]; exact hheld))
  · obtain ⟨w, hop, hw, hpc, hover⟩ := issue_uncorrectable s c ⟨hp, hending, hwait⟩ he
    have ho := countOverrun_spec w c
    generalize w.countOverrun c = z at hop ho
    have htick : w.tick.count = s.tick.count := by rw [hw.frame]
    have hregs : z.regs = w.regs := by rw [ho.frame]
    have htwice : (w.core c).twice w.tick.count = (s.core c).twice s.tick.count := by rw [hw.core, htick]; rfl
    obtain ⟨hdec, hpre⟩ := ho.rows (by rw [hw.core, CoreSt.stopped_marked])
    refine ⟨z, congrArg Host.Outcome.next hop, by rw [ho.frame, hw.frame], fun n hn => (ho.others n hn).trans (hw.others n hn),
      ho.repairs.trans (congrArg CoreSt.repairs hw.core), ho.idle (by rw [hw.core, CoreSt.stopped_prog]), ho.dropped (by rw [hw.core]; rfl),
      ho.mem.trans (congrArg CoreSt.mem hw.core :), hdec.trans (congrArg CoreSt.decRows hw.core :), hpre.trans (congrArg CoreSt.preRows hw.core :),
      ho.ticks.trans (by rw [hw.core, htick]; rfl), ?_, (get_congr hregs _).trans hpc, (get_congr hregs _) ▸ hover, fun h => ?_⟩
    · change _ = if (s.core c).twice s.tick.count = true then _ else _
      cases h2 : (s.core c).twice s.tick.count with
      | true => exact ho.failed (htwice.trans h2)
      | false => exact (ho.stays (htwice.trans h2)).trans (congrArg CoreSt.state hw.core :)
    · exact (ho.fields (h.imp htwice.trans fun hf => (congrArg CoreSt.state hw.core :).trans hf)).trans (by rw [hw.frame])

end Sys2Proof.Machine
end

section
/-! PROOFS. O53 fails where a core's prefill row table is not in ascending order: the rows dropped are then counted more than once. -/
namespace Sys2Proof.Machine
open Sys2Proof

/-- A core in a forward tuning program whose prefill row table lists row 5 before row 3; its field serves placement 0. -/
noncomputable def tuningOutOfOrder : State :=
  { cores := [(0, { preRows := [(5, { valid := true }), (3, { valid := true })], seq := { prog := 7 } })], fields := [(0, { placement := some 0 })] }

/-- Dropping row 3 writes it in front of row 5 and leaves its old entry behind, so that three rows count as cut. -/
theorem cut_tuningOutOfOrder : ((opPrefillIssueStop 0 tuningOutOfOrder).plc 0).tune.cut = 3 := by decide

/-- Refutes O53: the clause of a cut tuning program counts one row for each valid entry of the prefill row table before the cut, which the model
does for a table in ascending order only. -/
theorem not_programsRunInTheTick : ¬ Obligations.ProgramsRunInTheTick := by
  unfold Obligations.ProgramsRunInTheTick
  intro h
  obtain ⟨-, -, -, -, -, -, -, -, -, -, -, -, -, -, -, -, -, ⟨-, hcut, -⟩, -⟩ := h tuningOutOfOrder 0 0
  obtain ⟨z, hz, -, -, -, -, -, -, -, -, -, hplc⟩ := hcut 0 (.inl rfl) rfl rfl rfl (by decide)
  have hcounted : (z.plc 0).tune.cut = 2 := by rw [hplc]; rfl
  have hmodel : (z.plc 0).tune.cut = 3 := by rw [← Host.Outcome.next.inj hz]; exact cut_tuningOutOfOrder
  omega

end Sys2Proof.Machine
end

section
/-! PROOFS. What a field's steward does touches its own field alone; the maintenance slot (R52-R54, R57, R58, R69, R70, R77, R383). -/

namespace Sys2Proof.Machine
open Sys2Proof

/-! ### Orders that come by Gust -/

/-- A message that a steward has read leaves the channel with every entry of its number; nothing else of the module moves. -/
theorem ackGust_spec (s : State) (n : Nat) : let t := s.ackGust n
    t = { s with gust := t.gust } ∧ (∀ e ∈ t.gust, e ∈ s.gust)
    ∧ ∀ e ∈ s.gust, e.2 ≠ n → e ∈ t.gust ∨ ∃ y ∈ s.gust, y.2 = n ∧ y.1 = e.1 := by
  intro t
  cases hy : s.gust.find? (fun e => e.2 = n) with
  | none =>
    have ht : t = s := by simp only [t, State.ackGust, hy]
    rw [ht]
    exact ⟨rfl, fun _ h => h, fun _ h _ => .inl h⟩
  | some y =>
    have ht : t = { s with gust := s.gust.filter fun e => e.1 ≠ y.1 } := by simp only [t, State.ackGust, hy]
    rw [ht]
    refine ⟨rfl, fun e he => (List.mem_filter.1 he).1, fun e he _ => ?_⟩
    by_cases hn : e.1 = y.1
    · exact .inr ⟨y, List.mem_of_find?_eq_some hy, by simpa using List.find?_some hy, hn.symm⟩
    · exact .inl (List.mem_filter.2 ⟨he, by simpa using hn⟩)

/-- A steward that reads its message and changes its field. -/
theorem ackThenField (s : State) (f : Nat) (g : FieldSt → FieldSt) : let t := (s.ackGust (stewardId f)).updField f g
    t = { s with fields := t.fields, gust := t.gust } ∧ (∀ k, k ≠ f → t.field k = s.field k)
    ∧ ((∀ e ∈ t.gust, e ∈ s.gust) ∧ ∀ e ∈ s.gust, e.2 ≠ stewardId f → e ∈ t.gust ∨ ∃ y ∈ s.gust, y.2 = stewardId f ∧ y.1 = e.1)
    ∧ t.field f = g (s.field f) := by
  obtain ⟨hframe, hsub, hstay⟩ := ackGust_spec s (stewardId f)
  have hf : ∀ k, (s.ackGust (stewardId f)).field k = s.field k := fun k => field_congr (by rw [hframe]) k
  refine ⟨?_, fun k hk => (State.field_updField_other _ f k g hk).trans (hf k), ⟨hsub, hstay⟩, ?_⟩
  · obtain ⟨l, he⟩ : ∃ l, s.ackGust (stewardId f) = { s with gust := l } := ⟨_, hframe⟩
    rw [he]
    rfl
  · rw [State.field_updField, hf]

/-- A field changed, then events. -/
theorem updField_events {s t : State} {f : Nat} {g : FieldSt → FieldSt} (h : EventFrame (s.updField f g) t) :
    t = { s with fields := t.fields, regs := t.regs, host := t.host, out := t.out } ∧ t.field f = g (s.field f) ∧ ∀ k, k ≠ f → t.field k = s.field k := by
  obtain ⟨r, o, hh, rfl⟩ : ∃ r o hh, t = { s.updField f g with regs := r, out := o, host := hh } := ⟨_, _, _, h.frame⟩
  exact ⟨rfl, (field_congr rfl f).trans (State.field_updField s f g), fun k hk => (field_congr rfl k).trans (State.field_updField_other s f k g hk)⟩

noncomputable def FieldSt.vaneReported (x : FieldSt) : FieldSt := { x with vaneReport := true }

/-- The trim as VANE_TRIM_LOWER leaves it. -/
noncomputable def FieldSt.trimLowered (x : FieldSt) : FieldSt := { x with trim := x.trim - 10 }

/-- The rail set to a band. -/
noncomputable def FieldSt.setTo (x : FieldSt) (band : Nat) : FieldSt := { x with vlogMv := x.setPoint band, railBand := band }

noncomputable def FieldSt.raised (x : FieldSt) (band : Nat) : FieldSt := { x.setTo band with settled := false }

noncomputable def FieldSt.stopOrdered (off : Bool) (x : FieldSt) : FieldSt := if x.clock == .running then { x with clock := .stopping off } else x

noncomputable def FieldSt.wakeOrdered (x : FieldSt) : FieldSt := if x.clock == .stopped then { x with clock := .waking, wakeDeferred := 0 } else x

theorem stopOrdered_eq (off : Bool) (x : FieldSt) : x.stopOrdered off = { x with clock := if x.clock = .running then .stopping off else x.clock } := by
  unfold FieldSt.stopOrdered
  by_cases h : x.clock = .running
  · rw [if_pos (beq_iff_eq.2 h), if_pos h]
  · rw [if_neg (by simpa using h), if_neg h]

theorem opVaneLimit_spec (s : State) (f : Nat) : let t := opVaneLimit f s
    t.field f = (s.field f).vaneReported ∧ (∀ k, k ≠ f → t.field k = s.field k)
      ∧ t = { s with fields := t.fields, host := t.host, regs := t.regs, out := t.out } := by
  obtain ⟨hframe, hown, hothers⟩ := updField_events (g := FieldSt.vaneReported) (event_frame _ _)
  exact ⟨hown, hothers, hframe⟩

/-- The set point of a band, written to the rail: the field's own values and one register. -/
theorem writeSetPoint_spec (s : State) (f band : Nat) : let t := s.writeSetPoint f band
    t = { s with fields := t.fields, regs := t.regs } ∧ (∀ k, k ≠ f → t.field k = s.field k) ∧ t.field f = (s.field f).setTo band :=
  ⟨rfl, fun k hk => State.field_updField_other s f k (fun x => { x with vlogMv := (s.field f).setPoint band, railBand := band }) hk,
    State.field_updField s f fun x => { x with vlogMv := (s.field f).setPoint band, railBand := band }⟩

theorem opTrimLower_spec (s : State) (f : Nat) : let t := opTrimLower f s
    (∀ k, k ≠ f → t.field k = s.field k) ∧ t = { s with fields := t.fields, regs := t.regs } ∧ t.field f = (s.field f).trimLowered.setTo (s.field f).railBand := by
  obtain ⟨v, he⟩ : ∃ v, opTrimLower f s
    = ((s.updField f FieldSt.trimLowered).put (Reg.FPow.TRIM_MV f) v).writeSetPoint f ((s.updField f FieldSt.trimLowered).field f).railBand := ⟨_, rfl⟩
  have hown : (s.updField f FieldSt.trimLowered).field f = (s.field f).trimLowered := State.field_updField s f _
  obtain ⟨-, hothers, hset⟩ := writeSetPoint_spec ((s.updField f FieldSt.trimLowered).put (Reg.FPow.TRIM_MV f) v) f (s.field f).trimLowered.railBand
  rw [hown] at he
  rw [he]
  exact ⟨fun k hk => (hothers k hk).trans (State.field_updField_other s f k _ hk), rfl, hset.trans (congrArg (FieldSt.setTo · _) hown)⟩

theorem opRaise_spec (s : State) (f : Nat) : let t := opRaise f s
    t = { s with fields := t.fields, gust := t.gust, regs := t.regs } ∧ (∀ k, k ≠ f → t.field k = s.field k)
      ∧ ((∀ e ∈ t.gust, e ∈ s.gust) ∧ ∀ e ∈ s.gust, e.2 ≠ stewardId f → e ∈ t.gust ∨ ∃ y ∈ s.gust, y.2 = stewardId f ∧ y.1 = e.1)
      ∧ t.field f = (s.field f).raised (bandOf (s.tick.zenith - 1)) := by
  obtain ⟨hframe, hgust⟩ := ackGust_spec s (stewardId f)
  have hfield : ∀ k, (s.ackGust (stewardId f)).field k = s.field k := fun k => field_congr (by rw [hframe]) k
  obtain ⟨-, hothers, hown⟩ := writeSetPoint_spec (s.ackGust (stewardId f)) f (bandOf ((s.ackGust (stewardId f)).tick.zenith - 1))
  refine ⟨?_, fun k hk => (State.field_updField_other _ f k _ hk).trans ((hothers k hk).trans (hfield k)), hgust, (State.field_updField _ f _).trans ?_⟩
  · have hraise : opRaise f s = { s.ackGust (stewardId f) with fields := (opRaise f s).fields, regs := (opRaise f s).regs } := rfl
    exact hraise.trans (by rw [hframe]; rfl)
  · rw [hown, hfield, hframe]
    rfl

theorem opStop_spec (s : State) (f : Nat) (off : Bool) : let t := opStop f off s
    t = { s with fields := t.fields, gust := t.gust } ∧ (∀ k, k ≠ f → t.field k = s.field k)
      ∧ ((∀ e ∈ t.gust, e ∈ s.gust) ∧ ∀ e ∈ s.gust, e.2 ≠ stewardId f → e ∈ t.gust ∨ ∃ y ∈ s.gust, y.2 = stewardId f ∧ y.1 = e.1)
      ∧ t.field f = { s.field f with clock := if (s.field f).clock = .running then .stopping off else (s.field f).clock } :=
  stopOrdered_eq off (s.field f) ▸ ackThenField s f (FieldSt.stopOrdered off)

/-! ### The maintenance slot -/

/-- Between `s` and `t` the steward of field `f` worked on its cores: outside the field nothing moves but registers, its vane values stand, and a core
that has failed stays failed. -/
structure Tended (s t : State) (f : Nat) : Prop where
  frame : t = { s with fields := t.fields, cores := t.cores, regs := t.regs }
  others : ∀ g, g ≠ f → t.field g = s.field g
  margin : (t.field f).margin = (s.field f).margin
  goodRun : (t.field f).goodRun = (s.field f).goodRun
  trim : (t.field f).trim = (s.field f).trim
  cores : ∀ n, coreField n ≠ f → t.core n = s.core n
  failed : ∀ n, (s.core n).state = .failed → (t.core n).state = .failed

theorem Tended.refl (s : State) (f : Nat) : Tended s s f := ⟨rfl, fun _ _ => rfl, rfl, rfl, rfl, fun _ _ => rfl, fun _ h => h⟩

theorem Tended.trans {s t u : State} {f : Nat} (h : Tended s t f) (k : Tended t u f) : Tended s u f :=
  ⟨by rw [k.frame, h.frame], fun g hg => (k.others g hg).trans (h.others g hg), k.margin.trans h.margin, k.goodRun.trans h.goodRun,
    k.trim.trans h.trim, fun n hn => (k.cores n hn).trans (h.cores n hn), fun n hn => k.failed n (h.failed n hn)⟩

theorem Tended.regs {s t : State} (f : Nat) (h : t.sansRegs = s.sansRegs) : Tended s t f := by
  have hfields : t.fields = s.fields := (congrArg State.fields h :)
  have hcores : t.cores = s.cores := (congrArg State.cores h :)
  refine ⟨?_, fun g _ => field_congr hfields g, ?_, ?_, ?_, fun n _ => core_congr hcores n, fun n => by rw [core_congr hcores n]; exact id⟩
  · rw [hfields, hcores]
    exact eq_of_sansRegs h
  all_goals rw [field_congr hfields f]

theorem Tended.core (s : State) {c f : Nat} (hc : coreField c = f) (g : CoreSt → CoreSt) (hg : (s.core c).state = .failed → (g (s.core c)).state = .failed) :
    Tended s (s.updCore c g) f := by
  refine ⟨rfl, fun _ _ => rfl, rfl, rfl, rfl, fun n hn => State.core_updCore_other s c n g (fun e => hn (e ▸ hc)), fun n hn => ?_⟩
  by_cases e : n = c
  · subst e
    rw [State.core_updCore]
    exact hg hn
  · rwa [State.core_updCore_other s c n g e]

theorem Tended.field (s : State) (f : Nat) (g : FieldSt → FieldSt) (hm : (g (s.field f)).margin = (s.field f).margin)
    (hr : (g (s.field f)).goodRun = (s.field f).goodRun) (ht : (g (s.field f)).trim = (s.field f).trim) : Tended s (s.updField f g) f :=
  ⟨rfl, fun k hk => State.field_updField_other s f k g hk, by rw [State.field_updField, hm], by rw [State.field_updField, hr],
    by rw [State.field_updField, ht], fun _ _ => rfl, fun _ h => h⟩

theorem Tended.fold {α : Type} {f : Nat} (l : List α) (g : State → α → State) (h : ∀ t, ∀ x ∈ l, Tended t (g t x) f) (s : State) :
    Tended s (l.foldl g s) f := by
  induction l generalizing s with
  | nil => exact .refl s f
  | cons a l ih => exact (h s a (.head _)).trans (ih (fun t x hx => h t x (.tail _ hx)) (g s a))

theorem scrubBank_tended (s : State) (c b : Nat) : Tended s (s.scrubBank c b) (coreField c) := by
  unfold State.scrubBank
  dsimp only
  split
  · exact .refl s _
  · refine Tended.fold _ _ (fun t i _ => ?_) s
    split
    · exact .refl t _
    · exact (Tended.core t rfl (fun k => { k with scErr := k.scErr.del (57344 * b + ((s.core c).scrubWord + i) % 57344) }) id).trans
        (.regs _ (State.sansRegs_bump _ _))
    · exact (Tended.regs _ (State.sansRegs_bump t _)).trans
        (.core _ rfl (fun k => { k with bankErrors := (b, (t.bump (Reg.Core.SC_UNCORR (coreField c) (coreNum c))).tick.count) :: k.bankErrors }) id)

/-- Loading entries into a core's memory leaves its state. -/
theorem applyLoads_state (m : Mem) (l : List LoadEntry) (k : CoreSt) : (l.foldl (CoreSt.applyLoad m) k).state = k.state := by
  induction l generalizing k with
  | nil => rfl
  | cons e l ih => exact ih (k.applyLoad m e)

theorem repairCore_tended (s : State) (c : Nat) : Tended s (s.repairCore c) (coreField c) := by
  unfold State.repairCore
  refine Tended.trans (t := s.count (Reg.Core.PROG_REPAIR (coreField c) (coreNum c)) (s.core c).repairs.length) (.regs _ rfl) (.core _ rfl _ fun h => ?_)
  exact (applyLoads_state _ _ _).trans h

/-- Declaring a core failed: the core, its rows, and its field's lists. -/
theorem failCore_eq (s : State) (c : Nat) (h : (s.core c).state ≠ .failed) :
    ∃ (g : CoreSt → CoreSt) (l : List Nat) (a : List Absorb), s.failCore c
        = ((s.updCore c g).updCore c CoreSt.marked).updField (coreField c) (fun x => { x with failed := x.failed ++ l, absorb := a })
      ∧ ∀ k, (g k).state = .failed := by
  unfold State.failCore
  rw [if_neg (by simpa using h)]
  exact ⟨_, _, _, rfl, fun _ => rfl⟩

theorem failCore_tended (s : State) (c : Nat) : Tended s (s.failCore c) (coreField c) := by
  by_cases h : (s.core c).state = .failed
  · have hstay : s.failCore c = s := by
      unfold State.failCore
      rw [if_pos (by simpa using h)]
    rw [hstay]
    exact .refl s _
  · obtain ⟨g, l, a, he, hg⟩ := failCore_eq s c h
    rw [he]
    exact ((Tended.core s rfl g fun _ => hg _).trans (.core _ rfl CoreSt.marked id)).trans (.field _ _ _ rfl rfl rfl)

/-- A core declared failed is failed. -/
theorem failCore_failed (s : State) (c : Nat) : ((s.failCore c).core c).state = .failed := by
  by_cases h : (s.core c).state = .failed
  · exact (failCore_tended s c).failed c h
  · obtain ⟨g, l, a, he, hg⟩ := failCore_eq s c h
    have hcore : (s.failCore c).core c = (g (s.core c)).marked := by
      rw [he]
      exact (State.core_updCore _ c CoreSt.marked).trans (congrArg CoreSt.marked (State.core_updCore s c g))
    rw [hcore]
    exact hg _

theorem judgeCore_tended (s : State) (c : Nat) : Tended s (s.judgeCore c) (coreField c) := by
  unfold State.judgeCore
  simp only []
  split
  · exact (Tended.core s rfl _ id).trans (failCore_tended _ c)
  · exact .core s rfl _ id

theorem maintainCore_tended (s : State) (c : Nat) : Tended s (s.maintainCore c) (coreField c) := by
  have hscrub : Tended s (s.forAll (List.range 16) fun s b => s.scrubBank c b) (coreField c) :=
    Tended.fold _ _ (fun t b _ => scrubBank_tended t c b) s
  unfold State.maintainCore
  simp only []
  generalize s.forAll (List.range 16) (fun s b => s.scrubBank c b) = u at hscrub ⊢
  have hword := hscrub.trans (.core u rfl (fun k => { k with scrubWord := (k.scrubWord + u.scrubWords) % 57344 }) id)
  have hjudge := (hword.trans (repairCore_tended _ c)).trans (judgeCore_tended _ c)
  split
  · exact hword
  · split
    · exact hjudge
    · split
      · exact hjudge
      · exact hjudge.trans (.core _ rfl _ id)

theorem gaugeCore_tended (s : State) (c f : Nat) : Tended s (s.gaugeCore c) f :=
  .regs f (by simp only [State.gaugeCore, State.sansRegs_put])

/-- Cores whose self-check fails are failed in turn. -/
theorem failBad_spec (f : Nat) (l : List Nat) (s : State) (hl : ∀ n ∈ l, n < 32) : let t := l.foldl (fun s n => s.failCore (32 * f + n)) s
    Tended s t f ∧ ∀ n ∈ l, (t.core (32 * f + n)).state = .failed := by
  have hown : ∀ n, n < 32 → coreField (32 * f + n) = f := fun n hn => by unfold coreField; omega
  have hone : ∀ t : State, ∀ n, n < 32 → Tended t (t.failCore (32 * f + n)) f := fun t n hn => by
    have h := failCore_tended t (32 * f + n)
    rwa [hown n hn] at h
  induction l generalizing s with
  | nil => exact ⟨.refl s f, fun _ h => nomatch h⟩
  | cons a l ih =>
    obtain ⟨hrest, hfail⟩ := ih (s.failCore (32 * f + a)) fun n hn => hl n (.tail _ hn)
    refine ⟨(hone s a (hl a (.head _))).trans hrest, fun n hn => ?_⟩
    rcases List.mem_cons.1 hn with rfl | hn
    · exact hrest.failed _ (failCore_failed s _)
    · exact hfail n hn

/-- The vanes' part of the slot: the lowest margin and its run of good ticks. -/
noncomputable def State.vaneSlot (s : State) (f : Nat) (vanes : List Nat) : State :=
  match vanes with
  | [] => s
  | v :: vs => (s.updField f fun x => x.readVanes s.tick.vaneWarn s.tick.vaneRelease (bandOf s.tick.level) (vs.foldl min v)).vaneCritical f (vs.foldl min v)

theorem vaneCritical_frame (s : State) (f m : Nat) : EventFrame s (s.vaneCritical f m) := by
  unfold State.vaneCritical
  split
  · exact .refl s
  · exact event_frame s _

theorem vaneSlot_spec (s : State) (f : Nat) (vanes : List Nat) : let t := s.vaneSlot f vanes
    t = { s with fields := t.fields, regs := t.regs, host := t.host, out := t.out } ∧ (∀ g, g ≠ f → t.field g = s.field g)
    ∧ (vanes = [] → t = s) ∧ (∀ v vs, vanes = v :: vs → t.field f =
      (s.field f).readVanes s.tick.vaneWarn s.tick.vaneRelease (bandOf s.tick.level) (vs.foldl min v)) := by
  cases vanes with
  | nil => exact ⟨rfl, fun _ _ => rfl, fun _ => rfl, fun _ _ h => nomatch h⟩
  | cons v vs =>
    obtain ⟨hframe, hown, hothers⟩ := updField_events (f := f) (g := fun x => x.readVanes s.tick.vaneWarn s.tick.vaneRelease (bandOf s.tick.level) (vs.foldl min v))
      (vaneCritical_frame _ f (vs.foldl min v))
    refine ⟨hframe, hothers, (nomatch ·), fun w ws e => ?_⟩
    obtain ⟨rfl, rfl⟩ := List.cons.inj e
    exact hown

/-- The cores' part of the slot. -/
noncomputable def State.coreSlot (s : State) (f : Nat) (bad : List Nat) : State :=
  (((bad.filter (· < 32)).foldl (fun s n => s.failCore (32 * f + n)) (s.forAll (coresOf f) State.maintainCore)).forAll (coresOf f) State.gaugeCore)

theorem coreSlot_spec (s : State) (f : Nat) (bad : List Nat) :
    Tended s (s.coreSlot f bad) f ∧ ∀ n ∈ bad, n < 32 → ((s.coreSlot f bad).core (32 * f + n)).state = .failed := by
  have hmaintain : Tended s (s.forAll (coresOf f) State.maintainCore) f := Tended.fold _ _ (fun t c hc => by
    have h := maintainCore_tended t c
    rwa [(mem_coresOf f c).1 hc] at h) s
  obtain ⟨hbad, hfailed⟩ := failBad_spec f (bad.filter (· < 32)) (s.forAll (coresOf f) State.maintainCore)
    fun n hn => by simpa using (List.mem_filter.1 hn).2
  have hgauge : ∀ t : State, Tended t (t.forAll (coresOf f) State.gaugeCore) f := fun t => Tended.fold _ _ (fun u c _ => gaugeCore_tended u c f) t
  exact ⟨(hmaintain.trans hbad).trans (hgauge _), fun n hn hlt => (hgauge _).failed _ (hfailed n (List.mem_filter.2 ⟨hn, by simpa using hlt⟩))⟩

theorem field_copyWindow (s : State) (f k : Nat) : (s.copyWindow f).field k = s.field k := rfl
theorem core_copyWindow (s : State) (f n : Nat) : (s.copyWindow f).core n = s.core n := rfl

/-- What the whole slot moves, from what its two parts move. -/
theorem slot_frame {s u t : State} {f : Nat} (hu : u = { s with fields := u.fields, regs := u.regs, host := u.host, out := u.out }) (ht : Tended u t f) :
    let v := t.copyWindow f
    v = { s with fields := v.fields, cores := v.cores, regs := v.regs, windows := v.windows, host := v.host, out := v.out } := by
  obtain ⟨fl, r, h, o, rfl⟩ : ∃ fl r h o, u = { s with fields := fl, regs := r, host := h, out := o } := ⟨_, _, _, _, hu⟩
  obtain ⟨fl', c, r', rfl⟩ : ∃ fl' c r', t = { s with fields := fl', cores := c, regs := r', host := h, out := o } := ⟨_, _, _, ht.frame⟩
  rfl

theorem opMaintenance_running (s : State) (f : Nat) (vanes bad : List Nat) (hrun : s.tick.running = true) (hclock : (s.field f).clock = .running)
    (hservice : (s.field f).role ≠ .service) (hlost : (s.field f).role ≠ .lost) :
    opMaintenance f vanes bad s = ((s.vaneSlot f vanes).coreSlot f bad).copyWindow f := by
  unfold opMaintenance
  simp only [hrun, hclock, beq_eq_false_iff_ne.2 hservice, beq_eq_false_iff_ne.2 hlost]
  cases vanes <;> rfl

/-- What a slot of field `f` with these vane readings and self-checks does: `t` is `s` after it. -/
def Slotted (s t : State) (f : Nat) (vanes bad : List Nat) : Prop :=
  let x := s.field f
  (∀ g, g ≠ f → t.field g = s.field g)
  ∧ t = { s with fields := t.fields, cores := t.cores, regs := t.regs, windows := t.windows, host := t.host, out := t.out }
  ∧ (∀ n, coreField n ≠ f → t.core n = s.core n)
  ∧ (∀ n ∈ bad, n < 32 → (t.core (32 * f + n)).state = .failed)
  ∧ (vanes = [] → (t.field f).margin = x.margin ∧ (t.field f).goodRun = x.goodRun)
  ∧ (∀ v vs, vanes = v :: vs → (t.field f).margin = vs.foldl min v
    ∧ (t.field f).goodRun = (if s.tick.vaneRelease ≤ vs.foldl min v then x.goodRun + 1 else 0) ∧ (t.field f).trim = x.trim)

/-- Vanes (to `u`), then cores (to `t`), then the Zenith's copy of the window. -/
theorem slotted_of_parts {s u t : State} {f : Nat} {vanes bad : List Nat}
    (hframe : u = { s with fields := u.fields, regs := u.regs, host := u.host, out := u.out }) (hothers : ∀ g, g ≠ f → u.field g = s.field g)
    (hnil : vanes = [] → u = s)
    (hcons : ∀ v vs, vanes = v :: vs → u.field f =
      (s.field f).readVanes s.tick.vaneWarn s.tick.vaneRelease (bandOf s.tick.level) (vs.foldl min v))
    (hcores : Tended u t f) (hfailed : ∀ n ∈ bad, n < 32 → (t.core (32 * f + n)).state = .failed) : Slotted s (t.copyWindow f) f vanes bad := by
  have hcore : ∀ n, u.core n = s.core n := fun n => core_congr (congrArg State.cores hframe :) n
  refine ⟨fun g hg => (hcores.others g hg).trans (hothers g hg), slot_frame hframe hcores, fun n hn => (hcores.cores n hn).trans (hcore n), hfailed,
    fun h => ?_, fun v vs h => ?_⟩
  · obtain rfl := hnil h
    exact ⟨hcores.margin, hcores.goodRun⟩
  · have hx := hcons v vs h
    refine ⟨hcores.margin.trans ?_, hcores.goodRun.trans ?_, hcores.trim.trans ?_⟩ <;> rw [hx] <;> rfl

/-- The slot of a running field. -/
theorem opMaintenance_slotted (s : State) (f : Nat) (vanes bad : List Nat) (hrun : s.tick.running = true) (hclock : (s.field f).clock = .running)
    (hservice : (s.field f).role ≠ .service) (hlost : (s.field f).role ≠ .lost) : Slotted s (opMaintenance f vanes bad s) f vanes bad := by
  obtain ⟨hframe, hothers, hnil, hcons⟩ := vaneSlot_spec s f vanes
  obtain ⟨hcores, hfailed⟩ := coreSlot_spec (s.vaneSlot f vanes) f bad
  rw [opMaintenance_running s f vanes bad hrun hclock hservice hlost]
  exact slotted_of_parts hframe hothers hnil hcons hcores hfailed

/-- A bank whose initialisation is complete: its bit alone falls. -/
theorem opBankInit_spec (c b : Nat) (s : State) (hb : b < 16) : let t := opBankInit c b s
    t = { s with cores := t.cores } ∧ (∀ n, n ≠ c → t.core n = s.core n)
    ∧ (t.core c).bankInit.getLsbD b = false ∧ (∀ k, k ≠ b → (t.core c).bankInit.getLsbD k = (s.core c).bankInit.getLsbD k)
    ∧ t.core c = { s.core c with bankInit := (t.core c).bankInit } := by
  intro t
  have hcore : t.core c = { s.core c with bankInit :=
      (if (s.core c).bankInit.getLsbD b then (s.core c).bankInit &&& ~~~(BitVec.ofNat 16 (2 ^ b)) else (s.core c).bankInit) } := by
    refine (State.core_updCore s c _).trans ?_
    simp only [hb, decide_true, Bool.true_and]
    split <;> rfl
  have hbit : ∀ k, (BitVec.ofNat 16 (2 ^ b)).getLsbD k = (decide (k < 16) && decide (b = k)) := fun k => by
    rw [BitVec.getLsbD_ofNat, Nat.testBit_two_pow]
  have hnew : (t.core c).bankInit = if (s.core c).bankInit.getLsbD b then (s.core c).bankInit &&& ~~~(BitVec.ofNat 16 (2 ^ b))
      else (s.core c).bankInit := by rw [hcore]
  refine ⟨rfl, fun n hn => State.core_updCore_other s c n _ hn, ?_, fun k hk => ?_, by rw [hcore]⟩
  · rw [hnew]
    split
    case isTrue => simp only [BitVec.getLsbD_and, BitVec.getLsbD_not, hbit, hb, decide_true, Bool.and_self, Bool.not_true, Bool.and_false]
    case isFalse h => simpa using h
  · rw [hnew]
    split
    case isTrue =>
      simp only [BitVec.getLsbD_and, BitVec.getLsbD_not, hbit, decide_eq_false (Ne.symm hk), Bool.and_false, Bool.not_false, Bool.and_true]
      by_cases hk16 : k < 16
      · simp only [hk16, decide_true, Bool.and_true]
      · simp only [BitVec.getLsbD_of_ge _ k (Nat.le_of_not_lt hk16), Bool.false_and]
    case isFalse => rfl

section
variable (s : State) (f : Nat) (vanes bad : List Nat)

theorem opMaintenance_rests (h : s.tick.running = false ∨ (s.field f).role = .lost) : opMaintenance f vanes bad s = s :=
  if_pos (by simpa using h)

theorem opMaintenance_copies (hrun : s.tick.running = true) (hlost : (s.field f).role ≠ .lost)
    (h : (s.field f).role = .service ∨ ∃ off, (s.field f).clock = .gated off) : opMaintenance f vanes bad s = s.copyWindow f := by
  unfold opMaintenance
  obtain h | ⟨off, h⟩ := h
  · simp [h, hrun]
  · simp [h, hrun, hlost]

theorem opMaintenance_stopped (hservice : (s.field f).role ≠ .service) (hstop : ¬∃ off, (s.field f).clock = .gated off)
    (hclock : (s.field f).clock ≠ .running) : opMaintenance f vanes bad s = s := by
  unfold opMaintenance
  cases hc : (s.field f).clock with
  | running => exact absurd hc hclock
  | gated off => exact absurd ⟨off, hc⟩ hstop
  | _ => simp [hservice, hc]

end

/-- Settles O45: each report and order of a steward is a change of its field, and the slot works on the field's own cores. -/
theorem stewardsActOnTheirFieldAlone : Obligations.StewardsActOnTheirFieldAlone := by
  refine ⟨fun s f _ => ⟨⟨_, rfl, opVaneLimit_spec s f⟩, ⟨_, rfl, opTrimLower_spec s f⟩, ?_, ⟨_, rfl, rfl, State.field_updField s f _, fun g hg => State.field_updField_other s f g _ hg⟩,
      ⟨_, rfl, opRaise_spec s f⟩, fun off => ⟨_, rfl, opStop_spec s f off⟩, ?_, fun c b hb => ⟨_, rfl, opBankInit_spec c b s hb⟩⟩,
    fun s f vanes bad _ => ⟨fun h => congrArg Host.Outcome.next (opMaintenance_rests s f vanes bad h),
      fun hrun hlost h => congrArg Host.Outcome.next (opMaintenance_copies s f vanes bad hrun hlost h),
      fun hservice hstop hclock => congrArg Host.Outcome.next (opMaintenance_stopped s f vanes bad hservice hstop hclock),
      fun hrun hclock hservice hlost => ⟨_, rfl, opMaintenance_slotted s f vanes bad hrun hclock hservice hlost⟩⟩⟩
  · refine ⟨_, rfl, rfl, State.get_put _ _ _ (by decide) (by decide) ?_⟩
    split <;> decide
  · obtain ⟨hframe, hothers, hheard, hown⟩ := ackThenField s f FieldSt.wakeOrdered
    exact ⟨opWake f s, rfl, hframe, hothers, hheard, fun h => hown.trans (if_pos (beq_iff_eq.2 h)), fun h => hown.trans (if_neg fun h' => h (eq_of_beq h'))⟩

end Sys2Proof.Machine
end

section
/-! SUPPORT. What reports leave: registers, event bookkeeping and the module's outputs; a report stands while others follow (R374, R394). -/

namespace Sys2Proof.Machine
open Sys2Proof

/-! ### Announcements -/

/-- `t` is `s` but for registers, the host interface's bookkeeping and what left the module; every answer stands. -/
structure Announced (s t : State) : Prop where
  frame : t = { s with regs := t.regs, host := t.host, out := t.out }
  answers : ∀ o : Src, t.answersTo o = s.answersTo o

theorem Announced.refl (s : State) : Announced s s := ⟨rfl, fun _ => rfl⟩

theorem Announced.trans {s t u : State} (h : Announced s t) (k : Announced t u) : Announced s u :=
  ⟨by rw [k.frame, h.frame], fun o => (k.answers o).trans (h.answers o)⟩

theorem Announced.put (s : State) (f : Fld) (v : Nat) : Announced s (s.put f v) := ⟨rfl, fun o => by cases o <;> rfl⟩
theorem Announced.mark (s : State) (f : Fld) : Announced s (s.mark f) := .put s f 1

theorem EventFrame.announced {s t : State} (h : EventFrame s t) : Announced s t := by
  obtain ⟨r, o, hh, rfl⟩ : ∃ r o hh, t = { s with regs := r, out := o, host := hh } := ⟨_, _, _, h.frame⟩
  exact ⟨rfl, h.answers⟩

theorem Announced.event (s : State) (e : Event) : Announced s (s.event e) := (event_frame s e).announced

/-! ### Reports that stand -/

/-- From `s` to `t` reports are added: none that was given or waits is taken back, and EVT_OVERFLOW stays set. -/
structure ReportsKept (s t : State) : Prop where
  given : s.eventsGiven <+: t.eventsGiven
  late : s.host.late <+: t.host.late
  overflow : s.get Reg.Hwin.EVT_OVERFLOW = 1 → t.get Reg.Hwin.EVT_OVERFLOW = 1

theorem ReportsKept.refl (s : State) : ReportsKept s s := ⟨List.prefix_rfl, List.prefix_rfl, id⟩

theorem ReportsKept.trans {s t u : State} (h : ReportsKept s t) (k : ReportsKept t u) : ReportsKept s u :=
  ⟨h.given.trans k.given, h.late.trans k.late, fun x => k.overflow (h.overflow x)⟩

theorem ReportsKept.put (s : State) (f : Fld) (v : Nat) (hl : f.lo ≤ f.hi) (h : 6 < f.lo ∨ f.hi < 6 ∨ (0x50060 : Nat) ≠ f.addr) : ReportsKept s (s.put f v) :=
  ⟨List.prefix_rfl, List.prefix_rfl, fun x => (State.get_put_apart s f Reg.Hwin.EVT_OVERFLOW v (by decide) hl (by decide) h).trans x⟩

theorem ReportsKept.bump (s : State) (f : Fld) (hl : f.lo ≤ f.hi) (h : 6 < f.lo ∨ f.hi < 6 ∨ (0x50060 : Nat) ≠ f.addr) : ReportsKept s (s.bump f) :=
  .put s f _ hl h

theorem ReportsKept.mark (s : State) (f : Fld) (hl : f.lo ≤ f.hi) (h : 6 < f.lo ∨ f.hi < 6 ∨ (0x50060 : Nat) ≠ f.addr) : ReportsKept s (s.mark f) :=
  .put s f 1 hl h

theorem ReportsKept.overflowed (s : State) : ReportsKept s (s.mark Reg.Hwin.EVT_OVERFLOW) :=
  ⟨List.prefix_rfl, List.prefix_rfl, fun _ => get_mark s _ (by decide) (by decide)⟩

/-- A change that leaves registers, the host interface and the outputs. -/
theorem ReportsKept.of_eq {s t : State} (hr : t.regs = s.regs) (hh : t.host = s.host) (ho : t.out = s.out) : ReportsKept s t :=
  ⟨by rw [State.eventsGiven, State.eventsGiven, hh, ho], by rw [hh], fun x => (get_congr hr _).trans x⟩

theorem writeEvent_kept (s : State) (e : Event) (h : s.host.eventQueue = []) : ReportsKept s (s.writeEvent e) := by
  refine ⟨⟨[e], ?_⟩, List.prefix_rfl, fun x => (State.get_put_other (s.emit (.event e)) Reg.Hwin.EVENT_SEQ Reg.Hwin.EVT_OVERFLOW e.seq (by decide)).trans x⟩
  simp [State.eventsGiven, State.writeEvent, eventsIn_append, eventsIn, h]

theorem recordEvent_kept (s : State) (e : Event) : ReportsKept s (s.recordEvent e) := by
  have hseq (n : Nat) : ReportsKept s (s.updHost fun h => { h with eventSeq := n }) := ⟨List.prefix_rfl, List.prefix_rfl, id⟩
  unfold State.recordEvent
  split
  · exact .refl s
  · dsimp only
    split
    case isTrue h =>
      simp only [Bool.and_eq_true, List.isEmpty_iff] at h
      exact (hseq _).trans (writeEvent_kept _ _ h.1)
    case isFalse =>
      split
      · exact ⟨by simp [State.eventsGiven], List.prefix_rfl, id⟩
      · exact (hseq _).trans ((ReportsKept.bump _ _ (by decide) (by decide)).trans (.overflowed _))

theorem event_kept (s : State) (e : Event) : ReportsKept s (s.event e) := by
  unfold State.event
  dsimp only
  split
  · exact foldl_related ReportsKept.refl ReportsKept.trans _ _ (fun t _ => recordEvent_kept t _) s
  · exact ⟨List.prefix_rfl, ⟨_, rfl⟩, id⟩

/-- A report stands while others follow. -/
theorem Reported.kept {s t u : State} {c : Nat} (h : Reported s t c) (k : ReportsKept t u) : Reported s u c := by
  unfold Reported at h ⊢
  split
  case isTrue hz =>
    rw [if_pos hz] at h
    obtain h | h | ⟨l, hl, e, he, hc⟩ := h
    · exact .inl h
    · exact .inr (.inl (k.overflow h))
    · obtain ⟨m, hm⟩ := k.given
      exact .inr (.inr ⟨l ++ m, by rw [← hm, hl, List.append_assoc], e, List.mem_append_left m he, hc⟩)
  case isFalse hz =>
    rw [if_neg hz] at h
    obtain ⟨l, hl, e, he, hc⟩ := h
    obtain ⟨m, hm⟩ := k.late
    exact ⟨l ++ m, by rw [← hm, hl, List.append_assoc], e, List.mem_append_left m he, hc⟩

/-- What was reported since `s` was reported since any state with the same firmware, events and outputs. -/
theorem Reported.since {s u t : State} {c : Nat} (h : Reported u t c) (hb : u.boot = s.boot) (hm : u.host.mask = s.host.mask)
    (hl : u.host.late = s.host.late) (hg : u.eventsGiven = s.eventsGiven) : Reported s t c := by
  unfold Reported at h ⊢
  rw [State.zenithServing, hb, hm, hl, hg] at h
  exact h

/-- An event without stages, told after other changes that leave events and outputs. -/
theorem reported_after {s u : State} {e : Event} (he : e.stages = []) (hb : u.boot = s.boot) (hh : u.host = s.host) (ho : u.out = s.out) :
    Reported s (u.event e) e.code :=
  (event_reported u e he).since hb (by rw [hh]) (by rw [hh]) (by rw [State.eventsGiven, State.eventsGiven, hh, ho])

end Sys2Proof.Machine
end

section
/-! PROOFS. What the Ceiling unit and the power manager do at their events (R54-R56, R329, R330, R335-R337). -/

namespace Sys2Proof.Machine
open Sys2Proof

/-! ### Forced stretch (R56, R336) -/

/-- The power manager's readings once the millisecond's power and the voltage are measured. -/
noncomputable def PowerMgr.measuredAt (q : PowerMgr) (p vin : Nat) : PowerMgr := { q with p1 := p, vin := vin, uv := decide (vin < 47000) }

theorem measure_frame (s : State) (p vin : Nat) : ∃ r, s.measure p vin = { s with power := s.power.measuredAt p vin, regs := r } := ⟨_, rfl⟩

/-- Measuring leaves the registers of other units. -/
theorem measure_get (s : State) (p vin : Nat) (f : Fld) (h : f.addr ∉ [Reg.Pow.PIN_1MS.addr, Reg.Pow.VIN.addr, Reg.Pow.UV.addr, Reg.Ceil.PLIM.addr]) :
    (s.measure p vin).get f = s.get f := by
  simp only [List.mem_cons, List.not_mem_nil, or_false, not_or] at h
  obtain ⟨h1, h2, h3, h4⟩ := h
  rw [State.measure, State.get_put_other _ _ _ _ h4, State.get_put_other _ _ _ _ h3, State.get_put_other _ _ _ _ h2, State.get_put_other _ _ _ _ h1]
  exact get_congr rfl f

theorem forcing_announced (s : State) (g : State → State) : Announced (g s) (s.forcing g) := by
  unfold State.forcing
  dsimp only
  split
  · exact (Announced.put _ _ _).trans ((Announced.mark _ _).trans (.event _ _))
  · split
    · exact (Announced.put _ _ _).trans (.event _ _)
    · exact .put _ _ _

/-- The start of forced stretch is reported. -/
theorem forcing_reported (s : State) (g : State → State) (hwas : s.get Reg.Tick.FORCED = 0) (hnow : (g s).forcedAbove = true) :
    Reported (g s) (s.forcing g) 0x0208 := by
  unfold State.forcing
  have hnot : (s.get Reg.Tick.FORCED == 1) = false := by rw [hwas]; rfl
  simp only [hnot, hnow, Bool.not_false, Bool.and_self, if_true]
  exact reported_after rfl rfl rfl rfl

/-- The forced level as it is asked for. -/
noncomputable def State.forceTo (n : Nat) (s : State) : State := (s.updTick fun t => { t with forced := n }).put Reg.Ceil.FORCED_LEVEL n

theorem setForced_eq (s : State) (n : Nat) : s.setForced n = s.forcing (State.forceTo n) := rfl

/-- The level forced, as reports leave it. -/
noncomputable def State.forced (s : State) (n : Nat) (r : Tbl W32) (h : HostSt) (o : List Out) : State :=
  { s with tick := { s.tick with forced := n }, regs := r, host := h, out := o }

theorem setForced_forced (s : State) (n : Nat) : s.setForced n = s.forced n (s.setForced n).regs (s.setForced n).host (s.setForced n).out :=
  (forcing_announced s (State.forceTo n)).frame

theorem setForced_reported (s : State) (n : Nat) (hwas : s.get Reg.Tick.FORCED = 0) (hn : s.usable < n) : Reported s (s.setForced n) 0x0208 := by
  refine (forcing_reported s (State.forceTo n) hwas ?_).since rfl rfl rfl rfl
  have hdec : decide (s.usable < n) = true := decide_eq_true hn
  exact Bool.or_eq_true_iff.2 (.inl (Bool.or_eq_true_iff.2 (.inl hdec)))

/-- What a follower's watch over its forced level moves: the tick's own demand, the links and what reports move. -/
def ForceWatched (s t : State) : Prop :=
  t = { s with tick := { s.tick with zenith := t.tick.zenith }, links := t.links, regs := t.regs, host := t.host, out := t.out }

theorem ForceWatched.announced {s t u : State} (h : ForceWatched s t) (k : Announced t u) : ForceWatched s u := by
  obtain ⟨r, hh, o, rfl⟩ : ∃ r hh o, u = { t with regs := r, host := hh, out := o } := ⟨_, _, _, k.frame⟩
  exact congrArg (fun t : State => { t with regs := r, host := hh, out := o }) h

theorem enterHoldover_watched (s : State) : ForceWatched s s.enterHoldover := by
  unfold State.enterHoldover
  split
  · exact rfl
  · dsimp only
    refine ForceWatched.announced ?_ ((Announced.mark _ _).trans (.event _ _))
    exact rfl

theorem watchForce_watched (s : State) : ForceWatched s s.watchForce := by
  unfold State.watchForce
  split
  · exact rfl
  · dsimp only
    split
    · exact rfl
    · split
      · exact rfl
      · split
        · exact rfl
        · split
          · exact enterHoldover_watched s
          · exact rfl

theorem enterHoldover_kept (s : State) : ReportsKept s s.enterHoldover := by
  unfold State.enterHoldover
  split
  · exact .refl s
  · dsimp only
    refine ReportsKept.trans ?_ (event_kept _ _)
    refine ReportsKept.trans ?_ (.mark _ Reg.Link.MASTER_LOST (by decide) (by decide))
    exact .of_eq rfl rfl rfl

theorem watchForce_kept (s : State) : ReportsKept s s.watchForce := by
  unfold State.watchForce
  split
  · exact .refl s
  · dsimp only
    split
    · exact .of_eq rfl rfl rfl
    · split
      · exact .of_eq rfl rfl rfl
      · split
        · exact .of_eq rfl rfl rfl
        · split
          · exact enterHoldover_kept s
          · exact .refl s

theorem watchForce_master (s : State) (h : s.following = false) : s.watchForce = s := by
  unfold State.watchForce
  rw [h]
  rfl

/-- The module measured and a level forced, as reports leave it. -/
noncomputable def State.forcedAt (s : State) (p vin n : Nat) (r : Tbl W32) (h : HostSt) (o : List Out) : State :=
  { s with power := s.power.measuredAt p vin, tick := { s.tick with forced := n }, regs := r, host := h, out := o }

theorem measured_forced (s : State) (p vin n : Nat) : ∃ r h o, (s.measure p vin).setForced n = s.forcedAt p vin n r h o
    ∧ (s.usable < n → s.get Reg.Tick.FORCED = 0 → Reported s ((s.measure p vin).setForced n) 0x0208) := by
  have hwas : (s.measure p vin).get Reg.Tick.FORCED = s.get Reg.Tick.FORCED := measure_get s p vin _ (by decide)
  obtain ⟨r, hm⟩ := measure_frame s p vin
  rw [hm] at hwas ⊢
  exact ⟨_, _, _, setForced_forced _ n, fun hn hz => (setForced_reported _ n (hwas.trans hz) hn).since rfl rfl rfl rfl⟩

/-- Above its limit the module forces one level more. -/
theorem opPowerLimit_above (s : State) (p vin : Nat) (h : min 22000 (420 * vin / 1000) < p) : let t := opPowerLimit p vin s
    let measured := s.power.measuredAt p vin
    t.power = measured ∧ t.tick.forced = max s.tick.forced (min 100 (s.tick.level + 1)) ∧ t.tick.level = s.tick.level
    ∧ t = { s with power := measured, tick := t.tick, links := t.links, regs := t.regs, host := t.host, out := t.out }
    ∧ (s.following = false → t.tick = { s.tick with forced := t.tick.forced } ∧ t.links = s.links)
    ∧ (s.usable < t.tick.forced → s.get Reg.Tick.FORCED = 0 → Reported s t 0x0208) := by
  have hop : opPowerLimit p vin s = ((s.measure p vin).setForced (max s.tick.forced (min 100 (s.tick.level + 1)))).watchForce := if_pos h
  rw [hop]
  generalize max s.tick.forced (min 100 (s.tick.level + 1)) = n
  obtain ⟨r, hh, o, hf, htold⟩ := measured_forced s p vin n
  rw [hf] at htold ⊢
  have hw := watchForce_watched (s.forcedAt p vin n r hh o)
  have hkept := watchForce_kept (s.forcedAt p vin n r hh o)
  have hmaster := watchForce_master (s.forcedAt p vin n r hh o)
  generalize (s.forcedAt p vin n r hh o).watchForce = t at hw hkept hmaster ⊢
  have hn : t.tick.forced = n := (congrArg (fun t => t.tick.forced) hw :)
  refine ⟨(congrArg State.power hw :), hn, (congrArg (fun t => t.tick.level) hw :), ?_, fun hs => ?_, fun hu hz => (htold (hn ▸ hu) hz).kept hkept⟩
  · exact hw.trans (congrArg (fun x => { s.forcedAt p vin n r hh o with tick := x, links := t.links, regs := t.regs, host := t.host, out := t.out })
      (congrArg State.tick hw :).symm)
  · rw [hmaster hs]
    exact ⟨rfl, rfl⟩

/-! ### The ladder (R335, R337) -/

/-- The readings `q` with what an action of the ladder may set taken from `x`. -/
noncomputable def PowerMgr.ladderedTo (q x : PowerMgr) : PowerMgr := { q with
  ladder := x.ladder, shareBound := x.shareBound, depthLimit := x.depthLimit, depthLog := x.depthLog, releaseMs := x.releaseMs, alert := x.alert }

/-- The state `s` with what an action of the ladder may move taken from `t`. -/
noncomputable def State.ladderedTo (s t : State) : State := { s with
  power := s.power.ladderedTo t.power, tick := { s.tick with capDemand := t.tick.capDemand }
  regs := t.regs, mgmt := t.mgmt, host := t.host, out := t.out }

/-- An action of the ladder leads from `s` to `t`. -/
structure LadderActed (s t : State) : Prop where
  frame : t = s.ladderedTo t
  answers : ∀ o : Src, t.answersTo o = s.answersTo o

theorem LadderActed.refl (s : State) : LadderActed s s := ⟨rfl, fun _ => rfl⟩

theorem LadderActed.trans {s t u : State} (h : LadderActed s t) (k : LadderActed t u) : LadderActed s u :=
  ⟨k.frame.trans (congrArg (State.ladderedTo · u) h.frame :), fun o => (k.answers o).trans (h.answers o)⟩

/-- An action that sends nothing. -/
theorem LadderActed.of_quiet {s t : State} (hf : t = { s.ladderedTo t with mgmt := s.mgmt, host := s.host, out := s.out }) : LadderActed s t := by
  have hm : t.mgmt = s.mgmt := (congrArg State.mgmt hf :)
  have hh : t.host = s.host := (congrArg State.host hf :)
  have ho : t.out = s.out := (congrArg State.out hf :)
  exact ⟨hf.trans (by rw [← hm, ← hh, ← ho]; rfl), answersTo_frame ho hh⟩

theorem Announced.ladder {s t : State} (h : Announced s t) : LadderActed s t := by
  obtain ⟨r, hh, o, rfl⟩ : ∃ r hh o, t = { s with regs := r, host := hh, out := o } := ⟨_, _, _, h.frame⟩
  exact ⟨rfl, h.answers⟩

/-- PWR_ALERT_N leaves the answers as they are. -/
theorem setAlert_ladder (s : State) (on : Bool) : LadderActed s (s.setAlert on) := by
  unfold State.setAlert
  split
  · exact .refl s
  · refine ⟨rfl, fun o => ?_⟩
    cases o <;> simp [State.answersTo, repliesIn_append, repliesIn, bmcRepliesIn_append, bmcRepliesIn]

theorem pmIn_ladder (s : State) (page b : Nat) : LadderActed s (s.pmInput page b) :=
  LadderActed.trans (t := s.updMgmt fun m => { m with statusInput := orAt m.statusInput page b }) ⟨rfl, fun o => by cases o <;> rfl⟩ (setAlert_ladder _ true)

/-- The step that no action helps any more: CAP_HELD, the alert and its report. -/
noncomputable def State.capHeld (s : State) : State :=
  (((s.setLadder 5).mark Reg.Pow.CAP_HELD).pmInput 0 0).event { code := 0x0206, detail := le4 44 s.power.capEff }

theorem capHeld_ladder (s : State) : LadderActed s s.capHeld :=
  (LadderActed.of_quiet (s := s) (t := (s.setLadder 5).mark Reg.Pow.CAP_HELD) rfl).trans ((pmIn_ladder _ 0 0).trans (Announced.event _ _).ladder)

/-- The shares' bounds, each 5 points below the lower of the grant and the bound. -/
noncomputable def State.loweredBounds (s : State) : Tbl Nat :=
  s.livePlacements.foldl (fun t q => t.set q (min (s.plc q).hostGrant (s.boundOf q) - 5)) s.power.shareBound

section up
variable (s : State)

theorem ladderUp_first (h : s.power.ladder = 0) : s.ladderUp = s.setLadder 1 := if_pos h

theorem ladderUp_within (h : s.power.ladder ≠ 0) (hp : s.power.p1 ≤ s.power.capEff) : s.ladderUp = s := by
  simp only [State.ladderUp, if_neg h, if_pos hp]

theorem ladderUp_shares (h : s.power.ladder ≠ 0) (hp : ¬s.power.p1 ≤ s.power.capEff) (hs : ∃ q ∈ s.livePlacements, s.boundOf q ≠ 0) :
    s.ladderUp = (s.updPower fun p => { p with shareBound := s.loweredBounds }).setLadder (max 2 s.power.ladder) := by
  have hany : (s.livePlacements.any fun q => s.boundOf q ≠ 0) = true := by simpa using hs
  simp only [State.ladderUp, if_neg h, if_neg hp, if_pos hany]
  rfl

theorem ladderUp_depth (h : s.power.ladder ≠ 0) (hp : ¬s.power.p1 ≤ s.power.capEff) (hs : ¬∃ q ∈ s.livePlacements, s.boundOf q ≠ 0)
    (hd : 1 < min s.power.depthLimit s.topDepth) :
    s.ladderUp = (s.setDepthLimit (min s.power.depthLimit s.topDepth - 1)).setLadder (max 3 s.power.ladder) := by
  have hany : ¬(s.livePlacements.any fun q => s.boundOf q ≠ 0) = true := by simpa using hs
  simp only [State.ladderUp, if_neg h, if_neg hp, if_neg hany, if_pos hd]

theorem ladderUp_demand (h : s.power.ladder ≠ 0) (hp : ¬s.power.p1 ≤ s.power.capEff) (hs : ¬∃ q ∈ s.livePlacements, s.boundOf q ≠ 0)
    (hd : ¬1 < min s.power.depthLimit s.topDepth) (hu : s.tick.capDemand < s.usable) :
    s.ladderUp = (s.setCapDemand (s.tick.capDemand + 1)).setLadder 4 := by
  have hany : ¬(s.livePlacements.any fun q => s.boundOf q ≠ 0) = true := by simpa using hs
  simp only [State.ladderUp, if_neg h, if_neg hp, if_neg hany, if_neg hd, if_pos hu]

theorem ladderUp_held (h : s.power.ladder ≠ 0) (hp : ¬s.power.p1 ≤ s.power.capEff) (hs : ¬∃ q ∈ s.livePlacements, s.boundOf q ≠ 0)
    (hd : ¬1 < min s.power.depthLimit s.topDepth) (hu : ¬s.tick.capDemand < s.usable) :
    s.ladderUp = if s.power.ladder = 5 then s else s.capHeld := by
  have hany : ¬(s.livePlacements.any fun q => s.boundOf q ≠ 0) = true := by simpa using hs
  simp only [State.ladderUp, if_neg h, if_neg hp, if_neg hany, if_neg hd, if_neg hu]
  rfl

theorem ladderUp_acted : LadderActed s s.ladderUp := by
  unfold State.ladderUp
  dsimp only
  split
  · exact .of_quiet rfl
  · split
    · exact .refl s
    · split
      · exact .of_quiet rfl
      · split
        · exact .of_quiet rfl
        · split
          · exact .of_quiet rfl
          · split
            · exact .refl s
            · exact capHeld_ladder s

end up

/-! The releasing actions. -/

/-- One more millisecond below the cap. -/
noncomputable def State.waited (s : State) : State := s.updPower fun p => { p with releaseMs := s.power.releaseMs + 1 }
/-- The time of release begins again. -/
noncomputable def State.rested (s : State) : State := s.updPower fun p => { p with releaseMs := 0 }

/-- Every live placement's bound has reached what its plan was sized for. -/
noncomputable def State.boundsFull (s : State) : Bool := s.livePlacements.all fun q => (s.plc q).plan.sized ≤ s.boundOf q + 5
/-- The shares' bounds, each 5 points up. -/
noncomputable def State.raisedBounds (s : State) : Tbl Nat := s.livePlacements.map fun q => (q, min (s.plc q).plan.sized (s.boundOf q + 5))

section down
variable (s : State)

theorem ladderDown_off (h : s.power.ladder = 0) : s.ladderDown = s.rested := by
  simp only [State.ladderDown, if_pos h]
  rfl

theorem ladderDown_demandWait (h : s.power.ladder ≠ 0) (hd : 0 < s.tick.capDemand) (hn : s.power.releaseMs + 1 < 10) : s.ladderDown = s.waited := by
  simp only [State.ladderDown, if_neg h, if_pos hd, if_pos hn]
  rfl

theorem ladderDown_demand (h : s.power.ladder ≠ 0) (hd : 0 < s.tick.capDemand) (hn : ¬s.power.releaseMs + 1 < 10) :
    s.ladderDown = (s.setCapDemand (s.tick.capDemand - 1)).rested.setLadder
      (if 0 < s.tick.capDemand - 1 then 4 else if s.power.depthLimit ≠ 16 then 3 else if !s.power.shareBound.isEmpty then 2 else 1) := by
  simp only [State.ladderDown, if_neg h, if_pos hd, if_neg hn]
  rfl

theorem ladderDown_wait (h : s.power.ladder ≠ 0) (hd : ¬0 < s.tick.capDemand) (hn : s.power.releaseMs + 1 < 100) : s.ladderDown = s.waited := by
  simp only [State.ladderDown, if_neg h, if_neg hd, if_pos hn, ite_self]
  rfl

theorem ladderDown_depth (h : s.power.ladder ≠ 0) (hd : ¬0 < s.tick.capDemand) (hn : ¬s.power.releaseMs + 1 < 100) (hl : s.power.depthLimit ≠ 16) :
    s.ladderDown = if s.topDepth ≤ s.power.depthLimit + 1 then ((s.setDepthLimit 16).setLadder (if s.power.shareBound.isEmpty then 1 else 2)).rested
      else ((s.setDepthLimit (s.power.depthLimit + 1)).setLadder 3).rested := by
  simp only [State.ladderDown, if_neg h, if_neg hd, if_neg hn, if_pos hl]
  rfl

theorem ladderDown_shares (h : s.power.ladder ≠ 0) (hd : ¬0 < s.tick.capDemand) (hn : ¬s.power.releaseMs + 1 < 100) (hl : ¬s.power.depthLimit ≠ 16)
    (hb : s.power.shareBound ≠ []) :
    s.ladderDown = ((s.updPower fun p => { p with shareBound := if s.boundsFull then [] else s.raisedBounds }).setLadder (if s.boundsFull then 1 else 2)).rested := by
  have hne : (!s.power.shareBound.isEmpty) = true := by simpa using hb
  simp only [State.ladderDown, if_neg h, if_neg hd, if_neg hn, if_neg hl, if_pos hne]
  rfl

theorem ladderDown_last (h : s.power.ladder ≠ 0) (hd : ¬0 < s.tick.capDemand) (hn : ¬s.power.releaseMs + 1 < 100) (hl : ¬s.power.depthLimit ≠ 16)
    (hb : s.power.shareBound = []) : s.ladderDown = (s.setLadder 0).rested := by
  have hne : ¬(!s.power.shareBound.isEmpty) = true := by simp [hb]
  simp only [State.ladderDown, if_neg h, if_neg hd, if_neg hn, if_neg hl, if_neg hne]
  rfl

theorem rested_acted : LadderActed s s.rested := .of_quiet rfl
theorem waited_acted : LadderActed s s.waited := .of_quiet rfl

theorem ladderDown_acted : LadderActed s s.ladderDown := by
  by_cases h : s.power.ladder = 0
  · rw [ladderDown_off s h]
    exact rested_acted s
  by_cases hd : 0 < s.tick.capDemand
  · by_cases hn : s.power.releaseMs + 1 < 10
    · rw [ladderDown_demandWait s h hd hn]
      exact waited_acted s
    · rw [ladderDown_demand s h hd hn]
      exact .of_quiet rfl
  by_cases hn : s.power.releaseMs + 1 < 100
  · rw [ladderDown_wait s h hd hn]
    exact waited_acted s
  by_cases hl : s.power.depthLimit = 16
  · by_cases hb : s.power.shareBound = []
    · rw [ladderDown_last s h hd hn (not_not.2 hl) hb]
      exact .of_quiet rfl
    · rw [ladderDown_shares s h hd hn (not_not.2 hl) hb]
      exact .of_quiet rfl
  · rw [ladderDown_depth s h hd hn hl]
    split
    · exact .of_quiet rfl
    · exact .of_quiet rfl

end down

/-! The values that an evaluation leaves. -/

/-- A state after an evaluation: the ladder's step, the depth limit, the demand and the time of release. -/
def LadderAt (t : State) (step depth demand ms : Nat) : Prop :=
  t.power.ladder = step ∧ t.power.depthLimit = depth ∧ t.tick.capDemand = demand ∧ t.power.releaseMs = ms

/-- A bound that every live placement is given in turn. -/
theorem foldl_set_getD {l : List Nat} {f : Nat → Nat} {t : Tbl Nat} {q d : Nat} (h : q ∈ l ∨ t.getD q d = f q) :
    (l.foldl (fun t q => t.set q (f q)) t).getD q d = f q := by
  induction l generalizing t with
  | nil => exact h.resolve_left (List.not_mem_nil)
  | cons a l ih =>
    refine ih ?_
    by_cases ha : q = a
    · subst ha
      exact .inr (Tbl.getD_set_same ..)
    · refine (h.imp (fun hm => (List.mem_cons.1 hm).resolve_left ha) fun ht => ?_)
      rwa [Tbl.getD_set_other _ _ _ _ _ ha]

/-- A table made of a list has the value of each of its keys. -/
theorem map_getD {l : List Nat} {f : Nat → Nat} {q d : Nat} (h : q ∈ l) : Tbl.getD (l.map fun q => (q, f q)) q d = f q := by
  induction l with
  | nil => cases h
  | cons a l ih =>
    change (if a = q then f a else Tbl.getD (l.map fun q => (q, f q)) q d) = f q
    split
    case isTrue ha => rw [ha]
    case isFalse ha => exact ih ((List.mem_cons.1 h).resolve_left (Ne.symm ha))

/-- A status bit of the input and the alert: events and every field but ALERT stand. -/
theorem pmInput_spec (s : State) (page b : Nat) : let t := s.pmInput page b
    t.power = { s.power with alert := true } ∧ t.tick = s.tick ∧ t.boot = s.boot ∧ t.host = s.host ∧ t.eventsGiven = s.eventsGiven
    ∧ ∀ f : Fld, f.hi < 32 → f.lo ≤ f.hi → (f.hi < Reg.Pow.ALERT.lo ∨ Reg.Pow.ALERT.hi < f.lo ∨ f.addr ≠ Reg.Pow.ALERT.addr) → t.get f = s.get f := by
  unfold State.pmInput State.setAlert
  split
  case isTrue h =>
    refine ⟨?_, rfl, rfl, rfl, rfl, fun f _ _ _ => get_congr rfl f⟩
    rw [← show s.power.alert = true from h]
    rfl
  case isFalse =>
    refine ⟨rfl, rfl, rfl, rfl, ?_, fun f hf hl hne => ?_⟩
    · simp [State.eventsGiven, eventsIn_append, eventsIn]
    · exact (get_congr rfl f).trans ((State.get_put_apart _ Reg.Pow.ALERT f _ hf (by decide) hl hne).trans (get_congr rfl f))

theorem capHeld_at (s : State) : LadderAt s.capHeld 5 s.power.depthLimit s.tick.capDemand s.power.releaseMs ∧ s.capHeld.power.shareBound = s.power.shareBound
    ∧ s.capHeld.get Reg.Pow.CAP_HELD = 1 ∧ s.capHeld.power.alert = true ∧ Reported s s.capHeld 0x0206 := by
  obtain ⟨hpower, htick, hboot, hhost, hgiven, hget⟩ := pmInput_spec ((s.setLadder 5).mark Reg.Pow.CAP_HELD) 0 0
  have hevent := event_frame (((s.setLadder 5).mark Reg.Pow.CAP_HELD).pmInput 0 0) { code := 0x0206, detail := le4 44 s.power.capEff }
  have hp : s.capHeld.power = { s.power with ladder := 5, alert := true } := (congrArg State.power hevent.frame :).trans hpower
  have ht : s.capHeld.tick = s.tick := (congrArg State.tick hevent.frame :).trans htick
  refine ⟨⟨?_, ?_, ?_, ?_⟩, ?_, ?_, ?_, ?_⟩
  · rw [hp]
  · rw [hp]
  · rw [ht]
  · rw [hp]
  · rw [hp]
  · refine (get_congr_reg (hevent.regs _ (by decide))).trans ((hget _ (by decide) (by decide) (by decide)).trans ?_)
    exact get_mark _ _ (by decide) (by decide)
  · rw [hp]
  · exact (event_reported _ { code := 0x0206, detail := le4 44 s.power.capEff } rfl).since hboot (congrArg HostSt.mask hhost) (congrArg HostSt.late hhost) hgiven

/-- Some live placement's share can still be lowered. -/
def State.lowerable (s : State) : Prop := ∃ q ∈ s.livePlacements, s.boundOf q ≠ 0

/-- What an evaluation above 97 % of the cap leaves (R337). -/
structure LadderRaised (u t : State) : Prop where
  first : u.power.ladder = 0 → LadderAt t 1 u.power.depthLimit u.tick.capDemand 0 ∧ t.power.shareBound = u.power.shareBound
  within : u.power.ladder ≠ 0 → u.power.p1 ≤ u.power.capEff →
    LadderAt t u.power.ladder u.power.depthLimit u.tick.capDemand 0 ∧ t.power.shareBound = u.power.shareBound
  shares : u.power.ladder ≠ 0 → ¬u.power.p1 ≤ u.power.capEff → u.lowerable →
    LadderAt t (max 2 u.power.ladder) u.power.depthLimit u.tick.capDemand 0
    ∧ ∀ l ∈ u.livePlacements, t.power.shareBound.getD l 100 = min (u.plc l).hostGrant (u.boundOf l) - 5
  depth : u.power.ladder ≠ 0 → ¬u.power.p1 ≤ u.power.capEff → ¬u.lowerable → 1 < min u.power.depthLimit u.topDepth →
    LadderAt t (max 3 u.power.ladder) (min u.power.depthLimit u.topDepth - 1) u.tick.capDemand 0 ∧ t.power.shareBound = u.power.shareBound
  demand : u.power.ladder ≠ 0 → ¬u.power.p1 ≤ u.power.capEff → ¬u.lowerable → ¬1 < min u.power.depthLimit u.topDepth → u.tick.capDemand < u.usable →
    LadderAt t 4 u.power.depthLimit (u.tick.capDemand + 1) 0 ∧ t.power.shareBound = u.power.shareBound
  held : u.power.ladder ≠ 0 → ¬u.power.p1 ≤ u.power.capEff → ¬u.lowerable → ¬1 < min u.power.depthLimit u.topDepth → ¬u.tick.capDemand < u.usable →
    LadderAt t 5 u.power.depthLimit u.tick.capDemand 0 ∧ t.power.shareBound = u.power.shareBound
    ∧ (u.power.ladder ≠ 5 → t.get Reg.Pow.CAP_HELD = 1 ∧ t.power.alert = true ∧ Reported u t 0x0206)

theorem ladderUp_raised (u : State) : LadderRaised u u.rested.ladderUp where
  first h := by
    rw [ladderUp_first u.rested h]
    exact ⟨⟨rfl, rfl, rfl, rfl⟩, rfl⟩
  within h hp := by
    rw [ladderUp_within u.rested h hp]
    exact ⟨⟨rfl, rfl, rfl, rfl⟩, rfl⟩
  shares h hp hs := by
    rw [ladderUp_shares u.rested h hp hs]
    exact ⟨⟨rfl, rfl, rfl, rfl⟩, fun l hl => foldl_set_getD (f := fun q => min (u.plc q).hostGrant (u.boundOf q) - 5) (.inl hl)⟩
  depth h hp hs hd := by
    rw [ladderUp_depth u.rested h hp hs hd]
    exact ⟨⟨rfl, rfl, rfl, rfl⟩, rfl⟩
  demand h hp hs hd hu := by
    rw [ladderUp_demand u.rested h hp hs hd hu]
    exact ⟨⟨rfl, rfl, rfl, rfl⟩, rfl⟩
  held h hp hs hd hu := by
    rw [ladderUp_held u.rested h hp hs hd hu]
    split
    case isTrue h5 => exact ⟨⟨h5, rfl, rfl, rfl⟩, rfl, fun hne => absurd h5 hne⟩
    case isFalse =>
      obtain ⟨hat, hbound, hheld, halert, htold⟩ := capHeld_at u.rested
      exact ⟨hat, hbound, fun _ => ⟨hheld, halert, htold.since rfl rfl rfl rfl⟩⟩

/-- What an evaluation below 94 % of the cap leaves (R337). -/
structure LadderLowered (u t : State) : Prop where
  off : u.power.ladder = 0 → LadderAt t 0 u.power.depthLimit u.tick.capDemand 0 ∧ t.power.shareBound = u.power.shareBound
  demandWait : u.power.ladder ≠ 0 → 0 < u.tick.capDemand → u.power.releaseMs + 1 < 10 →
    LadderAt t u.power.ladder u.power.depthLimit u.tick.capDemand (u.power.releaseMs + 1) ∧ t.power.shareBound = u.power.shareBound
  demand : u.power.ladder ≠ 0 → 0 < u.tick.capDemand → 10 ≤ u.power.releaseMs + 1 →
    LadderAt t (if 1 < u.tick.capDemand then 4 else if u.power.depthLimit ≠ 16 then 3 else if u.power.shareBound ≠ [] then 2 else 1)
      u.power.depthLimit (u.tick.capDemand - 1) 0 ∧ t.power.shareBound = u.power.shareBound
  wait : u.power.ladder ≠ 0 → u.tick.capDemand = 0 → u.power.releaseMs + 1 < 100 →
    LadderAt t u.power.ladder u.power.depthLimit 0 (u.power.releaseMs + 1) ∧ t.power.shareBound = u.power.shareBound
  depth : u.power.ladder ≠ 0 → u.tick.capDemand = 0 → 100 ≤ u.power.releaseMs + 1 → u.power.depthLimit ≠ 16 →
    t.power.shareBound = u.power.shareBound
    ∧ (if u.topDepth ≤ u.power.depthLimit + 1 then LadderAt t (if u.power.shareBound = [] then 1 else 2) 16 0 0
      else LadderAt t 3 (u.power.depthLimit + 1) 0 0)
  full : u.power.ladder ≠ 0 → u.tick.capDemand = 0 → 100 ≤ u.power.releaseMs + 1 → u.power.depthLimit = 16 → u.power.shareBound ≠ [] →
    (∀ l ∈ u.livePlacements, (u.plc l).plan.sized ≤ u.boundOf l + 5) → LadderAt t 1 16 0 0 ∧ t.power.shareBound = []
  shares : u.power.ladder ≠ 0 → u.tick.capDemand = 0 → 100 ≤ u.power.releaseMs + 1 → u.power.depthLimit = 16 → u.power.shareBound ≠ [] →
    (¬∀ l ∈ u.livePlacements, (u.plc l).plan.sized ≤ u.boundOf l + 5) → LadderAt t 2 16 0 0
    ∧ ∀ l ∈ u.livePlacements, t.power.shareBound.getD l 100 = min (u.plc l).plan.sized (u.boundOf l + 5)
  last : u.power.ladder ≠ 0 → u.tick.capDemand = 0 → 100 ≤ u.power.releaseMs + 1 → u.power.depthLimit = 16 → u.power.shareBound = [] →
    LadderAt t 0 16 0 0 ∧ t.power.shareBound = u.power.shareBound

theorem boundsFull_iff (s : State) : s.boundsFull = true ↔ ∀ l ∈ s.livePlacements, (s.plc l).plan.sized ≤ s.boundOf l + 5 := by
  simp [State.boundsFull]

theorem ladderDown_lowered (u : State) : LadderLowered u u.ladderDown where
  off h := by
    rw [ladderDown_off u h]
    exact ⟨⟨h, rfl, rfl, rfl⟩, rfl⟩
  demandWait h hd hn := by
    rw [ladderDown_demandWait u h hd hn]
    exact ⟨⟨rfl, rfl, rfl, rfl⟩, rfl⟩
  demand h hd hn := by
    have hstep : (if 0 < u.tick.capDemand - 1 then 4 else if u.power.depthLimit ≠ 16 then 3 else if (!u.power.shareBound.isEmpty) = true then 2 else 1)
        = (if 1 < u.tick.capDemand then 4 else if u.power.depthLimit ≠ 16 then 3 else if u.power.shareBound ≠ [] then 2 else 1) := by
      simp only [Nat.sub_pos_iff_lt, Bool.not_eq_true', List.isEmpty_eq_false_iff]
    rw [ladderDown_demand u h hd (Nat.not_lt.2 hn), hstep]
    exact ⟨⟨rfl, rfl, rfl, rfl⟩, rfl⟩
  wait h hd hn := by
    rw [ladderDown_wait u h (by omega) hn]
    exact ⟨⟨rfl, rfl, hd, rfl⟩, rfl⟩
  depth h hd hn hl := by
    rw [ladderDown_depth u h (by omega) (Nat.not_lt.2 hn) hl]
    split
    · refine ⟨rfl, ?_, rfl, hd, rfl⟩
      simp only [List.isEmpty_iff]
      rfl
    · exact ⟨rfl, rfl, rfl, hd, rfl⟩
  full h hd hn hl hb hfull := by
    rw [ladderDown_shares u h (by omega) (Nat.not_lt.2 hn) (not_not.2 hl) hb, (boundsFull_iff u).2 hfull]
    exact ⟨⟨rfl, hl, hd, rfl⟩, rfl⟩
  shares h hd hn hl hb hfull := by
    rw [ladderDown_shares u h (by omega) (Nat.not_lt.2 hn) (not_not.2 hl) hb, Bool.eq_false_iff.2 (mt (boundsFull_iff u).1 hfull)]
    exact ⟨⟨rfl, hl, hd, rfl⟩, fun l hm => map_getD hm⟩
  last h hd hn hl hb := by
    rw [ladderDown_last u h (by omega) (Nat.not_lt.2 hn) (not_not.2 hl) hb]
    exact ⟨⟨rfl, hl, hd, rfl⟩, rfl⟩

/-! The evaluation as a whole. -/

/-- The module measured and sampled for an evaluation, before its cap is computed. -/
noncomputable def State.ladderSampled (s : State) (p1 p10 vin iin : Nat) : State :=
  let s := (s.measure p1 vin).updPower fun p => { p with p10 := p10, iin := iin, vins := (p.vins ++ [vin]).drop (p.vins.length - 9) }
  ((s.put Reg.Pow.PIN_10MS p10).put Reg.Pow.IIN iin).takeSample p1

/-- The action of an evaluation. -/
noncomputable def State.evaluated (u : State) : State :=
  if 97 * u.power.capEff < 100 * u.power.p1 then u.rested.ladderUp else if 100 * u.power.p1 < 94 * u.power.capEff then u.ladderDown else u.rested

theorem opLadder_eq (p1 p10 vin iin : Nat) (s : State) : opLadder p1 p10 vin iin s = (s.ladderSampled p1 p10 vin iin).recap.evaluated := rfl

/-- The power manager's readings after an evaluation with these measurements and this cap. -/
noncomputable def PowerMgr.evaluatedAt (q : PowerMgr) (p1 p10 vin iin c : Nat) : PowerMgr :=
  { q with p1 := p1, p10 := p10, vin := vin, iin := iin, uv := decide (vin < 47000), vins := (q.vins ++ [vin]).drop (q.vins.length - 9), capEff := c }

/-- The state with an evaluation's readings. -/
noncomputable def State.sampledAs (s : State) (q : PowerMgr) (r : Tbl W32) (l : List (Nat × Rat × Nat)) : State :=
  { s with power := q, regs := r, thermal := { s.thermal with samples := l } }

theorem ladderSampled_spec (s : State) (p1 p10 vin iin : Nat) : ∃ r l,
    s.ladderSampled p1 p10 vin iin = s.sampledAs (s.power.evaluatedAt p1 p10 vin iin s.power.capEff) r l
    ∧ l.length ≤ 10000 ∧ l.getLast?.map Prod.fst = some p1 := by
  refine ⟨_, _, rfl, ?_, ?_⟩
  · simp only [List.length_drop, List.length_append, List.length_singleton]
    omega
  · rw [List.getLast?_drop, if_neg (by simp), List.getLast?_append]
    rfl

theorem vins_ne_nil (l : List Nat) (v : Nat) : (l ++ [v]).drop (l.length - 9) ≠ [] := List.ne_nil_of_length_pos (by
  simp only [List.length_drop, List.length_append, List.length_singleton]
  omega)

/-- The cap after an evaluation's readings. -/
theorem cap_evaluatedAt {s u : State} {q : PowerMgr} {r : Tbl W32} {l : List (Nat × Rat × Nat)} (hv : q.vins ≠ [])
    (hu : u = s.sampledAs q r l) :
    u.capOf.1 = min q.hostCap (min (q.bmcCap.getD q.hostCap) (min s.thermal.cth (95 * 420 * (q.vins.foldl (· + ·) 0 / q.vins.length) / 100000))) := by
  rw [capOf_cap, inputTerm_getD, hu, State.sampledAs, if_neg hv]

theorem ladderBase_spec (s : State) (p1 p10 vin iin : Nat) : ∃ r l c,
    (s.ladderSampled p1 p10 vin iin).recap = s.sampledAs (s.power.evaluatedAt p1 p10 vin iin c) r l
    ∧ c = min s.power.hostCap (min (s.power.bmcCap.getD s.power.hostCap) (min s.thermal.cth
      (95 * 420 * (((s.power.vins ++ [vin]).drop (s.power.vins.length - 9)).foldl (· + ·) 0 / ((s.power.vins ++ [vin]).drop (s.power.vins.length - 9)).length) / 100000)))
    ∧ l.length ≤ 10000 ∧ l.getLast?.map Prod.fst = some p1 := by
  obtain ⟨r, l, hu, hlen, hlast⟩ := ladderSampled_spec s p1 p10 vin iin
  have hcap := cap_evaluatedAt (vins_ne_nil s.power.vins vin) hu
  rw [hu] at hcap ⊢
  have hframe := recap_frame (s.sampledAs (s.power.evaluatedAt p1 p10 vin iin s.power.capEff) r l)
  generalize (s.sampledAs (s.power.evaluatedAt p1 p10 vin iin s.power.capEff) r l).recap = t at hframe ⊢
  exact ⟨t.regs, l, _, hframe.trans rfl, hcap, hlen, hlast⟩

theorem evaluated_acted (u : State) : LadderActed u u.evaluated := by
  unfold State.evaluated
  split
  · exact (rested_acted u).trans (ladderUp_acted _)
  · split
    · exact ladderDown_acted u
    · exact rested_acted u

theorem evaluated_up {u : State} (h : 97 * u.power.capEff < 100 * u.power.p1) : LadderRaised u u.evaluated := by
  rw [State.evaluated, if_pos h]
  exact ladderUp_raised u

theorem evaluated_down {u : State} (h : 100 * u.power.p1 < 94 * u.power.capEff) : LadderLowered u u.evaluated := by
  rw [State.evaluated, if_neg (by omega), if_pos h]
  exact ladderDown_lowered u

theorem evaluated_level {u : State} (h : ¬97 * u.power.capEff < 100 * u.power.p1) (h' : ¬100 * u.power.p1 < 94 * u.power.capEff) :
    LadderAt u.evaluated u.power.ladder u.power.depthLimit u.tick.capDemand 0 ∧ u.evaluated.power.shareBound = u.power.shareBound := by
  rw [State.evaluated, if_neg h, if_neg h']
  exact ⟨⟨rfl, rfl, rfl, rfl⟩, rfl⟩

/-- What an evaluation's action from `u` to `t` does, by what the readings call for. -/
structure LadderOutcome (u t : State) : Prop where
  acted : LadderActed u t
  up : 97 * u.power.capEff < 100 * u.power.p1 → LadderRaised u t
  down : 100 * u.power.p1 < 94 * u.power.capEff → LadderLowered u t
  level : ¬97 * u.power.capEff < 100 * u.power.p1 → ¬100 * u.power.p1 < 94 * u.power.capEff →
    LadderAt t u.power.ladder u.power.depthLimit u.tick.capDemand 0 ∧ t.power.shareBound = u.power.shareBound

theorem evaluated_outcome (u : State) : LadderOutcome u u.evaluated := ⟨evaluated_acted u, evaluated_up, evaluated_down, evaluated_level⟩

/-- The power manager's state `q` after an evaluation, with these values of the input and the rest from `x`. -/
noncomputable def PowerMgr.readAs (q x : PowerMgr) (p1 p10 vin iin c : Nat) (vins : List Nat) : PowerMgr :=
  { q.ladderedTo x with p1 := p1, p10 := p10, vin := vin, iin := iin, uv := decide (vin < 47000), vins := vins, capEff := c }

/-- The state `s` with all that an evaluation may move taken from `t`. -/
noncomputable def State.evaluatedTo (s t : State) (x : PowerMgr) (l : List (Nat × Rat × Nat)) : State := { s with
  power := x, regs := t.regs, thermal := { s.thermal with samples := l }
  tick := { s.tick with capDemand := t.tick.capDemand }, mgmt := t.mgmt, host := t.host, out := t.out }

/-- An evaluation from `s` to `t`: what it moves and what it reads. -/
structure LadderEvaluated (s t : State) (p1 p10 vin iin : Nat) : Prop where
  frame : t = s.evaluatedTo t t.power t.thermal.samples
  answers : ∀ o : Src, t.answersTo o = s.answersTo o
  count : t.thermal.samples.length ≤ 10000
  last : t.thermal.samples.getLast?.map Prod.fst = some p1
  vins : t.power.vins = (s.power.vins ++ [vin]).drop (s.power.vins.length - 9)
  read : t.power = s.power.readAs t.power p1 p10 vin iin t.power.capEff t.power.vins
  cap : t.power.capEff = min s.power.hostCap (min (s.power.bmcCap.getD s.power.hostCap) (min s.thermal.cth
    (95 * 420 * (t.power.vins.foldl (· + ·) 0 / t.power.vins.length) / 100000)))

theorem LadderActed.evaluated {s t : State} {q : PowerMgr} {r : Tbl W32} {l : List (Nat × Rat × Nat)} (h : LadderActed (s.sampledAs q r l) t) :
    t = s.evaluatedTo t t.power t.thermal.samples ∧ t.power = q.ladderedTo t.power ∧ t.thermal.samples = l := by
  have hpower : t.power = q.ladderedTo t.power := (congrArg State.power h.frame :)
  have hsamples : t.thermal.samples = l := (congrArg (fun t => t.thermal.samples) h.frame :)
  have hframe : t = s.evaluatedTo t (q.ladderedTo t.power) l := h.frame
  exact ⟨hframe.trans (by rw [← hpower, hsamples]), hpower, hsamples⟩

section
variable (s : State) (p p10 vin iin : Nat)

theorem opLadder_evaluated : LadderEvaluated s (opLadder p p10 vin iin s) p p10 vin iin := by
  obtain ⟨r, l, c, hu, hc, hlen, hlast⟩ := ladderBase_spec s p p10 vin iin
  have hacted := evaluated_acted (s.sampledAs (s.power.evaluatedAt p p10 vin iin c) r l)
  rw [opLadder_eq, hu]
  generalize (s.sampledAs (s.power.evaluatedAt p p10 vin iin c) r l).evaluated = t at hacted ⊢
  obtain ⟨hframe, hpower, hsamples⟩ := hacted.evaluated
  have hcap : t.power.capEff = c := (congrArg PowerMgr.capEff hpower :)
  have hvins : t.power.vins = (s.power.vins ++ [vin]).drop (s.power.vins.length - 9) := (congrArg PowerMgr.vins hpower :)
  refine ⟨hframe, fun o => (hacted.answers o).trans (by cases o <;> rfl), hsamples ▸ hlen, hsamples ▸ hlast, hvins, ?_, hcap.trans (hvins ▸ hc)⟩
  rw [hcap, hvins]
  exact hpower

/-- The outcome, told of the state before the evaluation with its readings. -/
theorem opLadder_outcome : ∃ r l, LadderOutcome (s.sampledAs (s.power.evaluatedAt p p10 vin iin (opLadder p p10 vin iin s).power.capEff) r l)
    (opLadder p p10 vin iin s) := by
  obtain ⟨r, l, c, hu, -⟩ := ladderBase_spec s p p10 vin iin
  have hout := evaluated_outcome (s.sampledAs (s.power.evaluatedAt p p10 vin iin c) r l)
  have hcap : (opLadder p p10 vin iin s).power.capEff = c := by
    rw [opLadder_eq, hu]
    exact (congrArg (fun t => t.power.capEff) hout.acted.frame :)
  refine ⟨r, l, ?_⟩
  rw [hcap, opLadder_eq, hu]
  exact hout

end

/-! ### Forecasts (R329, R330) -/

/-- The forecast's three levels, in one register. -/
noncomputable def State.putForecast (s : State) (f low mid dec : Nat) : State :=
  ((s.put (Reg.FPow.FC_LOW f) low).put (Reg.FPow.FC_MID f) mid).put (Reg.FPow.FC_DEC f) dec

theorem putForecast_sansRegs (s : State) (f low mid dec : Nat) : (s.putForecast f low mid dec).sansRegs = s.sansRegs := by
  simp only [State.putForecast, State.sansRegs_put]

/-- A field changed, then registers. -/
theorem updField_regs {s t : State} {f : Nat} {g : FieldSt → FieldSt} (h : t.sansRegs = (s.updField f g).sansRegs) :
    t = { s with fields := t.fields, regs := t.regs } ∧ t.field f = g (s.field f) ∧ ∀ k, k ≠ f → t.field k = s.field k := by
  obtain ⟨r, rfl⟩ : ∃ r, t = { s.updField f g with regs := r } := ⟨_, eq_of_sansRegs h⟩
  exact ⟨rfl, (field_congr rfl f).trans (State.field_updField s f g), fun k hk => (field_congr rfl k).trans (State.field_updField_other s f k g hk)⟩

theorem putForecast_get (s : State) (f low mid dec : Nat) (hl : low < 2 ^ 8) (hm : mid < 2 ^ 8) (hd : dec < 2 ^ 8) : let t := s.putForecast f low mid dec
    t.get (Reg.FPow.FC_LOW f) = low ∧ t.get (Reg.FPow.FC_MID f) = mid ∧ t.get (Reg.FPow.FC_DEC f) = dec := by
  have hlow : ∀ v u : State, ∀ n, v = u.put (Reg.FPow.FC_LOW f) n → n < 2 ^ 8 → v.get (Reg.FPow.FC_LOW f) = n := fun v u n hv hn =>
    hv ▸ State.get_put u (Reg.FPow.FC_LOW f) n (show 31 < 32 by decide) (show 24 ≤ 31 by decide) hn
  refine ⟨?_, ?_, ?_⟩
  · rw [State.putForecast, State.get_put_apart _ (Reg.FPow.FC_DEC f) (Reg.FPow.FC_LOW f) _ (show 31 < 32 by decide) (show 8 ≤ 15 by decide)
        (show 24 ≤ 31 by decide) (.inr (.inl (show 15 < 24 by decide))),
      State.get_put_apart _ (Reg.FPow.FC_MID f) (Reg.FPow.FC_LOW f) _ (show 31 < 32 by decide) (show 16 ≤ 23 by decide)
        (show 24 ≤ 31 by decide) (.inr (.inl (show 23 < 24 by decide)))]
    exact hlow _ s low rfl hl
  · rw [State.putForecast, State.get_put_apart _ (Reg.FPow.FC_DEC f) (Reg.FPow.FC_MID f) _ (show 23 < 32 by decide) (show 8 ≤ 15 by decide)
        (show 16 ≤ 23 by decide) (.inr (.inl (show 15 < 16 by decide)))]
    exact State.get_put _ (Reg.FPow.FC_MID f) _ (show 23 < 32 by decide) (show 16 ≤ 23 by decide) hm
  · exact State.get_put _ (Reg.FPow.FC_DEC f) _ (show 15 < 32 by decide) (show 8 ≤ 15 by decide) hd

/-- A right word's levels taken. -/
noncomputable def FieldSt.forecasted (w : W32) (x : FieldSt) : FieldSt := { x with forecast := w, forecastBad := false }

/-- 240 A over the whole tick. -/
noncomputable def FieldSt.misread (x : FieldSt) : FieldSt := { x with forecast := 0x00F0F0F0, forecastBad := true }

noncomputable def FieldSt.relearning (x : FieldSt) : FieldSt := { x with forecastLearn := 1024 }

theorem opForecastWord_good (f : Nat) (w : W32) (s : State) (h : forecastGood w = true) :
    opForecastWord f w s = (s.updField f (FieldSt.forecasted w)).putForecast f (bits w.toNat 23 16) (bits w.toNat 15 8) (bits w.toNat 7 0) :=
  if_neg (by simp [h])

theorem opForecastWord_bad (f : Nat) (w : W32) (s : State) (h : forecastGood w = false) :
    opForecastWord f w s = ((s.updField f FieldSt.misread).bump (Reg.FPow.FORECAST_BAD f)).mark Reg.Pow.FORECAST_BAD :=
  if_pos (by simp [h])

/-- A field changed, then what reports leave. -/
theorem updField_announced {s t : State} {f : Nat} {g : FieldSt → FieldSt} (h : Announced (s.updField f g) t) :
    t = { s with fields := t.fields, regs := t.regs, host := t.host, out := t.out } ∧ t.field f = g (s.field f) ∧ (∀ k, k ≠ f → t.field k = s.field k)
    ∧ ∀ o : Src, t.answersTo o = s.answersTo o := by
  obtain ⟨r, hh, o, rfl⟩ : ∃ r hh o, t = { s.updField f g with regs := r, host := hh, out := o } := ⟨_, _, _, h.frame⟩
  exact ⟨rfl, (field_congr rfl f).trans (State.field_updField s f g), fun k hk => (field_congr rfl k).trans (State.field_updField_other s f k g hk),
    fun o => (h.answers o).trans (by cases o <;> rfl)⟩

/-! ### Lull (R48, R336) -/

theorem askLull_eq (s : State) : s.askLull = s.updTick TickSt.calledToLull := by
  unfold State.askLull TickSt.calledToLull
  refine congrArg s.updTick (funext fun t => ?_)
  cases t.running <;> rfl

/-- The end of Lull is asked for where no cause is left. -/
theorem releaseLull_released (s : State) : LullReleased s s.releaseLull := by
  unfold State.releaseLull
  refine ⟨fun hc => if_pos hc, fun hc hr => (if_neg (Bool.eq_false_iff.1 hc)).trans ?_, fun hc hr => ?_⟩
  · exact congrArg (fun x : TickSt => { s with tick := x }) (if_pos hr)
  · have hb : (s.start.power == .lull || (s.start.power == .overcast && s.start.target == some .active)) = true
        ↔ s.start.power = .lull ∨ (s.start.power = .overcast ∧ s.start.target = some .active) := by simp
    have hrun : ¬s.tick.running = true := Bool.eq_false_iff.1 hr
    rw [if_neg (Bool.eq_false_iff.1 hc)]
    split
    case isTrue hs => exact congrArg (fun x : TickSt => { s with tick := x }) ((if_neg hrun).trans (if_pos (hb.2 hs)))
    case isFalse hs => exact congrArg (fun x : TickSt => { s with tick := x }) ((if_neg hrun).trans (if_neg (mt hb.1 hs)))

/-- The module as a forced Lull leaves it, before the third within 10 s is reported. -/
noncomputable def State.powerLulled (s : State) (recent : List Nat) : State :=
  ((s.updPower fun p => { p with powerLulls := recent, lullUntil := true, powerLullHeld := p.powerLullHeld || decide (3 ≤ recent.length) }).put
    Reg.Pow.CEILING_LULL 1).toLull

theorem powerLulled_frame (s : State) (recent : List Nat) : ∃ r, s.powerLulled recent = { s with
    tick := s.tick.calledToLull, regs := r
    power := { s.power with powerLulls := recent, lullUntil := true, powerLullHeld := s.power.powerLullHeld || decide (3 ≤ recent.length) } } :=
  ⟨_, askLull_eq _⟩

theorem powerLulled_get (s : State) (recent : List Nat) : (s.powerLulled recent).get Reg.Pow.CEILING_LULL = 1 :=
  (get_congr rfl _).trans (State.get_put _ _ 1 (by decide) (by decide) (by decide))

theorem opPowerLull_eq (s : State) (recent : List Nat) (h : recent = (s.power.powerLulls.filter fun t => s.power.msClock < t + 10000) ++ [s.power.msClock]) :
    opPowerLull s = if 3 ≤ recent.length then ((s.powerLulled recent).mark Reg.Pow.POWER_LULL).event { code := 0x0207 } else s.powerLulled recent := by
  subst h
  simp only [opPowerLull, decide_eq_true_eq]
  rfl

theorem opPowerLull_spec (s : State) (recent : List Nat) (h : recent = (s.power.powerLulls.filter fun t => s.power.msClock < t + 10000) ++ [s.power.msClock]) :
    let t := opPowerLull s
    t.get Reg.Pow.CEILING_LULL = 1
    ∧ t = { s with
        tick := s.tick.calledToLull, regs := t.regs, host := t.host, out := t.out
        power := { s.power with powerLulls := recent, lullUntil := true, powerLullHeld := s.power.powerLullHeld || decide (3 ≤ recent.length) } }
    ∧ (3 ≤ recent.length → t.get Reg.Pow.POWER_LULL = 1 ∧ Reported s t 0x0207) ∧ (recent.length < 3 → t.host = s.host ∧ t.out = s.out) := by
  rw [opPowerLull_eq s recent h]
  have hget := powerLulled_get s recent
  obtain ⟨r, hf⟩ := powerLulled_frame s recent
  split
  case isTrue h3 =>
    have hevent := event_frame ((s.powerLulled recent).mark Reg.Pow.POWER_LULL) { code := 0x0207 }
    have hlull : (((s.powerLulled recent).mark Reg.Pow.POWER_LULL).event { code := 0x0207 }).get Reg.Pow.CEILING_LULL = 1 :=
      (get_congr_reg (hevent.regs _ (by decide))).trans ((State.get_put_other _ _ _ _ (by decide)).trans hget)
    have hmark : (((s.powerLulled recent).mark Reg.Pow.POWER_LULL).event { code := 0x0207 }).get Reg.Pow.POWER_LULL = 1 :=
      (get_congr_reg (hevent.regs _ (by decide))).trans (get_mark _ _ (by decide) (by decide))
    have htold : Reported s (((s.powerLulled recent).mark Reg.Pow.POWER_LULL).event { code := 0x0207 }) 0x0207 := by
      refine reported_after (e := { code := 0x0207 }) rfl ?_ ?_ ?_
      all_goals rw [hf]; rfl
    refine ⟨hlull, ?_, fun _ => ⟨hmark, htold⟩, fun hn => absurd h3 (Nat.not_le.2 hn)⟩
    obtain ⟨r', hh, o, he⟩ : ∃ r' hh o, ((s.powerLulled recent).mark Reg.Pow.POWER_LULL).event { code := 0x0207 }
      = { s.powerLulled recent with regs := r', host := hh, out := o } := ⟨_, _, _, hevent.frame⟩
    rw [he, hf]
  case isFalse h3 =>
    refine ⟨hget, ?_, fun hn => absurd hn h3, fun _ => ?_⟩
    · rw [hf]
    · rw [hf]
      exact ⟨rfl, rfl⟩

section
variable (f : Nat) (w : W32) (s : State)

/-- A forecast word changes its field and registers. -/
theorem opForecastWord_frame : opForecastWord f w s = { s with fields := (opForecastWord f w s).fields, regs := (opForecastWord f w s).regs }
    ∧ ∀ g, g ≠ f → (opForecastWord f w s).field g = s.field g := by
  obtain ⟨g, h⟩ : ∃ g, (opForecastWord f w s).sansRegs = (s.updField f g).sansRegs := by
    cases h : forecastGood w with
    | true => exact ⟨_, (congrArg State.sansRegs (opForecastWord_good f w s h)).trans (putForecast_sansRegs ..)⟩
    | false => exact ⟨_, (congrArg State.sansRegs (opForecastWord_bad f w s h)).trans ((State.sansRegs_mark ..).trans (State.sansRegs_bump ..))⟩
  obtain ⟨hframe, -, hothers⟩ := updField_regs h
  exact ⟨hframe, hothers⟩

theorem opForecastWord_taken (h : forecastGood w = true) : let t := opForecastWord f w s
    t.field f = (s.field f).forecasted w
    ∧ t.get (Reg.FPow.FC_LOW f) = bits w.toNat 23 16 ∧ t.get (Reg.FPow.FC_MID f) = bits w.toNat 15 8 ∧ t.get (Reg.FPow.FC_DEC f) = bits w.toNat 7 0 := by
  rw [opForecastWord_good f w s h]
  exact ⟨State.field_updField s f _, putForecast_get _ f _ _ _ (Nat.mod_lt _ (by decide)) (Nat.mod_lt _ (by decide)) (Nat.mod_lt _ (by decide))⟩

theorem opForecastWord_refused (h : forecastGood w = false) :
    (opForecastWord f w s).field f = (s.field f).misread ∧ (opForecastWord f w s).get Reg.Pow.FORECAST_BAD = 1 := by
  rw [opForecastWord_bad f w s h]
  exact ⟨State.field_updField s f _, get_mark _ _ (by decide) (by decide)⟩

end

/-- A missed forecast is counted, learnt again and reported. -/
theorem opForecastMiss_spec (f w : Nat) (s : State) : let t := opForecastMiss f w s
    t.field f = (s.field f).relearning ∧ (∀ g, g ≠ f → t.field g = s.field g) ∧ t.get Reg.Pow.FORECAST_MISS = 1 ∧ Reported s t 0x020A
    ∧ (∀ o : Src, t.answersTo o = s.answersTo o) ∧ t = { s with fields := t.fields, regs := t.regs, host := t.host, out := t.out } := by
  have hmarks : Announced (s.updField f FieldSt.relearning) (((s.updField f FieldSt.relearning).bump (Reg.FPow.FORECAST_MISS f)).mark Reg.Pow.FORECAST_MISS) :=
    (Announced.put _ _ _).trans (.mark _ _)
  have hmark := get_mark ((s.updField f FieldSt.relearning).bump (Reg.FPow.FORECAST_MISS f)) Reg.Pow.FORECAST_MISS (by decide) (by decide)
  have hboot : (((s.updField f FieldSt.relearning).bump (Reg.FPow.FORECAST_MISS f)).mark Reg.Pow.FORECAST_MISS).boot = s.boot := rfl
  have hhost : (((s.updField f FieldSt.relearning).bump (Reg.FPow.FORECAST_MISS f)).mark Reg.Pow.FORECAST_MISS).host = s.host := rfl
  have hout : (((s.updField f FieldSt.relearning).bump (Reg.FPow.FORECAST_MISS f)).mark Reg.Pow.FORECAST_MISS).out = s.out := rfl
  have hmiss : opForecastMiss f w s = (((s.updField f FieldSt.relearning).bump (Reg.FPow.FORECAST_MISS f)).mark Reg.Pow.FORECAST_MISS).event _ := rfl
  rw [hmiss]
  generalize ((s.updField f FieldSt.relearning).bump (Reg.FPow.FORECAST_MISS f)).mark Reg.Pow.FORECAST_MISS = u at hmarks hmark hboot hhost hout ⊢
  obtain ⟨hframe, hown, hothers, hanswers⟩ := updField_announced (hmarks.trans (.event u _))
  exact ⟨hown, hothers, (get_congr_reg ((event_frame u _).regs _ (by decide))).trans hmark, reported_after rfl hboot hhost hout, hanswers, hframe⟩

/-- Settles O24: forced stretch, the ladder's evaluation by what each action leaves, Lull, and the sites' forecasts. -/
theorem powerManagementEventsAct : Obligations.PowerManagementEventsAct := by
  intro s p vin p10 iin f w word limit measured
  refine ⟨fun h => ⟨s.measure p vin, congrArg Host.Outcome.next (if_neg (Nat.not_lt.2 h)), rfl⟩, fun h => ⟨_, rfl, opPowerLimit_above s p vin h⟩,
    ⟨_, congrArg Host.Outcome.next (setForced_forced s _), rfl, rfl⟩, ⟨_, rfl, opPowerLull_spec s _ rfl⟩, fun h => ?lullEnd,
    fun h => congrArg Host.Outcome.next (if_pos h), ?ladder,
    ⟨_, rfl, (opForecastWord_frame f word s).1, (opForecastWord_frame f word s).2, opForecastWord_taken f word s, opForecastWord_refused f word s⟩,
    ⟨_, rfl, opForecastMiss_spec f w s⟩⟩
  case lullEnd =>
    refine ⟨_, (s.updPower fun p => { p with lullUntil := false }).put Reg.Pow.CEILING_LULL 0,
      congrArg Host.Outcome.next (if_neg (by simp [h])), rfl, State.get_put _ _ 0 (by decide) (by decide) (by decide),
      fun a ha => (State.reg_put_other _ _ _ _ ha).trans (reg_congr rfl a), releaseLull_released _⟩
  case ladder =>
    have he := opLadder_evaluated s p p10 vin iin
    obtain ⟨r, l, hout⟩ := opLadder_outcome s p p10 vin iin
    refine ⟨_, rfl, he.frame, he.answers, he.count, he.last, (congrArg PowerMgr.p1 he.read :), (congrArg PowerMgr.p10 he.read :),
      (congrArg PowerMgr.vin he.read :), (congrArg PowerMgr.iin he.read :), he.vins, he.read, he.cap, hout.level,
      fun hu => (hout.up hu).first, fun hu => (hout.up hu).within, fun hu h0 hp => (hout.up hu).shares h0 (Nat.not_le.2 hp),
      fun hu h0 hp => (hout.up hu).depth h0 (Nat.not_le.2 hp), fun hu h0 hp => (hout.up hu).demand h0 (Nat.not_le.2 hp),
      fun hu h0 hp => (hout.up hu).held h0 (Nat.not_le.2 hp), fun hd => (hout.down hd).off, fun hd => (hout.down hd).demandWait,
      fun hd => (hout.down hd).demand, fun hd => (hout.down hd).wait, fun hd => (hout.down hd).depth, fun hd h0 hz hn hl hb => ?_,
      fun hd => (hout.down hd).last⟩
    split
    case isTrue hf => exact (hout.down hd).full h0 hz hn hl hb hf
    case isFalse hf => exact (hout.down hd).shares h0 hz hn hl hb hf

end Sys2Proof.Machine
end

section
/-! PROOFS. O23 fails where the order under way came from a source that has no channel for answers: none is given to it. -/
namespace Sys2Proof.Machine
open Sys2Proof

/-- A module in Lull with a POWER_STATE order of a peer module under way. -/
noncomputable def peerOrder : State := { start := { power := .lull, powerCmd := some (1, .peer, 0x0104) } }

/-- The host's next order. -/
noncomputable def hostOrder : CmdHdr := { src := .host, seq := 2, expert := false, buffer := 0, bufferLen := 0, data := [] }

/-- The order of the peer is dropped and no answer to it is given. -/
theorem superseded_peerOrder : (peerOrder.supersedePower .host).start.powerCmd = none ∧ (peerOrder.supersedePower .host).answersTo .peer = [] := ⟨rfl, rfl⟩

/-- Refutes O23: an order under way is to be answered SUPERSEDED whatever its source, and the model answers the host and the BMC alone. -/
theorem not_powerStateOrdersAct : ¬ Obligations.PowerStateOrdersAct := by
  unfold Obligations.PowerStateOrdersAct
  intro h
  obtain ⟨-, hacts⟩ := h peerOrder hostOrder 1 0 (.inl rfl)
  obtain ⟨-, -, -, -, -, -, -, -, -, hlull, -⟩ := hacts (by decide)
  obtain ⟨y, -, ⟨a, b, htold, -⟩, -⟩ := hlull (.inl ⟨rfl, rfl⟩)
  have hgiven : a.answersTo .peer = [] ++ _ := (htold : Answered _ a .peer _).given
  exact absurd hgiven (List.cons_ne_nil _ _).symm

end Sys2Proof.Machine
end

section
/-! SUPPORT. A session's KV given up: registration, holds, region slots, pause record (R192, R193, R202, R204, R229). -/

namespace Sys2Proof.Machine
open Sys2Proof

/-! ### Changes of one session and its airspace -/

/-- The state `s` with sessions and airspaces taken from `t`. -/
noncomputable def State.kvTo (s t : State) : State := { s with sessions := t.sessions, airspaces := t.airspaces }

/-- The state `s` with the cores taken from `t`. -/
noncomputable def State.coresTo (s t : State) : State := { s with cores := t.cores }

/-- The state `s` with what copies within cores may move taken from `t`. -/
noncomputable def State.cowTo (s t : State) : State := { s with cores := t.cores, regs := t.regs }

/-- The state `s` with all that a copy between scratchpads and pages may move taken from `t`. -/
noncomputable def State.copyTo (s t : State) : State :=
  { s with sessions := t.sessions, airspaces := t.airspaces, cores := t.cores, regs := t.regs }

/-- Between `s` and `t` session `n` became `e` and airspace `a` became `y`; nothing else moved. -/
structure KvMoved (s t : State) (n a : Nat) (e : Desc) (y : AirspaceSt) : Prop where
  frame : t = s.kvTo t
  others : ∀ m, m ≠ n → t.sess m = s.sess m
  sess : t.sess n = e
  spaces : ∀ b, b ≠ a → t.asp b = s.asp b
  asp : t.asp a = y

theorem KvMoved.refl (s : State) (n a : Nat) : KvMoved s s n a (s.sess n) (s.asp a) := ⟨rfl, fun _ _ => rfl, rfl, fun _ _ => rfl, rfl⟩

section
variable {s t : State} {n a : Nat} {e : Desc} {y : AirspaceSt}

theorem KvMoved.updSess (h : KvMoved s t n a e y) (g : Desc → Desc) : KvMoved s (t.updSess n g) n a (g e) y :=
  ⟨(congrArg (State.kvTo · (t.updSess n g)) h.frame :), fun m hm => (State.sess_updSess_other t n m g hm).trans (h.others m hm),
    (State.sess_updSess t n g).trans (congrArg g h.sess), h.spaces, h.asp⟩

theorem KvMoved.updAsp (h : KvMoved s t n a e y) (g : AirspaceSt → AirspaceSt) : KvMoved s (t.updAsp a g) n a e (g y) :=
  ⟨(congrArg (State.kvTo · (t.updAsp a g)) h.frame :), h.others, h.sess, fun b hb => (State.asp_updAsp_other t a b g hb).trans (h.spaces b hb),
    (State.asp_updAsp t a g).trans (congrArg g h.asp)⟩

/-- The same values, written otherwise. -/
theorem KvMoved.as (h : KvMoved s t n a e y) {e' : Desc} {y' : AirspaceSt} (he : e = e') (hy : y = y') : KvMoved s t n a e' y' := he ▸ hy ▸ h

end

/-! ### What a session gives up -/

/-- The entry of the prefixes that a session was filling is free again. -/
noncomputable def AirspaceSt.registrationDropped (y : AirspaceSt) (e : Desc) : AirspaceSt :=
  { y with prefixes := match e.registering with
      | none => y.prefixes
      | some i => y.prefixes.set i { generation := (y.prefixes.getD i {}).generation % 0xFFFFFF + 1 } }

/-- The region slots of session `n` are free again. -/
noncomputable def AirspaceSt.regionsFreed (y : AirspaceSt) (n : Nat) : AirspaceSt :=
  { y with carvings := y.carvings.map fun cv => { cv with slots := cv.slots.map fun e => if e.2.2 == some n then (e.1, e.2.1, none) else e } }

/-- The airspace once session `n`, as `e` has it, has given up registration, holds and region slots. -/
noncomputable def AirspaceSt.kvReleased (y : AirspaceSt) (e : Desc) (n : Nat) : AirspaceSt :=
  ((y.registrationDropped e).unhold (e.pages ++ e.cowPage.toList)).regionsFreed n

/-- A session without registration, region and pages. -/
noncomputable def Desc.kvReleased (e : Desc) : Desc :=
  { e with registering := none, regions := [], pages := [], cowPage := none, cowLeft := 0, failedPause := false, kvLost := false }

/-- The airspace once the pause record of `e` is gone: its pages, and the record's holds where it has taken them. -/
noncomputable def AirspaceSt.pauseDropped (y : AirspaceSt) (e : Desc) : AirspaceSt :=
  match e.pauseRec with
  | none => y
  | some r => { y with
      cloudPages := y.cloudPages.filter fun p => !r.pages.contains p
      pageDue := y.pageDue ++ (if e.kvHeld then r.links.map fun p => (p, false) else []) }

/-- A session without its pause record. -/
noncomputable def Desc.pauseDropped (e : Desc) : Desc := if e.pauseRec = none then e else { e with pauseRec := none, kvHeld := false, copyBack := false }

section
variable {s t : State} {n a : Nat} {e : Desc} {y : AirspaceSt}

theorem KvMoved.dropRegistration (h : KvMoved s t n a e y) (ha : e.airspace = a) :
    KvMoved s (t.dropRegistration n) n a { e with registering := none } (y.registrationDropped e) := by
  subst ha
  unfold State.dropRegistration
  dsimp only
  rw [h.sess]
  cases hr : e.registering with
  | none =>
    refine h.as (congrArg (fun r => { e with registering := r }) hr) ?_
    rw [AirspaceSt.registrationDropped, hr]
  | some i =>
    dsimp only
    rw [h.asp]
    refine ((h.updAsp fun _ => { y with prefixes := y.prefixes.set i { generation := (y.prefixes.getD i {}).generation % 0xFFFFFF + 1 } }).updSess
      fun d => { d with registering := none }).as (Eq.refl _) ?_
    rw [AirspaceSt.registrationDropped, hr]

theorem KvMoved.freeRegions (h : KvMoved s t n a e y) (ha : e.airspace = a) :
    KvMoved s (t.freeRegions n) n a { e with regions := [] } (y.regionsFreed n) := by
  subst ha
  unfold State.freeRegions
  simp only [h.sess]
  exact (h.updAsp fun x => x.regionsFreed n).updSess fun d => { d with regions := [] }

theorem KvMoved.releaseKv (h : KvMoved s t n a e y) (ha : e.airspace = a) : KvMoved s (t.releaseKv n) n a e.kvReleased (y.kvReleased e n) := by
  subst ha
  have hreg := h.dropRegistration rfl
  unfold State.releaseKv
  simp only [hreg.sess]
  exact ((hreg.updAsp fun x => x.unhold (e.pages ++ e.cowPage.toList)).freeRegions rfl).updSess
    fun d => { d with pages := [], cowPage := none, cowLeft := 0, failedPause := false, kvLost := false }

theorem KvMoved.dropPause (h : KvMoved s t n a e y) (ha : e.airspace = a) : KvMoved s (t.dropPause n) n a e.pauseDropped (y.pauseDropped e) := by
  subst ha
  unfold State.dropPause
  dsimp only
  rw [h.sess]
  cases hr : e.pauseRec with
  | none =>
    refine h.as (if_pos hr).symm ?_
    rw [AirspaceSt.pauseDropped, hr]
  | some r =>
    have hd : { e with pauseRec := none, kvHeld := false, copyBack := false } = e.pauseDropped := (if_neg (by simp [hr])).symm
    have hpages := h.updAsp fun x => { x with cloudPages := x.cloudPages.filter fun p => !r.pages.contains p }
    dsimp only
    cases hk : e.kvHeld with
    | true =>
      refine ((hpages.updAsp fun x => x.unhold r.links).updSess fun d => { d with pauseRec := none, kvHeld := false, copyBack := false }).as hd ?_
      rw [AirspaceSt.pauseDropped, hr, hk]
      rfl
    | false =>
      refine (hpages.updSess fun d => { d with pauseRec := none, kvHeld := false, copyBack := false }).as hd ?_
      rw [AirspaceSt.pauseDropped, hr, hk]
      exact congrArg (fun l => { y with cloudPages := y.cloudPages.filter fun p => !r.pages.contains p, pageDue := l }) (List.append_nil _).symm

end

/-! ### Words written in scratchpads -/

/-- What a write of bytes leaves of a core. -/
noncomputable def CoreSt.poked (k : CoreSt) (a : Nat) (bs : List Byte) : CoreSt :=
  { k with mem := k.mem.writeBytes a bs, scErr := k.scErr.filter fun e => e.1 < a / 32 || (a + bs.length + 31) / 32 ≤ e.1 }

theorem poke_plain (s : State) (c a : Nat) (bs : List Byte) (h : (s.field (coreField c)).absMap = []) : s.poke c a bs = s.updCore c fun k => k.poked a bs := by
  unfold State.poke
  dsimp only
  rw [h]
  rfl

theorem memOf_plain (s : State) (c : Nat) (h : (s.field (coreField c)).absMap = []) : s.memOf c = (s.core c).mem := by
  unfold State.memOf
  dsimp only
  rw [h]
  rfl

/-- Between `s` and `t` words were written in the scratchpads of the cores of `l`: other cores stand where no absorption redirects the writes. -/
structure Poked (s t : State) (l : List Nat) : Prop where
  frame : t = s.coresTo t
  others : (∀ c ∈ l, (s.field (coreField c)).absMap = []) → ∀ k, k ∉ l → t.core k = s.core k

theorem Poked.refl (s : State) (l : List Nat) : Poked s s l := ⟨rfl, fun _ _ _ => rfl⟩

theorem coresTo_trans {s t u : State} (h : t = s.coresTo t) (k : u = t.coresTo u) : u = s.coresTo u := k.trans (congrArg (State.coresTo · u) h :)

theorem Poked.trans {s t u : State} {l : List Nat} (h : Poked s t l) (k : Poked t u l) : Poked s u l := by
  have hf : ∀ f, t.field f = s.field f := fun f => field_congr (congrArg State.fields h.frame :) f
  exact ⟨coresTo_trans h.frame k.frame, fun hp c hc => (k.others (fun c hc => by rw [hf]; exact hp c hc) c hc).trans (h.others hp c hc)⟩

theorem Poked.poke (s : State) {c : Nat} {l : List Nat} (hc : c ∈ l) (a : Nat) (bs : List Byte) : Poked s (s.poke c a bs) l := by
  refine ⟨?_, fun hp k hk => ?_⟩
  · unfold State.poke
    dsimp only
    split
    · refine foldl_related (R := fun s t => t = s.coresTo t) (fun _ => rfl) coresTo_trans _ _ (fun t i => ?_) s
      split <;> rfl
    · rfl
  · rw [poke_plain s c a bs (hp c hc)]
    exact State.core_updCore_other s c k _ fun e => hk (e ▸ hc)

theorem Poked.fold {α : Type} {l : List Nat} (xs : List α) (g : State → α → State) (h : ∀ t, ∀ x ∈ xs, Poked t (g t x) l) (s : State) :
    Poked s (xs.foldl g s) l := by
  induction xs generalizing s with
  | nil => exact .refl s l
  | cons x xs ih => exact (h s x (.head _)).trans (ih (fun t y hy => h t y (.tail _ hy)) (g s x))

/-- A session's block maps are written in the cores of its regions. -/
theorem writeMaps_poked (s : State) (n : Nat) : Poked s (s.writeMaps n) ((s.sess n).regions.map Prod.fst) := by
  refine Poked.fold _ _ (fun t c hc => ?_) s
  split
  · exact .poke t hc _ _
  · exact .refl t _

/-! ### The block map -/

theorem leBytes_length (n v : Nat) : (leBytes n v).length = n := by
  induction n generalizing v with
  | zero => rfl
  | succ n ih => simp [leBytes, ih]

theorem mapEntry_length (a : Nat) (b : Bool) : (mapEntry a b).length = 4 := leBytes_length 4 _

theorem flatMap_length {α β : Type} (l : List α) (f : α → List β) (k : Nat) (h : ∀ x, (f x).length = k) : (l.flatMap f).length = l.length * k := by
  simp [List.length_flatMap, h]

/-- The map of a core's shared and private blocks is no longer than its map words, where it has room for the shared pages. -/
theorem mapBytes_length_le (split share entries bw base room : Nat) (shared : List Nat) (hs : 4 * shared.length ≤ room) (he : entries ≤ room) :
    (mapBytes split share entries bw base shared []).length ≤ 32 * (1 + ceilDiv room 8) := by
  have hblocks : ∀ sh, ((shared.flatMap fun b => (List.range 4).flatMap fun i => mapEntry (b + i * bw) sh)).length = shared.length * 16 := fun sh =>
    flatMap_length _ _ 16 fun b => by rw [flatMap_length _ _ 4 fun i => mapEntry_length _ _, List.length_range]
  have hrest : ∀ n, ((List.range n).flatMap fun j => mapEntry (base + j * bw) false).length = n * 4 := fun n => by
    rw [flatMap_length _ _ 4 fun j => mapEntry_length _ _, List.length_range]
  unfold mapBytes ceilDiv
  simp only [List.length_append, List.length_replicate, leBytes_length, hblocks, hrest, List.flatMap_nil, List.length_nil]
  omega

/-- Writing an entry of a table keeps its keys, in their order. -/
theorem Tbl.keys_set {α : Type} (t : Tbl α) (k : Nat) (v : α) : (t.map Prod.fst).Sublist ((t.set k v).map Prod.fst) := by
  induction t with
  | nil => exact List.nil_sublist _
  | cons e t ih =>
    obtain ⟨j, w⟩ := e
    unfold Tbl.set
    split
    case isTrue h => simp [h]
    case isFalse =>
      split
      · exact List.sublist_cons_self _ _
      · exact ih.cons_cons j

/-- A change of a core's memory leaves its part in its stage: more cores may be listed, so that its share of each map can only fall. -/
theorem kvShare_updCore (s : State) (c k : Nat) (g : CoreSt → CoreSt) (hs : (g (s.core c)).stage = (s.core c).stage)
    (ha : (g (s.core c)).kvAppend = (s.core c).kvAppend) : (s.kvShare k).1 ≤ ((s.updCore c g).kvShare k).1 := by
  have hcore : ∀ n, ((s.updCore c g).core n).stage = (s.core n).stage ∧ ((s.updCore c g).core n).kvAppend = (s.core n).kvAppend := fun n => by
    by_cases h : n = c
    · subst h
      rw [State.core_updCore]
      exact ⟨hs, ha⟩
    · rw [State.core_updCore_other s c n g h]
      exact ⟨rfl, rfl⟩
  have hfield : ∀ f, (s.updCore c g).field f = s.field f := fun f => rfl
  have hplc : ∀ p, (s.updCore c g).plc p = s.plc p := fun p => rfl
  have hlisted : ∀ p, (s.coresOfPlacement p).Sublist ((s.updCore c g).coresOfPlacement p) := fun p => by
    have hmap : ∀ u : State, u.coresOfPlacement p
        = (u.cores.map Prod.fst).filter fun n => (u.field (coreField n)).placement == some p && (u.field (coreField n)).role == .active := fun u => by
      rw [State.coresOfPlacement, List.filter_map]
      rfl
    rw [hmap, hmap]
    exact (Tbl.keys_set s.cores c _).filter _
  have hkv : ∀ p, (s.kvCores p).Sublist ((s.updCore c g).kvCores p) := fun p => by
    simp only [State.kvCores, hcore]
    exact (hlisted p).filter _
  unfold State.kvShare
  rw [hfield]
  split
  · exact Nat.le_refl 1
  · next p _ =>
    simp only [hcore, hplc]
    have hlen := ((hkv p).filter fun x => decide ((s.core x).stage = (s.core k).stage)).length_le
    exact max_le_max (Nat.le_refl 1) (Nat.div_le_div_right (Nat.mul_le_mul_right _ hlen))

end Sys2Proof.Machine
end

section
/-! PROOFS. Pause copies, holds, copies of pages, waits and wakes end as their completions and limits say (R58, R190-R194, R201-R211, R221, R228,
R229, R234, R252, R332). -/

namespace Sys2Proof.Machine
open Sys2Proof

/-! ### Copies back (R203) -/

theorem kvShare_pos (s : State) (c : Nat) : 0 < (s.kvShare c).1 := by
  unfold State.kvShare
  split
  · exact Nat.one_pos
  · exact Nat.lt_of_lt_of_le Nat.one_pos (Nat.le_max_left _ _)

theorem mapEntries_anti (cls : Nat) {m n : Nat} (hm : 0 < m) (h : m ≤ n) : mapEntries cls n ≤ mapEntries cls m :=
  Nat.div_le_div_left (Nat.mul_le_mul_left 64 h) (by omega)

/-- One region of a session, as `d` has it, gets its copied blocks back, and the page slots the copied pages. -/
noncomputable def State.restoreRegion (d : Desc) (r : PauseRec) (s : State) (g : Nat × Nat × Nat × Nat) : State :=
  let back := r.copied.filterMap fun i => d.pages[i]?
  let copy (lo words : Nat) : List Byte := ((r.bytes.getD g.1 []).bytes lo (32 * words))
  let s := s.poke g.1 (32 * s.kvBaseOf g) (copy 0 (s.privateBlocks d g.1 r.kvFill * s.kvBlock g.1))
  (List.range back.length).foldl (fun s j =>
    match ((s.asp d.airspace).carvings.find? fun cv => cv.core = g.1).bind fun cv => cv.pageBase (back.getD j 0) with
    | none => s
    | some b => s.poke g.1 (32 * b) (copy (2 ^ 32 * (j + 1)) (4 * s.kvBlock g.1))) s

/-- A session whose copy-back has ended, and its count. -/
noncomputable def State.copiedBack (s : State) (n : Nat) : State :=
  (s.bump Reg.Cloud.RESUME_COPIES).updSess n fun d => { d with kvHeld := false, copyBack := false }

theorem State.sess_copiedBack (s : State) (n : Nat) : (s.copiedBack n).sess n = { s.sess n with kvHeld := false, copyBack := false } :=
  State.sess_updSess _ n _

theorem State.core_copiedBack (s : State) (n k : Nat) : (s.copiedBack n).core k = s.core k := rfl

theorem opCopyBack_idle (n : Nat) (ok : Bool) (s : State) (h : (s.sess n).pauseRec = none ∨ (s.sess n).copyBack = false) : opCopyBack n ok s = s := by
  unfold opCopyBack
  dsimp only
  split
  · rfl
  · next r hr => rw [if_pos (by simp [h.resolve_left (by simp [hr])])]

theorem opCopyBack_done (n : Nat) (s : State) (r : PauseRec) (hr : (s.sess n).pauseRec = some r) (hc : (s.sess n).copyBack = true) :
    opCopyBack n true s = (((((s.sess n).regions.foldl (State.restoreRegion (s.sess n) r) s).dropPause n).writeMaps n)).copiedBack n := by
  unfold opCopyBack
  simp only [hr, hc, Bool.not_true, Bool.false_eq_true, if_false]
  rfl

theorem opCopyBack_failed (n : Nat) (s : State) (r : PauseRec) (hr : (s.sess n).pauseRec = some r) (hc : (s.sess n).copyBack = true) :
    opCopyBack n false s = ((((s.badLine (s.asp (s.sess n).airspace).stripes r.pages).releaseKv n).dropPause n).updSess n
      fun d => { d with kvHeld := false, copyBack := false }) := by
  unfold opCopyBack
  simp only [hr, hc, Bool.not_true, Bool.not_false, Bool.false_eq_true, if_false, if_true]

theorem restoreRegion_poked (d : Desc) (r : PauseRec) (s : State) (g : Nat × Nat × Nat × Nat) {l : List Nat} (hg : g.1 ∈ l) :
    Poked s (s.restoreRegion d r g) l := by
  refine Poked.trans (Poked.poke s hg _ _) (Poked.fold _ _ (fun t j _ => ?_) _)
  split
  · exact .refl t l
  · exact .poke t hg _ _

/-- What was written in cores of regions, in the words of the regions. -/
theorem Poked.regions {s t : State} {l : List (Nat × Nat × Nat × Nat)} (h : Poked s t (l.map Prod.fst)) :
    (∀ g ∈ l, (s.field (coreField g.1)).absMap = []) → ∀ k, (∀ g ∈ l, g.1 ≠ k) → t.core k = s.core k := fun hp k hk =>
  h.others (fun c hc => by obtain ⟨g, hg, rfl⟩ := List.mem_map.1 hc; exact hp g hg) k fun hm => by
    obtain ⟨g, hg, rfl⟩ := List.mem_map.1 hm
    exact hk g hg rfl

/-- A session whose pause record goes keeps its place, its region and its pages. -/
theorem Desc.pauseDropped_keeps (e : Desc) : e.pauseDropped.airspace = e.airspace ∧ e.pauseDropped.regions = e.regions ∧ e.pauseDropped.pages = e.pages
    ∧ e.pauseDropped.cls = e.cls ∧ e.pauseDropped.registering = e.registering := by
  unfold Desc.pauseDropped
  split
  · exact ⟨rfl, rfl, rfl, rfl, rfl⟩
  · exact ⟨rfl, rfl, rfl, rfl, rfl⟩

theorem Desc.pauseDropped_some {e : Desc} {r : PauseRec} (h : e.pauseRec = some r) :
    e.pauseDropped = { e with pauseRec := none, kvHeld := false, copyBack := false } := if_neg (by simp [h])

/-- The parts of a copy-back: the blocks restored (`u`), the record gone (`v`), the maps written (`w`). -/
theorem copyBack_parts (n : Nat) (s : State) (r : PauseRec) (hr : (s.sess n).pauseRec = some r) (hc : (s.sess n).copyBack = true) :
    ∃ u v w : State, u = (s.sess n).regions.foldl (State.restoreRegion (s.sess n) r) s ∧ v = u.dropPause n ∧ w = v.writeMaps n
      ∧ opCopyBack n true s = w.copiedBack n ∧ Poked s u ((s.sess n).regions.map Prod.fst) ∧ Poked v w ((s.sess n).regions.map Prod.fst)
      ∧ KvMoved u v n (s.sess n).airspace (s.sess n).pauseDropped ((s.asp (s.sess n).airspace).pauseDropped (s.sess n)) := by
  have hu : Poked s ((s.sess n).regions.foldl (State.restoreRegion (s.sess n) r) s) ((s.sess n).regions.map Prod.fst) :=
    Poked.fold _ _ (fun t g hg => restoreRegion_poked _ _ t g (List.mem_map_of_mem hg)) s
  refine ⟨_, _, _, rfl, rfl, rfl, opCopyBack_done n s r hr hc, hu, ?_, ?_⟩
  · have hv : KvMoved _ _ n _ _ _ := (KvMoved.refl ((s.sess n).regions.foldl (State.restoreRegion (s.sess n) r) s) n _).dropPause rfl
    have hw := writeMaps_poked (((s.sess n).regions.foldl (State.restoreRegion (s.sess n) r) s).dropPause n) n
    rw [hv.sess, (Desc.pauseDropped_keeps _).2.1, sess_congr (congrArg State.sessions hu.frame :) n] at hw
    exact hw
  · have hs : ((s.sess n).regions.foldl (State.restoreRegion (s.sess n) r) s).sess n = s.sess n := sess_congr (congrArg State.sessions hu.frame :) n
    have ha : ((s.sess n).regions.foldl (State.restoreRegion (s.sess n) r) s).asp (s.sess n).airspace = s.asp (s.sess n).airspace :=
      asp_congr (congrArg State.airspaces hu.frame :) _
    have hv := (KvMoved.refl ((s.sess n).regions.foldl (State.restoreRegion (s.sess n) r) s) n (s.sess n).airspace).dropPause (congrArg Desc.airspace hs)
    rw [hs, ha] at hv
    exact hv

/-- A copy-back of session `n` that is done leads from `s` to `t`. -/
structure CopiedBack (s t : State) (n : Nat) : Prop where
  only : ∀ m, m ≠ n → t.sess m = s.sess m
  sess : t.sess n = (s.sess n).pauseDropped
  spaces : ∀ b, b ≠ (s.sess n).airspace → t.asp b = s.asp b
  asp : t.asp (s.sess n).airspace = (s.asp (s.sess n).airspace).pauseDropped (s.sess n)
  frame : t = s.copyTo t
  counted : t.get Reg.Cloud.RESUME_COPIES
    = min (s.get Reg.Cloud.RESUME_COPIES + 1) (2 ^ (Reg.Cloud.RESUME_COPIES.hi - Reg.Cloud.RESUME_COPIES.lo + 1) - 1)
  regs : ∀ k, k ∉ [Reg.Cloud.RESUME_COPIES.addr] → t.reg k = s.reg k
  cores : (∀ g ∈ (s.sess n).regions, (s.field (coreField g.1)).absMap = []) → ∀ k, (∀ g ∈ (s.sess n).regions, g.1 ≠ k) → t.core k = s.core k

theorem copyBack_done (n : Nat) (s : State) (r : PauseRec) (hr : (s.sess n).pauseRec = some r) (hc : (s.sess n).copyBack = true) :
    CopiedBack s (opCopyBack n true s) n := by
  obtain ⟨u, v, w, -, -, -, he, hu, hw, hv⟩ := copyBack_parts n s r hr hc
  rw [he]
  have hf : w = ((s.coresTo u).kvTo v).coresTo w := hw.frame.trans (congrArg (State.coresTo · w) (hv.frame.trans (congrArg (State.kvTo · v) hu.frame)))
  have hregs : w.regs = s.regs := (congrArg State.regs hw.frame :).trans ((congrArg State.regs hv.frame :).trans (congrArg State.regs hu.frame :))
  have hsess : ∀ m, w.sess m = v.sess m := fun m => sess_congr (congrArg State.sessions hw.frame :) m
  have hasp : ∀ b, w.asp b = v.asp b := fun b => asp_congr (congrArg State.airspaces hw.frame :) b
  have hfields : v.fields = s.fields := (congrArg State.fields hv.frame :).trans (congrArg State.fields hu.frame :)
  refine ⟨fun m hm => ?_, ?_, fun b hb => ?_, (hasp _).trans hv.asp, ?_, ?_, fun a ha => ?_, fun hp c hcore => ?_⟩
  · exact (State.sess_updSess_other _ n m _ hm).trans ((hsess m).trans ((hv.others m hm).trans (sess_congr (congrArg State.sessions hu.frame :) m)))
  · rw [State.sess_copiedBack, hsess, hv.sess, Desc.pauseDropped_some hr]
  · exact (hasp b).trans ((hv.spaces b hb).trans (asp_congr (congrArg State.airspaces hu.frame :) b))
  · exact (congrArg (State.copyTo · (w.copiedBack n)) hf :)
  · exact (get_bump w _ (by decide) (by decide)).trans (by rw [get_congr hregs])
  · exact (State.reg_put_other w _ _ _ (by simpa using ha)).trans (reg_congr hregs a)
  · have hvc : v.core c = u.core c := core_congr (congrArg State.cores hv.frame :) c
    exact (hw.regions (fun g hg => by rw [field_congr hfields]; exact hp g hg) c hcore).trans (hvc.trans (hu.regions hp c hcore))

/-- A region that gets no copied pages back has its private blocks written. -/
theorem restoreRegion_blocks (d : Desc) (r : PauseRec) (s : State) (g : Nat × Nat × Nat × Nat) (h : r.copied = []) :
    s.restoreRegion d r g = s.poke g.1 (32 * s.kvBaseOf g) ((r.bytes.getD g.1 []).bytes 0 (32 * (s.privateBlocks d g.1 r.kvFill * s.kvBlock g.1))) := by
  unfold State.restoreRegion
  rw [h]
  rfl

theorem poke_mem (s : State) (c a : Nat) (bs : List Byte) (h : (s.field (coreField c)).absMap = []) :
    ((s.poke c a bs).core c).mem = (s.core c).mem.writeBytes a bs := by
  rw [poke_plain s c a bs h, State.core_updCore]
  rfl

/-- The map of a session with one region stands in the map words of that region. -/
theorem writeMaps_single (s : State) (n : Nat) (g : Nat × Nat × Nat × Nat) (room : Nat) (hg : (s.sess n).regions = [g])
    (hp : (s.field (coreField g.1)).absMap = []) (hr : (s.sess n).registering = none) (hs : 4 * (s.sess n).pages.length ≤ room)
    (he : mapEntries (s.sess n).cls (s.kvShare g.1).1 ≤ room) :
    ∃ m : List Byte, m.length ≤ 32 * (1 + ceilDiv room 8) ∧ ((s.writeMaps n).core g.1).mem = (s.core g.1).mem.writeBytes (32 * g.2.1) m := by
  have hown : s.ownPages n = [] := by
    unfold State.ownPages
    dsimp only
    rw [hr]
  obtain ⟨c, base, cls, rest⟩ := g
  unfold State.writeMaps State.forAll
  simp only [hg, hown, List.map_cons, List.map_nil, List.foldl_cons, List.foldl_nil, List.find?_cons, decide_true]
  cases hcv : (s.asp (s.sess n).airspace).carvings.find? fun cv => cv.core = c with
  | none => exact ⟨[], Nat.zero_le _, rfl⟩
  | some cv =>
    refine ⟨mapBytes (s.kvShare c).1 (s.kvShare c).2 (mapEntries (s.sess n).cls (s.kvShare c).1) (s.kvBlock c) (base + mapWords cls (s.kvShare c).1)
      ((s.sess n).pages.filterMap cv.pageBase) [], mapBytes_length_le _ _ _ _ _ room _ ?_ he, ?_⟩
    · exact Nat.le_trans (Nat.mul_le_mul_left 4 (List.length_filterMap_le _ _)) hs
    · simp only [List.filterMap_nil]
      exact poke_mem s c _ _ hp

/-- A core's memory after a copy-back of its blocks alone: the blocks as they were saved, before them the map. -/
theorem copyBack_memory (n : Nat) (s : State) (r : PauseRec) (g : Nat × Nat × Nat × Nat) (hr : (s.sess n).pauseRec = some r) (hc : (s.sess n).copyBack = true)
    (hg : (s.sess n).regions = [g]) (hp : (s.field (coreField g.1)).absMap = []) (hcopied : r.copied = []) (hreg : (s.sess n).registering = none)
    (hcls : (s.sess n).cls = g.2.2.1) (hroom : 4 * (s.sess n).pages.length ≤ mapEntries (s.sess n).cls (s.kvShare g.1).1) :
    let t := opCopyBack n true s
    let start := 32 * s.kvBaseOf g
    let size := 32 * (s.privateBlocks (s.sess n) g.1 r.kvFill * s.kvBlock g.1)
    (t.core g.1).mem.bytes start size = (r.bytes.getD g.1 []).bytes 0 size
    ∧ ∀ k, (k < 32 * g.2.1 ∨ start + size ≤ k) → (t.core g.1).mem.read k = (s.core g.1).mem.read k := by
  obtain ⟨u, v, w, hu, -, hw, he, -, -, hv⟩ := copyBack_parts n s r hr hc
  generalize hbs : (r.bytes.getD g.1 []).bytes 0 (32 * (s.privateBlocks (s.sess n) g.1 r.kvFill * s.kvBlock g.1)) = bs
  have hlen : bs.length = 32 * (s.privateBlocks (s.sess n) g.1 r.kvFill * s.kvBlock g.1) := by simp [← hbs, Mem.bytes]
  have hu : u = s.updCore g.1 fun k => k.poked (32 * s.kvBaseOf g) bs := by
    rw [hu, hg, List.foldl_cons, List.foldl_nil, restoreRegion_blocks _ _ _ _ hcopied, poke_plain _ _ _ _ hp, hbs]
  obtain ⟨-, hregions, hpages, hcls', hregs⟩ := Desc.pauseDropped_keeps (s.sess n)
  have hvcore : v.core g.1 = (s.core g.1).poked (32 * s.kvBaseOf g) bs :=
    (core_congr (s := u) (t := v) (congrArg State.cores hv.frame :) g.1).trans (by rw [hu, State.core_updCore])
  have hshare : v.kvShare g.1 = u.kvShare g.1 := by rw [hv.frame]; rfl
  have hsplit : mapEntries (s.sess n).cls (v.kvShare g.1).1 ≤ mapEntries (s.sess n).cls (s.kvShare g.1).1 := by
    rw [hshare, hu]
    exact mapEntries_anti _ (kvShare_pos s g.1) (kvShare_updCore s g.1 g.1 _ rfl rfl)
  obtain ⟨m, hm, hmem⟩ := writeMaps_single v n g (mapEntries (s.sess n).cls (s.kvShare g.1).1) (by rw [hv.sess, hregions, hg])
    ((congrArg FieldSt.absMap (field_congr (s := u) (t := v) (congrArg State.fields hv.frame :) _)).trans (by rw [hu]; exact hp)) (by rw [hv.sess, hregs, hreg]) (by rw [hv.sess, hpages]; exact hroom)
    (by rw [hv.sess, hcls']; exact hsplit)
  have hstart : 32 * g.2.1 + m.length ≤ 32 * s.kvBaseOf g := by
    have hb : s.kvBaseOf g = g.2.1 + (1 + ceilDiv (mapEntries (s.sess n).cls (s.kvShare g.1).1) 8) := by rw [hcls]; rfl
    rw [hb]
    omega
  have ht : ((opCopyBack n true s).core g.1).mem = ((s.core g.1).mem.writeBytes (32 * s.kvBaseOf g) bs).writeBytes (32 * g.2.1) m := by
    rw [he, State.core_copiedBack, hw, hmem, hvcore]
    rfl
  intro t start size
  simp only [t, ht]
  refine ⟨?_, fun k hk => ?_⟩
  · rw [show (r.bytes.getD g.1 []).bytes 0 size = bs from hbs, show size = bs.length from hlen.symm]
    refine Eq.trans (List.ext_getElem (by simp [Mem.bytes]) fun i hi _ => ?_) (Mem.bytes_writeBytes_same (s.core g.1).mem (32 * s.kvBaseOf g) bs)
    simp only [Mem.bytes, List.getElem_map, List.getElem_range]
    exact Mem.read_writeBytes_apart _ _ _ _ (by omega)
  · rw [Mem.read_writeBytes_apart _ _ _ _ (by omega), Mem.read_writeBytes_apart _ _ _ _ (by omega)]

/-! ### A line found faulty (R201, R206) -/

/-- The times at which uncorrectable lines of a stack were read within the last 10 s. -/
noncomputable def State.recentBad (s : State) (k : Nat) : List Nat := (s.stack k).badLines.filter fun t => s.tick.wall480 < t + 480 * 10 ^ 9

/-- An uncorrectable line is marked. -/
noncomputable def State.badLineSeen (s : State) : State := State.mark { s with freeUses := s.freeUses + 1 } Reg.Cloud.UNCORR

/-- An uncorrectable line of stack `k` is marked and counted. -/
noncomputable def State.badLineOf (s : State) (k : Nat) : State :=
  (s.badLineSeen.bump (Reg.Cloud.UNCORR_LINES k)).updStack k fun x => { x with badLines := s.recentBad k ++ [s.tick.wall480] }

theorem badLine_cases (s : State) (stripes pages : List Nat) (h : ∀ k, (s.recentBad k).length < 15) : s.badLine stripes pages = s.badLineSeen
    ∨ ∃ p ∈ pages, ∃ k o, s.cloudPage stripes p = some (k, o) ∧ s.badLine stripes pages = s.badLineOf k := by
  unfold State.badLine State.fresh
  dsimp only
  split
  · exact .inl rfl
  · next k o hbind =>
    obtain ⟨p, hp, hpage⟩ := Option.bind_eq_some_iff.1 hbind
    have hlen : ¬16 ≤ (s.recentBad k ++ [s.tick.wall480]).length := by
      have := h k
      rw [List.length_append, List.length_singleton]
      omega
    exact .inr ⟨p, List.mem_of_getElem? hp, k, o, hpage, if_neg hlen⟩

theorem State.stack_updStack_other (s : State) (n k : Nat) (g : StackSt → StackSt) (h : k ≠ n) : (s.updStack n g).stack k = s.stack k :=
  Tbl.getD_set_other _ _ _ _ _ h

/-- A page of a partition stands in one of the 48 stacks. -/
theorem cloudPage_lt {s : State} {stripes : List Nat} {p k o : Nat} (h : s.cloudPage stripes p = some (k, o)) : k < 48 := by
  simp only [State.cloudPage, Option.ite_none_left_eq_some, Option.ite_none_right_eq_some, Option.some.injEq, Prod.mk.injEq] at h
  obtain ⟨-, -, rfl, -⟩ := h
  exact Nat.mod_lt _ (by decide)

theorem reg_badLineSeen (s : State) (a : Nat) (h : a ≠ Reg.Cloud.UNCORR.addr) : s.badLineSeen.reg a = s.reg a :=
  (State.reg_put_other _ _ _ _ h).trans (reg_congr rfl a)

theorem uncorrLines_apart (k : Nat) : (Reg.Cloud.UNCORR_LINES k).addr ≠ Reg.Cloud.UNCORR.addr := by
  have hlow : Reg.Cloud.UNCORR.addr < 0x740108 := by decide
  have hline : (Reg.Cloud.UNCORR_LINES k).addr = 0x740108 + 0x10 * k := rfl
  omega

/-- Between `s` and `t` one line of one of `pages` was marked and counted as uncorrectable, and its stack stays. -/
structure BadLineMarked (s t : State) (stripes pages : List Nat) : Prop where
  marked : t.get Reg.Cloud.UNCORR = 1
  regs : ∀ a, a ∉ Reg.Cloud.UNCORR.addr :: (List.range 48).map (fun k => (Reg.Cloud.UNCORR_LINES k).addr) → t.reg a = s.reg a
  lines : ∀ k, t.stack k = s.stack k ∨ ((∃ p ∈ pages, ∃ o, s.cloudPage stripes p = some (k, o))
    ∧ t.stack k = { s.stack k with badLines := s.recentBad k ++ [s.tick.wall480] }
    ∧ t.get (Reg.Cloud.UNCORR_LINES k) = min (s.get (Reg.Cloud.UNCORR_LINES k) + 1)
      (2 ^ ((Reg.Cloud.UNCORR_LINES k).hi - (Reg.Cloud.UNCORR_LINES k).lo + 1) - 1))

theorem BadLineMarked.congr {s t u : State} {stripes pages : List Nat} (h : BadLineMarked s u stripes pages) (hr : t.regs = u.regs) (hb : t.hbm = u.hbm) :
    BadLineMarked s t stripes pages := by
  refine ⟨(get_congr hr _).trans h.marked, fun a ha => (reg_congr hr a).trans (h.regs a ha), fun k => ?_⟩
  have hstack : t.stack k = u.stack k := congrArg (fun l : Tbl StackSt => l.getD k {}) hb
  rw [hstack, get_congr hr]
  exact h.lines k

theorem regs_badLineOf (s : State) (k : Nat) : (s.badLineOf k).regs = (s.badLineSeen.bump (Reg.Cloud.UNCORR_LINES k)).regs := rfl

theorem badLine_marked (s : State) (stripes pages : List Nat) (h : ∀ k, (s.recentBad k).length < 15) :
    BadLineMarked s (s.badLine stripes pages) stripes pages := by
  have hmark : s.badLineSeen.get Reg.Cloud.UNCORR = 1 := get_mark _ _ (by decide) (by decide)
  obtain he | ⟨p, hp, k, o, hpage, he⟩ := badLine_cases s stripes pages h
  · rw [he]
    exact ⟨hmark, fun a ha => reg_badLineSeen s a fun e => ha (e ▸ .head _), fun k => .inl rfl⟩
  · rw [he]
    refine ⟨?_, fun a ha => ?_, fun j => ?_⟩
    · exact (get_congr (regs_badLineOf s k) _).trans ((State.get_put_other _ _ _ _ (uncorrLines_apart k).symm).trans hmark)
    · refine (reg_congr (regs_badLineOf s k) a).trans ((State.reg_put_other _ _ _ _ fun e => ha ?_).trans (reg_badLineSeen s a fun e => ha (e ▸ .head _)))
      exact .tail _ (List.mem_map.2 ⟨k, List.mem_range.2 (cloudPage_lt hpage), e.symm⟩)
    · by_cases hj : j = k
      · subst hj
        refine .inr ⟨⟨p, hp, o, hpage⟩, State.stack_updStack _ j _, ?_⟩
        have hsame : s.badLineSeen.get (Reg.Cloud.UNCORR_LINES j) = s.get (Reg.Cloud.UNCORR_LINES j) := get_congr_reg (reg_badLineSeen s _ (uncorrLines_apart j))
        exact (get_congr (regs_badLineOf s j) _).trans ((get_bump _ _ (show 31 < 32 by decide) (Nat.zero_le _)).trans (by rw [hsame]))
      · exact .inl (State.stack_updStack_other _ k j _ hj)

/-- The state `s` with what an uncorrectable line moves taken from `t`. -/
noncomputable def State.badTo (s t : State) : State := { s with regs := t.regs, hbm := t.hbm, freeUses := s.freeUses + 1 }

theorem badLine_frame (s : State) (stripes pages : List Nat) (h : ∀ k, (s.recentBad k).length < 15) :
    s.badLine stripes pages = s.badTo (s.badLine stripes pages) := by
  obtain he | ⟨p, hp, k, o, hpage, he⟩ := badLine_cases s stripes pages h
  · rw [he]
    rfl
  · rw [he]
    rfl

/-- The state `s` with all that a copy-back that fails may move taken from `t`, but for the use of a free value. -/
noncomputable def State.failedTo (s t : State) : State := { s with sessions := t.sessions, airspaces := t.airspaces, regs := t.regs, hbm := t.hbm }

/-- A copy-back of session `n` that fails leads from `s` to `t`. -/
structure CopyBackFailed (s t : State) (n : Nat) (pages : List Nat) : Prop where
  only : ∀ m, m ≠ n → t.sess m = s.sess m
  sess : t.sess n = (s.sess n).kvReleased.pauseDropped
  spaces : ∀ b, b ≠ (s.sess n).airspace → t.asp b = s.asp b
  asp : t.asp (s.sess n).airspace = ((s.asp (s.sess n).airspace).kvReleased (s.sess n) n).pauseDropped (s.sess n).kvReleased
  frame : t = State.failedTo { s with freeUses := s.freeUses + 1 } t
  line : BadLineMarked s t (s.asp (s.sess n).airspace).stripes pages

theorem copyBack_failed (n : Nat) (s : State) (r : PauseRec) (hr : (s.sess n).pauseRec = some r) (hc : (s.sess n).copyBack = true)
    (h : ∀ k, (s.recentBad k).length < 15) : CopyBackFailed s (opCopyBack n false s) n r.pages := by
  have hu := badLine_frame s (s.asp (s.sess n).airspace).stripes r.pages h
  have hline := badLine_marked s (s.asp (s.sess n).airspace).stripes r.pages h
  rw [opCopyBack_failed n s r hr hc]
  generalize s.badLine (s.asp (s.sess n).airspace).stripes r.pages = u at hu hline ⊢
  have hs : ∀ m, u.sess m = s.sess m := fun m => sess_congr (congrArg State.sessions hu :) m
  have ha : ∀ b, u.asp b = s.asp b := fun b => asp_congr (congrArg State.airspaces hu :) b
  have hkv := (((KvMoved.refl u n (s.sess n).airspace).releaseKv (congrArg Desc.airspace (hs n))).dropPause
    (congrArg (fun d => d.kvReleased.airspace) (hs n))).updSess fun d => { d with kvHeld := false, copyBack := false }
  generalize (((u.releaseKv n).dropPause n).updSess n fun d => { d with kvHeld := false, copyBack := false }) = t at hkv ⊢
  have hsess := hkv.sess
  have hasp := hkv.asp
  rw [hs, ha] at hasp
  rw [hs, Desc.pauseDropped_some (e := (s.sess n).kvReleased) hr] at hsess
  refine ⟨fun m hm => (hkv.others m hm).trans (hs m), hsess.trans (Desc.pauseDropped_some (e := (s.sess n).kvReleased) hr).symm,
    fun b hb => (hkv.spaces b hb).trans (ha b), hasp, (congrArg (State.failedTo · t) (hkv.frame.trans (congrArg (State.kvTo · t) hu)) :),
    hline.congr (congrArg State.regs hkv.frame :) (congrArg State.hbm hkv.frame :)⟩

/-! ### Holds (R204, R209, R211, R229, R234) -/

theorem opPauseCopy_done (n : Nat) (s : State) (r : PauseRec) (hst : (s.sess n).st = .paused) (hr : (s.sess n).pauseRec = some r) (hc : r.copying = true) :
    opPauseCopy n s = s.updSess n fun d => { d with pauseRec := some { r with copying := false } } := by
  unfold opPauseCopy
  simp only [hr, hst, hc, beq_self_eq_true, Bool.and_self, if_true]

theorem opPauseCopy_idle (n : Nat) (s : State) (h : (∀ r, (s.sess n).pauseRec = some r → r.copying = false) ∨ (s.sess n).st ≠ .paused) :
    opPauseCopy n s = s := by
  unfold opPauseCopy
  dsimp only
  split
  · rfl
  · next r hr => exact if_neg (by simpa using fun hst => h.elim (· r hr) (absurd hst))

theorem opPauseTtl_idle (n : Nat) (s : State) (h : (s.sess n).st ≠ .paused ∨ (s.sess n).kvHeld = false ∨ (s.sess n).copyBack = true) : opPauseTtl n s = s := by
  unfold opPauseTtl
  refine if_neg fun hif => ?_
  simp only [Bool.and_eq_true, beq_iff_eq, Bool.not_eq_true'] at hif
  obtain ⟨⟨hst, hk⟩, hb⟩ := hif
  simp [hst, hk, hb] at h

/-- A kept copy that has ended by its time, before the report. -/
noncomputable def State.copyExpired (s : State) (n : Nat) : State := ((s.dropPause n).bump Reg.Cloud.EXPIRED_COUNT).mark Reg.Cloud.KV_EXPIRED

theorem opPauseTtl_expired (n : Nat) (s : State) (hst : (s.sess n).st = .paused) (hk : (s.sess n).kvHeld = true) (hb : (s.sess n).copyBack = false) :
    opPauseTtl n s = (s.copyExpired n).event
      { code := 0x0402, placement := (s.sess n).placement, airspace := (s.sess n).airspace, detail := le4 44 (handleOf n (s.sess n)) } :=
  if_pos (by simp [hst, hk, hb])

/-- The session and its airspace once its kept copy has ended. -/
theorem copyExpired_spec (n : Nat) (s : State) :
    let u := s.copyExpired n
    (∀ m, m ≠ n → u.sess m = s.sess m) ∧ u.sess n = (s.sess n).pauseDropped ∧ (∀ b, b ≠ (s.sess n).airspace → u.asp b = s.asp b)
    ∧ u.asp (s.sess n).airspace = (s.asp (s.sess n).airspace).pauseDropped (s.sess n)
    ∧ u = { s with sessions := u.sessions, airspaces := u.airspaces, regs := u.regs }
    ∧ u.get Reg.Cloud.EXPIRED_COUNT = min (s.get Reg.Cloud.EXPIRED_COUNT + 1) (2 ^ (Reg.Cloud.EXPIRED_COUNT.hi - Reg.Cloud.EXPIRED_COUNT.lo + 1) - 1)
    ∧ u.get Reg.Cloud.KV_EXPIRED = 1 ∧ ∀ k, k ∉ [Reg.Cloud.EXPIRED_COUNT.addr, Reg.Cloud.KV_EXPIRED.addr] → u.reg k = s.reg k := by
  have hv := (KvMoved.refl s n (s.sess n).airspace).dropPause rfl
  unfold State.copyExpired
  generalize s.dropPause n = v at hv
  obtain ⟨l, k, rfl⟩ : ∃ l k, v = { s with sessions := l, airspaces := k } := ⟨_, _, hv.frame⟩
  have hcount : ({ s with sessions := l, airspaces := k } : State).get Reg.Cloud.EXPIRED_COUNT = s.get Reg.Cloud.EXPIRED_COUNT := get_congr rfl _
  refine ⟨hv.others, hv.sess, hv.spaces, hv.asp, rfl, ?_, get_mark _ _ (by decide) (by decide), fun a ha => ?_⟩
  · exact (State.get_put_apart _ _ _ _ (by decide) (by decide) (by decide) (by decide)).trans
      ((get_bump _ _ (by decide) (by decide)).trans (by rw [hcount]))
  · obtain ⟨h1, h2⟩ := not_or.1 (by simpa using ha)
    exact (State.reg_put_other _ _ _ _ h2).trans ((State.reg_put_other _ _ _ _ h1).trans (reg_congr rfl a))

/-- A map over the values of a table, at one key. -/
theorem Tbl.getD_mapValues {α : Type} (t : Tbl α) (f : α → α) (k : Nat) (d : α) (hd : f d = d) :
    Tbl.getD (t.map fun e => (e.1, f e.2)) k d = f (t.getD k d) := by
  induction t with
  | nil => exact hd.symm
  | cons e t ih =>
    obtain ⟨j, v⟩ := e
    change (if j = k then f v else Tbl.getD (t.map fun e => (e.1, f e.2)) k d) = f (if j = k then v else Tbl.getD t k d)
    rw [ih, apply_ite f]

/-- A descriptor that becomes free: the next generation, and no stack holds a copy of its contrail. -/
theorem freeSession_spec (s : State) (n : Nat) :
    let t := s.freeSession n
    t = { s with sessions := t.sessions, hbm := t.hbm } ∧ (∀ m, m ≠ n → t.sess m = s.sess m)
    ∧ t.sess n = { generation := if (s.sess n).generation ≥ 1048575 then 1 else (s.sess n).generation + 1 }
    ∧ ∀ k, t.stack k = { s.stack k with spares := (s.stack k).spares.filter fun j => j.2 ≠ n } :=
  ⟨rfl, fun _ hm => Tbl.getD_set_other _ _ _ _ _ hm, Tbl.getD_set_same _ _ _ _,
    fun k => Tbl.getD_mapValues s.hbm (fun x => { x with spares := x.spares.filter fun j => j.2 ≠ n }) k {} rfl⟩

/-- A session that has ended, for what no longer matters of it. -/
noncomputable def Desc.finished (e : Desc) (reason : Nat) : Desc :=
  { e with
    st := .ended, endReason := reason, endPending := true, kvHeld := false, rebuilding := false, sampled := none, travDropped := false
    latch := 0, drainPause := false, cancelLatched := false, pauseLatched := false, kvLost := false, lane := none, phase := none }

/-- A placement without the bookings of session `n` and its lanes to come. -/
noncomputable def PlacementSt.unbooked (x : PlacementSt) (n now : Nat) : PlacementSt :=
  { x with ledger := x.ledger.filter fun b => b.session ≠ n, lanes := x.lanes.filter fun e => e.2.session ≠ n || e.2.from_ ≤ now }

theorem sess_dropLane (v : State) (n : Nat) : (v.dropLane n).sess n = { v.sess n with lane := none, phase := none } :=
  State.sess_updSess _ n fun d => { d with lane := none, phase := none }

theorem plc_dropLane (v : State) (n : Nat) : (v.dropLane n).plc (v.sess n).placement
    = { v.plc (v.sess n).placement with lanes := (v.plc (v.sess n).placement).lanes.filter fun e => e.2.session ≠ n || e.2.from_ ≤ v.tick.count } :=
  State.plc_updPlc v _ fun x => { x with lanes := x.lanes.filter fun e => e.2.session ≠ n || e.2.from_ ≤ v.tick.count }

theorem plc_dropLane_other (v : State) (n p : Nat) (h : p ≠ (v.sess n).placement) : (v.dropLane n).plc p = v.plc p :=
  State.plc_updPlc_other v _ p (fun x => { x with lanes := x.lanes.filter fun e => e.2.session ≠ n || e.2.from_ ≤ v.tick.count }) h

theorem plc_unbook (v : State) (n : Nat) : (v.unbook n).plc (v.sess n).placement
    = { v.plc (v.sess n).placement with ledger := (v.plc (v.sess n).placement).ledger.filter fun b => b.session ≠ n } :=
  State.plc_updPlc v _ fun x => { x with ledger := x.ledger.filter fun b => b.session ≠ n }

theorem plc_unbook_other (v : State) (n p : Nat) (h : p ≠ (v.sess n).placement) : (v.unbook n).plc p = v.plc p :=
  State.plc_updPlc_other v _ p (fun x => { x with ledger := x.ledger.filter fun b => b.session ≠ n }) h

/-- Session `n` without bookings and lane, and ended: `t` from `v`. -/
structure BookingsEnded (v t : State) (n reason : Nat) : Prop where
  only : ∀ m, m ≠ n → t.sess m = v.sess m
  sess : t.sess n = (v.sess n).finished reason
  plcs : ∀ p, p ≠ (v.sess n).placement → t.plc p = v.plc p
  plc : t.plc (v.sess n).placement = (v.plc (v.sess n).placement).unbooked n v.tick.count
  frame : t = { v with sessions := t.sessions, placements := t.placements }

theorem finishSession_ended (s : State) (n reason : Nat) : BookingsEnded ((s.releaseKv n).dropPause n) (s.finishSession n reason) n reason := by
  unfold State.finishSession
  generalize (s.releaseKv n).dropPause n = v
  have hs : (v.unbook n).sess n = v.sess n := rfl
  refine ⟨fun m hm => ?_, ?_, fun p hp => ?_, ?_, rfl⟩
  · exact (State.sess_updSess_other _ n m _ hm).trans (State.sess_updSess_other _ n m (fun d => { d with lane := none, phase := none }) hm)
  · exact (State.sess_updSess _ n _).trans (by rw [sess_dropLane, hs]; rfl)
  · exact (plc_dropLane_other (v.unbook n) n p hp).trans (plc_unbook_other v n p hp)
  · refine (plc_dropLane (v.unbook n) n).trans ?_
    rw [hs, plc_unbook]
    rfl

/-- The state `s` with all that the end of a session may move taken from `t`. -/
noncomputable def State.endTo (s t : State) : State := { s with sessions := t.sessions, airspaces := t.airspaces, placements := t.placements }

/-- What the end of session `n` takes from it, its airspace and its placement: `t` from `s`, all else as in `p`. -/
structure SessionFinished (s p t : State) (n reason : Nat) : Prop where
  only : ∀ m, m ≠ n → t.sess m = s.sess m
  sess : t.sess n = (s.sess n).kvReleased.pauseDropped.finished reason
  spaces : ∀ b, b ≠ (s.sess n).airspace → t.asp b = s.asp b
  asp : t.asp (s.sess n).airspace = ((s.asp (s.sess n).airspace).kvReleased (s.sess n) n).pauseDropped (s.sess n).kvReleased
  plcs : ∀ p, p ≠ (s.sess n).placement → t.plc p = s.plc p
  plc : t.plc (s.sess n).placement = (s.plc (s.sess n).placement).unbooked n s.tick.count
  frame : t = p.endTo t

theorem finishSession_spec (s : State) (n reason : Nat) : SessionFinished s s (s.finishSession n reason) n reason := by
  have hv := ((KvMoved.refl s n (s.sess n).airspace).releaseKv rfl).dropPause rfl
  have hplace : (s.sess n).kvReleased.pauseDropped.placement = (s.sess n).placement := by
    unfold Desc.pauseDropped
    split <;> rfl
  have he := finishSession_ended s n reason
  generalize (s.releaseKv n).dropPause n = v at hv he
  generalize s.finishSession n reason = t at he ⊢
  have hp : (v.sess n).placement = (s.sess n).placement := (congrArg Desc.placement hv.sess).trans hplace
  have hasp : ∀ b, t.asp b = v.asp b := fun b => asp_congr (congrArg State.airspaces he.frame :) b
  have hplc : ∀ p, v.plc p = s.plc p := fun p => (congrArg (State.plc · p) hv.frame :)
  have htick : v.tick = s.tick := (congrArg State.tick hv.frame :)
  refine ⟨fun m hm => (he.only m hm).trans (hv.others m hm), he.sess.trans (congrArg (Desc.finished · reason) hv.sess),
    fun b hb => (hasp b).trans (hv.spaces b hb), (hasp _).trans hv.asp, fun p hpn => (he.plcs p (hp ▸ hpn)).trans (hplc p), ?_, ?_⟩
  · have h := he.plc
    rwa [hp, hplc, htick] at h
  · exact (congrArg (State.endTo · t) (he.frame.trans (congrArg (fun v : State => { v with sessions := t.sessions, placements := t.placements }) hv.frame)) :)

/-! ### Copies of a partial page (R190, R192, R194) -/

/-- The register that counts a core's field's copies of partial pages. -/
abbrev cowReg (g : Nat × Nat × Nat × Nat) : Nat := (Reg.Kv.KV_COW (coreField g.1)).addr

/-- Between `s` and `t` blocks were copied within the cores of the regions `l`, and counted. -/
structure CowCopied (s t : State) (l : List (Nat × Nat × Nat × Nat)) : Prop where
  frame : t = s.cowTo t
  regs : ∀ a, a ∉ l.map cowReg → t.reg a = s.reg a
  others : (∀ g ∈ l, (s.field (coreField g.1)).absMap = []) → ∀ k, (∀ g ∈ l, g.1 ≠ k) → t.core k = s.core k

theorem CowCopied.refl (s : State) (l : List (Nat × Nat × Nat × Nat)) : CowCopied s s l := ⟨rfl, fun _ _ => rfl, fun _ _ _ => rfl⟩

theorem CowCopied.trans {s t u : State} {l : List (Nat × Nat × Nat × Nat)} (h : CowCopied s t l) (k : CowCopied t u l) : CowCopied s u l := by
  have hf : ∀ f, t.field f = s.field f := fun f => field_congr (congrArg State.fields h.frame :) f
  exact ⟨k.frame.trans (congrArg (State.cowTo · u) h.frame :), fun a ha => (k.regs a ha).trans (h.regs a ha),
    fun hp c hc => (k.others (fun g hg => by rw [hf]; exact hp g hg) c hc).trans (h.others hp c hc)⟩

theorem cowTo_of_coresTo {s t : State} (h : t = s.coresTo t) : t = s.cowTo t := (congrArg (State.cowTo · t) h :)

/-- A copy of words within a core, and its count. -/
noncomputable def State.cowCopy (s : State) (c src dst words blocks : Nat) : State := (s.count (Reg.Kv.KV_COW (coreField c)) blocks).copyWords c src dst words

theorem cowCopy_copied (s : State) (src dst words blocks : Nat) {g : Nat × Nat × Nat × Nat} {l : List (Nat × Nat × Nat × Nat)} (hg : g ∈ l) :
    CowCopied s (s.cowCopy g.1 src dst words blocks) l := by
  unfold State.cowCopy State.copyWords
  have hcount : CowCopied s (s.count (Reg.Kv.KV_COW (coreField g.1)) blocks) l :=
    ⟨rfl, fun a ha => State.reg_put_other _ _ _ _ fun e => ha (List.mem_map.2 ⟨g, hg, e.symm⟩), fun _ _ _ => rfl⟩
  generalize s.count (Reg.Kv.KV_COW (coreField g.1)) blocks = u at hcount
  have hp := Poked.poke u (List.mem_map_of_mem (f := Prod.fst) hg) (32 * dst) ((u.memOf g.1).bytes (32 * src) (32 * words))
  refine hcount.trans ⟨cowTo_of_coresTo hp.frame, fun a _ => reg_congr (congrArg State.regs hp.frame :) a, hp.regions⟩

theorem CowCopied.fold {l : List (Nat × Nat × Nat × Nat)} (xs : List (Nat × Nat × Nat × Nat)) (f : State → Nat × Nat × Nat × Nat → State)
    (h : ∀ t, ∀ x ∈ xs, CowCopied t (f t x) l) (s : State) : CowCopied s (xs.foldl f s) l := by
  induction xs generalizing s with
  | nil => exact .refl s l
  | cons x xs ih => exact (h s x (.head _)).trans (ih (fun t y hy => h t y (.tail _ hy)) (f s x))

theorem get_count (s : State) (f : Fld) (n : Nat) (hi : f.hi < 32) (hl : f.lo ≤ f.hi) :
    (s.count f n).get f = min (s.get f + n) (2 ^ (f.hi - f.lo + 1) - 1) := by
  have := Nat.two_pow_pos (f.hi - f.lo + 1)
  exact State.get_put s f _ hi hl (by omega)

theorem cowCopy_counted (s : State) (c src dst words blocks : Nat) : (s.cowCopy c src dst words blocks).get (Reg.Kv.KV_COW (coreField c))
    = min (s.get (Reg.Kv.KV_COW (coreField c)) + blocks) (2 ^ ((Reg.Kv.KV_COW (coreField c)).hi - (Reg.Kv.KV_COW (coreField c)).lo + 1) - 1) := by
  have hp := Poked.poke (s.count (Reg.Kv.KV_COW (coreField c)) blocks) (l := [c]) (.head _) (32 * dst)
    (((s.count (Reg.Kv.KV_COW (coreField c)) blocks).memOf c).bytes (32 * src) (32 * words))
  exact (get_congr (congrArg State.regs hp.frame :) _).trans (get_count _ _ _ (show 31 < 32 by decide) (Nat.zero_le _))

/-- The words stand where they were copied to; nothing else of the memory changes. -/
theorem cowCopy_writes (s : State) (c src dst words blocks : Nat) (h : (s.field (coreField c)).absMap = []) :
    let t := s.cowCopy c src dst words blocks
    let bs := (s.core c).mem.bytes (32 * src) (32 * words)
    (t.core c).mem.bytes (32 * dst) bs.length = bs
    ∧ (∀ k, (k < 32 * dst ∨ 32 * dst + bs.length ≤ k) → (t.core c).mem.read k = (s.core c).mem.read k) ∧ ∀ k, k ≠ c → t.core k = s.core k := by
  intro t bs
  have ht : t = (s.count (Reg.Kv.KV_COW (coreField c)) blocks).poke c (32 * dst) bs :=
    congrArg (fun m : Mem => (s.count (Reg.Kv.KV_COW (coreField c)) blocks).poke c (32 * dst) (m.bytes (32 * src) (32 * words)))
      (memOf_plain (s.count (Reg.Kv.KV_COW (coreField c)) blocks) c h)
  have hmem : (t.core c).mem = (s.core c).mem.writeBytes (32 * dst) bs := by
    rw [ht]
    exact poke_mem (s.count (Reg.Kv.KV_COW (coreField c)) blocks) c _ _ h
  refine ⟨?_, fun k hk => ?_, fun k hk => ?_⟩
  · rw [hmem]
    exact Mem.bytes_writeBytes_same _ _ _
  · rw [hmem]
    exact Mem.read_writeBytes_apart _ _ _ _ hk
  · rw [ht, poke_plain (s.count (Reg.Kv.KV_COW (coreField c)) blocks) c _ _ h]
    exact State.core_updCore_other _ c k _ hk

/-- The partial page of one of the prefixes is copied from the private blocks of region `g` to its page slot. -/
noncomputable def State.prefixRegion (a u id blocks : Nat) (s : State) (g : Nat × Nat × Nat × Nat) : State :=
  match s.pageInCore a u id g with
  | none => s
  | some b => s.cowCopy g.1 (s.kvBaseOf g) b (blocks * s.kvBlock g.1) blocks

/-- The place in region `g` of the page that session `n` copies: the slot of a page under registration, else the private blocks. -/
noncomputable def State.cowPlace (s : State) (n a u : Nat) (g : Nat × Nat × Nat × Nat) : Nat :=
  match (s.ownPages n).head?.bind fun own => s.pageInCore a u own g with
  | some own => own
  | none => s.kvBaseOf g

/-- The page `id` is copied to the session's own place in region `g`. -/
noncomputable def State.cowRegion (n a u id words : Nat) (s : State) (g : Nat × Nat × Nat × Nat) : State :=
  match s.pageInCore a u id g with
  | none => s
  | some b =>
    let blocks := ceilDiv (min words (4 * s.kvBlock g.1)) (max 1 (s.kvBlock g.1))
    s.cowCopy g.1 b (s.cowPlace n a u g) (blocks * s.kvBlock g.1) blocks

theorem prefixRegion_copied (a u id blocks : Nat) (s : State) {g : Nat × Nat × Nat × Nat} {l : List (Nat × Nat × Nat × Nat)} (hg : g ∈ l) :
    CowCopied s (s.prefixRegion a u id blocks g) l := by
  unfold State.prefixRegion
  split
  · exact .refl s l
  · exact cowCopy_copied s _ _ _ _ hg

theorem cowRegion_copied (n a u id words : Nat) (s : State) {g : Nat × Nat × Nat × Nat} {l : List (Nat × Nat × Nat × Nat)} (hg : g ∈ l) :
    CowCopied s (s.cowRegion n a u id words g) l := by
  unfold State.cowRegion
  split
  · exact .refl s l
  · exact cowCopy_copied s _ _ _ _ hg

theorem opPrefixCopy_idle (a e : Nat) (s : State) (pe : PrefixEntry) (hpe : (s.asp a).prefixes.getD e {} = pe)
    (h : pe.registrant = none ∨ pe.st ≠ .filling ∨ pe.tokens % 256 = 0 ∨ pe.copied = true) : opPrefixCopy a e s = s := by
  unfold opPrefixCopy
  dsimp only
  rw [hpe]
  split
  · rfl
  · next n hn =>
    refine if_pos ?_
    have h := h.resolve_left (by simp [hn])
    rcases h with h | h | h <;> simp [h]

theorem opPrefixCopy_copied (a e n : Nat) (s : State) (pe : PrefixEntry) (hpe : (s.asp a).prefixes.getD e {} = pe)
    (hn : pe.registrant = some n) (hst : pe.st = .filling) (ht : pe.tokens % 256 ≠ 0) (hc : pe.copied = false) :
    opPrefixCopy a e s = ((s.sess n).regions.foldl (State.prefixRegion a (pe.tokens / 256) (pe.pages.getD (pe.tokens / 256) 0)
      (ceilDiv (pe.tokens % 256) 64)) s).updAsp a fun x => { x with prefixes := x.prefixes.set e { pe with copied := true } } := by
  unfold opPrefixCopy
  dsimp only
  rw [hpe, hn]
  simp only [hst, ht, hc, bne_self_eq_false, decide_false, Bool.or_self, Bool.false_eq_true, if_false]
  rfl

theorem opCow_idle (n : Nat) (s : State) (h : (s.sess n).cowPage = none) : opCow n s = s := by
  unfold opCow
  dsimp only
  rw [h]

theorem opCow_copied (n id : Nat) (s : State) (h : (s.sess n).cowPage = some id) :
    opCow n s = (((s.sess n).regions.foldl (State.cowRegion n (s.sess n).airspace (s.sess n).pages.length id (s.sess n).cowLeft) s).updAsp (s.sess n).airspace
      fun x => x.unhold [id]).updSess n fun d => { d with cowPage := none, cowLeft := 0 } := by
  unfold opCow
  dsimp only
  rw [h]
  rfl

/-! ### Waits (R252) -/

theorem opWaitLimit_none (a id : Nat) (s : State) (h : ∀ w ∈ (s.asp a).waiting, w.id ≠ id) : opWaitLimit a id s = s := by
  unfold opWaitLimit
  rw [List.find?_eq_none.2 fun w hw => by simpa using h w hw]

theorem opWaitLimit_exempt (a id : Nat) (s : State) (r : Request) (hr : (s.asp a).waiting.find? (fun w => w.id = id) = some r)
    (h : r.carried = true ∨ ∃ n, s.namedBy a r.client.handle = some n ∧ (s.sess n).copyBack = true) : opWaitLimit a id s = s := by
  unfold opWaitLimit
  rw [hr]
  refine if_pos ?_
  obtain h | ⟨n, hn, hc⟩ := h
  · simp [h]
  · simp [hn, hc]

theorem opWaitLimit_refused (a id : Nat) (s : State) (r : Request) (hr : (s.asp a).waiting.find? (fun w => w.id = id) = some r) (hc : r.carried = false)
    (h : ∀ n, s.namedBy a r.client.handle = some n → (s.sess n).copyBack = false) :
    opWaitLimit a id s = (s.updAsp a fun x => { x with waiting := x.waiting.filter fun w => w.id ≠ id }).refuse r.client .timeout := by
  unfold opWaitLimit
  rw [hr]
  refine if_neg ?_
  cases hn : s.namedBy a r.client.handle with
  | none => simp [hc]
  | some n => simp [hc, h n hn]

/-! ### Wakes (R58, R332) -/

/-- The field of a wake that is given up is as before the wake. -/
noncomputable def State.backAsleep (s : State) (f : Nat) : State :=
  s.updField f fun x => { x with clock := .stopped, wakeDeferred := 0, wakeForRebuild := false, task := 0, taskCmd := none }

/-- The order that asked for the wake ends for want of headroom. -/
noncomputable def State.answerWake (s : State) (cmd : Option (Nat × Src × Nat)) : State :=
  match cmd with
  | none => s
  | some (seq, src, op) => s.reply src { seq := seq, opcode := op, status := .noResource, final := true }

/-- A test of the field ends with its wake. -/
noncomputable def State.dropTestOf (s : State) (f : Nat) : State :=
  if s.start.testField == some f then (s.updStart fun x => { x with testField := none, testCmd := none }).put Reg.Start.TEST_FIELD 0xFF else s

theorem opWakeAbandoned_idle (f : Nat) (s : State) (h : (s.field f).clock ≠ .waking) : opWakeAbandoned f s = s := if_pos (bne_iff_ne.2 h)

theorem opWakeAbandoned_eq (f : Nat) (s : State) (h : (s.field f).clock = .waking) : ∃ e,
    opWakeAbandoned f s = ((((s.backAsleep f).answerWake (s.field f).taskCmd).dropTestOf f).mark Reg.Pow.WAKE_ABANDONED).event e :=
  ⟨_, if_neg (by simp [h])⟩

theorem answerWake_frame (s : State) (cmd : Option (Nat × Src × Nat)) : ReplyFrame s (s.answerWake cmd) := by
  unfold State.answerWake
  split
  · exact .refl s
  · exact reply_frame s _ _

theorem dropTestOf_spec (s : State) (f : Nat) : let t := s.dropTestOf f
    t = { s with start := t.start, regs := t.regs } ∧ (s.start.testField ≠ some f → t.start = s.start) ∧ (s.start.testField = some f → t.start.testField = none) := by
  unfold State.dropTestOf
  split
  case isTrue h => exact ⟨rfl, fun hne => absurd (eq_of_beq h) hne, fun _ => rfl⟩
  case isFalse h => exact ⟨rfl, fun _ => rfl, fun he => absurd (beq_iff_eq.2 he) h⟩

/-- What the end of a wake moves: fields, registers, reports and answers, and the test under way. -/
def WakeMoved (s t : State) : Prop := t = { s with fields := t.fields, regs := t.regs, host := t.host, out := t.out, start := t.start }

theorem WakeMoved.trans {s t u : State} (h : WakeMoved s t) (k : WakeMoved t u) : WakeMoved s u := by
  unfold WakeMoved at *
  rw [k, h]

theorem wakeAbandoned_spec (s : State) (f : Nat) (h : (s.field f).clock = .waking) : let t := opWakeAbandoned f s
    t.field f = { s.field f with clock := .stopped, wakeDeferred := 0, wakeForRebuild := false, task := 0, taskCmd := none }
    ∧ (∀ g, g ≠ f → t.field g = s.field g) ∧ t.get Reg.Pow.WAKE_ABANDONED = 1
    ∧ t = { s with fields := t.fields, regs := t.regs, host := t.host, out := t.out, start := t.start }
    ∧ (s.start.testField ≠ some f → t.start = s.start) ∧ (s.start.testField = some f → t.start.testField = none)
    ∧ ((s.field f).taskCmd = none → ∀ o : Src, t.answersTo o = s.answersTo o)
    ∧ (∀ n op, (s.field f).taskCmd = some (n, .host, op) → t.answersTo .host = s.answersTo .host
      ++ [{ seq := n, opcode := op, status := .noResource, final := true, tick := s.tick.count }]) := by
  obtain ⟨e, he⟩ := opWakeAbandoned_eq f s h
  intro t
  have ht : t = _ := he
  clear_value t
  have hself : (s.backAsleep f).field f = _ := State.field_updField s f
    fun x => { x with clock := .stopped, wakeDeferred := 0, wakeForRebuild := false, task := 0, taskCmd := none }
  have hrest : ∀ g, g ≠ f → (s.backAsleep f).field g = s.field g := fun g hg => State.field_updField_other s f g
    (fun x => { x with clock := .stopped, wakeDeferred := 0, wakeForRebuild := false, task := 0, taskCmd := none }) hg
  have hanswered : (s.field f).taskCmd = none → (s.backAsleep f).answerWake (s.field f).taskCmd = s.backAsleep f := fun hn => by rw [hn]; rfl
  have hhost : ∀ n op, (s.field f).taskCmd = some (n, .host, op) → ((s.backAsleep f).answerWake (s.field f).taskCmd).answersTo .host
      = s.answersTo .host ++ [{ seq := n, opcode := op, status := .noResource, final := true, tick := s.tick.count }] := fun n op hn => by
    rw [hn]
    exact (answered_reply (s.backAsleep f) .host _ (.inl rfl)).given
  have hreply := answerWake_frame (s.backAsleep f) (s.field f).taskCmd
  generalize (s.backAsleep f).answerWake (s.field f).taskCmd = u at hreply hanswered hhost ht
  obtain ⟨hdrop, hkept, hnone⟩ := dropTestOf_spec u f
  have hout : (u.dropTestOf f).out = u.out := (congrArg State.out hdrop :)
  have hheld : (u.dropTestOf f).host = u.host := (congrArg State.host hdrop :)
  have hmark : ((u.dropTestOf f).mark Reg.Pow.WAKE_ABANDONED).get Reg.Pow.WAKE_ABANDONED = 1 := get_mark _ _ (by decide) (by decide)
  have hevent := event_frame ((u.dropTestOf f).mark Reg.Pow.WAKE_ABANDONED) e
  rw [← ht] at hevent
  have hfields : t.fields = (s.backAsleep f).fields :=
    (congrArg State.fields hevent.frame :).trans ((congrArg State.fields hdrop :).trans (congrArg State.fields hreply.frame :))
  have hstart : t.start = (u.dropTestOf f).start := (congrArg State.start hevent.frame :)
  have hu : u.start = s.start := (congrArg State.start hreply.frame :)
  have hanswers : ∀ o : Src, t.answersTo o = u.answersTo o := fun o =>
    (hevent.answers o).trans (answersTo_congr hout (congrArg HostSt.held hheld) o)
  refine ⟨(field_congr hfields f).trans hself, fun g hg => (field_congr hfields g).trans (hrest g hg), ?_, ?_,
    fun hne => hstart.trans ((hkept (by rw [hu]; exact hne)).trans hu), fun heq => (congrArg StartSt.testField hstart).trans (hnone (by rw [hu]; exact heq)),
    fun hn o => (hanswers o).trans ?_, fun n op hn => (hanswers .host).trans (hhost n op hn)⟩
  · exact (get_congr_reg (hevent.regs _ (by decide))).trans hmark
  · have hbegin : WakeMoved s (s.backAsleep f) := rfl
    have hreply : WakeMoved (s.backAsleep f) u := by rw [WakeMoved, hreply.frame]
    have hdrop : WakeMoved u (u.dropTestOf f) := by rw [WakeMoved, hdrop]
    have hmark : WakeMoved (u.dropTestOf f) ((u.dropTestOf f).mark Reg.Pow.WAKE_ABANDONED) := rfl
    have hevent : WakeMoved ((u.dropTestOf f).mark Reg.Pow.WAKE_ABANDONED) t := by rw [WakeMoved, hevent.frame]
    exact hbegin.trans (hreply.trans (hdrop.trans (hmark.trans hevent)))
  · rw [hanswered hn]
    exact answersTo_congr rfl rfl o

/-! ### The statement -/

theorem not_lost_released (e : Desc) : e.kvReleased.pauseDropped.kvLost = false := by
  unfold Desc.pauseDropped
  split <;> rfl

theorem endSession_paused (s : State) (n reason : Nat) (h : (s.sess n).st = .paused) :
    s.endSession n reason = (s.pushEnd n reason).finishSession n reason := by
  unfold State.endSession
  simp [h]

theorem finished_of_kept (e : Desc) (reason : Nat) (h : e.kvLost = false) : e.finished reason = { e with
    st := .ended, endReason := reason, endPending := true, kvHeld := false, rebuilding := false, sampled := none, travDropped := false
    latch := 0, drainPause := false, cancelLatched := false, pauseLatched := false, lane := none, phase := none } := by
  rw [Desc.finished, ← h]

/-- A state whose records to come hold the END record of session `n` for the end of its contrail's hold. -/
noncomputable def State.contrailEndPushed (s : State) (n : Nat) : State :=
  { s with lateRecords := s.lateRecords ++ [((s.sess n).airspace, (s.sess n).dest,
    ⟨handleOf n (s.sess n), (s.sess n).delivered, 1, (s.sess n).marks, 6, (s.sess n).delayTicks⟩)] }

theorem contrailExpired (s : State) (n : Nat) (h : (s.sess n).st = .paused) : SessionFinished s (s.contrailEndPushed n) (s.endSession n 6) n 6 := by
  have h := (endSession_paused s n 6 h).symm ▸ finishSession_spec (s.contrailEndPushed n) n 6
  exact ⟨h.only, h.sess, h.spaces, h.asp, h.plcs, h.plc, h.frame⟩

theorem CowCopied.asp {s t : State} {l : List (Nat × Nat × Nat × Nat)} (h : CowCopied s t l) (a : Nat) : t.asp a = s.asp a :=
  asp_congr (congrArg State.airspaces h.frame :) a

theorem CowCopied.sess {s t : State} {l : List (Nat × Nat × Nat × Nat)} (h : CowCopied s t l) (n : Nat) : t.sess n = s.sess n :=
  sess_congr (congrArg State.sessions h.frame :) n

theorem cowPlace_eq (s : State) (n a u : Nat) (g : Nat × Nat × Nat × Nat) :
    s.cowPlace n a u g = ((s.ownPages n).head?.bind fun own => s.pageInCore a u own g).getD (s.kvBaseOf g) := by
  unfold State.cowPlace
  split
  · next own h => rw [h, Option.getD_some]
  · next h => rw [h, Option.getD_none]

/-- What a copy of so many blocks in region `g` leaves where the page has slot `slot` there: the count, and the words at `dst` as they were at `src`. -/
def BlocksCopied (s t : State) (g : Nat × Nat × Nat × Nat) (slot : Option Nat) (blocks : Nat) (dst src : Nat → Nat) : Prop :=
  (slot = none → t.cores = s.cores ∧ t.regs = s.regs)
  ∧ ∀ b, slot = some b → t.get (Reg.Kv.KV_COW (coreField g.1)) = min (s.get (Reg.Kv.KV_COW (coreField g.1)) + blocks)
        (2 ^ ((Reg.Kv.KV_COW (coreField g.1)).hi - (Reg.Kv.KV_COW (coreField g.1)).lo + 1) - 1)
    ∧ ((s.field (coreField g.1)).absMap = [] →
      let bs := (s.core g.1).mem.bytes (32 * src b) (32 * (blocks * s.kvBlock g.1))
      (t.core g.1).mem.bytes (32 * dst b) bs.length = bs
      ∧ (∀ k, (k < 32 * dst b ∨ 32 * dst b + bs.length ≤ k) → (t.core g.1).mem.read k = (s.core g.1).mem.read k) ∧ ∀ k, k ≠ g.1 → t.core k = s.core k)

theorem BlocksCopied.congr {s t u : State} {g : Nat × Nat × Nat × Nat} {slot : Option Nat} {blocks : Nat} {dst src : Nat → Nat}
    (h : BlocksCopied s u g slot blocks dst src) (hc : t.cores = u.cores) (hr : t.regs = u.regs) : BlocksCopied s t g slot blocks dst src := by
  have hcore : ∀ k, t.core k = u.core k := core_congr hc
  unfold BlocksCopied
  simp only [hc, hr, get_congr hr, hcore]
  exact h

theorem blocksCopied_of_cow {s t : State} {g : Nat × Nat × Nat × Nat} {slot : Option Nat} {blocks : Nat} {dst src : Nat → Nat} (hnone : slot = none → t = s)
    (hsome : ∀ b, slot = some b → t = s.cowCopy g.1 (src b) (dst b) (blocks * s.kvBlock g.1) blocks) : BlocksCopied s t g slot blocks dst src := by
  refine ⟨fun h => ?_, fun b h => ?_⟩
  · rw [hnone h]
    exact ⟨rfl, rfl⟩
  · rw [hsome b h]
    exact ⟨cowCopy_counted s _ _ _ _ _, cowCopy_writes s _ _ _ _ _⟩

/-- The one region of such a copy for one of the prefixes. -/
theorem prefixRegion_one (a p id blocks : Nat) (s : State) (g : Nat × Nat × Nat × Nat) :
    BlocksCopied s (s.prefixRegion a p id blocks g) g (s.pageInCore a p id g) blocks (fun b => b) fun _ => s.kvBaseOf g :=
  blocksCopied_of_cow (fun h => by rw [State.prefixRegion, h]) fun b h => by rw [State.prefixRegion, h]

/-- The one region of a copy-on-write. -/
theorem cowRegion_one (n a p id words : Nat) (s : State) (g : Nat × Nat × Nat × Nat) :
    BlocksCopied s (s.cowRegion n a p id words g) g (s.pageInCore a p id g) (ceilDiv (min words (4 * s.kvBlock g.1)) (max 1 (s.kvBlock g.1)))
      (fun _ => ((s.ownPages n).head?.bind fun own => s.pageInCore a p own g).getD (s.kvBaseOf g)) fun b => b := by
  refine blocksCopied_of_cow (fun h => by rw [State.cowRegion, h]) fun b h => ?_
  rw [State.cowRegion, h]
  dsimp only
  rw [cowPlace_eq]

/-- The partial page of one of the prefixes once its copy is done: `t` from `s`. -/
structure PrefixCopied (s t : State) (a e n : Nat) (pe : PrefixEntry) : Prop where
  frame : t = { s with airspaces := t.airspaces, cores := t.cores, regs := t.regs }
  spaces : ∀ b, b ≠ a → t.asp b = s.asp b
  asp : t.asp a = { s.asp a with prefixes := (s.asp a).prefixes.set e { pe with copied := true } }
  regs : ∀ k, k ∉ (s.sess n).regions.map cowReg → t.reg k = s.reg k
  cores : (∀ g ∈ (s.sess n).regions, (s.field (coreField g.1)).absMap = []) → ∀ k, (∀ g ∈ (s.sess n).regions, g.1 ≠ k) → t.core k = s.core k
  one : ∀ g, (s.sess n).regions = [g] → BlocksCopied s t g (s.pageInCore a (pe.tokens / 256) (pe.pages.getD (pe.tokens / 256) 0) g)
    (ceilDiv (pe.tokens % 256) 64) (fun b => b) fun _ => s.kvBaseOf g

theorem prefixCopy_done (a e n : Nat) (s : State) (pe : PrefixEntry) (hpe : (s.asp a).prefixes.getD e {} = pe)
    (hn : pe.registrant = some n) (hst : pe.st = .filling) (ht : pe.tokens % 256 ≠ 0) (hc : pe.copied = false) :
    PrefixCopied s (opPrefixCopy a e s) a e n pe := by
  have hu := CowCopied.fold (l := (s.sess n).regions) (s.sess n).regions (State.prefixRegion a (pe.tokens / 256) (pe.pages.getD (pe.tokens / 256) 0)
    (ceilDiv (pe.tokens % 256) 64)) (fun t _ hg => prefixRegion_copied _ _ _ _ t hg) s
  have hone : ∀ g, (s.sess n).regions = [g] → (s.sess n).regions.foldl (State.prefixRegion a (pe.tokens / 256) (pe.pages.getD (pe.tokens / 256) 0)
    (ceilDiv (pe.tokens % 256) 64)) s = s.prefixRegion a (pe.tokens / 256) (pe.pages.getD (pe.tokens / 256) 0) (ceilDiv (pe.tokens % 256) 64) g :=
    fun g hg => by rw [hg, List.foldl_cons, List.foldl_nil]
  rw [opPrefixCopy_copied a e n s pe hpe hn hst ht hc]
  generalize (s.sess n).regions.foldl _ s = u at hu hone ⊢
  have hframe : u.updAsp a (fun x => { x with prefixes := x.prefixes.set e { pe with copied := true } })
      = { s with airspaces := (u.updAsp a fun x => { x with prefixes := x.prefixes.set e { pe with copied := true } }).airspaces, cores := u.cores, regs := u.regs } :=
    (congrArg (fun x : State => { x with airspaces := (u.updAsp a fun x => { x with prefixes := x.prefixes.set e { pe with copied := true } }).airspaces }) hu.frame :)
  refine ⟨hframe, fun b hb => (State.asp_updAsp_other u a b _ hb).trans (hu.asp b), (State.asp_updAsp u a _).trans (by rw [hu.asp a]), hu.regs, hu.others, fun g hg => ?_⟩
  have h := prefixRegion_one a (pe.tokens / 256) (pe.pages.getD (pe.tokens / 256) 0) (ceilDiv (pe.tokens % 256) 64) s g
  rw [← hone g hg] at h
  exact h.congr rfl rfl

/-- A copy-on-write of session `n` once it is done: `t` from `s`. -/
structure CowDone (s t : State) (n id : Nat) : Prop where
  only : ∀ m, m ≠ n → t.sess m = s.sess m
  sess : t.sess n = { s.sess n with cowPage := none, cowLeft := 0 }
  frame : t = s.copyTo t
  spaces : ∀ b, b ≠ (s.sess n).airspace → t.asp b = s.asp b
  asp : t.asp (s.sess n).airspace = (s.asp (s.sess n).airspace).unhold [id]
  regs : ∀ k, k ∉ (s.sess n).regions.map cowReg → t.reg k = s.reg k
  cores : (∀ g ∈ (s.sess n).regions, (s.field (coreField g.1)).absMap = []) → ∀ k, (∀ g ∈ (s.sess n).regions, g.1 ≠ k) → t.core k = s.core k
  one : ∀ g, (s.sess n).regions = [g] → BlocksCopied s t g (s.pageInCore (s.sess n).airspace (s.sess n).pages.length id g)
    (ceilDiv (min (s.sess n).cowLeft (4 * s.kvBlock g.1)) (max 1 (s.kvBlock g.1)))
    (fun _ => ((s.ownPages n).head?.bind fun own => s.pageInCore (s.sess n).airspace (s.sess n).pages.length own g).getD (s.kvBaseOf g)) fun b => b

theorem cow_done (n id : Nat) (s : State) (h : (s.sess n).cowPage = some id) : CowDone s (opCow n s) n id := by
  have hu := CowCopied.fold (l := (s.sess n).regions) (s.sess n).regions
    (State.cowRegion n (s.sess n).airspace (s.sess n).pages.length id (s.sess n).cowLeft) (fun t _ hg => cowRegion_copied _ _ _ _ _ t hg) s
  have hone : ∀ g, (s.sess n).regions = [g] → (s.sess n).regions.foldl (State.cowRegion n (s.sess n).airspace (s.sess n).pages.length id (s.sess n).cowLeft) s
    = s.cowRegion n (s.sess n).airspace (s.sess n).pages.length id (s.sess n).cowLeft g := fun g hg => by rw [hg, List.foldl_cons, List.foldl_nil]
  rw [opCow_copied n id s h]
  generalize (s.sess n).regions.foldl _ s = u at hu hone ⊢
  have hkv := ((KvMoved.refl u n (s.sess n).airspace).updAsp fun x => x.unhold [id]).updSess fun d => { d with cowPage := none, cowLeft := 0 }
  generalize ((u.updAsp (s.sess n).airspace fun x => x.unhold [id]).updSess n fun d => { d with cowPage := none, cowLeft := 0 }) = t at hkv ⊢
  have hcores : t.cores = u.cores := (congrArg State.cores hkv.frame :)
  have hregs : t.regs = u.regs := (congrArg State.regs hkv.frame :)
  refine ⟨fun m hm => (hkv.others m hm).trans (hu.sess m), hkv.sess.trans (by rw [hu.sess]), ?_, fun b hb => (hkv.spaces b hb).trans (hu.asp b),
    hkv.asp.trans (by rw [hu.asp]), fun k hk => (reg_congr hregs k).trans (hu.regs k hk), fun hp k hk => (core_congr hcores k).trans (hu.others hp k hk),
    fun g hg => ?_⟩
  · exact (congrArg (State.copyTo · t) (hkv.frame.trans (congrArg (State.kvTo · t) hu.frame)) :)
  · have h := cowRegion_one n (s.sess n).airspace (s.sess n).pages.length id (s.sess n).cowLeft s g
    rw [← hone g hg] at h
    exact h.congr hcores hregs

theorem namedRequest_refused (s : State) (a : Nat) (p : Request → Bool) (c : Client) :
    let t := (s.updAsp a fun x => { x with waiting := x.waiting.filter p }).refuse c .timeout
    (t.asp a).waiting = (s.asp a).waiting.filter p ∧ t.acks = s.acks ++ [{ client := c, status := .timeout, handle := c.handle }]
    ∧ t = { s with airspaces := t.airspaces, acks := t.acks, regs := t.regs } ∧ (∀ b, b ≠ a → t.asp b = s.asp b)
    ∧ t.asp a = { s.asp a with waiting := (t.asp a).waiting } ∧ ∀ q, q ≠ (Reg.Ses.REFUSED c.airspace).addr → t.reg q = s.reg q := by
  have hasp : ((s.updAsp a fun x => { x with waiting := x.waiting.filter p }).refuse c .timeout).asp a
      = { s.asp a with waiting := (s.asp a).waiting.filter p } := State.asp_updAsp s a fun x => { x with waiting := x.waiting.filter p }
  refine ⟨congrArg AirspaceSt.waiting hasp, rfl, rfl, fun b hb => State.asp_updAsp_other s a b (fun x => { x with waiting := x.waiting.filter p }) hb, ?_,
    fun q hq => State.reg_put_other (s.updAsp a fun x => { x with waiting := x.waiting.filter p }) _ _ q hq⟩
  rw [hasp]

/-- Settles O14: each completion and limit by what its operation does, the copied words by the one region they go to. -/
theorem waitsAndHoldsEndAtTheirLimits : Obligations.WaitsAndHoldsEndAtTheirLimits := by
  unfold Obligations.WaitsAndHoldsEndAtTheirLimits
  refine ⟨fun s n => ⟨?_, ?_, ?_, ?_, ?_, ?_, ?_, ?_, ?_, ?_, ?_, ?_, ?_⟩, fun s => ⟨?_, ?_, fun f => ⟨?_, ?_⟩⟩⟩
  · intro r hst hr hc
    exact ⟨_, congrArg Host.Outcome.next (opPauseCopy_done n s r hst hr hc), rfl, fun m hm => State.sess_updSess_other s n m _ hm, State.sess_updSess s n _⟩
  · exact fun h => congrArg Host.Outcome.next (opPauseCopy_idle n s h)
  · exact fun h b => congrArg Host.Outcome.next (opCopyBack_idle n b s h)
  · intro r hr hc
    refine ⟨?_, fun h => ?_⟩
    · have h := copyBack_done n s r hr hc
      exact ⟨_, rfl, h.only, h.sess, h.spaces, h.asp, h.frame, h.counted, h.regs, h.cores,
        fun g hg hp hcop hreg hcls hroom => copyBack_memory n s r g hr hc hg hp hcop hreg hcls hroom⟩
    · have h := copyBack_failed n s r hr hc h
      exact ⟨_, rfl, h.only, h.sess, h.spaces, h.asp, h.frame, h.line.marked, h.line.regs, h.line.lines⟩
  · intro hst hk hb
    exact ⟨s.copyExpired n, congrArg Host.Outcome.next (opPauseTtl_expired n s hst hk hb), copyExpired_spec n s⟩
  · exact fun h => congrArg Host.Outcome.next (opPauseTtl_idle n s h)
  · exact fun h => ⟨_, congrArg Host.Outcome.next (if_pos (beq_iff_eq.2 h)), freeSession_spec s n⟩
  · exact fun h => congrArg Host.Outcome.next (if_neg (by simpa using h))
  · intro h
    have hf := contrailExpired s n h
    have he : exec (.contrailHoldExpiry n) s = .next (s.endSession n 6) := congrArg Host.Outcome.next (if_pos (beq_iff_eq.2 h))
    generalize s.endSession n 6 = t at hf he
    exact ⟨t, he, hf.only, hf.sess.trans (finished_of_kept _ _ (not_lost_released _)), hf.spaces, hf.asp, hf.plcs, hf.plc, hf.frame⟩
  · exact fun h => congrArg Host.Outcome.next (if_neg (by simpa using h))
  · intro a e
    refine ⟨fun h => congrArg Host.Outcome.next (opPrefixCopy_idle a e s _ rfl h), fun hn hst ht hc => ?_⟩
    have h := prefixCopy_done a e n s _ rfl hn hst ht hc
    exact ⟨_, rfl, h.frame, h.spaces, h.asp, h.regs, h.cores, h.one⟩
  · exact fun h => congrArg Host.Outcome.next (opCow_idle n s h)
  · intro id h
    have h := cow_done n id s h
    exact ⟨_, rfl, h.only, h.sess, h.frame, h.spaces, h.asp, h.regs, h.cores, h.one⟩
  · intro a id r hr
    exact ⟨fun hc h => ⟨_, congrArg Host.Outcome.next (opWaitLimit_refused a id s r hr hc h), namedRequest_refused s a _ r.client⟩,
      fun h => congrArg Host.Outcome.next (opWaitLimit_exempt a id s r hr h)⟩
  · exact fun a id h => congrArg Host.Outcome.next (opWaitLimit_none a id s h)
  · exact fun h => congrArg Host.Outcome.next (opWakeAbandoned_idle f s h)
  · exact fun h => ⟨_, rfl, wakeAbandoned_spec s f h⟩

end Sys2Proof.Machine
end

section
/-! SUPPORT. Readings of pairs, the thermal cap and the fit of the outlook, as functions (R347-R349, R354). -/

namespace Sys2Proof.Machine
open Sys2Proof

/-! ### Junction pairs (R347) -/

theorem plausible_eq_some (old new : Option Int) (v : Int) :
    plausible old new = some v ↔ new = some v ∧ 0 ≤ v ∧ v ≤ 1250 ∧ ∀ o, old = some o → (v - o).natAbs ≤ 200 := by
  unfold plausible
  cases old <;> simp [Option.filter_eq_some_iff, and_assoc]

section
variable {x : Spot} {a b : Option Int}

theorem sample_lost (h : x.lost = true) : (x.sample a b).1.lost = true ∧ (x.sample a b).2.1 = none ∧ (x.sample a b).2.2 = 0 := by
  unfold Spot.sample
  simp [h]

/-- Both readings are plausible: the higher is the control reading, their differences are watched. -/
theorem sample_both {u v : Int} (h : x.lost = false) (ha : plausible x.a a = some u) (hb : plausible x.b b = some v) :
    let y := (x.sample a b).1
    (x.sample a b).2.1 = some (max u v) ∧ y.lost = false ∧ y.okRun = (if (u - v).natAbs ≤ 30 then x.okRun + 1 else 0)
    ∧ y.diffs = (x.diffs ++ [((u - v).natAbs : Int)]).drop (x.diffs.length + 1 - 10)
    ∧ (y.suspect = true ↔ (x.suspect = true ∨ (y.diffs.length = 10 ∧ ∀ d ∈ y.diffs, 30 < d)) ∧ y.okRun < 100)
    ∧ (y.suspect = false → (x.sample a b).2.2 = 0) ∧ (y.suspect = true → (x.sample a b).2.2 = y.diffs.foldl max 0) := by
  unfold Spot.sample
  simp only [h, ha, hb, Bool.false_eq_true, if_false]
  refine ⟨trivial, trivial, ?_, trivial, ?_, fun hs => by rw [hs]; rfl, fun hs => by rw [hs]; rfl⟩
  · simp only [Nat.cast_le_ofNat]
  · simp [List.all_eq_true]

theorem sample_first {u : Int} (h : x.lost = false) (ha : plausible x.a a = some u) (hb : plausible x.b b = none) :
    (x.sample a b).2.1 = some (u + 50) ∧ (x.sample a b).2.2 = 0 ∧ (x.sample a b).1.lost = false ∧ (x.sample a b).1.suspect = x.suspect := by
  unfold Spot.sample
  simp [h, ha, hb]

theorem sample_second {v : Int} (h : x.lost = false) (ha : plausible x.a a = none) (hb : plausible x.b b = some v) :
    (x.sample a b).2.1 = some (v + 50) ∧ (x.sample a b).2.2 = 0 ∧ (x.sample a b).1.lost = false ∧ (x.sample a b).1.suspect = x.suspect := by
  unfold Spot.sample
  simp [h, ha, hb]

theorem sample_none (h : x.lost = false) (ha : plausible x.a a = none) (hb : plausible x.b b = none) :
    (x.sample a b).2.1 = none ∧ (x.sample a b).2.2 = 0 ∧ (x.sample a b).1.lost = true := by
  unfold Spot.sample
  simp [h, ha, hb]

/-- What a pair lowers its field's limit by is never negative. -/
theorem sample_low_nonneg (x : Spot) (a b : Option Int) : 0 ≤ (x.sample a b).2.2 := by
  have hmax : ∀ (l : List Int) (m : Int), m ≤ l.foldl max m := fun l => by
    induction l with
    | nil => exact fun m => Int.le_refl m
    | cons d l ih => exact fun m => Int.le_trans (Int.le_max_left m d) (ih _)
  have hite : ∀ (c : Bool) (l : List Int), 0 ≤ if c = true then l.foldl max 0 else 0 := fun c l => by
    cases c
    · exact Int.le_refl 0
    · exact hmax l 0
  unfold Spot.sample
  dsimp only
  split
  · exact Int.le_refl 0
  · split
    · exact hite _ _
    · exact Int.le_refl 0
    · exact Int.le_refl 0
    · exact Int.le_refl 0

end

/-! ### The thermal cap (R349) -/

/-- A power rounded down to 10 W. -/
theorem tens_le (m : Rat) {v : Rat} (h : m ≤ v) : (m / 10).floor.toNat * 10 = 0 ∨ ((((m / 10).floor.toNat * 10 : Nat) : Int) : Rat) ≤ v := by
  have hf : (((m / 10).floor : Int) : Rat) ≤ m / 10 := Int.floor_le (m / 10)
  by_cases h0 : 0 ≤ (m / 10).floor
  · right
    have hc : (((m / 10).floor.toNat * 10 : Nat) : Int) = (m / 10).floor * 10 := by omega
    rw [hc]
    push_cast
    linarith
  · left
    omega

theorem lt_tens_add (m : Rat) : m < ((((m / 10).floor.toNat * 10 : Nat) : Int) : Rat) + 10 := by
  have hf : m / 10 < (((m / 10).floor : Int) : Rat) + 1 := Int.lt_floor_add_one (m / 10)
  have hc : (((m / 10).floor : Int) : Rat) * 10 ≤ ((((m / 10).floor.toNat * 10 : Nat) : Int) : Rat) := by
    have : (m / 10).floor * 10 ≤ (((m / 10).floor.toNat * 10 : Nat) : Int) := by omega
    calc (((m / 10).floor : Int) : Rat) * 10 = (((m / 10).floor * 10 : Int) : Rat) := by push_cast; rfl
      _ ≤ _ := Int.cast_le.2 this
  linarith

theorem foldl_min_le (l : List Rat) (m : Rat) : l.foldl min m ≤ m ∧ ∀ v ∈ l, l.foldl min m ≤ v := by
  induction l generalizing m with
  | nil => exact ⟨le_refl m, fun v hv => nomatch hv⟩
  | cons a l ih =>
    obtain ⟨h, hs⟩ := ih (min m a)
    refine ⟨h.trans (min_le_left m a), fun v hv => ?_⟩
    obtain rfl | hv := List.mem_cons.1 hv
    · exact h.trans (min_le_right m v)
    · exact hs v hv

theorem foldl_min_mem (l : List Rat) (m : Rat) : l.foldl min m = m ∨ l.foldl min m ∈ l := by
  induction l generalizing m with
  | nil => exact .inl rfl
  | cons a l ih =>
    obtain h | h := ih (min m a)
    · obtain ha | ha := min_choice m a
      · exact .inl (h.trans ha)
      · exact .inr (List.mem_cons.2 (.inl (h.trans ha)))
    · exact .inr (.tail _ h)

theorem capNow_ten (s : State) (tin : Rat) (pm : Nat) : s.capNow tin pm % 10 = 0 := Nat.mul_mod_left _ 10

theorem capNow_below (s : State) (tin : Rat) (pm : Nat) {v : Rat} (h : v ∈ s.capTerms tin pm) :
    s.capNow tin pm = 0 ∨ (((s.capNow tin pm : Nat) : Int) : Rat) ≤ v := tens_le _ ((foldl_min_le _ 21000).2 v h)

theorem capNow_le (s : State) (tin : Rat) (pm : Nat) : s.capNow tin pm ≤ 21000 := by
  obtain h | h := tens_le ((s.capTerms tin pm).foldl min 21000) (foldl_min_le _ 21000).1
  · rw [State.capNow, h]
    exact Nat.zero_le _
  · exact_mod_cast h

theorem capNow_near (s : State) (tin : Rat) (pm : Nat) :
    21000 < s.capNow tin pm + 10 ∨ ∃ v ∈ s.capTerms tin pm, v < (((s.capNow tin pm : Nat) : Int) : Rat) + 10 := by
  have hlt : (s.capTerms tin pm).foldl min 21000 < (((s.capNow tin pm : Nat) : Int) : Rat) + 10 := lt_tens_add _
  obtain h | h := foldl_min_mem (s.capTerms tin pm) 21000
  · rw [h] at hlt
    exact .inl (by exact_mod_cast hlt)
  · exact .inr ⟨_, h, hlt⟩

/-- What a term of C_th says of a resistance, a power and a limit above the inlet temperature. -/
noncomputable def ThermalSt.margin (t : ThermalSt) (tin : Rat) (lim : Int) : Rat := ((lim : Rat) - tin - ((10 * t.guardNow : Nat) : Int)) / 10

theorem capTerms_module (s : State) (tin : Rat) (pm : Nat) (h : 0 < s.thermal.rthModNow) :
    s.thermal.margin tin (10 * (s.thermal.limitNow : Int)) / s.thermal.rthModNow ∈ s.capTerms tin pm := by
  unfold State.capTerms
  simp only [if_neg (not_le.2 h), List.mem_append, List.mem_singleton, ThermalSt.margin, true_or]

theorem capTerms_field (s : State) (tin : Rat) (pm : Nat) {e : Nat × FieldSt} (he : e ∈ s.fields) (hr : e.2.role = .active) (hp : 50 ≤ e.2.power) :
    (e.2.atLimit = true → ((pm : Int) : Rat) ∈ s.capTerms tin pm)
    ∧ (e.2.atLimit = false → 0 < e.2.rthNow →
      ((pm : Int) : Rat) * s.thermal.margin tin e.2.limit / (e.2.rthNow * ((e.2.power : Int) : Rat)) ∈ s.capTerms tin pm) := by
  unfold State.capTerms
  refine ⟨fun hl => ?_, fun hl hrth => ?_⟩
  · refine List.mem_append_left _ (List.mem_append_right _ (List.mem_filterMap.2 ⟨e, he, ?_⟩))
    simp [hr, hl, Nat.not_lt.2 hp]
  · refine List.mem_append_left _ (List.mem_append_right _ (List.mem_filterMap.2 ⟨e, he, ?_⟩))
    simp [hr, hl, Nat.not_lt.2 hp, not_le.2 hrth, ThermalSt.margin]

/-- The terms of the inlet temperature and the flow. -/
theorem capTerms_coolant (s : State) (tin : Rat) (pm : Nat) :
    (400 < tin → tin ≤ 480 → 21000 - 1875 * (tin - 400) / 10 ∈ s.capTerms tin pm) ∧ (480 < tin → 6000 ∈ s.capTerms tin pm)
    ∧ (s.thermal.flow < 1000 → 0 ∈ s.capTerms tin pm)
    ∧ (1000 ≤ s.thermal.flow → s.thermal.flow < 2000 → 21000 * (((s.thermal.flow : Int) : Rat) / 100 - 10) / 10 ∈ s.capTerms tin pm) := by
  unfold State.capTerms
  refine ⟨fun h h' => ?_, fun h => ?_, fun h => ?_, fun h h' => ?_⟩
  · exact List.mem_append_right _ (List.mem_cons.2 (.inl (by rw [if_neg (not_le.2 h), if_pos h'])))
  · exact List.mem_append_right _ (List.mem_cons.2 (.inl (by rw [if_neg (by linarith), if_neg (not_le.2 h)])))
  · refine List.mem_append_right _ (List.mem_cons.2 (.inr (List.mem_singleton.2 ?_)))
    rw [if_neg (by omega), if_pos h]
  · refine List.mem_append_right _ (List.mem_cons.2 (.inr (List.mem_singleton.2 ?_)))
    rw [if_neg (by omega), if_neg (by omega)]
    ring

end Sys2Proof.Machine
end
section
/-! SUPPORT. The fit of the outlook (R354). -/

namespace Sys2Proof.Machine
open Sys2Proof

/-- The sum of a value over a list. -/
noncomputable def total {α : Type} (l : List α) (g : α → Rat) : Rat := (l.map g).sum

theorem foldl_add_eq_sum (l : List Rat) : l.foldl (· + ·) 0 = l.sum := List.sum_eq_foldl.symm

section
variable {α β : Type} (l : List α) (f g : α → Rat)

theorem total_add : total l (fun e => f e + g e) = total l f + total l g := List.sum_map_add

theorem total_mul (c : Rat) : total l (fun e => c * g e) = c * total l g := List.sum_map_mul_left ..

theorem total_const (c : Rat) : total l (fun _ => c) = ((l.length : Nat) : Int) * c := by
  simp [total]

theorem total_map (h : β → Rat) (m : α → β) : total (l.map m) h = total l fun e => h (m e) := by
  simp [total, Function.comp_def]

theorem total_congr {f g : α → Rat} (h : ∀ e ∈ l, f e = g e) : total l f = total l g := congrArg List.sum (List.map_congr_left h)

end

/-- A sum of squares that is 0 has no term that is not. -/
theorem total_sq_eq_zero {α : Type} {l : List α} {g : α → Rat} (h : total l (fun e => g e * g e) = 0) : ∀ e ∈ l, g e = 0 := by
  induction l with
  | nil => exact fun e he => nomatch he
  | cons a l ih =>
    have hsum : g a * g a + total l (fun e => g e * g e) = 0 := h
    have hnn : 0 ≤ total l fun e => g e * g e := List.sum_nonneg fun v hv => by
      obtain ⟨e, -, rfl⟩ := List.mem_map.1 hv
      exact mul_self_nonneg _
    have ha : g a * g a = 0 := le_antisymm (by linarith) (mul_self_nonneg _)
    intro e he
    obtain rfl | he := List.mem_cons.1 he
    · exact mul_self_eq_zero.1 ha
    · exact ih (by linarith [mul_self_nonneg (g a)]) e he

/-- The mean of a value over a list. -/
noncomputable def mean {α : Type} (l : List α) (g : α → Rat) : Rat := total l g / ((l.length : Nat) : Int)

theorem total_eq_mean {α : Type} (l : List α) (g : α → Rat) (h : l ≠ []) : total l g = ((l.length : Nat) : Int) * mean l g := by
  have : (((l.length : Nat) : Int) : Rat) ≠ 0 := by simpa using h
  unfold mean
  field_simp

/-- The two parts of a fit: its slope, and the constant that takes the means to each other. -/
theorem fitLine_eq (l : List (Rat × Rat)) :
    let u := fun e : Rat × Rat => e.1 - mean l Prod.fst
    let v := fun e : Rat × Rat => e.2 - mean l Prod.snd
    let w := if total l (fun e => u e * u e) = 0 then 0 else total l (fun e => u e * v e) / total l fun e => u e * u e
    fitLine l = (mean l Prod.snd - w * mean l Prod.fst, w) := by
  unfold fitLine
  simp only [foldl_add_eq_sum, beq_iff_eq]
  rfl

/-- A fit leaves no error that its constant or its weight could take away. -/
theorem fitLine_normal (l : List (Rat × Rat)) (h : l ≠ []) :
    let err := fun e : Rat × Rat => e.2 - (fitLine l).1 - (fitLine l).2 * e.1
    total l err = 0 ∧ total l (fun e => err e * e.1) = 0 := by
  have heq := fitLine_eq l
  generalize hmx : mean l Prod.fst = mx at heq
  generalize hmy : mean l Prod.snd = my at heq
  have hx := total_eq_mean l Prod.fst h
  have hy := total_eq_mean l Prod.snd h
  rw [hmx] at hx
  rw [hmy] at hy
  dsimp only at heq
  generalize hw : (if total l (fun e => (e.1 - mx) * (e.1 - mx)) = 0 then 0
    else total l (fun e => (e.1 - mx) * (e.2 - my)) / total l fun e => (e.1 - mx) * (e.1 - mx)) = w at heq
  rw [heq]
  dsimp only
  have hu : total l (fun e => e.1 - mx) = 0 := by
    rw [show (fun e : Rat × Rat => e.1 - mx) = fun e => e.1 + (-1) * mx from funext fun e => by ring, total_add l Prod.fst, hx, total_const]
    ring
  have hv : total l (fun e => e.2 - my) = 0 := by
    rw [show (fun e : Rat × Rat => e.2 - my) = fun e => e.2 + (-1) * my from funext fun e => by ring, total_add l Prod.snd, hy, total_const]
    ring
  have herr : total l (fun e => e.2 - (my - w * mx) - w * e.1) = 0 := by
    rw [show (fun e : Rat × Rat => e.2 - (my - w * mx) - w * e.1) = fun e => (e.2 - my) + (-w) * (e.1 - mx) from funext fun e => by ring, total_add l,
      total_mul l, hu, hv]
    ring
  have hnormal : total l (fun e => (e.1 - mx) * (e.2 - my)) = w * total l (fun e => (e.1 - mx) * (e.1 - mx)) := by
    split at hw
    case isTrue hz =>
      rw [hz, mul_zero, total_congr l (g := fun _ => 0) fun e he => by rw [total_sq_eq_zero hz e he, zero_mul], total_const]
      ring
    case isFalse hz =>
      rw [← hw]
      exact (div_mul_cancel₀ _ hz).symm
  refine ⟨herr, ?_⟩
  rw [show (fun e : Rat × Rat => (e.2 - (my - w * mx) - w * e.1) * e.1)
      = fun e => (e.1 - mx) * (e.2 - my) + ((-w) * ((e.1 - mx) * (e.1 - mx)) + mx * (e.2 - (my - w * mx) - w * e.1)) from funext fun e => by ring,
    total_add l, total_add l, total_mul l, total_mul l, herr, hnormal]
  ring

/-- What a fit leaves of a sample: its power, its lanes and its rows. -/
noncomputable def fitErr (ps wl wr : Rat) (e : Rat × Rat × Rat) : Rat := e.1 - ps - wl * e.2.1 - wr * e.2.2

/-- The weight of the lanes held, the others fitted. -/
noncomputable def fitRows (l : List (Rat × Rat × Rat)) (wl : Rat) : Rat × Rat := fitLine (l.map fun e => (e.2.2, e.1 - wl * e.2.1))

/-- The weight of the rows held, the others fitted. -/
noncomputable def fitLanes (l : List (Rat × Rat × Rat)) (wr : Rat) : Rat × Rat := fitLine (l.map fun e => (e.2.1, e.1 - wr * e.2.2))

section
variable {l : List (Rat × Rat × Rat)}

theorem fitRows_normal (h : l ≠ []) (wl : Rat) : total l (fitErr (fitRows l wl).1 wl (fitRows l wl).2) = 0
    ∧ total l (fun e => fitErr (fitRows l wl).1 wl (fitRows l wl).2 e * e.2.2) = 0 := by
  obtain ⟨hc, hw⟩ := fitLine_normal (l.map fun e => (e.2.2, e.1 - wl * e.2.1)) (by simpa using h)
  rw [total_map] at hc hw
  refine ⟨(total_congr l fun e _ => ?_).trans hc, (total_congr l fun e _ => ?_).trans hw⟩
  · unfold fitErr fitRows
    ring
  · unfold fitErr fitRows
    ring

theorem fitLanes_normal (h : l ≠ []) (wr : Rat) : total l (fitErr (fitLanes l wr).1 (fitLanes l wr).2 wr) = 0
    ∧ total l (fun e => fitErr (fitLanes l wr).1 (fitLanes l wr).2 wr e * e.2.1) = 0 := by
  obtain ⟨hc, hw⟩ := fitLine_normal (l.map fun e => (e.2.1, e.1 - wr * e.2.2)) (by simpa using h)
  rw [total_map] at hc hw
  refine ⟨(total_congr l fun e _ => ?_).trans hc, (total_congr l fun e _ => ?_).trans hw⟩
  · unfold fitErr fitLanes
    ring
  · unfold fitErr fitLanes
    ring

/-- Lanes that are a constant and a multiple of the rows add no error of their own. -/
theorem lanes_of_rows {ps wl wr a b : Rat} (hc : total l (fitErr ps wl wr) = 0) (hr : total l (fun e => fitErr ps wl wr e * e.2.2) = 0)
    (hu : total l (fun e => fitErr ps wl wr e * (e.2.1 - a - b * e.2.2)) = 0) : total l (fun e => fitErr ps wl wr e * e.2.1) = 0 := by
  rw [show (fun e : Rat × Rat × Rat => fitErr ps wl wr e * e.2.1)
      = fun e => a * fitErr ps wl wr e + (b * (fitErr ps wl wr e * e.2.2) + fitErr ps wl wr e * (e.2.1 - a - b * e.2.2)) from funext fun e => by ring,
    total_add l, total_add l, total_mul l, total_mul l, hc, hr, hu]
  ring

/-- Both weights held: the constant is the mean of what they leave. -/
theorem held_normal (h : l ≠ []) (wl wr : Rat) :
    total l (fitErr ((l.map fun e => e.1 - wl * e.2.1 - wr * e.2.2).foldl (· + ·) 0 / ((l.length : Nat) : Int)) wl wr) = 0 := by
  have hmean := total_eq_mean l (fun e => e.1 - wl * e.2.1 - wr * e.2.2) h
  rw [foldl_add_eq_sum]
  change total l (fitErr (mean l fun e => e.1 - wl * e.2.1 - wr * e.2.2) wl wr) = 0
  generalize (mean l fun e => e.1 - wl * e.2.1 - wr * e.2.2) = m at hmean
  rw [show fitErr m wl wr = fun e => (e.1 - wl * e.2.1 - wr * e.2.2) + -m from funext fun e => by unfold fitErr; ring, total_add l, total_const, hmean]
  ring

/-- The lanes' own part fitted first: with its weight held, the fit of the rows leaves no error along the lanes either. -/
theorem fitBoth_lanes (h : l ≠ []) :
    let ab := fitLine (l.map fun e => (e.2.2, e.2.1))
    let wl := (fitLine (l.map fun e => (e.2.1 - ab.1 - ab.2 * e.2.2, e.1))).2
    total l (fun e => fitErr (fitRows l wl).1 wl (fitRows l wl).2 e * e.2.1) = 0 := by
  intro ab wl
  obtain ⟨hab, habr⟩ := fitLine_normal (l.map fun e => (e.2.2, e.2.1)) (by simpa using h)
  obtain ⟨-, hw⟩ := fitLine_normal (l.map fun e => (e.2.1 - ab.1 - ab.2 * e.2.2, e.1)) (by simpa using h)
  rw [total_map] at hab habr hw
  obtain ⟨hc, hr⟩ := fitRows_normal h wl
  refine lanes_of_rows hc hr (a := ab.1) (b := ab.2) ?_
  generalize hrows : fitRows l wl = pr at hc hr ⊢
  generalize hp : (fitLine (l.map fun e => (e.2.1 - ab.1 - ab.2 * e.2.2, e.1))).1 = p at hw
  -- the lanes' own part sums to 0, alone and along the rows, so that constants and rows drop out
  have hu : total l (fun e => e.2.1 - ab.1 - ab.2 * e.2.2) = 0 := hab
  have hur : total l (fun e => (e.2.1 - ab.1 - ab.2 * e.2.2) * e.2.2) = 0 := habr
  have hw : total l (fun e => (e.1 - p - wl * (e.2.1 - ab.1 - ab.2 * e.2.2)) * (e.2.1 - ab.1 - ab.2 * e.2.2)) = 0 := hw
  rw [show (fun e : Rat × Rat × Rat => fitErr pr.1 wl pr.2 e * (e.2.1 - ab.1 - ab.2 * e.2.2))
      = fun e => (e.1 - p - wl * (e.2.1 - ab.1 - ab.2 * e.2.2)) * (e.2.1 - ab.1 - ab.2 * e.2.2) + ((p - pr.1 - wl * ab.1) * (e.2.1 - ab.1 - ab.2 * e.2.2)
        + (-(wl * ab.2) - pr.2) * ((e.2.1 - ab.1 - ab.2 * e.2.2) * e.2.2)) from funext fun e => by unfold fitErr; ring,
    total_add l, total_add l, total_mul l, total_mul l, hw, hu, hur]
  ring

end

theorem single_iff (l : List Rat) : single l = true ↔ ∀ a ∈ l, ∀ b ∈ l, a = b := by
  cases l with
  | nil => simp [single]
  | cons x l =>
    simp only [single, List.all_eq_true, beq_iff_eq, List.mem_cons]
    refine ⟨fun h a ha b hb => ?_, fun h e he => h e (.inr he) x (.inl rfl)⟩
    have hx : ∀ c, c = x ∨ c ∈ l → c = x := fun c hc => hc.elim id (h c)
    rw [hx a ha, hx b hb]

/-- The samples of the fit, as numbers. -/
noncomputable def ThermalSt.fitSamples (t : ThermalSt) : List (Rat × Rat × Rat) := t.samples.map fun e => (((e.1 : Nat) : Int), e.2.1, ((e.2.2 : Nat) : Int))

/-- The weights of a fit leave no error that a constant, or a regressor that varied, could take away; a weight whose regressor did not vary stands. -/
structure Fitted (l : List (Rat × Rat × Rat)) (old new : ThermalSt) : Prop where
  rest : new = { old with ps := new.ps, wl := new.wl, wr := new.wr }
  const : total l (fitErr new.ps new.wl new.wr) = 0
  lanes : single (l.map fun e => e.2.1) = false → total l (fun e => fitErr new.ps new.wl new.wr e * e.2.1) = 0
  rows : single (l.map fun e => e.2.2) = false → total l (fun e => fitErr new.ps new.wl new.wr e * e.2.2) = 0
  heldLanes : single (l.map fun e => e.2.1) = true → new.wl = old.wl
  heldRows : single (l.map fun e => e.2.2) = true → new.wr = old.wr

theorem opFit_short (s : State) (h : s.thermal.samples.length < 10000) :
    opFit s = s.updThermal fun t => { t with ps := 3 * (s.power.capEff : Int) / 10, wl := 60, wr := 60 } := by
  unfold opFit
  dsimp only
  rw [List.length_map, if_pos h]

/-- Fitted weights. -/
noncomputable def ThermalSt.weighed (t : ThermalSt) (ps wl wr : Rat) : ThermalSt := { t with ps := ps, wl := wl, wr := wr }

theorem opFit_fitted (s : State) (h : 10000 ≤ s.thermal.samples.length) : ∃ ps wl wr n,
    opFit s = { s with thermal := s.thermal.weighed ps wl wr, freeUses := n } ∧ Fitted s.thermal.fitSamples s.thermal (s.thermal.weighed ps wl wr) := by
  have hne : s.thermal.fitSamples ≠ [] := fun he => by
    have : s.thermal.fitSamples.length = 0 := by rw [he]; rfl
    rw [ThermalSt.fitSamples, List.length_map] at this
    omega
  unfold opFit
  dsimp only
  rw [if_neg (by rw [List.length_map]; omega)]
  generalize hl : s.thermal.fitSamples = l at hne
  unfold ThermalSt.fitSamples at hl
  rw [hl]
  cases hL : single (l.map fun e => e.2.1) with
  | true =>
    cases hR : single (l.map fun e => e.2.2) with
    | true =>
      refine ⟨_, _, _, _, rfl, rfl, ?_, fun hv => ?_, fun hv => ?_, fun _ => rfl, fun _ => rfl⟩
      · exact held_normal hne _ _
      · exact (ne_true_of_eq_false hv hL).elim
      · exact (ne_true_of_eq_false hv hR).elim
    | false =>
      obtain ⟨hc, hr⟩ := fitRows_normal hne s.thermal.wl
      exact ⟨_, _, _, _, rfl, rfl, hc, fun hv => (ne_true_of_eq_false hv hL).elim, fun _ => hr, fun _ => rfl, fun hv => (ne_true_of_eq_false hR hv).elim⟩
  | false =>
    cases hR : single (l.map fun e => e.2.2) with
    | true =>
      obtain ⟨hc, hr⟩ := fitLanes_normal hne s.thermal.wr
      exact ⟨_, _, _, _, rfl, rfl, hc, fun _ => hr, fun hv => (ne_true_of_eq_false hv hR).elim, fun hv => (ne_true_of_eq_false hL hv).elim, fun _ => rfl⟩
    | false =>
      have hwl : ∀ w : Rat, single (l.map fun e => e.2.1) = true → w = s.thermal.wl := fun w hv => (ne_true_of_eq_false hL hv).elim
      have hwr : ∀ w : Rat, single (l.map fun e => e.2.2) = true → w = s.thermal.wr := fun w hv => (ne_true_of_eq_false hR hv).elim
      simp only [Bool.and_self, Bool.false_eq_true, if_false]
      split
      case isTrue hz =>
        obtain ⟨hc, hr⟩ := fitRows_normal hne (((Config.freeNat s.freeUses : Nat) : Int) : Rat)
        refine ⟨_, _, _, _, rfl, rfl, hc, fun _ => lanes_of_rows (a := (fitLine (l.map fun e => (e.2.2, e.2.1))).1)
          (b := (fitLine (l.map fun e => (e.2.2, e.2.1))).2) hc hr ?_, fun _ => hr, hwl _, hwr _⟩
        rw [total_congr l (g := fun _ => 0) fun e he => ?_, total_const, mul_zero]
        rw [List.all_map, List.all_eq_true] at hz
        exact mul_eq_zero_of_right _ (eq_of_beq (hz e he))
      case isFalse =>
        obtain ⟨hc, hr⟩ := fitRows_normal hne (fitLine (l.map fun e => (e.2.1 - (fitLine (l.map fun e => (e.2.2, e.2.1))).1
          - (fitLine (l.map fun e => (e.2.2, e.2.1))).2 * e.2.2, e.1))).2
        exact ⟨_, _, _, _, rfl, rfl, hc, fun _ => fitBoth_lanes hne, fun _ => hr, hwl _, hwr _⟩

end Sys2Proof.Machine
end
section
/-! SUPPORT. The Ceiling unit's trip, lost flow and the way to Overcast (R351, R353, R436). -/

namespace Sys2Proof.Machine
open Sys2Proof

/-! ### The way to Overcast (R436) -/

/-- An order for Overcast or Standby noted: where the way leads and, for one that begins, why. -/
noncomputable def State.bound (s : State) (target : PowerSt) (cause : Nat) (standby : Bool) : State :=
  s.updStart fun x => { x with target := some target, entryCause := cause, entryStandby := standby }

theorem goOvercast_idle (s : State) (cause : Nat) (sb : Bool) (ha : s.start.power ≠ .active) (hl : s.start.power ≠ .lull) : s.goOvercast cause sb = s := by
  unfold State.goOvercast
  split
  · next h => exact absurd h ha
  · next h => exact absurd h hl
  · rfl

/-- Where an order for Overcast leads: Standby where it says so or the way to Standby is under way. -/
noncomputable def State.overcastTarget (s : State) (sb : Bool) : PowerSt := if sb = true ∨ s.start.target = some .standby then .standby else .overcast

theorem overcastTarget_standby (s : State) (sb : Bool) : decide (s.overcastTarget sb = .standby) = (sb || s.start.target == some .standby) := by
  unfold State.overcastTarget
  by_cases h : sb = true ∨ s.start.target = some .standby
  · rw [if_pos h]
    obtain h | h := h <;> simp [h]
  · rw [if_neg h]
    obtain ⟨h1, h2⟩ := not_or.1 h
    simp [h1, h2]

theorem goOvercast_eq (s : State) (cause : Nat) (sb : Bool) (h : s.start.power = .active ∨ s.start.power = .lull) :
    let straight : Prop := s.start.target ≠ some .overcast ∧ s.start.target ≠ some .standby
    let u := s.bound (s.overcastTarget sb) (if s.start.target = some .overcast ∨ s.start.target = some .standby then s.start.entryCause else cause)
      (decide (s.overcastTarget sb = .standby))
    (¬straight → s.goOvercast cause sb = u) ∧ (straight → s.tick.running = true → s.goOvercast cause sb = u.askLull)
    ∧ (straight → s.tick.running = false → s.goOvercast cause sb = u.beginOvercast) := by
  intro straight u
  have hbegun : ∀ {b : Bool}, b = (s.start.target == some .overcast || s.start.target == some .standby) →
      (b = true ↔ s.start.target = some .overcast ∨ s.start.target = some .standby) := fun hb => by simp [hb]
  have heq : s.goOvercast cause sb = if (s.start.target == some .overcast || s.start.target == some .standby) = true then u
      else if s.tick.running then u.askLull else u.beginOvercast := by
    have hu : s.bound (if (sb || s.start.target == some .standby) = true then .standby else .overcast)
        (if (s.start.target == some .overcast || s.start.target == some .standby) = true then s.start.entryCause else cause)
        (sb || s.start.target == some .standby) = u := by
      simp only [u]
      rw [overcastTarget_standby]
      simp only [State.overcastTarget, Bool.or_eq_true, beq_iff_eq]
    unfold State.goOvercast
    obtain hp | hp := h
    · rw [hp, ← hu]
      rfl
    · rw [hp, ← hu]
      rfl
  rw [heq]
  refine ⟨fun hs => if_pos ?_, fun hs hr => ?_, fun hs hr => ?_⟩
  · exact (hbegun rfl).2 (by tauto)
  · rw [if_neg fun hb => ((hbegun rfl).1 hb).elim hs.1 hs.2, if_pos hr]
  · rw [if_neg fun hb => ((hbegun rfl).1 hb).elim hs.1 hs.2, if_neg (by simp [hr])]

/-! ### Trips (R353) -/

/-- The highest of the coupling readings, 52 C with both lost (R346). -/
noncomputable def couplingInlet (a b : Option Int) : Int :=
  match a.toList ++ b.toList with
  | [] => 520
  | x :: xs => xs.foldl max x

theorem couplingInlet_lost : couplingInlet none none = 520 := rfl

theorem couplingInlet_read (a b : Option Int) (h : ¬(a = none ∧ b = none)) :
    couplingInlet a b ∈ a.toList ++ b.toList ∧ ∀ x ∈ a.toList ++ b.toList, x ≤ couplingInlet a b := by
  unfold couplingInlet
  cases a with
  | none =>
    cases b with
    | none => exact absurd ⟨rfl, rfl⟩ h
    | some y => simp
  | some x =>
    cases b with
    | none => simp
    | some y =>
      refine ⟨?_, fun z hz => ?_⟩
      · change max x y ∈ [x, y]
        obtain hm | hm := max_choice x y <;> simp [hm]
      · obtain rfl | hz := List.mem_cons.1 (show z ∈ [x, y] from hz)
        · exact Int.le_max_left ..
        · rw [List.mem_singleton.1 hz]
          exact Int.le_max_right ..

/-- Samples in a row of a thermistor at 52 C. -/
noncomputable def tripHits (a b x : Option Int) (n : Nat) : Nat := if (a.isNone && b.isNone) || x.any (520 ≤ ·) then min 2 (n + 1) else 0

theorem tripHits_spec (a b x : Option Int) (n : Nat) :
    (((a = none ∧ b = none) ∨ ∃ v, x = some v ∧ 520 ≤ v) → tripHits a b x n = min 2 (n + 1))
    ∧ (¬(a = none ∧ b = none) → (∀ v, x = some v → v < 520) → tripHits a b x n = 0) := by
  unfold tripHits
  refine ⟨fun h => if_pos ?_, fun hl hv => if_neg ?_⟩
  · obtain ⟨rfl, rfl⟩ | ⟨v, rfl, hv⟩ := h
    · rfl
    · simp [hv]
  · cases x with
    | none => simpa using fun ha hb => hl ⟨ha, hb⟩
    | some v =>
      have := hv v rfl
      simp only [Bool.or_eq_true, Bool.and_eq_true, Option.isNone_iff_eq_none, Option.any_some, decide_eq_true_eq, not_or]
      exact ⟨hl, by omega⟩

/-- What stands for a trip in a sample. -/
noncomputable def tripDue (j : Int) (hitA hitB : Nat) : Bool := decide (1050 ≤ j) || decide (2 ≤ max hitA hitB)

theorem tripDue_iff (a b : Option Int) (j : Int) (m n : Nat) : tripDue j (tripHits a b a m) (tripHits a b b n) = true
    ↔ 1050 ≤ j ∨ tripHits a b a m = 2 ∨ tripHits a b b n = 2 := by
  have hle : ∀ (x : Option Int) (k : Nat), tripHits a b x k ≤ 2 := fun x k => by
    unfold tripHits
    split
    · exact Nat.min_le_left 2 _
    · exact Nat.zero_le 2
  have h1 := hle a m
  have h2 := hle b n
  simp only [tripDue, Bool.or_eq_true, decide_eq_true_eq]
  omega

/-- A sample of the Ceiling unit, before it trips. -/
noncomputable def State.coupled (s : State) (a b : Option Int) (j : Int) : State :=
  let hitA := tripHits a b a s.thermal.tripHits.1
  let hitB := tripHits a b b s.thermal.tripHits.2
  let cool := decide (couplingInlet a b < 450) && (s.start.power == .standby || decide (j < 850))
  let u := (s.updPower fun p => { p with msClock := s.power.msClock + 1 }).put Reg.Glob.UPTIME_S ((s.power.msClock + 1) / 1000)
  let u := u.updThermal fun t => { t with couplingA := a, couplingB := b }
  let u := (u.put Reg.Therm.COUPLING_A (lostOr a)).put Reg.Therm.COUPLING_B (lostOr b)
  u.updThermal fun t => { t with tripHits := (hitA, hitB), hot := tripDue j hitA hitB, coolMs := if cool then t.coolMs + 1 else 0 }

theorem opCeiling_eq (a b : Option Int) (j : Int) (s : State) (h : s.start.power ≠ .off) : opCeiling a b j s =
    if ((s.coupled a b j).thermal.hot && !s.thermal.hot) = true
    then (s.coupled a b j).tripNow (decide (1050 ≤ j)) (if decide (1050 ≤ j) = true then j else couplingInlet a b) else s.coupled a b j := by
  unfold opCeiling
  rw [if_neg (by simpa using h)]
  rfl

/-- The trip's pin and marks. -/
noncomputable def State.tripped (s : State) : State :=
  ((((s.updThermal fun t => { t with trip := true, tripCount := t.tripCount + 1, coolMs := 0 }).put Reg.Ceil.TRIP 1).put Reg.Therm.THERMTRIP 1).mark
    Reg.Therm.THERM_TRIP).emit (.pin "THERMTRIP_N" true)

theorem tripNow_counted (s : State) (jn : Bool) (v : Int) (h : s.thermal.trip = true) :
    s.tripNow jn v = s.updThermal fun t => { t with tripCount := t.tripCount + 1 } := if_pos h

theorem tripNow_first (s : State) (jn : Bool) (v : Int) (h : s.thermal.trip = false) :
    s.tripNow jn v = ((s.tripped.event { code := 0x0210, detail := (40, if jn then 1 else 0) :: le2 42 (int16 v) }).platformEvent 34 1 0).goOvercast 2 false :=
  if_neg (by simp [h])

theorem tripped_marks (s : State) : s.tripped.get Reg.Ceil.TRIP = 1 ∧ s.tripped.get Reg.Therm.THERMTRIP = 1 ∧ s.tripped.get Reg.Therm.THERM_TRIP = 1 := by
  unfold State.tripped
  generalize s.updThermal _ = u
  refine ⟨?_, ?_, get_mark ((u.put Reg.Ceil.TRIP 1).put Reg.Therm.THERMTRIP 1) _ (by decide) (by decide)⟩
  · refine (State.get_put_apart ((u.put Reg.Ceil.TRIP 1).put Reg.Therm.THERMTRIP 1) _ _ _ (by decide) (by decide) (by decide) (by decide)).trans ?_
    exact (State.get_put_apart (u.put Reg.Ceil.TRIP 1) _ _ _ (by decide) (by decide) (by decide) (by decide)).trans
      (State.get_put u Reg.Ceil.TRIP 1 (by decide) (by decide) (by decide))
  · refine (State.get_put_apart ((u.put Reg.Ceil.TRIP 1).put Reg.Therm.THERMTRIP 1) _ _ _ (by decide) (by decide) (by decide) (by decide)).trans ?_
    exact State.get_put (u.put Reg.Ceil.TRIP 1) Reg.Therm.THERMTRIP 1 (by decide) (by decide) (by decide)

/-- The trip released, before its report. -/
noncomputable def State.untripped (s : State) : State :=
  (((s.updThermal fun t => { t with trip := false }).put Reg.Ceil.TRIP 0).put Reg.Therm.THERMTRIP 0).emit (.pin "THERMTRIP_N" false)

theorem opTripRelease_idle (s : State) (h : s.thermal.trip = false) : opTripRelease s = s := if_pos (by simp [h])

theorem opTripRelease_released (s : State) (h : s.thermal.trip = true) : opTripRelease s = s.untripped.platformEvent 34 0 0 := if_neg (by simp [h])

theorem untripped_marks (s : State) : s.untripped.get Reg.Ceil.TRIP = 0 ∧ s.untripped.get Reg.Therm.THERMTRIP = 0 := by
  unfold State.untripped
  generalize s.updThermal _ = u
  refine ⟨?_, State.get_put (u.put Reg.Ceil.TRIP 0) Reg.Therm.THERMTRIP 0 (by decide) (by decide) (by decide)⟩
  exact (State.get_put_apart (u.put Reg.Ceil.TRIP 0) _ _ _ (by decide) (by decide) (by decide) (by decide)).trans
    (State.get_put u Reg.Ceil.TRIP 0 (by decide) (by decide) (by decide))

/-! ### Lost flow (R351) -/

/-- The flow is lost, before the report. -/
noncomputable def State.flowGone (s : State) (w : Nat) : State :=
  (s.updThermal fun t => { t with flowLost := true, flow := w, flowOkMs := 0 }).mark Reg.Therm.FLOW_LOST

theorem opFlowLost_idle (w : Nat) (s : State) (ha : s.start.power ≠ .active) (hl : s.start.power ≠ .lull) : opFlowLost w s = s :=
  if_pos (by simp [ha, hl])

theorem opFlowLost_gone (w : Nat) (s : State) (h : s.start.power = .active ∨ s.start.power = .lull) :
    opFlowLost w s = ((s.flowGone w).event { code := 0x0213, detail := le2 42 w }).goOvercast 0 false :=
  if_neg (by obtain h | h := h <;> simp [h])

/-! ### Life records and the outlook (R354, R358) -/

/-- A field whose life records are stored. -/
noncomputable def FieldSt.lifeStored (x : FieldSt) : FieldSt := { x with storedLife := x.lifeIndex, storedResidue := x.residue }

theorem FieldSt.lifeStored_same {x : FieldSt} (hl : x.lifeIndex = x.storedLife) (hr : x.residue = x.storedResidue) : x.lifeStored = x :=
  congrArg₂ (fun a b => { x with storedLife := a, storedResidue := b }) hl hr

theorem FieldSt.lifeStored_atReset (f : Nat) : (FieldSt.atReset f).lifeStored = FieldSt.atReset f := by
  unfold FieldSt.atReset
  split
  · exact lifeStored_same rfl rfl
  · split
    · exact lifeStored_same rfl rfl
    · exact lifeStored_same rfl rfl

theorem storeLife_spec (s : State) : s.storeLife = { s with fields := s.storeLife.fields } ∧ ∀ f, s.storeLife.field f = (s.field f).lifeStored :=
  ⟨rfl, fun f => Tbl.getD_mapValues s.fields FieldSt.lifeStored f _ (FieldSt.lifeStored_atReset f)⟩

theorem slope_nonneg (t : ThermalSt) : 0 ≤ t.slope := by
  unfold ThermalSt.slope
  split
  · exact le_max_left 0 _
  · exact le_refl 0

end Sys2Proof.Machine
end
section
/-! SUPPORT. A move begun from a complete twin (R166, R357). -/

namespace Sys2Proof.Machine
open Sys2Proof

/-- Cores, sessions, airspaces, start-up and the answers given stand. -/
structure Beside (s t : State) : Prop where
  cores : t.cores = s.cores
  sessions : t.sessions = s.sessions
  airspaces : t.airspaces = s.airspaces
  start : t.start = s.start
  answers : t.answersTo .host = s.answersTo .host

theorem Beside.refl (s : State) : Beside s s := ⟨rfl, rfl, rfl, rfl, rfl⟩

theorem Beside.trans {s t u : State} (h : Beside s t) (k : Beside t u) : Beside s u :=
  ⟨k.cores.trans h.cores, k.sessions.trans h.sessions, k.airspaces.trans h.airspaces, k.start.trans h.start, k.answers.trans h.answers⟩

theorem Beside.put (s : State) (f : Fld) (v : Nat) : Beside s (s.put f v) := ⟨rfl, rfl, rfl, rfl, rfl⟩
theorem Beside.updField (s : State) (f : Nat) (g : FieldSt → FieldSt) : Beside s (s.updField f g) := ⟨rfl, rfl, rfl, rfl, rfl⟩
theorem Beside.updPlc (s : State) (p : Nat) (g : PlacementSt → PlacementSt) : Beside s (s.updPlc p g) := ⟨rfl, rfl, rfl, rfl, rfl⟩

theorem Beside.event (s : State) (e : Event) : Beside s (s.event e) :=
  have h := event_frame s e
  ⟨(congrArg State.cores h.frame :), (congrArg State.sessions h.frame :), (congrArg State.airspaces h.frame :), (congrArg State.start h.frame :), h.answers .host⟩

theorem Beside.sendGust (s : State) (n : Nat) : Beside s (s.sendGust n) :=
  ⟨rfl, rfl, rfl, rfl, by simp [State.sendGust, State.emit, State.answersTo, repliesIn_append, repliesIn]⟩

theorem field_event (s : State) (e : Event) (f : Nat) : (s.event e).field f = s.field f := field_congr (congrArg State.fields (event_frame s e).frame :) f
theorem plc_event (s : State) (e : Event) (p : Nat) : (s.event e).plc p = s.plc p := plc_congr (congrArg State.placements (event_frame s e).frame :) p

/-! ### A bank's image region is opened for writing (R144) -/

/-- A field whose placement, role and test stand. -/
structure SameSite (x y : FieldSt) : Prop where
  placement : y.placement = x.placement
  role : y.role = x.role
  chosen : y.chosen = x.chosen

theorem SameSite.trans {x y z : FieldSt} (h : SameSite x y) (k : SameSite y z) : SameSite x z :=
  ⟨k.placement.trans h.placement, k.role.trans h.role, k.chosen.trans h.chosen⟩

/-- A bank put into a field leaves what else the field is. -/
theorem setBank_keeps (x : FieldSt) (i : Nat) (b : Bank) : SameSite x (x.setBank i b) := by
  unfold FieldSt.setBank
  split <;> exact ⟨rfl, rfl, rfl⟩

theorem field_updBank (s : State) (f i : Nat) (g : Bank → Bank) : (s.updBank f i g).field f = (s.field f).setBank i (g ((s.field f).bank i)) :=
  State.field_updField s f fun x => x.setBank i (g (x.bank i))

theorem beginWrite_spec (s : State) (f i : Nat) : Beside s (s.beginWrite f i) ∧ (s.beginWrite f i).placements = s.placements
    ∧ (s.beginWrite f i).tick = s.tick ∧ (s.beginWrite f i).fields = (s.updBank f i fun b => { b with cycles := b.cycles + 1 }).fields := by
  unfold State.beginWrite
  dsimp only
  have hput : ∀ (u : State) (r : Fld) (n : Nat), u = s.updBank f i (fun b => { b with cycles := b.cycles + 1 }) → Beside s (u.put r n) := fun u r n hu =>
    hu ▸ (Beside.updField s f _).trans (.put _ r n)
  split
  · refine ⟨(hput _ _ _ rfl).trans (.event _ _), ?_, ?_, ?_⟩
    · exact (congrArg State.placements (event_frame _ _).frame :)
    · exact (congrArg State.tick (event_frame _ _).frame :)
    · exact (congrArg State.fields (event_frame _ _).frame :)
  · exact ⟨hput _ _ _ rfl, rfl, rfl, rfl⟩

/-! ### A test given up (R23) -/

theorem abandonTest_none (s : State) (c : Nat) (h : s.start.testField ≠ some c) : s.abandonTest c = s := if_neg (by simpa using h)

theorem banksDown_keeps {β : Type} (p : State → β) (h : ∀ (t : State) (l : Tbl CoreSt), p { t with cores := l } = p t) (s : State) (f : Nat) :
    p (s.banksDown f) = p s := forAll_keeps p _ _ (fun t c => by
  split
  · exact h t _
  · rfl) s

/-- The field of a test that is given up, and what stands. -/
structure TestDropped (s t : State) (c : Nat) : Prop where
  placements : t.placements = s.placements
  sessions : t.sessions = s.sessions
  airspaces : t.airspaces = s.airspaces
  fields : t.fields = (s.updField c fun x => { x with task := 0, taskCmd := none }).fields
  test : t.start.testField = none
  tick : t.tick = s.tick

theorem TestDropped.reply {s t u : State} {c : Nat} (h : TestDropped s t c) (k : ReplyFrame t u) : TestDropped s u c :=
  ⟨(congrArg State.placements k.frame :).trans h.placements, (congrArg State.sessions k.frame :).trans h.sessions,
    (congrArg State.airspaces k.frame :).trans h.airspaces, (congrArg State.fields k.frame :).trans h.fields,
    (congrArg (fun t => t.start.testField) k.frame :).trans h.test, (congrArg State.tick k.frame :).trans h.tick⟩

theorem abandonTest_dropped (s : State) (c : Nat) (h : s.start.testField = some c) : TestDropped s (s.abandonTest c) c := by
  unfold State.abandonTest
  rw [if_pos (by simp [h])]
  dsimp only
  generalize hu : State.updField (State.put (State.bump _ Reg.Start.TESTS_ABANDONED) Reg.Start.TEST_FIELD 0xFF) c _ = u
  have hbegun : TestDropped s u c := by
    subst hu
    exact ⟨rfl, rfl, rfl, rfl, rfl, rfl⟩
  have hdown : TestDropped s (u.banksDown c) c :=
    ⟨(banksDown_keeps State.placements (fun _ _ => rfl) u c).trans hbegun.placements, (banksDown_keeps State.sessions (fun _ _ => rfl) u c).trans hbegun.sessions,
      (banksDown_keeps State.airspaces (fun _ _ => rfl) u c).trans hbegun.airspaces, (banksDown_keeps State.fields (fun _ _ => rfl) u c).trans hbegun.fields,
      (banksDown_keeps (fun t => t.start.testField) (fun _ _ => rfl) u c).trans hbegun.test,
      (banksDown_keeps State.tick (fun _ _ => rfl) u c).trans hbegun.tick⟩
  generalize u.banksDown c = v at hdown
  split
  · exact hdown
  · exact hdown.reply (reply_frame v _ _)

/-! ### The move begins (R166) -/

/-- A clearing taken for a field's work. -/
noncomputable def State.takeClearing (s : State) (p c : Nat) (testing : Bool) : State :=
  s.updField c fun x => { x with role := if testing then x.role else .rebuild, chosen := testing, placement := some p }

/-- The clearing's bank is written, and the move stands in the list. -/
noncomputable def State.openMove (s : State) (p f c h : Nat) (heat : Bool) : State :=
  let s := s.beginWrite c (s.plc p).liveBank
  let s := s.updBank c (s.plc p).liveBank fun b => { b with st := .installing, mem := [], err := [], leaves := [] }
  s.updPlc p fun x => { x with moves := x.moves ++ [⟨f, c, some h, false, heat, s.tick.count + 1, none⟩] }

/-- A clearing at rest is woken. -/
noncomputable def State.wakeClearing (s : State) (c : Nat) : State :=
  if (s.field c).clock == .stopped then (s.updField c fun x => { x with wakeForRebuild := true }).sendGust (stewardId c) else s

theorem beginMove_twin (s : State) (p f c h : Nat) (heat : Bool) (hc : s.nearestClearing f = some c) (ht : s.twinComplete f = some h) :
    (s.beginMove p f heat).1
      = (((s.abandonTest c).takeClearing p c (s.start.testField == some c)).openMove p f c h heat).wakeClearing c := by
  unfold State.beginMove
  rw [hc, ht]
  rfl

/-- A move opened in a clearing: `t` from `s`. -/
structure MoveOpened (s t : State) (p f c h : Nat) (heat : Bool) : Prop where
  beside : Beside s t
  moves : (t.plc p).moves = (s.plc p).moves ++ [⟨f, c, some h, false, heat, s.tick.count + 1, none⟩]
  others : ∀ q, q ≠ p → t.plc q = s.plc q
  fields : ∀ g, g ≠ c → t.field g = s.field g
  site : SameSite (s.field c) (t.field c)
  cycles : ((t.field c).bank (s.plc p).liveBank).cycles = ((s.field c).bank (s.plc p).liveBank).cycles + 1

theorem openMove_spec (s : State) (p f c h : Nat) (heat : Bool) : MoveOpened s (s.openMove p f c h heat) p f c h heat := by
  obtain ⟨hb, hp, ht, hf⟩ := beginWrite_spec s c (s.plc p).liveBank
  unfold State.openMove
  dsimp only
  generalize s.beginWrite c (s.plc p).liveBank = u at hb hp ht hf
  rw [show (u.plc p).liveBank = (s.plc p).liveBank from congrArg PlacementSt.liveBank (plc_congr hp p)]
  generalize hi : (s.plc p).liveBank = i at hf
  have hu : u.field c = _ := (field_congr hf c).trans (field_updBank s c i _)
  have hother : ∀ g, g ≠ c → u.field g = s.field g := fun g hg => (field_congr hf g).trans (field_updBank_other s c i g _ hg)
  have hv := field_updBank u c i fun b => { b with st := .installing, mem := [], err := [], leaves := [] }
  have hrest : ∀ g, g ≠ c → (u.updBank c i fun b => { b with st := .installing, mem := [], err := [], leaves := [] }).field g = u.field g :=
    fun g hg => field_updBank_other u c i g _ hg
  have hbeside : Beside u (u.updBank c i fun b => { b with st := .installing, mem := [], err := [], leaves := [] }) := .updField u c _
  have hplc : ∀ q, (u.updBank c i fun b => { b with st := .installing, mem := [], err := [], leaves := [] }).plc q = s.plc q := plc_congr hp
  have htick : (u.updBank c i fun b => { b with st := .installing, mem := [], err := [], leaves := [] }).tick = s.tick := ht
  generalize (u.updBank c i fun b => { b with st := .installing, mem := [], err := [], leaves := [] }) = v at hv hrest hbeside hplc htick
  have hsite : SameSite (s.field c) (v.field c) := by
    rw [hv]
    exact (hu ▸ setBank_keeps (s.field c) i _).trans (setBank_keeps (u.field c) i _)
  refine ⟨(hb.trans hbeside).trans (.updPlc v p _), ?_, fun q hq => (State.plc_updPlc_other v p q _ hq).trans (hplc q),
    fun g hg => (hrest g hg).trans (hother g hg), hsite, ?_⟩
  · refine (congrArg PlacementSt.moves (State.plc_updPlc v p _)).trans ?_
    rw [hplc, htick]
  · rw [hi]
    refine (congrArg (fun x => (FieldSt.bank x i).cycles) hv).trans ?_
    rw [setBank_bank_same, hu, setBank_bank_same]

/-- A clearing waked for a move, or awake: `t` from `s`. -/
structure ClearingWoken (s t : State) (c : Nat) : Prop where
  beside : Beside s t
  placements : t.placements = s.placements
  fields : ∀ g, g ≠ c → t.field g = s.field g
  site : SameSite (s.field c) (t.field c)
  bank : ∀ i, (t.field c).bank i = (s.field c).bank i

theorem wakeClearing_spec (s : State) (c : Nat) : ClearingWoken s (s.wakeClearing c) c := by
  unfold State.wakeClearing
  split
  · have hwoken : (s.updField c fun x => { x with wakeForRebuild := true }).field c = { s.field c with wakeForRebuild := true } :=
      State.field_updField s c fun x => { x with wakeForRebuild := true }
    have hother : ∀ g, g ≠ c → (s.updField c fun x => { x with wakeForRebuild := true }).field g = s.field g :=
      fun g hg => State.field_updField_other s c g (fun x => { x with wakeForRebuild := true }) hg
    refine ⟨(Beside.updField s c _).trans (.sendGust _ _), rfl, hother, ⟨(congrArg FieldSt.placement hwoken :), (congrArg FieldSt.role hwoken :),
      (congrArg FieldSt.chosen hwoken :)⟩, fun i => (congrArg (fun x => FieldSt.bank x i) hwoken :)⟩
  · exact ⟨.refl s, rfl, fun _ _ => rfl, ⟨rfl, rfl, rfl⟩, fun _ => rfl⟩

/-- A field's work begins to move to clearing `c`, from its twin on `h`. -/
structure MoveBegun (s t : State) (p f c h : Nat) (heat : Bool) : Prop where
  moves : (t.plc p).moves = (s.plc p).moves ++ [⟨f, c, some h, false, heat, s.tick.count + 1, none⟩]
  others : ∀ q, q ≠ p → t.plc q = s.plc q
  fields : ∀ g, g ≠ c → t.field g = s.field g
  placement : (t.field c).placement = some p
  cycles : ((t.field c).bank (s.plc p).liveBank).cycles = ((s.field c).bank (s.plc p).liveBank).cycles + 1
  sessions : t.sessions = s.sessions
  airspaces : t.airspaces = s.airspaces
  free : s.start.testField ≠ some c → (t.field c).role = .rebuild ∧ t.cores = s.cores ∧ t.answersTo .host = s.answersTo .host
  tested : s.start.testField = some c → (t.field c).role = (s.field c).role ∧ (t.field c).chosen = true ∧ t.start.testField = none

/-- What follows a test given up, or no test, on the clearing: the state the move is opened in. -/
theorem MoveBegun.of_open {s a : State} {p f c h : Nat} {heat testing : Bool} (hsess : a.sessions = s.sessions) (hasp : a.airspaces = s.airspaces)
    (hplc : a.placements = s.placements) (htick : a.tick.count = s.tick.count) (hrest : ∀ g, g ≠ c → a.field g = s.field g)
    (hrole : (a.field c).role = (s.field c).role) (hbank : ∀ i, (a.field c).bank i = (s.field c).bank i)
    (hfree : s.start.testField ≠ some c → testing = false ∧ a.cores = s.cores ∧ a.answersTo .host = s.answersTo .host)
    (htested : s.start.testField = some c → testing = true ∧ a.start.testField = none) :
    MoveBegun s (((a.takeClearing p c testing).openMove p f c h heat).wakeClearing c) p f c h heat := by
  have htaken : (a.takeClearing p c testing).field c = _ := State.field_updField a c
    fun x => { x with role := if testing then x.role else .rebuild, chosen := testing, placement := some p }
  have hother : ∀ g, g ≠ c → (a.takeClearing p c testing).field g = a.field g := fun g hg => State.field_updField_other a c g
    (fun x => { x with role := if testing then x.role else .rebuild, chosen := testing, placement := some p }) hg
  have hbeside : Beside a (a.takeClearing p c testing) := .updField a c _
  have hplaces : (a.takeClearing p c testing).placements = a.placements := rfl
  have hcount : (a.takeClearing p c testing).tick = a.tick := rfl
  generalize a.takeClearing p c testing = b at htaken hother hbeside hplaces hcount
  have ho := openMove_spec b p f c h heat
  generalize b.openMove p f c h heat = d at ho
  have hw := wakeClearing_spec d c
  generalize d.wakeClearing c = t at hw
  have hat : Beside a t := (hbeside.trans ho.beside).trans hw.beside
  have hsite := ho.site.trans hw.site
  have hp : ∀ q, b.plc q = s.plc q := fun q => plc_congr (hplaces.trans hplc) q
  refine ⟨?_, fun q hq => (plc_congr hw.placements q).trans ((ho.others q hq).trans (hp q)), fun g hg => (hw.fields g hg).trans ((ho.fields g hg).trans ((hother g hg).trans (hrest g hg))),
    hsite.placement.trans (congrArg FieldSt.placement htaken :), ?_, hat.sessions.trans hsess, hat.airspaces.trans hasp, fun hs => ?_, fun hs => ?_⟩
  · rw [plc_congr hw.placements p, ho.moves, hp, hcount, htick]
  · rw [hw.bank, ← hp p, ho.cycles, hp p, htaken, ← hbank]
    rfl
  · obtain ⟨ht, hcores, hanswers⟩ := hfree hs
    refine ⟨hsite.role.trans ?_, hat.cores.trans hcores, hat.answers.trans hanswers⟩
    rw [htaken, ht]
    rfl
  · obtain ⟨ht, htest⟩ := htested hs
    refine ⟨hsite.role.trans ?_, hsite.chosen.trans ?_, (congrArg StartSt.testField hat.start).trans htest⟩
    · rw [htaken, ht, ← hrole]
      rfl
    · rw [htaken, ht]

theorem beginMove_begun (s : State) (p f c h : Nat) (heat : Bool) (hc : s.nearestClearing f = some c) (ht : s.twinComplete f = some h) :
    MoveBegun s (s.beginMove p f heat).1 p f c h heat := by
  rw [beginMove_twin s p f c h heat hc ht]
  by_cases hs : s.start.testField = some c
  · have hd := abandonTest_dropped s c hs
    have hself : (s.abandonTest c).field c = { s.field c with task := 0, taskCmd := none } := (field_congr hd.fields c).trans
      (State.field_updField s c fun x => { x with task := 0, taskCmd := none })
    exact .of_open hd.sessions hd.airspaces hd.placements (congrArg TickSt.count hd.tick) (fun g hg => (field_congr hd.fields g).trans
      (State.field_updField_other s c g (fun x => { x with task := 0, taskCmd := none }) hg)) (congrArg FieldSt.role hself :)
      (fun i => (congrArg (fun x => FieldSt.bank x i) hself :)) (fun hn => absurd hs hn) fun _ => ⟨by simp [hs], hd.test⟩
  · rw [abandonTest_none s c hs]
    exact .of_open rfl rfl rfl rfl (fun _ _ => rfl) rfl (fun _ => rfl) (fun _ => ⟨by simp [hs], rfl, rfl⟩) fun hn => absurd hn hs

/-! ### A field switched off for heat (R357) -/

/-- Field `f` is held at its limit, its twin on `h` is complete, and clearing `c` can take its work. -/
def State.HeatReady (s : State) (f p c h : Nat) : Prop :=
  (s.field f).placement = some p ∧ (s.field f).role = .active ∧ (s.field f).lossPending = false ∧ s.thermal.switchOff = true ∧ (s.field f).heldRun ≠ 0
  ∧ s.twinComplete f = some h ∧ (∀ m ∈ (s.plc p).moves, m.field ≠ f) ∧ (s.plc p).moves.length < 3 ∧ s.aliasFull p f = false ∧ s.nearestClearing f = some c

theorem opFieldOffHeat_idle (f : Nat) (s : State) (h : ∀ p c t, ¬s.HeatReady f p c t) : opFieldOffHeat f s = s := by
  unfold opFieldOffHeat
  dsimp only
  split
  · rfl
  · next p hp =>
    refine if_pos (by_contra fun hn => ?_)
    simp only [Bool.or_eq_true, bne_iff_ne, ne_eq, Bool.not_eq_true', Option.isNone_iff_eq_none, List.any_eq_true, decide_eq_true_eq, not_or, not_exists, not_and,
      Bool.not_eq_true, Decidable.not_not, Bool.not_eq_false] at hn
    obtain ⟨⟨⟨⟨⟨⟨⟨⟨hrole, hloss⟩, hoff⟩, hheld⟩, htwin⟩, hmoves⟩, hlen⟩, halias⟩, hclear⟩ := hn
    obtain ⟨t, ht⟩ := Option.ne_none_iff_exists'.1 htwin
    obtain ⟨c, hc⟩ := Option.ne_none_iff_exists'.1 hclear
    exact h p c t ⟨hp, hrole, hloss, hoff, hheld, ht, hmoves, by omega, halias, hc⟩

theorem opFieldOffHeat_moved (f p c h : Nat) (s : State) (hr : s.HeatReady f p c h) :
    MoveBegun s (opFieldOffHeat f s) p f c h true ∧ (opFieldOffHeat f s).get Reg.Therm.FIELD_OFF_HEAT = 1 := by
  obtain ⟨hp, hrole, hloss, hoff, hheld, htwin, hmoves, hlen, halias, hclear⟩ := hr
  have hidle : ¬((s.field f).role != .active || (s.field f).lossPending || !s.thermal.switchOff || (s.field f).heldRun = 0 || (s.twinComplete f).isNone
      || ((s.plc p).moves.any fun m => m.field = f) || 3 ≤ (s.plc p).moves.length || s.aliasFull p f || (s.nearestClearing f).isNone) = true := by
    have hany : ((s.plc p).moves.any fun m => decide (m.field = f)) = false := by simpa using hmoves
    simp [hrole, hloss, hoff, hheld, htwin, hany, Nat.not_le.2 hlen, halias, hclear]
  have heq : ∃ e, opFieldOffHeat f s = ((s.beginMove p f true).1.mark Reg.Therm.FIELD_OFF_HEAT).event e := by
    unfold opFieldOffHeat
    dsimp only
    rw [hp]
    exact ⟨_, if_neg hidle⟩
  obtain ⟨e, heq⟩ := heq
  have hb := beginMove_begun s p f c h true hclear htwin
  generalize (s.beginMove p f true).1 = b at heq hb
  have hev := event_frame (b.mark Reg.Therm.FIELD_OFF_HEAT) e
  rw [← heq] at hev
  have hbeside : Beside b (opFieldOffHeat f s) := heq ▸ (Beside.put b _ 1).trans (.event _ _)
  have hplc : ∀ q, (opFieldOffHeat f s).plc q = b.plc q := plc_congr (congrArg State.placements hev.frame :)
  have hfield : ∀ g, (opFieldOffHeat f s).field g = b.field g := field_congr (congrArg State.fields hev.frame :)
  refine ⟨⟨(congrArg PlacementSt.moves (hplc p)).trans hb.moves, fun q hq => (hplc q).trans (hb.others q hq), fun g hg => (hfield g).trans (hb.fields g hg),
    (congrArg FieldSt.placement (hfield c)).trans hb.placement, (congrArg (fun x => (FieldSt.bank x _).cycles) (hfield c)).trans hb.cycles,
    hbeside.sessions.trans hb.sessions, hbeside.airspaces.trans hb.airspaces, fun hs => ?_, fun hs => ?_⟩, ?_⟩
  · obtain ⟨h1, h2, h3⟩ := hb.free hs
    exact ⟨(congrArg FieldSt.role (hfield c)).trans h1, hbeside.cores.trans h2, hbeside.answers.trans h3⟩
  · obtain ⟨h1, h2, h3⟩ := hb.tested hs
    exact ⟨(congrArg FieldSt.role (hfield c)).trans h1, (congrArg FieldSt.chosen (hfield c)).trans h2, (congrArg StartSt.testField hbeside.start).trans h3⟩
  · exact (get_congr_reg (hev.regs _ (by decide))).trans (get_mark b _ (by decide) (by decide))

end Sys2Proof.Machine
end
section
/-! SUPPORT. The steps of a thermal sample (R345-R352, R358). -/

namespace Sys2Proof.Machine
open Sys2Proof

/-! ### Entries of a table that stand in their place -/

/-- Entry `k` stands in the table behind lower keys alone, so that writing it changes nothing but its value. -/
def Settled {α : Type} : Tbl α → Nat → Prop
  | [], _ => False
  | (j, _) :: t, k => j = k ∨ (j < k ∧ Settled t k)

section
variable {α β : Type}

theorem settled_set_self (t : Tbl α) (k : Nat) (v : α) : Settled (t.set k v) k := by
  induction t with
  | nil => exact .inl rfl
  | cons e t ih =>
    obtain ⟨j, w⟩ := e
    unfold Tbl.set
    split
    · exact .inl rfl
    · split
      · exact .inl rfl
      · exact .inr ⟨by omega, ih⟩

theorem settled_set {t : Tbl α} {k : Nat} (h : Settled t k) (j : Nat) (v : α) : Settled (t.set j v) k := by
  induction t with
  | nil => exact h.elim
  | cons e t ih =>
    obtain ⟨m, w⟩ := e
    unfold Tbl.set
    split
    case isTrue hm => exact hm ▸ h
    case isFalse hm =>
      split
      case isTrue hj =>
        by_cases hk : j = k
        · exact .inl hk
        · refine .inr ⟨?_, h⟩
          obtain rfl | ⟨hlt, -⟩ := h <;> omega
      case isFalse hj =>
        obtain hk | ⟨hlt, hs⟩ := h
        · exact .inl hk
        · exact .inr ⟨hlt, ih hs⟩

theorem map_set_settled {t : Tbl α} {k : Nat} (h : Settled t k) (g : α → β) (v d : α) (hv : g v = g (t.getD k d)) :
    (t.set k v).map (fun e => (e.1, g e.2)) = t.map fun e => (e.1, g e.2) := by
  induction t with
  | nil => exact h.elim
  | cons e t ih =>
    obtain ⟨m, w⟩ := e
    unfold Tbl.set
    unfold Tbl.getD at hv
    by_cases hm : m = k
    · rw [if_pos hm] at hv
      rw [if_pos hm, List.map_cons, List.map_cons, hv, hm]
    · obtain ⟨hlt, hs⟩ := h.resolve_left hm
      rw [if_neg hm] at hv
      rw [if_neg hm, if_neg (by omega), List.map_cons, List.map_cons, ih hs hv]

theorem set_set (t : Tbl α) (k : Nat) (v w : α) : (t.set k v).set k w = t.set k w := by
  induction t with
  | nil => simp [Tbl.set]
  | cons e t ih =>
    obtain ⟨j, x⟩ := e
    by_cases hj : j = k
    · simp [Tbl.set, hj]
    · by_cases hk : k < j
      · simp [Tbl.set, hj, hk]
      · simp [Tbl.set, hj, hk, ih]

theorem has_set_iff (t : Tbl α) (k j : Nat) (v : α) : (t.set k v).has j = (decide (j = k) || t.has j) := by
  induction t with
  | nil =>
    simp only [Tbl.set, Tbl.has, List.any_cons, List.any_nil, Bool.or_false]
    exact Bool.beq_comm
  | cons e t ih =>
    obtain ⟨m, w⟩ := e
    have hkey : (k == j) = decide (j = k) := Bool.beq_comm
    simp only [Tbl.has] at ih
    simp only [Tbl.has, Tbl.set]
    split
    case isTrue hm =>
      subst hm
      rw [List.any_cons, List.any_cons, ← hkey, ← Bool.or_assoc, Bool.or_self]
    case isFalse hm =>
      split
      · rw [List.any_cons, hkey]
      · rw [List.any_cons, ih, List.any_cons, Bool.or_left_comm]

end

/-! ### Changes of gauges, fields and reports -/

/-- The marks of the samples. -/
noncomputable def flagAddr : Nat := 0x30018

/-- Between `s` and `t` registers, fields, the host interface, what left and the count of free values moved; no answer was given, no mark of the
samples was taken back, and the registers at `l` stand. -/
structure Gauged (l : List Nat) (s t : State) : Prop where
  frame : t = { s with fields := t.fields, regs := t.regs, host := t.host, out := t.out, freeUses := t.freeUses }
  answers : t.answersTo .host = s.answersTo .host
  flags : ∀ f : Fld, f.addr = flagAddr → f.lo = f.hi → f.hi < 32 → s.get f = 1 → t.get f = 1
  apart : ∀ a ∈ l, t.reg a = s.reg a

section
variable {l : List Nat}

theorem Gauged.refl (s : State) : Gauged l s s := ⟨rfl, rfl, fun _ _ _ _ => id, fun _ _ => rfl⟩

theorem Gauged.trans {s t u : State} (h : Gauged l s t) (k : Gauged l t u) : Gauged l s u := by
  refine ⟨?_, k.answers.trans h.answers, fun f ha hb hc hs => k.flags f ha hb hc (h.flags f ha hb hc hs), fun a ha => (k.apart a ha).trans (h.apart a ha)⟩
  rw [k.frame, h.frame]

theorem Gauged.put (s : State) (f : Fld) (v : Nat) (h : f.addr ∉ flagAddr :: l) : Gauged l s (s.put f v) :=
  ⟨rfl, rfl, fun g hg _ _ hs => (State.get_put_other s f g v fun e => h (hg ▸ e ▸ .head _)).trans hs,
    fun a ha => State.reg_put_other s f v a fun e => h (.tail _ (e ▸ ha))⟩

/-- A mark among those of the samples. -/
theorem Gauged.mark (s : State) (f : Fld) (hf : f.lo = f.hi) (hlt : f.hi < 32) (h : f.addr ∉ l) : Gauged l s (s.mark f) := by
  refine ⟨rfl, rfl, fun g _ hg hglt hs => ?_, fun a ha => State.reg_put_other s f 1 a fun e => h (e ▸ ha)⟩
  by_cases ha : g.addr = f.addr
  · by_cases hb : g.lo = f.lo
    · have he : g = f := by
        cases g
        cases f
        simp_all
      rw [he]
      exact get_mark s f hlt (le_of_eq hf)
    · exact (State.get_put_apart s f g 1 hglt (le_of_eq hf) (le_of_eq hg) (by omega)).trans hs
  · exact (State.get_put_other s f g 1 ha).trans hs

theorem Gauged.event (s : State) (e : Event) (h : ∀ a ∈ flagAddr :: l, a ∉ eventRegs) : Gauged l s (s.event e) := by
  have hev := event_frame s e
  refine ⟨?_, hev.answers .host, fun f hf _ _ hs => (get_congr_reg (hev.regs _ (h _ (hf ▸ .head _)))).trans hs, fun a ha => hev.regs a (h a (.tail _ ha))⟩
  rw [hev.frame]

theorem Gauged.updField (s : State) (f : Nat) (g : FieldSt → FieldSt) : Gauged l s (s.updField f g) := ⟨rfl, rfl, fun _ _ _ _ => id, fun _ _ => rfl⟩

theorem Gauged.fold {α : Type} (xs : List α) (g : State → α → State) (h : ∀ t, ∀ x ∈ xs, Gauged l t (g t x)) (s : State) : Gauged l s (xs.foldl g s) := by
  induction xs generalizing s with
  | nil => exact .refl s
  | cons x xs ih => exact (h s x (.head _)).trans (ih (fun t y hy => h t y (.tail _ hy)) (g s x))

theorem Gauged.thermal {s t : State} (h : Gauged l s t) : t.thermal = s.thermal := (congrArg State.thermal h.frame :)

end

/-- A mark and its report. -/
theorem Gauged.reported {l : List Nat} (s : State) (c : Bool) (f : Fld) (e : Event) (hf : f.lo = f.hi) (hlt : f.hi < 32) (h : f.addr ∉ l)
    (hl : ∀ a ∈ flagAddr :: l, a ∉ eventRegs) : Gauged l s (if c then (s.mark f).event e else s) := by
  split
  · exact (Gauged.mark s f hf hlt h).trans (.event _ _ hl)
  · exact .refl s

theorem flags_apart : ∀ a ∈ flagAddr :: [], a ∉ eventRegs := by decide
theorem cap_apart : ∀ a ∈ flagAddr :: [Reg.Therm.THERMAL_CAP.addr], a ∉ eventRegs := by decide

/-! ### The tray and the coolant (R345, R346, R350) -/

/-- The tray's readings taken. -/
noncomputable def ThermalSt.trayRead (t : ThermalSt) (r : ThermalReads) : ThermalSt :=
  let okI := trayOk r.inlet (-2560) 12800
  let okO := trayOk r.outlet (-2560) 12800
  let okF := trayOk r.flow 0 10000
  let i := trayCount t.inletFails t.inletGood okI
  let o := trayCount t.outletFails t.outletGood okO
  let f := trayCount t.flowFails t.flowGood okF
  { t with
    inletFails := i.1, inletGood := i.2, outletFails := o.1, outletGood := o.2, flowFails := f.1, flowGood := f.2
    trayInlet := if 3 ≤ i.1 then none else if okI then some (trayTemp r.inlet.raw) else t.trayInlet
    trayOutlet := if 3 ≤ o.1 then none else if okO then some (trayTemp r.outlet.raw) else t.trayOutlet
    trayFlow := if 3 ≤ f.1 then none else if okF then some r.flow.raw.toNat else t.trayFlow }

theorem trayLost_gauged (s : State) (was now addr : Nat) : Gauged [] s (s.trayLost was now addr) :=
  .reported s (was < 3 && now = 3) _ _ rfl (by decide) List.not_mem_nil flags_apart

theorem marked_reported (s : State) (f : Fld) (e : Event) (hf : f.lo = f.hi) (hlt : f.hi < 32) (ha : f.addr = flagAddr) : ((s.mark f).event e).get f = 1 :=
  (Gauged.event (l := []) (s.mark f) e flags_apart).flags f ha hf hlt (get_mark s f hlt (le_of_eq hf))

theorem trayLost_marked (s : State) {was now : Nat} (addr : Nat) (h : was < 3 ∧ now = 3) : (s.trayLost was now addr).get Reg.Therm.TRAY_SENSOR_LOST = 1 := by
  unfold State.trayLost
  rw [if_pos (by simp [h])]
  exact marked_reported s _ _ rfl (by decide) rfl

theorem readTray_gauged (s : State) (r : ThermalReads) : Gauged [] (s.updThermal fun t => t.trayRead r) (s.readTray r)
    ∧ (((s.thermal.inletFails < 3 ∧ (s.thermal.trayRead r).inletFails = 3) ∨ (s.thermal.outletFails < 3 ∧ (s.thermal.trayRead r).outletFails = 3)
      ∨ (s.thermal.flowFails < 3 ∧ (s.thermal.trayRead r).flowFails = 3)) → (s.readTray r).get Reg.Therm.TRAY_SENSOR_LOST = 1) := by
  have heq : s.readTray r = (((s.updThermal fun t => t.trayRead r).trayLost s.thermal.inletFails (s.thermal.trayRead r).inletFails 0x48).trayLost
    s.thermal.outletFails (s.thermal.trayRead r).outletFails 0x49).trayLost s.thermal.flowFails (s.thermal.trayRead r).flowFails 0x4C := rfl
  rw [heq]
  generalize (s.updThermal fun t => t.trayRead r) = u
  have h1 := trayLost_gauged u s.thermal.inletFails (s.thermal.trayRead r).inletFails 0x48
  generalize hv : u.trayLost s.thermal.inletFails (s.thermal.trayRead r).inletFails 0x48 = v at h1
  have h2 := trayLost_gauged v s.thermal.outletFails (s.thermal.trayRead r).outletFails 0x49
  generalize hw : v.trayLost s.thermal.outletFails (s.thermal.trayRead r).outletFails 0x49 = w at h2
  have h3 := trayLost_gauged w s.thermal.flowFails (s.thermal.trayRead r).flowFails 0x4C
  refine ⟨(h1.trans h2).trans h3, fun h => ?_⟩
  obtain h | h | h := h
  · exact (h2.trans h3).flags _ rfl rfl (by decide) (hv ▸ trayLost_marked u 0x48 h)
  · exact h3.flags _ rfl rfl (by decide) (hw ▸ trayLost_marked v 0x49 h)
  · exact trayLost_marked w 0x4C h

/-- The flow that a sample takes: 20 L/min for a lost sensor. -/
noncomputable def ThermalSt.flowTaken (t : ThermalSt) : Nat := if 3 ≤ t.flowFails then 2000 else t.trayFlow.getD t.flow

/-- Inlet and flow taken. -/
noncomputable def ThermalSt.cooled (t : ThermalSt) : ThermalSt := { t with
  tIn := t.inletTemp, flow := t.flowTaken, flowOkMs := if 2000 ≤ t.flowTaken then t.flowOkMs + 100 else 0
  inletSlope := (t.inletSlope ++ [t.inletTemp]).drop (t.inletSlope.length + 1 - 101) }

theorem coolant_gauged (s : State) : Gauged [] (s.updThermal ThermalSt.cooled) s.coolant
    ∧ (480 < s.thermal.inletTemp → s.thermal.tIn ≤ 480 → s.coolant.get Reg.Therm.INLET_HOT = 1)
    ∧ (s.thermal.flowTaken < 2000 → 2000 ≤ s.thermal.flow → s.coolant.get Reg.Therm.FLOW_LOW = 1) := by
  have heq : s.coolant = (let u := ((((s.updThermal ThermalSt.cooled).put Reg.Therm.INLET (int16 s.thermal.inletTemp)).put Reg.Therm.OUTLET
      (lostOr s.thermal.trayOutlet)).put Reg.Therm.FLOW s.thermal.flowTaken)
    let v := if 480 < s.thermal.inletTemp && s.thermal.tIn ≤ 480 then
      (u.mark Reg.Therm.INLET_HOT).event { code := 0x0211, detail := le2 42 (int16 s.thermal.inletTemp) } else u
    if s.thermal.flowTaken < 2000 && 2000 ≤ s.thermal.flow then (v.mark Reg.Therm.FLOW_LOW).event { code := 0x0212, detail := le2 42 s.thermal.flowTaken } else v) := rfl
  rw [heq]
  have hu : Gauged [] (s.updThermal ThermalSt.cooled) ((((s.updThermal ThermalSt.cooled).put Reg.Therm.INLET (int16 s.thermal.inletTemp)).put Reg.Therm.OUTLET
      (lostOr s.thermal.trayOutlet)).put Reg.Therm.FLOW s.thermal.flowTaken) :=
    ((Gauged.put _ _ _ (by decide)).trans (.put _ _ _ (by decide))).trans (.put _ _ _ (by decide))
  generalize (((s.updThermal ThermalSt.cooled).put Reg.Therm.INLET (int16 s.thermal.inletTemp)).put Reg.Therm.OUTLET
      (lostOr s.thermal.trayOutlet)).put Reg.Therm.FLOW s.thermal.flowTaken = u at hu
  dsimp only
  have hv := Gauged.reported (l := []) u (480 < s.thermal.inletTemp && s.thermal.tIn ≤ 480) Reg.Therm.INLET_HOT
    { code := 0x0211, detail := le2 42 (int16 s.thermal.inletTemp) } rfl (by decide) List.not_mem_nil flags_apart
  generalize hve : (if (480 < s.thermal.inletTemp && s.thermal.tIn ≤ 480) = true then
      (u.mark Reg.Therm.INLET_HOT).event { code := 0x0211, detail := le2 42 (int16 s.thermal.inletTemp) } else u) = v at hv
  have hw := Gauged.reported (l := []) v (s.thermal.flowTaken < 2000 && 2000 ≤ s.thermal.flow) Reg.Therm.FLOW_LOW
    { code := 0x0212, detail := le2 42 s.thermal.flowTaken } rfl (by decide) List.not_mem_nil flags_apart
  refine ⟨(hu.trans hv).trans hw, fun h1 h2 => hw.flags _ rfl rfl (by decide) ?_, fun h1 h2 => ?_⟩
  · rw [← hve, if_pos (by simp [h1, h2])]
    exact marked_reported u _ _ rfl (by decide) rfl
  · rw [if_pos (by simp [h1, h2])]
    exact marked_reported v _ _ rfl (by decide) rfl

/-! ### The pairs of a field (R347) -/

/-- One pair of a field sampled: its state, the control readings so far, and what the limit is lowered by so far. -/
noncomputable def spotStep (acc : Tbl Spot × List Int × Int) (h : HotSpotRead) : Tbl Spot × List Int × Int :=
  let y := (acc.1.getD h.spot {}).sample h.a h.b
  (acc.1.set h.spot y.1, acc.2.1 ++ y.2.1.toList, max acc.2.2 y.2.2)

/-- The control reading of a field: the highest of its pairs'. -/
noncomputable def highest (l : List Int) : Option Int :=
  match l with
  | [] => none
  | v :: vs => some (vs.foldl max v)

/-- A field after a sample of the pairs `mine`, the limit in force being `base`. -/
noncomputable def FieldSt.spotted (x : FieldSt) (mine : List HotSpotRead) (base : Int) : FieldSt :=
  let acc := mine.foldl spotStep (x.spots, [], 0)
  { x with spots := acc.1, control := highest acc.2.1, limit := base - acc.2.2, atLimit := acc.1.any fun e => e.2.lost }

/-- A field that is not powered. -/
noncomputable def FieldSt.unread (x : FieldSt) : FieldSt := { x with control := none, atLimit := false }

/-- A pair's sample: its field's state, registers and reports. -/
noncomputable def State.readSpot (f p : Nat) (acc : State × List Int × Int) (h : HotSpotRead) : State × List Int × Int :=
  let (s, ctl, low) := acc
  let old := (s.field f).spots.getD h.spot {}
  let (new, c, d) := old.sample h.a h.b
  let s := s.updField f fun x => { x with spots := x.spots.set h.spot new }
  let s := (s.put (Reg.FTherm.SENSOR_A f h.spot) (lostOr h.a)).put (Reg.FTherm.SENSOR_B f h.spot) (lostOr h.b)
  let s := if new.suspect && !old.suspect then
      (s.mark Reg.Therm.SENSOR_SUSPECT).event { code := 0x0216, field := f, placement := p, detail := [(40, h.spot)] } else s
  let s := if new.lost && !old.lost then
      (s.mark Reg.Therm.SENSOR_LOST).event { code := 0x0217, field := f, placement := p, detail := [(40, h.spot)] } else s
  (s, ctl ++ c.toList, max low d)

/-- Only field `f` moved, and it is `x` now. -/
structure FieldMade (s t : State) (f : Nat) (x : FieldSt) : Prop where
  gauged : Gauged [] s t
  made : t.field f = x
  table : ∀ y, t.fields.set f y = s.fields.set f y

theorem FieldMade.trans {s t u : State} {f : Nat} {x y : FieldSt} (h : FieldMade s t f x) (k : FieldMade t u f y) : FieldMade s u f y :=
  ⟨h.gauged.trans k.gauged, k.made, fun z => (k.table z).trans (h.table z)⟩

theorem FieldMade.updField (s : State) (f : Nat) (g : FieldSt → FieldSt) : FieldMade s (s.updField f g) f (g (s.field f)) :=
  ⟨.updField s f g, State.field_updField s f g, fun y => set_set s.fields f _ y⟩

/-- Registers and reports leave the field. -/
theorem FieldMade.of_fields {s t : State} {f : Nat} (h : Gauged [] s t) (hf : t.fields = s.fields) : FieldMade s t f (s.field f) :=
  ⟨h, field_congr hf f, fun y => by rw [hf]⟩

/-- A field made stands while registers and reports move. -/
theorem FieldMade.also {s t u : State} {f : Nat} {x : FieldSt} (h : FieldMade s t f x) (k : Gauged [] t u) (hf : u.fields = t.fields) : FieldMade s u f x :=
  ⟨h.gauged.trans k, (field_congr hf f).trans h.made, fun y => by rw [hf, h.table]⟩

theorem fields_reported (s : State) (c : Bool) (f : Fld) (e : Event) : (if c then (s.mark f).event e else s).fields = s.fields := by
  split
  · exact (congrArg State.fields (event_frame _ e).frame :)
  · rfl

theorem sensor_apart (f h : Nat) : (Reg.FTherm.SENSOR_A f h).addr ∉ [flagAddr] ∧ (Reg.FTherm.SENSOR_B f h).addr ∉ [flagAddr] := by
  have ha : (Reg.FTherm.SENSOR_A f h).addr = 0x10B000 + 0x10000 * f + 0x4 * h := rfl
  have hb : (Reg.FTherm.SENSOR_B f h).addr = 0x10B000 + 0x10000 * f + 0x4 * h := rfl
  rw [ha, hb, List.mem_singleton, flagAddr]
  omega

/-- A register of a field's thermal block is none of the samples' own. -/
theorem fieldRegister_apart {r : Fld} {l : List Nat} (h : 0x100000 ≤ r.addr) (hl : ∀ a ∈ l, a < 0x100000) : r.addr ∉ l := fun hm => by
  have := hl _ hm
  omega

theorem fieldBlock_high (f : Nat) {a : Nat} (h : 0x100000 ≤ a := by decide) : 0x100000 ≤ a + 0x10000 * f := by omega

theorem readSpot_made (s : State) (f p : Nat) (ctl : List Int) (low : Int) (h : HotSpotRead) : ∃ t,
    State.readSpot f p (s, ctl, low) h = (t, (spotStep ((s.field f).spots, ctl, low) h).2)
    ∧ FieldMade s t f { s.field f with spots := (spotStep ((s.field f).spots, ctl, low) h).1 } := by
  unfold State.readSpot spotStep
  dsimp only
  generalize ((s.field f).spots.getD h.spot {}).sample h.a h.b = y
  refine ⟨_, rfl, ?_⟩
  have hmade := FieldMade.updField s f fun x => { x with spots := x.spots.set h.spot y.1 }
  generalize s.updField f (fun x => { x with spots := x.spots.set h.spot y.1 }) = u at hmade
  have hput : FieldMade u ((u.put (Reg.FTherm.SENSOR_A f h.spot) (lostOr h.a)).put (Reg.FTherm.SENSOR_B f h.spot) (lostOr h.b)) f (u.field f) :=
    .of_fields ((Gauged.put _ _ _ (sensor_apart f h.spot).1).trans (.put _ _ _ (sensor_apart f h.spot).2)) rfl
  generalize (u.put (Reg.FTherm.SENSOR_A f h.spot) (lostOr h.a)).put (Reg.FTherm.SENSOR_B f h.spot) (lostOr h.b) = v at hput
  have hsus := FieldMade.of_fields (f := f) (Gauged.reported (l := []) v (y.1.suspect && !((s.field f).spots.getD h.spot {}).suspect) Reg.Therm.SENSOR_SUSPECT
    { code := 0x0216, field := f, placement := p, detail := [(40, h.spot)] } rfl (by decide) List.not_mem_nil flags_apart) (fields_reported _ _ _ _)
  generalize (if (y.1.suspect && !((s.field f).spots.getD h.spot {}).suspect) = true then (v.mark Reg.Therm.SENSOR_SUSPECT).event
    { code := 0x0216, field := f, placement := p, detail := [(40, h.spot)] } else v) = w at hsus
  have hlost := FieldMade.of_fields (f := f) (Gauged.reported (l := []) w (y.1.lost && !((s.field f).spots.getD h.spot {}).lost) Reg.Therm.SENSOR_LOST
    { code := 0x0217, field := f, placement := p, detail := [(40, h.spot)] } rfl (by decide) List.not_mem_nil flags_apart) (fields_reported _ _ _ _)
  have hall := ((hmade.trans hput).trans hsus).trans hlost
  rw [hsus.made, hput.made, hmade.made] at hall
  exact hall

theorem readSpots_made (f p : Nat) (mine : List HotSpotRead) (s : State) (ctl : List Int) (low : Int) : ∃ t,
    mine.foldl (State.readSpot f p) (s, ctl, low) = (t, (mine.foldl spotStep ((s.field f).spots, ctl, low)).2)
    ∧ FieldMade s t f { s.field f with spots := (mine.foldl spotStep ((s.field f).spots, ctl, low)).1 } := by
  induction mine generalizing s ctl low with
  | nil => exact ⟨s, rfl, .of_fields (.refl s) rfl⟩
  | cons h mine ih =>
    obtain ⟨t, heq, ht⟩ := readSpot_made s f p ctl low h
    obtain ⟨u, hequ, hu⟩ := ih t (spotStep ((s.field f).spots, ctl, low) h).2.1 (spotStep ((s.field f).spots, ctl, low) h).2.2
    rw [ht.made] at hequ hu
    exact ⟨u, by rw [List.foldl_cons, heq]; exact hequ, ht.trans hu⟩

/-- The pairs of field `f` among the readings. -/
noncomputable def readsOf (r : ThermalReads) (f : Nat) : List HotSpotRead := r.spots.filter fun h => h.field = f && decide (h.spot < spotCount f)

/-- A field after a sample. -/
noncomputable def FieldSt.sampled (x : FieldSt) (r : ThermalReads) (f : Nat) (base : Int) : FieldSt :=
  if readsOf r f = [] then x.unread else x.spotted (readsOf r f) base

/-- A field that a sample reads, or that the table lists. -/
noncomputable def State.reads (s : State) (r : ThermalReads) (f : Nat) : Bool := !(readsOf r f).isEmpty || s.fields.has f

theorem readField_idle (s : State) (r : ThermalReads) (f : Nat) (h : s.reads r f = false) : s.readField r f = s := by
  obtain ⟨hm, hh⟩ := Bool.or_eq_false_iff.1 h
  unfold State.readField
  exact (if_pos (show (readsOf r f).isEmpty = true by rw [← Bool.not_eq_false', hm])).trans (if_neg (by simp [hh]))

/-- A field's pairs read: control reading, limit, SUSPECT and LOST. -/
noncomputable def State.showField (f : Nat) (base : Int) (acc : State × List Int × Int) : State :=
  let (s, ctl, low) := acc
  let x := s.field f
  let lim := base - low
  let c := highest ctl
  let anyLost := x.spots.any fun e => e.2.lost
  let bitsOf (g : Spot → Bool) : Nat := (x.spots.filter fun e => g e.2).foldl (fun m e => m + 2 ^ e.1) 0
  let s := s.updField f fun x => { x with control := c, limit := lim, atLimit := anyLost }
  let s := (s.put (Reg.FTherm.CONTROL f) (lostOr c)).put (Reg.FTherm.LIMIT f) (int16 lim)
  (s.put (Reg.FTherm.SUSPECT f) (bitsOf (·.suspect))).put (Reg.FTherm.LOST f) (bitsOf (·.lost))

theorem readField_eq (s : State) (r : ThermalReads) (f : Nat) (h : readsOf r f ≠ []) : s.readField r f = State.showField f (10 * (s.thermal.limitNow : Int))
    ((readsOf r f).foldl (State.readSpot f (placementByte (s.field f).placement)) (s, [], 0)) := by
  unfold State.readField
  exact if_neg (show ¬(readsOf r f).isEmpty = true by simpa using h)

/-- Field `f` is written with `x`; registers, reports and free values move beside. -/
structure FieldSet (l : List Nat) (s t : State) (f : Nat) (x : FieldSt) : Prop where
  gauged : Gauged l s t
  fields : t.fields = s.fields.set f x

section
variable {l : List Nat} {s t u : State} {f : Nat} {x : FieldSt}

theorem FieldSet.updField (s : State) (f : Nat) (g : FieldSt → FieldSt) : FieldSet l s (s.updField f g) f (g (s.field f)) := ⟨.updField s f g, rfl⟩

/-- A field written stands while registers and reports move. -/
theorem FieldSet.also (h : FieldSet l s t f x) (k : Gauged l t u) (hf : u.fields = t.fields) : FieldSet l s u f x := ⟨h.gauged.trans k, hf.trans h.fields⟩

theorem FieldSet.self (h : FieldSet l s t f x) : t.field f = x := by
  rw [State.field, h.fields]
  exact Tbl.getD_set_same _ _ _ _

theorem FieldSet.others (h : FieldSet l s t f x) (g : Nat) (hg : g ≠ f) : t.field g = s.field g := by
  rw [State.field, h.fields]
  exact Tbl.getD_set_other _ _ _ _ _ hg

theorem FieldSet.has (h : FieldSet l s t f x) (g : Nat) : t.fields.has g = (decide (g = f) || s.fields.has g) := by
  rw [h.fields]
  exact has_set_iff _ _ _ _

theorem FieldSet.settled (h : FieldSet l s t f x) : Settled t.fields f ∧ ∀ g, Settled s.fields g → Settled t.fields g := by
  rw [h.fields]
  exact ⟨settled_set_self _ _ _, fun g hg => settled_set hg _ _⟩

/-- A value that the field keeps stands in every entry of the table. -/
theorem FieldSet.map_eq {β : Type} (h : FieldSet l s t f x) (hs : Settled s.fields f) (g : FieldSt → β) (hg : g x = g (s.field f)) :
    t.fields.map (fun e => (e.1, g e.2)) = s.fields.map fun e => (e.1, g e.2) := by
  rw [h.fields]
  exact map_set_settled hs g x (FieldSt.atReset f) hg

end

theorem showField_set (s : State) (f : Nat) (base : Int) (ctl : List Int) (low : Int) : FieldSet [] s (State.showField f base (s, ctl, low)) f
    { s.field f with control := highest ctl, limit := base - low, atLimit := (s.field f).spots.any fun e => e.2.lost } := by
  unfold State.showField
  dsimp only
  have hput : ∀ (v : State) (r : Fld) (n : Nat), 0x100000 ≤ r.addr → Gauged [] v (v.put r n) := fun v r n hr =>
    .put v r n (fieldRegister_apart hr (by decide))
  exact (FieldSet.updField s f fun x => { x with control := highest ctl, limit := base - low, atLimit := (s.field f).spots.any fun e => e.2.lost }).also
    ((((hput _ _ _ (fieldBlock_high f)).trans (hput _ _ _ (fieldBlock_high f))).trans (hput _ _ _ (fieldBlock_high f))).trans
      (hput _ _ _ (fieldBlock_high f))) rfl

theorem readField_sampled (s : State) (r : ThermalReads) (f : Nat) (h : s.reads r f = true) :
    FieldSet [] s (s.readField r f) f ((s.field f).sampled r f (10 * (s.thermal.limitNow : Int))) := by
  unfold FieldSt.sampled
  by_cases hm : readsOf r f = []
  · rw [if_pos hm]
    have hh : s.fields.has f = true := by simpa [State.reads, hm] using h
    have heq : s.readField r f = (s.updField f FieldSt.unread).put (Reg.FTherm.CONTROL f) 0x8000 := by
      unfold State.readField
      exact (if_pos (show (readsOf r f).isEmpty = true by rw [hm]; rfl)).trans (if_pos hh)
    rw [heq]
    exact (FieldSet.updField s f FieldSt.unread).also (.put _ (Reg.FTherm.CONTROL f) 0x8000 (fieldRegister_apart (fieldBlock_high f) (by decide))) rfl
  · rw [if_neg hm, readField_eq s r f hm]
    obtain ⟨t, heq, ht⟩ := readSpots_made f (placementByte (s.field f).placement) (readsOf r f) s [] 0
    rw [heq]
    have hshow := showField_set t f (10 * (s.thermal.limitNow : Int)) ((readsOf r f).foldl spotStep ((s.field f).spots, [], 0)).2.1
      ((readsOf r f).foldl spotStep ((s.field f).spots, [], 0)).2.2
    rw [ht.made] at hshow
    exact ⟨ht.gauged.trans hshow.gauged, hshow.fields.trans (ht.table _)⟩

/-! ### The pairs' readings together (R347) -/

/-- The highest control reading. -/
theorem highest_spec (l : List Int) : (∀ v ∈ l, ∃ c, highest l = some c ∧ v ≤ c) ∧ ∀ c, highest l = some c → c ∈ l := by
  have hmax : ∀ (l : List Int) (m : Int), m ≤ l.foldl max m ∧ (∀ v ∈ l, v ≤ l.foldl max m) ∧ (l.foldl max m = m ∨ l.foldl max m ∈ l) := fun l => by
    induction l with
    | nil => exact fun m => ⟨Int.le_refl m, fun v hv => (List.not_mem_nil hv).elim, .inl rfl⟩
    | cons a l ih =>
      intro m
      obtain ⟨hle, hall, hmem⟩ := ih (max m a)
      refine ⟨Int.le_trans (Int.le_max_left m a) hle, fun v hv => ?_, ?_⟩
      · obtain rfl | hv := List.mem_cons.1 hv
        · exact Int.le_trans (Int.le_max_right m v) hle
        · exact hall v hv
      · obtain h | h := hmem
        · obtain hm | hm := max_choice m a
          · exact .inl (h.trans hm)
          · exact .inr (List.mem_cons.2 (.inl (h.trans hm)))
        · exact .inr (.tail _ h)
  cases l with
  | nil => exact ⟨fun v hv => (List.not_mem_nil hv).elim, fun c hc => nomatch hc⟩
  | cons a l =>
    obtain ⟨hle, hall, hmem⟩ := hmax l a
    refine ⟨fun v hv => ⟨_, rfl, ?_⟩, fun c hc => ?_⟩
    · obtain rfl | hv := List.mem_cons.1 hv
      · exact hle
      · exact hall v hv
    · rw [← Option.some.inj hc]
      exact List.mem_cons.2 hmem

/-- The pairs of a field, none of them read twice. -/
theorem spotSteps_spec (xs : List HotSpotRead) (hnd : (xs.map HotSpotRead.spot).Nodup) (sp : Tbl Spot) (ctl : List Int) (low : Int) :
    let got := fun h : HotSpotRead => (sp.getD h.spot {}).sample h.a h.b
    let acc := xs.foldl spotStep (sp, ctl, low)
    (∀ h ∈ xs, acc.1.getD h.spot {} = (got h).1) ∧ (∀ k, (∀ h ∈ xs, h.spot ≠ k) → acc.1.getD k {} = sp.getD k {})
    ∧ (∀ v, v ∈ acc.2.1 ↔ v ∈ ctl ∨ ∃ h ∈ xs, (got h).2.1 = some v) ∧ low ≤ acc.2.2 ∧ (∀ h ∈ xs, (got h).2.2 ≤ acc.2.2)
    ∧ (acc.2.2 = low ∨ ∃ h ∈ xs, acc.2.2 = (got h).2.2) := by
  induction xs generalizing sp ctl low with
  | nil =>
    refine ⟨fun h hh => (List.not_mem_nil hh).elim, fun _ _ => rfl, fun v => ⟨.inl, fun hv => hv.elim id fun ⟨h, hh, _⟩ => (List.not_mem_nil hh).elim⟩,
      Int.le_refl low, fun h hh => (List.not_mem_nil hh).elim, .inl rfl⟩
  | cons h xs ih =>
    obtain ⟨hnot, hnd⟩ := List.nodup_cons.1 hnd
    have hne : ∀ g ∈ xs, g.spot ≠ h.spot := fun g hg he => hnot (he ▸ List.mem_map_of_mem hg)
    intro got
    have hgot : ∀ g ∈ xs, ((sp.set h.spot (got h).1).getD g.spot {}).sample g.a g.b = got g := fun g hg => by
      rw [Tbl.getD_set_other _ _ _ _ _ (hne g hg)]
    obtain ⟨hsame, hrest, hmem, hlow, hall, hfrom⟩ := ih hnd (sp.set h.spot (got h).1) (ctl ++ (got h).2.1.toList) (max low (got h).2.2)
    refine ⟨fun g hg => ?_, fun k hk => ?_, fun v => ?_, Int.le_trans (Int.le_max_left _ _) hlow, fun g hg => ?_, ?_⟩
    · obtain rfl | hg := List.mem_cons.1 hg
      · exact (hrest g.spot hne).trans (Tbl.getD_set_same _ _ _ _)
      · exact (hsame g hg).trans (congrArg Prod.fst (hgot g hg))
    · exact (hrest k fun g hg => hk g (.tail _ hg)).trans (Tbl.getD_set_other _ _ _ _ _ fun e => hk h (.head _) e.symm)
    · refine (hmem v).trans ⟨fun hv => ?_, fun hv => ?_⟩
      · obtain hv | ⟨g, hg, hv⟩ := hv
        · obtain hv | hv := List.mem_append.1 hv
          · exact .inl hv
          · exact .inr ⟨h, .head _, Option.mem_toList.1 hv⟩
        · exact .inr ⟨g, .tail _ hg, (congrArg (fun y => y.2.1) (hgot g hg)).symm.trans hv⟩
      · obtain hv | ⟨g, hg, hv⟩ := hv
        · exact .inl (List.mem_append_left _ hv)
        · obtain rfl | hg := List.mem_cons.1 hg
          · exact .inl (List.mem_append_right _ (Option.mem_toList.2 hv))
          · exact .inr ⟨g, hg, (congrArg (fun y => y.2.1) (hgot g hg)).trans hv⟩
    · obtain rfl | hg := List.mem_cons.1 hg
      · exact Int.le_trans (Int.le_max_right _ _) hlow
      · exact (congrArg (fun y => y.2.2) (hgot g hg)).symm ▸ hall g hg
    · obtain hf | ⟨g, hg, hf⟩ := hfrom
      · obtain hm | hm := max_choice low (got h).2.2
        · exact .inl (hf.trans hm)
        · exact .inr ⟨h, .head _, hf.trans hm⟩
      · exact .inr ⟨g, .tail _ hg, hf.trans (congrArg (fun y => y.2.2) (hgot g hg))⟩

/-! ### All fields read -/

/-- Every listed field of `l` stands in its place in the table. -/
def State.Placed (s : State) (l : List Nat) : Prop := ∀ f ∈ l, s.fields.has f = true → Settled s.fields f

theorem FieldSet.placed {l k : List Nat} {s t : State} {f : Nat} {x : FieldSt} (h : FieldSet l s t f x) (hp : s.Placed k) : t.Placed (f :: k) := by
  intro g hg hh
  obtain ⟨hself, hothers⟩ := h.settled
  by_cases he : g = f
  · exact he ▸ hself
  · rw [h.has g, decide_eq_false he, Bool.false_or] at hh
    exact hothers g (hp g ((List.mem_cons.1 hg).resolve_left he) hh)

/-- What a sample makes of the fields of `l`. -/
structure FieldsRead (s t : State) (r : ThermalReads) (l : List Nat) : Prop where
  gauged : Gauged [] s t
  read : ∀ f ∈ l, t.field f = if s.reads r f then (s.field f).sampled r f (10 * (s.thermal.limitNow : Int)) else s.field f
  others : ∀ f, f ∉ l → t.field f = s.field f

theorem readFields (r : ThermalReads) (l k : List Nat) (hl : l.Nodup) (hd : ∀ f ∈ l, f ∉ k) (s : State) (hp : s.Placed k) :
    FieldsRead s (s.forAll l fun s f => s.readField r f) r l ∧ (s.forAll l fun s f => s.readField r f).Placed (l ++ k) := by
  induction l generalizing s k with
  | nil => exact ⟨⟨.refl s, fun f hf => (List.not_mem_nil hf).elim, fun _ _ => rfl⟩, hp⟩
  | cons f l ih =>
    obtain ⟨hnot, hl⟩ := List.nodup_cons.1 hl
    have hstep : Gauged [] s (s.readField r f) ∧ (s.readField r f).Placed (f :: k)
        ∧ (s.readField r f).field f = (if s.reads r f then (s.field f).sampled r f (10 * (s.thermal.limitNow : Int)) else s.field f)
        ∧ ∀ g, g ≠ f → (s.readField r f).field g = s.field g ∧ (s.readField r f).reads r g = s.reads r g := by
      cases hr : s.reads r f with
      | false =>
        rw [readField_idle s r f hr]
        refine ⟨.refl s, fun g hg hh => ?_, rfl, fun _ _ => ⟨rfl, rfl⟩⟩
        obtain rfl | hg := List.mem_cons.1 hg
        · exact absurd (Bool.or_eq_false_iff.1 hr).2 (by simp [hh])
        · exact hp g hg hh
      | true =>
        have hset := readField_sampled s r f hr
        refine ⟨hset.gauged, hset.placed hp, hset.self, fun g hg => ⟨hset.others g hg, ?_⟩⟩
        rw [State.reads, State.reads, hset.has g, decide_eq_false hg, Bool.false_or]
    obtain ⟨hg, hplaced, hself, hothers⟩ := hstep
    obtain ⟨hread, hall⟩ := ih (f :: k) hl (fun g hg hm => (List.mem_cons.1 hm).elim (fun e => hnot (e ▸ hg)) (hd g (.tail _ hg))) _ hplaced
    refine ⟨⟨hg.trans hread.gauged, fun g hm => ?_, fun g hm => ?_⟩, fun g hm => hall g ?_⟩
    · obtain rfl | hm := List.mem_cons.1 hm
      · exact (hread.others g hnot).trans hself
      · obtain ⟨hfield, hreads⟩ := hothers g fun e => hnot (e ▸ hm)
        exact (hread.read g hm).trans (by rw [hreads, hfield, hg.thermal])
    · obtain ⟨hne, hm⟩ := not_or.1 (mt List.mem_cons.2 hm)
      exact (hread.others g hm).trans (hothers g hne).1
    · simp only [List.mem_append, List.mem_cons] at hm ⊢
      tauto

/-! ### Powers and resistances (R348) -/

/-- A field with its power, and its resistance where that is at least 50 W. -/
noncomputable def FieldSt.powered (x : FieldSt) (tin : Int) (p : Nat) : FieldSt :=
  { x with
    power := p
    rth := match x.control with
      | some c => if 50 ≤ p then last10 x.rth (kelvin (c - tin) / (p : Int)) else x.rth
      | none => x.rth }

theorem sampleRth_set (s : State) (tin : Int) (e : Nat × Nat) : FieldSet [] s (s.sampleRth tin e) e.1 ((s.field e.1).powered tin e.2) :=
  (FieldSet.updField s e.1 fun x => x.powered tin e.2).also
    ((Gauged.put _ _ _ (fieldRegister_apart (fieldBlock_high e.1) (by decide))).trans (.put _ _ _ (fieldRegister_apart (fieldBlock_high e.1) (by decide)))) rfl

/-- A field before and after powers were taken. -/
def PowerTaken (x y : FieldSt) : Prop := ∃ p r, y = { x with power := p, rth := r }

/-- What the powers of `l` make of the fields. -/
structure PowersTaken (s t : State) (tin : Int) (l : List (Nat × Nat)) : Prop where
  gauged : Gauged [] s t
  taken : ∀ f, PowerTaken (s.field f) (t.field f)
  once : ∀ f p, f < 88 → l.filter (fun e => e.1 = f) = [(f, p)] → t.field f = (s.field f).powered tin p
  none : ∀ f, (∀ e ∈ l, e.1 ≠ f) → t.field f = s.field f
  placed : s.Placed (List.range 88) → t.Placed (List.range 88)

theorem powersTaken (tin : Int) (l : List (Nat × Nat)) (s : State) :
    PowersTaken s (l.foldl (fun s e => if e.1 < 88 then s.sampleRth tin e else s) s) tin l := by
  induction l generalizing s with
  | nil => exact ⟨.refl s, fun f => ⟨_, _, rfl⟩, fun f p _ h => (List.cons_ne_nil _ _ h.symm).elim, fun _ _ => rfl, id⟩
  | cons e l ih =>
    rw [List.foldl_cons]
    by_cases he : e.1 < 88
    · rw [if_pos he]
      have hset := sampleRth_set s tin e
      have hrest := ih (s.sampleRth tin e)
      have hstep : ∀ f, PowerTaken (s.field f) ((s.sampleRth tin e).field f) := fun f => by
        by_cases hf : f = e.1
        · subst hf
          exact hset.self ▸ ⟨_, _, rfl⟩
        · exact hset.others f hf ▸ ⟨_, _, rfl⟩
      refine ⟨hset.gauged.trans hrest.gauged, fun f => ?_, fun f p hlt hf => ?_, fun f hf => ?_, fun hp => hrest.placed fun g hg hh => ?_⟩
      · obtain ⟨p, r, hpr⟩ := hrest.taken f
        obtain ⟨p', r', hpr'⟩ := hstep f
        exact ⟨p, r, by rw [hpr, hpr']⟩
      · by_cases hef : e.1 = f
        · rw [List.filter_cons_of_pos (by simpa using hef)] at hf
          obtain ⟨he, hnil⟩ := List.cons.inj hf
          have hnone := hrest.none f fun d hd hdf => by
            have : d ∈ l.filter fun e => e.1 = f := List.mem_filter.2 ⟨hd, by simpa using hdf⟩
            rw [hnil] at this
            exact List.not_mem_nil this
          subst he
          exact hnone.trans hset.self
        · rw [List.filter_cons_of_neg (by simpa using hef)] at hf
          exact (hrest.once f p hlt hf).trans (by rw [hset.others f (Ne.symm hef)])
      · exact (hrest.none f fun d hd => hf d (.tail _ hd)).trans (hset.others f (Ne.symm (hf e (.head _))))
      · exact hset.placed hp g (.tail _ hg) hh
    · rw [if_neg he]
      have hrest := ih s
      refine ⟨hrest.gauged, hrest.taken, fun f p hlt hf => hrest.once f p hlt ?_, fun f hf => hrest.none f fun d hd => hf d (.tail _ hd), hrest.placed⟩
      rw [List.filter_cons_of_neg (by simpa using fun h : e.1 = f => he (h ▸ hlt))] at hf
      exact hf

/-! ### Fields held, and cycles (R352, R358) -/

/-- What the C_th and the demand read of a field. -/
noncomputable def FieldSt.heatView (x : FieldSt) : Role × Nat × Bool × List Rat × Int × Option Int := (x.role, x.power, x.atLimit, x.rth, x.limit, x.control)

/-- A step over the fields of `l` that makes `φ` of each and leaves what C_th and the demand read of it. -/
theorem forAll_set {k : List Nat} (l : List Nat) (hl : l.Nodup) (step : State → Nat → State) (φ : FieldSt → FieldSt) (I : State → Prop)
    (hI : ∀ u v, Gauged k u v → I u → I v) (h : ∀ u, I u → ∀ f ∈ l, FieldSet k u (step u f) f (φ (u.field f))) (hφ : ∀ x, (φ x).heatView = x.heatView)
    (s : State) (hs : I s) (hp : ∀ f ∈ l, Settled s.fields f) :
    let t := s.forAll l step
    Gauged k s t ∧ (∀ f ∈ l, t.field f = φ (s.field f)) ∧ (∀ f, f ∉ l → t.field f = s.field f) ∧ (∀ f, Settled s.fields f → Settled t.fields f)
    ∧ (∀ f, t.fields.has f = (l.contains f || s.fields.has f))
    ∧ t.fields.map (fun e => (e.1, e.2.heatView)) = s.fields.map fun e => (e.1, e.2.heatView) := by
  induction l generalizing s with
  | nil => exact ⟨.refl s, fun f hf => (List.not_mem_nil hf).elim, fun _ _ => rfl, fun _ => id, fun _ => rfl, rfl⟩
  | cons f l ih =>
    obtain ⟨hnot, hl⟩ := List.nodup_cons.1 hl
    have hset := h s hs f (.head _)
    obtain ⟨hg, hin, hout, hsettled, hhas, hmap⟩ := ih hl (fun u hu g hg => h u hu g (.tail _ hg)) (step s f) (hI _ _ hset.gauged hs)
      fun g hg => hset.settled.2 g (hp g (.tail _ hg))
    refine ⟨hset.gauged.trans hg, fun g hm => ?_, fun g hm => ?_, fun g hm => hsettled g (hset.settled.2 g hm), fun g => (hhas g).trans ?_,
      hmap.trans (hset.map_eq (hp f (.head _)) _ (hφ _))⟩
    · obtain rfl | hm := List.mem_cons.1 hm
      · exact (hout g hnot).trans hset.self
      · exact (hin g hm).trans (by rw [hset.others g fun e => hnot (e ▸ hm)])
    · obtain ⟨hne, hm⟩ := not_or.1 (mt List.mem_cons.2 hm)
      exact (hout g hm).trans (hset.others g hne)
    · rw [hset.has g, List.contains_cons, ← Bool.or_assoc, Bool.or_comm (l.contains g)]
      rfl

/-- A field held at the usable limit, or not. -/
noncomputable def FieldSt.heldAt (x : FieldSt) (atTop : Bool) : FieldSt := { x with heldRun := if x.above && atTop then x.heldRun + 1 else 0 }

/-- The step of the demand on one field. -/
noncomputable def State.holdField (atTop : Bool) (s : State) (f : Nat) : State :=
  let x := s.field f
  if x.above && atTop then
    let s := if x.heldRun = 0 then
        (s.mark Reg.Therm.THERMAL_HELD).event
          { code := 0x0214, field := f, placement := placementByte x.placement, detail := le2 42 (int16 (x.control.getD 0)) }
      else s
    s.updField f fun x => { x with heldRun := x.heldRun + 1 }
  else s.updField f fun x => { x with heldRun := 0 }

theorem holdField_set (atTop : Bool) (s : State) (f : Nat) :
    FieldSet [Reg.Therm.THERMAL_CAP.addr] s (s.holdField atTop f) f ((s.field f).heldAt atTop) := by
  unfold State.holdField FieldSt.heldAt
  dsimp only
  split
  · have hrep := Gauged.reported (l := [Reg.Therm.THERMAL_CAP.addr]) s (decide ((s.field f).heldRun = 0)) Reg.Therm.THERMAL_HELD
      { code := 0x0214, field := f, placement := placementByte (s.field f).placement, detail := le2 42 (int16 ((s.field f).control.getD 0)) }
      rfl (by decide) (by decide) cap_apart
    have hfields := fields_reported s (decide ((s.field f).heldRun = 0)) Reg.Therm.THERMAL_HELD
      { code := 0x0214, field := f, placement := placementByte (s.field f).placement, detail := le2 42 (int16 ((s.field f).control.getD 0)) }
    simp only [decide_eq_true_eq] at hrep hfields
    generalize (if (s.field f).heldRun = 0 then _ else s) = u at hrep hfields
    have hset := FieldSet.updField (l := [Reg.Therm.THERMAL_CAP.addr]) u f fun x => { x with heldRun := x.heldRun + 1 }
    rw [field_congr hfields f] at hset
    exact ⟨hrep.trans hset.gauged, hset.fields.trans (by rw [hfields])⟩
  · exact FieldSet.updField s f fun x => { x with heldRun := 0 }

theorem ageField_set (s : State) (f : Nat) : FieldSet [Reg.Therm.THERMAL_CAP.addr] s (s.ageField f) f (s.field f).wear := by
  unfold State.ageField
  dsimp only
  have hset := FieldSet.updField (l := [Reg.Therm.THERMAL_CAP.addr]) s f FieldSt.wear
  generalize s.updField f FieldSt.wear = u at hset
  have hput : ∀ (v : State) (r : Fld) (n : Nat), 0x100000 ≤ r.addr → Gauged [Reg.Therm.THERMAL_CAP.addr] v (v.put r n) := fun v r n hr =>
    .put v r n (fieldRegister_apart hr (by decide))
  have hputs := hset.also ((hput u (Reg.FTherm.LIFE f) (lifeUnits (u.field f).lifeIndex) (fieldBlock_high f)).trans (hput _ (Reg.FTherm.CYCLES f) (u.field f).cycles (fieldBlock_high f))) rfl
  generalize (u.put (Reg.FTherm.LIFE f) (lifeUnits (u.field f).lifeIndex)).put (Reg.FTherm.CYCLES f) (u.field f).cycles = v at hputs
  have hsay : ∀ (v : State) (c : Bool) (b : Fld) (e : Event), b.lo = b.hi → b.hi < 32 → b.addr ∉ [Reg.Therm.THERMAL_CAP.addr] →
      FieldSet [Reg.Therm.THERMAL_CAP.addr] s v f (s.field f).wear →
      FieldSet [Reg.Therm.THERMAL_CAP.addr] s (if c then (v.mark b).event e else v) f (s.field f).wear := fun v c b e hb hlt ha hv =>
    hv.also (.reported v c b e hb hlt ha cap_apart) (fields_reported v c b e)
  exact hsay _ _ _ _ rfl (by decide) (by decide) (hsay _ _ _ _ rfl (by decide) (by decide) hputs)

/-! ### The telemetry (R341) -/

theorem gaugeFree_gauged {l : List Nat} (s : State) (x : Fld) (h : x.addr ∉ flagAddr :: l) : Gauged l s (s.gaugeFree x) ∧ (s.gaugeFree x).fields = s.fields := by
  have hfresh : Gauged l s { s with freeUses := s.freeUses + 1 } := ⟨rfl, rfl, fun _ _ _ _ => id, fun _ _ => rfl⟩
  exact ⟨hfresh.trans (.put _ x _ h), rfl⟩

theorem forAll_gauged {l : List Nat} (xs : List Nat) (g : State → Nat → State) (h : ∀ u n, Gauged l u (g u n) ∧ (g u n).fields = u.fields) (s : State) :
    Gauged l s (s.forAll xs g) ∧ (s.forAll xs g).fields = s.fields :=
  ⟨.fold xs g (fun u n _ => (h u n).1) s, forAll_keeps State.fields xs g (fun u n => (h u n).2) s⟩

theorem Gauged.updPower {l : List Nat} {s t : State} (h : Gauged l s t) (g : PowerMgr → PowerMgr) : Gauged l (s.updPower g) (t.updPower g) := by
  obtain ⟨hframe, hanswers, hflags, hapart⟩ := h
  obtain ⟨fs, rs, hs, o, n, rfl⟩ : ∃ fs rs hs o n, t = { s with fields := fs, regs := rs, host := hs, out := o, freeUses := n } := ⟨_, _, _, _, _, hframe⟩
  exact ⟨rfl, hanswers, hflags, hapart⟩

/-- A converter's registers are none of the samples' own. -/
theorem converter_apart (n : Nat) : 0x20100 + 0x10 * n ∉ flagAddr :: [Reg.Therm.THERMAL_CAP.addr]
    ∧ 0x20104 + 0x10 * n ∉ flagAddr :: [Reg.Therm.THERMAL_CAP.addr] := by
  have hcap : Reg.Therm.THERMAL_CAP.addr = 0x3000C := rfl
  rw [hcap]
  simp only [flagAddr, List.mem_cons, List.not_mem_nil, or_false, not_or]
  omega

/-- The telemetry refreshed: what is noted of the power beside, gauges alone move. -/
theorem refresh_gauged (s : State) (pm : Nat) : ∃ v, Gauged [Reg.Therm.THERMAL_CAP.addr] (s.updPower fun p => { p with p100 := pm, auxV := v }) (s.refresh pm)
    ∧ (s.refresh pm).fields = s.fields := by
  have hgauge : ∀ (u : State) (x : Fld), x.addr ∉ flagAddr :: [Reg.Therm.THERMAL_CAP.addr] →
      Gauged [Reg.Therm.THERMAL_CAP.addr] u (u.gaugeFree x) ∧ (u.gaugeFree x).fields = u.fields := fun u x => gaugeFree_gauged u x
  have hthree : ∀ (u : State) (x y z : Fld), x.addr ∉ flagAddr :: [Reg.Therm.THERMAL_CAP.addr] → y.addr ∉ flagAddr :: [Reg.Therm.THERMAL_CAP.addr] →
      z.addr ∉ flagAddr :: [Reg.Therm.THERMAL_CAP.addr] → Gauged [Reg.Therm.THERMAL_CAP.addr] u (((u.gaugeFree x).gaugeFree y).gaugeFree z)
        ∧ (((u.gaugeFree x).gaugeFree y).gaugeFree z).fields = u.fields := fun u x y z hx hy hz =>
    ⟨((hgauge u x hx).1.trans (hgauge _ y hy).1).trans (hgauge _ z hz).1, rfl⟩
  have haux := (hgauge (s.updPower fun p => { p with p100 := pm }) Reg.Pow.AUX_V (by decide)).1.trans (hgauge _ Reg.Pow.AUX_P (by decide)).1
  unfold State.refresh
  dsimp only
  have hauxFields : (((s.updPower fun p => { p with p100 := pm }).gaugeFree Reg.Pow.AUX_V).gaugeFree Reg.Pow.AUX_P).fields = s.fields := rfl
  generalize ((s.updPower fun p => { p with p100 := pm }).gaugeFree Reg.Pow.AUX_V).gaugeFree Reg.Pow.AUX_P = u at haux hauxFields
  have hbase := haux.updPower fun p => { p with auxV := u.get Reg.Pow.AUX_V }
  have hbaseFields : (u.updPower fun p => { p with auxV := u.get Reg.Pow.AUX_V }).fields = s.fields := hauxFields
  refine ⟨u.get Reg.Pow.AUX_V, ?_⟩
  generalize (u.updPower fun p => { p with auxV := u.get Reg.Pow.AUX_V }) = v at hbase hbaseFields
  obtain ⟨h1, hf1⟩ := forAll_gauged (l := [Reg.Therm.THERMAL_CAP.addr]) v.power.segOn (fun s n => ((s.gaugeFree (Reg.Pow.IOUT n)).gaugeFree (Reg.Pow.VOUT n)).gaugeFree (Reg.Pow.TEMP n))
    (fun u n => hthree u _ _ _ (converter_apart n).1 (converter_apart n).1 (converter_apart n).2) v
  generalize v.forAll v.power.segOn (fun s n => ((s.gaugeFree (Reg.Pow.IOUT n)).gaugeFree (Reg.Pow.VOUT n)).gaugeFree (Reg.Pow.TEMP n)) = w at h1 hf1
  have hlow : ∀ a ∈ flagAddr :: [Reg.Therm.THERMAL_CAP.addr], a < 0x100000 := by decide
  obtain ⟨h2, hf2⟩ := forAll_gauged (l := [Reg.Therm.THERMAL_CAP.addr]) (w.fields.map Prod.fst) (fun s f => if (s.field f).on = 0 then s
      else ((s.gaugeFree (Reg.FPow.VLOG_I f)).gaugeFree (Reg.FPow.VMEM_I f)).gaugeFree (Reg.FPow.VLNK_I f))
    (fun u f => by
      have hg := hthree u (Reg.FPow.VLOG_I f) (Reg.FPow.VMEM_I f) (Reg.FPow.VLNK_I f) (fieldRegister_apart (fieldBlock_high f) hlow)
        (fieldRegister_apart (fieldBlock_high f) hlow) (fieldRegister_apart (fieldBlock_high f) hlow)
      split
      · exact ⟨.refl u, rfl⟩
      · exact hg) w
  generalize w.forAll (w.fields.map Prod.fst) (fun s f => if (s.field f).on = 0 then s
      else ((s.gaugeFree (Reg.FPow.VLOG_I f)).gaugeFree (Reg.FPow.VMEM_I f)).gaugeFree (Reg.FPow.VLNK_I f)) = x at h2 hf2
  obtain ⟨h3, hf3⟩ := forAll_gauged (l := [Reg.Therm.THERMAL_CAP.addr]) (x.hbm.map Prod.fst) (fun s n => if (s.stack n).st == .off then s else s.gaugeFree (Reg.Cloud.TEMP n))
    (fun u n => by
      split
      · exact ⟨.refl u, rfl⟩
      · exact hgauge u _ (fieldRegister_apart (show 0x100000 ≤ 0x740100 + 0x10 * n by omega) hlow)) x
  exact ⟨((hbase.trans h1).trans h2).trans h3, hf3.trans (hf2.trans (hf1.trans hbaseFields))⟩

/-! ### The sample together -/

theorem readTray_fields (s : State) (r : ThermalReads) : (s.readTray r).fields = s.fields := by
  have hlost : ∀ (u : State) (was now addr : Nat), (u.trayLost was now addr).fields = u.fields := fun u was now addr =>
    fields_reported u (was < 3 && now = 3) _ _
  exact (hlost _ _ _ _).trans ((hlost _ _ _ _).trans (hlost _ _ _ _))

theorem coolant_fields (s : State) : s.coolant.fields = s.fields :=
  (fields_reported _ (s.thermal.flowTaken < 2000 && 2000 ≤ s.thermal.flow) _ _).trans (fields_reported _ (480 < s.thermal.inletTemp && s.thermal.tIn ≤ 480) _ _)

/-- What a sample moves. -/
structure SampleMoved (s t : State) : Prop where
  frame : t = { s with
    thermal := t.thermal, fields := t.fields, regs := t.regs, host := t.host, out := t.out, freeUses := t.freeUses
    power := { s.power with p100 := t.power.p100, auxV := t.power.auxV, capEff := t.power.capEff }
    tick := { s.tick with thermalDemand := t.tick.thermalDemand } }
  answers : t.answersTo .host = s.answersTo .host
  flags : ∀ f : Fld, f.addr = flagAddr → f.lo = f.hi → f.hi < 32 → s.get f = 1 → t.get f = 1

theorem SampleMoved.trans {s t u : State} (h : SampleMoved s t) (k : SampleMoved t u) : SampleMoved s u := by
  refine ⟨?_, k.answers.trans h.answers, fun f ha hb hc hs => k.flags f ha hb hc (h.flags f ha hb hc hs)⟩
  rw [k.frame, h.frame]

theorem Gauged.moved {l : List Nat} {s t : State} (h : Gauged l s t) : SampleMoved s t := by
  refine ⟨?_, h.answers, h.flags⟩
  rw [h.frame]

theorem SampleMoved.updThermal (s : State) (g : ThermalSt → ThermalSt) : SampleMoved s (s.updThermal g) := ⟨rfl, rfl, fun _ _ _ _ => id⟩

/-- The module's resistance after a sample. -/
noncomputable def ThermalSt.rthTaken (t : ThermalSt) (hottest : Option Int) (pm : Nat) : List Rat :=
  match hottest with
  | some c => if 3000 ≤ pm then last10 t.rthMod (kelvin (c - t.tIn) / (pm : Int)) else t.rthMod
  | none => t.rthMod

/-- The highest control reading and the module's resistance. -/
noncomputable def State.sampleModule (s : State) (tin : Int) (pm : Nat) : State :=
  let s := s.put Reg.Therm.TJ_MAX (lostOr s.tjMax)
  let s := match s.tjMax with
    | some c => if 3000 ≤ pm then s.updThermal fun t => { t with rthMod := last10 t.rthMod (kelvin (c - tin) / (pm : Int)) } else s
    | none => s
  s.put Reg.Therm.RTH_MOD (s.thermal.rthModNow * 100000).floor.toNat

theorem sampleModule_moved (s : State) (pm : Nat) : SampleMoved s (s.sampleModule s.thermal.tIn pm)
    ∧ (s.sampleModule s.thermal.tIn pm).fields = s.fields ∧ (s.sampleModule s.thermal.tIn pm).tick = s.tick ∧ (s.sampleModule s.thermal.tIn pm).thermal = { s.thermal with rthMod := s.thermal.rthTaken s.tjMax pm } := by
  have hcase : ∀ u : State, SampleMoved u (match u.tjMax with
      | some c => if 3000 ≤ pm then u.updThermal fun t => { t with rthMod := last10 t.rthMod (kelvin (c - u.thermal.tIn) / (pm : Int)) } else u
      | none => u) ∧ (match u.tjMax with
      | some c => if 3000 ≤ pm then u.updThermal fun t => { t with rthMod := last10 t.rthMod (kelvin (c - u.thermal.tIn) / (pm : Int)) } else u
      | none => u).fields = u.fields ∧ (match u.tjMax with
      | some c => if 3000 ≤ pm then u.updThermal fun t => { t with rthMod := last10 t.rthMod (kelvin (c - u.thermal.tIn) / (pm : Int)) } else u
      | none => u).tick = u.tick ∧ (match u.tjMax with
      | some c => if 3000 ≤ pm then u.updThermal fun t => { t with rthMod := last10 t.rthMod (kelvin (c - u.thermal.tIn) / (pm : Int)) } else u
      | none => u).thermal = { u.thermal with rthMod := u.thermal.rthTaken u.tjMax pm } := fun u => by
    unfold ThermalSt.rthTaken
    cases u.tjMax with
    | none => exact ⟨(Gauged.refl (l := []) u).moved, rfl, rfl, rfl⟩
    | some c =>
      dsimp only
      split
      · exact ⟨.updThermal u _, rfl, rfl, rfl⟩
      · exact ⟨(Gauged.refl (l := []) u).moved, rfl, rfl, rfl⟩
  have hput : SampleMoved s (s.put Reg.Therm.TJ_MAX (lostOr s.tjMax)) := (Gauged.put (l := []) s Reg.Therm.TJ_MAX _ (by decide)).moved
  obtain ⟨hm, hf, htick, ht⟩ := hcase (s.put Reg.Therm.TJ_MAX (lostOr s.tjMax))
  exact ⟨(hput.trans hm).trans (Gauged.put (l := []) _ Reg.Therm.RTH_MOD _ (by decide)).moved, hf, htick, ht⟩

/-- C_th after a sample that allows `n`. -/
noncomputable def ThermalSt.cthTaken (t : ThermalSt) (n : Nat) : Nat := if n ≤ t.cth then n else min n (t.cth + 200)

theorem setCth_moved (s : State) (pm : Nat) : let c := s.thermal.cthTaken (s.capNow s.thermal.tIn pm)
    SampleMoved s (s.setCth pm) ∧ (s.setCth pm).fields = s.fields ∧ (s.setCth pm).tick = s.tick ∧ (s.setCth pm).thermal = { s.thermal with cth := c }
    ∧ (s.setCth pm).get Reg.Therm.THERMAL_CAP = c % 2 ^ (Reg.Therm.THERMAL_CAP.hi - Reg.Therm.THERMAL_CAP.lo + 1) := by
  intro c
  have heq : s.setCth pm = ((s.updThermal fun t => { t with cth := c }).put Reg.Therm.THERMAL_CAP c).recap := rfl
  rw [heq]
  generalize hu : (s.updThermal fun t => { t with cth := c }).put Reg.Therm.THERMAL_CAP c = u
  have hmoved : SampleMoved s u := hu ▸ (SampleMoved.updThermal s _).trans (Gauged.put (l := []) _ Reg.Therm.THERMAL_CAP c (by decide)).moved
  have hfields : u.fields = s.fields := hu ▸ rfl
  have htick : u.tick = s.tick := hu ▸ rfl
  have hthermal : u.thermal = { s.thermal with cth := c } := hu ▸ rfl
  have hget : u.get Reg.Therm.THERMAL_CAP = c % 2 ^ (Reg.Therm.THERMAL_CAP.hi - Reg.Therm.THERMAL_CAP.lo + 1) :=
    hu ▸ State.get_put_mod (s.updThermal fun t => { t with cth := c }) Reg.Therm.THERMAL_CAP c (by decide) (by decide)
  have hrecap : SampleMoved u u.recap := by
    have hpower : SampleMoved u (u.updPower fun p => { p with capEff := u.capOf.1 }) := ⟨rfl, rfl, fun _ _ _ _ => id⟩
    exact hpower.trans ((Gauged.put (l := []) _ Reg.Pow.CAP_EFF u.capOf.1 (by decide)).trans (.put _ Reg.Pow.CAP_SRC u.capOf.2 (by decide))).moved
  refine ⟨hmoved.trans hrecap, hfields, htick, hthermal, ?_⟩
  refine Eq.trans ?_ hget
  exact (State.get_put_other ((u.updPower fun p => { p with capEff := u.capOf.1 }).put Reg.Pow.CAP_EFF u.capOf.1) _ _ _ (by decide)).trans
    (State.get_put_other (u.updPower fun p => { p with capEff := u.capOf.1 }) _ _ _ (by decide))

/-- A field of the table lies above its limit; every one lies well below. -/
noncomputable def State.anyHot (s : State) : Bool := s.fields.any fun e => e.2.above
noncomputable def State.allCool (s : State) : Bool := s.fields.all fun e => e.2.cool

/-- The samples in a row in which every field was cool, and whether they lower the demand. -/
noncomputable def State.coolRunTaken (s : State) : Nat := if s.allCool then s.thermal.coolRun + 1 else 0

/-- The stretch demand after a sample. -/
noncomputable def State.demandTaken (s : State) : Nat :=
  min s.usable (if s.anyHot then s.tick.thermalDemand + 1 else if decide (11 ≤ s.coolRunTaken) then s.tick.thermalDemand - 1 else s.tick.thermalDemand)

theorem usable_gauged {l : List Nat} {s t : State} (h : Gauged l s t) : t.usable = s.usable := by
  rw [h.frame]
  rfl

theorem fieldIds_nodup (s : State) : s.fieldIds.Nodup := List.Nodup.filter _ List.nodup_range

theorem mem_fieldIds (s : State) (f : Nat) : f ∈ s.fieldIds ↔ f < 88 ∧ s.fields.has f = true := by
  rw [State.fieldIds, List.mem_filter, allFields, List.mem_range]

/-- What the demand makes of the fields and registers. -/
structure DemandTaken (s t : State) : Prop where
  moved : SampleMoved s t
  demand : t.tick.thermalDemand = s.demandTaken
  thermal : t.thermal = { s.thermal with coolRun := if decide (11 ≤ s.coolRunTaken) then 1 else s.coolRunTaken }
  cap : t.get Reg.Therm.THERMAL_CAP = s.get Reg.Therm.THERMAL_CAP
  held : ∀ f ∈ s.fieldIds, t.field f = (s.field f).heldAt (decide (s.usable ≤ s.demandTaken))
  others : ∀ f, f ∉ s.fieldIds → t.field f = s.field f
  settled : ∀ f, Settled s.fields f → Settled t.fields f
  ids : t.fieldIds = s.fieldIds
  has : ∀ f, t.fields.has f = s.fields.has f
  views : t.fields.map (fun e => (e.1, e.2.heatView)) = s.fields.map fun e => (e.1, e.2.heatView)

/-- The demand set, before its fields are held. -/
noncomputable def State.demandSet (s : State) : State :=
  ((s.updTick fun t => { t with thermalDemand := s.demandTaken }).put Reg.Therm.THERMAL_LEVEL s.demandTaken).updThermal
    fun x => { x with coolRun := if decide (11 ≤ s.coolRunTaken) then 1 else s.coolRunTaken }

theorem thermalDemand_eq (s : State) :
    s.thermalDemand = s.demandSet.forAll s.fieldIds fun u f => u.holdField (decide (u.usable ≤ s.demandTaken)) f := rfl

theorem fieldIds_congr {s t : State} (h : ∀ f, t.fields.has f = s.fields.has f) : t.fieldIds = s.fieldIds :=
  List.filter_congr fun f _ => h f

theorem thermalDemand_taken (s : State) (hp : s.Placed (List.range 88)) : DemandTaken s s.thermalDemand := by
  have hset : SampleMoved s s.demandSet := by
    have htick : SampleMoved s (s.updTick fun t => { t with thermalDemand := s.demandTaken }) := ⟨rfl, rfl, fun _ _ _ _ => id⟩
    exact (htick.trans (Gauged.put (l := []) _ Reg.Therm.THERMAL_LEVEL s.demandTaken (by decide)).moved).trans (.updThermal _ _)
  have hcap : s.demandSet.get Reg.Therm.THERMAL_CAP = s.get Reg.Therm.THERMAL_CAP :=
    State.get_put_other (s.updTick fun t => { t with thermalDemand := s.demandTaken }) _ _ _ (by decide)
  have hfields : s.demandSet.fields = s.fields := rfl
  have htaken : s.demandSet.tick.thermalDemand = s.demandTaken := rfl
  have hthermal : s.demandSet.thermal = { s.thermal with coolRun := if decide (11 ≤ s.coolRunTaken) then 1 else s.coolRunTaken } := rfl
  have husable : s.demandSet.usable = s.usable := rfl
  rw [thermalDemand_eq]
  generalize s.demandSet = u at hset hcap hfields htaken hthermal husable
  obtain ⟨hg, hin, hout, hsettled, hhas, hviews⟩ := forAll_set s.fieldIds (fieldIds_nodup s)
    (fun u f => u.holdField (decide (u.usable ≤ s.demandTaken)) f) (fun x => x.heldAt (decide (s.usable ≤ s.demandTaken))) (fun v => v.usable = s.usable)
    (fun v w hvw hv => (usable_gauged hvw).trans hv) (fun v hv f _ => by
      have hheld := holdField_set (decide (v.usable ≤ s.demandTaken)) v f
      rw [hv] at hheld ⊢
      exact hheld) (fun _ => rfl) u husable
    fun f hf => hfields ▸ hp f (List.mem_range.2 ((mem_fieldIds s f).1 hf).1) ((mem_fieldIds s f).1 hf).2
  generalize (u.forAll s.fieldIds fun u f => u.holdField (decide (u.usable ≤ s.demandTaken)) f) = t at hg hin hout hsettled hhas hviews
  have hhas : ∀ f, t.fields.has f = s.fields.has f := fun f => by
    rw [hhas f, hfields]
    cases hc : s.fieldIds.contains f with
    | false => exact Bool.false_or _
    | true => rw [((mem_fieldIds s f).1 (List.contains_iff_mem.1 hc)).2, Bool.or_self]
  refine ⟨hset.trans hg.moved, ?_, hg.thermal.trans hthermal, (get_congr_reg (hg.apart _ (.head _))).trans hcap,
    fun f hf => (hin f hf).trans (by rw [field_congr hfields]), fun f hf => (hout f hf).trans (field_congr hfields f),
    fun f hf => hsettled f (hfields ▸ hf), fieldIds_congr hhas, hhas, hviews.trans (by rw [hfields])⟩
  rw [hg.frame]
  exact htaken

/-- What a sample leaves: the fields read and their powers taken (`u`), then C_th, demand and wear. -/
structure Sampled (s u t : State) (r : ThermalReads) : Prop where
  moved : SampleMoved s t
  power : t.power.p100 = r.modulePower
  lost : ((s.thermal.inletFails < 3 ∧ (s.thermal.trayRead r).inletFails = 3) ∨ (s.thermal.outletFails < 3 ∧ (s.thermal.trayRead r).outletFails = 3)
      ∨ (s.thermal.flowFails < 3 ∧ (s.thermal.trayRead r).flowFails = 3)) → t.get Reg.Therm.TRAY_SENSOR_LOST = 1
  hot : 480 < (s.thermal.trayRead r).inletTemp → s.thermal.tIn ≤ 480 → t.get Reg.Therm.INLET_HOT = 1
  low : (s.thermal.trayRead r).flowTaken < 2000 → 2000 ≤ s.thermal.flow → t.get Reg.Therm.FLOW_LOW = 1
  thermal : ∃ n, t.capNow (s.thermal.trayRead r).inletTemp r.modulePower = n ∧ t.thermal = { (s.thermal.trayRead r).cooled with
      rthMod := (s.thermal.trayRead r).cooled.rthTaken t.tjMax r.modulePower, cth := s.thermal.cthTaken n
      coolRun := if decide (11 ≤ u.coolRunTaken) then 1 else u.coolRunTaken }
  cap : t.get Reg.Therm.THERMAL_CAP = t.thermal.cth % 2 ^ (Reg.Therm.THERMAL_CAP.hi - Reg.Therm.THERMAL_CAP.lo + 1)
  demand : t.tick.thermalDemand = u.demandTaken
  base : u.thermal.coolRun = s.thermal.coolRun ∧ u.usable = s.usable ∧ u.tick = s.tick
  views : t.fields.map (fun e => (e.1, e.2.heatView)) = u.fields.map fun e => (e.1, e.2.heatView)
  has : ∀ f, t.fields.has f = u.fields.has f
  read : ∀ f, f < 88 → PowerTaken (if s.reads r f then (s.field f).sampled r f (10 * (s.thermal.limitNow : Int)) else s.field f) (u.field f)
  once : ∀ f p, f < 88 → r.fieldPower.filter (fun e => e.1 = f) = [(f, p)] →
    u.field f = (if s.reads r f then (s.field f).sampled r f (10 * (s.thermal.limitNow : Int)) else s.field f).powered (s.thermal.trayRead r).inletTemp p
  aged : ∀ f, f < 88 → t.field f = if u.fields.has f then ((u.field f).heldAt (decide (u.usable ≤ u.demandTaken))).wear else u.field f

/-! ### What the views decide -/

/-- The term of C_th that a field gives. -/
noncomputable def ThermalSt.fieldTerm (t : ThermalSt) (tin : Rat) (pm : Nat) (x : FieldSt) : Option Rat :=
  let above (lim : Int) : Rat := ((lim : Rat) - tin - ((10 * t.guardNow : Nat) : Int)) / 10
  if x.role != .active || x.power < 50 then none
  else if x.atLimit then some (pm : Int)
  else if x.rthNow ≤ 0 then none
  else some (((pm : Int) : Rat) * above x.limit / (x.rthNow * ((x.power : Int) : Rat)))

theorem fieldTerm_congr (t : ThermalSt) (tin : Rat) (pm : Nat) {x y : FieldSt} (h : x.heatView = y.heatView) : t.fieldTerm tin pm x = t.fieldTerm tin pm y := by
  simp only [FieldSt.heatView, Prod.mk.injEq] at h
  obtain ⟨h1, h2, h3, h4, h5, -⟩ := h
  simp only [ThermalSt.fieldTerm, FieldSt.rthNow, h1, h2, h3, h4, h5]
  rfl

theorem capTerms_eq (s : State) (tin : Rat) (pm : Nat) : s.capTerms tin pm =
    (if s.thermal.rthModNow ≤ 0 then []
      else [((((10 * (s.thermal.limitNow : Int) : Int) : Rat) - tin - ((10 * s.thermal.guardNow : Nat) : Int)) / 10) / s.thermal.rthModNow])
    ++ s.fields.filterMap (fun e => s.thermal.fieldTerm tin pm e.2)
    ++ [if tin ≤ 400 then 21000 else if tin ≤ 480 then 21000 - 1875 * (tin - 400) / 10 else 6000,
      if 2000 ≤ s.thermal.flow then 21000 else if s.thermal.flow < 1000 then 0 else 21 * (((s.thermal.flow : Int) : Rat) - 1000)] := rfl

section
variable {s t : State} (h : t.fields.map (fun e => (e.1, e.2.heatView)) = s.fields.map fun e => (e.1, e.2.heatView))
include h

/-- What is made of the fields' views alone is the same. -/
theorem views_filterMap {β : Type} (g : FieldSt → Option β) (hg : ∀ x y, x.heatView = y.heatView → g x = g y) :
    t.fields.filterMap (fun e => g e.2) = s.fields.filterMap fun e => g e.2 := by
  generalize t.fields = a, s.fields = b at h
  induction a generalizing b with
  | nil =>
    cases b with
    | nil => rfl
    | cons d b => cases h
  | cons e a ih =>
    cases b with
    | nil => cases h
    | cons d b =>
      obtain ⟨hhead, htail⟩ := List.cons.inj h
      rw [List.filterMap_cons, List.filterMap_cons, hg e.2 d.2 (congrArg Prod.snd hhead), ih b htail]

theorem views_any (g : FieldSt → Bool) (hg : ∀ x y, x.heatView = y.heatView → g x = g y) :
    (t.fields.any fun e => g e.2) = s.fields.any fun e => g e.2 := by
  generalize t.fields = a, s.fields = b at h
  induction a generalizing b with
  | nil =>
    cases b with
    | nil => rfl
    | cons d b => cases h
  | cons e a ih =>
    cases b with
    | nil => cases h
    | cons d b =>
      obtain ⟨hhead, htail⟩ := List.cons.inj h
      rw [List.any_cons, List.any_cons, hg e.2 d.2 (congrArg Prod.snd hhead), ih b htail]

theorem tjMax_views : t.tjMax = s.tjMax := by
  unfold State.tjMax
  rw [views_filterMap h FieldSt.control fun x y hxy => congrArg (fun v => v.2.2.2.2.2) hxy]

theorem capNow_views (hth : t.thermal.limitNow = s.thermal.limitNow) (hgd : t.thermal.guardNow = s.thermal.guardNow)
    (hr : t.thermal.rthModNow = s.thermal.rthModNow) (hf : t.thermal.flow = s.thermal.flow) (tin : Rat) (pm : Nat) : t.capNow tin pm = s.capNow tin pm := by
  have hlist := views_filterMap h (s.thermal.fieldTerm tin pm) fun x y hxy => fieldTerm_congr _ _ _ hxy
  unfold State.capNow
  rw [capTerms_eq, capTerms_eq, show t.thermal.fieldTerm tin pm = s.thermal.fieldTerm tin pm from funext fun x => by simp only [ThermalSt.fieldTerm, hgd], hlist,
    hth, hgd, hr, hf]

end

/-- The powers of a sample taken. -/
noncomputable def State.takePowers (s : State) (r : ThermalReads) : State :=
  r.fieldPower.foldl (fun v e => if e.1 < 88 then v.sampleRth s.thermal.tIn e else v) s

/-- C_th and the demand, the telemetry and the life records. -/
noncomputable def State.closeSample (s : State) (tin : Int) (pm : Nat) : State :=
  let s := (((s.sampleModule tin pm).setCth pm).thermalDemand)
  let s := (s.refresh pm).forAll s.fieldIds State.ageField
  s.put Reg.Therm.LIFE (lifeUnits ((s.fields.map fun e => e.2.lifeIndex).foldl max 0))

theorem opThermal_eq (r : ThermalReads) (s : State) (h : s.start.power ≠ .off) : opThermal r s =
    (((s.readTray r).coolant.forAll allFields fun v f => v.readField r f).takePowers r).closeSample
      ((s.readTray r).coolant.forAll allFields fun v f => v.readField r f).thermal.tIn r.modulePower := by
  unfold opThermal
  rw [if_neg (by simpa using h)]
  rfl

/-- A step of the life records leaves what C_th and the demand read. -/
theorem heatView_wear (x : FieldSt) : x.wear.heatView = x.heatView := by
  unfold FieldSt.wear
  split
  · rfl
  · dsimp only
    rfl

theorem ageFields (s : State) (hp : ∀ f ∈ s.fieldIds, Settled s.fields f) : let t := s.forAll s.fieldIds State.ageField
    Gauged [Reg.Therm.THERMAL_CAP.addr] s t ∧ (∀ f ∈ s.fieldIds, t.field f = (s.field f).wear) ∧ (∀ f, f ∉ s.fieldIds → t.field f = s.field f)
    ∧ (∀ f, t.fields.has f = s.fields.has f) ∧ t.fields.map (fun e => (e.1, e.2.heatView)) = s.fields.map fun e => (e.1, e.2.heatView) := by
  obtain ⟨hg, hin, hout, -, hhas, hviews⟩ := forAll_set s.fieldIds (fieldIds_nodup s) State.ageField FieldSt.wear (fun _ => True) (fun _ _ _ _ => trivial)
    (fun v _ f _ => ageField_set v f) heatView_wear s trivial hp
  refine ⟨hg, hin, hout, fun f => (hhas f).trans ?_, hviews⟩
  cases hc : s.fieldIds.contains f with
  | false => exact Bool.false_or _
  | true => rw [((mem_fieldIds s f).1 (List.contains_iff_mem.1 hc)).2, Bool.or_self]

theorem usable_moved {s t : State} (h : SampleMoved s t) : t.usable = s.usable := by
  rw [h.frame]
  rfl

theorem opThermal_sampled (r : ThermalReads) (s : State) (h : s.start.power ≠ .off) : ∃ u, Sampled s u (opThermal r s) r := by
  rw [opThermal_eq r s h]
  -- tray and coolant
  obtain ⟨htray, hlost⟩ := readTray_gauged s r
  have htrayFields := readTray_fields s r
  generalize s.readTray r = a at htray hlost htrayFields
  have hta : a.thermal = s.thermal.trayRead r := htray.thermal
  obtain ⟨hcool, hhot, hlow⟩ := coolant_gauged a
  have hcoolFields := (coolant_fields a).trans htrayFields
  rw [hta] at hhot hlow
  generalize a.coolant = b at hcool hhot hlow hcoolFields
  have htb : b.thermal = (s.thermal.trayRead r).cooled := hcool.thermal.trans (congrArg ThermalSt.cooled hta)
  have hmb : SampleMoved s b := (((SampleMoved.updThermal s _).trans htray.moved).trans (SampleMoved.updThermal a _)).trans hcool.moved
  -- the fields' pairs and powers
  obtain ⟨hread, hplaced⟩ := readFields r allFields [] List.nodup_range (fun _ _ => List.not_mem_nil) b fun f hf => (List.not_mem_nil hf).elim
  generalize (b.forAll allFields fun v f => v.readField r f) = c at hread hplaced
  have htc : c.thermal = (s.thermal.trayRead r).cooled := hread.gauged.thermal.trans htb
  have hpower : PowersTaken c (c.takePowers r) c.thermal.tIn r.fieldPower := powersTaken c.thermal.tIn r.fieldPower c
  rw [List.append_nil] at hplaced
  generalize c.takePowers r = u at hpower
  have htu : u.thermal = (s.thermal.trayRead r).cooled := hpower.gauged.thermal.trans htc
  have hpu := hpower.placed hplaced
  have hmu : SampleMoved s u := hmb.trans (hread.gauged.trans hpower.gauged).moved
  -- the module's resistance, C_th, the demand
  rw [show c.thermal.tIn = u.thermal.tIn from congrArg ThermalSt.tIn hpower.gauged.thermal.symm]
  unfold State.closeSample
  dsimp only
  obtain ⟨hmod, hmodFields, hmodTick, hmodThermal⟩ := sampleModule_moved u r.modulePower
  generalize u.sampleModule u.thermal.tIn r.modulePower = v at hmod hmodFields hmodTick hmodThermal
  obtain ⟨hcth, hcthFields, hcthTick, hcthThermal, hcap⟩ := setCth_moved v r.modulePower
  generalize v.setCth r.modulePower = w at hcth hcthFields hcthTick hcthThermal hcap
  have hdem := thermalDemand_taken w (fun f hf hh => by
    rw [hcthFields, hmodFields] at hh ⊢
    exact hpu f hf hh)
  generalize w.thermalDemand = x at hdem
  -- telemetry and life records
  obtain ⟨aux, href, hrefFields⟩ := refresh_gauged x r.modulePower
  generalize x.refresh r.modulePower = y at href hrefFields
  have hids : x.fieldIds = y.fieldIds := fieldIds_congr fun f => by rw [hrefFields]
  have hage := ageFields y fun f hf => by
    obtain ⟨hlt, hh⟩ := (mem_fieldIds x f).1 (hids ▸ hf)
    rw [hrefFields]
    refine hdem.settled f ?_
    rw [hdem.has, hcthFields, hmodFields] at hh
    rw [hcthFields, hmodFields]
    exact hpu f (List.mem_range.2 hlt) hh
  rw [hids]
  generalize y.forAll y.fieldIds State.ageField = z at hage
  obtain ⟨hageGauged, hageIn, hageOut, hageHas, hageViews⟩ := hage
  have hput : Gauged [Reg.Therm.THERMAL_CAP.addr] z (z.put Reg.Therm.LIFE (lifeUnits ((z.fields.map fun e => e.2.lifeIndex).foldl max 0))) :=
    .put _ _ _ (by decide)
  have hputFields : (z.put Reg.Therm.LIFE (lifeUnits ((z.fields.map fun e => e.2.lifeIndex).foldl max 0))).fields = z.fields := rfl
  generalize z.put Reg.Therm.LIFE (lifeUnits ((z.fields.map fun e => e.2.lifeIndex).foldl max 0)) = t at hput hputFields
  -- from the powers to the end
  have hwu : w.fields = u.fields := hcthFields.trans hmodFields
  have hclose : Gauged [Reg.Therm.THERMAL_CAP.addr] (x.updPower fun p => { p with p100 := r.modulePower, auxV := aux }) t := (href.trans hageGauged).trans hput
  have hnoted : SampleMoved x (x.updPower fun p => { p with p100 := r.modulePower, auxV := aux }) := ⟨rfl, rfl, fun _ _ _ _ => id⟩
  have hxt : SampleMoved x t := hnoted.trans hclose.moved
  have hwt : SampleMoved w t := hdem.moved.trans hxt
  have hut : SampleMoved u t := (hmod.trans hcth).trans hwt
  have hthermalX : t.thermal = x.thermal := hclose.thermal
  have hviewsW : t.fields.map (fun e => (e.1, e.2.heatView)) = w.fields.map fun e => (e.1, e.2.heatView) := by
    rw [hputFields, hageViews, hrefFields, hdem.views]
  have husable : w.usable = u.usable := (usable_moved hcth).trans (usable_moved hmod)
  have htickW : w.tick = u.tick := hcthTick.trans hmodTick
  have hrun : w.coolRunTaken = u.coolRunTaken := by
    unfold State.coolRunTaken State.allCool
    rw [hwu, hcthThermal, hmodThermal]
  have hdemand : w.demandTaken = u.demandTaken := by
    unfold State.demandTaken State.anyHot
    rw [husable, hwu, htickW, hrun]
  have hhas : ∀ f, t.fields.has f = u.fields.has f := fun f => by rw [hputFields, hageHas, hrefFields, hdem.has, hwu]
  have hbt : SampleMoved b t := (hread.gauged.trans hpower.gauged).moved.trans hut
  have hat : SampleMoved a t := ((SampleMoved.updThermal a _).trans hcool.moved).trans hbt
  have htv : v.thermal = { (s.thermal.trayRead r).cooled with rthMod := (s.thermal.trayRead r).cooled.rthTaken u.tjMax r.modulePower } := by
    rw [hmodThermal, htu]
  have htt : t.thermal = { v.thermal with
      cth := v.thermal.cthTaken (v.capNow v.thermal.tIn r.modulePower), coolRun := if decide (11 ≤ u.coolRunTaken) then 1 else u.coolRunTaken } := by
    rw [hthermalX, hdem.thermal, hcthThermal, hrun]
  have hviewsV : t.fields.map (fun e => (e.1, e.2.heatView)) = v.fields.map fun e => (e.1, e.2.heatView) := by rw [hviewsW, hcthFields]
  have hviewsU : t.fields.map (fun e => (e.1, e.2.heatView)) = u.fields.map fun e => (e.1, e.2.heatView) := by rw [hviewsW, hwu]
  have hn : t.capNow (s.thermal.trayRead r).inletTemp r.modulePower = v.capNow v.thermal.tIn r.modulePower := by
    refine (capNow_views hviewsV ?_ ?_ ?_ ?_ _ _).trans ?_
    · rw [htt]; rfl
    · rw [htt]; rfl
    · rw [htt]; rfl
    · rw [htt]
    · rw [show v.thermal.tIn = (s.thermal.trayRead r).inletTemp from congrArg ThermalSt.tIn htv]
  have hfieldB : ∀ f, b.field f = s.field f := field_congr hcoolFields
  have hreads : ∀ f, b.reads r f = s.reads r f := fun f => by unfold State.reads; rw [hcoolFields]
  have hlimit : b.thermal.limitNow = s.thermal.limitNow := (congrArg ThermalSt.limitNow htb :)
  have hfieldC : ∀ f, f < 88 → c.field f = if s.reads r f then (s.field f).sampled r f (10 * (s.thermal.limitNow : Int)) else s.field f := fun f hf => by
    rw [hread.read f (List.mem_range.2 hf), hreads, hfieldB, hlimit]
  refine ⟨u, hmu.trans hut, (congrArg (fun p => PowerMgr.p100 p) (congrArg State.power hclose.frame :) :), fun h => hat.flags _ rfl rfl (by decide) (hlost h),
    fun h1 h2 => hbt.flags _ rfl rfl (by decide) (hhot h1 h2), fun h1 h2 => hbt.flags _ rfl rfl (by decide) (hlow h1 h2), ⟨_, rfl, ?_⟩, ?_, ?_,
    ⟨(congrArg ThermalSt.coolRun htu :), usable_moved hmu, ?_⟩, hviewsU, hhas, fun f hf => hfieldC f hf ▸ hpower.taken f, fun f p hf hone => ?_, fun f hf => ?_⟩
  · rw [htt, hn, htv, tjMax_views hviewsU]
    rfl
  · rw [get_congr_reg (hclose.apart _ (.head _)), htt]
    exact hdem.cap.trans hcap
  · rw [hclose.frame]
    exact hdem.demand.trans hdemand
  · exact (congrArg State.tick hpower.gauged.frame :).trans ((congrArg State.tick hread.gauged.frame :).trans
      ((congrArg State.tick hcool.frame :).trans (congrArg State.tick htray.frame :)))
  · rw [← hfieldC f hf, hpower.once f p hf hone, htc]
    rfl
  · have hw : w.field f = u.field f := field_congr hwu f
    have hids' : f ∈ w.fieldIds ↔ u.fields.has f = true := by
      rw [mem_fieldIds, hwu]
      exact ⟨And.right, And.intro hf⟩
    have hidsY : f ∈ y.fieldIds ↔ f ∈ w.fieldIds := by rw [← hids, hdem.ids]
    rw [field_congr hputFields f]
    by_cases hm : f ∈ w.fieldIds
    · rw [if_pos (hids'.1 hm), hageIn f (hidsY.2 hm), field_congr hrefFields f, hdem.held f hm, hw, husable, hdemand]
    · rw [if_neg (mt hids'.2 hm), hageOut f (mt hidsY.1 hm), field_congr hrefFields f, hdem.others f hm, hw]

end Sys2Proof.Machine
end
section
/-! PROOFS. Thermal samples, trips, heat moves, the outlook and life records (R48, R166, R345-R354, R357, R358). -/

namespace Sys2Proof.Machine
open Sys2Proof

/-! ### What a sample's readings say -/

/-- One read on a sensor's counts of failures and good reads. -/
theorem trayCount_spec (fails good : Nat) (ok : Bool) : let n := trayCount fails good ok
    (¬ok = true → n.1 = min 3 (fails + 1) ∧ n.2 = 0) ∧ (ok = true → fails < 3 → n.1 = 0 ∧ n.2 = min 10 (good + 1))
    ∧ (ok = true → 3 ≤ fails → 9 ≤ good → n.1 = 0 ∧ n.2 = 10) ∧ (ok = true → 3 ≤ fails → good < 9 → n.1 = fails ∧ n.2 = good + 1) := by
  unfold trayCount
  cases ok with
  | false => exact ⟨fun _ => ⟨rfl, rfl⟩, (nomatch ·), (nomatch ·), (nomatch ·)⟩
  | true =>
    refine ⟨fun h => absurd rfl h, fun _ hf => ?_, fun _ hf hg => ?_, fun _ hf hg => ?_⟩
    · simp [hf]
    · simp [Nat.not_lt.2 hf, hg]
    · simp [Nat.not_lt.2 hf, Nat.not_le.2 hg]

theorem trayOk_iff (z : TrayRead) (lo hi : Int) : trayOk z lo hi = true ↔ z.answered = true ∧ z.valid = true ∧ lo ≤ z.raw ∧ z.raw ≤ hi := by
  simp [trayOk, and_assoc]

/-- The value that a sensor shows after a read. -/
theorem trayValue_spec {α : Type} (fails : Nat) (ok : Bool) (old : Option α) (v : α) :
    let now := if 3 ≤ fails then none else if ok then some v else old
    (3 ≤ fails → now = none) ∧ (fails < 3 → ok = true → now = some v) ∧ (fails < 3 → ¬ok = true → now = old) :=
  ⟨fun h => if_pos h, fun h ho => by rw [if_neg (by omega), if_pos ho], fun h ho => by rw [if_neg (by omega), if_neg ho]⟩

/-- A sensor's counts after a read, by what makes the read good. -/
theorem trayCount_read (z : TrayRead) (lo hi : Int) (fails good : Nat) : let ok := z.answered = true ∧ z.valid = true ∧ lo ≤ z.raw ∧ z.raw ≤ hi
    let n := trayCount fails good (trayOk z lo hi)
    (¬ok → n.1 = min 3 (fails + 1) ∧ n.2 = 0) ∧ (ok → fails < 3 → n.1 = 0 ∧ n.2 = min 10 (good + 1))
    ∧ (ok → 3 ≤ fails → 9 ≤ good → n.1 = 0 ∧ n.2 = 10) ∧ (ok → 3 ≤ fails → good < 9 → n.1 = fails ∧ n.2 = good + 1) := by
  simp only [← trayOk_iff]
  exact trayCount_spec fails good _

theorem trayValue_read {α : Type} (z : TrayRead) (lo hi : Int) (fails : Nat) (old : Option α) (v : α) :
    let ok := z.answered = true ∧ z.valid = true ∧ lo ≤ z.raw ∧ z.raw ≤ hi
    let now := if 3 ≤ fails then none else if trayOk z lo hi then some v else old
    (3 ≤ fails → now = none) ∧ (fails < 3 → ok → now = some v) ∧ (fails < 3 → ¬ok → now = old) := by
  simp only [← trayOk_iff]
  exact trayValue_spec fails _ old v

/-- The inlet temperature: the highest reading that is not lost, 52 C with none. -/
theorem inletTemp_spec (t : ThermalSt) : let l := t.trayInlet.toList ++ t.couplingA.toList ++ t.couplingB.toList
    (l = [] → t.inletTemp = 520) ∧ (l ≠ [] → t.inletTemp ∈ l ∧ ∀ v ∈ l, v ≤ t.inletTemp) := by
  unfold ThermalSt.inletTemp
  dsimp only
  generalize t.trayInlet.toList ++ t.couplingA.toList ++ t.couplingB.toList = l
  cases l with
  | nil => exact ⟨fun _ => rfl, fun h => absurd rfl h⟩
  | cons x xs =>
    obtain ⟨hall, hmem⟩ := highest_spec (x :: xs)
    refine ⟨fun h => (List.cons_ne_nil _ _ h).elim, fun _ => ⟨hmem _ rfl, fun v hv => ?_⟩⟩
    obtain ⟨c, hc, hle⟩ := hall v hv
    rw [← Option.some.inj hc] at hle
    exact hle

/-! ### What a sample leaves of a field -/

theorem wear_eq (x : FieldSt) : x.wear = { x with residue := x.wear.residue, lifeIndex := x.wear.lifeIndex, cycles := x.wear.cycles } := by
  unfold FieldSt.wear
  split <;> rfl

/-- Two fields with the same life records. -/
structure SameLife (x y : FieldSt) : Prop where
  residue : x.residue = y.residue
  index : x.lifeIndex = y.lifeIndex
  cycles : x.cycles = y.cycles

/-- A step of the life records rests on the control reading, the residue, the index and the count. -/
theorem wear_congr {x y : FieldSt} (hc : x.control = y.control) (h : SameLife x y) : SameLife x.wear y.wear := by
  unfold FieldSt.wear
  rw [hc, h.residue, h.index, h.cycles]
  cases y.control with
  | none => exact h
  | some t => exact ⟨rfl, rfl, rfl⟩

/-- A field whose held samples, life records and resistances stand. -/
structure LifeKept (x y : FieldSt) : Prop where
  held : y.heldRun = x.heldRun
  life : SameLife y x
  rth : y.rth = x.rth

/-- What a sample's reading of the pairs leaves. -/
theorem sampled_keeps (x : FieldSt) (r : ThermalReads) (f : Nat) (base : Int) : LifeKept x (x.sampled r f base) := by
  unfold FieldSt.sampled
  split <;> exact ⟨rfl, ⟨rfl, rfl, rfl⟩, rfl⟩

/-- The field once its pairs are read. -/
noncomputable def State.pairsRead (s : State) (r : ThermalReads) (f : Nat) : FieldSt :=
  if s.reads r f then (s.field f).sampled r f (10 * (s.thermal.limitNow : Int)) else s.field f

theorem pairsRead_keeps (s : State) (r : ThermalReads) (f : Nat) : LifeKept (s.field f) (s.pairsRead r f) := by
  unfold State.pairsRead
  split
  · exact sampled_keeps _ _ _ _
  · exact ⟨rfl, ⟨rfl, rfl, rfl⟩, rfl⟩

/-- A field `x` with the readings and the limit of `y`, and the power and the resistances of `z`. -/
structure Reads (x y z : FieldSt) : Prop where
  control : x.control = y.control
  atLimit : x.atLimit = y.atLimit
  limit : x.limit = y.limit
  spots : x.spots = y.spots
  power : x.power = z.power
  rth : x.rth = z.rth

section
variable {s u t : State} {r : ThermalReads} (h : Sampled s u t r) {f : Nat} (hf : f < 88)
include h hf

/-- From the pairs' reading on, a field's readings and limit stand. -/
theorem sampled_readings : Reads (t.field f) (s.pairsRead r f) (u.field f) := by
  obtain ⟨p, q, hpq⟩ := h.read f hf
  have hu : u.field f = { s.pairsRead r f with power := p, rth := q } := hpq
  rw [h.aged f hf, hu]
  split
  · rw [wear_eq]
    exact ⟨rfl, rfl, rfl, rfl, rfl, rfl⟩
  · exact ⟨rfl, rfl, rfl, rfl, rfl, rfl⟩

/-- A field with a power. -/
theorem sampled_power (P : Nat) (hone : r.fieldPower.filter (fun e => e.1 = f) = [(f, P)]) : let x := t.field f
    x.power = P ∧ x.rth = (match x.control with
      | some c => if 50 ≤ P then last10 (s.field f).rth (kelvin (c - (s.thermal.trayRead r).inletTemp) / (P : Int)) else (s.field f).rth
      | none => (s.field f).rth) := by
  have hx := sampled_readings h hf
  have hu : u.field f = (s.pairsRead r f).powered (s.thermal.trayRead r).inletTemp P := h.once f P hf hone
  have hp : (t.field f).power = P := hx.power.trans (by rw [hu]; rfl)
  refine ⟨hp, ?_⟩
  rw [hx.rth, hu, hx.control, ← (pairsRead_keeps s r f).rth]
  rfl

/-- A listed field's held samples and life records. -/
theorem sampled_life (hh : t.fields.has f = true) : let x := t.field f
    let w := { s.field f with control := x.control }.wear
    x.heldRun = (if x.above && decide (u.usable ≤ u.demandTaken) then (s.field f).heldRun + 1 else 0)
    ∧ x.residue = w.residue ∧ x.lifeIndex = w.lifeIndex ∧ x.cycles = w.cycles := by
  have hr := sampled_readings h hf
  obtain ⟨p, q, hpq⟩ := h.read f hf
  have hu : u.field f = { s.pairsRead r f with power := p, rth := q } := hpq
  have hkept := pairsRead_keeps s r f
  have hx : t.field f = ((u.field f).heldAt (decide (u.usable ≤ u.demandTaken))).wear := by
    have := h.aged f hf
    rwa [if_pos ((h.has f).symm.trans hh)] at this
  have hlife := wear_congr (x := (u.field f).heldAt (decide (u.usable ≤ u.demandTaken))) (y := { s.field f with control := (t.field f).control })
    (by rw [hu]; exact hr.control.symm) (by rw [hu]; exact ⟨hkept.life.residue, hkept.life.index, hkept.life.cycles⟩)
  rw [← hx] at hlife
  refine ⟨?_, hlife.residue, hlife.index, hlife.cycles⟩
  have habove : (t.field f).above = (s.pairsRead r f).above := by
    unfold FieldSt.above
    rw [hr.control, hr.limit]
  rw [habove, ← hkept.held, hx, wear_eq, hu]
  rfl

end

theorem sampled_unread {s u t : State} {r : ThermalReads} (h : Sampled s u t r) {f : Nat} (hf : f < 88) (hm : readsOf r f = []) (hh : s.fields.has f = true) :
    (t.field f).control = none ∧ (t.field f).atLimit = false ∧ (t.field f).spots = (s.field f).spots ∧ (t.field f).limit = (s.field f).limit := by
  obtain ⟨hcontrol, hat, hlimit, hspots, -, -⟩ := sampled_readings h hf
  have hp : s.pairsRead r f = (s.field f).unread := by
    unfold State.pairsRead FieldSt.sampled
    rw [if_pos (by simp [State.reads, hm, hh]), if_pos hm]
  rw [hp] at hcontrol hat hlimit hspots
  exact ⟨hcontrol, hat, hspots, hlimit⟩

theorem sampled_pairs {s u t : State} {r : ThermalReads} (h : Sampled s u t r) {f : Nat} (hf : f < 88) (hm : readsOf r f ≠ [])
    (hnd : ((readsOf r f).map HotSpotRead.spot).Nodup) : let x := t.field f
    let got (g : HotSpotRead) := ((s.field f).spots.getD g.spot {}).sample g.a g.b
    let base : Int := 10 * (s.thermal.limitNow : Int)
    (∀ g ∈ readsOf r f, x.spots.getD g.spot {} = (got g).1)
    ∧ (∀ k, (∀ g ∈ readsOf r f, g.spot ≠ k) → x.spots.getD k {} = (s.field f).spots.getD k {})
    ∧ (∀ g ∈ readsOf r f, ∀ v, (got g).2.1 = some v → ∃ c, x.control = some c ∧ v ≤ c)
    ∧ (∀ c, x.control = some c → ∃ g ∈ readsOf r f, (got g).2.1 = some c)
    ∧ (∀ g ∈ readsOf r f, x.limit ≤ base - (got g).2.2) ∧ (x.limit = base ∨ ∃ g ∈ readsOf r f, x.limit = base - (got g).2.2)
    ∧ (x.atLimit = true ↔ ∃ e ∈ x.spots, e.2.lost = true) := by
  obtain ⟨hcontrol, hat, hlimit, hspots, -, -⟩ := sampled_readings h hf
  obtain ⟨hsame, hrest, hmem, -, hall, hfrom⟩ := spotSteps_spec (readsOf r f) hnd (s.field f).spots [] 0
  have hp : s.pairsRead r f = (s.field f).spotted (readsOf r f) (10 * (s.thermal.limitNow : Int)) := by
    unfold State.pairsRead FieldSt.sampled
    rw [if_pos (by simp [State.reads, hm]), if_neg hm]
  rw [hp] at hcontrol hat hlimit hspots
  unfold FieldSt.spotted at hcontrol hat hlimit hspots
  generalize (readsOf r f).foldl spotStep ((s.field f).spots, [], 0) = acc at *
  obtain ⟨hup, hin⟩ := highest_spec acc.2.1
  dsimp only at hcontrol hat hlimit hspots
  intro x got base
  have hlimit : x.limit = base - acc.2.2 := hlimit
  refine ⟨fun g hg => (congrArg (fun l => Tbl.getD l g.spot {}) hspots).trans (hsame g hg), fun k hk => (congrArg (fun l => Tbl.getD l k {}) hspots).trans (hrest k hk),
    fun g hg v hv => ?_, fun c hc => ?_, fun g hg => ?_, ?_, ?_⟩
  · obtain ⟨c, hc, hle⟩ := hup v ((hmem v).2 (.inr ⟨g, hg, hv⟩))
    exact ⟨c, hcontrol.trans hc, hle⟩
  · exact ((hmem c).1 (hin c (hcontrol.symm.trans hc))).resolve_left List.not_mem_nil
  · have := hall g hg
    rw [hlimit]
    exact Int.sub_le_sub_left this base
  · rw [hlimit]
    obtain h0 | ⟨g, hg, he⟩ := hfrom
    · exact .inl (by rw [h0, Int.sub_zero])
    · exact .inr ⟨g, hg, by rw [he]⟩
  · rw [show x.atLimit = _ from hat, show x.spots = _ from hspots, List.any_eq_true]

/-- A field's control reading is above its limit. -/
def State.anyFieldHot (t : State) : Prop := ∃ e ∈ t.fields, ∃ c, e.2.control = some c ∧ e.2.limit < c

/-- Each field is at least 2 K below its limit, with no suspect pair. -/
def State.allFieldsCool (t : State) : Prop := ∀ e ∈ t.fields, e.2.atLimit = false ∧ ∀ c, e.2.control = some c → c + 20 ≤ e.2.limit

/-- The stretch demand and the cool samples after a sample, between `s` and `t`. -/
structure DemandSampled (s t : State) : Prop where
  raised : t.anyFieldHot → t.tick.thermalDemand = min s.usable (s.tick.thermalDemand + 1)
  lowered : ¬t.anyFieldHot → t.allFieldsCool → 10 ≤ s.thermal.coolRun → t.tick.thermalDemand = min s.usable (s.tick.thermalDemand - 1)
  kept : ¬t.anyFieldHot → (¬t.allFieldsCool ∨ s.thermal.coolRun < 10) → t.tick.thermalDemand = min s.usable s.tick.thermalDemand
  ended : ¬t.allFieldsCool → t.thermal.coolRun = 0
  counted : t.allFieldsCool → t.thermal.coolRun = if 10 ≤ s.thermal.coolRun then 1 else s.thermal.coolRun + 1

/-- The stretch demand after a sample, and the cool samples in a row. -/
theorem sampled_demand {s u t : State} {r : ThermalReads} (h : Sampled s u t r) : DemandSampled s t := by
  obtain ⟨hrun, husable, htick⟩ := h.base
  obtain ⟨n, -, hth⟩ := h.thermal
  have hviewAbove : ∀ x y : FieldSt, x.heatView = y.heatView → x.above = y.above := fun x y hxy => by
    simp only [FieldSt.heatView, Prod.mk.injEq] at hxy
    simp only [FieldSt.above, hxy]
  have hviewCool : ∀ x y : FieldSt, x.heatView = y.heatView → (!x.cool) = !y.cool := fun x y hxy => by
    simp only [FieldSt.heatView, Prod.mk.injEq] at hxy
    simp only [FieldSt.cool, hxy]
  have hhot : t.anyFieldHot ↔ u.anyHot = true := by
    rw [State.anyFieldHot, State.anyHot, ← views_any h.views FieldSt.above hviewAbove, List.any_eq_true]
    refine exists_congr fun e => and_congr_right fun _ => ?_
    cases hc : e.2.control <;> simp [FieldSt.above, hc]
  have hcool : t.allFieldsCool ↔ u.allCool = true := by
    have hall : u.allCool = !(u.fields.any fun e => !e.2.cool) := by
      rw [State.allCool, List.not_any_eq_all_not]
      simp
    rw [State.allFieldsCool, hall, ← views_any h.views (fun x => !x.cool) hviewCool, Bool.not_eq_true', List.any_eq_false]
    refine forall_congr' fun e => imp_congr_right fun _ => ?_
    cases hc : e.2.control <;> simp [FieldSt.cool, hc]
  have hcoolRun : t.thermal.coolRun = if decide (11 ≤ u.coolRunTaken) then 1 else u.coolRunTaken := (congrArg ThermalSt.coolRun hth :)
  have hd : t.tick.thermalDemand = u.demandTaken := h.demand
  unfold State.demandTaken State.coolRunTaken at hd
  unfold State.coolRunTaken at hcoolRun
  rw [hrun, husable, htick] at hd
  rw [hrun] at hcoolRun
  refine ⟨fun hh => ?_, fun hn hc h10 => ?_, fun hn hc => ?_, fun hc => ?_, fun hc => ?_⟩
  · rw [hd, if_pos (hhot.1 hh)]
  · rw [hd, if_neg (mt hhot.2 hn), if_pos (hcool.1 hc), if_pos (by simpa using h10)]
  · rw [hd, if_neg (mt hhot.2 hn)]
    by_cases hk : t.allFieldsCool
    · rw [if_pos (hcool.1 hk), if_neg (by have := hc.resolve_left (not_not.2 hk); simp; omega)]
    · rw [if_neg (mt hcool.2 hk), if_neg (by simp)]
  · rw [hcoolRun, if_neg (mt hcool.2 hc)]
    rfl
  · rw [hcoolRun, if_pos (hcool.1 hc)]
    by_cases h10 : 10 ≤ s.thermal.coolRun
    · rw [if_pos h10, if_pos (by simpa using h10)]
    · rw [if_neg h10, if_neg (by simpa using h10)]

/-! ### The statement -/

/-- The thermal cap: no term is exceeded, and the lowest is reached but for the rounding. -/
theorem capNow_spec (s : State) (tin : Rat) (pm : Nat) :
    let n := s.capNow tin pm
    let t := s.thermal
    let f : Rat := (t.flow : Int)
    let below (v : Rat) : Prop := n = 0 ∨ ((n : Int) : Rat) ≤ v
    n % 10 = 0 ∧ n ≤ 21000 ∧ ((21000 < n + 10) ∨ ∃ v ∈ s.capTerms tin pm, v < ((n : Int) : Rat) + 10)
    ∧ (0 < t.rthModNow → below (t.margin tin (10 * (t.limitNow : Int)) / t.rthModNow))
    ∧ (∀ e ∈ s.fields, e.2.role = .active → 50 ≤ e.2.power → (e.2.atLimit = true → below ((pm : Int) : Rat))
      ∧ (e.2.atLimit = false → 0 < e.2.rthNow → below (((pm : Int) : Rat) * t.margin tin e.2.limit / (e.2.rthNow * ((e.2.power : Int) : Rat)))))
    ∧ (400 < tin → tin ≤ 480 → below (21000 - 1875 * (tin - 400) / 10)) ∧ (480 < tin → below 6000)
    ∧ (t.flow < 1000 → n = 0) ∧ (1000 ≤ t.flow → t.flow < 2000 → below (21000 * (f / 100 - 10) / 10)) := by
  obtain ⟨hwarm, hhot, hnone, hlow⟩ := capTerms_coolant s tin pm
  refine ⟨capNow_ten s tin pm, capNow_le s tin pm, capNow_near s tin pm, fun h => capNow_below s tin pm (capTerms_module s tin pm h), fun e he hr hp => ?_,
    fun h h' => capNow_below s tin pm (hwarm h h'), fun h => capNow_below s tin pm (hhot h), fun h => ?_, fun h h' => capNow_below s tin pm (hlow h h')⟩
  · obtain ⟨hat, hfree⟩ := capTerms_field s tin pm he hr hp
    exact ⟨fun h => capNow_below s tin pm (hat h), fun h h' => capNow_below s tin pm (hfree h h')⟩
  · obtain h0 | h0 := capNow_below s tin pm (hnone h)
    · exact h0
    · exact Nat.le_zero.1 (by exact_mod_cast h0)

theorem sampled_tIn {s u t : State} {r : ThermalReads} (h : Sampled s u t r) : t.thermal.tIn = (s.thermal.trayRead r).inletTemp := by
  obtain ⟨n, -, hth⟩ := h.thermal
  rw [hth]
  rfl

theorem sampled_frame {s u t : State} {r : ThermalReads} (h : Sampled s u t r) : t = { s with
    thermal := t.thermal, fields := t.fields, regs := t.regs, host := t.host, out := t.out, freeUses := t.freeUses
    power := { s.power with p100 := r.modulePower, auxV := t.power.auxV, capEff := t.power.capEff }
    tick := { s.tick with thermalDemand := t.tick.thermalDemand } } := by
  rw [← h.power]
  exact h.moved.frame

/-- The thermal state after a sample. -/
theorem sampled_thermal {s u t : State} {r : ThermalReads} (h : Sampled s u t r) : let x := s.thermal
    let y := t.thermal
    let ok (z : TrayRead) (lo hi : Int) : Prop := z.answered = true ∧ z.valid = true ∧ lo ≤ z.raw ∧ z.raw ≤ hi
    let reads (good : Prop) (fails run fails' run' : Nat) : Prop :=
      (¬good → fails' = min 3 (fails + 1) ∧ run' = 0)
      ∧ (good → fails < 3 → fails' = 0 ∧ run' = min 10 (run + 1))
      ∧ (good → 3 ≤ fails → 9 ≤ run → fails' = 0 ∧ run' = 10) ∧ (good → 3 ≤ fails → run < 9 → fails' = fails ∧ run' = run + 1)
    let value {α : Type} (good : Prop) (fails' : Nat) (old now : Option α) (v : α) : Prop :=
      (3 ≤ fails' → now = none) ∧ (fails' < 3 → good → now = some v) ∧ (fails' < 3 → ¬good → now = old)
    let hot := y.trayInlet.toList ++ x.couplingA.toList ++ x.couplingB.toList
    reads (ok r.inlet (-2560) 12800) x.inletFails x.inletGood y.inletFails y.inletGood
    ∧ reads (ok r.outlet (-2560) 12800) x.outletFails x.outletGood y.outletFails y.outletGood
    ∧ reads (ok r.flow 0 10000) x.flowFails x.flowGood y.flowFails y.flowGood
    ∧ value (ok r.inlet (-2560) 12800) y.inletFails x.trayInlet y.trayInlet (r.inlet.raw * 10 / 128)
    ∧ value (ok r.outlet (-2560) 12800) y.outletFails x.trayOutlet y.trayOutlet (r.outlet.raw * 10 / 128)
    ∧ value (ok r.flow 0 10000) y.flowFails x.trayFlow y.trayFlow r.flow.raw.toNat
    ∧ (((x.inletFails < 3 ∧ y.inletFails = 3) ∨ (x.outletFails < 3 ∧ y.outletFails = 3) ∨ (x.flowFails < 3 ∧ y.flowFails = 3)) →
      t.get Reg.Therm.TRAY_SENSOR_LOST = 1)
    ∧ (hot = [] → y.tIn = 520) ∧ (hot ≠ [] → y.tIn ∈ hot ∧ ∀ v ∈ hot, v ≤ y.tIn)
    ∧ y.flow = (if 3 ≤ y.flowFails then 2000 else y.trayFlow.getD x.flow) ∧ y.flowOkMs = (if 2000 ≤ y.flow then x.flowOkMs + 100 else 0)
    ∧ (480 < y.tIn → x.tIn ≤ 480 → t.get Reg.Therm.INLET_HOT = 1) ∧ (y.flow < 2000 → 2000 ≤ x.flow → t.get Reg.Therm.FLOW_LOW = 1)
    ∧ y.inletSlope = (x.inletSlope ++ [y.tIn]).drop (x.inletSlope.length + 1 - 101)
    ∧ y.rthMod = (match t.tjMax with
      | some c => if 3000 ≤ r.modulePower then last10 x.rthMod (kelvin (c - y.tIn) / (r.modulePower : Int)) else x.rthMod
      | none => x.rthMod)
    ∧ (let n := t.capNow y.tIn r.modulePower
      y.cth = (if n ≤ x.cth then n else min n (x.cth + 200)) ∧ t.get Reg.Therm.THERMAL_CAP = y.cth % 2 ^ (Reg.Therm.THERMAL_CAP.hi - Reg.Therm.THERMAL_CAP.lo + 1))
    ∧ y = { x with
        inletFails := y.inletFails, outletFails := y.outletFails, flowFails := y.flowFails, inletGood := y.inletGood, outletGood := y.outletGood
        flowGood := y.flowGood, trayInlet := y.trayInlet, trayOutlet := y.trayOutlet, trayFlow := y.trayFlow, tIn := y.tIn, flow := y.flow
        flowOkMs := y.flowOkMs, inletSlope := y.inletSlope, rthMod := y.rthMod, cth := y.cth, coolRun := y.coolRun } := by
  obtain ⟨n, hn, hth⟩ := h.thermal
  have hcap := h.cap
  have hlost := h.lost
  have hhot := h.hot
  have hlow := h.low
  obtain ⟨hnone, hsome⟩ := inletTemp_spec (s.thermal.trayRead r)
  have htin : t.thermal.tIn = (s.thermal.trayRead r).inletTemp := sampled_tIn h
  dsimp only
  rw [htin, hn, hcap, hth]
  exact ⟨trayCount_read _ _ _ _ _, trayCount_read _ _ _ _ _, trayCount_read _ _ _ _ _, trayValue_read _ _ _ _ _ _, trayValue_read _ _ _ _ _ _,
    trayValue_read _ _ _ _ _ _, hlost, hnone, hsome, rfl, rfl, hhot, hlow, rfl, rfl, ⟨rfl, rfl⟩, rfl⟩

/-- The way to Overcast: noted at once where one is under way, else through Lull, or at once where ticks stand. -/
theorem goOvercast_spec (s : State) (cause : Nat) (sb : Bool) (h : s.start.power = .active ∨ s.start.power = .lull) :
    let straight : Prop := s.start.target ≠ some .overcast ∧ s.start.target ≠ some .standby
    let target : PowerSt := if sb = true ∨ s.start.target = some .standby then .standby else .overcast
    ∃ u : State, u = { s with start := { s.start with target := some target, entryCause := u.start.entryCause, entryStandby := decide (target = .standby) } }
      ∧ (¬straight → s.goOvercast cause sb = u ∧ u.start.entryCause = s.start.entryCause)
      ∧ (straight → u.start.entryCause = cause ∧ (s.tick.running = true → s.goOvercast cause sb = u.askLull)
        ∧ (s.tick.running = false → s.goOvercast cause sb = u.beginOvercast)) := by
  intro straight target
  obtain ⟨hunder, hrun, hstand⟩ := goOvercast_eq s cause sb h
  refine ⟨_, ?_, fun hs => ⟨hunder hs, if_pos (by tauto)⟩, fun hs => ⟨if_neg (by tauto), hrun hs, hstand hs⟩⟩
  rfl

/-- A sample of the Ceiling unit: what it notes, and the trip. -/
theorem ceiling_spec (a b : Option Int) (j : Int) (s : State) (h : s.start.power ≠ .off) :
    let lost : Prop := a = none ∧ b = none
    let hit (x : Option Int) (n n' : Nat) : Prop := ((lost ∨ ∃ v, x = some v ∧ 520 ≤ v) → n' = min 2 (n + 1)) ∧ (¬lost → (∀ v, x = some v → v < 520) → n' = 0)
    let inlet (v : Int) : Prop := (lost → v = 520) ∧ (¬lost → v ∈ a.toList ++ b.toList ∧ ∀ x ∈ a.toList ++ b.toList, x ≤ v)
    let reading (v : Int) : Prop := (1050 ≤ j → v = j) ∧ (j < 1050 → inlet v)
    let o := exec (.ceilingThermalSample a b j) s
    ∃ u hitA hitB v, hit a s.thermal.tripHits.1 hitA ∧ hit b s.thermal.tripHits.2 hitB ∧ reading v
      ∧ (let hot : Prop := 1050 ≤ j ∨ hitA = 2 ∨ hitB = 2
        u = { s with
          power := { s.power with msClock := s.power.msClock + 1 }, regs := u.regs
          thermal := { s.thermal with couplingA := a, couplingB := b, tripHits := (hitA, hitB), hot := u.thermal.hot, coolMs := u.thermal.coolMs } }
        ∧ (u.thermal.hot = true ↔ hot)
        ∧ (∃ i, inlet i ∧ u.thermal.coolMs = if i < 450 ∧ (s.start.power = .standby ∨ j < 850) then s.thermal.coolMs + 1 else 0)
        ∧ (¬(hot ∧ s.thermal.hot = false) → o = .next u)
        ∧ (hot → s.thermal.hot = false → s.thermal.trip = true → o = .next { u with thermal := { u.thermal with tripCount := s.thermal.tripCount + 1 } })
        ∧ (hot → s.thermal.hot = false → s.thermal.trip = false → ∃ (w e z : State),
          w = { u with
            thermal := { u.thermal with trip := true, tripCount := s.thermal.tripCount + 1, coolMs := 0 }, regs := w.regs
            out := s.out ++ [.pin "THERMTRIP_N" true] }
          ∧ w.get Reg.Ceil.TRIP = 1 ∧ w.get Reg.Therm.THERMTRIP = 1 ∧ w.get Reg.Therm.THERM_TRIP = 1
          ∧ e = w.event { code := 0x0210, detail := (40, if 1050 ≤ j then 1 else 0) :: le2 42 (int16 v) }
          ∧ z = e.platformEvent 34 1 0 ∧ o = .next (z.goOvercast 2 false))) := by
  intro lost hit inlet reading o
  have hinlet : inlet (couplingInlet a b) := ⟨fun hl => by rw [hl.1, hl.2]; rfl, couplingInlet_read a b⟩
  have hhot : (s.coupled a b j).thermal.hot = true ↔ 1050 ≤ j ∨ tripHits a b a s.thermal.tripHits.1 = 2 ∨ tripHits a b b s.thermal.tripHits.2 = 2 :=
    tripDue_iff a b j _ _
  have ho : o = .next (opCeiling a b j s) := rfl
  rw [opCeiling_eq a b j s h] at ho
  have htrip : ∀ {P : Prop}, ((s.coupled a b j).thermal.hot = true ↔ P) → P → s.thermal.hot = false → o = .next ((s.coupled a b j).tripNow (decide (1050 ≤ j))
      (if decide (1050 ≤ j) = true then j else couplingInlet a b)) := fun hP h1 h2 => by
    rw [ho, if_pos (by rw [hP.2 h1, h2]; rfl)]
  refine ⟨s.coupled a b j, _, _, if decide (1050 ≤ j) = true then j else couplingInlet a b, tripHits_spec a b a _, tripHits_spec a b b _,
    ⟨fun hj => if_pos (by simpa using hj), fun hj => ?_⟩, rfl, hhot, ⟨couplingInlet a b, hinlet, ?_⟩, fun hn => ?_, fun h1 h2 h3 => ?_, fun h1 h2 h3 => ?_⟩
  · rw [if_neg (by simpa using hj)]
    exact hinlet
  · have hcool : (s.coupled a b j).thermal.coolMs = if (decide (couplingInlet a b < 450) && (s.start.power == .standby || decide (j < 850))) = true
        then s.thermal.coolMs + 1 else 0 := rfl
    rw [hcool]
    simp only [Bool.and_eq_true, Bool.or_eq_true, decide_eq_true_eq, beq_iff_eq]
  · rw [ho, if_neg]
    intro hb
    obtain ⟨hb1, hb2⟩ := Bool.and_eq_true_iff.1 hb
    exact hn ⟨hhot.1 hb1, by simpa using hb2⟩
  · rw [htrip hhot h1 h2]
    exact congrArg Host.Outcome.next (tripNow_counted (s.coupled a b j) _ _ h3)
  · obtain ⟨hm1, hm2, hm3⟩ := tripped_marks (s.coupled a b j)
    refine ⟨(s.coupled a b j).tripped, _, _, rfl, hm1, hm2, hm3, rfl, rfl, ?_⟩
    rw [htrip hhot h1 h2, tripNow_first (s.coupled a b j) _ _ h3]
    simp only [decide_eq_true_eq]

/-- The fit of the outlook, over the samples as they are recorded. -/
theorem outlookFit_spec (s : State) : 10000 ≤ s.thermal.samples.length → ∃ t, exec .outlookFit s = .next t
    ∧ t = { s with thermal := { s.thermal with ps := t.thermal.ps, wl := t.thermal.wl, wr := t.thermal.wr }, freeUses := t.freeUses }
    ∧ (let l := s.thermal.samples
      let lanes (e : Nat × Rat × Nat) : Rat := e.2.1
      let rows (e : Nat × Rat × Nat) : Rat := ((e.2.2 : Nat) : Int)
      let err (e : Nat × Rat × Nat) : Rat := (((e.1 : Nat) : Int) : Rat) - t.thermal.ps - t.thermal.wl * lanes e - t.thermal.wr * rows e
      let constant (g : Nat × Rat × Nat → Rat) : Prop := ∀ d ∈ l, ∀ e ∈ l, g d = g e
      (l.map err).sum = 0
      ∧ (¬constant lanes → (l.map fun e => err e * lanes e).sum = 0) ∧ (¬constant rows → (l.map fun e => err e * rows e).sum = 0)
      ∧ (constant lanes → t.thermal.wl = s.thermal.wl) ∧ (constant rows → t.thermal.wr = s.thermal.wr)) := by
  intro h
  obtain ⟨ps, wl, wr, n, heq, hfit⟩ := opFit_fitted s h
  refine ⟨_, congrArg Host.Outcome.next heq, rfl, ?_⟩
  intro l lanes rows err constant
  have hsum : ∀ g : Rat × Rat × Rat → Rat, total s.thermal.fitSamples g = (l.map fun e => g (((e.1 : Nat) : Int), e.2.1, ((e.2.2 : Nat) : Int))).sum :=
    fun g => total_map s.thermal.samples g _
  have hconst : ∀ g : Rat × Rat × Rat → Rat, single (s.thermal.fitSamples.map g) = true ↔
      constant fun e => g (((e.1 : Nat) : Int), e.2.1, ((e.2.2 : Nat) : Int)) := fun g => by
    rw [single_iff]
    simp only [ThermalSt.fitSamples, List.map_map, List.forall_mem_map, Function.comp_apply]
    rfl
  have hlanes := hconst fun e => e.2.1
  have hrows := hconst fun e => e.2.2
  refine ⟨(hsum _).symm.trans hfit.const, fun hc => (hsum _).symm.trans (hfit.lanes ?_), fun hc => (hsum _).symm.trans (hfit.rows ?_),
    fun hc => hfit.heldLanes (hlanes.2 hc), fun hc => hfit.heldRows (hrows.2 hc)⟩
  · exact Bool.eq_false_iff.2 fun hs => hc (hlanes.1 hs)
  · exact Bool.eq_false_iff.2 fun hs => hc (hrows.1 hs)

/-- Settles O28: the readings' rules as functions, the sample step by step (`Sampled`), the trip, the heat move and the fit by their own lemmas. -/
theorem thermalSamplesTripsAndOutlookAct : Obligations.ThermalSamplesTripsAndOutlookAct := by
  unfold Obligations.ThermalSamplesTripsAndOutlookAct
  refine ⟨⟨plausible_eq_some, fun x a b => ⟨sample_lost, fun hl u v => sample_both hl, fun hl u => sample_first hl, fun hl v => sample_second hl, sample_none⟩,
    capNow_spec, fun s r => ⟨fun h => congrArg Host.Outcome.next (if_pos (by simp [h])), fun h => ?_, ?_⟩⟩,
    fun s => ⟨?_, ?_, ?_, ?_, ?_, ?_, ?_, ?_, ?_, slope_nonneg _, ?_, ?_⟩⟩
  · obtain ⟨u, hs⟩ := opThermal_sampled r s h
    refine ⟨_, rfl, sampled_frame hs, hs.moved.answers, sampled_thermal hs, fun f hf => ⟨sampled_unread hs hf, sampled_pairs hs hf, fun P hone => ?_⟩, ?_⟩
    · rw [sampled_tIn hs]
      exact sampled_power hs hf P hone
    · have hd := sampled_demand hs
      refine ⟨hd.raised, hd.lowered, hd.kept, hd.ended, hd.counted, fun f hf hh => ?_⟩
      rw [hs.demand, ← hs.base.2.1]
      exact sampled_life hs hf hh
  · exact ⟨_, rfl, storeLife_spec s⟩
  · exact fun cause sb => ⟨fun h => goOvercast_idle s cause sb h.1 h.2, goOvercast_spec s cause sb⟩
  · intro a b j h
    exact congrArg Host.Outcome.next (if_pos (by simp [h]))
  · exact fun a b j h => ceiling_spec a b j s h
  · exact fun h => congrArg Host.Outcome.next (opTripRelease_idle s h)
  · intro h
    obtain ⟨h1, h2⟩ := untripped_marks s
    exact ⟨s.untripped, congrArg Host.Outcome.next (opTripRelease_released s h), rfl, h1, h2⟩
  · exact fun w ha hl => congrArg Host.Outcome.next (opFlowLost_idle w s ha hl)
  · intro w h
    exact ⟨s.flowGone w, rfl, get_mark _ _ (by decide) (by decide), congrArg Host.Outcome.next (opFlowLost_gone w s h)⟩
  · intro f
    refine ⟨fun h => congrArg Host.Outcome.next (opFieldOffHeat_idle f s h), fun p c h hr => ?_⟩
    obtain ⟨hb, hmark⟩ := opFieldOffHeat_moved f p c h s hr
    exact ⟨_, rfl, hmark, hb.moves, hb.others, hb.placement, hb.cycles, hb.free, hb.tested, hb.fields, hb.sessions, hb.airspaces⟩
  · rfl
  · exact fun h => congrArg Host.Outcome.next (opFit_short s h)
  · exact outlookFit_spec s

end Sys2Proof.Machine
end

section
/-! SUPPORT. What a boundary alone moves: the count, the level, whether ticks run, whether the slot was served, the wall clock (R48, R49). -/

namespace Sys2Proof.Machine
open Sys2Proof

/-- What a boundary alone moves. -/
noncomputable def TickSt.pace (t : TickSt) : (Nat × Nat) × (Bool × Bool × Bool) × Nat := ((t.count, t.level), (t.started, t.running, t.slotDone), t.wall480)

/-- A second state stands where the first does: no boundary has moved it. -/
def Paced (s t : State) : Prop := t.tick.pace = s.tick.pace

/-- Whatever an operation that may fail leaves stands where the state does. -/
def PacedOpt (s : State) (o : Option State) : Prop := ∀ t, o = some t → Paced s t

/-- What leaves a control slot's view alone leaves the pace alone. -/
theorem Paced.view {s₀ s t : State} (e : t.slotView = s.slotView) (hs : Paced s₀ s) : Paced s₀ t :=
  (congrArg (fun v : SlotView => v.tick.pace) e).trans hs

namespace Paced
variable {s₀ s : State}

theorem ite {c : Prop} [Decidable c] {t u : State} (ht : Paced s₀ t) (hu : Paced s₀ u) : Paced s₀ (if c then t else u) := by
  split <;> assumption

theorem foldl {α : Type} {l : List α} {g : State → α → State} (hg : ∀ t x, Paced s₀ t → Paced s₀ (g t x)) (hs : Paced s₀ s) : Paced s₀ (l.foldl g s) := by
  induction l generalizing s with
  | nil => exact hs
  | cons x l ih => exact ih (hg s x hs)

theorem forAll {l : List Nat} {g : State → Nat → State} (hg : ∀ t n, Paced s₀ t → Paced s₀ (g t n)) (hs : Paced s₀ s) : Paced s₀ (s.forAll l g) :=
  foldl hg hs

theorem getD {o : Option State} (ho : PacedOpt s₀ o) (hs : Paced s₀ s) : Paced s₀ (o.getD s) := by
  cases o with
  | none => exact hs
  | some t => exact ho t rfl

/-! ### One part of the state replaced -/

theorem put {f : Fld} {v : Nat} (hs : Paced s₀ s) : Paced s₀ (s.put f v) := hs
theorem mark {f : Fld} (hs : Paced s₀ s) : Paced s₀ (s.mark f) := hs
theorem bump {f : Fld} (hs : Paced s₀ s) : Paced s₀ (s.bump f) := hs
theorem updField {f : Nat} {g : FieldSt → FieldSt} (hs : Paced s₀ s) : Paced s₀ (s.updField f g) := hs
theorem updBank {f i : Nat} {g : Bank → Bank} (hs : Paced s₀ s) : Paced s₀ (s.updBank f i g) := hs
theorem updRouter {u : Nat} {g : RouterSt → RouterSt} (hs : Paced s₀ s) : Paced s₀ (s.updRouter u g) := hs
theorem updCore {c : Nat} {g : CoreSt → CoreSt} (hs : Paced s₀ s) : Paced s₀ (s.updCore c g) := hs
theorem updPlc {p : Nat} {g : PlacementSt → PlacementSt} (hs : Paced s₀ s) : Paced s₀ (s.updPlc p g) := hs
theorem setPlc {p : Nat} {x : PlacementSt} (hs : Paced s₀ s) : Paced s₀ (s.setPlc p x) := hs
theorem updAsp {a : Nat} {g : AirspaceSt → AirspaceSt} (hs : Paced s₀ s) : Paced s₀ (s.updAsp a g) := hs
theorem setAsp {a : Nat} {x : AirspaceSt} (hs : Paced s₀ s) : Paced s₀ (s.setAsp a x) := hs
theorem updSess {n : Nat} {g : Desc → Desc} (hs : Paced s₀ s) : Paced s₀ (s.updSess n g) := hs
theorem updLinks {g : LinksSt → LinksSt} (hs : Paced s₀ s) : Paced s₀ (s.updLinks g) := hs
theorem updPort {n : Nat} {g : ObtikPort → ObtikPort} (hs : Paced s₀ s) : Paced s₀ (s.updPort n g) := hs
theorem updStack {n : Nat} {g : StackSt → StackSt} (hs : Paced s₀ s) : Paced s₀ (s.updStack n g) := hs
theorem setCores {l : Tbl CoreSt} (hs : Paced s₀ s) : Paced s₀ { s with cores := l } := hs
theorem period {n : Nat} (hs : Paced s₀ s) : Paced s₀ (s.updTick fun t => { t with period := n }) := hs
theorem updTick {g : TickSt → TickSt} (hg : (g s.tick).pace = s.tick.pace) (hs : Paced s₀ s) : Paced s₀ (s.updTick g) := hg.trans hs

end Paced

namespace PacedOpt
variable {s₀ s : State}

theorem none : PacedOpt s₀ none := fun _ h => nomatch h

theorem some (hs : Paced s₀ s) : PacedOpt s₀ (some s) := fun _ h => Option.some.inj h ▸ hs

theorem ite {c : Prop} [Decidable c] {o p : Option State} (ho : PacedOpt s₀ o) (hp : PacedOpt s₀ p) : PacedOpt s₀ (if c then o else p) := by
  split <;> assumption

theorem bind {o : Option State} {g : State → Option State} (ho : PacedOpt s₀ o) (hg : ∀ t, Paced s₀ t → PacedOpt s₀ (g t)) : PacedOpt s₀ (o.bind g) := by
  cases o with
  | none => exact none
  | some t => exact hg t (ho t rfl)

end PacedOpt
/-! ### Long operations in their parts -/

/-- The adapter versions of an airspace and its tuning job, released (R277). -/
noncomputable def State.unbindAdapters (s : State) (p a : Nat) : State :=
  let s := ((s.plc p).adapters.filter fun e => e.2.owner = a).foldl (fun s e =>
    (e.2.slotA.toList ++ e.2.slotB.toList).foldl (fun s v => s.releaseVersion p e.1 v.version) s) s
  if (s.plc p).tune.st != .none && (s.plc p).tune.airspace = a then s.failTune p else s

/-- The segments and stripes of an airspace, given back. -/
noncomputable def State.unbindRoom (s : State) (a : Nat) : State :=
  let mine := (s.asp a).carvings.map (·.core)
  let s := mine.foldl (fun s c => s.tagSegs c 0xF ((s.core c).poolSegs.filter fun g => (s.core c).tags.getD g 0xF = a)) s
  (s.loseChannels (s.asp a).stripes).updAsp a fun x =>
    { x with placement := none, carvings := [], stripes := [], cloudPages := [], waiting := x.waiting, pageRefs := [] }

theorem applyUnbind_eq (s : State) (a : Nat) : s.applyUnbind a =
    match (s.asp a).placement with
    | none => some s
    | some p =>
      let t := (((s.dropPrefixes a false).unbindAdapters p a).unbindRoom a).setFilters p
      if (t.plc p).live then t.carveList p (t.carvedFrom p a) else some t := rfl

/-- One move of `finishMoves`, completed. -/
noncomputable def State.finishMove (s : State) (k p : Nat) (m : Move) : State :=
  let s := s.renameCores p m.field m.clearing
  let s := s.updField m.clearing fun x => { x with role := .active, placement := some p }
  let s := s.updField m.field fun x =>
    { x with placement := none, role := if m.heat then .unassigned else x.role, twinOf := none, twinHolder := none }
  let s := if m.heat then s.releaseCores m.field else s.moveStaged p m.field m.clearing
  let s := s.updPlc p fun x => { x with moves := x.moves.filter fun y => y.field ≠ m.field, rebuildAsked := without x.rebuildAsked m.field }
  let s := if m.heat && (s.field m.field).task ≠ 2 then s.sendGust (stewardId m.field) else s
  s.event { code := 0x0803, placement := p, field := m.clearing, stages := s.stagesOf m.clearing
            detail := [(40, m.field), (41, m.clearing), (42, if m.fromImage then 1 else 0)] ++ le8 48 k }

/-- A transfer is no more, with its assemblies and chunks. -/
noncomputable def State.forgotten (s : State) (t : Transfer) : State := { s with
  transfers := s.transfers.filter fun y => y.number ≠ t.number
  assemblies := s.assemblies.filter fun y => y.transfer ≠ t.number
  chunkStore := s.chunkStore.filter fun y => y.1 ≠ t.number }

/-- What a transfer had still to write in its fields, dropped. -/
noncomputable def State.unqueued (s : State) (t : Transfer) : State :=
  match t.image with
  | none => s
  | some i => s.forAll (i.fields.flatMap fun (r : FieldRec) => [(s.plc t.placement).siteOf r.field, (s.plc t.placement).partSite r.field]) fun s f =>
      s.updField f fun x => { x with writeQueue := [] }

/-- What a transfer that failed had claimed, given back. -/
noncomputable def State.givenBack (s : State) (t : Transfer) : State :=
  match t.kind, t.image with
  | 0, none => s.releaseClaims t
  | 0, some _ => (s.releaseClaims t).buildTwins t.placement
  | 1, _ => s.releaseClaims t
  | 3, _ => match t.slot with
    | none => s
    | some v => s.releaseVersion t.placement t.adapter v
  | 4, _ => s.dropTune t.placement
  | _, _ => s

theorem endTransfer_eq (s : State) (t : Transfer) (st : Status) : s.endTransfer t st =
    let x := if st == .ok then (s.forgotten t).unqueued t else ((s.forgotten t).unqueued t).givenBack t
    let y := (x.chunkAck t (if st == .ok then 6 else 7) ackLead).gaugeWeights
    if t.kind = 4 && st == .ok then y else y.finalReply t.cmdSrc t.cmdSeq t.cmdOp st := rfl

/-- What a port that is down still holds leaves by the new choice. -/
noncomputable def State.reroute (s : State) (n : Nat) : State :=
  [0, 2].foldl (fun s vc =>
    let c := (s.port n).chan vc
    let frames := c.replay ++ c.waiting
    let s := s.updPort n fun p => p.setChan vc { c with replay := [], waiting := [], resends := 0 }
    frames.foldl (fun s f =>
      let (t, ok) := s.sendLink (LinkHdr.decode f.header) f.words
      if ok then t else s.updPort n fun p => let c := p.chan vc; p.setChan vc { c with waiting := c.waiting ++ [f] }) s) s

theorem linkBoundary_eq (s : State) : s.linkBoundary =
    if s.links.plan.groups.isEmpty then s else
    let due := s.links.nextRoutes.filter fun e => e.1 ≤ s.tick.count
    let t := s.updLinks fun l => { l with choice := s.activePorts, nextRoutes := l.nextRoutes.filter fun e => s.tick.count < e.1 }
    let t := due.foldl (fun s e => s.updLinks fun l => { l with routes := e.2.2, routesFromOrder := e.2.1 }) t
    let t := t.forAll (t.plannedPorts.filter fun n => !t.isActive n) State.reroute
    if due.isEmpty then t else t.gaugeLinks := rfl

end Sys2Proof.Machine
end

section
/-! SUPPORT. No operation of a tick but its boundary moves the pace: one rule for each part of it. -/

namespace Sys2Proof.Machine.Paced
open Sys2Proof
variable {s₀ s : State}

theorem pauseBare {n : Nat} (hs : Paced s₀ s) : Paced s₀ (s.pauseBare n) :=
  updSess (view (slotView_dropLane ..) (view (slotView_unbook ..) (view (slotView_dropPause ..) (view (slotView_releaseKv ..) hs))))

theorem carrySession {n : Nat} (hs : Paced s₀ s) : Paced s₀ (s.carrySession n) := by
  unfold State.carrySession
  dsimp only
  split
  · exact updSess (pauseBare hs)
  · exact updSess (pauseBare hs)
  · exact updSess (pauseBare hs)
  · exact ite (pauseBare hs) (view (slotView_endSession ..) hs)
  · exact ite (ite (view (slotView_pauseNoKv ..) (pauseBare hs)) (pauseBare hs)) (ite (view (slotView_pauseNoKv ..) (view (slotView_dropPause ..) (ite (view (slotView_abandonBack ..) hs) hs))) (ite (view (slotView_abandonBack ..) hs) hs))
  · exact hs

theorem dropPrefixes {a : Nat} {report : Bool} (hs : Paced s₀ s) : Paced s₀ (s.dropPrefixes a report) :=
  forAll (fun _ _ hs => (view (slotView_dropPrefix ..) hs)) hs

theorem beginJournal {cause : Nat} (hs : Paced s₀ s) : Paced s₀ (s.beginJournal cause) :=
  ite hs hs

theorem beginOvercast (hs : Paced s₀ s) : Paced s₀ s.beginOvercast :=
  beginJournal (forAll (fun _ _ hs => (ite hs (view (slotView_failTune ..) hs))) (forAll (fun _ _ => dropPrefixes) (forAll (fun _ _ => carrySession) hs)))

theorem platformEvent {sensor value data : Nat} (hs : Paced s₀ s) : Paced s₀ (s.platformEvent sensor value data) := by
  unfold State.platformEvent
  cases s.mgmt.receiver with
  | none => exact hs
  | some _ => exact hs

theorem setPowerSt {p : PowerSt} (hs : Paced s₀ s) : Paced s₀ (s.setPowerSt p) :=
  ite hs (platformEvent hs)

theorem gaugeCloud (hs : Paced s₀ s) : Paced s₀ s.gaugeCloud :=
  forAll (fun _ _ hs => hs) (put (forAll (fun _ _ hs => hs) hs))

theorem stacksTo {old new : StackState} (hs : Paced s₀ s) : Paced s₀ (s.stacksTo old new) :=
  hs

theorem arrived (hs : Paced s₀ s) : Paced s₀ s.arrived := by
  unfold State.arrived
  split
  · exact hs
  · exact view (slotView_finalReply ..) hs

theorem sendFrame {a port cost : Nat} {o : Out} (hs : Paced s₀ s) : Paced s₀ (s.sendFrame a port cost o) := by
  unfold State.sendFrame
  cases s.egressPort port with
  | none => exact hs
  | some _ => exact ite hs (ite hs hs)

theorem sendDatagram {a port payload : Nat} {v4 : Bool} {o : Out} (hs : Paced s₀ s) : Paced s₀ (s.sendDatagram a port payload v4 o) :=
  sendFrame hs

theorem sendBatch {a : Nat} {b : Batch} {again : Bool} (hs : Paced s₀ s) : Paced s₀ (s.sendBatch a b again) := by
  unfold State.sendBatch
  cases (s.asp a).dests.find b.dest with
  | none => exact hs
  | some _ => exact foldl (fun _ _ => sendDatagram) hs

theorem releaseBatch {a dest : Nat} {l : List Rec} (hs : Paced s₀ s) : Paced s₀ (s.releaseBatch a dest l) := by
  unfold State.releaseBatch
  cases (s.asp a).dests.find dest with
  | none => exact hs
  | some _ => exact sendBatch hs

theorem releaseBatches (hs : Paced s₀ s) : Paced s₀ s.releaseBatches :=
  forAll (fun _ _ hs => (updAsp (forAll (fun _ _ => releaseBatch) hs))) hs

theorem fillBuckets (hs : Paced s₀ s) : Paced s₀ s.fillBuckets :=
  forAll (fun _ _ hs => hs) hs

theorem repeatTune {p : Nat} (hs : Paced s₀ s) : Paced s₀ (s.repeatTune p) :=
  updPlc (bump (foldl (fun _ _ hs => hs) hs))

theorem endCells (hs : Paced s₀ s) : Paced s₀ s.endCells :=
  forAll (fun _ _ hs => (ite hs (ite (repeatTune hs) hs))) hs

theorem fillSlot {l : List (Nat × Nat × Nat × Nat)} {bs : List Byte} (hs : Paced s₀ s) : Paced s₀ (s.fillSlot l bs) := by
  induction l generalizing s bs with
  | nil => exact hs
  | cons q l ih => exact ih (view (slotView_poke ..) hs)

theorem freeBacking {a : Nat} {v : Option AdapterSlot} (hs : Paced s₀ s) : Paced s₀ (s.freeBacking a v) := by
  unfold State.freeBacking
  cases v with
  | none => exact hs
  | some _ => exact hs

theorem tagSlot {a : Nat} {cores : List (Nat × Nat × Nat × Nat)} (hs : Paced s₀ s) : Paced s₀ (s.tagSlot a cores) :=
  foldl (fun _ _ hs => hs) hs

theorem releaseVersion {p id version : Nat} (hs : Paced s₀ s) : Paced s₀ (s.releaseVersion p id version) := by
  unfold State.releaseVersion
  cases (s.plc p).adapters.find id with
  | none => exact hs
  | some e =>
    dsimp only
    cases e.slotOf version with
    | none => exact updPlc (freeBacking hs)
    | some v => exact updPlc (tagSlot (freeBacking hs))

theorem reloadVersion {p id owner : Nat} {v : AdapterSlot} (hs : Paced s₀ s) : Paced s₀ (s.reloadVersion p id owner v) := by
  unfold State.reloadVersion
  split
  · exact fillSlot hs
  · exact releaseVersion (forAll (fun _ _ hs => (view (slotView_endSession ..) hs)) (view (slotView_event ..) hs))

theorem reloadWord {c lin : Nat} (hs : Paced s₀ s) : Paced s₀ (s.reloadWord c lin) := by
  refine ite hs ?_
  have hc : Paced s₀ (s.updCore c fun k => { k with reloads := without k.reloads lin }) := updCore hs
  dsimp only
  generalize s.updCore c _ = t at hc ⊢
  split
  · exact hc
  split
  · exact reloadVersion hc
  split
  · exact view (slotView_writeMaps ..) hc
  · exact view (slotView_loseKv ..) hc
  split
  · exact forAll (fun _ _ => view (slotView_loseKv ..)) (forAll (fun _ _ => view (slotView_dropPrefix ..)) hc)
  split
  · exact view (slotView_writeSampling ..) hc
  · exact hc

theorem settleWords (hs : Paced s₀ s) : Paced s₀ s.settleWords :=
  foldl (fun _ _ hs => (foldl (fun _ _ => reloadWord) hs)) hs

theorem noteDrops (hs : Paced s₀ s) : Paced s₀ s.noteDrops :=
  foldl (fun _ _ hs => (foldl (fun _ _ hs => hs) (foldl (fun _ _ hs => hs) hs))) hs

theorem freeEnded (hs : Paced s₀ s) : Paced s₀ s.freeEnded :=
  forAll (fun _ _ hs => hs) hs

theorem settleTunes (hs : Paced s₀ s) : Paced s₀ s.settleTunes :=
  forAll (fun _ _ hs => (ite (view (slotView_failTune ..) (ite hs hs)) (ite (repeatTune (ite hs hs)) (ite hs hs)))) hs

theorem voidBookings {n : Nat} (hs : Paced s₀ s) : Paced s₀ (s.voidBookings n) :=
  hs

theorem privateMap {n : Nat} (hs : Paced s₀ s) : Paced s₀ (s.privateMap n) :=
  ite (view (slotView_writeMaps ..) hs) hs

theorem settleLoss {k n : Nat} (hs : Paced s₀ s) : Paced s₀ (s.settleLoss k n) := by
  unfold State.settleLoss
  dsimp only
  split
  · exact ite (privateMap (updSess (updAsp (voidBookings (view (slotView_dropRegistration ..) hs))))) (ite (view (slotView_endSession ..) hs) (updSess (privateMap (updSess (updAsp (voidBookings (view (slotView_dropRegistration ..) hs)))))))
  · exact ite (privateMap (updSess (updAsp (voidBookings (view (slotView_dropRegistration ..) hs))))) (ite (view (slotView_endSession ..) hs) (updSess (privateMap (updSess (updAsp (voidBookings (view (slotView_dropRegistration ..) hs)))))))
  · exact ite hs (ite (view (slotView_endSession ..) hs) (updSess (privateMap (updSess (updAsp (voidBookings (view (slotView_dropRegistration ..) hs)))))))
  · exact ite hs hs
  · exact hs

theorem settleLosses {k : Nat} (hs : Paced s₀ s) : Paced s₀ (s.settleLosses k) :=
  forAll (fun _ _ => settleLoss) hs

theorem noteWritten {k n : Nat} (hs : Paced s₀ s) : Paced s₀ (s.noteWritten k n) := by
  unfold State.noteWritten
  dsimp only
  cases (s.sess n).registering with
  | none => exact hs
  | some _ => exact ite hs hs

theorem bookAgain {k n : Nat} (hs : Paced s₀ s) : Paced s₀ (s.bookAgain k n) :=
  ite hs (by split; exacts [hs, hs])

theorem releaseToken {k n tok : Nat} (hs : Paced s₀ s) : Paced s₀ (s.releaseToken k n tok) := by
  unfold State.releaseToken
  dsimp only
  split
  · exact updSess (ite (bump (ite hs hs)) (ite hs hs))
  · exact view (slotView_endSession ..) (updSess (updSess (ite (bump (ite hs hs)) (ite hs hs))))

theorem pushGap {n : Nat} (hs : Paced s₀ s) : Paced s₀ (s.pushGap n) :=
  ite hs hs

theorem endBooking {k p : Nat} {b : Booking} (hs : Paced s₀ s) : Paced s₀ (s.endBooking k p b) := by
  refine ite hs (ite (updPlc hs) ?_)
  dsimp only
  split
  · exact noteWritten (ite (updSess (updPlc hs)) (bookAgain (updSess (updPlc hs))))
  · exact ite (noteWritten (releaseToken (updSess (updPlc hs)))) (bookAgain (pushGap (updSess (updPlc hs))))
  · exact bookAgain (pushGap (updSess (updPlc hs)))

theorem endBookings {k : Nat} (hs : Paced s₀ s) : Paced s₀ (s.endBookings k) :=
  forAll (fun _ _ hs => (foldl (fun _ _ hs => (foldl (fun _ _ => endBooking) hs)) hs)) hs

theorem endTraversal {k n : Nat} (hs : Paced s₀ s) : Paced s₀ (s.endTraversal k n) :=
  ite (updSess (pushGap hs)) (ite (updSess (ite (pushGap hs) hs)) (ite (by cases (s.sess n).sampled with | none => exact hs | some _ => exact (noteWritten (releaseToken hs))) (noteWritten hs)))

theorem endTraversals {k : Nat} (hs : Paced s₀ s) : Paced s₀ (s.endTraversals k) :=
  forAll (fun _ _ hs => (ite hs (foldl (fun _ _ hs => (ite hs (ite (endTraversal hs) (ite (endTraversal hs) hs)))) hs))) hs

theorem endTick {k : Nat} (hs : Paced s₀ s) : Paced s₀ (s.endTick k) :=
  settleTunes (settleLosses (endBookings (endTraversals (endCells (settleWords (noteDrops (freeEnded hs)))))))

theorem noteAnswer {m : AckMsg} (hs : Paced s₀ s) : Paced s₀ (s.noteAnswer m) :=
  hs

theorem sendAck {m : AckMsg} {tick : Nat} (hs : Paced s₀ s) : Paced s₀ (s.sendAck m tick) :=
  sendDatagram hs

theorem releaseAcks {k : Nat} (hs : Paced s₀ s) : Paced s₀ (s.releaseAcks k) :=
  foldl (fun _ _ hs => (noteAnswer (sendAck hs))) hs

theorem pushEnd {n reason : Nat} (hs : Paced s₀ s) : Paced s₀ (s.pushEnd n reason) :=
  ite hs hs

theorem latchCancel {n k : Nat} (hs : Paced s₀ s) : Paced s₀ (s.latchCancel n k) := by
  unfold State.latchCancel
  dsimp only
  split
  · exact view (slotView_endSession ..) hs
  · exact view (slotView_endSession ..) hs
  · exact ite (view (slotView_endSession ..) hs) (updSess (view (slotView_unbook ..) (pushEnd hs)))
  · exact ite (view (slotView_endSession ..) hs) (updSess (view (slotView_unbook ..) (pushEnd hs)))
  · exact hs
  · exact hs

theorem allocPages {a k : Nat} {l : List Nat} {t : State} (h : s.allocPages a k = some (l, t)) (hs : Paced s₀ s) : Paced s₀ t := by
  simp only [State.allocPages] at h
  split at h
  · cases h
  · cases h
    exact setAsp hs

theorem becomePaused {n : Nat} (hs : Paced s₀ s) : Paced s₀ (s.becomePaused n) := by
  refine ite (view (slotView_pauseNoKv ..) (pauseBare hs)) ?_
  dsimp only
  split
  · exact view (slotView_failPause ..) (updSess (view (slotView_dropLane ..) (view (slotView_unbook ..) hs)))
  · next h => exact updSess (allocPages h (updSess (view (slotView_dropLane ..) (view (slotView_unbook ..) hs))))

theorem latchPause {n k ttl : Nat} (hs : Paced s₀ s) : Paced s₀ (s.latchPause n k ttl) :=
  ite hs (ite hs (becomePaused hs))

theorem dropResume {r : Request} (hs : Paced s₀ s) : Paced s₀ (s.dropResume r) := by
  unfold State.dropResume
  cases s.namedBy r.client.airspace r.client.handle with
  | none => exact hs
  | some _ => exact ite (view (slotView_abandonBack ..) hs) hs

theorem latchMessage {k : Nat} {r : Request} (hs : Paced s₀ s) : Paced s₀ (State.latchMessage k s r) :=
  ite (by split; exacts [hs, (view (slotView_ackLater ..) (view (slotView_ackLater ..) (dropResume hs)))]) (by cases s.namedBy r.client.airspace r.client.handle with | none => exact hs | some _ => exact (ite (view (slotView_ackLater ..) (latchCancel hs)) (view (slotView_ackLater ..) (ite (latchPause hs) hs))))

theorem latchAll {k : Nat} (hs : Paced s₀ s) : Paced s₀ (s.latchAll k) :=
  ite hs (forAll (fun _ _ hs => (updAsp (foldl (fun _ _ => latchMessage) (foldl (fun _ _ => latchMessage) hs)))) (forAll (fun _ _ hs => hs) (forAll (fun _ _ hs => (ite (latchCancel hs) (ite (ite hs (latchPause hs)) hs))) hs)))

theorem answerWith {h : CmdHdr} {op : Nat} {st : Status} {detail : Nat} {result : List (Nat × Nat × Nat)} (hs : Paced s₀ s) : Paced s₀ (s.answerWith h op st detail result) :=
  view (slotView_reply ..) hs

theorem askCancel {handle : Nat} (hs : Paced s₀ s) : Paced s₀ (s.askCancel handle) := by
  unfold State.askCancel
  cases s.named handle with
  | none => exact hs
  | some _ => exact hs

theorem answer {h : CmdHdr} {op : Nat} {st : Status} (hs : Paced s₀ s) : Paced s₀ (s.answer h op st) :=
  view (slotView_reply ..) hs

theorem settle {d : Deferred} {st : Status} (hs : Paced s₀ s) : Paced s₀ (s.settle d st) := by
  unfold State.settle
  split
  · exact ite (answer hs) hs
  · exact hs

theorem grantReply {h : CmdHdr} {p : Nat} (hs : Paced s₀ s) : Paced s₀ (s.grantReply h p) :=
  answerWith hs

theorem releaseCores {f : Nat} (hs : Paced s₀ s) : Paced s₀ (s.releaseCores f) :=
  view (slotView_banksDown ..) (forAll (fun _ _ hs => (ite hs hs)) hs)

theorem writeRouter {u : Nat} {g : RouteTables → RouteTables} (hs : Paced s₀ s) : Paced s₀ (s.writeRouter u g) :=
  updRouter (ite hs hs)

theorem writeAliases (hs : Paced s₀ s) : Paced s₀ s.writeAliases :=
  forAll (fun _ _ hs => (ite hs (writeRouter hs))) hs

theorem gaugeDrain (hs : Paced s₀ s) : Paced s₀ s.gaugeDrain :=
  put (put (forAll (fun _ _ hs => hs) hs))

theorem gaugePlan (hs : Paced s₀ s) : Paced s₀ s.gaugePlan :=
  forAll (fun _ _ hs => hs) hs

theorem gaugeFields (hs : Paced s₀ s) : Paced s₀ s.gaugeFields :=
  forAll (fun _ _ hs => (ite hs hs)) hs

theorem gaugeWeights (hs : Paced s₀ s) : Paced s₀ s.gaugeWeights :=
  forAll (fun _ _ hs => (ite hs hs)) (forAll (fun _ _ hs => hs) hs)

theorem removePlacement {p : Nat} (hs : Paced s₀ s) : Paced s₀ (s.removePlacement p) := by
  unfold State.removePlacement
  refine gaugeDrain (gaugePlan (gaugeFields (gaugeWeights (period (writeAliases (setPlc ?_))))))
  refine forAll (fun _ _ hs => releaseCores (updField hs)) (forAll (fun _ _ hs => ite hs (updBank hs)) ?_)
  exact foldl (fun _ _ => foldl fun _ _ => view (slotView_freePages ..)) hs

theorem writePages {a k : Nat} {pages : List Nat} {bs : List Byte} (hs : Paced s₀ s) : Paced s₀ (s.writePages a pages k bs) := by
  induction bs generalizing s k with
  | nil => exact hs
  | cons b bs ih =>
    unfold State.writePages
    split
    · exact hs
    · exact ih (updStack hs)

theorem writeBacking {a : Nat} {bytes : List Byte} {l : List Nat} {t : State} (h : s.writeBacking a bytes = some (l, t)) (hs : Paced s₀ s) :
    Paced s₀ t := by
  obtain ⟨_, hr, he⟩ := Option.map_eq_some_iff.1 h
  cases he
  exact writePages (allocPages hr hs)

theorem sweepAdapters (hs : Paced s₀ s) : Paced s₀ s.sweepAdapters :=
  forAll (fun _ _ hs => (foldl (fun _ _ hs => (foldl (fun _ _ hs => (ite (releaseVersion hs) hs)) hs)) hs)) hs

theorem commitTune {p : Nat} (hs : Paced s₀ s) : PacedOpt s₀ (s.commitTune p) := by
  unfold State.commitTune
  dsimp only
  split
  · next hb => exact PacedOpt.some (view (slotView_gaugeTune ..) (sweepAdapters (view (slotView_freeAreas ..) (updPlc (writeBacking hb hs)))))
  · exact PacedOpt.none

theorem gaugeLinks (hs : Paced s₀ s) : Paced s₀ s.gaugeLinks :=
  forAll (fun _ _ hs => hs) (forAll (fun _ _ hs => hs) hs)

theorem retirePrefix {a handle : Nat} (hs : Paced s₀ s) : Paced s₀ (s.retirePrefix a handle) := by
  unfold State.retirePrefix
  cases (s.asp a).prefixNamed handle with
  | none => exact hs
  | some _ => exact ite hs hs

theorem resetAirspace {a : Nat} (hs : Paced s₀ s) : Paced s₀ (s.resetAirspace a) := by
  unfold State.resetAirspace
  dsimp only
  split
  · exact dropPrefixes (forAll (fun _ _ hs => (ite hs (ite (view (slotView_finishSession ..) hs) (view (slotView_endSession ..) hs)))) hs)
  · exact ite (view (slotView_failTune ..) (dropPrefixes (forAll (fun _ _ hs => (ite hs (ite (view (slotView_finishSession ..) hs) (view (slotView_endSession ..) hs)))) hs))) (dropPrefixes (forAll (fun _ _ hs => (ite hs (ite (view (slotView_finishSession ..) hs) (view (slotView_endSession ..) hs)))) hs))

theorem carve {p a : Nat} (hs : Paced s₀ s) : PacedOpt s₀ (s.carve p a) :=
  PacedOpt.ite PacedOpt.none (PacedOpt.some (updAsp (forAll (fun _ _ hs => hs) hs)))

theorem recarveOwn {a : Nat} (hs : Paced s₀ s) : PacedOpt s₀ (s.recarveOwn a) := by
  unfold State.recarveOwn
  split
  · exact PacedOpt.some hs
  · exact PacedOpt.ite (carve hs) (PacedOpt.some hs)

theorem applyKv {h : CmdHdr} {a ttl k16 k32 k128 pool window : Nat} (hs : Paced s₀ s) : PacedOpt s₀ (s.applyKv h a ttl k16 k32 k128 pool window) :=
  PacedOpt.ite (PacedOpt.some hs) (recarveOwn hs)

theorem loseChannels {channels : List Nat} (hs : Paced s₀ s) : Paced s₀ (s.loseChannels channels) :=
  hs

theorem setStripes {a k : Nat} (hs : Paced s₀ s) : Paced s₀ (s.setStripes a k) :=
  ite hs hs

theorem carveList {p : Nat} {l : List Nat} (hs : Paced s₀ s) : PacedOpt s₀ (s.carveList p l) := by
  induction l generalizing s with
  | nil => exact PacedOpt.some hs
  | cons a l ih => exact PacedOpt.bind (carve hs) fun _ => ih

theorem recarve {a : Nat} (hs : Paced s₀ s) : PacedOpt s₀ (s.recarve a) := by
  unfold State.recarve
  split
  · exact PacedOpt.some hs
  · exact PacedOpt.ite (carveList hs) (PacedOpt.some hs)

theorem applyShares {h : CmdHdr} {a slot kv cloud power : Nat} (hs : Paced s₀ s) : PacedOpt s₀ (s.applyShares h a slot kv cloud power) := by
  unfold State.applyShares
  exact PacedOpt.ite (PacedOpt.some (ite (setStripes (setAsp hs)) (setAsp hs))) (recarve (ite (setStripes (setAsp hs)) (setAsp hs)))

theorem setFilters {p : Nat} (hs : Paced s₀ s) : Paced s₀ (s.setFilters p) :=
  forAll (fun _ _ hs => (ite hs (ite hs hs))) hs

theorem applyBind {a p : Nat} (hs : Paced s₀ s) : PacedOpt s₀ (s.applyBind a p) := by
  unfold State.applyBind
  exact recarve (setFilters (setStripes (updAsp hs)))

/-- With an airspace its adapters and its tuning job go. -/
theorem unbindAdapters {p a : Nat} (hs : Paced s₀ s) : Paced s₀ (s.unbindAdapters p a) := by
  unfold State.unbindAdapters
  dsimp only
  generalize hx : List.foldl _ s _ = x
  have h : Paced s₀ x := by
    rw [← hx]
    exact foldl (fun _ _ => foldl fun _ _ => releaseVersion) hs
  exact ite (view (slotView_failTune ..) h) h

/-- An airspace's segments and stripes given back. -/
theorem unbindRoom {a : Nat} (hs : Paced s₀ s) : Paced s₀ (s.unbindRoom a) :=
  updAsp (loseChannels (foldl (fun _ _ => view (slotView_tagSegs ..)) hs))

theorem applyUnbind {a : Nat} (hs : Paced s₀ s) : PacedOpt s₀ (s.applyUnbind a) := by
  rw [applyUnbind_eq]
  split
  · exact PacedOpt.some hs
  · next p _ =>
    have h := setFilters (p := p) (unbindRoom (a := a) (unbindAdapters (p := p) (a := a) (dropPrefixes (a := a) (report := false) hs)))
    exact PacedOpt.ite (carveList h) (PacedOpt.some h)

/-- An order at its boundary stores its setting. -/
theorem applySetting {i : Instr} (hs : Paced s₀ s) : Paced s₀ (s.applySetting i) := by
  induction i with
  | prefixUnregister => exact retirePrefix hs
  | airspaceReset => exact resetAirspace hs
  | setKv h a t k l m o w =>
    have h' : Paced s₀ ((s.applyKv h a t k l m o w).getD s) := getD (applyKv hs) hs
    exact h'
  | setShares h a x y z w =>
    have h' : Paced s₀ ((s.applyShares h a x y z w).getD s) := getD (applyShares hs) hs
    exact h'
  | airspaceBind _ a p =>
    have h' : Paced s₀ ((s.applyBind a p).getD s) := getD (applyBind hs) hs
    exact h'
  | airspaceUnbind _ a =>
    have h' : Paced s₀ ((s.applyUnbind a).getD s) := getD (applyUnbind hs) hs
    exact h'
  | _ => exact hs

theorem takeEffect {d : Deferred} (hs : Paced s₀ s) : Paced s₀ (s.takeEffect d) := by
  obtain ⟨i, k, owed⟩ := d
  have h (i : Instr) : Paced s₀ ((s.applySetting i).settle ⟨i, k, owed⟩ .ok) := settle (applySetting hs)
  induction i with
  | setCore => exact settle (ite hs hs)
  | setLead => exact settle hs
  | setBreaker => exact settle hs
  | setGranted => exact grantReply hs
  | removePlacement => exact settle (removePlacement hs)
  | tuneCommit _ p =>
    change Paced s₀ (match s.commitTune p with | some t => t.settle _ .ok | none => s.settle _ .noResource)
    cases h : s.commitTune p with
    | none => exact settle hs
    | some t => exact settle (commitTune hs t h)
  | routeTable => exact settle (gaugeLinks hs)
  | _ => exact h _

theorem lateLatch {d : Deferred} (hs : Paced s₀ s) : Paced s₀ (s.lateLatch d) := by
  obtain ⟨i, k, owed⟩ := d
  induction i with
  | sessionCancel => exact answerWith (foldl (fun _ _ => askCancel) hs)
  | sessionPause _ handle _ =>
    unfold State.lateLatch
    dsimp only
    cases s.named handle with
    | none => exact settle hs
    | some _ => exact ite (settle hs) (settle hs)
  | _ => exact hs

theorem beginSeqs (hs : Paced s₀ s) : Paced s₀ s.beginSeqs :=
  hs

theorem beginCells (hs : Paced s₀ s) : Paced s₀ s.beginCells :=
  forAll (fun _ _ hs => hs) hs

theorem equaliseAll {was : Nat} (hs : Paced s₀ s) : Paced s₀ (s.equaliseAll was) :=
  ite hs (forAll (fun _ _ hs => hs) hs)

theorem takeChosen (hs : Paced s₀ s) : Paced s₀ s.takeChosen :=
  forAll (fun _ _ hs => hs) hs

theorem takeSuspension {p : Nat} (hs : Paced s₀ s) : Paced s₀ (s.takeSuspension p) := by
  unfold State.takeSuspension
  split
  · exact hs
  · refine view (slotView_event ..) (forAll (fun t n ht => ?_) (updPlc hs))
    dsimp only
    split
    · exact pauseBare ht
    · exact pauseBare ht
    · exact view (slotView_endSession ..) ht
    · exact ite (pauseBare ht) (view (slotView_endSession ..) ht)
    · exact ht

theorem applyGrant {k p : Nat} (hs : Paced s₀ s) : Paced s₀ (s.applyGrant k p) := by
  unfold State.applyGrant
  dsimp only
  split
  · exact hs
  · exact ite hs hs

theorem loadField {f bank : Nat} (hs : Paced s₀ s) : Paced s₀ (s.loadField f bank) :=
  forAll (fun _ _ hs => hs) hs

theorem loadWoken {f : Nat} (hs : Paced s₀ s) : Paced s₀ (s.loadWoken f) := by
  unfold State.loadWoken
  dsimp only
  split
  · exact updField (loadField hs)
  · exact hs

theorem renameCores {p f c : Nat} (hs : Paced s₀ s) : Paced s₀ (s.renameCores p f c) :=
  updPlc (forAll (fun _ _ hs => (ite hs hs)) (forAll (fun _ _ hs => hs) hs))

theorem moveStaged {p f c : Nat} (hs : Paced s₀ s) : Paced s₀ (s.moveStaged p f c) :=
  ite (updBank (view (slotView_beginWrite ..) hs)) hs

theorem updStandby {f : Nat} {g : Bank → Bank} (hs : Paced s₀ s) : Paced s₀ (s.updStandby f g) :=
  hs

theorem startMirror {f h : Nat} (hs : Paced s₀ s) : Paced s₀ (s.startMirror f h) :=
  updStandby (view (slotView_beginWrite ..) hs)

theorem buildTwins {p : Nat} (hs : Paced s₀ s) : Paced s₀ (s.buildTwins p) :=
  ite hs (forAll (fun _ _ hs => (ite hs (by split; exacts [(startMirror hs), (view (slotView_event ..) hs)]))) (foldl (fun _ _ hs => (ite (startMirror hs) hs)) (forAll (fun s h hs => (by cases (s.field h).twinOf with | none => exact hs | some _ => exact (ite hs hs))) (forAll (fun s f hs => (by cases (s.field f).twinHolder with | none => exact hs | some _ => exact (ite hs hs))) hs))))

/-- One move completed. -/
theorem finishMove {k p : Nat} {m : Move} (hs : Paced s₀ s) : Paced s₀ (s.finishMove k p m) := by
  refine view (slotView_event ..) ?_
  generalize hx : State.updPlc _ _ _ = x
  have h : Paced s₀ x := by
    rw [← hx]
    exact updPlc (ite (releaseCores (updField (updField (renameCores hs)))) (moveStaged (updField (updField (renameCores hs)))))
  exact ite (view (slotView_sendGust ..) h) h

theorem finishMoves {k : Nat} (hs : Paced s₀ s) : Paced s₀ (s.finishMoves k) := by
  refine forAll (fun t p ht => ?_) hs
  have h : Paced s₀ (((t.plc p).moves.filter (t.moveDone k)).foldl (fun s m => s.finishMove k p m) t) := foldl (fun _ _ => finishMove) ht
  exact ite (ite h (updPlc h)) (setFilters (buildTwins (ite h (updPlc h))))

theorem ackGust {target : Nat} (hs : Paced s₀ s) : Paced s₀ (s.ackGust target) := by
  unfold State.ackGust
  split
  · exact hs
  · exact hs

theorem relocate {f : Nat} {survivors : List Nat} {e : Nat × Nat} (hs : Paced s₀ s) : Paced s₀ (State.relocate f survivors s e) := by
  unfold State.relocate
  dsimp only
  split
  · exact hs
  · split
    · exact hs
    · exact updField (updCore hs)

theorem absorbField {f : Nat} (hs : Paced s₀ s) : Paced s₀ (s.absorbField f) :=
  ite hs (updField (foldl (fun _ _ hs => hs) (foldl (fun _ _ hs => (foldl (fun _ _ => relocate) hs)) (ackGust hs))))

theorem refill {p : Nat} (hs : Paced s₀ s) : Paced s₀ (s.refill p) :=
  forAll (fun _ _ hs => (view (slotView_writeSampling ..) (view (slotView_writeMaps ..) hs))) (foldl (fun _ _ hs => (foldl (fun _ _ => reloadVersion) hs)) hs)

theorem relocations {k : Nat} (hs : Paced s₀ s) : Paced s₀ (s.relocations k) :=
  forAll (fun _ _ => refill) (forAll (fun _ _ => absorbField) (finishMoves hs))

theorem wakes (hs : Paced s₀ s) : Paced s₀ s.wakes :=
  forAll (fun _ _ hs => (ite hs hs)) hs

theorem resetField {f : Nat} (hs : Paced s₀ s) : Paced s₀ (s.resetField f) :=
  view (slotView_sendGust ..) (view (slotView_copyWindow ..) (gaugeWeights (gaugeFields hs)))

theorem stops (hs : Paced s₀ s) : Paced s₀ s.stops :=
  forAll (fun _ _ hs => (by split; exacts [(forAll (fun _ _ hs => hs) (view (slotView_setReach ..) hs)), (ite (resetField (gaugeFields (put (ite (view (slotView_banksDown ..) hs) hs)))) (gaugeFields (put (ite (view (slotView_banksDown ..) hs) hs)))), hs])) hs

theorem writeSetPoint {f band : Nat} (hs : Paced s₀ s) : Paced s₀ (s.writeSetPoint f band) :=
  hs

theorem stewardRails {level f : Nat} (hs : Paced s₀ s) : Paced s₀ (s.stewardRails level f) :=
  ite (writeSetPoint (ite hs hs)) (ite hs hs)

theorem learnForecast {f : Nat} (hs : Paced s₀ s) : Paced s₀ (s.learnForecast f) := by
  unfold State.learnForecast
  split
  · exact hs
  · exact hs
  · exact updField hs

theorem gaugeRouter {u : Nat} (hs : Paced s₀ s) : Paced s₀ (s.gaugeRouter u) :=
  hs

theorem swapTables {u : Nat} (hs : Paced s₀ s) : Paced s₀ (s.swapTables u) :=
  ite (gaugeRouter (updRouter (ackGust hs))) hs

theorem releaseClaims {t : Transfer} (hs : Paced s₀ s) : Paced s₀ (s.releaseClaims t) := by
  unfold State.releaseClaims
  dsimp only
  split
  · exact hs
  · exact updPlc (forAll (fun _ _ hs => hs) hs)
  · exact forAll (fun _ _ hs => hs) hs
  · exact hs

theorem dropTune {p : Nat} (hs : Paced s₀ s) : Paced s₀ (s.dropTune p) :=
  view (slotView_gaugeTune ..) (updPlc (view (slotView_freeAreas ..) (view (slotView_freeTuneRegions ..) hs)))

theorem sendChunkAck {airspace source transfer result chunk done : Nat} (hs : Paced s₀ s) : Paced s₀ (s.sendChunkAck airspace source transfer result chunk done) :=
  sendDatagram hs

theorem chunkAck {t : Transfer} {result chunk : Nat} (hs : Paced s₀ s) : Paced s₀ (s.chunkAck t result chunk) :=
  sendChunkAck hs

/-- What a transfer left to write is dropped. -/
theorem unqueued {t : Transfer} (hs : Paced s₀ s) : Paced s₀ (s.unqueued t) := by
  unfold State.unqueued
  split
  · exact hs
  · exact forAll (fun _ _ => updField) hs

/-- A transfer that failed gives back what it had. -/
theorem givenBack {t : Transfer} (hs : Paced s₀ s) : Paced s₀ (s.givenBack t) := by
  unfold State.givenBack
  split
  · exact releaseClaims hs
  · exact buildTwins (releaseClaims hs)
  · exact releaseClaims hs
  · split
    · exact hs
    · exact releaseVersion hs
  · exact dropTune hs
  · exact hs

theorem endTransfer {t : Transfer} {st : Status} (hs : Paced s₀ s) : Paced s₀ (s.endTransfer t st) := by
  rw [endTransfer_eq]
  have h := unqueued (t := t) (s := s.forgotten t) hs
  have hb : Paced s₀ (if st == .ok then (s.forgotten t).unqueued t else ((s.forgotten t).unqueued t).givenBack t) := ite h (givenBack h)
  exact ite (gaugeWeights (chunkAck hb)) (view (slotView_finalReply ..) (gaugeWeights (chunkAck hb)))

theorem adaptersCurrent {k : Nat} (hs : Paced s₀ s) : Paced s₀ (s.adaptersCurrent k) := by
  refine sweepAdapters (forAll (fun _ _ => foldl fun t e ht => ?_) hs)
  split
  · exact ht
  · dsimp only
    split
    · exact updPlc ht
    · exact endTransfer (updPlc ht)

theorem readyPrefixes {k : Nat} (hs : Paced s₀ s) : Paced s₀ (s.readyPrefixes k) :=
  forAll (fun s a hs => (foldl (fun s e hs => (ite (by cases ((s.asp a).prefixes.getD e { }).registrant with | none => exact hs | some _ => exact (view (slotView_writeMaps ..) hs)) hs)) hs)) hs

theorem holdPauses (hs : Paced s₀ s) : Paced s₀ s.holdPauses :=
  forAll (fun _ _ hs => hs) (forAll (fun _ _ hs => (view (slotView_releaseKv ..) hs)) hs)

theorem beginPrefills {k : Nat} (hs : Paced s₀ s) : Paced s₀ (s.beginPrefills k) :=
  forAll (fun _ _ hs => (ite (ite hs hs) (ite hs hs))) hs

theorem regainRegion {n : Nat} (hs : Paced s₀ s) : Paced s₀ (s.regainRegion n) :=
  ite hs (by cases s.regionClass (s.sess n).placement (s.sess n).airspace (s.sess n).cls [] with | none => exact hs | some _ => exact (view (slotView_takeRegions ..) hs))

theorem rebuildKv {k : Nat} (hs : Paced s₀ s) : Paced s₀ (s.rebuildKv k) := by
  refine forAll (fun t n ht => ?_) hs
  have h : Paced s₀ (if (t.sess n).rebuilding && (t.sess n).pos = 0 then t.regainRegion n else t) := ite (regainRegion ht) ht
  exact ite (ite (updSess h) h) (ite h (bookAgain h))

theorem applyRoles {p : Nat} {i : Image} (hs : Paced s₀ s) : Paced s₀ (s.applyRoles p i) :=
  forAll (fun _ _ hs => (by split; exacts [hs, (ite hs (updField (releaseCores hs)))])) hs

theorem writeGroups {p : Nat} (hs : Paced s₀ s) : Paced s₀ (s.writeGroups p) := by
  unfold State.writeGroups
  cases (s.plc p).image with
  | none => exact hs
  | some _ => exact forAll (fun _ _ hs => hs) hs

theorem loadPlan {p : Nat} (hs : Paced s₀ s) : Paced s₀ (s.loadPlan p) :=
  forAll (fun _ _ hs => (updField (foldl (fun _ _ hs => hs) (loadField (ackGust hs))))) (by cases (s.plc p).image with | none => exact hs | some _ => exact (writeGroups hs))

theorem planInForce {p : Nat} {plan : Plan} {restart : Bool} (hs : Paced s₀ s) : Paced s₀ (s.planInForce p plan restart) :=
  gaugeDrain (gaugePlan (period (ite hs hs)))

theorem flipSessions {p : Nat} (hs : Paced s₀ s) : Paced s₀ (s.flipSessions p) :=
  ite (forAll (fun _ _ => dropPrefixes) (forAll (fun _ _ hs => (updSess (view (slotView_dropPause ..) (view (slotView_releaseKv ..) hs)))) hs)) (view (slotView_failTune ..) (forAll (fun _ _ => dropPrefixes) (forAll (fun _ _ hs => (updSess (view (slotView_dropPause ..) (view (slotView_releaseKv ..) hs)))) hs)))

theorem flipAdapters {p : Nat} {i : Image} (hs : Paced s₀ s) : Paced s₀ (s.flipAdapters p i) := by
  refine foldl (fun _ _ hs => ite (foldl (fun t v ht => ?_) hs) (foldl (fun _ _ => releaseVersion) (foldl (fun _ _ => view (slotView_event ..)) hs))) hs
  dsimp only
  split
  · exact ht
  · exact tagSlot (fillSlot ht)

theorem carveAll {p : Nat} (hs : Paced s₀ s) : Paced s₀ (s.carveAll p) :=
  forAll (fun _ _ hs => (getD (carve hs) hs)) hs

theorem switchBank {p : Nat} {d : Drain} (hs : Paced s₀ s) : Paced s₀ (s.switchBank p d) := by
  unfold State.switchBank
  cases (s.plc p).staged with
  | none => exact hs
  | some _ => exact ite (view (slotView_finalReply ..) (gaugeDrain hs)) (view (slotView_finalReply ..) (gaugeDrain (gaugeFields (gaugeWeights (setFilters (buildTwins (updPlc (forAll (fun _ _ hs => hs) (by cases if (s.plc p).live = true then (s.plc p).image else none with | none => exact (updPlc (carveAll (flipAdapters (flipSessions (planInForce (updPlc (loadPlan (writeAliases (forAll (fun _ _ hs => hs) (updPlc (applyRoles hs))))))))))) | some _ => exact (updPlc (forAll (fun _ _ hs => hs) (carveAll (flipAdapters (flipSessions (planInForce (updPlc (loadPlan (writeAliases (forAll (fun _ _ hs => hs) (updPlc (applyRoles hs)))))))))))))))))))))

theorem applyPlanLoad {p : Nat} {d : Drain} (hs : Paced s₀ s) : Paced s₀ (s.applyPlanLoad p d) := by
  unfold State.applyPlanLoad
  split
  · exact view (slotView_finalReply ..) (gaugeDrain (planInForce (loadPlan hs)))
  · exact hs

theorem completeDrain {p : Nat} (hs : Paced s₀ s) : Paced s₀ (s.completeDrain p) := by
  unfold State.completeDrain
  cases (s.plc p).drain with
  | none => exact hs
  | some _ => exact ite hs (forAll (fun _ _ => swapTables) (ite (switchBank hs) (applyPlanLoad hs)))

theorem takeDrains (hs : Paced s₀ s) : Paced s₀ s.takeDrains :=
  forAll (fun _ _ => completeDrain) hs

theorem beginRound {k p ph : Nat} (hs : Paced s₀ s) : Paced s₀ (s.beginRound k p ph) :=
  updPlc (ite hs (foldl (fun _ _ hs => (ite hs (ite hs (ite (ite hs (updPlc (becomePaused hs))) (ite (updPlc (view (slotView_endSession ..) hs)) hs))))) hs))

theorem rounds {k : Nat} (hs : Paced s₀ s) : Paced s₀ (s.rounds k) :=
  forAll (fun _ _ hs => (ite hs (forAll (fun _ _ hs => (ite (beginRound hs) hs)) hs))) hs

theorem markStalls {k : Nat} (hs : Paced s₀ s) : Paced s₀ (s.markStalls k) :=
  forAll (fun _ _ hs => (ite hs hs)) (forAll (fun _ _ hs => (ite (ite hs hs) (ite hs hs))) hs)

theorem enqueue {n vc : Nat} {f : ObtikFrame} (hs : Paced s₀ s) : Paced s₀ (s.enqueue n vc f) :=
  view (slotView_pump ..) hs

theorem sendLink {h : LinkHdr} {words : List Flit} (hs : Paced s₀ s) : Paced s₀ (s.sendLink h words).1 := by
  unfold State.sendLink
  split
  · exact hs
  · exact enqueue hs

/-- What a port that is down still holds leaves by another. -/
theorem reroute {n : Nat} (hs : Paced s₀ s) : Paced s₀ (s.reroute n) := by
  refine foldl (fun _ _ hs => foldl (fun t f ht => ?_) (updPort hs)) hs
  exact ite (sendLink ht) (updPort ht)

theorem linkBoundary (hs : Paced s₀ s) : Paced s₀ s.linkBoundary := by
  rw [linkBoundary_eq]
  refine ite hs ?_
  dsimp only
  generalize hx : State.forAll _ _ State.reroute = x
  have h : Paced s₀ x := by
    rw [← hx]
    exact forAll (fun _ _ => reroute) (foldl (fun _ _ => updLinks) (updLinks hs))
  exact ite h (gaugeLinks h)

theorem takeChanges {k level : Nat} (hs : Paced s₀ s) : Paced s₀ (s.takeChanges k level) := by
  unfold State.takeChanges
  refine linkBoundary (beginPrefills (rebuildKv (takeDrains (rounds (markStalls (adaptersCurrent (readyPrefixes (holdPauses ?_))))))))
  refine forAll (fun _ _ => updAsp) (forAll (fun _ _ => swapTables) ?_)
  refine setCores (forAll (fun _ _ hs => ite (updField (stewardRails (learnForecast hs))) hs) (wakes (stops (relocations ?_))))
  refine forAll (fun _ _ => loadWoken) (forAll (fun _ _ => applyGrant) (equaliseAll (takeChosen ?_)))
  exact forAll (fun _ _ => takeSuspension) hs

theorem sendVector {v : Nat} (hs : Paced s₀ s) : Paced s₀ (s.sendVector v) :=
  ite hs hs

theorem signal (hs : Paced s₀ s) : Paced s₀ s.signal :=
  ite hs (foldl (fun _ _ hs => (ite (sendVector hs) hs)) hs)

theorem gaugeKv (hs : Paced s₀ s) : Paced s₀ s.gaugeKv :=
  forAll (fun _ _ hs => (ite hs (forAll (fun _ _ hs => hs) hs))) hs

theorem gaugeLanes (hs : Paced s₀ s) : Paced s₀ s.gaugeLanes :=
  forAll (fun _ _ hs => hs) hs

theorem gaugeSessions (hs : Paced s₀ s) : Paced s₀ s.gaugeSessions :=
  forAll (fun _ _ hs => hs) hs

theorem gaugeBoundary (hs : Paced s₀ s) : Paced s₀ s.gaugeBoundary :=
  gaugeDrain (gaugePlan (gaugeFields (gaugeWeights (gaugeCloud (gaugeKv (gaugeLanes (gaugeSessions hs)))))))

theorem freeDests (hs : Paced s₀ s) : Paced s₀ s.freeDests :=
  forAll (fun _ _ hs => hs) hs

theorem foldEnds (hs : Paced s₀ s) : Paced s₀ s.foldEnds :=
  forAll (fun _ _ hs => hs) hs

theorem enterHoldover (hs : Paced s₀ s) : Paced s₀ s.enterHoldover := by
  unfold State.enterHoldover
  exact ite hs (view (slotView_event ..) (mark (updTick rfl hs)))

theorem watchForce (hs : Paced s₀ s) : Paced s₀ s.watchForce :=
  ite hs (ite hs (by split; exacts [hs, (ite hs (ite (enterHoldover hs) hs))]))

theorem countForced (hs : Paced s₀ s) : Paced s₀ s.countForced :=
  ite (bump (ite (bump (view (slotView_forcing ..) hs)) (view (slotView_forcing ..) hs))) (ite (bump (view (slotView_forcing ..) hs)) (view (slotView_forcing ..) hs))

theorem writeRows {k : Nat} (hs : Paced s₀ s) : Paced s₀ (s.writeRows k) :=
  forAll (fun _ _ hs => (ite hs (forAll (fun _ _ hs => hs) hs))) hs

end Sys2Proof.Machine.Paced
end

section
/-! SUPPORT. What shows the count, and whether ticks run, once a boundary has set it (R49, R59). -/

namespace Sys2Proof.Machine
open Sys2Proof

/-- A register stands. -/
def RegKept (a : Nat) (s t : State) : Prop := t.reg a = s.reg a

namespace RegKept
variable {a : Nat} {s₀ s : State}

theorem put {f : Fld} {v : Nat} (hf : f.addr ≠ a) (h : RegKept a s₀ s) : RegKept a s₀ (s.put f v) :=
  (State.reg_put_other s f v a hf.symm).trans h

theorem ite {c : Prop} [Decidable c] {t u : State} (ht : RegKept a s₀ t) (hu : RegKept a s₀ u) : RegKept a s₀ (if c then t else u) := by
  split <;> assumption

theorem foldl {α : Type} {l : List α} {g : State → α → State} (hg : ∀ t, ∀ x ∈ l, RegKept a s₀ t → RegKept a s₀ (g t x)) (h : RegKept a s₀ s) :
    RegKept a s₀ (l.foldl g s) := by
  induction l generalizing s with
  | nil => exact h
  | cons x l ih => exact ih (fun t y hy => hg t y (List.mem_cons_of_mem x hy)) (hg s x List.mem_cons_self h)

theorem forAll {l : List Nat} {g : State → Nat → State} (hg : ∀ t, ∀ n ∈ l, RegKept a s₀ t → RegKept a s₀ (g t n)) (h : RegKept a s₀ s) :
    RegKept a s₀ (s.forAll l g) := foldl hg h

/-- A row of registers that begins above the address. -/
theorem above {b k n : Nat} (h : a < b) : b + k * n ≠ a := by omega

/-- A row of registers in a field's window above the address. -/
theorem aboveIn {b f k n : Nat} (h : a < b) : b + 0x10000 * f + k * n ≠ a := by omega

/-- One of the first m places of a row of registers that ends below the address. -/
theorem below {b k n m : Nat} (hn : n ∈ List.range m) (h : b + k * m ≤ a) (hk : 0 < k) : b + k * n ≠ a := by
  have := Nat.mul_lt_mul_of_pos_left (List.mem_range.1 hn) hk
  omega

theorem gaugeCloud (ha : a < 0x740000) (h : RegKept a s₀ s) : RegKept a s₀ s.gaugeCloud := by
  have h1 : a < 0x740020 := by omega
  have h2 : a < 0x740100 := by omega
  refine forAll (fun _ _ _ => put (above h2)) (put (Nat.ne_of_gt ha) (forAll (fun _ _ _ h => ?_) h))
  exact put (above (by omega)) (put (above (by omega)) (put (above (by omega)) (put (above h1) h)))

/-! ### The count's register, over the other gauges of a boundary -/

theorem gaugeSessions (h : RegKept 0x10000 s₀ s) : RegKept 0x10000 s₀ s.gaugeSessions :=
  forAll (fun _ _ hn h => put (above (by decide)) (put (below hn (by decide) (by decide)) (put (below hn (by decide) (by decide))
    (put (below hn (by decide) (by decide)) (put (below hn (by decide) (by decide)) (put (below hn (by decide) (by decide)) h)))))) h

theorem gaugeLanes (h : RegKept 0x10000 s₀ s) : RegKept 0x10000 s₀ s.gaugeLanes :=
  forAll (fun _ _ hn h => put (below hn (by decide) (by decide)) (put (below hn (by decide) (by decide)) (put (below hn (by decide) (by decide))
    (put (below hn (by decide) (by decide)) (put (below hn (by decide) (by decide)) (put (below hn (by decide) (by decide))
      (put (below hn (by decide) (by decide)) h))))))) h

theorem gaugeKv (h : RegKept 0x10000 s₀ s) : RegKept 0x10000 s₀ s.gaugeKv :=
  forAll (fun _ _ _ h => ite h (forAll (fun _ _ _ h => put (aboveIn (by decide)) (put (aboveIn (by decide)) (put (aboveIn (by decide))
    (put (aboveIn (by decide)) (put (aboveIn (by decide)) (put (aboveIn (by decide)) (put (aboveIn (by decide)) (put (aboveIn (by decide))
      (put (aboveIn (by decide)) (put (aboveIn (by decide)) h)))))))))) h)) h

theorem gaugeWeights (h : RegKept 0x10000 s₀ s) : RegKept 0x10000 s₀ s.gaugeWeights := by
  refine forAll (fun _ _ _ h => ite h (put (above (by decide)) (put (above (by decide)) (put (above (by decide)) (put (above (by decide)) h)))))
    (forAll (fun t p hn ht => ?_) h)
  have low (b : Nat) (hb : b + 0x40 * 4 ≤ 0x10000) : b + 0x40 * p ≠ 0x10000 := below hn hb (by decide)
  refine put (low _ (by decide)) (put (low _ (by decide)) (put (low _ (by decide)) (put (low _ (by decide)) (put (low _ (by decide)) ?_))))
  exact put (low _ (by decide)) (put (low _ (by decide)) (put (low _ (by decide)) (put (low _ (by decide)) (put (low _ (by decide)) ht))))

theorem gaugeFields (h : RegKept 0x10000 s₀ s) : RegKept 0x10000 s₀ s.gaugeFields :=
  forAll (fun _ _ _ h => ite h (put (above (by decide)) (put (above (by decide)) (put (above (by decide)) (put (above (by decide))
    (put (above (by decide)) (put (above (by decide)) h))))))) h

theorem gaugePlan (h : RegKept 0x10000 s₀ s) : RegKept 0x10000 s₀ s.gaugePlan :=
  forAll (fun _ _ _ h => put (above (by decide)) (put (above (by decide)) (put (above (by decide)) (put (above (by decide))
    (put (above (by decide)) (put (above (by decide)) (put (above (by decide)) h))))))) h

theorem gaugeDrain (h : RegKept 0x10000 s₀ s) : RegKept 0x10000 s₀ s.gaugeDrain :=
  put (show 0x10008 ≠ 0x10000 by decide) (put (show 0x10014 ≠ 0x10000 by decide)
    (forAll (fun _ _ hn h => put (below hn (by decide) (by decide)) (put (below hn (by decide) (by decide)) h)) h))

theorem signal (h : RegKept 0x10000 s₀ s) : RegKept 0x10000 s₀ s.signal :=
  ite h (foldl (fun _ _ _ h => ite (ite (put (show 0x51800 ≠ 0x10000 by decide) h) (put (show 0x51800 ≠ 0x10000 by decide) h)) h) h)

end RegKept
end Sys2Proof.Machine
end

section
/-! PROOFS. O11, boundaries (R48, R49). -/

namespace Sys2Proof.Machine
open Sys2Proof

/-! ### A boundary that runs -/

/-- The tick that ends: what it computed, its batches and acknowledgements, and the orders that fall due. -/
noncomputable def State.tickEnded (s : State) (k : Nat) : State :=
  let s := (s.endTick k).fillBuckets.releaseBatches
  let latched := s.takeDue k Deferred.latches
  let s := ((latched.1.foldl State.lateLatch latched.2).latchAll k).releaseAcks k
  let due := s.takeDue k fun d => !d.latches
  due.1.foldl State.takeEffect due.2

/-- The first part of the tick that begins: the changes of its boundary, its rows and records. -/
noncomputable def State.tickBegun (s : State) (k level : Nat) : State :=
  let s := (s.takeChanges k level).beginCells.beginSeqs
  let s := s.forAll (List.range 8) fun s a => s.updAsp a AirspaceSt.settlePages
  ((s.writeRows k).countForced.watchForce).foldEnds.freeDests

/-- Slots that a boundary found unserved in a row (R28). -/
noncomputable def State.missedAt (s : State) : Nat := if s.tick.slotDone || !s.tick.started || !s.tick.running then 0 else s.boot.missedSlots + 1

/-- The count, the level and the running of the tick that begins, set. -/
noncomputable def State.begin (s : State) (k next : Nat) : State :=
  (s.updBoot fun b => { b with missedSlots := if b.restartWindow then 0 else s.missedAt }).updTick fun t => { t with
    count := k, level := next, started := true, running := true, slotDone := false }

/-- What a boundary does, once the field under test has been dropped where the ladder asks for it. -/
theorem runTick_eq (s : State) (next : Nat) : ∃ t, Paced s t ∧
    s.runTick next = (((t.tickEnded s.nextCount).begin s.nextCount next).tickBegun s.nextCount s.tick.level).gaugeBoundary.signal := by
  by_cases hl : s.power.ladder = 0
  · refine ⟨s, rfl, ?_⟩
    unfold State.runTick State.takeDue State.tickBegun State.begin State.missedAt State.tickEnded State.takeDue
    rw [if_pos hl]
  cases hf : s.start.testField with
  | none =>
    refine ⟨s, rfl, ?_⟩
    unfold State.runTick State.takeDue State.tickBegun State.begin State.missedAt State.tickEnded State.takeDue
    rw [if_neg hl, hf]
  | some f =>
    refine ⟨s.abandonTest f, Paced.view (slotView_abandonTest ..) rfl, ?_⟩
    unfold State.runTick State.takeDue State.tickBegun State.begin State.missedAt State.tickEnded State.takeDue
    rw [if_neg hl, hf]

theorem Paced.takeDue {s₀ s : State} {k : Nat} {which : Deferred → Bool} (hs : Paced s₀ s) : Paced s₀ (s.takeDue k which).2 := hs

theorem Paced.tickEnded {s₀ s : State} {k : Nat} (hs : Paced s₀ s) : Paced s₀ (s.tickEnded k) := by
  unfold State.tickEnded
  refine Paced.foldl (fun _ _ h => Paced.takeEffect h) (Paced.takeDue (Paced.releaseAcks (Paced.latchAll ?_)))
  exact Paced.foldl (fun _ _ h => Paced.lateLatch h) (Paced.takeDue (Paced.releaseBatches (Paced.fillBuckets (Paced.endTick hs))))

theorem Paced.tickBegun {s₀ s : State} {k level : Nat} (hs : Paced s₀ s) : Paced s₀ (s.tickBegun k level) := by
  unfold State.tickBegun
  refine Paced.freeDests (Paced.foldEnds (Paced.watchForce (Paced.countForced (Paced.writeRows ?_))))
  exact Paced.forAll (fun _ _ => Paced.updAsp) (Paced.beginSeqs (Paced.beginCells (Paced.takeChanges hs)))

/-- A boundary that runs: the tick that begins has the coming count and the level of its word, and its count's register shows it (R49, R59). -/
structure Began (s t : State) (next : Nat) : Prop where
  pace : t.tick.pace = ((s.nextCount, next), (true, true, false), s.tick.wall480)
  shown : t.get Reg.Tick.TCK_COUNT_LO = s.nextCount % 2 ^ 32

theorem gaugeTick_count (s : State) : s.gaugeTick.get Reg.Tick.TCK_COUNT_LO = s.tick.count % 2 ^ 32 := by
  have hr : RegKept 0x10000 (s.put Reg.Tick.TCK_COUNT_LO (s.tick.count % 2 ^ 32)) s.gaugeTick :=
    .put (by decide) (.put (by decide) (.put (by decide) (.put (by decide) (.put (by decide) rfl))))
  refine (congrArg (fun w : W32 => bits w.toNat 31 0) hr).trans ((State.get_put_mod s Reg.Tick.TCK_COUNT_LO _ (by decide) (by decide)).trans ?_)
  exact Nat.mod_mod_of_dvd _ (dvd_refl _)

theorem runTick_began (s : State) (next : Nat) : Began s (s.runTick next) next := by
  obtain ⟨t, ht, he⟩ := runTick_eq s next
  rw [he]
  have hu : Paced s (t.tickEnded s.nextCount) := Paced.tickEnded ht
  generalize t.tickEnded s.nextCount = u at hu ⊢
  have hw : u.tick.wall480 = s.tick.wall480 := congrArg (fun p => p.2.2) hu
  have hb : (u.begin s.nextCount next).tick.pace = ((s.nextCount, next), (true, true, false), s.tick.wall480) := by
    rw [← hw]
    rfl
  generalize u.begin s.nextCount next = v at hb ⊢
  have hx : Paced v (v.tickBegun s.nextCount s.tick.level) := Paced.tickBegun rfl
  generalize v.tickBegun s.nextCount s.tick.level = x at hx ⊢
  refine ⟨Eq.trans (Paced.signal (Paced.gaugeBoundary hx)) hb, ?_⟩
  have hc : x.tick.count = s.nextCount := congrArg (fun p => p.1.1) (Eq.trans hx hb)
  have hr : RegKept 0x10000 x.gaugeTick x.gaugeBoundary.signal := by
    unfold State.gaugeBoundary
    exact .signal (.gaugeDrain (.gaugePlan (.gaugeFields (.gaugeWeights (.gaugeCloud (show 0x10000 < 0x740000 by decide) (.gaugeKv (.gaugeLanes (.gaugeSessions rfl))))))))
  rw [← hc, ← gaugeTick_count x]
  exact congrArg (fun w : W32 => bits w.toNat 31 0) hr

/-! ### The power state around Lull -/

/-- What the way to Lull and back leaves as it stands. -/
noncomputable def State.standing (s : State) : TickSt × LinksSt × Tbl Desc × Tbl FieldSt × Tbl PlacementSt :=
  (s.tick, s.links, s.sessions, s.fields, s.placements)

/-- The power state moved, and who ordered it was told. -/
structure PowerMoved (s t : State) (p : PowerSt) : Prop where
  power : t.start.power = p
  standing : t.standing = s.standing
  shown : ∀ a, a < 0x740000 → a ∉ answerRegs → a ≠ Reg.Glob.POWER_STATE.addr → t.reg a = s.reg a

theorem setPowerSt_moved (s : State) (p : PowerSt) (h : s.start.power ≠ p) : PowerMoved s (s.setPowerSt p) p := by
  unfold State.setPowerSt State.platformEvent
  rw [if_neg (by simpa using h)]
  have hr (a : Nat) (hp : a ≠ Reg.Glob.POWER_STATE.addr) := State.reg_put_other (s.updStart fun x => { x with power := p }) Reg.Glob.POWER_STATE p.code a hp
  split
  · exact ⟨rfl, rfl, fun a _ _ => hr a⟩
  · exact ⟨rfl, rfl, fun a _ _ => hr a⟩

theorem PowerMoved.stacksTo {s t : State} {p : PowerSt} (h : PowerMoved s t p) (old new : StackState) : PowerMoved s (t.stacksTo old new) p :=
  ⟨h.power, h.standing, h.shown⟩

theorem PowerMoved.gaugeCloud {s t : State} {p : PowerSt} (h : PowerMoved s t p) : PowerMoved s t.gaugeCloud p := by
  have hg := eq_of_sansRegs (gaugeCloud_sansRegs t)
  have hr (a : Nat) (ha : a < 0x740000) : t.gaugeCloud.reg a = t.reg a := RegKept.gaugeCloud ha rfl
  generalize t.gaugeCloud = u at hg hr
  exact ⟨(congrArg (fun u => u.start.power) hg).trans h.power, (congrArg State.standing hg).trans h.standing,
    fun a ha hn hp => (hr a ha).trans (h.shown a ha hn hp)⟩

theorem PowerMoved.arrived {s t : State} {p : PowerSt} (h : PowerMoved s t p) : PowerMoved s t.arrived p := by
  unfold State.arrived
  split
  · exact h
  · next seq src op _ =>
    have hf := reply_frame (t.updStart fun x => { x with powerCmd := none }) src { seq := seq, opcode := op, status := .ok, final := true }
    exact ⟨(congrArg (fun u => u.start.power) hf.frame).trans h.power, (congrArg State.standing hf.frame).trans h.standing,
      fun a ha hn hp => (hf.regs a hn).trans (h.shown a ha hn hp)⟩

/-! ### Ticks stop and run again -/

/-- Ticks no longer run, and no word orders or ends a Lull. -/
noncomputable def State.halted (s : State) : State := s.updTick fun t => { t with running := false, lullAsked := false, lullLate := false, lullEndAsked := false }

/-- The registers show that ticks do not run. -/
noncomputable def State.haltShown (s : State) : State := (s.halted.put Reg.Tick.RUNNING 0).put Reg.Tick.LULL 1

theorem haltShown_get (s : State) : s.haltShown.get Reg.Tick.LULL = 1 ∧ s.haltShown.get Reg.Tick.RUNNING = 0 :=
  ⟨State.get_put_mod _ Reg.Tick.LULL 1 (by decide) (by decide),
    (State.get_put_apart (s.halted.put Reg.Tick.RUNNING 0) Reg.Tick.LULL Reg.Tick.RUNNING 1 (by decide) (by decide) (by decide) (by decide)).trans
      (State.get_put_mod _ Reg.Tick.RUNNING 0 (by decide) (by decide))⟩

theorem Paced.stopTicks (s : State) : Paced s.halted s.stopTicks := by
  unfold State.stopTicks
  refine .ite (.beginOvercast (.setPowerSt rfl)) (.ite (.ite (.arrived ?_) (.updTick rfl ?_)) rfl)
  all_goals exact .gaugeCloud (.stacksTo (.setPowerSt rfl))

theorem stopTicks_active (s : State) (hp : s.start.power = .active) (ht : s.start.target = none) :
    ∃ t, PowerMoved s.haltShown t .lull ∧ (s.stopTicks = t ∨ s.stopTicks = t.updTick fun x => { x with lullEndAsked := true }) := by
  have hne : s.haltShown.start.power ≠ .lull := by
    rw [show s.haltShown.start.power = .active from hp]
    decide
  have hm : PowerMoved s.haltShown ((s.haltShown.setPowerSt .lull).stacksTo .active .powerDown).gaugeCloud .lull :=
    ((setPowerSt_moved _ _ hne).stacksTo _ _).gaugeCloud
  have he : s.stopTicks = if (((s.haltShown.setPowerSt .lull).stacksTo .active .powerDown).gaugeCloud).lullCause then
      (((s.haltShown.setPowerSt .lull).stacksTo .active .powerDown).gaugeCloud).arrived
      else (((s.haltShown.setPowerSt .lull).stacksTo .active .powerDown).gaugeCloud).updTick fun x => { x with lullEndAsked := true } := by
    unfold State.stopTicks
    refine (if_neg ?_).trans (if_pos ?_)
    · change ¬(s.start.target == some .overcast || s.start.target == some .standby) = true
      rw [ht]
      decide
    · change (s.start.power == .active) = true
      rw [hp]
      rfl
  generalize ((s.haltShown.setPowerSt .lull).stacksTo .active .powerDown).gaugeCloud = t at hm he
  rw [he]
  split
  · exact ⟨t.arrived, hm.arrived, .inl rfl⟩
  · exact ⟨t, hm, .inr rfl⟩

/-- The word of the boundary at which ticks run again, as the state stands. -/
noncomputable def State.resumed (s : State) : State :=
  let late := s.tick.lullLate
  let s := s.updTick fun t => { t with running := true, lullEndAsked := false, lullAsked := late, lullLate := false, slotDone := true }
  (s.put Reg.Tick.RUNNING 1).put Reg.Tick.LULL 0

theorem PowerMoved.nextCount {s t : State} {p : PowerSt} (h : PowerMoved s t p) : t.nextCount = s.nextCount := by
  have ht : t.tick = s.tick := congrArg Prod.fst h.standing
  have hl : t.links = s.links := congrArg (fun x => x.2.1) h.standing
  unfold State.nextCount State.following
  rw [ht, hl]

theorem restartTicks_eq (s : State) : ∃ t : State, s.restartTicks = t.runTick s.levelToCome ∧ t.nextCount = s.nextCount ∧ t.tick.wall480 = s.tick.wall480 := by
  have he : s.restartTicks =
      (if s.resumed.start.power == .lull then (((s.resumed.setPowerSt .active).stacksTo .powerDown .active).gaugeCloud).arrived else s.resumed).runTick s.levelToCome := rfl
  rw [he]
  refine ⟨_, rfl, ?_⟩
  split
  case isFalse => exact ⟨rfl, rfl⟩
  case isTrue h =>
    have hne : s.resumed.start.power ≠ .active := by
      rw [show s.resumed.start.power = .lull by simpa using h]
      decide
    have hm := (((setPowerSt_moved s.resumed .active hne).stacksTo .powerDown .active).gaugeCloud).arrived
    exact ⟨Eq.trans hm.nextCount rfl, Eq.trans (congrArg (fun x => x.1.wall480) hm.standing) rfl⟩

/-! ### A boundary of the grid -/

/-- The wall clock moves over the tick that ends, and the word is still to come (R46, R48). -/
noncomputable def State.clocked (s : State) : State :=
  s.updTick fun t => { t with wall480 := t.wall480 + tickNs480 t.period t.level, wordEmitted := false }

theorem opBoundary_eq (s : State) (ho : s.start.power ≠ .off) (hs : s.start.power ≠ .standby) : opBoundary s =
    if s.tick.running then
      if s.tick.lullAsked then s.clocked.takeSnapshots.stopTicks
      else (s.clocked.takeSnapshots.updTick fun t => { t with lullAsked := s.tick.lullLate, lullLate := false }).runTick s.levelToCome
    else if s.tick.lullEndAsked then s.clocked.restartTicks
    else if s.tick.lullLate then s.clocked.updTick fun t => { t with lullEndAsked := true, lullLate := false }
    else s.clocked := by
  unfold opBoundary
  refine (if_neg ?_).trans rfl
  simp [ho, hs]

theorem opBoundary_runs (s : State) (ho : s.start.power ≠ .off) (hs : s.start.power ≠ .standby)
    (h : (s.tick.running = true ∧ s.tick.lullAsked = false) ∨ (s.tick.running = false ∧ s.tick.lullEndAsked = true)) :
    ∃ t : State, opBoundary s = t.runTick s.levelToCome ∧ t.nextCount = s.nextCount ∧ t.tick.wall480 = s.clocked.tick.wall480 := by
  rw [opBoundary_eq s ho hs]
  obtain ⟨hr, ha⟩ | ⟨hr, he⟩ := h
  · rw [if_pos hr, if_neg (by simp [ha])]
    exact ⟨_, rfl, rfl, rfl⟩
  · rw [if_neg (by simp [hr]), if_pos he]
    obtain ⟨t, ht, hc, hw⟩ := restartTicks_eq s.clocked
    exact ⟨t, Eq.trans ht rfl, hc, hw⟩

theorem opBoundary_stops (s : State) (ho : s.start.power ≠ .off) (hs : s.start.power ≠ .standby) (hr : s.tick.running = true)
    (ha : s.tick.lullAsked = true) : opBoundary s = s.clocked.takeSnapshots.stopTicks := by
  rw [opBoundary_eq s ho hs, if_pos hr, if_pos ha]

theorem opBoundary_stands (s : State) (ho : s.start.power ≠ .off) (hs : s.start.power ≠ .standby) (hr : s.tick.running = false)
    (he : s.tick.lullEndAsked = false) : ∃ x : TickSt, opBoundary s = { s with tick := x } ∧ x.running = false ∧ x.count = s.tick.count
      ∧ x.lullEndAsked = s.tick.lullLate ∧ x.lullLate = false := by
  rw [opBoundary_eq s ho hs, if_neg (by simp [hr]), if_neg (by simp [he])]
  split
  · next hl => exact ⟨_, rfl, hr, rfl, hl.symm, rfl⟩
  · next hl =>
    have hl : s.tick.lullLate = false := by simpa using hl
    exact ⟨_, rfl, hr, rfl, Eq.trans he hl.symm, hl⟩

theorem opBoundary_lull (s : State) (ho : s.start.power = .active) (ht : s.start.target = none) (hr : s.tick.running = true)
    (ha : s.tick.lullAsked = true) : ∃ t : State, opBoundary s = t ∧ t.tick.running = false ∧ t.tick.count = s.tick.count
      ∧ t.tick.wall480 = s.clocked.tick.wall480 ∧ t.start.power = .lull ∧ t.get Reg.Tick.LULL = 1 ∧ t.get Reg.Tick.RUNNING = 0
      ∧ t.sessions = s.sessions ∧ t.fields = s.fields ∧ t.placements = s.placements := by
  refine ⟨_, rfl, ?_⟩
  rw [opBoundary_stops s (fun h => nomatch Eq.trans ho.symm h) (fun h => nomatch Eq.trans ho.symm h) hr ha]
  obtain ⟨t, hm, h⟩ := stopTicks_active s.clocked.takeSnapshots ho ht
  obtain ⟨hlull, hrun⟩ := haltShown_get s.clocked.takeSnapshots
  have hreg : t.reg 0x10014 = s.clocked.takeSnapshots.haltShown.reg 0x10014 := hm.shown _ (by decide) (by decide) (by decide)
  have hl : t.get Reg.Tick.LULL = 1 := Eq.trans (congrArg (fun w : W32 => bits w.toNat 1 1) hreg) hlull
  have hr : t.get Reg.Tick.RUNNING = 0 := Eq.trans (congrArg (fun w : W32 => bits w.toNat 0 0) hreg) hrun
  have hs := hm.standing
  simp only [State.standing, Prod.mk.injEq] at hs
  obtain ⟨htick, -, hsessions, hfields, hplacements⟩ := hs
  have hrunning : t.tick.running = false := congrArg TickSt.running htick
  have hcount : t.tick.count = s.tick.count := Eq.trans (congrArg TickSt.count htick) rfl
  have hwall : t.tick.wall480 = s.clocked.tick.wall480 := Eq.trans (congrArg TickSt.wall480 htick) rfl
  obtain h | h := h
  all_goals
    rw [h]
    exact ⟨hrunning, hcount, hwall, hm.power, hl, hr, hsessions, hfields, hplacements⟩

namespace Paced
variable {s₀ s : State}

theorem gaugeKeys (hs : Paced s₀ s) : Paced s₀ s.gaugeKeys := forAll (fun _ _ h => forAll (fun _ _ => put) h) hs

theorem gaugeBoot (hs : Paced s₀ s) : Paced s₀ s.gaugeBoot := by
  unfold State.gaugeBoot
  refine forAll (fun _ _ => put) ?_
  iterate 15 refine put ?_
  exact hs

theorem recap (hs : Paced s₀ s) : Paced s₀ s.recap := hs

theorem regauge (hs : Paced s₀ s) : Paced s₀ s.regauge := by
  unfold State.regauge
  refine recap ?_
  iterate 10 refine put ?_
  refine forAll (fun _ _ => put) (put (forAll (fun _ _ h => ite h (put (put (put (put (put (put h))))))) ?_))
  refine forAll (fun _ _ h => put (put h)) (forAll (fun _ _ => put) (put (put ?_)))
  exact gaugeLinks (gaugeBoot (gaugeKeys (gaugeFields (gaugeWeights hs))))

end Paced

theorem regauged_started (s : State) : ((s.put Reg.Start.PHASE 1).regauge.forAll allFields State.copyWindow).tick.started = s.tick.started := by
  have h : Paced s ((s.put Reg.Start.PHASE 1).regauge.forAll allFields State.copyWindow) := .forAll (fun _ _ h => h) (.regauge rfl)
  generalize (s.put Reg.Start.PHASE 1).regauge.forAll allFields State.copyWindow = t at h ⊢
  exact congrArg (fun p => p.2.1.1) h

theorem afterReset_unstarted (s : State) (cold windows : Bool) (cause : Nat) : (s.afterReset cold windows cause).tick.started = false := by
  unfold State.afterReset
  dsimp only
  refine (regauged_started _).trans ?_
  generalize s.transfers.foldl State.releaseClaims s = v
  cases v.boot.update with
  | none => cases windows <;> rfl
  | some u => cases windows <;> rfl

/-! ### The statement -/

/-- Settles O11: a boundary runs a tick, stops the ticks or leaves them stopped; of a tick that runs, only its beginning moves the count. -/
theorem boundariesCountOrStop : Obligations.BoundariesCountOrStop := by
  unfold Obligations.BoundariesCountOrStop
  intro s
  refine ⟨afterReset_unstarted s, fun h => congrArg Host.Outcome.next (if_pos (by obtain h | h := h <;> rw [h] <;> rfl)), fun ho hs => ?_⟩
  dsimp only
  refine ⟨fun h => ?_, fun hr ha => ?_, fun hr ha hp ht => ?_, fun hr he => ?_⟩
  · obtain ⟨u, hu, hc, hw⟩ := opBoundary_runs s ho hs h
    have hb := runTick_began u s.levelToCome
    refine ⟨_, congrArg Host.Outcome.next hu, ?_⟩
    generalize u.runTick s.levelToCome = t at hb ⊢
    obtain ⟨hpace, hshown⟩ := hb
    simp only [TickSt.pace, Prod.mk.injEq] at hpace
    obtain ⟨⟨hcount, hlevel⟩, ⟨hstarted, hrunning, hslot⟩, hwall⟩ := hpace
    refine ⟨hrunning, hstarted, fun h => ?_, fun hr hf => ?_, fun hf => ?_, fun hf hl => ?_, hwall.trans hw, hslot, hcount ▸ hshown⟩
    · rw [hlevel]
      exact if_pos (by obtain h | h := h <;> simp [h])
    · rw [hlevel]
      exact if_neg (by simp [hr, hf])
    · rw [hcount, hc]
      exact if_neg (by simp [hf])
    · rw [hcount, hc]
      exact if_pos (by simp [hf, hl])
  · refine ⟨_, congrArg Host.Outcome.next (opBoundary_stops s ho hs hr ha), ?_⟩
    have h := Paced.stopTicks s.clocked.takeSnapshots
    exact ⟨congrArg (fun p => p.2.1.2.1) h, congrArg (fun p => p.1.1) h⟩
  · obtain ⟨t, h, rest⟩ := opBoundary_lull s hp ht hr ha
    exact ⟨t, congrArg Host.Outcome.next h, rest⟩
  · obtain ⟨x, h, rest⟩ := opBoundary_stands s ho hs hr he
    exact ⟨_, congrArg Host.Outcome.next h, rfl, rest⟩

end Sys2Proof.Machine
end
